-- ==== Sys2Proof/Word.lean ====
section
/-! DEFINITION. Word types, sparse tables and their plainest operations. -/

namespace Sys2Proof

/-- A register, message or payload word (R3). -/
abbrev Word := BitVec 64
/-- A 64-byte line, byte i in bits [8i+7:8i] (00, Notation: multi-byte data is little-endian). -/
abbrev Line := BitVec 512
/-- The 640 bits of one sector (R23, Table 01-8): DATA [511:0], INNER [559:512], VER [591:560], MAC [631:592],
TAG [639:632]. -/
abbrev RawSector := BitVec 640

/-- Bits [lo + width - 1 : lo] of a word, as a number. -/
def bitsOf (w : Word) (lo width : Nat) : Nat := (w.toNat / 2 ^ lo) % 2 ^ width

/-- One bit of a word. -/
def bitOf (w : Word) (i : Nat) : Bool := w.getLsbD i

/-- A field of `width` bits placed at `lo`: the register views are sums of these. -/
def field (lo width v : Nat) : Nat := (v % 2 ^ width) * 2 ^ lo

/-- A one-bit field. -/
def flag (lo : Nat) (b : Bool) : Nat := if b then 2 ^ lo else 0

/-- A sparse table: pairs (key, value) with strictly rising keys. -/
abbrev Table (α : Type) := List (Nat × α)

/-- The entry of a key. -/
def Table.get? {α : Type} : Table α → Nat → Option α
  | [], _ => none
  | (k, v) :: t, q => if k = q then some v else Table.get? t q

/-- The entry of a key, or a default. -/
def Table.getD {α : Type} (t : Table α) (q : Nat) (d : α) : α := (Table.get? t q).getD d

/-- Writes an entry, keeping the keys strictly rising. -/
def Table.put {α : Type} : Table α → Nat → α → Table α
  | [], q, x => [(q, x)]
  | (k, v) :: t, q, x =>
    if q < k then (q, x) :: (k, v) :: t
    else if q = k then (q, x) :: t
    else (k, v) :: Table.put t q x

/-- Removes an entry. -/
def Table.del {α : Type} : Table α → Nat → Table α
  | [], _ => []
  | (k, v) :: t, q => if k = q then Table.del t q else (k, v) :: Table.del t q

/-- Writes an entry, or removes it where the value is what an unlisted key reads as. -/
def Table.putD {α : Type} [DecidableEq α] (t : Table α) (q : Nat) (x d : α) : Table α :=
  if x = d then Table.del t q else Table.put t q x

/-- Changes the entry of a key where there is one. -/
def Table.modify {α : Type} (t : Table α) (q : Nat) (f : α → α) : Table α :=
  match Table.get? t q with
  | some v => Table.put t q (f v)
  | none => t

/-- Strictly rising keys: the canonical form. -/
def Table.wf {α : Type} : Table α → Bool
  | [] => true
  | [_] => true
  | (a, _) :: (b, y) :: t => decide (a < b) && Table.wf ((b, y) :: t)

/-- The element of a list at an index, or a default. -/
def nthD {α : Type} (l : List α) (i : Nat) (d : α) : α := l.getD i d

/-- The list with element i replaced (unchanged beyond its end). -/
def setNth {α : Type} (l : List α) (i : Nat) (x : α) : List α := l.set i x

/-- Saturating increment of a counter of `width` bits. -/
def satInc (width v : Nat) : Nat := if v + 1 < 2 ^ width then v + 1 else 2 ^ width - 1

end Sys2Proof
end

