-- ==== Sys2Proof/Types.lean ====
section
/-! DEFINITION. The types of the commands' operands: agents, message fields, what a sense or a decode reports. -/

namespace Sys2Proof

/-- The two host ports (R401). -/
inductive Port where
  | a | b
deriving DecidableEq, Repr

/-- The senders of register accesses: each sees its own instance of the registers of R608. -/
inductive Sender where
  | portA | portB | sideband | mp
deriving DecidableEq, Repr

/-- The senders of mailbox messages (Table 15-1, IDs 0 to 4). -/
inductive BoxId where
  | portA | portB | sideband | fabric | meter
deriving DecidableEq, Repr

/-- The MetaValue of a CXL.mem request (R332). -/
inductive MetaValue where
  | s | a | i
deriving DecidableEq, Repr

/-- A register access: a read, or a write of a value (R3, R6), with the RW1C bits of the register that hardware sets in the
same cycle (R7). -/
inductive RegOp where
  | read
  | write (v : Word) (sets : Word := 0)
deriving DecidableEq, Repr

/-- One read of an LPDDR6 line as its channel returns it (R292): the bits in which it differs from what was written, symbol s
in bits 8s + 7 to 8s, and where they bring it near another codeword, that codeword. -/
structure DramSense where
  err   : BitVec 576 := 0
  other : Option (BitVec 576) := none
deriving DecidableEq, Repr

/-- A read of an LPDDR6 line: at the copy that is read, and at the other one where that fails (R194). -/
structure DramRead where
  first : DramSense := {}
  other : DramSense := {}
deriving DecidableEq, Repr

/-- What the DRAM code makes of a read (R292): no symbol changed, symbols of these DQs corrected, another codeword taken for
it, or a pattern reported uncorrectable. -/
inductive DramDecode where
  | clean
  | corrected (dqs : List Nat)
  | wrong (word : BitVec 576) (dqs : List Nat)
  | uncorrectable
deriving DecidableEq, Repr

/-- What a map fetch meets (R112): the reads of the dense entry and of the eaves set at their less busy copies and, where one
fails, at the other (R194), and whether the dense entry shows a form that R107 forbids. -/
structure MapFetch where
  dense       : DramSense := {}
  denseOther  : DramSense := {}
  eaves       : DramSense := {}
  eavesOther  : DramSense := {}
  malformed   : Bool := false
deriving DecidableEq, Repr

/-- The step of Table 05-4 at which a sector was recovered: the bits its last inner decode corrected, in the ladder with
the number of the attempt that passed; Q as Table 06-2 allows. -/
inductive Recovery where
  | inner (bits : Nat)
  | retry (bits : Nat)
  | ladder (attempt bits : Nat)
  | outer
  | parity
  | second
  | lost
deriving DecidableEq, Repr

/-- One sense of a sector as its die returns it: the bits in which it differs from what was programmed, and, where six or
more differ, the codeword that the inner code's decoder takes them for, with the bits it changes (R180, R181). A sense
that is not listed differs in no bit. -/
structure Sense where
  err : RawSector := 0
  mis : Option (Nat × RawSector) := none
deriving DecidableEq, Repr

/-- What reading a sector on one member of a stripe meets at its die (Table 05-4): its senses in the order they are made,
the 68 sectors of its page as read for the outer code, the sector that the outer decoder makes of a page beyond its bound
(R183), and the positions of the 8 reference cells of its row (R161). -/
structure MemberSense where
  tries : List Sense := []
  page  : List Sense := []
  wrong : Option RawSector := none
  cells : List Nat := []
deriving DecidableEq, Repr

/-- What a medium read meets at the dies: at the target, and at the other members of its stripe in ascending stack order. -/
structure SenseResult where
  target  : MemberSense := {}
  sources : List MemberSense := []
deriving DecidableEq, Repr

/-- What a response deadline or a fault report concerns (R225, R310). -/
inductive FaultUnit where
  | die (stack group : Nat)
  | channel (mc : Nat)
  | lpddr (dc : Nat)
deriving DecidableEq, Repr

/-- The tolerated single faults of Table 06-6, as the release of held requests names them. -/
inductive HeldFault where
  | medium
  | lpddr (device : Nat)
  | hostLane (port : Port)
  | sglLane (port : Nat)
  | sglLink (port : Nat)
  | sram (slice : Nat)
deriving DecidableEq, Repr

/-- What SRAM patrol finds in one word (R186, R196, R224). -/
inductive SramFinding where
  | clean
  | corrected
  | lookaside (lpn : Nat)
  | predictor (slice index : Nat)
  | mshr (node dla : Nat)
  | directory (dla : Nat)
  | hsf (node dla : Nat)
  | spare (slice : Nat)
deriving DecidableEq, Repr

/-- What a host request meets in the SRAM words it reads (R45, R186, R196): nothing, a word corrected in line, an uncorrectable
word of the line's data, or an uncorrectable entry of its lookaside, predictor, MSHR, directory or host snoop filter. -/
inductive SramMeet where
  | clean | corrected | data | lookaside | predictor | mshr | directory | hsf
deriving DecidableEq, Repr

/-- A host request as its port takes it: its tag, and what its lookups meet in the SRAM. -/
structure ReqTag where
  tag : Nat
  met : SramMeet := .clean
deriving DecidableEq, Repr

/-- The readings of one thermal update (R525): the voltage (mV) and current (10 mA) of each comparator code 0 to 13,
the activity of each node's share (Table 17-2) and the eight diode readings in 1/256 degree. -/
structure ThermalInput where
  volts    : List Nat
  currents : List Nat
  monBad   : List Bool
  activity : List Nat
  diodes   : List Int
deriving DecidableEq, Repr

/-- Why Flush is entered (R502). -/
inductive FlushCause where
  | vin | shutdown | junction
deriving DecidableEq, Repr

/-- The messages of Table 12-5. -/
inductive MsgKind where
  | rdS | rdX | rdC | upg | evc | mgq | snpS | snpX | snpC | snpI | rspI | rspS | rspFwd | rspWb | rtyH | cmp | cmpX
  | mgr | datS | datX | datC | wrT | evX | reserved
deriving DecidableEq, Repr

/-- An SGL message: the fields of Table 10-5 and of the management header (Table 12-4). A field that the message does
not carry is 0. `payload` is the management payload's granules. -/
structure SglMsg where
  kind    : MsgKind
  src     : Nat
  dst     : Nat
  sub     : Nat := 0
  txid    : Nat := 0
  line    : Nat := 0
  kid     : Nat := 0
  port    : Nat := 0
  reqn    : Nat := 0
  rqtx    : Nat := 0
  own     : Bool := false
  fwd     : Bool := false
  data    : Line := 0
  mask    : BitVec 64 := 0
  ver     : Nat := 0
  poison  : Bool := false
  crd     : Bool := false
  rsn     : Nat := 0
  wseq    : Nat := 0
  mcode   : Nat := 0
  frag    : Nat := 0
  more    : Bool := false
  payload : List Word := []
deriving DecidableEq, Repr

/-- A control flit's payload (Table 12-6) as the receiver decodes it. -/
structure CtlPayload where
  nak        : Bool
  keySwitch  : Bool
  retrainReq : Bool
  linkDown   : Bool
  nakSeq     : Nat
  credits    : List Nat
  keyAt      : Nat
deriving DecidableEq, Repr

/-- A flit as received (Table 12-1): its kind (Table 12-2), the result of its CRC and tag checks, its header fields, and the
14 granules of a data flit or the payload of a control flit. -/
structure RxFlit where
  kind     : Nat
  crcOk    : Bool
  tagOk    : Bool
  seq      : Nat
  ack      : Nat
  ackv     : Bool
  granules : List Word
  ctl      : Option CtlPayload
deriving DecidableEq, Repr

/-- An FEC block as received (R365): its symbols in error, its block number modulo 4,096 and its five flits. -/
structure FecBlock where
  errors : Nat
  blk    : Nat
  flits  : List RxFlit
deriving DecidableEq, Repr

/-- The identity training set of a port (Table 12-9). -/
structure TrainSet where
  node   : Nat
  cfg    : Bool
  port   : Nat
  ridge  : Bool
  pool   : Nat
  topo   : Nat
  bufs   : List Nat
  serial : Word
deriving DecidableEq, Repr

/-- What a training attempt meets (R380, R381): how far the electrical steps came, the neighbour's identity set
(Table 12-9) and whether its certificate chains to the pool trust store (R376). -/
structure TrainInput where
  width      : Nat
  lockOk     : Bool
  nbrNode    : Nat
  nbrPort    : Nat
  nbrCfg     : Bool
  nbrPool    : Nat
  nbrTopo    : Nat
  nbrSerial  : Nat
  certRoot   : Nat
  bufs       : List Nat
deriving DecidableEq, Repr

/-- One port's line in an LSA payload (Table 12-11). -/
structure LsaPort where
  live    : Bool
  width   : Nat
  nbr     : Nat
  nbrPort : Nat
deriving DecidableEq, Repr

/-- An LSA payload (Table 12-11). -/
structure Lsa where
  origin : Nat
  serial : Nat
  seq    : Nat
  ridge  : Bool
  gen    : Nat
  ready  : Bool
  ports  : List LsaPort
deriving DecidableEq, Repr

/-- A route entry (Table 12-7). -/
structure RouteEntry where
  min   : Nat
  esc   : Nat
  hops  : Nat
  reach : Bool
deriving DecidableEq, Repr

/-- The result of one Boot step (Table 16-4): what its checks and trainings found: the image check of step 5, the LPDDR6
rate code at which training ended, the LPDDR6 channels that failed at the lowest rate, DQ marked by channel × 24 + DQ, the
medium channels that failed, and the diode readings in 1/256 °C with their spread over 16 readings. -/
structure BootInput where
  imageOk    : Bool
  dramRate   : Nat
  dramFail   : List Nat
  dqFail     : List Nat
  mediumFail : List Nat
  diodes     : List Int
  diodeSpread : List Nat
deriving DecidableEq, Repr

/-- What the Replay reads of the log and checkpoint amount to (R264 to R266). -/
structure ReplayInput where
  recoverable : Bool
  highest     : Nat
  millis      : Nat
deriving DecidableEq, Repr

/-- The four event logs of a CXL port (R430, R573). -/
inductive CxlLog where
  | info | warning | failure | fatal
deriving DecidableEq, Repr

end Sys2Proof
end

