-- ==== Sys2Proof/Syntax.lean ====
section
/-! DEFINITION. The commands of the block: one constructor per row of the table of operations and events, in the
table's order, with the operands its step needs. A command is a request, a message, an access or an event as it
reaches the part; what the outside or the physics decides (a decode, a reading, a pass or a fail) is an operand. -/

namespace Sys2Proof

/-- The commands (spec/opcode_table.json). Lines are named by the home node and the device line address (DLA, R19);
slices, groups, partitions, courses, stacks and channels by their numbers. -/
inductive Instr where
  | registerWrite (snd : Sender) (off width : Nat) (op : RegOp)
  | hostMemRd (port : Port) (mv : MetaValue) (hpa : Nat) (tag : ReqTag)
  | runAheadHint (lpn : Nat)
  | hostMemWr (port : Port) (mv : MetaValue) (hpa : Nat) (data : Line) (mask : BitVec 64) (poison : Bool) (tag : ReqTag)
  | leaseProgrammed (seg : Nat)
  | dovetailTimeout (dla : Nat)
  | dovetailMerge (dla : Nat)
  | lookasideResult (dla : Nat) (fetch : MapFetch)
  | dramCacheTagResult (node dla : Nat)
  | lpddr6ReadDone (node dla : Nat) (res : DramRead)
  | dramWriteback (line : Nat)
  | mediumReadStart (rid : Nat)
  | mediumReadDone (rid : Nat) (res : SenseResult)
  | dmaResume (chan : Nat)
  | readTransferred (group part stack : Nat)
  | slotGrant
  | roundStart (group stream : Nat)
  | rowProgramDone (group part : Nat) (pass : Bool)
  | resetDone (group part : Nat) (pass : Bool)
  | roundDeadline (group stream : Nat)
  | drainRowReadback (stripe stack row : Nat) (worst : Option Nat)
  | verifyReadDue (stripe stack row : Nat) (worst : Option Nat)
  | foldStep (quadrant : Nat)
  | relocationSwitch (lpn : Nat)
  | gcStep (group : Nat)
  | levelCheck
  | rgenAdvance
  | reclaimGrant (stripe : Nat)
  | thermalUpdate (inp : ThermalInput)
  | levelFall
  | warnClear
  | graceExpire
  | standbyModelTick (diodes : List Int)
  | edSave
  | stripeAgePad (stripe : Nat)
  | driftSweep (course : Nat)
  | ageSurvey (course : Nat) (first last : List Sense) (firstCells lastCells : List Nat)
  | refreshLevelTimer (stripe : Nat)
  | refreshStep
  | patrolScrub (course sector : Nat) (res : SenseResult)
  | dramPatrol (line : Nat) (res : DramRead)
  | sramPatrol (slice : Nat) (finding : SramFinding)
  | mpTrap
  | responseDeadlineMiss (unit : FaultUnit)
  | faultRelease (fault : HeldFault)
  | rebuildStep
  | remirrorStep
  | holdupMeasure
  | holdupResult (va vb vc : Nat)
  | chargerTimeout
  | budgetUpdate (vhold : Nat)
  | epochTimer
  | epochStage
  | epochCommit
  | epcClose (snd : Sender)
  | checkpointSegmentWrite
  | checkpointRootWrite
  | flushEntry (cause : FlushCause)
  | flushDone
  | replayStart (inp : ReplayInput)
  | replayDone (inp : ReplayInput)
  | evictionDone (slice set way : Nat)
  | mshrFill (node dla : Nat)
  | maintClean (snd : Sender) (count : Nat)
  | maintInval (snd : Sender) (count : Nat)
  | maintFlush (snd : Sender) (count : Nat)
  | maintDone (snd : Sender)
  | sccCommit (snd : Sender)
  | wayPowerOffDone (way : Nat)
  | cacheOffDone
  | bankRefreshDue (ch rank bank : Nat)
  | bankRefreshStart (ch rank bank : Nat)
  | dqsTrack (ch : Nat)
  | channelRetrain (ch : Nat)
  | rankPowerDown (ch rank : Nat)
  | rdS (src txid dla kid port input : Nat)
  | rdX (src txid dla kid port input : Nat)
  | rdC (src txid dla kid port input : Nat)
  | upg (src txid dla kid port input : Nat)
  | evc (src txid dla : Nat)
  | wrT (src txid dla kid : Nat) (data : Line) (mask : BitVec 64) (poison : Bool) (wseq : Nat)
  | evX (src txid dla wseq : Nat)
  | snpS (home txid dla : Nat) (own : Bool) (reqn rqtx : Nat)
  | snpX (home txid dla : Nat) (own : Bool) (reqn rqtx : Nat)
  | snpC (home txid dla : Nat) (own : Bool) (reqn rqtx : Nat)
  | snpI (home txid dla : Nat) (own : Bool) (reqn rqtx : Nat)
  | holdWindowExpire (home dla : Nat)
  | hostRecallDone (home dla : Nat) (data : Option Line)
  | rspI (src txid dla : Nat)
  | rspS (src txid dla : Nat)
  | rspFwd (src txid dla : Nat)
  | rspWb (src txid dla : Nat) (fwd : Bool)
  | rtyH (home txid dla rsn : Nat)
  | retryBackoffExpire (home dla : Nat)
  | wayHoldExpire (slice set : Nat)
  | cmp (src txid dla ver : Nat) (crd : Bool)
  | cmpX (src txid dla : Nat)
  | datS (src txid dla kid : Nat) (data : Line) (ver : Nat) (poison : Bool)
  | datX (src txid dla kid : Nat) (data : Line) (ver : Nat) (poison : Bool)
  | datC (src txid dla kid : Nat) (data : Line) (ver : Nat) (poison : Bool)
  | snoopTimeout (node dla : Nat)
  | fencedAnswer (node dla : Nat)
  | suspectExpire (node : Nat)
  | proxyTimeout (home dla : Nat)
  | biRsp (port : Port) (node dla : Nat) (keepS : Bool)
  | biTimeout (port : Port) (node dla : Nat)
  | biConflict (port : Port) (node dla tag : Nat)
  | fecBlockReceive (port : Nat) (blk : FecBlock)
  | controlFlit (port : Nat) (ctl : CtlPayload)
  | nakRepeat (port : Nat)
  | ackTimeout (port : Nat)
  | controlFlitDue (port : Nat)
  | blockDecodeTimeout (port : Nat)
  | rekey (port : Nat)
  | keySwitchApply (port : Nat)
  | linkTrain (port : Nat) (inp : TrainInput)
  | refusedRetry (port : Nat)
  | messageForward (inPort sub : Nat) (msg : SglMsg)
  | fragmentTimeout (src txid mcode : Nat)
  | lsa (port : Nat) (body : Lsa)
  | routeInstall
  | duplicateExpire (node serial : Nat)
  | ready (child : Nat) (map : List Nat)
  | gatherWindowExpire
  | member (port gen ridge : Nat) (map : List Nat)
  | holdLimitExpire
  | join (node serial : Nat)
  | dead (node cause : Nat)
  | memberUnreachable (node : Nat)
  | salvage (port lastSeq : Nat)
  | pflush (src txid port : Nat)
  | mpMsg (src inc : Nat) (word : Word)
  | perstAssert (port : Port)
  | hostLinkLoss (port : Port)
  | hostLaneFault (port : Port) (lane : Nat)
  | hostLinkTrain (port : Port) (lanes : Nat) (rate : Nat) (loflit : Bool)
  | gpfPhase1 (port : Port) (tag : Nat)
  | gpfPhase2 (port : Port) (tag : Nat)
  | clampRead (n : Nat) (readers : List Sender) (upper : Bool)
  | clampRelease (snd : Sender) (n : Nat)
  | clampForce (snd : Sender) (n : Nat)
  | cxlIdentify (port : Port)
  | cxlBackgroundStatus (port : Port)
  | cxlGetEventRecords (port : Port) (log : CxlLog)
  | cxlClearEventRecords (port : Port) (log : CxlLog) (handles : List Nat)
  | cxlGetEventIntPolicy (port : Port)
  | cxlSetEventIntPolicy (port : Port) (policy : List Nat)
  | cxlGetFwInfo (port : Port)
  | cxlTransferFw (port : Port) (action slot offset : Nat) (words : List Word)
  | cxlActivateFw (port : Port) (slot : Nat) (online : Bool)
  | cxlGetTimestamp (port : Port)
  | cxlSetTimestamp (port : Port) (seconds : Nat)
  | cxlGetSupportedLogs (port : Port)
  | cxlGetLog (port : Port)
  | cxlIdentifyMemoryDevice (port : Port)
  | cxlGetPartitionInfo (port : Port)
  | cxlGetLsa (port : Port) (off len : Nat)
  | cxlSetLsa (port : Port) (off : Nat) (bytes : List (BitVec 8))
  | cxlGetHealthInfo (port : Port)
  | cxlGetAlertConfig (port : Port)
  | cxlSetAlertConfig (port : Port) (cfg : List Nat)
  | cxlGetShutdownState (port : Port)
  | cxlSetShutdownState (port : Port) (dirty : Bool)
  | cxlGetPoisonList (port : Port) (dpa len : Nat)
  | cxlInjectPoison (port : Port) (dpa : Nat)
  | cxlClearPoison (port : Port) (dpa : Nat) (data : Line)
  | cxlScanMediaCaps (port : Port)
  | cxlScanMedia (port : Port)
  | cxlScanMediaResults (port : Port)
  | cxlSanitize (port : Port)
  | cxlSecureErase (port : Port)
  | reencStep (seg : Nat)
  | reencDone (seg : Nat)
  | reencQueueStart
  | keyInstall (snd : Sender) (arg : Nat) (payload : List Word)
  | keyQuery (snd : Sender) (arg : Nat)
  | keyRetire (snd : Sender) (arg : Nat)
  | keyRekey (snd : Sender) (arg : Nat) (payload : List Word)
  | keyRetireDone (kid : Nat)
  | trustAdd (snd : Sender) (arg : Nat) (payload : List Word)
  | trustRemove (snd : Sender) (arg : Nat)
  | ideIntegrityFailure (port : Port)
  | ideKeyRefresh (port : Port)
  | ideKeyExpire (port : Port)
  | sanitizeDone
  | mbxPost (snd : Sender) (word : Word)
  | messageTake
  | acknowledge (box : BoxId) (rc : Nat)
  | outboxPost (box : BoxId)
  | outboxFree (snd : Sender)
  | drawerOpen (snd : Sender)
  | drawerClose (snd : Sender)
  | drawerPop (snd : Sender)
  | drawerWrite (snd : Sender) (word : Word)
  | nop (box : BoxId) (arg : Nat)
  | identify (box : BoxId) (arg : Nat)
  | getMode (box : BoxId) (arg : Nat)
  | reqMode (box : BoxId) (arg : Nat)
  | shutdown (box : BoxId) (arg : Nat)
  | winStage (box : BoxId) (arg : Nat)
  | winRemove (box : BoxId) (arg : Nat)
  | winCommit (box : BoxId) (arg : Nat)
  | winQuery (box : BoxId) (arg : Nat)
  | setAperture (box : BoxId) (arg : Nat)
  | closeEpoch (box : BoxId) (arg : Nat)
  | setEpochTimer (box : BoxId) (arg : Nat)
  | measureHoldup (box : BoxId) (arg : Nat)
  | getLoss (box : BoxId) (arg : Nat)
  | mediaHealth (box : BoxId) (arg : Nat)
  | setLevelSpread (box : BoxId) (arg : Nat)
  | readReftable (box : BoxId) (arg : Nat)
  | format (box : BoxId) (arg : Nat)
  | formatDone
  | sanitize (box : BoxId) (arg : Nat)
  | scanMedia (box : BoxId) (arg : Nat)
  | setSlots (box : BoxId) (arg : Nat)
  | setPdTimer (box : BoxId) (arg : Nat)
  | setDramRate (box : BoxId) (arg : Nat)
  | setThermal (box : BoxId) (arg : Nat)
  | setSupervisor (box : BoxId) (arg : Nat)
  | clearPsvFault (box : BoxId) (arg : Nat)
  | setNode (box : BoxId) (arg : Nat)
  | setPool (box : BoxId) (arg : Nat)
  | setTopology (box : BoxId) (arg : Nat)
  | setRoster (box : BoxId) (arg : Nat)
  | setHoldNs (box : BoxId) (arg : Nat)
  | setRemoteCache (box : BoxId) (arg : Nat)
  | setGather (box : BoxId) (arg : Nat)
  | setHoldLimit (box : BoxId) (arg : Nat)
  | poolStatus (box : BoxId) (arg : Nat)
  | mpForward (box : BoxId) (arg : Nat)
  | evrFreeze (box : BoxId) (arg : Nat)
  | pmcConfig (box : BoxId) (arg : Nat)
  | trbConfig (box : BoxId) (arg : Nat)
  | fwBegin (box : BoxId) (arg : Nat)
  | fwData (box : BoxId) (arg : Nat)
  | fwEnd (box : BoxId) (arg : Nat)
  | fwCheckDone (sigOk sizeOk : Bool) (version secVersion : Nat)
  | fwActivate (box : BoxId) (arg : Nat)
  | fwInfo (box : BoxId) (arg : Nat)
  | meterRecord (box : BoxId) (arg : Nat)
  | meterTenant (box : BoxId) (arg : Nat)
  | meterId (box : BoxId) (arg : Nat)
  | meterKey (box : BoxId) (arg : Nat)
  | meterAudit (box : BoxId) (arg : Nat)
  | meterNote (notice : Nat)
  | prepareReturn (box : BoxId) (arg : Nat)
  | diagSnapshot (box : BoxId) (arg : Nat)
  | vauxApply
  | vauxLoss
  | vinDrop
  | vinReturn
  | vinUnderVoltage
  | vinOverVoltage
  | railFault (code : Nat)
  | vaoFault
  | vholdWindow (inside above : Bool)
  | holdShort
  | psvStart (snd : Sender)
  | bootEntry
  | bootStep (inp : BootInput)
  | railStartTimeout
  | powerdownStep
  | powerdownStepTimeout
  | fallbackTimeout
  | powerdownEnd
  | standbyHoldExpire
  | refclkLoss
  | refclkReturn
  | xtalFail
  | deepIdleEntry
  | deepIdleWake
  | meterSample (millivolts milliamps : Nat)
  | intervalClose
  | meterRestart
  | feedSend (group : Nat)
  | feedReceive
  | feedGap (group : Nat)
  | meterRelayAnswer
  | meterReadId
  | meterSetLength (minutes : Nat)
  | meterFwLoad (image : List Word)
  | meterFwActivate (sigOk : Bool)
  | sealChange (low : Bool)
  | pstProgram (snd : Sender) (count : Nat)
  | pstWriteDone (bank : Nat)
  | pstRead (snd : Sender) (corrected : Bool)
  | pstWdataWrite (snd : Sender) (word : BitVec 32)
  | opMinuteTick
  | eventQueueDrain
  | freezeExpire
  | evrSnapshot (snd : Sender)
  | evrAdvance (snd : Sender)
  | pmcFreeze (snd : Sender) (on : Bool)
  | trbSnapshot (snd : Sender)
  | trbAdvance (snd : Sender)
  | extest
  | samplePreload
  | idcode
  | tapClamp
  | highz
  | extestPulse
  | extestTrain
  | bypass
  | privateInstruction (code : Nat)
  | trstAssert
  | returnUnlock (authentic : Bool)
  | blockLockLoss (port : Nat) (lanes : List Nat)
  | dieInternalFault (unit : FaultUnit)
  | mpRestartDone (checkOk : Bool)
  | sidebandBusReset
  | holdupDailyMeasurement
  | pflushReply (src txid epoch : Nat)
  | securedSpdmSession (snd : Sender) (establish mutualAuth : Bool) (root : Nat)
deriving DecidableEq, Repr

end Sys2Proof
end

