-- ==== Sys2Proof/Decode.lean ====
section
/-! DEFINITION. The command a table word spells. -/

namespace Sys2Proof

/-- The command that a word of the table's bits spells: no row of the table gives bits (log 12). -/
def decodeTableWord (_nbits _w : Nat) : Option Instr := none

end Sys2Proof
end

