-- ==== Sys2Proof/Machine/Codes.lean ====
section
/-! DEFINITION. The codes of a sector, a page and a round: the inner code with its CRC-7, the outer Reed-Solomon code, and
the byte sums of Q (01, 04, 06). -/

namespace Sys2Proof.Machine

/-! ### Remainders over GF(2) -/

/-- Subtracts the multiples of a polynomial of degree d from the terms of degree d + n - 1 down to d: the remainder. -/
def polyRem (gen d : Nat) : Nat → Nat → Nat
  | 0, a => a
  | n + 1, a => polyRem gen d n (if a.testBit (n + d) then a ^^^ (gen <<< n) else a)

/-- The XOR of the low n bits of a number. -/
def parityOf : Nat → Nat → Bool
  | 0, _ => false
  | n + 1, a => a.testBit n != parityOf n a

/-- The number of ones among the low n bits of a number. -/
def weightOf : Nat → Nat → Nat
  | 0, _ => 0
  | n + 1, a => weightOf n a + (if a.testBit n then 1 else 0)

/-! ### CRC-32 and bytes -/

/-- One bit of the CRC-32 of R609, reflected. -/
def crcBit (c : BitVec 32) : BitVec 32 := if c.getLsbD 0 then (c >>> 1) ^^^ 0xEDB88320#32 else c >>> 1

/-- One byte of the CRC-32. -/
def crcByte (c : BitVec 32) (b : Nat) : BitVec 32 :=
  crcBit (crcBit (crcBit (crcBit (crcBit (crcBit (crcBit (crcBit (c ^^^ BitVec.ofNat 32 (b % 256)))))))))

/-- CRC-32 of bytes in ascending address order (R609). -/
def crc32 (bs : List Nat) : BitVec 32 := bs.foldl crcByte 0xFFFFFFFF#32 ^^^ 0xFFFFFFFF#32

/-- The n little-endian bytes of a number. -/
def bytesOf (v : Nat) : Nat → List Nat
  | 0 => []
  | n + 1 => v % 256 :: bytesOf (v / 256) n

/-! ### The inner code -/

/-- Generator polynomial of degree 40 of the 4-error-correcting BCH code over GF(2^10) (R180): the product of the minimal
polynomials of α, α³, α⁵ and α⁷ with α a root of x^10 + x^3 + 1; the manual names no polynomial of the field (PRESUMED,
log 97). -/
def bchGen : Nat := 0x182EBE91E9B

/-- CRC-7 with polynomial 0x09, x^7 + x^3 + 1, over the 592 protected bits (R180): it starts from 0, for the inner code is
linear (DEDUCED, log 97). -/
def crc7 (p : Nat) : Nat := polyRem 0x89 7 592 (p <<< 7)

/-- INNER of the protected bits (R180): the BCH check bits over them and the CRC, the overall parity bit, and the CRC. That
the CRC lies under the BCH code, and the CRC and the check bits under the parity, follows from the 640 bits in which it
corrects (DEDUCED, log 97). -/
def innerOf (p : Nat) : Nat :=
  let crc := crc7 p
  let msg := p + crc <<< 592
  let chk := polyRem bchGen 40 599 (msg <<< 40)
  chk + (if parityOf 599 msg != parityOf 40 chk then 2 ^ 40 else 0) + crc <<< 41

/-- The protected bits of a sector, without INNER: DATA, VER, MAC, TAG (R24). -/
def protBits (r : RawSector) : BitVec 592 := BitVec.extractLsb' 560 80 r ++ BitVec.extractLsb' 0 512 r

/-- INNER of a sector (Table 01-8). -/
def secInner (r : RawSector) : Nat := (BitVec.extractLsb' 512 48 r).toNat

/-- The sector of its protected bits, with its INNER (R23, R180). -/
def sectorOf (p : BitVec 592) : RawSector :=
  BitVec.extractLsb' 512 80 p ++ BitVec.ofNat 48 (innerOf p.toNat) ++ BitVec.extractLsb' 0 512 p

/-- The CRC-7 in a sector's INNER agrees with its protected bits (R180). -/
def crcHolds (r : RawSector) : Bool := secInner r / 2 ^ 41 == crc7 (protBits r).toNat

/-- What the inner decoder makes of a sense of a stored sector (R180, R181): a pattern of up to 4 errors is corrected, one
of 5 detected; beyond, the decoder fails, or miscorrects to a codeword whose CRC-7 must hold. None is FAIL. -/
def innerDecode (stored : RawSector) (x : Sense) : Option (Nat × RawSector) :=
  let n := weightOf 640 x.err.toNat
  if n ≤ 4 then some (n, stored)
  else if n = 5 then none
  else
    match x.mis with
    | some (b, r) => if crcHolds r then some (min b 4, r) else none
    | none => none

/-! ### Bytes over GF(2^8) -/

/-- A number of n bytes, each the byte given. -/
def repByte (b n : Nat) : Nat := b * ((256 ^ n - 1) / 255)

/-- Each of n bytes times 0x02, with reduction polynomial 0x11D (R129, R182). -/
def xtimes (n v : Nat) : Nat :=
  let hi := (v >>> 7) &&& repByte 1 n
  ((v &&& repByte 0x7F n) <<< 1) ^^^ (hi * 0x1D)

/-- Each of n bytes times a byte c. -/
def byteMul (n c v : Nat) : Nat :=
  ((List.range 8).foldl (fun (a : Nat × Nat) i =>
    (if c.testBit i then a.1 ^^^ a.2 else a.1, xtimes n a.2)) (0, v)).1

/-- A power in GF(2^8). -/
def bytePow (c : Nat) : Nat → Nat
  | 0 => 1
  | k + 1 => byteMul 1 c (bytePow c k)

/-- The inverse of a byte: its 254th power. -/
def byteInv (c : Nat) : Nat := bytePow c 254

/-! ### The outer code -/

/-- Coefficients, of degree 3 down to 0, of the generator (x + 1)(x + 2)(x + 4)(x + 8) of RS(68,64): the manual gives the
reduction polynomial and not the roots (PRESUMED, log 97). -/
def rsGen : List Nat := [0x0F, 0x36, 0x78, 0x40]

/-- One step of the systematic encoder: the four registers take a symbol, at each of n byte positions. -/
def rsStep (n : Nat) (regs : List Nat) (sym : Nat) : List Nat :=
  let fb := sym ^^^ regs.getD 0 0
  (List.range 4).map (fun i => regs.getD (i + 1) 0 ^^^ byteMul n (rsGen.getD i 0) fb)

/-- The four outer-code sectors of a page's 64 line sectors, each with its own INNER (R182). -/
def outerSectors (lines : List RawSector) : List RawSector :=
  (lines.foldl (fun g r => rsStep 74 g (protBits r).toNat) [0, 0, 0, 0]).map (fun v => sectorOf (BitVec.ofNat 592 v))

/-- The outer decoder of a page whose sectors decoded as given, the target's place counted as failed (R183): it corrects e
erasures and u unknown errors with e + 2u ≤ 4. Beyond that it fails, or delivers a sector whose CRC-7 must hold. -/
def outerDecode (target : Nat) (stored : List RawSector) (x : MemberSense) : Option RawSector :=
  let ds := (List.range 68).map (fun i =>
    if i = target then none else innerDecode (stored.getD i 0) (x.page.getD i {}))
  let e := ds.countP (fun d => d.isNone)
  let u := (List.range 68).countP (fun i => match ds.getD i none with
    | some (_, r) => r != stored.getD i 0
    | none => false)
  if e + 2 * u ≤ 4 then some (stored.getD target 0)
  else if 4 < e then none
  else x.wrong.filter crcHolds

/-! ### The DRAM code -/

/-- CODE of an LPDDR6 line: the check symbols 68 to 71 of RS(72,68) over DATA and CTR, with the outer code's generator
(R290, R292; the roots PRESUMED, log 97). -/
def lineCode (d : Line) (ctr : Nat) : BitVec 32 :=
  let regs := (bytesOf d.toNat 64 ++ bytesOf ctr 4).foldl (rsStep 1) [0, 0, 0, 0]
  BitVec.ofNat 32 (regs.zipIdx.foldl (fun a x => a + x.1 * 256 ^ x.2) 0)

/-- The 576 bits of an LPDDR6 line: DATA, and the metadata bits CTR and CODE (R288, R290). -/
def dramWord (d : Line) (ctr : Nat) : BitVec 576 := lineCode d ctr ++ BitVec.ofNat 32 ctr ++ d

/-- The symbols of a word that are not zero. -/
def symsOf (w : BitVec 576) : List Nat := (List.range 72).filter (fun i => BitVec.extractLsb' (8 * i) 8 w != 0)

/-- The DQ that carries a symbol: symbols 0 to 23 are those of beats 0 to 7, in the order of the DQs (R292; the order DESIGN
CHOICE, log 113). -/
def dqOf (sym : Nat) : Nat := sym % 24

/-- The DRAM code's decoder (R292, R293): it corrects e erased symbols, the 3 of the channel's marked DQ, and u unknown ones
with e + 2u ≤ 4. Any other pattern is reported uncorrectable, unless another codeword lies as near. -/
def dramDecode (mark : Option Nat) (stored : BitVec 576) (x : DramSense) : DramDecode :=
  let e := if mark.isSome then 3 else 0
  let fits := fun (syms : List Nat) => decide (e + 2 * syms.countP (fun i => mark != some (dqOf i)) ≤ 4)
  let dqs := fun (syms : List Nat) => (syms.map dqOf).eraseDups
  let bad := symsOf x.err
  if bad.isEmpty then .clean
  else if fits bad then .corrected (dqs bad)
  else
    match x.other with
    | some w =>
      let c := symsOf (stored ^^^ x.err ^^^ w)
      if w = dramWord (BitVec.extractLsb' 0 512 w) (BitVec.extractLsb' 512 32 w).toNat && fits c then .wrong w (dqs c)
      else .uncorrectable
    | none => .uncorrectable

/-! ### Two lost members of a round -/

/-- A byte range of the member on stack a, where the members on a and b of a round are unknown (Table 06-2): `x` is the
XOR of the others, and `q` is Q plus the others' terms of it (R129). -/
def twoLost (n a b x q : Nat) : Nat :=
  let d := bytePow 2 a ^^^ bytePow 2 b
  byteMul n (byteInv d) (q ^^^ byteMul n (bytePow 2 b) x)

end Sys2Proof.Machine
end

