-- ==== Sys2Proof/Config.lean ====
section
/-! DEFINITION. What the manual leaves to the chip or leaves open: constants without a body, so that nothing in Lean can
evaluate one or prove a value of it. Every use is named in the assumption log. -/

namespace Sys2Proof.Config

/-- A free number: the value of the model's n-th free draw (assumption log 6). -/
opaque freeNat : Nat → Nat

/-- A free line of 64 bytes (log 6). -/
opaque freeLine : Nat → Line

/-- The low 12 bits of the code of an event kind: the manual fixes only its class (Table 19-4; log 7). -/
opaque eventCodeLow : Nat → BitVec 12

/-- Parameter k of an event record, of the event kind and of what the event is about (R569 fixes P0 and P1 of a line,
R516 those of a mode change, R533 P0 of a Warn crossing; log 7). -/
opaque eventParam : Nat → List Nat → Nat → BitVec 32

/-- The heat capacity C of a node, in units of 10 µW × 1 ms for 1/256 °C (R525; calibration fused at manufacture; log 8). -/
opaque heatCap : Nat → Nat

/-- The coupling G of two nodes, in units of 10 µW for 1/256 °C (R525; calibration fused at manufacture; log 8). -/
opaque coupling : Nat → Nat → Int

/-- The share of a rail's power that a node takes while none of the rail's activity counters counts, in units of 2^-16
(Table 17-2 gives no share then; log 8). -/
opaque idleShare : Nat → Nat → Nat

/-- The rated maximum current of a rail in 10 mA (R530; log 8). -/
opaque ratedCurrent : Nat → Nat

/-- Whether an advance of E_d by a time × AF(T) is rounded up to the next unit of 2^-16 s: its rounding (R152; log 8). -/
opaque agingUp : Int → Bool

/-- The shift of one reference that a row's 8 reference cells show against a row of its die's table, in table codes, of the
cells' positions, the table row and the reference (R161; log 98). -/
opaque cellShift : List Nat → List Nat → Nat → Int

/-- The position of level 0, the reset level, among a die's table codes (R162; log 98). -/
opaque resetLevel : Nat → Int

/-- The position midway between two others on the logarithmic resistance scale (R162; log 98). -/
opaque midLog : Int → Int → Int

/-- The effective age, in whole seconds, that the survey estimates from the table row that a refined set fits best and the
set itself (R167; log 98). -/
opaque fitAge : Nat → List Int → Nat

/-- The XTS tweak of a ledger or metadata sector under the internal media key, of its course and its number (R116, 07; log
99). -/
opaque mediaTweak : Nat → Nat → Nat

/-- The device root secret fused at manufacture enters only here: the internal media key of a media salt (R436; log 9). -/
opaque mediaKey : Nat → BitVec 512

/-- The device serial number (R482, R554). -/
opaque serial : Word

/-- The words of IDENTIFY's ordering code (R482; log 10). -/
opaque orderingCode : Nat → Word

/-- A die's reference table row: 15 codes (05, References; R482). -/
opaque refTable : Nat → Nat → Nat → BitVec 8

/-- The revision of a die's reference table. -/
opaque refRevision : Nat → BitVec 8

/-- The signature of a meter record: r and s as eight words (R555; log 9). -/
opaque meterSignature : List Word → Nat → Word

/-- The version a meter firmware image carries (R556; log 9). -/
opaque meterVersion : List Word → Nat

/-- The words METER_KEY returns (R555; log 9). -/
opaque meterKeyWord : Nat → Word

/-- The DRAM line number N at which a line's copy lies in the read cache or the remote cache, by home node × 2^36 + DLA:
placement within these regions is not given (R274, R296; log 6). -/
opaque dramLineOf : Nat → Nat

/-- The number of the slot of the write buffer that a line takes in an epoch, by epoch × 2^36 + DLA: the choice of a slot is
not given (R239, R296; log 6). -/
opaque slotIndex : Nat → Nat

/-- The staged row, as (stripe × 8 + stack) × 512 + row, that a line of the row staging belongs to: placement there is not
given (R296; log 6). -/
opaque stagedRowAt : Nat → Nat

/-- A CXL payload word that the CXL standard and not this manual lays out, of the opcode, the word and the values the
manual names (log 10). -/
opaque cxlWord : Nat → Nat → List Nat → Word

end Sys2Proof.Config
end

