-- ==== Sys2Proof/State/Boxes.lean ====
section
/-! DEFINITION. State of the mailboxes, drawers, the management processor, firmware slots and clamps (13, 15). -/

namespace Sys2Proof.Machine

/-- A stage of a drawer (R477). -/
inductive Stage where
  /-- the reserved stage of a packet that is still open -/
  | reserved
  /-- a length word (Table 15-4) -/
  | length (w : Word)
  /-- a payload word -/
  | word (w : Word)
deriving DecidableEq, Repr

/-- A drawer: at most 64 stages, the head first (R477). -/
abbrev Drawer := List Stage

/-- One sender's boxes (R467, R481). -/
structure Box where
  /-- (R469) the inbox words with the node and fabric transaction of their source (0 but for Fabric): one word, or up
  to 64 of the Fabric inbox (R468); reset: empty -/
  inbox : List (Word × Nat × Nat) := []
  /-- (R481) 1 bit, OVERRUN; reset 0 -/
  overrun : Bool := false
  /-- (R481) 1 bit, DRW_OVERRUN; reset 0 -/
  drwOverrun : Bool := false
  /-- (R468) 4 bits, current incarnation; reset 0 (R481) -/
  inc : Nat := 0
  /-- (R481) 1 bit, ACK; reset 0 -/
  ack : Bool := false
  /-- (R481) 16 bits, RC; reset 0 -/
  rc : Nat := 0
  /-- (R481) 16 bits, TAG; reset 0 -/
  tag : Nat := 0
  /-- (R481) 1 bit, OUT_FULL; reset 0 -/
  outFull : Bool := false
  /-- (R481) 64 bits, MBX_OUT; reset 0 -/
  outWord : Word := 0
  /-- (R473) up to 64 further outbox words, in order; reset: empty -/
  outQ : List Word := []
  /-- (R477) the inbound drawer; reset: empty -/
  inDrw : Drawer := []
  /-- (R477) the outbound drawer; reset: empty -/
  outDrw : Drawer := []
  /-- (R481) 64 bits, MBX_IN as last stamped; reset 0 -/
  inWord : Word := 0
deriving DecidableEq, Repr

/-- A command that has been accepted and is not yet complete: a background command (R470), one whose
acknowledgement waits, or an open journal record (R475). -/
structure BgOp where
  /-- (R475) 12 bits, opcode -/
  op : Nat
  /-- (R475) the sender -/
  box : BoxId
  /-- (R473) 16 bits, TAG of the message -/
  tag : Nat
  /-- (R475) 44 bits, ARG -/
  arg : Nat
  /-- (R470) true: ACCEPTED has been written and the completion goes to the outbox -/
  accepted : Bool
  /-- (R473) the return code of a completion that waits for room in the outbox queue -/
  fin : Option Nat := none
deriving DecidableEq, Repr

/-- A firmware slot (R484). -/
structure FwSlot where
  /-- (R484) the image words by offset; reset: DESIGN CHOICE empty (log 2) -/
  image : Table Word := []
  /-- (R484) size in 4 KiB units -/
  size : Nat := 0
  /-- (R484) 0 empty, 1 open transfer, 2 checking, 3 valid, 4 invalid -/
  state : Nat := 0
  /-- (R482) 32 bits, version; DESIGN CHOICE at reset (log 2) -/
  version : Nat := 0
  /-- (R484) security version; DESIGN CHOICE at reset (log 2) -/
  secVersion : Nat := 0
deriving DecidableEq, Repr

/-- A clamp (R422). -/
structure Clamp where
  /-- (R432) 2 bits, OWNER: 0 free, else the sender plus 1; reset 0 -/
  owner : Nat := 0
  /-- (R432) 1 bit, BROKEN; reset 0 -/
  broken : Bool := false
  /-- (R424) the rotating pointer; reset: DESIGN CHOICE Port A (log 2) -/
  ptr : Nat := 0
deriving DecidableEq, Repr

/-- The mailboxes, the management processor and the clamps. -/
structure Boxes where
  /-- (R467) boxes of Port A, Port B, the sideband, the Fabric sender and the Meter -/
  boxes : List Box := [{}, {}, {}, {}, {}]
  /-- (R470) the inbox Belvy looks at next; reset: DESIGN CHOICE Port A (log 2) -/
  rot : Nat := 0
  /-- (R498) Belvy is running, MBX_STATUS.MP_READY; reset: DEDUCED 1, Belvy runs from Boot step 6 (log 3) -/
  mpReady : Bool := true
  /-- (R468) 4 bits, the MP's incarnation; reset 0 -/
  mpInc : Nat := 0
  /-- (R475) open background, delayed and journalled commands; reset: none -/
  open_ : List BgOp := []
  /-- (R485) an online activation waits for the MP's restart: the slot, and the slot to fall back to; reset: none -/
  fwRestart : Option (Nat × Nat) := none
  /-- (R484) the two firmware slots; reset: slot 0 valid, DESIGN CHOICE (log 2) -/
  slots : List FwSlot := [{ state := 3, version := 0x00030002 }, {}]
  /-- (R485) the active slot; reset: DESIGN CHOICE 0 (log 2) -/
  active : Nat := 0
  /-- (R485) the slot active from the next Boot; reset: DESIGN CHOICE 0 (log 2) -/
  nextSlot : Nat := 0
  /-- (R484) the minimum security version; reset: DESIGN CHOICE 0 (log 2) -/
  minSec : Nat := 0
  /-- (R432) 16 clamps; reset 0 -/
  clamps : List Clamp := List.replicate 16 {}
  /-- (R432, R608) 1 bit each, WIN_SEL.SEL of the sideband and of the MP; reset 0 -/
  winSel : List Nat := [0, 0]
  /-- (R482) MP_FORWARD exchanges in progress: transaction, sender, tag; reset: none -/
  forwards : List (Nat × BoxId × Nat) := []
  /-- (R468) the newest incarnation seen from each node on the Fabric inbox -/
  fabInc : Table Nat := []
  /-- (R474) the Meter reply drawer's packets not yet taken, and the relayed requests not yet answered: opcode,
  argument, sender -/
  relays : List (Nat × Nat × BoxId) := []
deriving DecidableEq, Repr

end Sys2Proof.Machine
end

