-- ==== Sys2Proof/State/Observe.lean ====
section
/-! DEFINITION. State of the parameter store, the event recorder, the counters and the trace buffer (19). -/

namespace Sys2Proof.Machine

/-- The kinds of event the manual requires (Table 19-8), one per row or part of a row. -/
inductive EvKind where
  | modeChange | lossInfo | lossCritical | replayStopped | staleSender | perst | hostLinkLost | hostLinkNarrow
  | ideNotRefreshed | meterNotice | meterFeedGap | warnReached | throttleRise | throttleCritical | throttleFall
  | diodeBroken | monitorFailed | spareMargin | readOnlyEntered | refreshLow | refreshUrgent | refreshCritical
  | linePoisoned | dmaHalted | courseFailed | dieFailed | stackFailed | lpddrFailed | sramRemapped
  | sglLaneFault | sglLinkDown | sglRerouted | mpRestarted | fwFellBack | holdupAbsent | keyModeMismatch
  | macFailure | sglTagFailures | ideIntegrity | fwCheck | nodeDead | ownExclusion | duplicateNode | absentNode
  | protocolError | refclkLost | crystalStopped | supervisorFlush | supervisorRecord | supervisorJunction
  | supervisorBlock | vauxLost | proxyEnded
deriving DecidableEq, Repr

/-- An event as it is raised: its kind, its SOURCE (Table 19-3) and what it is about. -/
structure Event where
  kind   : EvKind
  source : Nat
  args   : List Nat
deriving DecidableEq, Repr

/-- An event record (R569, Table 19-3). -/
structure EvRec where
  /-- (R569) 32 bits, SEQ -/
  seq : Nat
  /-- (R569) the event: CODE, SOURCE and P0 to P2 follow from it -/
  ev : Event
  /-- (R569) 32 bits, TIME -/
  time : Nat
  /-- (R569) 16 bits, CYCLE -/
  cycle : Nat
  /-- (R570) 1 bit, TKIND -/
  tkind : Bool
  /-- (R570) 1 bit, RTCU -/
  rtcu : Bool
  /-- (R571) 16 bits, REPEAT as the always-on domain holds it for the newest record -/
  rep : Nat
  /-- (R571) 16 bits, REPEAT as the parameter store holds it -/
  repStored : Nat
deriving DecidableEq, Repr

/-- A record cursor and the snapshot it last took (R574, R584). -/
structure Cursor where
  /-- (R576, R585) 32 bits, EVR_CURSOR.SEQ or TRB_CURSOR.REC; reset 0 -/
  pos : Nat := 0
  /-- (R576, R585) 2 bits, RSTAT; reset 0 -/
  rstat : Nat := 0
  /-- (R576, R585) four 64-bit words, DATA_0 to DATA_3; reset 0 -/
  data : List Word := [0, 0, 0, 0]
deriving DecidableEq, Repr

/-- The event recorder (R569 to R576). -/
structure Evr where
  /-- (R569) the ring of 4,096 records by SEQ mod 4,096; reset: DESIGN CHOICE empty (log 2) -/
  recs : Table EvRec := []
  /-- (R569) 32 bits, the next SEQ, counted from 0 at manufacture; reset: DESIGN CHOICE 0 (log 2) -/
  next : Nat := 0
  /-- (R572) the queue of waiting events, at most 64, in the always-on domain; reset: DESIGN CHOICE empty (log 2) -/
  queue : List Event := []
  /-- (R576) 32 bits, EVR_INFO.DROPPED; reset 0 -/
  dropped : Nat := 0
  /-- (R576) 1 bit, EVR_INFO.FROZEN; reset 0 -/
  frozen : Bool := false
  /-- (R576) 1 bit, EVR_INFO.RETURN; reset 0 -/
  frozenReturn : Bool := false
  /-- (R572) the times of the newest records written, at most 12, newest first; reset: DESIGN CHOICE none (log 2) -/
  recent : List Nat := []
  /-- (R574, R608) cursors of Port A, Port B, the sideband and the MP; reset 0 -/
  cursors : List Cursor := [{}, {}, {}, {}]
  /-- (R570) the RTC: seconds at the moment it was last set or began; reset: DESIGN CHOICE 0 (log 2) -/
  rtcBase : Nat := 0
  /-- (R570) the model's time at which rtcBase held; reset 0 -/
  rtcAt : Nat := 0
  /-- (R570) the RTC has been set since VAUX was last applied; reset 0 -/
  rtcSet : Bool := false
deriving DecidableEq, Repr

/-- A page write in progress or waiting (R562, R565). -/
structure PstJob where
  /-- (R565) 12 bits, page -/
  page : Nat
  /-- (R565) 6 bits, first word -/
  word : Nat
  /-- (R565) the values in the order they are programmed, 1 to 64 words of 32 bits -/
  vals : List (BitVec 32)
deriving DecidableEq, Repr

/-- A sender's part of the PST block (R565, R568, R608). -/
structure PstPort where
  /-- (R568) 6 bits, PST_ADDR.WORD; reset 0 -/
  word : Nat := 0
  /-- (R568) 12 bits, PST_ADDR.PAGE; reset 0 -/
  page : Nat := 0
  /-- (R568) 6 bits, PST_ADDR.BUF; reset 0 -/
  buf : Nat := 0
  /-- (R565) the staging buffer, 64 words of 32 bits; reset: DESIGN CHOICE 0 (log 2) -/
  stage : Table (BitVec 32) := []
  /-- (R568) 1 bit, PST_STATUS.OVERRUN; reset 0 -/
  overrun : Bool := false
  /-- (R568) PST_STATUS.PEND: this sender's PROGRAM, with whether it has started; reset: none -/
  job : Option (PstJob × Bool) := none
deriving DecidableEq, Repr

/-- A word of the parameter store (R561, R563). -/
structure PstWord where
  /-- (R561) 32 bits -/
  val : BitVec 32 := 0
  /-- (R563) the word fails its check and reads ERR -/
  err : Bool := false
deriving DecidableEq, Repr

/-- The parameter store (R561 to R568). -/
structure Pst where
  /-- (R561) user pages 4,032 to 4,095 by page × 64 + word; an unlisted word reads 0, DESIGN CHOICE (log 2) -/
  words : Table PstWord := []
  /-- (R566) spread counter cells by counter × 64 + cell: word A and word B; unlisted reads as never written -/
  cells : Table (BitVec 32 × BitVec 32) := []
  /-- (R562) 4 bits, PST_STATUS.BUSY: the banks busy; reset 0 -/
  busy : List Nat := []
  /-- (R565, R608) the parts of Port A, Port B, the sideband and the MP; reset 0 -/
  ports : List PstPort := [{}, {}, {}, {}]
  /-- (R567) DIRTY_LOSSES as recorded at format; reset: DESIGN CHOICE 0 (log 2) -/
  dirtyAtFormat : Nat := 0
  /-- (R486) the return capture: the registers MED, EPC, PSV and SGL as captured; reset: none -/
  capture : List Word := []
deriving DecidableEq, Repr

/-- One programmable counter (R577, R578). -/
structure PmcCounter where
  /-- (R578) 12 bits, EVENT; reset 0 (R581) -/
  event : Nat := 0
  /-- (R578) 4 bits, QUAL; reset 0 -/
  qual : Nat := 0
  /-- (R578) 1 bit, ENABLE; reset 0 -/
  enable : Bool := false
  /-- (R578) 1 bit, IRQ; reset 0 -/
  irq : Bool := false
  /-- (R577) 48 bits, COUNT; reset 0 -/
  count : Nat := 0
  /-- (R577) 1 bit, the sticky bit in PMC_OVF; reset 0 -/
  ovf : Bool := false
deriving DecidableEq, Repr

/-- One counter set (R577). -/
structure PmcSet where
  /-- (R577) the device's cycle count at the set's last clear: CYCLES is the count since; reset 0 -/
  cycles : Nat := 0
  /-- (R577) eight counters; reset 0 -/
  counters : List PmcCounter := List.replicate 8 {}
deriving DecidableEq, Repr

/-- The performance counters (R577 to R581). -/
structure Pmc where
  /-- (R577) the sets that have been configured or have counted, by index 0 to 16; unlisted reads as reset -/
  sets : Table PmcSet := []
  /-- (R577) CCLK cycles counted while not frozen, 64 bits; reset 0 -/
  cyc : Nat := 0
  /-- (R581) 1 bit, PMC_CTRL.FREEZE; reset 0 -/
  freeze : Bool := false
  /-- (R581, R608) 5 bits for each sender, PMC_SEL.SET; reset 0 -/
  sel : List Nat := [0, 0, 0, 0]
  /-- (R581) 32 bits, PMC_MPPC; reset 0 -/
  mppc : Nat := 0
deriving DecidableEq, Repr

/-- A trace record (R583, Table 19-6): what of it the manual's events give; the stage times are of the hardware. -/
structure TrbRec where
  /-- (R583) 48 bits, T_IN -/
  tIn : Nat
  /-- (R583) 4 bits, KIND -/
  kind : Nat
  /-- (R583) 1 bit, PORT -/
  port : Port
  /-- (R583) 3 bits, CLASS -/
  cls : Nat
  /-- (R583) 1 bit, FLASH -/
  flash : Bool
  /-- (R583) 1 bit, SPEC -/
  spec : Bool
  /-- (R583) 1 bit, KILL -/
  kill : Bool
  /-- (R583) 1 bit, THR -/
  thr : Bool
  /-- (R583) 46 bits, HPA[51:6] -/
  hpaLine : Nat
  /-- (R583) 12 bits, KID -/
  kid : Nat
  /-- (R583) 6 bits, TENANT -/
  tenant : Nat
  /-- (R583) seven 16-bit stage fields, ORDER to RETURN: the index of the free value that gives them -/
  stages : Nat
  /-- (R583) 10 bits, NODE -/
  node : Nat
deriving DecidableEq, Repr

/-- The trace buffer (R582 to R585). -/
structure Trb where
  /-- (R582) the records by number mod 4,096; reset: empty -/
  recs : Table TrbRec := []
  /-- (R585) 32 bits, COUNT; reset 0 -/
  count : Nat := 0
  /-- (R582) 2 bits, MODE; reset 0 -/
  mode : Nat := 0
  /-- (R582) 1 bit, STOP; reset 0, DESIGN CHOICE (log 2) -/
  stop : Bool := false
  /-- (R582) 2 bits, PORTS; reset: DESIGN CHOICE 0 (log 2) -/
  ports : Nat := 0
  /-- (R582) 21 bits, N; reset: DESIGN CHOICE 1 (log 2) -/
  n : Nat := 1
  /-- (R582) 16 bits, THRESH; reset: DESIGN CHOICE 0 (log 2) -/
  thresh : Nat := 0
  /-- (R582) 1 bit, IRQ; reset: DESIGN CHOICE 0 (log 2) -/
  irq : Bool := false
  /-- (R583) requests of enabled ports seen since TRB_CONFIG; reset 0 -/
  seen : Nat := 0
  /-- (R583) requests in progress that the one-in-N rule has chosen: port and tag; reset: none -/
  marks : List (Port × Nat) := []
  /-- (R584, R608) cursors of Port A, Port B, the sideband and the MP; reset 0 -/
  cursors : List Cursor := [{}, {}, {}, {}]
deriving DecidableEq, Repr

end Sys2Proof.Machine
end

