-- ==== Sys2Proof/State/Power.lean ====
section
/-! DEFINITION. State of the power supervisor, the modes, the clocks and the TAP (16, 19). Every default is the value
at reset: the machine that has just left Boot after VAUX was applied (R9). -/

namespace Sys2Proof.Machine

/-- What the device is doing, under the shown mode of R516: the states of Table 16-4, service, and the power-down
sequence of R504. -/
inductive Phase where
  | off | standby | boot | replay | service | flush | powerDown
deriving DecidableEq, Repr

/-- The power states of R517. -/
inductive PState where
  | active | doze | deepIdle
deriving DecidableEq, Repr

/-- One window comparator (R491, Table 16-2). -/
structure Comparator where
  /-- (R491) 8 bits, UV code; reset: Table 16-2 -/
  uv : Nat
  /-- (R491) 8 bits, OV code; reset: Table 16-2 -/
  ov : Nat
  /-- (R491) 8 bits, glitch filter F; reset: Table 16-2 -/
  filter : Nat
  /-- (R523) 1 bit, PSV_WIN.IN_WIN; reset: DESIGN CHOICE 1 (log 2) -/
  inWin : Bool := true
  /-- (R523) 1 bit, PSV_WIN.ENABLED; reset: DESIGN CHOICE 1 (log 2) -/
  enabled : Bool := true
deriving DecidableEq, Repr

/-- A supervisor snapshot (R507, Table 16-7). -/
structure Snapshot where
  /-- (R507) 32 bits, RTC seconds -/
  rtc : Nat
  /-- (R507) 32 bits, power-cycle count -/
  cycles : Nat
  /-- (R507) 8 bits, condition in the bit numbering of PSV_FAULT, 0xFF for a Flush trigger -/
  cond : Nat
  /-- (R507) 4 bits, comparator code -/
  code : Nat
  /-- (R507) 4 bits, PSV_STATUS.SEQ -/
  seq : Nat
  /-- (R507) 4 bits, DEV_MODE.MODE -/
  mode : Nat
  /-- (R507) 4 bits, sequence step -/
  step : Nat
  /-- (R507) 14 readings of 16 bits, codes 0 to 13 -/
  volts : List Nat
  /-- (R507) 14 currents of 16 bits -/
  currents : List Nat
  /-- (R507) 8 signed bytes, diode readings in °C -/
  diodes : List Int
  /-- (R507) 14 bits, comparators in window -/
  inWin : Nat
  /-- (R507) 14 bits, comparators enabled -/
  enabled : Nat
  /-- (R507) 32 bits, PSV_FAULT after the condition -/
  fault : Nat
deriving DecidableEq, Repr

/-- The default comparators (Table 16-2). -/
def defaultComparators : List Comparator :=
  { uv := 180, ov := 220, filter := 200 } ::
  (List.replicate 11 { uv := 102, ov := 154, filter := 10 }) ++
  [{ uv := 80, ov := 208, filter := 50 }, { uv := 150, ov := 180, filter := 10 }]

/-- The TAP instructions of Table 19-7 as the instruction register holds them. -/
inductive TapInstr where
  | extest | samplePreload | idcode | clamp | highz | extestPulse | extestTrain | bypass | privateCode (code : Nat)
deriving DecidableEq, Repr

/-- The power supervisor, the modes and the clocks (16). -/
structure Power where
  /-- (R9, R516) the phase behind DEV_MODE.MODE; reset: Replay (MODE 3, R522) -/
  phase : Phase := .replay
  /-- (R516) 4 bits, the mode last shown; reset 3 (R522) -/
  mode : Nat := 3
  /-- (R522) 32 bits, DEV_MODE.CHANGES; reset 0 -/
  changes : Nat := 0
  /-- (R517) 2 bits, DEV_MODE.PSTATE; reset 0 (R522) -/
  pstate : PState := .active
  /-- (R517) 2 bits, DEV_MODE.REQUESTED; reset 0 (R522) -/
  requested : PState := .active
  /-- (R496) 1 bit, START_ARMED; reset 0 (R522) -/
  startArmed : Bool := false
  /-- (R512) 1 bit, AUTO_RESTART; reset 1 (R523) -/
  autoRestart : Bool := true
  /-- (R492) 4 bits, power-down step timeout in ms; reset 3 (R523) -/
  stepTimeout : Nat := 3
  /-- (R512) what arms the restart at the end of this power-down: none where neither a VIN Flush nor SHUTDOWN led to
  it, else the bit that stands for it; reset: none -/
  restart : Option Bool := none
  /-- (R500) JUNCTION shut the device down and START_ARMED waits for every diode to read below 105 °C; reset 0 -/
  junctionWait : Bool := false
  /-- (R497) 1 bit, the 100 ms hold after a power-down is running (PSV_STATUS.SEQ 5); reset 0 (R523) -/
  hold : Bool := false
  /-- (R523) 4 bits, PSV_STATUS.STEP: comparator code of the rail in the step in progress; reset 0 -/
  rail : Nat := 0
  /-- (R490) 1 bit, SOURCE_HOLD; reset 0 (R523) -/
  sourceHold : Bool := false
  /-- (R505) 1 bit, FALLBACK; reset 0 (R523) -/
  fallback : Bool := false
  /-- (R505) the present step waits in the fall-back; reset 0 -/
  fallbackWait : Bool := false
  /-- (R514) 1 bit, CLK_BACKUP; reset 0 (R523) -/
  clkBackup : Bool := false
  /-- (R515) 1 bit, XTAL_FAIL; reset 0 (R523) -/
  xtalFail : Bool := false
  /-- (R523) 9 bits, PSV_FAULT[8:0], latched conditions; reset: DESIGN CHOICE 0 (log 2) -/
  faults : Nat := 0
  /-- (R523) 4 bits, PSV_FAULT.RAIL; reset: DESIGN CHOICE 0 (log 2) -/
  faultRail : Nat := 0
  /-- (R500) 1 bit, PSV_FAULT.BLOCK; reset: DESIGN CHOICE 0 (log 2) -/
  block : Bool := false
  /-- (R491, R493) 14 comparators, codes 0 to 13; reset: Table 16-2 -/
  comps : List Comparator := defaultComparators
  /-- (R493) the stored settings, restored in Boot step 6; reset: Table 16-2 (log 2) -/
  compsStored : List Comparator := defaultComparators
  /-- (R493) the stored AUTO_RESTART and step timeout, restored in Boot step 6; reset: defaults (log 2) -/
  autoStored : Bool × Nat := (true, 3)
  /-- (R507) the newest 16 snapshots, newest first; reset: none held (log 2) -/
  snaps : List Snapshot := []
  /-- (R507) the copies of snapshots in the parameter store, newest first; reset: none (log 2) -/
  snapsKept : List Snapshot := []
  /-- (R523) PSV_IN, PSV_RAIL: 14 readings of 16 bits by code, VIN and VHOLD in 10 mV, others in 1 mV; reset 0 -/
  volts : List Nat := List.replicate 14 0
  /-- (R523) PSV_CUR: 14 currents of 16 bits in 10 mA; reset 0 -/
  currents : List Nat := List.replicate 14 0
  /-- (R497) VIN has stayed at or above 11.4 V for 10 ms; reset: DESIGN CHOICE 1 (log 2), the device has just booted -/
  vinQualified : Bool := true
  /-- (R498) the Boot step last completed, 1 to 9; reset 9: Boot has completed (R9) -/
  bootStep : Nat := 9
  /-- (R522) 1 bit, DEV_COND.RETURN; reset 0 -/
  returnDone : Bool := false
  /-- (R586) the TAP instruction register; reset: DESIGN CHOICE IDCODE, the selection after a TAP reset (log 2) -/
  tap : TapInstr := .idcode
  /-- (R586) scan power is in force; reset 0 -/
  scan : Bool := false
  /-- (R588) an authenticated unlock has been loaded since PREPARE_RETURN; reset 0 -/
  unlocked : Bool := false
  /-- (R586) the boundary register as last preloaded or sampled; reset: DESIGN CHOICE 0 (log 2) -/
  boundary : Nat := 0
  /-- (R9, R522) bits 2 to 5 and 7 of DEV_COND as they stood when VIN was lost, shown until Boot ends; reset 0 -/
  condKept : Nat := 0
deriving DecidableEq, Repr

end Sys2Proof.Machine
end

