-- ==== Sys2Proof/State/Medium.lean ====
section
/-! DEFINITION. State of the medium, its scheduler, the maps, the stripes, drift, protection and persistence
(03 to 07). -/

namespace Sys2Proof.Machine

/-- A place on the medium: stack, group, partition, course and sector. In a fast course the sector is the sector slot
(R29), in a dense course page slot × 68 + sector of the page (R25, R28); ledger sectors follow (R116). -/
structure Loc where
  stack  : Nat
  group  : Nat
  part   : Nat
  course : Nat
  slot   : Nat
  fast   : Bool
deriving DecidableEq, Repr

/-- A dense map entry (R106, Table 04-1): GROUP, PART, COURSE, SLOT as far as VALID is set. -/
structure DenseEntry where
  /-- (R106) 1 bit -/
  valid  : Bool := false
  /-- (R106) 1 bit -/
  eov    : Bool := false
  /-- (R106) 3 bits -/
  group  : Nat := 0
  /-- (R106) 5 bits -/
  part   : Nat := 0
  /-- (R106) 12 bits -/
  course : Nat := 0
  /-- (R106) 8 bits -/
  slot   : Nat := 0
  /-- (R106) 12 bits -/
  epoch  : Nat := 0
  /-- (R106) 1 bit -/
  alt    : Bool := false
  /-- (R106) 1 bit -/
  poison : Bool := false
deriving DecidableEq, Repr

/-- An eaves index entry (R109, Table 04-2); VALID and TAG are the entry's presence under its DLA. -/
structure EavesEntry where
  /-- (R109) 3 bits -/
  group  : Nat := 0
  /-- (R109) 5 bits -/
  part   : Nat := 0
  /-- (R109) 12 bits -/
  course : Nat := 0
  /-- (R109) 12 bits -/
  slot   : Nat := 0
  /-- (R109) 12 bits -/
  epoch  : Nat := 0
  /-- (R109) 3 bits -/
  heat   : Nat := 0
  /-- (R109) 1 bit -/
  poison : Bool := false
  /-- (R109) 1 bit -/
  staged : Bool := false
  /-- (R263) EP0 of the log record that placed the line in a stripe Replay found open, until its first read -/
  check  : Option Bool := none
deriving DecidableEq, Repr

/-- A course table entry (R114, Table 04-3). STATE: Table 04-4. VALID is the number of map entries that name the course;
it is counted from them (log 14). -/
structure CourseEntry where
  /-- (R114) 25 bits, WEAR -/
  wear   : Nat := 0
  /-- (R114) 4 bits, STATE -/
  state  : Nat := 0
  /-- (R114) 1 bit, MODE -/
  fast   : Bool := false
  /-- (R114) 2 bits, STREAM -/
  stream : Nat := 0
  /-- (R114) 20 bits, CLOSED -/
  closed : Nat := 0
deriving DecidableEq, Repr

/-- What a sector position holds besides its raw content. -/
inductive CellOwner where
  /-- a line accepted in an epoch -/
  | line (dla epoch : Nat)
  /-- a relocation copy of a line (R189) -/
  | reloc (dla : Nat)
  /-- a pad sector (R121) -/
  | pad
  /-- a Q sector of a round of the dense stripe (R130) -/
  | q (stripe round : Nat)
  /-- a line of a dense page copy -/
  | page (lpn : Nat)
  /-- metadata of the META stream -/
  | metadata
  /-- an outer-code sector of a page (R182) -/
  | outer
  /-- a ledger sector (R116) -/
  | ledger
  /-- parity -/
  | parity
deriving DecidableEq, Repr

/-- A sector as staged or programmed: its 640 bits (R23) and what it is. -/
structure MedCell where
  raw   : RawSector
  owner : CellOwner
deriving DecidableEq, Repr

/-- An entry of the busy table (R85, Table 03-2); `reset` tells a fenced reset from a fenced program. -/
structure BusyEntry where
  /-- (R85) 3 bits, STATE; reset: DESIGN CHOICE 0 (log 2) -/
  state  : Nat := 0
  /-- (R85) 3 bits, STACK -/
  stack  : Nat := 0
  /-- (R85) 12 bits, COURSE -/
  course : Nat := 0
  /-- (R85) 9 bits, ROW -/
  row    : Nat := 0
  /-- (R85) 3 bits, CLASS -/
  cls    : Nat := 0
  /-- (R85) eight counts of 6 bits, READS -/
  reads  : List Nat := List.replicate 8 0
  /-- (R85) 32 bits, T_START -/
  tStart : Nat := 0
  /-- (R86) the fenced operation is a reset -/
  reset  : Bool := false
deriving DecidableEq, Repr

/-- Why a medium read is made. -/
inductive ReadUse where
  /-- a confirmed read for the miss of a line -/
  | miss (node dla : Nat)
  /-- a speculative read for the miss of a line (R51) -/
  | spec (node dla : Nat)
  /-- an engine read of a line of a page under relocation -/
  | copy (lpn line : Nat)
  /-- an engine read of a hot line that fold drains again (R124) -/
  | redrain (dla : Nat)
deriving DecidableEq, Repr

/-- A medium read, queued or started (R89 to R100). -/
structure MedRead where
  use       : ReadUse
  loc       : Loc
  /-- (R98) 2 bits, priority 1 to 3 -/
  prio      : Nat
  /-- (R158) 8 bits, the course's bucket byte as taken when the sense started -/
  bucket    : Nat := 0
  started   : Bool := false
  /-- (R89) classified as a flashing read at its start -/
  flashing  : Bool := false
  /-- (R74) its start suspended the claim on its partition -/
  suspended : Bool := false
  /-- (R140) the RGEN counter the read holds -/
  rgen      : Nat
  /-- (R55) squashed: its data goes to the gutter -/
  squashed  : Bool := false
  /-- (R55) speculative data that waits in the return buffer for its confirmation -/
  waiting   : Option SenseResult := none
deriving DecidableEq, Repr

/-- The medium scheduler and its allocator (R84 to R104). -/
structure Sched where
  /-- (R85) the busy table by group × 32 + partition; unlisted is idle -/
  busy    : Table BusyEntry := []
  /-- (R98) medium reads by their number -/
  reads   : Table MedRead := []
  /-- the next read number (the model's own) -/
  nextRid : Nat := 0
  /-- (R101) n_slots; reset 128 -/
  nSlots  : Nat := 128
  /-- (R103) the running credits of classes 0 to 7; reset: DESIGN CHOICE 0 (log 2) -/
  credits : List Int := List.replicate 8 0
  /-- (R140) RGEN; reset: DESIGN CHOICE 0 (log 2) -/
  rgen    : Nat := 0
  /-- (R140) readers by slice × 4 + RGEN mod 4 -/
  readers : Table Nat := []
  /-- (R81, R82) transfer slots reserved, by channel × 2 + 1 for engine reads, × 2 for other reads: slot numbers, counted
  from the channel's training; reset: none -/
  slots   : Table (List Nat) := []
  /-- (R83) the model's time of each channel's training, where its slot 0 begins; reset 0 -/
  trained : Table Nat := []
  /-- (R81, R83) slots of row data not yet transferred, by busy-table entry; reset: none -/
  rowData : Table Nat := []
  /-- (R225) deadline misses: die or channel number and time -/
  misses  : List (Nat × Nat) := []
  /-- (R224) medium reads are held at the scheduler during an interruption; reset 0 -/
  held    : Bool := false
deriving DecidableEq, Repr

/-- A round in progress (R90): its row index and the stacks whose row has not passed. -/
structure Round where
  row   : Nat
  left  : List Nat
  /-- (R103) the model's time at which it began: jobs are granted oldest first -/
  since : Nat := 0
deriving DecidableEq, Repr

/-- A stripe that is not FREE (R30, R90 to R93, R117, R170). -/
structure Stripe where
  /-- (R117) 2 bits, stream -/
  stream   : Nat
  /-- (R66) fast or dense -/
  fast     : Bool
  /-- (R30, R215) the stack of the P course -/
  pStack   : Nat
  /-- (R215) the stack of the retired member of a seven-member stripe -/
  absent   : Option Nat := none
  /-- (R117) the stripe is open -/
  isOpen   : Bool := true
  /-- (R118) next sector slot or page slot of each stack -/
  fill     : List Nat := List.replicate 8 0
  /-- (R91) rounds begun so far -/
  begun    : Nat := 0
  /-- (R90) rounds in progress -/
  rounds   : List Round := []
  /-- (R92) rounds complete so far: all eight rows passed -/
  passed   : Nat := 0
  /-- (R131, R132) rows that passed their read-back or verify read, as stack × 512 + row -/
  checked  : List Nat := []
  /-- (R103) the work class of its programs -/
  cls      : Nat
  /-- (R103, R173) the work class of the rounds that hold pages of a relocation, by row -/
  rowCls   : Table Nat := []
  /-- (R153) EFIRST of each stack, 32 bits -/
  efirst   : List Nat := List.replicate 8 0
  /-- (R160) ELAST of each stack, 32 bits -/
  elast    : List Nat := List.replicate 8 0
  /-- (R116) PTIME of each stack: RTC seconds at the program of row 0, 64 bits -/
  ptime    : List Nat := List.replicate 8 0
  /-- (R116) OPTIME of each stack: operating minutes and power-cycle count at the program of row 0, 64 bits -/
  optime   : List Nat := List.replicate 8 0
  /-- (R160) TMAX of each stack: highest modelled die temperature while the course was programmed, signed 8 bits in °C;
  before the first row −128 -/
  tmax     : List Int := List.replicate 8 (-128)
  /-- (R160) DFLAGS[1]: the stacks whose course holds refresh copies -/
  fresh    : List Nat := []
  /-- (R144) the stacks whose course holds rebuilt data -/
  rebuilt  : List Nat := []
  /-- (R116) PAGES and PEPOCH: the pages that the slots of dense courses hold, by stack × 192 + slot: LPN and epoch -/
  pages    : Table (Nat × Nat) := []
  /-- (R130) the Q table: round to Q location -/
  qtab     : Table Loc := []
  /-- (R160) DFLAGS[0]: closed by padding under R156 -/
  agePad   : Bool := false
  /-- (R170) refresh level, 0 to 4 -/
  level    : Nat := 0
  /-- (R115) the stripe is in RECLAIM or RESETTING -/
  reclaim  : Bool := false
  /-- (R141) the stripes that received the pages it held -/
  heirs    : List Nat := []
  /-- (R141) the epoch whose commit frees the last of its locations -/
  emptyEp  : Nat := 0
  /-- (R141) RGEN when the last of its locations became invalid -/
  emptyGen : Nat := 0
  /-- (R191) it waits in the weak-stripe queue -/
  weak     : Bool := false
  /-- (R142, R143) a course failed: closed at its last complete round -/
  failed   : Bool := false
  /-- (R218) stacks of its lost members -/
  lost     : List Nat := []
  /-- (R141) resets still to run, by stack -/
  resets   : List Nat := []
  /-- (R103) the model's time at which its resets were granted -/
  resetAt  : Nat := 0
  /-- (R142) stacks whose course FAILED: RETIRED at their reset -/
  bad      : List Nat := []
  /-- (R256) META: checkpoint sweeps completed when it was opened -/
  sweep    : Nat := 0
deriving DecidableEq, Repr

/-- The kinds of relocation (R126). -/
inductive RelocKind where
  | fold | gc | level | refresh | rebuild
deriving DecidableEq, Repr

/-- A page under relocation (R125 to R127). -/
structure Reloc where
  kind     : RelocKind
  /-- (R127) the dense entry captured -/
  capDense : DenseEntry
  /-- (R127) the eaves entries captured, by line in page -/
  capEaves : Table EavesEntry
  /-- (R125) the sectors gathered, by line in page -/
  got      : Table RawSector
  /-- (R199) the epoch open when the copy began -/
  epoch    : Nat := 0
  /-- (R125) the lines whose source read is outstanding -/
  want     : List Nat
  /-- (R142) the page is to be copied again from its sources -/
  again    : Bool := false
  /-- (R127) where the page is staged -/
  target   : Option Loc := none
  /-- (R198) the lines whose source no step recovered: the channel is halted at the first -/
  halted   : List Nat := []
deriving DecidableEq, Repr

/-- A write-back by relocation (R189, R190). -/
structure WriteBack where
  /-- (R189) the location captured at the read -/
  src    : Loc
  /-- (R189) where its corrected sector is staged -/
  dst    : Option Loc := none
  raw    : RawSector
  /-- (R124) a hot line drained again: its HEAT falls by 1 -/
  cool   : Bool := false
  /-- (R109) bits [11:0] of the epoch in which the line was written -/
  epoch  : Nat := 0
deriving DecidableEq, Repr

/-- Where a slot of the write buffer stands (R239, R246). -/
inductive SlotState where
  /-- it waits for its epoch's close, or for a stripe -/
  | waiting
  /-- it is staged into a row of the medium -/
  | staged (loc : Loc)
deriving DecidableEq, Repr

/-- A line slot of the write buffer (R239): one line of one epoch, as ciphertext on two LPDDR6 devices. -/
structure WbSlot where
  dla   : Nat
  epoch : Nat
  kid   : Nat
  raw   : RawSector
  st    : SlotState := .waiting
deriving DecidableEq, Repr

/-- Map changes as the log records them (R254, Table 07-3). -/
inductive LogRec where
  /-- an EAVES_ROW slot: the line's new entry -/
  | eaves (dla : Nat) (e : EavesEntry)
  /-- RELOC: the new entry of a relocated line, and the location that must match -/
  | reloc (dla : Nat) (e : EavesEntry) (src : Loc)
  /-- EAVES_DEL -/
  | eavesDel (dla : Nat) (e : EavesEntry)
  /-- DENSE -/
  | dense (lpn : Nat) (e : DenseEntry)
  /-- COURSE -/
  | course (c : Nat) (e : CourseEntry)
  /-- AGE -/
  | age (c efirst : Nat)
  /-- QTAB -/
  | qtab (stripe round : Nat) (loc : Option Loc)
  /-- SEGMENT -/
  | segment (n : Nat)
  /-- OPEN -/
  | opened (epoch : Nat)
  /-- COMMIT -/
  | commit (epoch : Nat)
deriving DecidableEq, Repr

/-- The maps in LPDDR6 (R105, R108, R114, R157). An unlisted dense entry has VALID, EOV and POISON clear; an unlisted
eaves entry is invalid; an unlisted course is FREE and never reset. -/
structure Maps where
  /-- (R105) the dense map by LPN; reset: empty (R607) -/
  dense  : Table DenseEntry := []
  /-- (R108) the eaves index by DLA; reset: empty (R607) -/
  eaves  : Table EavesEntry := []
  /-- (R114) the course table by course number; reset: DESIGN CHOICE all FREE, WEAR 0 (log 2) -/
  course : Table CourseEntry := []
  /-- (R157) the course age table by course number; reset: empty -/
  age    : Table Nat := []
deriving DecidableEq, Repr

/-- A predictor entry (R51): tag, group, partition, course and page slot. -/
structure PredEntry where
  tag    : Nat
  group  : Nat
  part   : Nat
  course : Nat
  slot   : Nat
deriving DecidableEq, Repr

/-- Translation and placement (04). -/
structure Trans where
  /-- (R105, R108, R114, R157) the maps -/
  maps     : Maps := {}
  /-- (R253) the persistent image of the maps: checkpoint and log up to the last commit -/
  image    : Maps := {}
  /-- (R254) the log records not yet committed, each with its epoch, oldest first -/
  log      : List (Nat × LogRec) := []
  /-- (R112) LPNs whose dense entry the lookaside holds; reset: DESIGN CHOICE empty (log 2) -/
  lookD    : List Nat := []
  /-- (R112) DLAs whose eaves entry the lookaside holds; reset: DESIGN CHOICE empty (log 2) -/
  lookE    : List Nat := []
  /-- (R195) lines whose eaves set was lost and that have not been read since; reset: DESIGN CHOICE empty (log 2) -/
  lostLines : List Nat := []
  /-- (R58) run-ahead hints on their way to their home slices: page numbers; reset: none -/
  hints    : List Nat := []
  /-- (R51) the location predictors by slice × 32,768 + index; reset: all invalid (DESIGN CHOICE, log 2) -/
  pred     : Table PredEntry := []
  /-- (R30) the stripes that are not FREE, by group × 131,072 + partition × 4,096 + course -/
  stripes  : Table Stripe := []
  /-- the content of the medium and of staged rows, by location -/
  cells    : Table MedCell := []
  /-- (R239) the write buffer, oldest acceptance first -/
  slots    : List WbSlot := []
  /-- (R126) pages under relocation, by LPN -/
  relocs   : Table Reloc := []
  /-- (R189) write-backs by relocation, by DLA -/
  wbacks   : Table WriteBack := []
  /-- (R118) the group next in rotation for draining; reset: DESIGN CHOICE 0 (log 2) -/
  rotor    : Nat := 0
  /-- (R146) Read-Only applies; reset 0 (R228) -/
  readOnly : Bool := false
  /-- (R139) LEVEL_SPREAD; reset 262,144 -/
  spread   : Nat := 262144
  /-- (R139) LEVEL_SPREAD from the next 60 s check -/
  spreadNx : Nat := 262144
  /-- (R144) data courses of spare margin consumed; reset: DESIGN CHOICE 0 (log 2) -/
  spare    : Nat := 0
  /-- (R150) highest spare margin warning given, 0 to 3; reset 0 (R228) -/
  spareLvl : Nat := 0
  /-- (R214) rows recorded for field remap: course number × 512 + row, with scrub passes seen -/
  remapReq : Table Nat := []
  /-- (R214) field remap entries used by each die, 0 to 1,024 -/
  remaps   : Table Nat := []
  /-- (R216) retired partitions: die × 32 + partition -/
  retired  : List Nat := []
deriving DecidableEq, Repr

/-- Drift management (05). -/
structure Drift where
  /-- (R152) E_d of the 64 dies, 48 bits in units of 2^-16 s; reset: DESIGN CHOICE 0 (log 2) -/
  ed       : List Nat := List.replicate 64 0
  /-- (R155) the 8 saved sets, each in 2 pages of the parameter store: sequence number, values and CRC-32; reset: DESIGN
  CHOICE none (log 2) -/
  saved    : Table (Nat × List Nat × Nat) := []
  /-- (R155) 32 bits, sequence number of the next save; reset: DESIGN CHOICE 0 (log 2) -/
  saveSeq  : Nat := 0
  /-- (R155) the always-on clock has lost its count since the last Boot; reset 0 -/
  edLost   : Bool := false
  /-- (R155) the off-time is unknown; reset 0 -/
  unknown  : Bool := false
  /-- (R158) the bucket arrays, 8 bits for each course by course number; unlisted reads 0 (DESIGN CHOICE, log 2) -/
  bucket   : Table Nat := []
  /-- (R166) the age survey is running, MED_STATUS.SURVEY; reset 0 (R228) -/
  survey   : Bool := false
  /-- (R166) the courses still to survey: those live and dense when the survey started; reset: none -/
  toSurvey : List Nat := []
  /-- (R171) courses with margin loss -/
  margin   : List Nat := []
  /-- (R178) the highest waiting level last reported, REFLVL; reset 0 (R228) -/
  top      : Nat := 0
deriving DecidableEq, Repr

/-- Data protection and repair (06) with the MED registers (R228). -/
structure Prot where
  /-- (R218) Degraded mode applies; reset 0 (R228) -/
  degraded  : Bool := false
  /-- (R228) 64 bits, LOST_DIE; reset: DESIGN CHOICE 0 (log 2) -/
  lostDie   : Nat := 0
  /-- (R228) 16 bits, LOST_MC; reset: DESIGN CHOICE 0 (log 2) -/
  lostMc    : Nat := 0
  /-- (R228) 8 bits, LOST_STACK; reset: DESIGN CHOICE 0 (log 2) -/
  lostStack : Nat := 0
  /-- (R228) 4 bits, LOST_LPD; reset: DESIGN CHOICE 0 (log 2) -/
  lostLpd   : Nat := 0
  /-- (R228) 32 bits, PAGES_DONE; reset 0 -/
  pagesDone : Nat := 0
  /-- (R228) 32 bits, INNER_CORR; reset 0 -/
  innerCorr : Nat := 0
  /-- (R228) 16 bits, RELOC_DROP; reset 0 -/
  relocDrop : Nat := 0
  /-- (R228) 36 bits, LAST_DLA; reset 0 -/
  lastDla   : Nat := 0
  /-- (R228) 16 bits, UE_COUNT; reset 0 -/
  ueCount   : Nat := 0
  /-- (R228) 24 bits, MED_DMA.HALTED; reset 0 -/
  halted    : Nat := 0
  /-- (R228) MED_DMA_LOC: the failed source and the channel; reset 0 -/
  haltLoc   : Option (Loc × Nat) := none
  /-- (R198) the page whose copy each halted channel holds -/
  haltPage  : Table Nat := []
  /-- (R228) 32 bits, scrub PASSES; reset: DESIGN CHOICE 0 (log 2) -/
  passes    : Nat := 0
  /-- (R228) 16 bits, scrub PROGRESS; reset: DESIGN CHOICE 0 (log 2) -/
  progress  : Nat := 0
  /-- (R228) 16 bits, DRAM_CORR; reset 0 -/
  dramCorr  : Nat := 0
  /-- (R228) 16 bits, DRAM_UE; reset 0 -/
  dramUe    : Nat := 0
  /-- (R228) 16 bits, SRAM_CORR; reset 0 -/
  sramCorr  : Nat := 0
  /-- (R228) 8 bits, SRAM_REMAP; reset 0 -/
  sramRemap : Nat := 0
  /-- (R224) faults whose interruption has begun and whose held requests wait -/
  faults    : List HeldFault := []
  /-- (R226) channels and dies declared failed with the time of their declaration -/
  declared  : List (FaultUnit × Nat) := []
  /-- (R224) SRAM spares used, by slice -/
  sramSpare : Table Nat := []
  /-- (R210) a commanded scrub pass is running -/
  scanning  : Bool := false
  /-- (R214) rows of the present scrub pass that needed outer code or P: course number × 512 + row -/
  passRows  : List Nat := []
deriving DecidableEq, Repr

/-- A live epoch that is closed and draining (R245 to R247). -/
structure Draining where
  /-- (R241) 48 bits -/
  epoch  : Nat
  /-- (R246) its writes have been accepted, its dovetail entries merged and its slots staged -/
  staged : Bool
  /-- (R247) the META stripes that its log stands in, each with the number of rows that must have passed -/
  logAt  : List (Nat × Nat) := []
deriving DecidableEq, Repr

/-- A loss record (R266). -/
structure LossRec where
  kind      : Nat
  restart   : Nat
  abandoned : Nat
deriving DecidableEq, Repr

/-- Persistence (07) with the EPC registers (R267). -/
structure Persist where
  /-- (R267) DUR_ACCEPT; reset 0 -/
  accept     : Bool := false
  /-- (R267) HOLDUP_ABSENT; reset 0 -/
  absent     : Bool := false
  /-- (R267) MEAS_VALID; reset 0 -/
  measValid  : Bool := false
  /-- (R233) a measurement is running: the charger is off, the test load on; reset 0 -/
  measuring  : Bool := false
  /-- (R233) a measurement has been asked for and waits for VHOLD to reach 48.0 V; reset: 1, the bank first reaches
  48.0 V after Boot (R233) -/
  measDue    : Bool := true
  /-- (R232) the charger runs; reset: 1 from Boot step 8 -/
  charger    : Bool := true
  /-- (R234) C in µF, 16 bits in EPC_HOLDUP; reset 0 -/
  cap        : Nat := 0
  /-- (R234) ESR in mΩ, 16 bits; reset 0 -/
  esr        : Nat := 0
  /-- (R234) E_use in mJ, 16 bits; reset 0 -/
  euse       : Nat := 0
  /-- (R234) the samples V_a, V_b, V_c of the last measurement in mV; reset 0 -/
  samples    : List Nat := [0, 0, 0]
  /-- (R235) B in MiB; reset 0 -/
  budget     : Nat := 0
  /-- (R236) B_now in MiB; reset 0 -/
  budgetNow  : Nat := 0
  /-- (R267) VHOLD in 10 mV; reset 0 -/
  vhold      : Nat := 0
  /-- (R267) OPEN_EPOCH; reset 0, set during Replay -/
  openEpoch  : Nat := 0
  /-- (R242) the open epoch holds a write or map change -/
  openHolds  : Bool := false
  /-- (R245) closed epochs that drain, older first: one, or two in Flush -/
  draining   : List Draining := []
  /-- (R267) CLOSE_PEND; reset 0 -/
  closePend  : Bool := false
  /-- (R267) COMMITTED; reset 0 -/
  committed  : Nat := 0
  /-- (R267) COMMIT_IRQ; reset 0 -/
  commitIrq  : Bool := false
  /-- (R267, R608) EPC_TARGET of Port A, Port B, the sideband and the MP; reset 0 -/
  targets    : List Nat := [0, 0, 0, 0]
  /-- (R267) INTERVAL in force, 10 µs units; reset 200 -/
  interval   : Nat := 200
  /-- (R487) INTERVAL from the next opened epoch; reset 200 -/
  intervalNx : Nat := 200
  /-- (R257) log extent in bytes; reset 0 -/
  extent     : Nat := 0
  /-- (R256) log records written since the sweep began, in bytes -/
  sweepBytes : Nat := 0
deriving DecidableEq, Repr

/-- The rest of persistence: checkpoint writer, loss record and restart flags. -/
structure Ckpt where
  /-- (R255) the next segment of the sweep, 0 to 3,608; reset: DESIGN CHOICE 0 (log 2) -/
  segment   : Nat := 0
  /-- (R267) SWEEPS; reset: DESIGN CHOICE 0 (log 2) -/
  sweeps    : Nat := 0
  /-- (R256) roots written, which gives the next root page; reset: DESIGN CHOICE 0 (log 2) -/
  roots     : Nat := 0
  /-- (R247, R264) the epoch of the last commit record on the medium; reset: DESIGN CHOICE 0 (log 2) -/
  lastCommit : Nat := 0
  /-- (R266) the highest epoch number opened; reset: DESIGN CHOICE 0 (log 2) -/
  lastOpen  : Nat := 0
  /-- (R256) the 32 root pages, bank × 16 + page: sequence number and log position of the root that each holds -/
  rootPages : Table (Nat × Nat) := []
  /-- (R256) the log position: bytes of log written since the format; reset: DESIGN CHOICE 0 (log 2) -/
  logPos    : Nat := 0
  /-- (R256) the model's time of the last root -/
  rootAt    : Option Nat := none
  /-- (R267) REPLAY_FAIL; reset 0 -/
  failed    : Bool := false
  /-- (R264) Replay has started; reset 0 -/
  replaying : Bool := false
  /-- (R266) the loss record shown in EPC_LOSS and EPC_LOSS_EP; reset: DESIGN CHOICE kind 5, first start after format
  (log 2) -/
  loss      : LossRec := ⟨5, 0, 0⟩
  /-- (R267) EPC_LOSS.VALID; reset: DESIGN CHOICE 0 (log 2) -/
  lossValid : Bool := false
  /-- (R267) REPLAY_MS; reset: DESIGN CHOICE 0 (log 2) -/
  replayMs  : Nat := 0
  /-- (R258) Flush was entered since the last Replay; reset 0 -/
  flushed   : Bool := false
  /-- (R258) programming was forbidden at that entry; reset 0 -/
  flushHold : Bool := false
  /-- (R258) the clean loss record stands; reset: DESIGN CHOICE 0 (log 2) -/
  clean     : Bool := false
  /-- (R258) an immediate shut-off with its loss kind; reset: none -/
  shutOff   : Option Nat := none
  /-- (R258) the always-on domain was lost without a clean record; reset 0 -/
  aoLost    : Bool := false
  /-- (R267) the device has been formatted and not yet started since (kind 5); reset: 1, factory (R607) -/
  formatted : Bool := true
  /-- (R482) a format is running; reset 0 -/
  formatting : Bool := false
deriving DecidableEq, Repr

end Sys2Proof.Machine
end

