-- ==== Sys2Proof/State/Line.lean ====
section
/-! DEFINITION. State of the slice caches, the LPDDR6 and the coherence agents (08 to 11). -/

namespace Sys2Proof.Machine

/-- A tag entry of a slice way with its line (R270). The TAG is the line's address itself. -/
structure TagEntry where
  /-- (R270) 10 bits, NODE -/
  node   : Nat
  /-- (R270) the line address; with NODE it gives TAG -/
  dla    : Nat
  /-- (R270) 12 bits, KID -/
  kid    : Nat
  /-- (R270) 1 bit, DIRTY -/
  dirty  : Bool
  /-- (R270) 1 bit, POISON -/
  poison : Bool
  /-- (R270) 1 bit, PF -/
  pf     : Bool
  /-- (R270) 1 bit, PIN -/
  pin    : Bool
  /-- (R270) 1 bit, EVICT -/
  evict  : Bool
  /-- (R271) 512 bits, plaintext -/
  data   : Line
  /-- (R291) 32 bits, the VER the line's ciphertext carries -/
  ver    : Nat
deriving DecidableEq, Repr

/-- Maintenance operations (R281). -/
inductive MaintOp where
  | clean | inval | flush
deriving DecidableEq, Repr

/-- Who asks for a line. -/
inductive Asker where
  /-- a host request of a port: its tag, MetaValue, tenant and host address -/
  | host (port : Port) (tag : Nat) (mv : MetaValue) (tenant hpa : Nat)
  /-- a remote requester: node and TXID -/
  | node (src txid : Nat)
  /-- the dovetail entry of the line: its old line -/
  | dovetail
  /-- the stride prefetcher -/
  | prefetch
  /-- the re-encryption sequencer: re-encryption or re-key of the line -/
  | sequencer
  /-- a CXL mailbox command of a port: its opcode (R430) -/
  | cxl (port : Port) (op : Nat)
deriving DecidableEq, Repr

/-- Kinds of request a line can receive at its home (R332, R356). -/
inductive ReqKind where
  | rdS | rdX | rdC | upg | write | victim
deriving DecidableEq, Repr

/-- A request that waits for a line, in its MSHR (R276, R337). -/
structure Waiter where
  kind   : ReqKind
  asker  : Asker
  kid    : Nat
  /-- the class under which it allocates (R272), 0 to 4 -/
  cls    : Nat
  data   : Line := 0
  mask   : BitVec 64 := 0
  poison : Bool := false
  /-- (R45, R186) what SECDED finds in the line's words where the request hits -/
  sram   : SramMeet := .clean
deriving DecidableEq, Repr

/-- An entry of an MSHR: a request or a maintenance operation, in order (R283). -/
inductive Entry where
  | req (w : Waiter)
  | maint (snd : Sender) (op : MaintOp)
deriving DecidableEq, Repr

/-- Kinds of snoop (R321). -/
inductive SnpKind where
  | s | x | c | i
deriving DecidableEq, Repr

/-- What a line's location resolves to (R110). -/
inductive Resolved where
  | zero
  | poison
  | buffer (dla : Nat)
  | medium (loc : Loc)
deriving DecidableEq, Repr

/-- A fill as it arrives (R57, R283). -/
inductive Fill where
  | data (d : Line) (ver : Nat)
  | poison
deriving DecidableEq, Repr

/-- How a read was served, as the trace records it (Table 19-6). -/
structure How where
  cls   : Nat := 1
  flash : Bool := false
  spec  : Bool := false
  kill  : Bool := false
deriving DecidableEq, Repr

/-- The home transaction in progress on a line (R356, Table 11-1). -/
structure HomeTrans where
  /-- (R356) SNP: kind and TXID of the snoop sent to the owner -/
  snp  : Option (SnpKind × Nat) := none
  /-- (R348) the nodes whose answers to SnpI with OWN = 0 are outstanding: PEND is their number -/
  pend : List Nat := []
  /-- (R356) ANN -/
  ann  : Bool := false
  /-- (R356) EVX -/
  evx  : Bool := false
  /-- (R356) WB: FWD of the RspWb that waits in HX_W -/
  wb   : Option Bool := none
  /-- (R356) POIS -/
  pois : Bool := false
  /-- (R339) the requester is granted CmpX -/
  upgC : Bool := false
  /-- (R333) the ports whose back-invalidate is outstanding -/
  bi   : List Port := []
deriving DecidableEq, Repr

/-- An MSHR (R276): the request in progress, its coherence transaction and its miss, and what waits behind it. -/
structure Mshr where
  /-- (R276) key ID of the miss -/
  kid    : Nat
  /-- the request in progress; none once it has been answered -/
  cur    : Option Waiter
  /-- (R276) merged requests and maintenance, in order -/
  queue  : List Entry := []
  /-- (R356) the transaction record while copies are being recalled -/
  trans  : Option HomeTrans := none
  /-- (R328) the request waits for an entry of its directory set -/
  hold   : Bool := false
  /-- (R356) POIS, once the copies have been recalled -/
  pois   : Bool := false
  /-- (R440) the write in progress waits for a lease -/
  lease  : Bool := false
  /-- (R206) the request in progress waits for the dovetail merge of its line -/
  dove   : Bool := false
  /-- (R205) the miss reads the old line of the dovetail entry -/
  oldRead : Bool := false
  /-- (R46) the miss has started -/
  miss   : Bool := false
  /-- (R38) the DRAM-cache tag check: not yet made, miss, or hit -/
  tagHit : Option Bool := none
  /-- (R110) the resolved location -/
  loc    : Option Resolved := none
  /-- (R140) RGEN when that location was captured -/
  cap    : Nat := 0
  /-- (R194) an LPDDR6 line that it met failed its code: the read is of class L4 -/
  late   : Bool := false
  /-- (R47) its confirmed medium read -/
  rid    : Option Nat := none
  /-- (R54) the speculative read of the line -/
  spec   : Option Nat := none
  /-- (R273) the reserved way -/
  way    : Option Nat := none
  /-- (R280) the miss is a prefetch that no demand read has joined -/
  pf     : Bool := false
  /-- (R283) the fill that has arrived -/
  fill   : Option Fill := none
  /-- (R38) how that fill was served, for the reads merged in the MSHR -/
  how    : How := {}
  /-- (R61) the data of a write applied at once while the miss is outstanding: later reads are answered with it -/
  newer  : Option Fill := none
  /-- (R59, R224, R242, R275) the write in progress waits until two LPDDR6 devices can accept it again, or an eviction has
  ended: the epoch in which it was ordered -/
  held   : Option Nat := none
deriving DecidableEq, Repr

/-- A dovetail entry (R203). -/
structure Dovetail where
  /-- (R203) 512 bits -/
  data   : Line
  /-- (R203) 64 bits, byte enables -/
  mask   : BitVec 64
  /-- (R203) 12 bits, key ID -/
  kid    : Nat
  /-- (R203) 6 bits, tenant -/
  tenant : Nat
  /-- (R203) epoch number -/
  epoch  : Nat
  /-- (R205) the entry is closed and waits for the old line -/
  closed : Bool := false
  /-- (R205) the old line, when its read has completed -/
  old    : Option Fill := none
  /-- (R206) how that read was served -/
  how    : How := {}
  /-- (R204) the record of its bytes in the write buffer, under the internal media key -/
  record : Line := 0
  /-- (R272) the class under which the merged line allocates -/
  cls    : Nat := 0
deriving DecidableEq, Repr

/-- A stride stream entry (R278). -/
structure Stream where
  cls    : Nat
  lpn    : Nat
  last   : Nat
  stride : Int
  count  : Nat
deriving DecidableEq, Repr

/-- One sender's maintenance registers (R282, R287, R608). -/
structure Maint where
  /-- (R287) 58 bits, LINE; reset 0 -/
  addr    : Nat := 0
  /-- (R287) 1 bit, BUSY; reset 0 -/
  busy    : Bool := false
  /-- (R287) 1 bit, DONE; reset 0 -/
  done    : Bool := false
  /-- (R287) 1 bit, SKIPPED; reset 0 -/
  skipped : Bool := false
  /-- (R287) 21 bits, LEFT; reset 0 -/
  left    : Nat := 0
  /-- (R282) the operation in progress -/
  op      : Option MaintOp := none
deriving DecidableEq, Repr

/-- The SCC commit group (R286). -/
structure SccCfg where
  /-- (R287) 1 bit, ENABLE; reset 1 -/
  enable  : Bool := true
  /-- (R287) 1 bit, PF_EN; reset 1 -/
  pfEn    : Bool := true
  /-- (R287) 4 bits, PF_DEPTH; reset 4 -/
  depth   : Nat := 4
  /-- (R287) five masks of 16 bits: Port A, Port B, Fabric, Engines, Prefetch; reset: Table 08-2 -/
  masks   : List Nat := [0x0FFF, 0x0FFF, 0x3000, 0x4000, 0x8000]
  /-- (R287) 16 bits, WAY_OFF; reset 0 -/
  wayOff  : Nat := 0
deriving DecidableEq, Repr

/-- The slice caches (08). -/
structure Cache where
  /-- (R270) valid ways by (slice × 12,288 + set) × 16 + way; reset: DESIGN CHOICE all invalid (log 2) -/
  ways    : Table TagEntry := []
  /-- (R270) the pseudo-LRU trees, 15 bits by slice × 12,288 + set; reset: DESIGN CHOICE 0 (log 2) -/
  plru    : Table Nat := []
  /-- (R276) the MSHRs by node × 2^36 + DLA -/
  mshrs   : Table Mshr := []
  /-- (R203) the dovetail entries by DLA -/
  dove    : Table Dovetail := []
  /-- (R278) stream entries of each slice, newest first, at most 64 -/
  streams : Table (List Stream) := []
  /-- (R286) the group in force -/
  cfg     : SccCfg := {}
  /-- (R286) the group as written -/
  staged  : SccCfg := {}
  /-- (R287) STATE: 0 OFF, 1 ON, 2 PENDING; reset 1 -/
  state   : Nat := 1
  /-- (R285) a commit set ENABLE while PENDING -/
  reOn    : Bool := false
  /-- (R287) 16 bits, WAYS_ON; reset 0xFFFF -/
  waysOn  : Nat := 0xFFFF
  /-- (R287) 10 bits, MSHR_PEAK; reset 0 -/
  peak    : Nat := 0
  /-- (R287, R608) maintenance of Port A, Port B, the sideband and the MP; reset 0 -/
  maint   : List Maint := [{}, {}, {}, {}]
deriving DecidableEq, Repr

/-- A line of a DRAM cache: ciphertext and the version in CTR (R291). -/
structure DramLine where
  kid : Nat
  raw : RawSector
deriving DecidableEq, Repr

/-- A bank of an LPDDR6 channel (R302 to R304). -/
structure Bank where
  /-- (R304) refresh intervals postponed, 0 to 8; reset: DESIGN CHOICE 0 (log 2) -/
  postponed : Nat := 0
  /-- (R304) marked refresh-busy; reset: DESIGN CHOICE 0 (log 2) -/
  marked    : Bool := false
  /-- (R302) the time at which the refresh that runs ends; reset: none -/
  busyTo    : Option Nat := none
deriving DecidableEq, Repr

/-- An LPDDR6 channel (R288 to R308). -/
structure Chan where
  /-- (R293) the marked DQ, 0 to 23; reset: DESIGN CHOICE none (log 2) -/
  mark     : Option Nat := none
  /-- (R293) corrected lines of the last second: DQ and time, newest first -/
  corr     : List (List Nat × Nat) := []
  /-- (R306) node temperature at its last training; reset: DESIGN CHOICE 0 (log 2) -/
  trainT   : Int := 0
  /-- (R306) the model's time of its last training -/
  trainAt  : Nat := 0
  /-- (R306) a retraining is due -/
  retrain  : Bool := false
  /-- (R304, R306) a retraining runs: every bank of the channel is marked refresh-busy -/
  training : Bool := false
  /-- (R308) ranks in power-down -/
  down     : List Nat := []
  /-- (R302) the refresh window in ms: 32, 16 or 8; reset: 32, DESIGN CHOICE (log 2) -/
  window   : Nat := 32
  /-- (R310) response deadlines missed, newest first -/
  missed   : List Nat := []
  /-- (R299) the bank, rank × 16 + bank, of the last activate; reset: DESIGN CHOICE 31 (log 2) -/
  last     : Nat := 31
deriving DecidableEq, Repr

/-- What an LPDDR6 read is made for: a line, or the dense entry or the eaves set of a line's location (R112, R298). -/
inductive DramUse where
  | line | dense | eaves
deriving DecidableEq, Repr

/-- A request of a channel controller's queues (R298): its DRAM line, its class of Table 09-3, and the MSHR it is for. -/
structure DramReq where
  line : Nat
  cls  : Nat
  node : Nat
  dla  : Nat
  use  : DramUse
deriving DecidableEq, Repr

/-- The LPDDR6 subsystem (09). -/
structure Dram where
  /-- (R274) the DRAM read cache by DLA; reset: DESIGN CHOICE empty (log 2) -/
  cache   : Table DramLine := []
  /-- (R316) the DRAM remote cache by node × 2^36 + DLA; reset: DESIGN CHOICE empty (log 2) -/
  remote  : Table DramLine := []
  /-- (R297) remote cache size in GiB; reset 8 -/
  rSize   : Nat := 8
  /-- (R289) data rate code in force; reset 2 (12.8) -/
  rate    : Nat := 2
  /-- (R289) data rate code from the next Boot; reset 2 -/
  rateNx  : Nat := 2
  /-- (R308) PD_TIMER in 50 ns units; reset 4 (200 ns) -/
  pdTimer : Nat := 4
  /-- (R302) the banks by (channel × 2 + rank) × 16 + bank -/
  banks   : Table Bank := []
  /-- (R288) the 16 channels; reset: as a channel's fields -/
  chans   : Table Chan := []
  /-- (R298) the requests that wait at the channel controllers, oldest first; reset: none -/
  queue   : List DramReq := []
  /-- (R300) the write queues of the channels: DRAM lines accepted and not yet written, oldest first; reset: none -/
  writes  : List Nat := []
  /-- (R187) corrected lines waiting for their write-back, by DRAM line -/
  wback   : List Nat := []
  /-- (R313) re-mirroring after the loss of device n: n and the progress pointer; reset: none -/
  remir   : Option (Nat × Nat) := none
  /-- (R519) self-refresh; reset 0 -/
  selfRef : Bool := false
deriving DecidableEq, Repr

/-- Home states (R318). -/
inductive HomeSt where
  | hs | hx | hsI | hxF | hxI | hxW
deriving DecidableEq, Repr

/-- A directory entry (R326); HU has none. -/
structure DirEntry where
  /-- (R326) 3 bits, STATE -/
  st   : HomeSt
  /-- (R326) 1 bit, CV -/
  cv   : Bool := false
  /-- (R326) NPTR and PTR_0 to PTR_3 -/
  ptrs : List Nat := []
  /-- (R326) 64 bits, VEC -/
  vec  : Nat := 0
  /-- (R328) order of last use, for least-recently-used -/
  used : Nat := 0
deriving DecidableEq, Repr

/-- A host snoop filter entry (R331): holdings 0 I, 1 S, 2 E. -/
structure HsfEntry where
  /-- (R331) 2 bits, HA -/
  ha   : Nat := 0
  /-- (R331) 2 bits, HB -/
  hb   : Nat := 0
  /-- (R331) 1 bit, BUSY -/
  busy : Bool := false
deriving DecidableEq, Repr

/-- Kinds of back-invalidate (R333). -/
inductive BiKind where
  | data | inv | cur
deriving DecidableEq, Repr

/-- Proxy states (R319). -/
inductive PxSt where
  | ps | pe | pm | piS | piX | psX | pmW | peI | pmI | pf
deriving DecidableEq, Repr

/-- A snoop a proxy holds (R323, R346). -/
structure HeldSnp where
  kind : SnpKind
  txid : Nat
  reqn : Nat
  rqtx : Nat
deriving DecidableEq, Repr

/-- A remote line at the proxy (R319, R360); PI has no entry unless a request or write is outstanding. -/
structure PxLine where
  /-- (R319) the state; none is PI with a RdC or WrT outstanding -/
  st     : Option PxSt := none
  /-- (R355) TXID of the outstanding request, WrT aside -/
  txid   : Option Nat := none
  /-- (R360) the host requests that wait, in order -/
  waits  : List Waiter := []
  /-- (R342) the data received, its key ID and VER, while the grant is incomplete -/
  data   : Option (Fill × Nat) := none
  /-- (R342) Cmp or CmpX has arrived -/
  granted : Bool := false
  /-- (R345) no-allocate mark -/
  noAlloc : Bool := false
  /-- (R361) outstanding WrT messages by TXID, with the host write each completes -/
  wrts   : Table (Option Waiter) := []
  /-- (R346) the hold window runs: a grant has completed and HOLD_NS has not passed -/
  holding : Bool := false
  /-- (R346) the snoop that waits, or that the proxy in PF answers -/
  snoop  : Option HeldSnp := none
  /-- (R335) TXID of a SnpI with OWN = 0 whose answer waits for the hosts -/
  snpI   : Option Nat := none
  /-- (R344) the write of a recalled host, not yet sent to the home -/
  pullW  : Option Waiter := none
  /-- (R316) the copy is to leave as soon as its state allows -/
  leave  : Bool := false
  /-- (R333) the back-invalidate of the first waiting request has been sent -/
  asked  : Bool := false
  /-- (R344) the EvX has been sent -/
  evxSent : Bool := false
  /-- key ID of the copy -/
  kid    : Nat := 0
deriving DecidableEq, Repr

/-- A refused request that waits for its back-off (R330). -/
structure Retry where
  /-- the times it has been refused in a row -/
  n    : Nat
  /-- the back-off runs -/
  due  : Bool
deriving DecidableEq, Repr

/-- The coherence agents (10, 11). -/
structure Coh where
  /-- (R326) the directory by DLA; unlisted is HU; reset: DESIGN CHOICE empty (log 2) -/
  dir     : Table DirEntry := []
  /-- (R331) the host snoop filters by node × 2^36 + DLA; unlisted is I for both; reset: DESIGN CHOICE empty (log 2) -/
  hsf     : Table HsfEntry := []
  /-- (R335) back-invalidates outstanding, by (node × 2^36 + DLA) × 2 + port -/
  bis     : Table BiKind := []
  /-- (R319) remote lines by home × 2^36 + DLA -/
  px      : Table PxLine := []
  /-- (R324) WRT credits this node holds for each home; unlisted is 64 -/
  credits : Table Nat := []
  /-- (R324) WRT credits of this home held back from each node -/
  owed    : Table Nat := []
  /-- (R355) the next request TXID, 0x000 to 0x7FF; reset: DESIGN CHOICE 0 (log 2) -/
  txid    : Nat := 0
  /-- (R355) the next snoop TXID, 0x800 to 0xFFE; reset: DESIGN CHOICE 0x800 (log 2) -/
  snpTx   : Nat := 0x800
  /-- (R346) HOLD_NS in 10 ns units; reset 20 (200 ns) -/
  holdNs  : Nat := 20
  /-- (R349) the fence tables: slice, node and DLA, oldest first -/
  fence   : List (Nat × Nat × Nat) := []
  /-- (R350) snoop timeouts of suspect nodes: times, newest first -/
  suspect : Table (List Nat) := []
  /-- (R351) nodes declared dead -/
  dead    : List Nat := []
  /-- (R330) refused requests of this node by home × 2^36 + DLA -/
  retries : Table Retry := []
  /-- (R330) refusals of RSN 0 queued by each slice: slice, set and node, oldest first -/
  refused : List (Nat × Nat × Nat) := []
  /-- (R330) ways held for a queued refusal: slice × 131,072 + set, and the node -/
  held    : Table Nat := []
  /-- (R338) the rotating pointer of the home's twelve inputs, by slice -/
  rotor   : Table Nat := []
  /-- order counter for R328 (the model's own) -/
  clock   : Nat := 0
deriving DecidableEq, Repr

end Sys2Proof.Machine
end

