-- ==== Sys2Proof/State/Fabric.lean ====
section
/-! DEFINITION. State of the Slomugon Link, the pool and the host ports (12, 13). -/

namespace Sys2Proof.Machine

/-- States of an SGL port (R380, R400). -/
inductive LinkSt where
  | down | detect | eq | align | ident | auth | up | refused
deriving DecidableEq, Repr

/-- A data flit in the retry buffer (R375). -/
structure TxFlit where
  seq  : Nat
  msgs : List SglMsg
deriving DecidableEq, Repr

/-- An SGL port (R363 to R381, R398 to R400). -/
structure SglPort where
  /-- (R400) 3 bits, STATE; reset 0 -/
  st       : LinkSt := .down
  /-- (R400) 2 bits, WIDTH: 0 none, 1 lanes 0-1, 2 lanes 2-3, 3 all; reset 0 -/
  width    : Nat := 0
  /-- (R400) 10 bits, NBR_NODE; reset 0 -/
  nbr      : Nat := 0
  /-- (R400) 3 bits, NBR_PORT; reset 0 -/
  nbrPort  : Nat := 0
  /-- (R387) serial of the neighbour; reset 0 -/
  nbrSer   : Nat := 0
  /-- (R400) 3 bits, REFUSE; reset 0 -/
  refuse   : Nat := 0
  /-- (R400) 16 bits, REPLAYS; reset 0 -/
  replays  : Nat := 0
  /-- (R400) 8 bits, TAG_FAIL; reset 0 -/
  tagFail  : Nat := 0
  /-- (R400) 8 bits, FEC_UE; reset 0 -/
  fecUe    : Nat := 0
  /-- (R374) next SEQ to send; 0 at UP (R380) -/
  txSeq    : Nat := 0
  /-- (R374) next SEQ expected; 0 at UP -/
  rxSeq    : Nat := 0
  /-- (R367) a data flit has been accepted since UP: ACKV -/
  rxAny    : Bool := false
  /-- (R375) the retry buffer, oldest first, at most 256 -/
  retry    : List TxFlit := []
  /-- (R368, R399) the granules received of a message that runs on into the next data flit -/
  part     : List Word := []
  /-- (R374) the receiver waits for its NAK to be answered -/
  nakWait  : Bool := false
  /-- (R398) times of replays without progress, newest first -/
  replayAt : List Nat := []
  /-- (R379) times of tag failures, newest first -/
  tagAt    : List Nat := []
  /-- (R366) blocks received since UP -/
  blocks   : Nat := 0
  /-- (R366) the block at which the receive key took effect -/
  keyBlk   : Nat := 0
  /-- (R378) the announced KEY_AT, as a flit position of the receive key -/
  keyAt    : Option Nat := none
  /-- (R378) keys used since UP in each direction: receive and send -/
  keyGen   : Nat × Nat := (0, 0)
  /-- (R372) granules the neighbour advertised for each VC -/
  bufs     : List Nat := List.replicate 15 0
  /-- (R373) granules sent on each VC since training, modulo 65,536 -/
  sent     : List Nat := List.replicate 15 0
  /-- (R373) the neighbour's cumulative counts of granules freed -/
  freed    : List Nat := List.replicate 15 0
  /-- (R373) this receiver's cumulative counts of granules freed -/
  mine     : List Nat := List.replicate 15 0
  /-- (R43, R100) granules of requests for this node freed and not yet counted there -/
  kept     : List Nat := List.replicate 15 0
  /-- (R398) the port retrains at ×2: its SEQ and retry buffer are kept -/
  keep     : Bool := false
  /-- (R398) lanes at fault -/
  faulty   : List Nat := []
deriving DecidableEq, Repr

/-- Fragments of a management payload (R370), in order, with their number. -/
structure Frags where
  got  : Nat
  data : List Word
deriving DecidableEq, Repr

/-- The stored pool settings (R386), one commit group (Table 15-7). -/
structure PoolCfg where
  /-- (R386) 10 bits, node ID; reset 0 (R607) -/
  node    : Nat := 0
  /-- (R386) the node ID is configured; reset 0 (R607) -/
  nodeSet : Bool := false
  /-- (R386) 32 bits, pool ID; reset 0 (R607) -/
  pool    : Nat := 0
  /-- (R386) ridge eligibility; reset: DESIGN CHOICE 0 (log 2) -/
  ridgeOk : Bool := false
  /-- (R385) K_x; reset: DESIGN CHOICE 1 (log 2) -/
  kx      : Nat := 1
  /-- (R385) K_y; reset: DESIGN CHOICE 1 (log 2) -/
  ky      : Nat := 1
  /-- (R385) K_z; reset: DESIGN CHOICE 1 (log 2) -/
  kz      : Nat := 1
  /-- (R386) the roster, 1,024 bits; reset: DESIGN CHOICE empty (log 2) -/
  roster  : Nat := 0
deriving DecidableEq, Repr

/-- The pool and routing (R382 to R399). -/
structure Sgl where
  /-- (R400) the eight ports; reset: DOWN -/
  ports    : List SglPort := List.replicate 8 {}
  /-- (R382) the route table by destination; reset: DESIGN CHOICE empty (log 2) -/
  routes   : Table RouteEntry := []
  /-- (R389) the link-state database: LSA and the time it was received, by node and serial -/
  lsdb     : List (Lsa × Nat) := []
  /-- (R389) LSA sequence number of this node's next LSA; reset: DESIGN CHOICE 0 (log 2) -/
  lsaSeq   : Nat := 0
  /-- (R389) the database has changed since the routes were installed -/
  stale    : Bool := false
  /-- (R386) the settings in force; reset: not configured (R607) -/
  cfg      : PoolCfg := {}
  /-- (R386) the settings for the next Boot; reset: not configured (R607) -/
  cfgNx    : PoolCfg := {}
  /-- (R400) POOL_STATE: 0 stand-alone, 1 forming, 2 ready, 3 excluded; reset 0 -/
  state    : Nat := 0
  /-- (R388) GEN; reset 0 -/
  gen      : Nat := 0
  /-- (R400) the members of the generation held, 1,024 bits; reset 0 -/
  members  : Nat := 0
  /-- (R400) RIDGE_ID; reset 0 -/
  ridge    : Nat := 0
  /-- (R397) nodes that were unreachable when a generation left them out -/
  apart    : List Nat := []
  /-- (R390) pool-ready has been declared -/
  declared : Bool := false
  /-- (R391) READY maps received from children -/
  readies  : Table Nat := []
  /-- (R391) this member's READY has been sent to the parent -/
  readySent : Option Nat := none
  /-- (R391) the gather window runs -/
  gathering : Bool := false
  /-- (R391) gather window in s in force, and from the next election; reset 30 -/
  gather   : Nat × Nat := (30, 30)
  /-- (R393) hold limit in s in force, and from the next end of Replay; reset 10 -/
  holdLim  : Nat × Nat := (10, 10)
deriving DecidableEq, Repr

/-- The rest of the fabric: message queues and counters. -/
structure Fab where
  /-- (R371) next WSEQ for each home -/
  wseqTx   : Table Nat := []
  /-- (R371) next WSEQ expected from each source -/
  wseqRx   : Table Nat := []
  /-- (R371) WRT messages ahead of their turn -/
  wrtHeld  : List SglMsg := []
  /-- (R370) partial payloads by (SRC × 4,096 + TXID) × 256 + MCODE -/
  frags    : Table Frags := []
  /-- (R393) the remote hold queue: port, request and home line, oldest first, at most 256 -/
  hold     : List (Nat × Nat × Waiter) := []
  /-- (R393) the hold limit of this start has passed -/
  holdOver : Bool := false
  /-- (R411) the remote write queues: home, DLA and write, oldest first -/
  rwq      : List (Nat × Nat × Waiter) := []
  /-- (R400) 32 bits, RD_POISON; reset 0 -/
  rdPoison : Nat := 0
  /-- (R400) 32 bits, WR_DISCARD; reset 0 -/
  wrDisc   : Nat := 0
  /-- (R396) nodes and generations whose event has been raised -/
  absEv    : List (Nat × Nat) := []
  /-- (R383) messages that wait for credit: the message -/
  waiting  : List SglMsg := []
  /-- (R251) PFLUSH requests served at this home: source, TXID, port and target epoch -/
  pflush   : List (Nat × Nat × Nat × Nat) := []
  /-- (R387) duplicated node IDs -/
  dups     : List Nat := []
deriving DecidableEq, Repr

/-- A window (R412, R432). -/
structure Window where
  /-- (R432) 1 bit, VALID -/
  valid  : Bool
  /-- (R432) 1 bit, RD -/
  rd     : Bool
  /-- (R432) 1 bit, WR -/
  wr     : Bool
  /-- (R432) HBASE as an address -/
  hbase  : Nat
  /-- (R432) PBASE as an address -/
  pbase  : Nat
  /-- (R432) SIZE in units of 256 MiB -/
  size   : Nat
  /-- (R432) 3 bits, KBITS -/
  kbits  : Nat
  /-- (R432) 6 bits, KSHIFT -/
  kshift : Nat
  /-- (R432) 6 bits, TENANT -/
  tenant : Nat
  /-- (R432) 16 bits, KVALID -/
  kvalid : Nat
  /-- (R414) the KID list, entries 0 to 15 -/
  kids   : List Nat
deriving DecidableEq, Repr

/-- A run-ahead stream tracker (R58). -/
structure Tracker where
  page  : Nat
  up    : Bool
  count : Nat
  time  : Nat
deriving DecidableEq, Repr

/-- An entry of a CXL event log (R573): handle and record. -/
structure LogEntry where
  handle : Nat
  rec_   : Nat
deriving DecidableEq, Repr

/-- A Set LSA that waits for the commit of its epoch (R430): its epoch, offset and bytes, and whether its port still waits
for the answer. -/
structure LsaWrite where
  epoch  : Nat
  off    : Nat
  bytes  : List (BitVec 8)
  answer : Bool
deriving DecidableEq, Repr

/-- The CXL mailbox settings and logs of a port (R430). -/
structure CxlBox where
  /-- (R430) four event logs: info, warning, failure, fatal; entries name records by SEQ; reset: empty -/
  logs     : List (List Nat) := [[], [], [], []]
  /-- (R430) event interrupt policy; reset: DESIGN CHOICE 0 (log 2) -/
  policy   : List Nat := [0, 0, 0, 0]
  /-- (R430) alert configuration; reset: DESIGN CHOICE empty (log 2) -/
  alert    : List Nat := []
  /-- (R430) shutdown state: dirty; reset: DESIGN CHOICE 0 (log 2) -/
  dirty    : Bool := false
  /-- (R430) label storage area, 128 KiB; an unlisted byte reads 0 (DESIGN CHOICE, log 2) -/
  lsa      : Table (BitVec 8) := []
  /-- (R430) Set LSA commands that wait for their epoch, oldest first; reset: none -/
  lsaWait  : List LsaWrite := []
  /-- (R485) an Activate FW waits for the MP's restart; reset 0 -/
  actWait  : Bool := false
  /-- (R430) the background operation: opcode and whether it is complete; reset: none -/
  bg       : Option (Nat × Bool) := none
deriving DecidableEq, Repr

/-- A flush a port waits for (R251): the tag, the targeted epoch and the homes asked, by TXID. -/
structure Gpf where
  tag    : Nat
  target : Nat
  homes  : List Nat
deriving DecidableEq, Repr

/-- The DSMAS entry of a port's CDAT with its latencies in ns and bandwidths in MB/s (R428). -/
structure Dsmas where
  dpaBase     : Nat
  dpaBytes    : Nat
  nonVolatile : Bool
  readNs      : Nat
  writeNs     : Nat
  readMBs     : Nat
  writeMBs    : Nat
deriving DecidableEq, Repr

/-- A host port (R401 to R432). -/
structure HostPort where
  /-- (R432) 3 bits, WIDTH: 0 down, 1 ×4, 2 ×8, 3 ×16; reset 0 -/
  width    : Nat := 0
  /-- (R432) 2 bits, RATE; reset 0 -/
  rate     : Nat := 0
  /-- (R432) 1 bit, LOFLIT; reset 0 -/
  loflit   : Bool := false
  /-- (R432) 1 bit, IDE; reset 0 -/
  ide      : Bool := false
  /-- (R463) the stream is insecure after an integrity failure: out of service until IDE is established; reset 0 -/
  insecure : Bool := false
  /-- (R432) 16 bits, FAULT_LANES; reset 0 -/
  faults   : Nat := 0
  /-- (R432) 8 bits, RETRAINS; reset 0 -/
  retrains : Nat := 0
  /-- (R432) 32 bits, WIN_VIOL.COUNT; reset 0 -/
  viol     : Nat := 0
  /-- (R432) WIN_VLAST: KIND, WRITE and the address; reset 0 -/
  vlast    : Nat × Bool × Nat := (0, false, 0)
  /-- (R432) WIN_GEN.GEN; reset: DESIGN CHOICE 0 (log 2) -/
  gen      : Nat := 0
  /-- (R412) the windows in force, by number; reset: DESIGN CHOICE none valid (log 2) -/
  windows  : Table Window := []
  /-- (R412) staged windows, by number -/
  staged   : Table Window := []
  /-- (R418) a commit waits for its back-invalidates: the lines outstanding -/
  commit   : Option (List Nat) := none
  /-- (R418) the windows in force before that commit -/
  before   : Table Window := []
  /-- (R402) the aperture in 256 MiB units; reset 16,384 (4 TiB) -/
  aperture : Nat := 16384
  /-- (R402) the aperture from the next conventional reset; reset 16,384 -/
  apNext   : Nat := 16384
  /-- (R402) committed HDM decoders: HPA base, size and DPA base; reset: DESIGN CHOICE one that covers 2^52 bytes from 0
  (log 4) -/
  hdm      : List (Nat × Nat × Nat) := [(0, 2 ^ 52, 0)]
  /-- (R58) stream trackers, at most 32, newest first -/
  tracks   : List Tracker := []
  /-- (R409) of the 256 M2S Req credits, those a request has used and the port has not returned; reset 0 -/
  reqUsed  : Nat := 0
  /-- (R409) of the 128 M2S RwD credits, those used and not returned; reset 0 -/
  rwdUsed  : Nat := 0
  /-- (R536) the 1 µs window in which credits are being returned, and the lines returned in it; reset 0 -/
  paced    : Nat × Nat := (0, 0)
  /-- (R251) remote homes written through this port since its last flush -/
  wrote    : List Nat := []
  /-- (R251) the flush in progress -/
  gpf      : Option Gpf := none
  /-- (R551) bytes read by tenant since Boot -/
  rdBytes  : Table Nat := []
  /-- (R551) bytes written by tenant since Boot -/
  wrBytes  : Table Nat := []
deriving DecidableEq, Repr

end Sys2Proof.Machine
end

