-- ==== Sys2Proof/State/Secure.lean ====
section
/-! DEFINITION. State of the security block, the thermal model and the metering partition (14, 17, 18). -/

namespace Sys2Proof.Machine

/-- Key ID states (R455); EMPTY is the absence of the slot. -/
inductive KeySt where
  | installed | retiring | rekeying
deriving DecidableEq, Repr

/-- A key ID that is not EMPTY (R435). -/
structure KeySlot where
  st       : KeySt
  /-- (R435) integrity mode, else XTS -/
  integrity : Bool
  /-- (R435) 512 bits -/
  material : BitVec 512
  /-- (R435) 32 bits -/
  kcv      : BitVec 32
  /-- (R457) the sender whose command retires it and the TAG of its message -/
  cmd      : Option (Sender × Nat) := none
deriving DecidableEq, Repr

/-- An SPDM session (R454). -/
structure Session where
  mutualAuth : Bool
  root       : Nat
deriving DecidableEq, Repr

/-- A segment walk (R444 to R449). -/
structure Walk where
  seg       : Nat
  /-- (R442) the generation it leaves -/
  gen       : Nat
  /-- (R446) the progress pointer: lines of the segment passed, 0 to 2^24 -/
  pos       : Nat := 0
  /-- (R449) the committed position of the last progress record -/
  recorded  : Nat := 0
  /-- (R444) the pinned line -/
  pinned    : Nat
  /-- (R447) key IDs that have verified lines in this walk, most recent first -/
  keys      : List Nat := []
  /-- (R448) the epoch of the last sequencer write -/
  epoch     : Nat := 0
  /-- (R449) the position reached by the end of each live epoch -/
  marks     : Table Nat := []
  /-- (R449) the committed position -/
  done      : Nat := 0
deriving DecidableEq, Repr

/-- A re-key in progress (R459). -/
structure Rekey where
  source  : Nat
  target  : Nat
  /-- first GiB and number of GiB of each range -/
  ranges  : List (Nat × Nat)
  /-- lines passed of the lines in range -/
  pos     : Nat := 0
deriving DecidableEq, Repr

/-- The security block (14). -/
structure Sec where
  /-- (R435) the key IDs not EMPTY; reset: none (R607) -/
  kids     : Table KeySlot := []
  /-- (R436) the media salt: the number of the draw that gave it; reset: DESIGN CHOICE 0 (log 2) -/
  salt     : Nat := 0
  /-- (R454) sessions of Port A, Port B and the sideband; reset: none -/
  sessions : Table Session := []
  /-- (R483) key-management trust store by slot: certificate words; reset: empty (R607) -/
  trustKm  : Table (List Word) := []
  /-- (R461) pool trust store by slot; reset: empty (R607) -/
  trustPool : Table (List Word) := []
  /-- (R442) segment generations; unlisted is 0 -/
  gens     : Table Nat := []
  /-- (R439) version counters by slice × 4,096 + segment: the next value; unlisted is that of `ctrBase` -/
  ctrs     : Table Nat := []
  /-- (R439) the next value of every counter not listed; reset 2^22, DESIGN CHOICE (log 5) -/
  ctrBase  : Nat := 2 ^ 22
  /-- (R440) leases in force by segment; unlisted is that of `leaseBase` -/
  leases   : Table Nat := []
  /-- (R440) the lease of every segment not listed; reset 2^23, DESIGN CHOICE (log 5) -/
  leaseBase : Nat := 2 ^ 23
  /-- (R440) leases being programmed, by segment -/
  leasing  : Table Nat := []
  /-- (R441) the lease log: next word, pass, records since the last carried one, next carried segment -/
  leaseLog : Nat × Nat × Nat × Nat := (0, 0, 0, 0)
  /-- (R441) its words of 32 bits by number; an unlisted word has not been programmed, or reads ERR; reset: none, DESIGN CHOICE (log 5) -/
  leaseRecs : Table (BitVec 32) := []
  /-- (R445) walks running, at most 16 -/
  walks    : List Walk := []
  /-- (R445) walks queued -/
  queued   : List Walk := []
  /-- (R459) the re-key in progress -/
  rekey    : Option Rekey := none
  /-- (R466) SEC_REKEY after its end: source, target, progress, skipped; reset 0 -/
  rekeyReg : Nat × Nat × Nat × Nat := (0, 0, 0, 0)
  /-- (R464) the sanitize running: 0 none, 1 cryptographic, 2 overwrite; reset 0 (R466) -/
  sanitize : Nat := 0
  /-- (R466) LAST; reset: DESIGN CHOICE 0 (log 2) -/
  sanLast  : Nat := 0
  /-- (R466) 32 bits, COUNT; reset: DESIGN CHOICE 0 (log 2) -/
  sanCount : Nat := 0
  /-- (R466) SEC_REENC: segment most recently started and re-encryptions done; reset 0 -/
  reenc    : Nat × Nat := (0, 0)
  /-- (R466) 4 bits, alarm bits; reset 0 -/
  alarm    : Nat := 0
  /-- (R466) 32 bits, alarm COUNT; reset 0 -/
  alarmCnt : Nat := 0
  /-- (R466) SEC_MACLAST: DLA, KID, SRC, NODE; reset 0 -/
  macLast  : Nat × Nat × Nat × Nat := (0, 0, 0, 0)
  /-- (R466) SALT_GEN; reset: DESIGN CHOICE 0 (log 2) -/
  saltGen  : Nat := 0
deriving DecidableEq, Repr

/-- The thermal settings (R540, R541). -/
structure ThmCfg where
  /-- (R541) medium Warn, T1, T2, Critical; reset 85, 90, 95, 100 -/
  med   : List Nat := [85, 90, 95, 100]
  /-- (R541) LPDDR6 Warn, T1, T2, Critical; reset 85, 95, 100, 105 -/
  lpd   : List Nat := [85, 95, 100, 105]
  /-- (R541) junction T1, T2, shutdown; reset 105, 110, 115 -/
  jct   : List Nat := [105, 110, 115]
  /-- (R541) GRACE in ms; reset 20 -/
  grace : Nat := 20
  /-- (R541) LIMIT_1, LIMIT_2, LIMIT_C; reset 75, 50, 25 -/
  limit : List Nat := [75, 50, 25]
  /-- (R541) PKG_WARN; reset 85 -/
  pkg   : Nat := 85
  /-- (R541) HYST; reset 3 -/
  hyst  : Nat := 3
  /-- (R541) FALL; reset 100 -/
  fall  : Nat := 100
deriving DecidableEq, Repr

/-- The thermal model and throttling (17). -/
structure Thermal where
  /-- (R524) 85 temperatures in 1/256 °C; reset 0 (R541) -/
  temps    : List Int := List.replicate 85 0
  /-- (R541) the eight diode readings in 1/256 °C; reset 0 -/
  diodes   : List Int := List.replicate 8 0
  /-- (R541) 8 bits, DIODE_FAIL; reset 0 -/
  broken   : Nat := 0
  /-- (R529) updates in a row at which each diode has differed by more than 15 °C; reset 0 -/
  streak   : List Nat := List.replicate 8 0
  /-- (R541) 14 bits, MON_FAIL; reset 0 -/
  monFail  : Nat := 0
  /-- (R533) the level: 0 none, 1 T1, 2 T2, 3 Critical; reset 0 -/
  level    : Nat := 0
  /-- (R541) WARN; reset 0 -/
  warn     : Bool := false
  /-- (R541) PROG_HOLD; reset 0 -/
  progHold : Bool := false
  /-- (R535) ENFORCED; reset 0 -/
  enforced : Bool := false
  /-- (R522) GRACE_LEFT in ms; reset 0 -/
  grace    : Nat := 0
  /-- (R541) HOT_NODE; reset 0 -/
  hotNode  : Nat := 0
  /-- (R541) 32 bits, UPDATES; reset 0 -/
  updates  : Nat := 0
  /-- (R540) the settings in force; reset: defaults -/
  cfg      : ThmCfg := {}
  /-- (R533) for T1, T2 and Critical, the updates in a row at which every node and the junction lay HYST below the
  threshold; reset 0 -/
  cool     : List Nat := [0, 0, 0]
  /-- (R533) the updates in a row at which every node lay HYST below its Warn threshold; reset 0 -/
  coolWarn : Nat := 0
deriving DecidableEq, Repr

/-- A closed interval's record (R554, Table 18-3). -/
structure IntervalRec where
  number  : Nat
  flags   : Nat
  start   : Nat
  length  : Nat
  energy  : Nat
  cum     : Nat
  audit   : Nat
  fwCrc   : Nat
  fwVer   : Nat
  sealed  : Bool
  /-- tenants' cumulative bytes read, bytes written and allocation, where it is kept (newest 64) -/
  tenants : Option (Table (Nat × Nat × Nat))
deriving DecidableEq, Repr

/-- A feed packet (R550, Table 18-2): sequence, group, BOOT, and for each of 8 tenants bytes read, written, and
allocation. -/
structure FeedPkt where
  seq   : Nat
  group : Nat
  boot  : Nat
  rows  : List (Nat × Nat × Nat)
deriving DecidableEq, Repr

/-- What the partition last saw of a group (R553). -/
structure FeedGroup where
  boot : Nat
  psec : Nat
  rows : List (Nat × Nat × Nat)
  gap  : Bool
deriving DecidableEq, Repr

/-- The metering partition (18). -/
structure Meter where
  /-- (R547) 32 bits, partition seconds; reset 0 (R560) -/
  psec     : Nat := 0
  /-- (R546) CUM_ENERGY in mWh; reset: DESIGN CHOICE 0 (log 2) -/
  cum      : Nat := 0
  /-- (R546) the part below 1 mWh, in units of mV × mA / 4,000 s; reset: DESIGN CHOICE 0 (log 2) -/
  frac     : Nat := 0
  /-- (R546) CUM_ENERGY at the previous close; reset: DESIGN CHOICE 0 (log 2) -/
  cumPrev  : Nat := 0
  /-- (R560) POWER in mW; reset 0 -/
  power    : Nat := 0
  /-- (R545) sum of the samples of the present second, in mV × mA, and their number -/
  acc      : Nat × Nat := (0, 0)
  /-- (R547) LENGTH in minutes; reset 15 -/
  length   : Nat := 15
  /-- (R547) number of the open interval; reset: DESIGN CHOICE 0 (log 2) -/
  interval : Nat := 0
  /-- (R547) partition second at which the open interval opened; reset 0 -/
  start    : Nat := 0
  /-- (R554) flags of the open interval; reset 0 -/
  flags    : Nat := 0
  /-- (R549) closed interval records, newest first, at most 8,192 -/
  recs     : List IntervalRec := []
  /-- (R553) tenants: cumulative bytes read, written, allocation, and its fraction in 1/60 -/
  tenants  : Table (Nat × Nat × Nat × Nat) := []
  /-- (R553) the groups as last received -/
  groups   : Table FeedGroup := []
  /-- (R550) packets in the feed drawer, oldest first -/
  feed     : List FeedPkt := []
  /-- (R550) next packet sequence; reset: DESIGN CHOICE 0 (log 2) -/
  feedSeq  : Nat := 0
  /-- (R550) groups of the further set of Flush entry not yet sent; reset: none -/
  flushSet : List Nat := []
  /-- (R558) 32 bits, audit counter; reset: DESIGN CHOICE 0 (log 2) -/
  audit    : Nat := 0
  /-- (R557) sealed; reset: DESIGN CHOICE 0, an open land leaves it unsealed (R557, log 2) -/
  sealed   : Bool := false
  /-- (R556) FW_VER; reset: DESIGN CHOICE 1 (log 2) -/
  fwVer    : Nat := 1
  /-- (R557) the active image; reset: DESIGN CHOICE empty (log 2) -/
  image    : List Word := []
  /-- (R557) the image loaded in the inactive slot -/
  loaded   : Option (List Word) := none
  /-- (R548) the accumulators are saved and the partition waits for VAUX -/
  saved    : Bool := false
  /-- (R560) VIN was present at the last sample; reset: 1 -/
  vinOn    : Bool := true
deriving DecidableEq, Repr

end Sys2Proof.Machine
end

