-- ==== Sys2Proof/Machine/State.lean ====
section
/-! DEFINITION. The state of the block: every register, buffer, queue and mode the manual gives it, the queue of waiting
commands, and the model's own fields; its reset; the reasons a step can stop. -/

namespace Sys2Proof.Machine

/-- Reasons the machine stops with a fault. -/
inductive Fault where
  /-- Raised by no meaning: the manual gives every command of the table an effect. Safe. -/
  | unreachable
deriving DecidableEq, Repr

/-- Reasons a command is refused. -/
inductive Refusal where
  /-- Raised only by an arm of the dispatcher whose command has no meaning yet. Safe. -/
  | notModelled (mnemonic : String)
deriving DecidableEq, Repr

/-- What leaves the device at its lands or answers an access, in the order it leaves. -/
inductive Output where
  /-- the value of a register read (R6) -/
  | regData (snd : Sender) (v : Word)
  /-- read data of a host request -/
  | hostData (port : Port) (tag : Nat) (d : Line)
  /-- a poison response of a host read -/
  | hostPoison (port : Port) (tag : Nat)
  /-- the completion of a host write -/
  | hostCmp (port : Port) (tag : Nat)
  /-- a back-invalidate (R335) -/
  | biSnp (port : Port) (kind : BiKind) (node dla : Nat)
  /-- BIConflictAck (R426) -/
  | biConflictAck (port : Port) (tag : Nat)
  /-- the response of a Global Persistent Flush phase (R251, R427) -/
  | gpf (port : Port) (phase tag : Nat)
  /-- a message handed to the SGL block (R321, Table 12-11) -/
  | sgl (m : SglMsg)
  /-- a data flit leaving on a port: its LH (Table 12-2) and its 14 granules (R367, R383) -/
  | flit (port lh : Nat) (granules : List Word)
  /-- the identity training set that a port sends in IDENT (Table 12-9) -/
  | identity (port : Nat) (set : TrainSet)
  /-- a control flit (R373) -/
  | control (port : Nat) (c : CtlPayload)
  /-- an MSI-X vector (R429) -/
  | vector (port : Port) (n : Nat)
  /-- a CXL mailbox answer: opcode, return code name as a number, payload (R430) -/
  | cxl (port : Port) (opcode rc : Nat) (words : List Word)
  /-- an SPDM response: the acknowledgement word and payload (R454) -/
  | spdm (snd : Sender) (ack : Word) (words : List Word)
  /-- an answer of the meter's service target: status and words (R557) -/
  | service (status : Nat) (words : List Word)
  /-- the register the TAP selects for TDO: 0 bypass, 1 device ID, 2 boundary, 3 private -/
  | tap (reg value : Nat)
  /-- a medium die command: 0 read, 1 program, 2 reset, 3 suspend, 4 resume, at stack, group, partition, course, row -/
  | die (cmd stack group part course row : Nat)
  /-- the 15 references of a dense sense, sent to its die (R161 to R164) -/
  | refs (stack group : Nat) (codes : List Int)
deriving DecidableEq, Repr

/-- The state. -/
structure State where
  /-- power, modes, clocks and TAP (16, 19) -/
  pw      : Power := {}
  /-- event recorder (19) -/
  evr     : Evr := {}
  /-- parameter store (19) -/
  pst     : Pst := {}
  /-- performance counters (19) -/
  pmc     : Pmc := {}
  /-- trace buffer (19) -/
  trb     : Trb := {}
  /-- mailboxes, MP, firmware, clamps (13, 15) -/
  mb      : Boxes := {}
  /-- medium scheduler (03) -/
  sched   : Sched := {}
  /-- translation and placement (04) -/
  tr      : Trans := {}
  /-- drift (05) -/
  dr      : Drift := {}
  /-- protection and repair (06) -/
  prot    : Prot := {}
  /-- persistence (07) -/
  per     : Persist := {}
  /-- checkpoint and restart (07) -/
  ck      : Ckpt := {}
  /-- slice caches (08) -/
  cache   : Cache := {}
  /-- LPDDR6 (09) -/
  dram    : Dram := {}
  /-- coherence (10, 11) -/
  coh     : Coh := {}
  /-- Slomugon Link and pool (12) -/
  sgl     : Sgl := {}
  /-- fabric queues (12, 13) -/
  fab     : Fab := {}
  /-- Port A (13) -/
  portA   : HostPort := {}
  /-- Port B (13) -/
  portB   : HostPort := {}
  /-- CXL mailbox of Port A (13) -/
  cxlA    : CxlBox := {}
  /-- CXL mailbox of Port B (13) -/
  cxlB    : CxlBox := {}
  /-- security block (14) -/
  sec     : Sec := {}
  /-- thermal model (17) -/
  thm     : Thermal := {}
  /-- metering partition (18) -/
  mtr     : Meter := {}
  /-- the model's own: time in core cycles, advanced by a step on an empty queue (log 1) -/
  now     : Nat := 0
  /-- the model's own: the number of free values drawn so far (log 6); reset: DESIGN CHOICE 0 -/
  freeCtr : Nat := 0
  /-- the model's own: what has left the device, oldest first (log 11); reset: empty -/
  outs    : List Output := []
  /-- the model's own: the commands that wait, first in, first out; reset: empty -/
  pending : List Instr := []
deriving DecidableEq, Repr

/-- The machine on leaving Boot after VAUX was applied (R9), fresh from the factory (R607): every field at the value its
declaration gives. -/
def State.reset : State := {}

end Sys2Proof.Machine
end

