-- ==== Sys2Proof/Machine/Ops.lean ====
section
/-! DEFINITION. Shared operations: outputs, free values, ports, clamps, events, counters, modes. -/

namespace Sys2Proof

/-- The other port. -/
def Port.other : Port → Port
  | .a => .b
  | .b => .a

/-- The number of a port: 0 Port A, 1 Port B. -/
def Port.ix : Port → Nat
  | .a => 0
  | .b => 1

/-- The place of a sender in the lists of per-sender registers (R608). -/
def Sender.ix : Sender → Nat
  | .portA => 0
  | .portB => 1
  | .sideband => 2
  | .mp => 3

/-- The port a sender is, if it is one. -/
def Sender.port? : Sender → Option Port
  | .portA => some .a
  | .portB => some .b
  | _ => none

/-- The sender a port is. -/
def Port.sender : Port → Sender
  | .a => .portA
  | .b => .portB

/-- The place of a sender of messages in the list of boxes, its ID in Table 15-1. -/
def BoxId.ix : BoxId → Nat
  | .portA => 0
  | .portB => 1
  | .sideband => 2
  | .fabric => 3
  | .meter => 4

/-- The sender of register accesses that a sender of messages is, if it is one. -/
def BoxId.sender? : BoxId → Option Sender
  | .portA => some .portA
  | .portB => some .portB
  | .sideband => some .sideband
  | _ => none

/-- The sender of messages a sender of register accesses is; the MP posts no message (R608). -/
def Sender.box? : Sender → Option BoxId
  | .portA => some .portA
  | .portB => some .portB
  | .sideband => some .sideband
  | .mp => none

/-- The sender of messages with an index of Table 15-1. -/
def BoxId.ofIx : Nat → BoxId
  | 0 => .portA
  | 1 => .portB
  | 2 => .sideband
  | 3 => .fabric
  | _ => .meter

end Sys2Proof

namespace Sys2Proof.Machine

/-- Appends to what has left the device. -/
def emit (o : Output) (s : State) : State := { s with outs := s.outs ++ [o] }

/-- Draws a free value: the index at which the constants of Config stand for it (log 6). -/
def draw (s : State) : Nat × State := (s.freeCtr, { s with freeCtr := s.freeCtr + 1 })

/-- Draws n free values: the index of the first. -/
def drawN (n : Nat) (s : State) : Nat × State := (s.freeCtr, { s with freeCtr := s.freeCtr + n })

/-- Core cycles in one second at 2.4 GHz (00, Notation). -/
def second : Nat := 2400000000

/-- A host port's state. -/
def State.port (s : State) : Port → HostPort
  | .a => s.portA
  | .b => s.portB

/-- Replaces a host port's state. -/
def State.setPort (s : State) (p : Port) (h : HostPort) : State :=
  match p with
  | .a => { s with portA := h }
  | .b => { s with portB := h }

/-- A port's CXL mailbox. -/
def State.cxl (s : State) : Port → CxlBox
  | .a => s.cxlA
  | .b => s.cxlB

/-- Replaces a port's CXL mailbox. -/
def State.setCxl (s : State) (p : Port) (c : CxlBox) : State :=
  match p with
  | .a => { s with cxlA := c }
  | .b => { s with cxlB := c }

/-- Signals an MSI-X vector on both ports (R429). -/
def vectorBoth (n : Nat) (s : State) : State := emit (.vector .b n) (emit (.vector .a n) s)

/-- A request whose port has been lost carries its tag plus 2^16: it completes inside the device, and its response is
discarded (R406). -/
def orphaned (tag : Nat) : Bool := decide (65536 ≤ tag)

/-! ### Violations and clamps -/

/-- Counts a violation of a port and records the access (R420). -/
def violate (p : Port) (kind : Nat) (write : Bool) (addr : Nat) (s : State) : State :=
  let h := s.port p
  s.setPort p { h with viol := satInc 32 h.viol, vlast := (kind, write, addr) }

/-- An access to a register to which the sender has no right (R4): counted on the port that carried it. -/
def noRight (snd : Sender) (write : Bool) (off : Nat) (s : State) : State :=
  match snd.port? with
  | some p => violate p 5 write (off % 65536) s
  | none => s

/-- A sender holds a clamp (R422). -/
def holds (snd : Sender) (n : Nat) (s : State) : Bool :=
  (nthD s.mb.clamps n {}).owner == snd.ix + 1

/-- Replaces a clamp. -/
def setClamp (n : Nat) (c : Clamp) (s : State) : State :=
  { s with mb := { s.mb with clamps := setNth s.mb.clamps n c } }

/-- Discards every staged but uncommitted write of the group a clamp guards (R423, R488). -/
def discardStaged (n : Nat) (s : State) : State :=
  if n = 1 then { s with cache := { s.cache with staged := s.cache.cfg } }
  else if n = 12 then { s with portA := { s.portA with staged := [] } }
  else if n = 13 then { s with portB := { s.portB with staged := [] } }
  else s

/-- Releases a clamp; `forced` tells a release that sets BROKEN, REL clears it (R423). -/
def releaseClamp (n : Nat) (forced : Bool) (s : State) : State :=
  let c := nthD s.mb.clamps n {}
  discardStaged n (setClamp n { c with owner := 0, broken := forced } s)

/-- Releases, with BROKEN, every clamp a sender holds among those listed. -/
def releaseAllIn (snd : Sender) : List Nat → State → State
  | [], s => s
  | n :: ns, s => releaseAllIn snd ns (if holds snd n s then releaseClamp n true s else s)

/-- Releases every clamp a sender holds (R423). -/
def releaseAll (snd : Sender) (s : State) : State := releaseAllIn snd (List.range 16) s

/-! ### Spread counters -/

/-- A cell of a spread counter is valid when its two words agree (R566). -/
def cellValue? (c : BitVec 32 × BitVec 32) : Option Nat :=
  let a := c.1.toNat
  let b := c.2.toNat
  if (b / 65536) % 65536 = 65535 - a % 65536 then some (a + (b % 65536) * 4294967296) else none

/-- The largest value in the valid cells of a counter, with its cell, among the listed cells (R566). -/
def bestCell (cells : Table (BitVec 32 × BitVec 32)) (n : Nat) : List Nat → Option (Nat × Nat)
  | [] => none
  | i :: is =>
    let r := bestCell cells n is
    match (Table.get? cells (n * 64 + i)).bind cellValue? with
    | none => r
    | some v =>
      match r with
      | none => some (v, i)
      | some (w, j) => if w ≤ v then some (v, i) else some (w, j)

/-- A spread counter's value (R566). -/
def counter (n : Nat) (s : State) : Nat :=
  match bestCell s.pst.cells n (List.range 64) with
  | some (v, _) => v
  | none => 0

/-- Increments a spread counter: value + 1 into the next cell, word A and word B (R567). -/
def incCounter (n : Nat) (s : State) : State :=
  let b := bestCell s.pst.cells n (List.range 64)
  let v := (match b with | some (v, _) => v + 1 | none => 1) % 2 ^ 48
  let i := match b with | some (_, i) => (i + 1) % 64 | none => 0
  let a := BitVec.ofNat 32 v
  let w := BitVec.ofNat 32 (v / 4294967296 % 65536 + (65535 - v % 65536) * 65536)
  { s with pst := { s.pst with cells := Table.put s.pst.cells (n * 64 + i) (a, w) } }

/-! ### Events -/

/-- The base of an event's code class (Table 19-4). -/
def EvKind.cls : EvKind → Nat
  | .modeChange | .refclkLost | .crystalStopped | .supervisorFlush | .supervisorRecord | .supervisorJunction
  | .supervisorBlock | .vauxLost => 0x0000
  | .spareMargin | .readOnlyEntered | .refreshLow | .refreshUrgent | .refreshCritical | .linePoisoned | .dmaHalted
  | .courseFailed | .dieFailed | .stackFailed => 0x1000
  | .lpddrFailed | .sramRemapped => 0x2000
  | .lossInfo | .lossCritical | .replayStopped | .holdupAbsent => 0x3000
  | .nodeDead | .proxyEnded => 0x4000
  | .protocolError => 0x4F00
  | .sglLaneFault | .sglLinkDown | .sglRerouted | .ownExclusion | .duplicateNode | .absentNode => 0x5000
  | .perst | .hostLinkLost | .hostLinkNarrow | .staleSender => 0x6000
  | .ideNotRefreshed | .keyModeMismatch | .macFailure | .sglTagFailures | .ideIntegrity | .fwCheck => 0x7000
  | .warnReached | .throttleRise | .throttleCritical | .throttleFall | .diodeBroken | .monitorFailed => 0x8000
  | .meterNotice | .meterFeedGap | .mpRestarted | .fwFellBack => 0x9000

/-- An event's severity (R610, Table 19-8); an event the table does not name is Informational. -/
def EvKind.sev : EvKind → Nat
  | .modeChange | .lossInfo | .staleSender | .perst | .meterNotice | .throttleFall | .refreshLow | .supervisorFlush
  | .vauxLost | .proxyEnded => 0
  | .hostLinkLost | .hostLinkNarrow | .ideNotRefreshed | .meterFeedGap | .warnReached | .throttleRise | .monitorFailed
  | .spareMargin | .refreshUrgent | .dmaHalted | .courseFailed | .sramRemapped | .sglLaneFault | .sglLinkDown
  | .sglRerouted | .mpRestarted | .fwFellBack | .holdupAbsent | .keyModeMismatch | .absentNode | .protocolError
  | .refclkLost | .crystalStopped | .supervisorRecord => 1
  | .lossCritical | .throttleCritical | .diodeBroken | .readOnlyEntered | .refreshCritical | .linePoisoned
  | .dieFailed | .stackFailed | .lpddrFailed | .macFailure | .sglTagFailures | .ideIntegrity | .fwCheck | .nodeDead
  | .ownExclusion | .duplicateNode | .supervisorJunction => 2
  | .replayStopped | .supervisorBlock => 3

/-- RTC seconds (R570). -/
def rtc (s : State) : Nat := (s.evr.rtcBase + (s.now - s.evr.rtcAt) / second) % 2 ^ 32

/-- TKIND (R570): 0 from the end of Replay until the start of the power-down sequence, but for an MP restart. -/
def tkind (s : State) : Bool :=
  !((s.pw.phase == .service || s.pw.phase == .flush) && s.mb.mpReady)

/-- The newest record held. -/
def newest (s : State) : Option EvRec :=
  Table.get? s.evr.recs ((s.evr.next + (2 ^ 32 - 1)) % 4096)

/-- New records written in the last second (R572). -/
def recentCount (s : State) : Nat := (s.evr.recent.filter (fun t => decide (s.now - t < second))).length

/-- Writes the REPEAT of the newest record into the parameter store (R571). -/
def storeRepeat (s : State) : State :=
  match newest s with
  | some r =>
    { s with evr := { s.evr with recs := Table.put s.evr.recs (r.seq % 4096) { r with repStored := r.rep } } }
  | none => s

/-- Posts a record to the CXL event log of its severity on one port (R573). -/
def postLog (sev seq : Nat) (c : CxlBox) : CxlBox :=
  { c with logs := setNth c.logs sev (nthD c.logs sev [] ++ [seq]) }

/-- Writes an event as a new record (R569) and signals vector 2 (R572). -/
def writeRecord (e : Event) (s : State) : State :=
  let s := storeRepeat s
  let k := tkind s
  let seq := s.evr.next
  let r : EvRec :=
    { seq := seq, ev := e
      time := if k then rtc s else counter 1 s % 2 ^ 32
      cycle := if k then 0 else counter 0 s % 65536
      tkind := k, rtcu := k && !s.evr.rtcSet, rep := 0, repStored := 0 }
  vectorBoth 2 { s with
    evr := { s.evr with recs := Table.put s.evr.recs (seq % 4096) r, next := (seq + 1) % 2 ^ 32
                        recent := (s.now :: s.evr.recent).take 12 }
    cxlA := postLog e.kind.sev seq s.cxlA
    cxlB := postLog e.kind.sev seq s.cxlB }

/-- Counts a dropped event (R572). -/
def dropEvent (s : State) : State := { s with evr := { s.evr with dropped := satInc 32 s.evr.dropped } }

/-- An event beyond the limit or during a freeze (R572, R575). -/
def deferEvent (e : Event) (s : State) : State :=
  if e.kind.sev = 0 then dropEvent s
  else if s.evr.queue.length < 64 then { s with evr := { s.evr with queue := s.evr.queue ++ [e] } }
  else dropEvent s

/-- The event merges into the newest record (R571): equal in code, source and parameters, of the same TKIND period, and
REPEAT below its limit. -/
def mergesInto (e : Event) (s : State) (r : EvRec) : Bool :=
  r.ev == e && r.tkind == tkind s && r.rep < 65535 && (r.tkind || r.cycle == counter 0 s % 65536)

/-- Merges an event into the newest record (R571) and signals vector 2 (R572). -/
def mergeRecord (r : EvRec) (s : State) : State :=
  vectorBoth 2 { s with
    evr := { s.evr with recs := Table.put s.evr.recs (r.seq % 4096) { r with rep := r.rep + 1 } } }

/-- A new record where the limit of R572 allows it; events of higher severity keep their order behind the queue. -/
def writeOrDefer (e : Event) (s : State) : State :=
  if recentCount s < 12 && (s.evr.queue.isEmpty || e.kind.sev == 0) then writeRecord e s else deferEvent e s

/-- Records an event: merged, written, queued or dropped (R569 to R575). -/
def recordEvent (e : Event) (s : State) : State :=
  if s.evr.frozen then deferEvent e s
  else
    match newest s with
    | some r => if mergesInto e s r then mergeRecord r s else writeOrDefer e s
    | none => writeOrDefer e s

/-- Records an event of a kind, a SOURCE and what it is about. -/
def event (kind : EvKind) (source : Nat) (args : List Nat) (s : State) : State := recordEvent ⟨kind, source, args⟩ s

/-! ### Performance counters -/

/-- One counter of an event (R577 to R579); answers the counter and whether it interrupts. -/
def PmcCounter.bump (c : PmcCounter) (ev qual n : Nat) : PmcCounter × Bool :=
  if c.enable && c.event == ev && (c.qual == 0 || c.qual == qual) then
    let v := c.count + n
    if v < 2 ^ 48 then ({ c with count := v }, false)
    else ({ c with count := v % 2 ^ 48, ovf := true }, c.irq)
  else (c, false)

/-- The interrupt of an MP-class overflow: PMC_MPPC holds the program counter of Belvy at which it was taken, which is free
(R579; log 6). -/
def mpInterrupt (s : State) : State :=
  let d := draw s
  { d.2 with pmc := { d.2.pmc with mppc := Config.freeNat d.1 % 2 ^ 32 } }

/-- Counts n occurrences of an event in a counter set under a qualifier (R577 to R579). -/
def count (set ev qual n : Nat) (s : State) : State :=
  if s.pmc.freeze then s
  else
    match Table.get? s.pmc.sets set with
    | none => s
    | some p =>
      let r := p.counters.map (fun c => c.bump ev qual n)
      let s := { s with pmc := { s.pmc with sets := Table.put s.pmc.sets set { p with counters := r.map (·.1) } } }
      if r.any (·.2) then vectorBoth 6 (if 0x200 ≤ ev then mpInterrupt s else s) else s

/-! ### Modes -/

/-- One of the four conditions of R516 besides Flush applies: Read-Only, Write-Hold, Degraded, Throttled. -/
def conditionApplies (s : State) : Bool :=
  s.tr.readOnly || s.prot.degraded || s.thm.progHold || decide (0 < s.thm.level)

/-- The mode in force (R516). -/
def modeOf (s : State) : Nat :=
  match s.pw.phase with
  | .off => 0
  | .standby => 1
  | .powerDown => 1
  | .boot => 2
  | .replay => 3
  | .flush => 11
  | .service =>
    if s.tr.readOnly then 10
    else if s.prot.degraded then 9
    else if s.thm.progHold then 8
    else if 0 < s.thm.level then 7
    else match s.pw.pstate with
      | .active => 4
      | .doze => 5
      | .deepIdle => 6

/-- Leaves Deep Idle: the power state becomes Active, the LPDDR6 leaves self-refresh (R519, Table 16-9). -/
def wake (s : State) : State :=
  if s.pw.pstate == .deepIdle then
    { s with pw := { s.pw with pstate := .active }, dram := { s.dram with selfRef := false } }
  else s

/-- Shows the mode in force; a change records an event and is counted (R516, R522). A condition ends Deep Idle
(Table 16-9). -/
def updateMode (s : State) : State :=
  let s := if conditionApplies s || s.pw.phase == .flush then wake s else s
  let m := modeOf s
  if m = s.pw.mode then s
  else
    let old := s.pw.mode
    event .modeChange 5 [old, m]
      { s with pw := { s.pw with mode := m, changes := (s.pw.changes + 1) % 2 ^ 32 } }

/-- Memory requests are served: from the end of Replay until Flush, and not during a sanitize (R407, R43, R464). -/
def serving (s : State) : Bool := s.pw.phase == .service && s.sec.sanitize == 0

/-- Programs and resets may start (R76). -/
def progAllowed (s : State) : Bool := !s.thm.progHold

/-! ### Security alarm -/

/-- Raises the security alarm: sets its bit, counts it and signals vector 4 (R452, R453). -/
def alarm (bit : Nat) (s : State) : State :=
  vectorBoth 4 { s with sec := { s.sec with
    alarm := if s.sec.alarm / 2 ^ bit % 2 = 1 then s.sec.alarm else s.sec.alarm + 2 ^ bit
    alarmCnt := satInc 32 s.sec.alarmCnt } }

end Sys2Proof.Machine
end

