-- ==== Sys2Proof/Machine/Observe.lean ====
section
/-! DEFINITION. The event recorder, the performance counters, the trace buffer and the parameter store: the commands of
19, and the words their registers show. -/

namespace Sys2Proof.Machine

/-! ### Event records -/

/-- The event is about one line: its first argument is the DLA (R569). -/
def EvKind.isLine (k : EvKind) : Bool := k == .linePoisoned || k == .macFailure || k == .keyModeMismatch

/-- CODE of an event: its class, and a low part the manual does not give (Table 19-4; log 7). -/
def evCode (k : EvKind) : Nat :=
  let lo := (Config.eventCodeLow k.ctorIdx).toNat
  if k.cls = 0x4F00 then k.cls + lo % 256
  else if k.cls = 0x4000 then k.cls + lo % 0xF00
  else k.cls + lo

/-- Parameters of an event that the manual fixes: for a line, P0 is DLA [31:0] and P1 [3:0] is DLA [35:32] (R569); for a
change of MODE, P0 is the old mode and P1 the new one (R516); for a Warn crossing, P0 is the node (R533). The rest is the
chip's (log 7). -/
def evParam (e : Event) (n : Nat) : Nat :=
  let v := (Config.eventParam e.kind.ctorIdx e.args n).toNat
  let dla := nthD e.args 0 0
  if e.kind.isLine then
    if n = 0 then dla % 2 ^ 32
    else if n = 1 then dla / 2 ^ 32 % 16 + v / 16 * 16
    else v
  else if e.kind == .modeChange && decide (n < 2) then nthD e.args n 0
  else if e.kind == .warnReached && n == 0 then nthD e.args 0 0
  else v

/-- The first 28 bytes of a record as a number (Table 19-3). -/
def recBody (r : EvRec) (rep : Nat) : Nat :=
  field 0 32 r.seq + field 32 32 r.time + field 64 16 r.cycle + flag 80 r.tkind + field 81 2 r.ev.kind.sev
    + field 83 4 r.ev.source + flag 87 r.rtcu + field 96 16 (evCode r.ev.kind) + field 112 16 rep
    + field 128 32 (evParam r.ev 0) + field 160 32 (evParam r.ev 1) + field 192 32 (evParam r.ev 2)

/-- The four words of a record, its CRC last (Table 19-3). -/
def recWords (r : EvRec) (rep : Nat) : List Word :=
  let b := recBody r rep
  let v := b + (crc32 (bytesOf b 28)).toNat * 2 ^ 224
  [BitVec.ofNat 64 v, BitVec.ofNat 64 (v / 2 ^ 64), BitVec.ofNat 64 (v / 2 ^ 128), BitVec.ofNat 64 (v / 2 ^ 192)]

/-- A record found under a sequence number. -/
def recAt (s : State) (seq : Nat) : Option EvRec :=
  match Table.get? s.evr.recs (seq % 4096) with
  | some r => if r.seq = seq then some r else none
  | none => none

/-- REPEAT as a snapshot shows it: for the newest record, as the always-on domain holds it (R571). -/
def shownRepeat (s : State) (r : EvRec) : Nat :=
  if (r.seq + 1) % 2 ^ 32 = s.evr.next then r.rep else r.repStored

/-- HEAD: SEQ of the newest record; with none written, the number before the first (DESIGN CHOICE, log 2). -/
def evrHead (s : State) : Nat := (s.evr.next + 2 ^ 32 - 1) % 2 ^ 32

/-- TAIL: SEQ of the oldest record held. -/
def evrTail (s : State) : Nat :=
  if s.evr.recs.length < 4096 then (s.evr.next + 2 ^ 32 - s.evr.recs.length) % 2 ^ 32
  else (s.evr.next + 2 ^ 32 - 4096) % 2 ^ 32

/-- Replaces a sender's recorder cursor. -/
def setCursor (snd : Sender) (c : Cursor) (s : State) : State :=
  { s with evr := { s.evr with cursors := setNth s.evr.cursors snd.ix c } }

/-- The snapshot of the record a cursor names (R574). -/
def snapshotOf (s : State) (c : Cursor) : Cursor :=
  match recAt s c.pos with
  | some r => { c with rstat := 0, data := recWords r (shownRepeat s r) }
  | none => { c with rstat := 1, data := [0, 0, 0, 0] }

/-- A read of EVR_DATA_0 takes a snapshot and answers its first word (R574). -/
def execEvrSnapshot (snd : Sender) (s : State) : Host.Outcome State Fault Refusal :=
  let c := snapshotOf s (nthD s.evr.cursors snd.ix {})
  .next (emit (.regData snd (nthD c.data 0 0)) (setCursor snd c s))

/-- A read of EVR_DATA_3 answers the snapshot's last word and advances the cursor (R574). -/
def execEvrAdvance (snd : Sender) (s : State) : Host.Outcome State Fault Refusal :=
  let c := nthD s.evr.cursors snd.ix {}
  .next (emit (.regData snd (nthD c.data 3 0)) (setCursor snd { c with pos := (c.pos + 1) % 2 ^ 32 } s))

/-- One waiting event is written, as a merge or a new record, when the limit allows (R572). -/
def drainOne (s : State) : State :=
  match s.evr.queue with
  | [] => s
  | e :: es =>
    if s.evr.frozen then s
    else
      match newest s with
      | some r =>
        if mergesInto e s r then mergeRecord r { s with evr := { s.evr with queue := es } }
        else if recentCount s < 12 then writeRecord e { s with evr := { s.evr with queue := es } }
        else s
      | none =>
        if recentCount s < 12 then writeRecord e { s with evr := { s.evr with queue := es } } else s

/-- Drains at most n waiting events. -/
def drainUpTo : Nat → State → State
  | 0, s => s
  | n + 1, s => drainUpTo n (drainOne s)

/-- Queued events are written in order as the limit of 12 new records in a second allows (R572). -/
def execEventQueueDrain (s : State) : Host.Outcome State Fault Refusal := .next (drainUpTo 64 s)

/-- A freeze ends 60 s after it was made; that of PREPARE_RETURN does not (R575). -/
def execFreezeExpire (s : State) : Host.Outcome State Fault Refusal :=
  .next (if s.evr.frozen && !s.evr.frozenReturn then { s with evr := { s.evr with frozen := false } } else s)

/-- Sixty seconds of operating time, in a mode of code 2 to 11 outside the power-down sequence, increment OP_MINUTES
(R611). -/
def execOpMinuteTick (s : State) : Host.Outcome State Fault Refusal :=
  .next (if 2 ≤ modeOf s then incCounter 1 s else s)

/-! ### Performance counters -/

/-- A write of FREEZE stops or restarts every counter of all sets, and needs clamp 4 (R580). -/
def execPmcFreeze (snd : Sender) (on : Bool) (s : State) : Host.Outcome State Fault Refusal :=
  .next (if holds snd 4 s then { s with pmc := { s.pmc with freeze := on } } else noRight snd true 0xA008 s)

/-- The set of a sender's PMC_SEL (R581): none for other values. -/
def selectedSet (snd : Sender) (s : State) : Option PmcSet :=
  let i := nthD s.pmc.sel snd.ix 0
  if i ≤ 16 then some (Table.getD s.pmc.sets i {}) else none

/-- PMC_OVF as a sender reads it (R581). -/
def pmcOvf (snd : Sender) (s : State) : Nat :=
  let own := match selectedSet snd s with
    | some p => (List.range 8).foldl (fun a i => a + flag i (nthD p.counters i {}).ovf) 0
    | none => 0
  own + (List.range 17).foldl
    (fun a i => a + flag (8 + i) ((Table.getD s.pmc.sets i {}).counters.any (·.ovf))) 0

/-- PMC_CNT_i as a sender reads it, with the state after the read: the counts of MP instructions and MP cache misses are
of the processor's firmware and free (R581; log 6). -/
def pmcCnt (snd : Sender) (i : Nat) (s : State) : Nat × State :=
  match selectedSet snd s with
  | none => (0, s)
  | some p =>
    let c := nthD p.counters i {}
    let view := fun v => field 0 48 v + field 48 4 c.qual + field 52 12 (if c.enable then c.event else 0)
    if c.enable && (c.event == 0x200 || c.event == 0x202) then
      let d := draw s
      (view (Config.freeNat d.1), d.2)
    else (view c.count, s)

/-! ### Trace buffer -/

/-- The stage fields: n parts that sum to the residency (R583). -/
def stageSplit (k : Nat) : Nat → Nat → List Nat
  | 0, r => [r]
  | n + 1, r => Config.freeNat k % (r + 1) :: stageSplit (k + 1) n (r - Config.freeNat k % (r + 1))

/-- A stage field saturates at 0xFFFF (R583). -/
def sat16 (v : Nat) : Nat := if v < 65536 then v else 65535

/-- The four words of a trace record (Table 19-6). -/
def trbWords (r : TrbRec) : List Word :=
  let st := stageSplit (r.stages + 1) 6 (Config.freeNat r.stages)
  let g := fun i => sat16 (nthD st i 0)
  [ BitVec.ofNat 64 (field 0 48 r.tIn + field 48 4 r.kind + field 52 1 r.port.ix + field 53 3 r.cls + flag 56 r.flash
      + flag 57 r.spec + flag 58 r.kill + flag 59 r.thr),
    BitVec.ofNat 64 (field 0 46 r.hpaLine + field 46 12 r.kid + field 58 6 r.tenant),
    BitVec.ofNat 64 (field 0 16 (g 0) + field 16 16 (g 1) + field 32 16 (g 2) + field 48 16 (g 3)),
    BitVec.ofNat 64 (field 0 16 (g 4) + field 16 16 (g 5) + field 32 16 (g 6) + field 48 10 r.node) ]

/-- The trace records requests of a port (R582). -/
def tracePort (p : Port) (s : State) : Bool := s.trb.mode != 0 && decide (s.trb.ports / 2 ^ p.ix % 2 = 1)

/-- A request reaches the window lookup: the Nth is chosen (R583). -/
def traceSeen (p : Port) (tag : Nat) (s : State) : State :=
  if tracePort p s then
    let n := s.trb.seen + 1
    { s with trb := { s.trb with
        seen := n
        marks := if n % s.trb.n = 0 && s.trb.mode % 2 == 1 then (p, tag) :: s.trb.marks else s.trb.marks } }
  else s

/-- A request ends: it is recorded where it was chosen, or where its residency, which the manual bounds and does not
give, reaches the threshold (R583; log 6). -/
def traceDone (p : Port) (tag kind cls : Nat) (flash spec kill : Bool) (hpa kid tenant node : Nat) (s : State) : State :=
  if !tracePort p s then s
  else
    let d := drawN 8 s
    let k := d.1
    let s := d.2
    let chosen := s.trb.marks.contains (p, tag)
    let thr := decide (2 ≤ s.trb.mode) && decide (s.trb.thresh ≤ Config.freeNat k)
    let s := { s with trb := { s.trb with marks := s.trb.marks.erase (p, tag) } }
    if !(chosen || thr) || (s.trb.stop && decide (4096 ≤ s.trb.count)) then s
    else
      let r : TrbRec :=
        { tIn := (s.pmc.cyc - (Table.getD s.pmc.sets 16 {}).cycles) % 2 ^ 48
          kind := kind, port := p, cls := cls, flash := flash, spec := spec, kill := kill, thr := thr
          hpaLine := hpa / 64 % 2 ^ 46, kid := kid, tenant := tenant, stages := k, node := node }
      let s := { s with trb := { s.trb with
        recs := Table.put s.trb.recs (s.trb.count % 4096) r, count := (s.trb.count + 1) % 2 ^ 32 } }
      if thr && s.trb.irq then emit (.vector p 7) s else s

/-- The trace record a cursor names, where the sender may read it: a port reads its own requests only (R584). -/
def trbAt (s : State) (snd : Sender) (n : Nat) : Option TrbRec :=
  if n < s.trb.count && s.trb.count ≤ n + 4096 then
    match Table.get? s.trb.recs (n % 4096), snd.port? with
    | some r, some p => if r.port = p then some r else none
    | r, _ => r
  else none

/-- Replaces a sender's trace cursor. -/
def setTrbCursor (snd : Sender) (c : Cursor) (s : State) : State :=
  { s with trb := { s.trb with cursors := setNth s.trb.cursors snd.ix c } }

/-- The snapshot of the trace record a cursor names (R584). -/
def trbSnapshotOf (s : State) (snd : Sender) (c : Cursor) : Cursor :=
  match trbAt s snd c.pos with
  | some r => { c with rstat := 0, data := trbWords r }
  | none => { c with rstat := 1, data := [0, 0, 0, 0] }

/-- A read of TRB_DATA_0 takes a snapshot and answers its first word (R584). -/
def execTrbSnapshot (snd : Sender) (s : State) : Host.Outcome State Fault Refusal :=
  let c := trbSnapshotOf s snd (nthD s.trb.cursors snd.ix {})
  .next (emit (.regData snd (nthD c.data 0 0)) (setTrbCursor snd c s))

/-- A read of TRB_DATA_3 answers the snapshot's last word and advances the cursor (R584). -/
def execTrbAdvance (snd : Sender) (s : State) : Host.Outcome State Fault Refusal :=
  let c := nthD s.trb.cursors snd.ix {}
  .next (emit (.regData snd (nthD c.data 3 0)) (setTrbCursor snd { c with pos := (c.pos + 1) % 2 ^ 32 } s))

/-! ### Parameter store -/

/-- A sender's part of the PST block. -/
def pstPort (snd : Sender) (s : State) : PstPort := nthD s.pst.ports snd.ix {}

/-- Replaces a sender's part of the PST block. -/
def setPstPort (snd : Sender) (p : PstPort) (s : State) : State :=
  { s with pst := { s.pst with ports := setNth s.pst.ports snd.ix p } }

/-- A user page, which hosts and the sideband reach (R564). -/
def userPage (page : Nat) : Bool := decide (4032 ≤ page) && decide (page < 4096)

/-- The first n words of a staging buffer. -/
def stagedWords (p : PstPort) (n : Nat) : List (BitVec 32) := (List.range n).map (fun i => Table.getD p.stage i 0)

/-- A PROGRAM write starts a page write, waits for the bank, or sets OVERRUN (R565); a page outside the user pages is a
violation (R564). The words and place are those at the write (DEDUCED, log 15). -/
def execPstProgram (snd : Sender) (count : Nat) (s : State) : Host.Outcome State Fault Refusal :=
  let p := pstPort snd s
  .next (
    if p.job.isSome then setPstPort snd { p with overrun := true } s
    else if !userPage p.page then noRight snd true 0xD020 s
    else
      let job : PstJob := { page := p.page, word := p.word, vals := stagedWords p (count % 64 + 1) }
      let bank := p.page / 1024
      if s.pst.busy.contains bank then setPstPort snd { p with job := some (job, false) } s
      else
        let s := setPstPort snd { p with job := some (job, true) } s
        { s with pst := { s.pst with busy := bank :: s.pst.busy } })

/-- Programs values from a word on, wrapping within the page (R562). -/
def pstStore (page : Nat) : Nat → List (BitVec 32) → Table PstWord → Table PstWord
  | _, [], t => t
  | w, v :: vs, t => pstStore page (w + 1) vs (Table.putD t (page * 64 + w % 64) { val := v } {})

/-- Ends the page write in progress in a bank. -/
def pstFinish (bank : Nat) (s : State) : State :=
  s.pst.ports.zipIdx.foldl (fun s (x : PstPort × Nat) =>
    match x.1.job with
    | some (j, true) =>
      if j.page / 1024 = bank then
        { s with pst := { s.pst with
            words := pstStore j.page j.word j.vals s.pst.words
            ports := setNth s.pst.ports x.2 { x.1 with job := none } } }
      else s
    | _ => s) s

/-- The first waiting PROGRAM of a bank starts (R565); of several, the first sender's (DESIGN CHOICE, log 15). -/
def pstStartNext (bank : Nat) (s : State) : State :=
  match s.pst.ports.findIdx? (fun p => match p.job with
      | some (j, false) => decide (j.page / 1024 = bank)
      | _ => false) with
  | none => s
  | some i =>
    let p := nthD s.pst.ports i {}
    match p.job with
    | some (j, _) => { s with pst := { s.pst with
        ports := setNth s.pst.ports i { p with job := some (j, true) }, busy := bank :: s.pst.busy } }
    | none => s

/-- A page write programs its last word: the bank is free, and a waiting PROGRAM starts (R562, R565). -/
def execPstWriteDone (bank : Nat) (s : State) : Host.Outcome State Fault Refusal :=
  .next (if s.pst.busy.contains bank then
    let s := pstFinish bank s
    pstStartNext bank { s with pst := { s.pst with busy := s.pst.busy.erase bank } }
  else s)

/-- PST_RDATA for a page and word: the word and its status (R562, R563, R568). -/
def pstRdata (s : State) (page word : Nat) (corrected : Bool) : Nat :=
  if s.pst.busy.contains (page / 1024) then field 32 2 1
  else
    let w := Table.getD s.pst.words (page * 64 + word) {}
    if w.err then field 32 2 2 else field 0 32 w.val.toNat + field 32 2 (if corrected then 3 else 0)

/-- A read of PST_RDATA answers the word and its status and advances WORD (R562, R568). -/
def execPstRead (snd : Sender) (corrected : Bool) (s : State) : Host.Outcome State Fault Refusal :=
  let p := pstPort snd s
  .next (
    if userPage p.page then
      emit (.regData snd (BitVec.ofNat 64 (pstRdata s p.page p.word corrected)))
        (setPstPort snd { p with word := (p.word + 1) % 64 } s)
    else emit (.regData snd 0) (noRight snd false 0xD010 s))

/-- A write of PST_WDATA stages a word and advances BUF (R568). -/
def execPstWdataWrite (snd : Sender) (word : BitVec 32) (s : State) : Host.Outcome State Fault Refusal :=
  let p := pstPort snd s
  .next (setPstPort snd { p with stage := Table.put p.stage (p.buf % 64) word, buf := (p.buf + 1) % 64 } s)

/-- Power fails during a page write: the words before the interrupted one are new, those after it old, and it holds
either value or fails its check (R563). How far the write came and which of the three holds are free (log 15). -/
def pstCutJob (j : PstJob) (s : State) : State :=
  let d := drawN 2 s
  let n := Config.freeNat d.1 % j.vals.length
  let pick := Config.freeNat (d.1 + 1) % 3
  let s := d.2
  let w := pstStore j.page j.word (j.vals.take n) s.pst.words
  let key := j.page * 64 + (j.word + n) % 64
  let w :=
    if pick = 0 then w
    else if pick = 1 then Table.putD w key { val := nthD j.vals n 0 } {}
    else Table.put w key { val := 0, err := true }
  { s with pst := { s.pst with words := w } }

/-- Power fails: each page write in progress is cut, and what waits is lost (R563). -/
def pstCut (s : State) : State :=
  let s := s.pst.ports.foldl (fun s p => match p.job with
    | some (j, true) => pstCutJob j s
    | _ => s) s
  { s with pst := { s.pst with busy := [], ports := s.pst.ports.map (fun p => { p with job := none }) } }

end Sys2Proof.Machine
end

