-- ==== Sys2Proof/Machine/Aes.lean ====
section
/-! DEFINITION. AES-256 and the modes that R435 and R437 name, on byte strings held as numbers: byte i is bits
[8i + 7 : 8i]. The manual names the standards (FIPS 197, IEEE 1619, CMAC) without repeating them (PRESUMED, log 16). -/

namespace Sys2Proof.Machine

/-- The S-box, byte i at bits [8i + 7 : 8i] (PRESUMED, FIPS 197; log 16). -/
def sboxTable : Nat :=
  0xC072A49CAFA2D4ADF04759FA7DC982CA76ABD7FE2B670130C56F6BF27B777C63
    + 0x75B227EBE28012079A059618C323C7041531D871F1E5A534CCF73F362693FDB7 * 2 ^ 256
    + 0xCF584C4A39BECB6A5BB1FC20ED00D153842FE329B3D63B52A05A6E1B1A2C8309 * 2 ^ 512
    + 0xD2F3FF1021DAB6BCF5389D928F40A351A89F3C507F02F94585334D43FBAAEFD0 * 2 ^ 768
    + 0xDB0B5EDE14B8EE4688902A22DC4F816073195D643D7EA7C41744975FEC130CCD * 2 ^ 1024
    + 0x08AE7A65EAF4566CA94ED58D6D37C8E779E4959162ACD3C25C2406490A3A32E0 * 2 ^ 1280
    + 0x9E1DC186B95735610EF6034866B53E708A8BBD4B1F74DDE8C6B4A61C2E2578BA * 2 ^ 1536
    + 0x16BB54B00F2D99416842E6BF0D89A18CDF2855CEE9871E9B948ED9691198F8E1 * 2 ^ 1792

/-- The inverse S-box (PRESUMED, FIPS 197; log 16). -/
def invSboxTable : Nat :=
  0xCBE9DEC444438E3487FF2F9B8239E37CFBD7F3819EA340BF38A53630D56A0952
    + 0x25D18B6D49A25B76B224D92866A12E084EC3FA420B954CEE3D23C2A632947B54 * 2 ^ 256
    + 0x849D8DA75746155EDAB9EDFD5048706C92B6655DCC5CA4D41698688664F6F872 * 2 ^ 512
    + 0x6B8A130103BDAFC1020F3FCA8F1E2CD00645B3B80558E4F70AD3BC8C00ABD890 * 2 ^ 768
    + 0x6EDF751CE837F9E28535ADE72274AC9673E6B4F0CECFF297EADC674F4111913A * 2 ^ 1024
    + 0xF45ACD78FEC0DB9A2079D2C64B3E56FC1BBE18AA0E62B76F89C5291D711AF147 * 2 ^ 1280
    + 0xEF9CC9939F7AE52D0D4AB519A97F51605FEC8027591012B131C7078833A8DD1F * 2 ^ 1536
    + 0x7D0C2155631469E126D677BA7E042B17619953833CBBEBC8B0F52AAE4D3BE0A0 * 2 ^ 1792

/-- S-box of a byte. -/
def subByte (b : Nat) : Nat := sboxTable / 256 ^ b % 256

/-- Inverse S-box of a byte. -/
def invSubByte (b : Nat) : Nat := invSboxTable / 256 ^ b % 256

/-- Doubling in GF(2^8). -/
def xtime (b : Nat) : Nat := if b < 128 then 2 * b else (2 * b % 256) ^^^ 0x1B

/-- A column after MixColumns. -/
def mixCol (a b c d : Nat) : List Nat :=
  [xtime a ^^^ xtime b ^^^ b ^^^ c ^^^ d, a ^^^ xtime b ^^^ xtime c ^^^ c ^^^ d,
   a ^^^ b ^^^ xtime c ^^^ xtime d ^^^ d, xtime a ^^^ a ^^^ b ^^^ c ^^^ xtime d]

/-- A column after InvMixColumns. -/
def invMixCol (a b c d : Nat) : List Nat :=
  let u := xtime (xtime (a ^^^ c))
  let v := xtime (xtime (b ^^^ d))
  mixCol (a ^^^ u) (b ^^^ v) (c ^^^ u) (d ^^^ v)

/-- MixColumns over the 16 bytes. -/
def mixColumns : List Nat → List Nat
  | a :: b :: c :: d :: t => mixCol a b c d ++ mixColumns t
  | _ => []

/-- InvMixColumns over the 16 bytes. -/
def invMixColumns : List Nat → List Nat
  | a :: b :: c :: d :: t => invMixCol a b c d ++ invMixColumns t
  | _ => []

/-- The bytes picked at some places. -/
def pick (l : List Nat) (is : List Nat) : List Nat := is.map (fun i => nthD l i 0)

/-- ShiftRows. -/
def shiftRows (l : List Nat) : List Nat := pick l [0, 5, 10, 15, 4, 9, 14, 3, 8, 13, 2, 7, 12, 1, 6, 11]

/-- InvShiftRows. -/
def invShiftRows (l : List Nat) : List Nat := pick l [0, 13, 10, 7, 4, 1, 14, 11, 8, 5, 2, 15, 12, 9, 6, 3]

/-- Byte-wise XOR. -/
def xorBytes : List Nat → List Nat → List Nat
  | a :: as, b :: bs => (a ^^^ b) :: xorBytes as bs
  | _, _ => []

/-- The n bytes of a number. -/
def toBytes (v : Nat) : Nat → List Nat
  | 0 => []
  | n + 1 => v % 256 :: toBytes (v / 256) n

/-- The number of a byte string. -/
def ofBytes : List Nat → Nat
  | [] => 0
  | b :: bs => b + 256 * ofBytes bs

/-- The key schedule's words, newest first: n more words from word i on. -/
def expandKey : Nat → Nat → Nat → List (List Nat) → List (List Nat)
  | 0, _, _, ws => ws
  | n + 1, i, rcon, ws =>
    let w := nthD ws 0 []
    let t :=
      if i % 8 = 0 then xorBytes (pick w [1, 2, 3, 0] |>.map subByte) [rcon, 0, 0, 0]
      else if i % 8 = 4 then w.map subByte
      else w
    expandKey n (i + 1) (if i % 8 = 0 then xtime rcon else rcon) (xorBytes (nthD ws 7 []) t :: ws)

/-- Four bytes at a time. -/
def fours : List Nat → List (List Nat)
  | a :: b :: c :: d :: t => [a, b, c, d] :: fours t
  | _ => []

/-- The 15 round keys of an AES-256 key. -/
def roundKeys (key : Nat) : List (List Nat) :=
  let ws := (expandKey 52 8 1 (fours (toBytes key 32)).reverse).reverse
  (List.range 15).map (fun r =>
    nthD ws (4 * r) [] ++ nthD ws (4 * r + 1) [] ++ nthD ws (4 * r + 2) [] ++ nthD ws (4 * r + 3) [])

/-- The rounds after the first key addition. -/
def aesRounds : List (List Nat) → List Nat → List Nat
  | [], st => st
  | [k], st => xorBytes (shiftRows (st.map subByte)) k
  | k :: ks, st => aesRounds ks (xorBytes (mixColumns (shiftRows (st.map subByte))) k)

/-- The rounds of the inverse cipher, the round keys in reverse order. -/
def aesInvRounds : List (List Nat) → List Nat → List Nat
  | [], st => st
  | [k], st => xorBytes ((invShiftRows st).map invSubByte) k
  | k :: ks, st => aesInvRounds ks (invMixColumns (xorBytes ((invShiftRows st).map invSubByte) k))

/-- AES-256 encryption of a block under round keys. -/
def aesEnc (rks : List (List Nat)) (blk : Nat) : Nat :=
  ofBytes (aesRounds rks.tail (xorBytes (toBytes blk 16) (rks.headD [])))

/-- AES-256 decryption of a block under round keys. -/
def aesDec (rks : List (List Nat)) (blk : Nat) : Nat :=
  ofBytes (aesInvRounds rks.reverse.tail (xorBytes (toBytes blk 16) (rks.reverse.headD [])))

/-- Multiplication of a tweak by the primitive element (IEEE 1619). -/
def xtsDouble (t : Nat) : Nat := if t < 2 ^ 127 then 2 * t else (2 * t % 2 ^ 128) ^^^ 0x87

/-- XTS over n blocks from the lowest on: `dec` tells decryption. -/
def xtsBlocks (rks : List (List Nat)) (dec : Bool) : Nat → Nat → Nat → Nat
  | 0, _, _ => 0
  | n + 1, t, v =>
    let b := (v % 2 ^ 128) ^^^ t
    ((if dec then aesDec rks b else aesEnc rks b) ^^^ t) + 2 ^ 128 * xtsBlocks rks dec n (xtsDouble t) (v / 2 ^ 128)

/-- XTS of a 64-byte data unit under a key pair and a tweak (R437). -/
def xtsLine (material tweak : Nat) (dec : Bool) (v : Nat) : Nat :=
  xtsBlocks (roundKeys (material % 2 ^ 256)) dec 4 (aesEnc (roundKeys (material / 2 ^ 256)) tweak) v

/-- The counter-mode stream of a line: block j is AES-256 of the binding block with BLK = j (R437). -/
def ctrStream (rks : List (List Nat)) (b : Nat) : Nat :=
  aesEnc rks b + 2 ^ 128 * aesEnc rks (b + 1) + 2 ^ 256 * aesEnc rks (b + 2) + 2 ^ 384 * aesEnc rks (b + 3)

/-- A block with its bytes in the other order: CMAC reads a block as a big-endian number. -/
def swap16 (v : Nat) : Nat := ofBytes (toBytes v 16).reverse

/-- A CMAC subkey from the block before it. -/
def cmacDouble (v : Nat) : Nat :=
  let t := swap16 v
  swap16 (if t < 2 ^ 127 then 2 * t else (2 * t % 2 ^ 128) ^^^ 0x87)

/-- CBC-MAC over blocks, the last one XORed with the subkey. -/
def cmacChain (rks : List (List Nat)) (k1 : Nat) : Nat → List Nat → Nat
  | c, [] => c
  | c, [m] => aesEnc rks (c ^^^ m ^^^ k1)
  | c, m :: ms => cmacChain rks k1 (aesEnc rks (c ^^^ m)) ms

/-- AES-256-CMAC of whole blocks. -/
def cmac (key : Nat) (blocks : List Nat) : Nat :=
  let rks := roundKeys key
  cmacChain rks (cmacDouble (aesEnc rks 0)) 0 blocks

end Sys2Proof.Machine
end

