-- ==== Sys2Proof/Machine/Operands.lean ====
section
/-! DEFINITION. The address chain and the operand forms: pool addresses, lines, pages, slices, sets, places on the
medium, window decode, stored sectors (01, 02, 04, 08, 10, 13). -/

namespace Sys2Proof

/-- A host's holding for a MetaValue (R332, R362). -/
def MetaValue.holding : MetaValue → Nat
  | .s => 1
  | .a => 2
  | .i => 0

/-- KIND of a trace record for a read. -/
def MetaValue.traceKind : MetaValue → Nat
  | .s => 0
  | .a => 1
  | .i => 2

end Sys2Proof

namespace Sys2Proof.Machine

/-! ### Pool addresses, lines and pages -/

/-- NODE of a pool address (R17). -/
def plaNode (pla : Nat) : Nat := pla / 2 ^ 42 % 1024

/-- Device line address of a pool address or offset (R17, R19). -/
def plaDla (pla : Nat) : Nat := pla % 2 ^ 42 / 64

/-- Logical page number of a line (R19). -/
def lpnOf (dla : Nat) : Nat := dla / 64

/-- Line in page (R19). -/
def lineOf (dla : Nat) : Nat := dla % 64

/-- Home slice of a page: XOR of its 4-bit groups (R20). -/
def sliceOfLpn (lpn : Nat) : Nat :=
  (List.range 8).foldl (fun a i => a ^^^ (lpn / 16 ^ i % 16)) 0

/-- Home slice of a line (R20). -/
def sliceOf (dla : Nat) : Nat := sliceOfLpn (lpnOf dla)

/-- Home stack of a page (R21). -/
def stackOfLpn (lpn : Nat) : Nat := sliceOfLpn lpn / 2

/-- The stack of a page's data: its home stack, or with ALT the alternate stack (R21, R221). -/
def pageStack (lpn : Nat) (alt : Bool) : Nat :=
  if alt then (stackOfLpn lpn + 1 + lpn % 7) % 8 else stackOfLpn lpn

/-- Segment of a line (R442). -/
def segOf (dla : Nat) : Nat := dla / 2 ^ 24 % 4096

/-- Key of a line in the tables of lines: home node and line. -/
def lkey (node dla : Nat) : Nat := node * 2 ^ 36 + dla

/-- Quadrant of a slice (R11). -/
def quadrantOfSlice (sl : Nat) : Nat := sl / 4

/-! ### Sets -/

/-- Slice-local line number (R269). -/
def sliceLine (dla : Nat) : Nat := lpnOf dla / 16 * 64 + lineOf dla

/-- Slice-cache set (R269). -/
def cacheSet (dla : Nat) : Nat :=
  let l := sliceLine dla
  4096 * (l / 4096 % 3) + ((l % 4096) ^^^ (l / 4096 % 4096))

/-- Place of a way in the table of ways (R270). -/
def wayKey (slice set way : Nat) : Nat := (slice * 12288 + set) * 16 + way

/-- Directory set (R326). -/
def dirSet (dla : Nat) : Nat :=
  let l := sliceLine dla
  (l % 131072) ^^^ (l / 131072 % 32768)

/-- Host snoop filter set (R331). -/
def hsfSet (dla : Nat) : Nat :=
  let l := sliceLine dla
  (l % 65536) ^^^ (l / 65536 % 65536)

/-- Eaves index set (R108). -/
def eavesSet (dla : Nat) : Nat :=
  dla % 262144 + 262144 * ((dla / 262144 % 512) ^^^ (dla / 2 ^ 27 % 512))

/-- Predictor index of a line's page in its slice's predictor (R51). -/
def predKey (dla : Nat) : Nat := sliceOf dla * 32768 + lpnOf dla % 32768

/-! ### Places on the medium -/

/-- Stripe number: group, partition, course. -/
def stripeKey (group part course : Nat) : Nat := group * 131072 + part * 4096 + course

/-- Group of a stripe number. -/
def stripeGroup (k : Nat) : Nat := k / 131072 % 8

/-- Partition of a stripe number. -/
def stripePart (k : Nat) : Nat := k / 4096 % 32

/-- Course of a stripe number. -/
def stripeCourse (k : Nat) : Nat := k % 4096

/-- Course number: stack, then stripe (R114: 8,388,608 courses). -/
def courseKey (stack stripe : Nat) : Nat := stack * 1048576 + stripe

/-- Stack of the P course (R30). -/
def pStackOf (part course : Nat) : Nat := (course + part) % 8

/-- Place of a sector position in the table of cells. -/
def locKey (l : Loc) : Nat :=
  courseKey l.stack (stripeKey l.group l.part l.course) * 16384 + l.slot

/-- The stripe of a place. -/
def Loc.stripe (l : Loc) : Nat := stripeKey l.group l.part l.course

/-- Busy-table index of a group and partition (R85). -/
def busyKey (group part : Nat) : Nat := group * 32 + part

/-- Medium channel of a die (R12). -/
def channelOf (stack group : Nat) : Nat := 2 * stack + group / 4

/-- Byte offset of a sector in its course: sectors pack without gaps, in a dense course the 68 of page slot p from
p × 5,440 on (R27 to R29). -/
def sectorByte (n : Nat) : Nat := n * 80

/-- Bytes of a row (R26). -/
def rowBytes (fast : Bool) : Nat := if fast then 512 else 2048

/-- First row of a sector (R22). -/
def firstRow (fast : Bool) (n : Nat) : Nat := sectorByte n / rowBytes fast

/-- Last row of a sector: one that crosses a row boundary has its parts in both (R27). -/
def lastRow (fast : Bool) (n : Nat) : Nat := (sectorByte n + 79) / rowBytes fast

/-- The rows in which a sector lies (R27). -/
def rowsOf (fast : Bool) (n : Nat) : List Nat :=
  if firstRow fast n = lastRow fast n then [firstRow fast n] else [firstRow fast n, lastRow fast n]

/-- Bytes of a unit of filling: a sector slot, or a page slot of 68 sectors (R25, R29). -/
def unitBytes (fast : Bool) : Nat := if fast then 80 else 5440

/-- Units in a course (R28, R29). -/
def unitCount (fast : Bool) : Nat := if fast then 3264 else 192

/-- The first ledger sector of a course: the sector slots, or the pages' sectors, come before it (R28, R29). -/
def ledgerAt (fast : Bool) : Nat := if fast then 3264 else 13056

/-- Ledger sectors of a course (R116). -/
def ledgerCount (fast : Bool) : Nat := if fast then 12 else 51

/-- Sectors with a part in a row (R27). -/
def rowTouch (fast : Bool) (r : Nat) : List Nat :=
  let a := r * rowBytes fast / 80
  ((List.range 27).map (· + a)).filter (fun n =>
    decide (n < ledgerAt fast + ledgerCount fast) && decide (firstRow fast n ≤ r) && decide (r ≤ lastRow fast n))

/-- Rows wholly staged when n units of a course are filled; the ledger rows 510 and 511 come after them (R116). -/
def rowsStaged (fast : Bool) (n : Nat) : Nat := min 510 (n * unitBytes fast / rowBytes fast)

/-! ### Windows -/

/-- Host address with the alias bits replaced by the window base's (R413). -/
def aliasFold (w : Window) (hpa : Nat) : Nat :=
  let lo := hpa % 2 ^ w.kshift
  let mid := w.hbase / 2 ^ w.kshift % 2 ^ w.kbits
  let hi := hpa / 2 ^ (w.kshift + w.kbits)
  lo + (mid + hi * 2 ^ w.kbits) * 2 ^ w.kshift

/-- Alias index (R413). -/
def aliasIndex (w : Window) (hpa : Nat) : Nat := hpa / 2 ^ w.kshift % 2 ^ w.kbits

/-- The request lies in the window (R413). -/
def Window.covers (w : Window) (hpa : Nat) : Bool :=
  w.valid && decide (w.hbase ≤ aliasFold w hpa) && decide (aliasFold w hpa < w.hbase + w.size * 2 ^ 28)

/-- A decoded host access: pool address, key ID and tenant, with the window's permissions. -/
structure Decoded where
  pla    : Nat
  kid    : Nat
  kvalid : Bool
  tenant : Nat
  rd     : Bool
  wr     : Bool
  win    : Nat
deriving DecidableEq, Repr

/-- The first window of a table that a host address lies in, decoded (R15, R413, R414). -/
def decodeIn : Table Window → Nat → Option Decoded
  | [], _ => none
  | (n, w) :: t, hpa =>
    if w.covers hpa then
      let i := aliasIndex w hpa
      some { pla := w.pbase + (aliasFold w hpa - w.hbase)
             kid := nthD w.kids i 0
             kvalid := i == 0 || decide (w.kvalid / 2 ^ i % 2 = 1)
             tenant := w.tenant, rd := w.rd, wr := w.wr, win := n }
    else decodeIn t hpa

/-- The device physical address that a committed HDM decoder of the port computes (R402). -/
def hdmDpa : List (Nat × Nat × Nat) → Nat → Option Nat
  | [], _ => none
  | (b, n, d) :: t, hpa => if b ≤ hpa ∧ hpa < b + n then some (hpa - b + d) else hdmDpa t hpa

/-- Window decode of a host access (R16, R402, R413). -/
def decode (h : HostPort) (hpa : Nat) : Option Decoded :=
  match hdmDpa h.hdm hpa with
  | none => none
  | some dpa => if dpa < h.aperture * 2 ^ 28 then decodeIn h.windows hpa else none

/-! ### Stored sectors -/

/-- DATA of a sector (R23). -/
def secData (r : RawSector) : Line := BitVec.extractLsb' 0 512 r

/-- VER of a sector. -/
def secVer (r : RawSector) : Nat := (BitVec.extractLsb' 560 32 r).toNat

/-- MAC of a sector. -/
def secMac (r : RawSector) : Nat := (BitVec.extractLsb' 592 40 r).toNat

/-- TAG of a sector. -/
def secTag (r : RawSector) : Nat := (BitVec.extractLsb' 632 8 r).toNat

/-- A sector of its fields, with the check bits of the inner code (R23, R24, R180). -/
def mkSector (data : Line) (ver mac tag : Nat) : RawSector :=
  sectorOf (BitVec.ofNat 8 tag ++ BitVec.ofNat 40 mac ++ BitVec.ofNat 32 ver ++ data : BitVec 592)

/-- POISON of the tag (Table 01-9). -/
def secPoison (r : RawSector) : Bool := r.getLsbD 632

/-- IMODE of the tag. -/
def secImode (r : RawSector) : Bool := r.getLsbD 633

/-- EPAR of the tag. -/
def secEpar (r : RawSector) : Bool := r.getLsbD 635

/-- FMT of the tag. -/
def secFmt (r : RawSector) : Nat := (BitVec.extractLsb' 636 4 r).toNat

/-- Tag byte (Table 01-9). -/
def tagByte (poison imode fast epar : Bool) : Nat := flag 0 poison + flag 1 imode + flag 2 fast + flag 3 epar

/-- A zero sector (R111, R125). -/
def zeroSector : RawSector := 0

/-- A poison sector (R199). -/
def poisonSector (fast : Bool) (epoch : Nat) : RawSector :=
  mkSector 0 0xFFFFFFFF 0 (tagByte true false fast (epoch % 2 == 1))

/-- A sector that holds a line never written (R111). -/
def secBlank (r : RawSector) : Bool := secVer r == 0 && secMac r == 0

/-- The bytes of a line that a byte mask enables taken from one line, the others from another (R205). -/
def mergeLine (mask : BitVec 64) (new old : Line) : Line :=
  BitVec.ofNat 512 ((List.range 64).foldl (fun a i =>
    let src := if mask.getLsbD i then new else old
    a + (src.toNat / 256 ^ i % 256) * 256 ^ i) 0)

/-- All 64 bytes enabled. -/
def fullMask : BitVec 64 := BitVec.allOnes 64

end Sys2Proof.Machine
end

