-- ==== Sys2Proof/Machine/Flags.lean ====
section
/-! DEFINITION. The conditions and counts that rules and status registers are stated in: dirty data, budgets, durability,
withheld credits, slots claimed, eaves size. -/

namespace Sys2Proof.Machine

/-! ### Dirty data and budgets -/

/-- The dirty amount D in bytes: 64 for each line slot and each dovetail record (R239). -/
def dirty (s : State) : Nat := 64 * (s.tr.slots.length + s.cache.dove.length)

/-- The dirty amount of one epoch. -/
def epochDirty (ep : Nat) (s : State) : Nat :=
  64 * (s.tr.slots.countP (fun x => x.epoch == ep) + s.cache.dove.countP (fun x => x.2.epoch == ep))

/-- The limit of R240 in bytes: B_now while ACCEPT applies, else 256 MiB. -/
def dirtyLimit (s : State) : Nat := (if s.per.accept then s.per.budgetNow else 256) * 2 ^ 20

/-- A port withholds write credits: one more line would take D above the limit (R240). -/
def creditHold (s : State) : Bool := decide (dirtyLimit s < dirty s + 64)

/-- VHOLD lies within its supervisor window (R229, Table 16-2 code 12). -/
def vholdIn (s : State) : Bool :=
  match s.pw.comps[12]? with
  | some c => c.inWin
  | none => false

/-- Durability mode ACCEPT (R229). -/
def acceptNow (s : State) : Bool :=
  s.per.measValid && !s.per.absent && vholdIn s && progAllowed s && s.pw.phase != .flush

/-- The log extent holds commits (R257). -/
def logHold (s : State) : Bool := decide (24 * 2 ^ 30 ≤ s.per.extent)

/-- The dirty budget in MiB of a usable energy in mJ (Table 07-2), rounded down to a multiple of 64 MiB. -/
def budgetOf (mj : Nat) : Nat :=
  if mj < 1200 then 0
  else if mj < 1500 then 256
  else if mj < 12000 then (256 + (mj - 1500) * 3840 / 10500) / 64 * 64
  else 4096

/-- E(V) in mJ (R234) of V in mV, C in µF and ESR in mΩ: 0.45 × C × (V² − V_fl²), the floor V_fl being
16.0 V + 6.5 A × ESR. -/
def energyOf (v cap esr : Nat) : Nat :=
  let fl := 16000 + 65 * esr / 10
  (v * v - fl * fl) * cap * 45 / 100000000000

/-- The limit of R536 in force, in percent; 100 when nothing is enforced. -/
def limitNow (s : State) : Nat := if s.thm.enforced then nthD s.thm.cfg.limit (s.thm.level - 1) 100 else 100

/-! ### Slots and eaves -/

/-- A busy-table entry (R85). -/
def busyAt (s : State) (group part : Nat) : BusyEntry := Table.getD s.sched.busy (busyKey group part) {}

/-- Busy-table entries that are claimed (R101). -/
def claimedCount (s : State) : Nat := s.sched.busy.countP (fun x => x.2.state != 0)

/-- The slot count in force: 128 in Flush (R259); the lower of n_slots and 64 at T2 or Critical (R537). -/
def slotsInForce (s : State) : Nat :=
  if s.pw.phase == .flush then 128
  else if 2 ≤ s.thm.level then min s.sched.nSlots 64
  else s.sched.nSlots

/-- Resident eaves entries in bytes of line data (R123). -/
def eavesBytes (s : State) : Nat := 64 * s.tr.maps.eaves.length

/-- The eaves limit E_max in bytes (R123). -/
def eavesMax (s : State) : Nat :=
  64 * 2 ^ 30 - 48 * s.tr.maps.dense.countP (fun x => x.2.valid)

/-- MED_REBUILD.STRIPES_LEFT: stripes with a lost member not yet in RECLAIM (R228). -/
def lostStripes (s : State) : Nat :=
  s.tr.stripes.countP (fun x => !x.2.lost.isEmpty && !x.2.reclaim)

/-- The refresh level that waits highest (R172). -/
def topLevel (s : State) : Nat := s.tr.stripes.foldl (fun a x => if x.2.reclaim then a else max a x.2.level) 0

/-- The slots reserved for REFRESH at a level (Table 05-5). -/
def refreshShare (level slots : Nat) : Nat :=
  if level = 2 then slots / 8 else if level = 3 then slots / 2 else if level = 4 then slots else 0

end Sys2Proof.Machine
end

