-- ==== Sys2Proof/Machine/Banks.lean ====
section
/-! DEFINITION. The LPDDR6 channel controllers: where a line lies, the request queues of the banks, the write queues, and the
choice between the two copies of a mirrored line (09). -/

namespace Sys2Proof.Machine

/-! ### LPDDR6 places -/

/-- An LPDDR6 channel (R288). -/
def chanAt (s : State) (c : Nat) : Chan := Table.getD s.dram.chans c {}

/-- Replaces an LPDDR6 channel. -/
def putChan (c : Nat) (x : Chan) (s : State) : State :=
  { s with dram := { s.dram with chans := Table.putD s.dram.chans c x {} } }

/-- Channel of a DRAM line (Table 09-1). -/
def lineChan (n : Nat) : Nat := (n % 16) ^^^ (n / 2 ^ 14 % 16)

/-- Rank of a DRAM line (Table 09-1). -/
def lineRank (n : Nat) : Nat := n / 2 ^ 13 % 2

/-- Bank of a DRAM line, 0 to 15: bank group, then bank in group (Table 09-1). -/
def lineBank (n : Nat) : Nat :=
  4 * ((n / 2 ^ 9 % 4) ^^^ (n / 2 ^ 18 % 4)) + ((n / 2 ^ 11 % 4) ^^^ (n / 2 ^ 20 % 4))

/-- Key of a bank. -/
def bankKey (ch rank bank : Nat) : Nat := (ch * 2 + rank) * 16 + bank

/-- A bank. -/
def bankAt (s : State) (k : Nat) : Bank := Table.getD s.dram.banks k {}

/-- The bank of a DRAM line is marked refresh-busy, as every bank of a channel that is being retrained (R304). -/
def lineMarked (s : State) (n : Nat) : Bool :=
  (bankAt s (bankKey (lineChan n) (lineRank n) (lineBank n))).marked || (chanAt s (lineChan n)).training

/-- Row of a DRAM line (Table 09-1). -/
def lineRow (n : Nat) : Nat := n / 2 ^ 14 % 65536

/-- Two LPDDR6 lines lie in one row of one bank. -/
def sameRow (a b : Nat) : Bool :=
  lineChan a == lineChan b && lineRank a == lineRank b && lineBank a == lineBank b && lineRow a == lineRow b

/-- DRAM line of a channel, rank, bank, row and column: the inverse of Table 09-1 (R294). -/
def lineOfPlace (ch rank bank row col : Nat) : Nat :=
  row * 2 ^ 14 + rank * 2 ^ 13 + ((bank % 4) ^^^ (row / 2 ^ 6 % 4)) * 2 ^ 11 + ((bank / 4) ^^^ (row / 2 ^ 4 % 4)) * 2 ^ 9
    + col * 2 ^ 4 + (ch ^^^ (row % 16))

/-! ### Mirrors -/

/-- Line j of copy 0 of a mirrored structure with its base line; copy 1 is 8 lines on (R295). -/
def mirrorLine (base j : Nat) : Nat := base + 16 * (j / 8) + j % 8

/-- LPDDR6 device n has failed (R311). -/
def lpddrLost (s : State) (n : Nat) : Bool := decide (s.prot.lostLpd / 2 ^ n % 2 = 1)

/-- A line lies on a lost device. -/
def onLost (s : State) (n : Nat) : Bool := lpddrLost s (lineChan n / 4)

/-- u of the channel-row of a mirrored line on a lost device (R312). -/
def rowU (n : Nat) : Nat := lineChan n % 2 * 40192 + lineRow n

/-- The receiving device of the channel-rows of channels 0 and 1 of device n, or of channels 2 and 3 (R312). -/
def remirDevice (n : Nat) (upper : Bool) : Nat := if upper then n ^^^ 3 else n ^^^ 1

/-- The replacement of a mirrored line that lay on a lost device: rank, bank and column are kept (R312). -/
def replaceLine (n : Nat) : Nat :=
  let u := rowU n
  let c := lineChan n
  lineOfPlace (4 * remirDevice (c / 4) (decide (2 ≤ c % 4)) + u % 4) (lineRank n) (lineBank n) (0x9D00 + u / 4) (n / 2 ^ 4 % 32)

/-- Re-mirroring has passed the channel-row of a line (R313): both channels of a value of u are copied before the next. -/
def rowPassed (s : State) (n : Nat) : Bool :=
  match s.dram.remir with
  | none => true
  | some (_, ptr) => decide (2 * rowU n + lineChan n % 4 / 2 < ptr)

/-- The interruption of a device's failure lasts (R311). -/
def lpddrHeld (s : State) : Bool :=
  s.prot.faults.any (fun f => match f with
    | .lpddr _ => true
    | .medium => false
    | .hostLane _ => false
    | .sglLane _ => false
    | .sglLink _ => false
    | .sram _ => false)

/-- Where one copy of a mirrored line is read: not on a lost device, and at its replacement once the pointer has passed it
(R313). -/
def mirrorRead (s : State) (n : Nat) : Option Nat :=
  if !onLost s n then some n
  else if !lpddrHeld s && rowPassed s n && !onLost s (replaceLine n) then some (replaceLine n)
  else none

/-- Where one copy of a mirrored line is written: at its replacement from the release onward, whatever the pointer (R313). -/
def mirrorWrite (s : State) (n : Nat) : Option Nat :=
  if !onLost s n then some n
  else if !lpddrHeld s && !onLost s (replaceLine n) then some (replaceLine n)
  else none

/-- The lines that a write to a mirrored line goes to (R59, R295, R313). -/
def mirrorWrites (s : State) (n : Nat) : List Nat := [n, n ^^^ 8].filterMap (mirrorWrite s)

/-! ### Request queues -/

/-- A request still waits for its line: its MSHR has missed and waits for the DRAM, or for its location. -/
def DramReq.live (r : DramReq) (s : State) : Bool :=
  match Table.get? s.cache.mshrs (lkey r.node r.dla) with
  | none => false
  | some m =>
    match r.use with
    | .line => m.tagHit == some true && m.fill.isNone
    | .dense => m.miss && m.loc.isNone
    | .eaves => m.miss && m.loc.isNone

/-- Key of a line's bank. -/
def bankOf (n : Nat) : Nat := bankKey (lineChan n) (lineRank n) (lineBank n)

/-- The requests that wait at a channel, oldest first, and their number ahead in the same bank. -/
def waitingAt (s : State) (c : Nat) : List DramReq := s.dram.queue.filter (fun r => lineChan r.line == c && r.live s)

/-- Each bank's queue has 16 entries (R298): those of a channel's requests that stand in one. -/
def queued (s : State) (c : Nat) : List DramReq :=
  let q := waitingAt s c
  (q.zipIdx.filter (fun x => decide (((q.take x.2).countP (fun y => bankOf y.line == bankOf x.1.line)) < 16))).map (·.1)

/-- The bank of a line cannot be activated: a refresh holds it, or its channel is being retrained (R302, R306). -/
def bankHeld (s : State) (n : Nat) : Bool := (bankAt s (bankOf n)).busyTo.isSome || (chanAt s (lineChan n)).training

/-- The request whose bank the controller activates next (R299): in rotation from the bank after the last one activated, the
first with a request of the highest class in any queue; in the bank, its oldest. A bank that a refresh holds is passed
(DEDUCED, log 104). -/
def nextReq (s : State) (c : Nat) : Option DramReq :=
  let q := (queued s c).filter (fun r => !bankHeld s r.line)
  let best := q.foldl (fun a r => min a r.cls) 4
  let top := q.filter (fun r => r.cls == best)
  (List.range 32).findSome? (fun i =>
    let b := ((chanAt s c).last + 1 + i) % 32
    top.find? (fun r => bankOf r.line % 32 == b))

/-- The lines a channel controller has accepted and not yet written (R300). -/
def writeCount (s : State) (c : Nat) : Nat := s.dram.writes.countP (fun n => lineChan n == c)

/-- An access of an LPDDR6 line counts its activate, unless its row stays open for another request queued for it
(R299, Table 19-5). -/
def countActivate (n : Nat) (s : State) : State :=
  if 2 ≤ s.dram.queue.countP (fun r => r.live s && sameRow n r.line) then s else count 16 0x103 0 1 s

/-- A request wakes the rank of its line (R308), and its activate is counted. -/
def wakeRank (n : Nat) (s : State) : State :=
  let s := countActivate n s
  let c := lineChan n
  let x := chanAt s c
  if x.down.contains (lineRank n) then putChan c { x with down := x.down.erase (lineRank n) } s else s

/-- A line's write is still queued: a read of it is answered from the queue (R300). -/
def writeQueued (s : State) (n : Nat) : Bool := s.dram.writes.contains n

/-- Writes enter the write queues of their channels (R300). -/
def dramWrites (ns : List Nat) (s : State) : State := { s with dram := { s.dram with writes := s.dram.writes ++ ns } }

/-- A request enters the queue of its bank (R298), unless the write queue answers it (R300). -/
def dramAsk (r : DramReq) (s : State) : State :=
  if writeQueued s r.line then s
  else { s with dram := { s.dram with queue := s.dram.queue.filter (fun x => x.live s && x != r) ++ [r] } }

/-- The request a line's MSHR has made for a use, where one waits. -/
def asked (s : State) (use : DramUse) (node dla : Nat) : Option DramReq :=
  s.dram.queue.find? (fun r => r.use == use && r.node == node && r.dla == dla && r.live s)

/-- A request has been served: it leaves its queue, and its bank is the last one activated (R299). -/
def dramTake (r : DramReq) (s : State) : State :=
  let c := lineChan r.line
  let s := { s with dram := { s.dram with queue := s.dram.queue.erase r } }
  putChan c { chanAt s c with last := bankOf r.line % 32 } s

/-- The state once a use of a line's MSHR has been served; none while the controller has not come to it. A line whose request
is in no queue has been answered from a write queue. -/
def dramServe (use : DramUse) (node dla : Nat) (s : State) : Option State :=
  match asked s use node dla with
  | none => some s
  | some r => if nextReq s (lineChan r.line) == some r then some (dramTake r s) else none

/-- The two fetches of a lookaside miss have been served, in either order (R112). -/
def serveMaps (node dla : Nat) (s : State) : Option State :=
  match (dramServe .dense node dla s).bind (dramServe .eaves node dla) with
  | some t => some t
  | none => (dramServe .eaves node dla s).bind (dramServe .dense node dla)

/-- The maps of a line are at hand: a lookaside hit fetches nothing (R112). -/
def mapsServed (hit : Bool) (node dla : Nat) (s : State) : Option State := if hit then some s else serveMaps node dla s

/-- Nothing of a higher class waits at the channel of a line, and its bank can be activated: a request of a class that is
made as it is served finds its turn (R298, R299). -/
def mayServe (s : State) (cls n : Nat) : Bool :=
  !bankHeld s n && (queued s (lineChan n)).all (fun r => decide (cls ≤ r.cls))

/-- Core cycles in which a channel writes one line at its data rate (Table 02-8; DESIGN CHOICE, log 104). -/
def writeCycles (s : State) : Nat := 6 - min s.dram.rate 2

/-- A channel writes the oldest line of its write queue whose bank can be activated. -/
def drainWrite (c : Nat) (s : State) : State :=
  match s.dram.writes.find? (fun n => lineChan n == c && !bankHeld s n) with
  | none => s
  | some n => { s with dram := { s.dram with writes := s.dram.writes.erase n } }

/-- The write queues drain, one line of each channel in the time of its transfer (R300; DESIGN CHOICE, log 104). -/
def drainWrites (s : State) : State :=
  if s.dram.writes.isEmpty || s.now % writeCycles s != 0 then s
  else (List.range 16).foldl (fun s c => drainWrite c s) s

/-! ### The less busy mirror -/

/-- The less busy copy of a mirrored line for a slice (R301): one that is refresh-busy or whose channel is being retrained
counts as busier; then the one with fewer requests queued for its bank; then the one on the device of the slice's own
quadrant; then copy 0. A copy on a lost device is not there (R311). -/
def lessBusy (s : State) (slice n : Nat) : Nat :=
  let load := fun (x : Nat) => (s.dram.queue.countP (fun r => bankOf r.line == bankOf x && r.live s))
  match mirrorRead s n, mirrorRead s (n ^^^ 8) with
  | some a, some b =>
    if lineMarked s a != lineMarked s b then (if lineMarked s a then b else a)
    else if load a != load b then (if load a < load b then a else b)
    else if lineChan b / 4 = quadrantOfSlice slice then b
    else a
  | some a, none => a
  | none, some b => b
  | none, none => n

/-- The other copy of a mirrored line of which one copy was read, where there is one. -/
def otherCopy (s : State) (n at_ : Nat) : Option Nat :=
  match mirrorRead s n, mirrorRead s (n ^^^ 8) with
  | some a, some b => some (if at_ = a then b else a)
  | some _, none => none
  | none, _ => none

/-- The map lookaside holds what a line's location needs (R112). -/
def lookasideHit (s : State) (dla : Nat) : Bool :=
  s.tr.lookD.contains (lpnOf dla) && (!(Table.getD s.tr.maps.dense (lpnOf dla) {}).eov || s.tr.lookE.contains dla)

/-- The line of a page's dense entry, copy 0 (R105, Table 09-2). -/
def denseBase (lpn : Nat) : Nat := mirrorLine 0 (6 * lpn / 64)

/-- The line of a line's eaves set, copy 0 (R108, Table 09-2). -/
def eavesBase (dla : Nat) : Nat := mirrorLine 0xC000000 (eavesSet dla)

/-- The line of a write-buffer slot, copy 0 (R239, Table 09-2). -/
def slotBase (dla ep : Nat) : Nat := mirrorLine 0x1C000000 (Config.slotIndex (ep * 2 ^ 36 + dla) % 2 ^ 26)

/-- The copy of a page's dense entry that a slice reads (R105, R112). -/
def denseLine (s : State) (lpn : Nat) : Nat := lessBusy s (sliceOfLpn lpn) (denseBase lpn)

/-- The copy of a line's eaves set that its slice reads (R108, R112). -/
def eavesLine (s : State) (dla : Nat) : Nat := lessBusy s (sliceOf dla) (eavesBase dla)

/-- On a lookaside miss the dense entry and the line's eaves set are fetched in parallel, each from its less busy mirror, in
the class of the request (R112, R298). -/
def askMaps (dla cls : Nat) (s : State) : State :=
  if lookasideHit s dla then s
  else
    let node := s.sgl.cfg.node
    let a := denseLine s (lpnOf dla)
    let b := eavesLine s dla
    dramAsk { line := b, cls := cls, node := node, dla := dla, use := .eaves }
      (dramAsk { line := a, cls := cls, node := node, dla := dla, use := .dense } s)

end Sys2Proof.Machine
end

