-- ==== Sys2Proof/Machine/Maps.lean ====
section
/-! DEFINITION. Map entries and their changes, the log, epochs and the write buffer: the operations that 04 and 07 share. -/

namespace Sys2Proof.Machine

/-! ### Entries -/

/-- The dense entry of a page (R105). -/
def denseOf (s : State) (lpn : Nat) : DenseEntry := Table.getD s.tr.maps.dense lpn {}

/-- The eaves entry of a line, where one is valid (R108). -/
def eavesOf (s : State) (dla : Nat) : Option EavesEntry := Table.get? s.tr.maps.eaves dla

/-- The course table entry of a course (R114). -/
def courseOf (s : State) (c : Nat) : CourseEntry := Table.getD s.tr.maps.course c {}

/-- Two eaves entries name one sector. -/
def sameSector (e f : EavesEntry) : Bool :=
  e.group == f.group && e.part == f.part && e.course == f.course && e.slot == f.slot

/-- The place an eaves entry of the maps names, on the stack that the page's ALT bit selects (R21, R221). -/
def eavesPlace (m : Maps) (dla : Nat) (e : EavesEntry) : Loc :=
  { stack := pageStack (lpnOf dla) (Table.getD m.dense (lpnOf dla) {}).alt
    group := e.group, part := e.part, course := e.course, slot := e.slot, fast := true }

/-- The place an eaves entry names. -/
def eavesLoc (s : State) (dla : Nat) (e : EavesEntry) : Loc := eavesPlace s.tr.maps dla e

/-- The place of a line in its page's dense copy (R22, R110). -/
def denseLoc (d : DenseEntry) (dla : Nat) : Loc :=
  { stack := pageStack (lpnOf dla) d.alt
    group := d.group, part := d.part, course := d.course, slot := d.slot * 68 + lineOf dla, fast := false }

/-- Where maps place a line on the medium, while they do. -/
def placedIn (m : Maps) (dla : Nat) : Option Loc :=
  let d := Table.getD m.dense (lpnOf dla) {}
  match Table.get? m.eaves dla with
  | some e => if e.poison then none else some (eavesPlace m dla e)
  | none => if d.valid && !d.poison then some (denseLoc d dla) else none

/-- Any eaves entry of a page remains (R127). -/
def anyEaves (m : Maps) (lpn : Nat) : Bool := m.eaves.any (fun x => lpnOf x.1 == lpn)

/-- Bytes of a log record (Table 07-3); an eaves entry is one slot of an EAVES_ROW record, whose header is counted with
the row's first slot (log 13). -/
def recSize : LogRec → Nat
  | .eaves _ e => if e.slot ≠ 0 ∧ e.slot * 80 / 512 = (e.slot - 1) * 80 / 512 then 6 else 22
  | .reloc _ _ _ => 16
  | .eavesDel _ _ => 16
  | .dense _ _ => 16
  | .course _ _ => 16
  | .age _ _ => 16
  | .qtab _ _ _ => 16
  | .segment _ => 16
  | .opened _ => 16
  | .commit _ => 16

/-- A dense entry with EOV set: EPOCH changes where EOV does (R106, R119). -/
def DenseEntry.withEov (d : DenseEntry) (ep : Nat) : DenseEntry :=
  if d.eov then d else { d with eov := true, epoch := ep % 4096 }

/-- A line's eaves entry enters the maps, and its page's EOV with it (R119). -/
def putEaves (ep : Nat) (m : Maps) (dla : Nat) (e : EavesEntry) : Maps :=
  { m with
    eaves := Table.put m.eaves dla e
    dense := Table.put m.dense (lpnOf dla) ((Table.getD m.dense (lpnOf dla) {}).withEov ep) }

/-- The effect of a record of an epoch on the maps: it sets an absolute value, a RELOC where the line still lies at the
location it names (R189), or removes an entry on a match (R254). -/
def applyRec (ep : Nat) (m : Maps) : LogRec → Maps
  | .eaves dla e => putEaves ep m dla e
  | .reloc dla e src => if placedIn m dla = some src then putEaves ep m dla e else m
  | .eavesDel dla e =>
    match Table.get? m.eaves dla with
    | some f => if sameSector e f then { m with eaves := Table.del m.eaves dla } else m
    | none => m
  | .dense lpn e => { m with dense := Table.putD m.dense lpn e {} }
  | .course c e => { m with course := Table.putD m.course c e {} }
  | .age c v => { m with age := Table.putD m.age c v 0 }
  | .qtab _ _ _ => m
  | .segment _ => m
  | .opened _ => m
  | .commit _ => m

/-- A record as the log carries it: the log has no STAGED. -/
def logged : LogRec → LogRec
  | .eaves dla e => .eaves dla { e with staged := false }
  | .reloc dla e src => .reloc dla { e with staged := false } src
  | .eavesDel dla e => .eavesDel dla e
  | .dense lpn e => .dense lpn e
  | .course c e => .course c e
  | .age c v => .age c v
  | .qtab k r l => .qtab k r l
  | .segment n => .segment n
  | .opened ep => .opened ep
  | .commit ep => .commit ep

/-- Counts record bytes into the log extent (R257). -/
def growLog (n : Nat) (s : State) : State :=
  { s with
    per := { s.per with extent := s.per.extent + n, sweepBytes := s.per.sweepBytes + n }
    ck := { s.ck with logPos := s.ck.logPos + n } }

/-- A line whose eaves set was lost is decided by its new entry again (R195). -/
def foundLines (r : LogRec) (ls : List Nat) : List Nat :=
  match r with
  | .eaves dla _ => ls.filter (· != dla)
  | .reloc dla _ _ => ls.filter (· != dla)
  | .eavesDel _ _ => ls
  | .dense _ _ => ls
  | .course _ _ => ls
  | .age _ _ => ls
  | .qtab _ _ _ => ls
  | .segment _ => ls
  | .opened _ => ls
  | .commit _ => ls

/-- The record changes a map entry (R113): those of courses, ages and Q tables, and the log's own, do not (DEDUCED,
log 27). -/
def LogRec.isMap : LogRec → Bool
  | .eaves _ _ => true
  | .reloc _ _ _ => true
  | .eavesDel _ _ => true
  | .dense _ _ => true
  | .course _ _ => false
  | .age _ _ => false
  | .qtab _ _ _ => false
  | .segment _ => false
  | .opened _ => false
  | .commit _ => false

/-- A map change of an epoch: it takes effect in the maps and stands in the log under that epoch (R113, R242, R253). -/
def mapChange (ep : Nat) (r : LogRec) (s : State) : State :=
  let s := growLog (recSize r) s
  { s with
    tr := { s.tr with
      maps := applyRec ep s.tr.maps r, log := s.tr.log ++ [(ep, logged r)], lostLines := foundLines r s.tr.lostLines }
    per := { s.per with openHolds := s.per.openHolds || (r.isMap && ep == s.per.openEpoch) } }

/-- A map change of the open epoch. -/
def mapOpen (r : LogRec) (s : State) : State := mapChange s.per.openEpoch r s

/-- A record that changes no map. -/
def logOnly (ep : Nat) (r : LogRec) (s : State) : State :=
  let s := growLog (recSize r) s
  { s with tr := { s.tr with log := s.tr.log ++ [(ep, r)] } }

/-- Replaces a dense entry, EPOCH taken from the open epoch (R127). -/
def putDense (lpn : Nat) (e : DenseEntry) (s : State) : State :=
  mapOpen (.dense lpn { e with epoch := s.per.openEpoch % 4096 }) s

/-- Replaces a course table entry. -/
def putCourse (c : Nat) (e : CourseEntry) (s : State) : State := mapOpen (.course c e) s

/-- Clears STAGED of a line's entry in the live maps: the log never shows it (R131). -/
def clearStaged (dla : Nat) (s : State) : State :=
  match eavesOf s dla with
  | some e => { s with tr := { s.tr with maps := { s.tr.maps with
      eaves := Table.put s.tr.maps.eaves dla { e with staged := false } } } }
  | none => s

/-! ### Poison marks -/

/-- Eaves entries in the set of a line (R108). -/
def setCount (s : State) (dla : Nat) : Nat :=
  s.tr.maps.eaves.countP (fun x => eavesSet x.1 == eavesSet dla)

/-- Drops the copies of local lines that slice SRAM and the DRAM cache hold. -/
def dropCopies (p : Nat → Bool) (s : State) : State :=
  { s with
    cache := { s.cache with ways := s.cache.ways.filter (fun x => !(x.2.node == s.sgl.cfg.node && p x.2.dla)) }
    dram := { s.dram with cache := s.dram.cache.filter (fun x => !p x.1) } }

/-- The line of a page is decided by the page's dense entry: no eaves entry and no slot of the write buffer is its own. -/
def byDense (s : State) (lpn dla : Nat) : Bool :=
  lpnOf dla == lpn && (eavesOf s dla).isNone && !s.tr.slots.any (fun x => x.dla == dla)

/-- A poison entry for a line: VALID and POISON in the eaves index, or where its set is full in the page's dense entry,
recorded in an event (R148, R149, R193). -/
def poisonEntry (ep dla : Nat) (s : State) : State :=
  if (eavesOf s dla).isSome || decide (setCount s dla < 8) then
    mapChange ep (.eaves dla { poison := true, heat := 0, epoch := ep % 4096 }) s
  else
    let s := mapChange ep (.dense (lpnOf dla) { denseOf s (lpnOf dla) with poison := true, epoch := ep % 4096 }) s
    event .linePoisoned 7 [dla, lpnOf dla] s

/-- Counts a line poisoned by the device (R228). -/
def countUe (dla : Nat) (s : State) : State :=
  { s with prot := { s.prot with lastDla := dla % 2 ^ 36, ueCount := satInc 16 s.prot.ueCount } }

/-- A read that no step recovers writes a poison entry, counts and records the line (R193). -/
def poisonLine (dla : Nat) (s : State) : State :=
  event .linePoisoned 7 [dla] (countUe dla (poisonEntry s.per.openEpoch dla s))

/-! ### Epochs -/

/-- An epoch close closes every dovetail entry that holds writes of the closing epoch (R205, R207). -/
def closeDoves (ep : Nat) (s : State) : State :=
  { s with cache := { s.cache with
    dove := s.cache.dove.map (fun x => (x.1, { x.2 with closed := x.2.closed || x.2.epoch == ep })) } }

/-- The open epoch closes now: it drains, its dovetail entries close, and the next number opens (R205, R241, R245, R246). -/
def closeNow (s : State) : State :=
  let ep := s.per.openEpoch
  let ck := { s.ck with lastOpen := max s.ck.lastOpen (ep + 1) }
  closeDoves ep <| logOnly (ep + 1) (.opened (ep + 1)) { s with
    per := { s.per with
      draining := s.per.draining ++ [{ epoch := ep, staged := false }]
      openEpoch := (ep + 1) % 2 ^ 48
      openHolds := false
      closePend := false
      interval := s.per.intervalNx }
    ck := ck }

/-- A close condition: it takes effect at once, or waits while an epoch drains (R245). None takes effect in Flush
(R250), nor before Replay has opened an epoch. -/
def closeEpoch (s : State) : State :=
  if s.pw.phase != .service then s
  else if s.per.draining.isEmpty then closeNow s
  else { s with per := { s.per with closePend := true } }

/-- A requester's EPC_TARGET: the epoch open at the request, or in Flush the newer of the two that drain (R250): the one
that the entry to Flush closed. -/
def closeTarget (s : State) : Nat :=
  if s.pw.phase == .flush then (s.per.openEpoch + (2 ^ 48 - 1)) % 2 ^ 48 else s.per.openEpoch

/-- A close request of a sender of register accesses (R250). -/
def closeRequest (snd : Sender) (s : State) : State :=
  closeEpoch { s with per := { s.per with targets := setNth s.per.targets snd.ix (closeTarget s) } }

/-- The durability mode follows its conditions; a change from ACCEPT to COMMIT raises a close (R229, R231). -/
def updateAccept (s : State) : State :=
  let a := acceptNow s
  let was := s.per.accept
  let s := { s with per := { s.per with accept := a } }
  if was && !a then closeEpoch s else s

/-- The open epoch's own dirty amount closes it at 50 % of the limit (R244). -/
def closeIfHalf (s : State) : State :=
  if dirtyLimit s ≤ 2 * epochDirty s.per.openEpoch s && 0 < epochDirty s.per.openEpoch s then closeEpoch s else s

/-! ### The write buffer -/

/-- The newest slot of a line in the write buffer. -/
def newestSlot (s : State) (dla : Nat) : Option WbSlot :=
  s.tr.slots.foldl (fun a x =>
    if x.dla = dla then
      match a with
      | some y => if y.epoch ≤ x.epoch then some x else a
      | none => some x
    else a) none

/-- Puts a line of an epoch into the write buffer: one slot for each line and epoch (R239). -/
def putSlot (x : WbSlot) : List WbSlot → List WbSlot
  | [] => [x]
  | y :: ys => if y.dla = x.dla ∧ y.epoch = x.epoch then x :: ys else y :: putSlot x ys

/-- Accepts a line into the write buffer (R59, R239): its two copies enter the write queues of two LPDDR6 devices (R300); the
epoch is closed where its share is reached (R244). -/
def acceptLine (x : WbSlot) (s : State) : State :=
  let s := dramWrites (mirrorWrites s (slotBase x.dla x.epoch)) { s with
    tr := { s.tr with slots := putSlot x s.tr.slots }
    per := { s.per with openHolds := s.per.openHolds || x.epoch == s.per.openEpoch } }
  closeIfHalf s

/-- Releases the slot of a line and epoch (R239). -/
def dropSlot (dla ep : Nat) (s : State) : State :=
  { s with tr := { s.tr with slots := s.tr.slots.filter (fun x => !(x.dla == dla && x.epoch == ep)) } }

/-! ### Location -/

/-- A dense entry shows a form that R107 forbids. -/
def denseBad (d : DenseEntry) : Bool := d.valid && decide (191 < d.slot)

/-- The location of a line (R110): a slot of the write buffer that holds its newest value is listed in the DRAM-cache
tags and serves the line (R38); else the eaves entry, else the dense entry decides; a line whose eaves set was lost reads as poison (R195). -/
def resolve (s : State) (dla : Nat) : Resolved :=
  let d := denseOf s (lpnOf dla)
  match newestSlot s dla with
  | some _ => .buffer dla
  | none =>
    match (if d.eov then eavesOf s dla else none) with
    | some e => if e.poison then .poison else .medium (eavesLoc s dla e)
    | none =>
      if d.poison || s.tr.lostLines.contains dla then .poison
      else if d.valid then .medium (denseLoc d dla)
      else .zero

/-- The content of a place on the medium or in a staged row; an unfilled or pad position is all zero (R121). -/
def cellAt (s : State) (l : Loc) : RawSector :=
  match Table.get? s.tr.cells (locKey l) with
  | some c => c.raw
  | none => 0

/-- What a place holds besides its content; none for a pad or an empty position. -/
def ownerAt (s : State) (l : Loc) : Option CellOwner := (Table.get? s.tr.cells (locKey l)).map (·.owner)

/-! ### Commit and restart -/

/-- An epoch's records enter the persistent image (R247, R253). -/
def imageCommit (ep : Nat) (s : State) : State :=
  { s with tr := { s.tr with
    image := (s.tr.log.filter (fun x => decide (x.1 ≤ ep))).foldl (fun m x => applyRec x.1 m x.2) s.tr.image
    log := s.tr.log.filter (fun x => !decide (x.1 ≤ ep)) } }

end Sys2Proof.Machine
end

