-- ==== Sys2Proof/Machine/Place.lean ====
section
/-! DEFINITION. Stripes: allocation, filling, rounds, padding, release, failure and reclamation (03, 04, 06). -/

namespace Sys2Proof.Machine

/-! ### Stripes and courses -/

/-- A stripe that is not FREE. -/
def stripeAt (s : State) (k : Nat) : Option Stripe := Table.get? s.tr.stripes k

/-- Changes a stripe. -/
def modStripe (k : Nat) (f : Stripe → Stripe) (s : State) : State :=
  { s with tr := { s.tr with stripes := Table.modify s.tr.stripes k f } }

/-- The bit of a die in MED_LOST (R228). -/
def dieBit (stack group : Nat) : Nat := 8 * stack + group

/-- The die is lost or retired (R217, R228). -/
def dieLost (s : State) (stack group : Nat) : Bool := decide (s.prot.lostDie / 2 ^ dieBit stack group % 2 = 1)

/-- The course holds nothing and never will: RETIRED, or on a lost die (R215, R223). -/
def courseGone (s : State) (stack k : Nat) : Bool :=
  (courseOf s (courseKey stack k)).state == 7 || dieLost s stack (stripeGroup k)

/-- Stacks whose course of the stripe is gone. -/
def goneStacks (s : State) (k : Nat) : List Nat := (List.range 8).filter (fun t => courseGone s t k)

/-- The stripe is free: all its courses are FREE, one RETIRED course allowed (R135, R215). -/
def stripeFree (s : State) (k : Nat) : Bool :=
  (stripeAt s k).isNone && decide ((goneStacks s k).length ≤ 1)
    && (List.range 8).all (fun t => courseGone s t k || (courseOf s (courseKey t k)).state == 0)

/-- A stripe's wear: the largest WEAR of its courses (R138). -/
def stripeWear (s : State) (k : Nat) : Nat :=
  (List.range 8).foldl (fun a t => max a (courseOf s (courseKey t k)).wear) 0

/-- The stack that holds parity (R30, R215). -/
def parityStack (k : Nat) (absent : Option Nat) : Nat :=
  let p := pStackOf (stripePart k) (stripeCourse k)
  if absent = some p then (p + 1) % 8 else p

/-- The stacks that hold a member. -/
def Stripe.members (x : Stripe) : List Nat := (List.range 8).filter (fun t => x.absent != some t && !x.lost.contains t)

/-- The stacks that hold data. -/
def Stripe.dataStacks (x : Stripe) : List Nat := x.members.filter (fun t => t != x.pStack)

/-- A free unit, a sector slot or a page slot, on a stack. -/
def Stripe.hasRoom (x : Stripe) (t : Nat) : Bool :=
  x.dataStacks.contains t && decide (nthD x.fill t 0 < unitCount x.fast)

/-- Changes the state of the courses of a stripe. -/
def setCourses (k : Nat) (st : Nat) : List Nat → State → State
  | [], s => s
  | t :: ts, s => setCourses k st ts (putCourse (courseKey t k) { courseOf s (courseKey t k) with state := st } s)

/-! ### Allocation -/

/-- The first stripe of a group and partition that passes a test, among n from a course on. -/
def findStripe (g p : Nat) (ok : Nat → Bool) : Nat → Nat → Option Nat
  | 0, _ => none
  | n + 1, c => if ok (stripeKey g p c) then some (stripeKey g p c) else findStripe g p ok n (c + 1)

/-- Stripes of a group that are not free. -/
def notFreeCount (s : State) (g : Nat) : Nat :=
  let a := s.tr.stripes.countP (fun x => stripeGroup x.1 == g)
  let b := ((s.tr.maps.course.filter (fun x => stripeGroup (x.1 % 1048576) == g)).map (·.1 % 1048576)).dedup
  a + b.countP (fun k => (stripeAt s k).isNone && !stripeFree s k)

/-- Free stripes of a group (R135). -/
def freeCount (s : State) (g : Nat) : Nat :=
  if 2 ≤ ((List.range 8).filter (fun t => dieLost s t g)).length then 0 else 131072 - notFreeCount s g

/-- The lowest wear among the free stripes of a group. -/
def lowestWear (s : State) (g : Nat) : Nat :=
  if (List.range 32).any (fun p => (findStripe g p (fun k => stripeFree s k && stripeWear s k == 0) 4096 0).isSome) then 0
  else
    (s.tr.maps.course.filter (fun x => stripeGroup (x.1 % 1048576) == g && stripeFree s (x.1 % 1048576))).foldl
      (fun a x => min a (stripeWear s (x.1 % 1048576))) (2 ^ 25)

/-- Work queued on a busy-table entry (R138): one for a claim that stands, and one for every stripe of the partition with
rounds or resets still to run (DESIGN CHOICE, log 100). -/
def queuedWork (s : State) (g p : Nat) : Nat :=
  (if (busyAt s g p).state = 0 then 0 else 1)
    + s.tr.stripes.countP (fun x => x.1 / 4096 == g * 32 + p && (!x.2.rounds.isEmpty || !x.2.resets.isEmpty))

/-- The floor of free stripes for a stream and work class (Table 04-7): in Read-Only, refresh and rebuild take COLLECT
stripes down to 8 (R175, R220). -/
def floorOf (s : State) (stream cls : Nat) : Nat :=
  if stream = 3 then 8
  else if stream = 2 then if s.tr.readOnly && (cls == 1 || cls == 7) then 8 else 512
  else if s.tr.readOnly then 8
  else 544

/-- Dense stripes held with Q (R134). -/
def denseHeld (s : State) : Nat := s.tr.stripes.countP (fun x => !x.2.fast && (x.2.isOpen || !x.2.qtab.isEmpty))

/-- The stripe the allocator takes in a group for a stream: within 1,024 of the lowest wear, with the least work queued;
with a stack given, its P course is not on that stack (R118, R134, R138, R145). Among equals a group takes the first
partition from its own number on, so that the groups' P courses lie on different stacks (DESIGN CHOICE, log 26). -/
def allocate (s : State) (g stream cls : Nat) (avoid : Option Nat) : Option Nat :=
  if freeCount s g ≤ floorOf s stream cls then none
  else if stream != 0 && decide (256 ≤ denseHeld s) then none
  else
    let w := lowestWear s g + 1024
    let ok := fun k => stripeFree s k && decide (stripeWear s k ≤ w)
      && avoid != some (parityStack k (goneStacks s k).head?)
    ((List.range 32).map (fun i => (g + i) % 32)).foldl (fun best p =>
      match findStripe g p ok 4096 0 with
      | none => best
      | some k =>
        match best with
        | none => some k
        | some b => if queuedWork s g p < queuedWork s g (stripePart b) then some k else best) none

/-- The stream's own work class (Table 03-4): that of its pad rounds and its ledgers (R156). -/
def streamCls (stream : Nat) : Nat := if stream = 1 then 3 else if stream = 2 then 4 else 2

/-- Opens a stripe for a stream (R117): its courses leave FREE together, in one mode (R67, R115). -/
def openStripe (k stream : Nat) (s : State) : State :=
  let absent := (goneStacks s k).head?
  let x : Stripe :=
    { stream := stream, fast := stream == 0, pStack := parityStack k absent, absent := absent, cls := streamCls stream
      sweep := s.ck.sweeps }
  let s := { s with tr := { s.tr with stripes := Table.put s.tr.stripes k x } }
  x.members.foldl (fun s t =>
    putCourse (courseKey t k)
      { courseOf s (courseKey t k) with state := 1, fast := stream == 0, stream := stream, closed := 0 } s) s

/-- The open stripe of a group and stream (R117). -/
def openOf (s : State) (g stream : Nat) : Option (Nat × Stripe) :=
  s.tr.stripes.find? (fun x => stripeGroup x.1 == g && x.2.stream == stream && x.2.isOpen)

/-- The groups from one on, in rotation. -/
def groupsFrom (r : Nat) : List Nat := (List.range 8).map (fun i => (r + i) % 8)

/-- The first group in a list whose open stripe takes a unit on a stack; a group without an open stripe opens one in its
turn (R118). -/
def findRoom (stream cls t : Nat) : List Nat → State → Option Nat × State
  | [], s => (none, s)
  | g :: gs, s =>
    match openOf s g stream with
    | some (k, x) => if x.hasRoom t then (some k, s) else findRoom stream cls t gs s
    | none =>
      match allocate s g stream cls none with
      | none => findRoom stream cls t gs s
      | some k =>
        let s := openStripe k stream s
        match stripeAt s k with
        | some x => if x.hasRoom t then (some k, s) else findRoom stream cls t gs s
        | none => findRoom stream cls t gs s

/-! ### Rows and rounds -/

/-- The place of a position in a stripe. -/
def locOf (k t : Nat) (fast : Bool) (n : Nat) : Loc :=
  { stack := t, group := stripeGroup k, part := stripePart k, course := stripeCourse k, slot := n, fast := fast }

/-- Row r is staged on all data courses (R91). The ledger rows follow once row 509 has passed, for the ledger records its
drift (R116, R160; DEDUCED, log 99). -/
def roundReady (x : Stripe) (r : Nat) : Bool :=
  if 510 ≤ r then decide (r < 512) && decide (510 ≤ x.passed)
  else x.dataStacks.all (fun t => decide (r < rowsStaged x.fast (nthD x.fill t 0)))

/-- The work class of a round: that of the relocated pages with a part in it (R173), else the stream's own. -/
def rowClass (x : Stripe) (r : Nat) : Nat := Table.getD x.rowCls r x.cls

/-- A row takes the class of a relocated page; where pages of several kinds share it, the lowest class code (DESIGN CHOICE,
log 101). -/
def claimRow (cls : Nat) (m : Table Nat) (r : Nat) : Table Nat :=
  Table.put m r (match Table.get? m r with
    | some c => min c cls
    | none => cls)

/-- The XOR of the other members at a sector position: parity, and what a flashing read returns (R31, R94). -/
def xorOthers (s : State) (k : Nat) (x : Stripe) (t n : Nat) : RawSector :=
  (x.members.filter (fun u => u != t)).foldl (fun a u => a ^^^ cellAt s (locOf k u x.fast n)) 0

/-- Puts a sector into a cell. -/
def putCell (l : Loc) (raw : RawSector) (o : CellOwner) (s : State) : State :=
  { s with tr := { s.tr with cells := Table.put s.tr.cells (locKey l) ⟨raw, o⟩ } }

/-- Forms the parity of a row: every sector with a part in it, outer-code, ledger and metadata sectors included (R31,
R91). -/
def formParity (k : Nat) (x : Stripe) (r : Nat) (s : State) : State :=
  (rowTouch x.fast r).foldl (fun s n =>
    let v := xorOthers s k x x.pStack n
    if v = 0 then s else putCell (locOf k x.pStack x.fast n) v .parity s) s

/-- The raw content of a row of a course, byte i of the row in bits [8i+7:8i] (R26). -/
def rowRaw (s : State) (k t : Nat) (fast : Bool) (r : Nat) : Nat :=
  (rowTouch fast r).foldl (fun a n =>
    let v := (cellAt s (locOf k t fast n)).toNat
    a + (if sectorByte n < r * rowBytes fast then v >>> (8 * (r * rowBytes fast - sectorByte n))
      else v <<< (8 * (sectorByte n - r * rowBytes fast)))) 0 % 2 ^ (8 * rowBytes fast)

/-- Q of a round: the sum over the data courses of 0x02^s times row r of the course on stack s (R129). -/
def qRow (s : State) (k : Nat) (x : Stripe) (r : Nat) : Nat :=
  (List.range 8).foldl (fun a i =>
    xtimes 2048 a ^^^ (if x.dataStacks.contains (7 - i) then rowRaw s k (7 - i) false r else 0)) 0

/-- Puts a sector at the next position of a course of an open fast stripe; the stripe closes to filling when every data
course is full. -/
def placeSector (k t : Nat) (raw : RawSector) (o : CellOwner) (s : State) : Loc × State :=
  match stripeAt s k with
  | none => (locOf k t true 0, s)
  | some x =>
    let n := nthD x.fill t 0
    let l := locOf k t true n
    let x := { x with fill := setNth x.fill t (n + 1) }
    let x := { x with isOpen := x.dataStacks.any (fun u => decide (nthD x.fill u 0 < unitCount true)) }
    (l, { s with tr := { s.tr with
      cells := Table.put s.tr.cells (locKey l) ⟨raw, o⟩
      stripes := Table.put s.tr.stripes k x } })

/-- The data course of a stripe that takes the 32 Q sectors of a round: the courses in rotation, in ascending stack
order, those with fewer than 32 free slots skipped (R130). -/
def qStack (x : Stripe) (r : Nat) : Option Nat :=
  let ds := x.dataStacks
  let n := ds.length
  ((List.range n).map (fun i => nthD ds ((r + i) % n) 0)).find? (fun t => decide (nthD x.fill t 0 + 32 ≤ 3264))

/-- The open DRAIN stripe of a group with room for a round's Q, opening one where there is none (R130). -/
def qStripe (g r : Nat) (s : State) : Option (Nat × Nat) × State :=
  match openOf s g 0 with
  | some (k, x) => ((qStack x r).map (fun t => (k, t)), s)
  | none =>
    match allocate s g 0 2 none with
    | none => (none, s)
    | some k =>
      let s := openStripe k 0 s
      (((stripeAt s k).bind (fun x => qStack x r)).map (fun t => (k, t)), s)

/-- Stages the last n of the 32 Q sectors of a round: Q sector k holds bytes 64k to 64k + 63 of Q (R130). -/
def placeQ (dense round k t q : Nat) : Nat → State → State
  | 0, s => s
  | n + 1, s =>
    placeQ dense round k t q n
      (placeSector k t (mkSector (BitVec.ofNat 512 (q >>> (512 * (31 - n)))) 0 0 (tagByte false false true false))
        (.q dense round) s).2

/-- Forms Q of a round of a dense stripe and stages it in the partner group (R129, R130); false where there is no room. -/
def formQ (k r : Nat) (s : State) : Bool × State :=
  match qStripe (stripeGroup k ^^^ 4) r s with
  | (none, s) => (false, s)
  | (some (qk, t), s) =>
    match stripeAt s qk with
    | none => (false, s)
    | some qx =>
      let l := locOf qk t true (nthD qx.fill t 0)
      let q := match stripeAt s k with
        | some x => qRow s k x r
        | none => 0
      let s := placeQ k r qk t q 32 s
      (true, logOnly s.per.openEpoch (.qtab k r (some l)) (modStripe k (fun x => { x with qtab := Table.put x.qtab r l }) s))

/-! ### Metadata and ledgers -/

/-- Encrypts a sector's content of the device's own metadata under the internal media key (R116, R436). -/
def mediaSeal (s : State) (c n : Nat) (d : Line) : Line :=
  BitVec.ofNat 512 (xtsLine (Config.mediaKey s.sec.salt).toNat (Config.mediaTweak c n) false d.toNat)

/-- Puts the sectors of a page into cells: 64 line sectors and the 4 sectors of their outer code (R25, R182). -/
def putPage (k t p : Nat) (owner : CellOwner) (lines : List RawSector) (s : State) : State :=
  let s := (List.range 64).foldl (fun s i => putCell (locOf k t false (p * 68 + i)) (lines.getD i 0) owner s) s
  let check := outerSectors ((List.range 64).map (fun i => lines.getD i 0))
  (List.range 4).foldl (fun s i => putCell (locOf k t false (p * 68 + 64 + i)) (check.getD i 0) .outer s) s

/-- Fills one page slot of a group's open META stripe, opening one where there is none (R256). Its bytes, records of the
log, the checkpoint and reverse maps, are free (log 67): the manual places no field in them, and only Replay reads them,
which the operand of its commands stands for. Answers where the page lies. -/
def metaPage (g : Nat) (s : State) : Option Loc × State :=
  let s := match openOf s g 3 with
    | some _ => s
    | none =>
      match allocate s g 3 2 none with
      | some k => openStripe k 3 s
      | none => s
  match openOf s g 3 with
  | none => (none, s)
  | some (k, x) =>
    match x.dataStacks.find? (fun t => decide (nthD x.fill t 0 < unitCount false)
        && x.dataStacks.all (fun u => decide (nthD x.fill t 0 ≤ nthD x.fill u 0))) with
    | none => (none, s)
    | some t =>
      let p := nthD x.fill t 0
      let fill := setNth x.fill t (p + 1)
      let s := modStripe k (fun y => { y with
        fill := fill, isOpen := y.dataStacks.any (fun u => decide (nthD fill u 0 < unitCount false)) }) s
      let n := s.freeCtr
      let s := { s with freeCtr := n + 64 }
      (some (locOf k t false (p * 68)), putPage k t p .metadata
        ((List.range 64).map (fun i => mkSector (Config.freeLine (n + i)) 0 0 (tagByte false false false false))) s)

/-- Writes n page slots of metadata. -/
def metaPages (g : Nat) : Nat → State → State
  | 0, s => s
  | n + 1, s => metaPages g n (metaPage g s).2

/-- A number of 4 bytes of a ledger. -/
def word32 (v : Nat) : List Nat := bytesOf v 4

/-- Epochs of the data that a course holds, by the sectors of a fast one and the pages of a dense one. -/
def courseEpochs (s : State) (k t : Nat) (x : Stripe) : List Nat :=
  if x.fast then
    s.tr.cells.filterMap (fun c =>
      if c.1 / 16384 = courseKey t k then
        match c.2.owner with
        | .line _ ep => some ep
        | _ => none
      else none)
  else (x.pages.filter (fun p => p.1 / 192 == t)).map (fun p => p.2.2)

/-- The bytes of a course's ledger before its CRC (Tables 04-5 and 05-3), `rmap` the place of its reverse map. -/
def ledgerBytes (s : State) (k t : Nat) (x : Stripe) (rmap : Option Loc) : List Nat :=
  let eps := courseEpochs s k t x
  let ident := field 0 3 t + field 3 3 (stripeGroup k) + field 6 5 (stripePart k) + field 11 12 (stripeCourse k)
    + flag 23 x.fast + field 24 2 x.stream
  let used := s.tr.cells.countP (fun c =>
    c.1 / 16384 == courseKey t k && decide (c.1 % 16384 < ledgerAt x.fast))
  let head := bytesOf ident 8 ++ word32 (courseOf s (courseKey t k)).wear ++ bytesOf (nthD x.ptime t 0) 8
    ++ bytesOf (nthD x.optime t 0) 8 ++ word32 (eps.foldl min (eps.headD 0)) ++ word32 (eps.foldl max 0)
    ++ word32 (nthD x.efirst t 0) ++ word32 (nthD x.elast t 0)
    ++ [((nthD x.tmax t 0 + 256) % 256).toNat, (flag 0 x.agePad + flag 1 (x.fresh.contains t)),
      (Config.refRevision (8 * t + stripeGroup k)).toNat] ++ List.replicate 57 0
  let body :=
    if x.fast then
      let back := match rmap with
        | some l => field 0 3 l.group + field 3 5 l.part + field 8 12 l.course + field 20 44 (sectorByte l.slot)
        | none => 0
      bytesOf back 8 ++ word32 (field 0 12 used + field 12 12 (nthD x.fill t 0 - used))
    else
      ((List.range 192).map (fun p => match Table.get? x.pages (t * 192 + p) with
        | some q => word32 (q.1 % 2 ^ 30 + 2 ^ 30)
        | none => word32 0)).flatten
      ++ ((List.range 192).map (fun p => bytesOf (((Table.get? x.pages (t * 192 + p)).map (·.2)).getD 0 % 4096) 2)).flatten
  let n := ledgerCount x.fast * 64 - 4
  (head ++ body ++ List.replicate n 0).take n

/-- Forms the ledger of a course: its content with a CRC-32, encrypted, in ledger sectors (R116). -/
def putLedger (k t : Nat) (x : Stripe) (rmap : Option Loc) (s : State) : State :=
  let bytes := ledgerBytes s k t x rmap
  let all := bytes ++ word32 (crc32 bytes).toNat
  (List.range (ledgerCount x.fast)).foldl (fun s i =>
    let d := (all.drop (64 * i)).take 64
    let v := (d.zipIdx).foldl (fun a b => a + b.1 * 256 ^ b.2) 0
    putCell (locOf k t x.fast (ledgerAt x.fast + i))
      (mkSector (mediaSeal s (courseKey t k) i (BitVec.ofNat 512 v)) 0 0 (tagByte false false x.fast false)) .ledger s) s

/-- Forms the ledgers of a stripe's data courses; a fast course's reverse map goes to the META stream, 3,264 entries of 5
bytes in 4 pages (R116). -/
def formLedgers (k : Nat) (x : Stripe) (s : State) : State :=
  x.dataStacks.foldl (fun s t =>
    if x.fast then
      let r := metaPage (stripeGroup k) s
      putLedger k t x r.1 (metaPages (stripeGroup k) 3 r.2)
    else putLedger k t x none s) s

/-- Begins the next round of a stripe where its rows are staged and fewer than 4 rounds are in progress, rows
in ascending order (R71, R91, R93): parity and, for a dense stripe, Q are formed. -/
def startRound (k : Nat) (s : State) : State :=
  match stripeAt s k with
  | none => s
  | some x =>
    let r := x.begun
    if roundReady x r && decide (x.rounds.length < 4) && !x.reclaim && !x.failed then
      let s := if r = 510 then formLedgers k x s else s
      let q := if x.fast then (true, s) else formQ k r s
      if q.1 then
        let s := formParity k x r q.2
        modStripe k (fun y => { y with begun := r + 1, rounds := y.rounds ++ [{ row := r, left := y.members, since := s.now }] }) s
      else q.2
    else s

/-- Begins at most n rounds of a stripe. -/
def startRounds (k : Nat) : Nat → State → State
  | 0, s => s
  | n + 1, s => startRounds k n (startRound k s)

/-- Units that complete the rows 0 to r of a course. -/
def unitsFor (fast : Bool) (r : Nat) : Nat :=
  min (unitCount fast) (((r + 1) * rowBytes fast + unitBytes fast - 1) / unitBytes fast)

/-- Completes the rows up to r of every data course with pad sectors (R121). -/
def padTo (k r : Nat) (s : State) : State :=
  modStripe k (fun x =>
    let n := unitsFor x.fast r
    let fill := (List.range 8).map (fun t =>
      if x.dataStacks.contains t then max (nthD x.fill t 0) n else nthD x.fill t 0)
    { x with fill := fill
             isOpen := x.isOpen && x.dataStacks.any (fun u => decide (nthD fill u 0 < unitCount x.fast)) }) s

/-- The highest row in which anything is staged. -/
def topRow (x : Stripe) : Option Nat :=
  let n := x.dataStacks.foldl (fun a t => max a (nthD x.fill t 0)) 0
  if n = 0 then none else some (min 509 ((n * unitBytes x.fast - 1) / rowBytes x.fast))

/-- Pads what is staged and starts its rounds at once. -/
def padAndStart (k : Nat) (s : State) : State :=
  match (stripeAt s k).bind topRow with
  | none => s
  | some r => startRounds k 4 (padTo k r s)

/-- Completes a stripe with pad rounds to its end (R118, R156). -/
def padOut (k : Nat) (s : State) : State := startRounds k 4 (padTo k 511 s)

/-! ### Invalid locations and reclamation -/

/-- A location becomes invalid in an epoch (R141). -/
def invalidate (l : Loc) (ep : Nat) (s : State) : State :=
  modStripe l.stripe (fun x => { x with emptyEp := max x.emptyEp ep, emptyGen := s.sched.rgen }) s

/-- VALID of a course (R114): the pages or sectors of it that map entries name. -/
def courseValid (s : State) (t k : Nat) : Nat :=
  s.tr.maps.eaves.countP (fun x => !x.2.poison && stripeKey x.2.group x.2.part x.2.course == k
      && pageStack (lpnOf x.1) (denseOf s (lpnOf x.1)).alt == t)
    + s.tr.maps.dense.countP (fun x => x.2.valid && stripeKey x.2.group x.2.part x.2.course == k
      && pageStack x.1 x.2.alt == t)

/-- Valid sectors and pages of a stripe's courses. -/
def validCount (s : State) (k : Nat) : Nat := ((List.range 8).map (fun t => courseValid s t k)).foldl (· + ·) 0

/-- The survey ends with the last course it had to visit (R166). -/
def endSurvey (s : State) : State :=
  if s.dr.survey && s.dr.toSurvey.isEmpty then { s with dr := { s.dr with survey := false, unknown := false } } else s

/-- The highest waiting level is shown, and a change of it records an event (R172, R178). -/
def updateTop (s : State) : State :=
  let t := topLevel s
  if t = s.dr.top then s
  else
    let s := { s with dr := { s.dr with top := t } }
    event (if t = 4 then .refreshCritical else if t = 3 then .refreshUrgent else .refreshLow) 7 [t] s

/-- The stripe goes to RECLAIM (R115); the survey skips its courses (R166). -/
def toReclaim (k : Nat) (s : State) : State :=
  match stripeAt s k with
  | none => s
  | some x =>
    endSurvey (setCourses k 5 x.members (modStripe k (fun y =>
      { y with reclaim := true, isOpen := false, rounds := [], level := 0 })
      { s with dr := { s.dr with toSurvey := s.dr.toSurvey.filter (fun c => c % 1048576 != k) } }))

/-- Every course of the stripe is VERIFIED. -/
def stripeVerified (s : State) (k : Nat) (x : Stripe) : Bool :=
  x.members.all (fun t => (courseOf s (courseKey t k)).state == 3)

/-- Releases the Q table of a stripe, and with it its Q sectors: no round refers to them any more, their raw bytes stay in
the rows they were programmed in (R31, R133), and the log records the release of each (R254). -/
def releaseQ (k : Nat) (s : State) : State :=
  match stripeAt s k with
  | none => s
  | some x => x.qtab.foldl (fun s q => logOnly s.per.openEpoch (.qtab k q.1 none) s)
      (modStripe k (fun x => { x with qtab := [] }) s)

/-! ### Staging lines -/

/-- The first group of a list that can open a DRAIN stripe whose P course is not on a stack, with the stripe. -/
def openable (t : Nat) (s : State) (gs : List Nat) : Option (Nat × Nat) :=
  gs.findSome? (fun g => (allocate s g 0 2 (some t)).map (fun k => (g, k)))

/-- Where a line of a stack is drained: the groups in rotation, each opening a stripe where it has none; when every group
is skipped, one completes its stripe with pad rounds and opens another: the first in the rotation whose stripe has no free
slot on the stack, or failing that the first, as long as the floors let any (R118). -/
def chooseDrain (t : Nat) (s : State) : Option Nat × State :=
  match findRoom 0 2 t (groupsFrom s.tr.rotor) s with
  | (some k, s) => (some k, s)
  | (none, s) =>
    let gs := groupsFrom s.tr.rotor
    let isFull := fun (g : Nat) => match openOf s g 0 with
      | some (_, x) => x.pStack != t && !x.hasRoom t
      | none => false
    match openable t s (gs.filter isFull ++ gs.filter (fun g => !isFull g)) with
    | none => (none, s)
    | some (g, k) =>
      let s := match openOf s g 0 with
        | some (old, _) => modStripe old (fun x => { x with isOpen := false }) (padOut old s)
        | none => s
      (some k, openStripe k 0 s)

/-- The stack a line of a page is drained to (R21, R221). -/
def drainStack (s : State) (lpn : Nat) : Nat := pageStack lpn (denseOf s lpn).alt

/-- A page of a lost stack that rebuild has not yet placed: its writes wait (R222). -/
def awaitsRebuild (s : State) (lpn : Nat) : Bool :=
  !(denseOf s lpn).alt && decide (s.prot.lostStack / 2 ^ stackOfLpn lpn % 2 = 1)

/-- Stages a slot of the write buffer into the eaves: its entry with STAGED set and the new location (R118, R119), HEAT
by R120 unless the slot is restaged. The slot waits where its set is full (R122), where its page awaits rebuild (R222),
or where no stripe takes it. -/
def stageSlot (x : WbSlot) (restage : Bool) (s : State) : State :=
  let lpn := lpnOf x.dla
  let old := eavesOf s x.dla
  if awaitsRebuild s lpn || (old.isNone && decide (8 ≤ setCount s x.dla)) then s
  else
    match chooseDrain (drainStack s lpn) s with
    | (none, s) => s
    | (some k, s) =>
      let r := placeSector k (drainStack s lpn) x.raw (.line x.dla x.epoch) s
      let l := r.1
      let s := r.2
      let heat := match old with
        | none => 0
        | some e => if restage then e.heat else if e.heat < 7 then e.heat + 1 else 7
      let e : EavesEntry :=
        { group := l.group, part := l.part, course := l.course, slot := l.slot, epoch := x.epoch % 4096
          heat := heat, staged := true }
      let s := match old with
        | some o => if o.poison then s else invalidate (eavesLoc s x.dla o) x.epoch s
        | none => if (denseOf s lpn).valid then invalidate (denseLoc (denseOf s lpn) x.dla) x.epoch s else s
      let s := mapChange x.epoch (.eaves x.dla e) s
      { s with tr := { s.tr with
        slots := putSlot { x with st := .staged l } s.tr.slots, rotor := (l.group + 1) % 8 } }

/-- Discards an accepted write that no DRAIN stripe can take in Read-Only: a poison entry, and no copy of the line remains
that would still read as data (R148); where its set is full, the lines of the page that the dense entry decides (R149). -/
def discardWrite (dla ep : Nat) (s : State) : State :=
  let full := (eavesOf s dla).isNone && decide (8 ≤ setCount s dla)
  let s := poisonEntry ep dla (dropSlot dla ep s)
  dropCopies (fun d => d == dla || (full && byDense s (lpnOf dla) d)) s

/-- The line reads as poison apart from a write of it: by an older slot of the write buffer, by its entry, its page's
entry, a lost set, or its sector's TAG (R151, Table 06-4). -/
def poisonBefore (s : State) (dla ep : Nat) : Bool :=
  match s.tr.slots.find? (fun y => y.dla == dla && y.epoch != ep) with
  | some y => secPoison y.raw
  | none =>
    let d := denseOf s (lpnOf dla)
    match eavesOf s dla with
    | some e => e.poison || secPoison (cellAt s (eavesLoc s dla e))
    | none => d.poison || s.tr.lostLines.contains dla || (d.valid && secPoison (cellAt s (denseLoc d dla)))

/-- Stages a waiting slot, or in Read-Only discards it where no DRAIN stripe can take it (R147, R148) or
where the line is poisoned (R151). -/
def stageOrDiscard (x : WbSlot) (s : State) : State :=
  if s.tr.readOnly && poisonBefore s x.dla x.epoch then discardWrite x.dla x.epoch s
  else
  let s := stageSlot x false s
  let waits := s.tr.slots.any (fun y => y.dla == x.dla && y.epoch == x.epoch && y.st == .waiting)
  if waits && s.tr.readOnly && !awaitsRebuild s (lpnOf x.dla)
      && (chooseDrain (drainStack s (lpnOf x.dla)) s).1.isNone then
    discardWrite x.dla x.epoch s
  else s

/-! ### Write-backs by relocation -/

/-- The bit of an internal DMA channel (R228): kind c of a quadrant; levelling and rebuild run on the copy channel
(DESIGN CHOICE, log 18). -/
def chanBit (q c : Nat) : Nat := 6 * q + c

/-- Quadrant of a page's home slice. -/
def quadOfLpn (lpn : Nat) : Nat := quadrantOfSlice (sliceOfLpn lpn)

/-- A DMA channel is halted. -/
def chanHalted (s : State) (b : Nat) : Bool := decide (s.prot.halted / 2 ^ b % 2 = 1)

/-- Stages a write-back that has no place yet into the eaves: it waits where its line's set is full, its page awaits
rebuild, or no stripe takes it, as a line does (R118, R122, R189). -/
def placeBack (dla : Nat) (s : State) : State :=
  match Table.get? s.tr.wbacks dla with
  | none => s
  | some w =>
    if w.dst.isSome || (w.cool && chanHalted s (chanBit (quadOfLpn (lpnOf dla)) 0)) || awaitsRebuild s (lpnOf dla)
        || ((eavesOf s dla).isNone && decide (8 ≤ setCount s dla)) then s
    else
      match chooseDrain (drainStack s (lpnOf dla)) s with
      | (none, s) => s
      | (some k, s) =>
        let r := placeSector k (drainStack s (lpnOf dla)) w.raw (.reloc dla) s
        { r.2 with tr := { r.2.tr with wbacks := Table.put r.2.tr.wbacks dla { w with dst := some r.1 } } }

/-- Stages every write-back that waits for a stripe. -/
def placeBacks (s : State) : State := (s.tr.wbacks.map (·.1)).foldl (fun s d => placeBack d s) s

/-! ### Failure of a course during filling -/

/-- The rows that hold a sector position have all passed their check on a stack. -/
def rowsChecked (x : Stripe) (t n : Nat) : Bool :=
  x.checked.contains (t * 512 + firstRow x.fast n) && x.checked.contains (t * 512 + lastRow x.fast n)

/-- The lines of a failed DRAIN stripe whose rows have not passed their read-back go to a new stripe (R143). -/
def restageLines (k : Nat) (s : State) : State :=
  s.tr.slots.foldl (fun s x =>
    match x.st with
    | .staged l =>
      if l.stripe = k then
        stageSlot x true { s with tr := { s.tr with slots := putSlot { x with st := .waiting } s.tr.slots } }
      else s
    | .waiting => s) s

/-- Relocation copies of a failed DRAIN stripe that have not passed their read-back go to a new stripe (R143). -/
def restageBacks (k : Nat) (s : State) : State :=
  placeBacks { s with tr := { s.tr with wbacks := s.tr.wbacks.map (fun w => match w.2.dst with
    | some l => if l.stripe = k then (w.1, { w.2 with dst := none }) else w
    | none => w) } }

/-- Q of the rounds whose Q sectors lie in rows of a failed DRAIN stripe not yet read back is placed anew (R143). -/
def restageQ (k : Nat) (s : State) : State :=
  match stripeAt s k with
  | none => s
  | some y =>
    s.tr.stripes.foldl (fun s x =>
      (x.2.qtab.filter (fun q => q.2.stripe == k
          && !(rowsChecked y q.2.stack q.2.slot && rowsChecked y q.2.stack (q.2.slot + 31)))).foldl
        (fun s q => (formQ x.1 q.1 s).2) s) s

/-- Metadata in rows of a failed META stripe that have not passed goes to a new one (R143). -/
def restageMeta (k : Nat) (s : State) : State :=
  match stripeAt s k with
  | none => s
  | some x =>
    if x.stream = 3 then
      metaPages (stripeGroup k) (x.dataStacks.foldl (fun a t =>
        a + (nthD x.fill t 0 - x.passed * rowBytes false / unitBytes false)) 0) s
    else s

/-- What a stripe that closed at its last complete round still holds staged is placed in new stripes (R73, R143). -/
def restage (k : Nat) (s : State) : State := restageMeta k (restageQ k (restageBacks k (restageLines k s)))

/-- DRAIN rounds that hold a line of a closed epoch and have not begun are padded and started at once (R121, R143). -/
def padClosing (s : State) : State :=
  let ks := s.tr.slots.filterMap (fun x =>
    match x.st with
    | .staged l =>
      match stripeAt s l.stripe with
      | some y => if x.epoch ≠ s.per.openEpoch ∧ y.begun ≤ lastRow true l.slot ∧ !y.failed then some l.stripe else none
      | none => none
    | .waiting => none)
  ks.dedup.foldl (fun s k => padAndStart k s) s

/-- A DRAIN or META course fails: the stripe closes at its last complete round, the course is FAILED, and what has not
passed its read-back is staged anew (R143). -/
def drainFail (k t : Nat) (s : State) : State :=
  let s := event .courseFailed 7 [k, t] s
  let s := putCourse (courseKey t k) { courseOf s (courseKey t k) with state := 4 } s
  let s := modStripe k (fun x =>
    { x with isOpen := false, failed := true, rounds := [], begun := x.passed, bad := t :: x.bad }) s
  padClosing (restage k s)

/-- A page that was switched into a stripe is still mapped there. -/
def mapsInto (s : State) (k : Nat) : Bool := decide (0 < validCount s k)

/-- A FOLD or COLLECT course fails: the stripe closes at its last complete round, the course is FAILED, and the relocations
that staged into it are copied again from their sources, which the next steps read again (R142). A stripe that already
holds switched pages keeps them until garbage collection has emptied it (R136, R143); any other goes to RECLAIM. -/
def copyFail (k t : Nat) (s : State) : State :=
  let s := putCourse (courseKey t k) { courseOf s (courseKey t k) with state := 4 } s
  let s := { s with tr := { s.tr with relocs := s.tr.relocs.map (fun r =>
    match r.2.target with
    | some l => if l.stripe = k then (r.1, { r.2 with target := none, got := [], again := true }) else r
    | none => r) } }
  let s := modStripe k (fun x =>
    { x with isOpen := false, failed := true, rounds := [], begun := x.passed, bad := t :: x.bad
             emptyEp := max x.emptyEp s.per.openEpoch, emptyGen := s.sched.rgen }) s
  if mapsInto s k then s else updateTop (toReclaim k (releaseQ k s))

/-- A course of a stripe reports a program FAIL or fails its check. -/
def courseFail (k t : Nat) (s : State) : State :=
  match stripeAt s k with
  | none => s
  | some x => if x.stream = 0 ∨ x.stream = 3 then drainFail k t s else copyFail k t s

/-! ### Spare margin -/

/-- Data courses of spare margin at format (Table 04-6). -/
def spareFormat : Nat := 1593021

/-- The level of R150: 0 below 90 %, 1, 2 at 98 %, 3 in Read-Only. -/
def spareLevel (s : State) : Nat :=
  if s.tr.readOnly then 3
  else if spareFormat * 98 ≤ s.tr.spare * 100 then 2
  else if spareFormat * 90 ≤ s.tr.spare * 100 then 1
  else 0

/-- Raises the event of each crossing once (R150): entry to Read-Only passes no threshold of the margin itself. -/
def checkSpare (s : State) : State :=
  let l := spareLevel s
  let was := s.tr.spareLvl
  if was < l then
    let s := { s with tr := { s.tr with spareLvl := l } }
    if l = 3 then event .readOnlyEntered 7 [] s
    else
      let s := if was < 1 then event .spareMargin 7 [1] s else s
      if l = 2 then event .spareMargin 7 [2] s else s
  else s

/-- Counts data courses into the consumed spare margin (R144). -/
def consumeSpare (n : Nat) (s : State) : State := checkSpare { s with tr := { s.tr with spare := s.tr.spare + n } }

/-! ### Lost members -/

/-- A stripe loses a member: an open one closes at its last complete round, and what had not passed is staged anew
(R218, Table 06-6). -/
def loseMember (stack k : Nat) (s : State) : State :=
  match stripeAt s k with
  | none => s
  | some x =>
    if x.reclaim || !x.members.contains stack then s
    else if x.isOpen || !x.rounds.isEmpty then
      let s := modStripe k (fun y =>
        { y with lost := stack :: y.lost, isOpen := false, failed := true, rounds := [], begun := y.passed }) s
      let s := { s with tr := { s.tr with relocs := s.tr.relocs.map (fun r =>
        match r.2.target with
        | some l => if l.stripe = k then (r.1, { r.2 with target := none, got := [], again := true }) else r
        | none => r) } }
      restage k s
    else modStripe k (fun y => { y with lost := stack :: y.lost }) s

/-- The claims on a die are abandoned. -/
def dropClaims (stack group : Nat) (s : State) : State :=
  { s with sched := { s.sched with busy := s.sched.busy.map (fun x =>
    if x.1 / 32 = group ∧ x.2.stack = stack then (x.1, { x.2 with state := 0, reset := false }) else x) } }

/-- RETIRED courses of a die. -/
def retiredOnDie (s : State) (stack group : Nat) : Nat :=
  s.tr.maps.course.countP (fun x => x.2.state == 7 && x.1 / 131072 == stack * 8 + group)

/-- A die is lost: its stripes lose a member (R217, R218). Its courses that hold nothing are consumed at once, the others
when their stripes are reset (R144, R223). -/
def loseDie (stack group : Nat) (s : State) : State :=
  if dieLost s stack group then s
  else
    let held := s.tr.stripes.countP (fun x => stripeGroup x.1 == group && x.2.members.contains stack)
    let s := if lostStripes s = 0 then { s with prot := { s.prot with pagesDone := 0 } } else s
    let s := consumeSpare (131072 - held - retiredOnDie s stack group) s
    let s := { s with prot := { s.prot with lostDie := s.prot.lostDie + 2 ^ dieBit stack group } }
    let s := dropClaims stack group s
    ((s.tr.stripes.map (·.1)).filter (fun k => stripeGroup k == group)).foldl (fun s k => loseMember stack k s) s

/-- Degraded applies while a stripe with a lost member remains outside RECLAIM, or re-mirroring runs; it begins at the
end of the interruption (R218, Table 06-6). -/
def updateDegraded (s : State) : State :=
  let cond := decide (0 < lostStripes s) || s.dram.remir.isSome
  updateMode { s with prot := { s.prot with degraded := cond && (s.prot.degraded || s.prot.faults.isEmpty) } }

/-- A partition is retired: its stripes wait in the weak-stripe queue (R216); four retired partitions retire the die,
whose stripes are then lost (R217). -/
def retirePartition (stack group part : Nat) (s : State) : State :=
  let id := dieBit stack group * 32 + part
  if s.tr.retired.contains id then s
  else
    let s := { s with tr := { s.tr with
      retired := id :: s.tr.retired
      stripes := s.tr.stripes.map (fun x =>
        if x.1 / 4096 = group * 32 + part then (x.1, { x.2 with weak := true }) else x) } }
    if 4 ≤ s.tr.retired.countP (fun i => i / 32 == dieBit stack group) then
      updateDegraded (loseDie stack group { s with tr := { s.tr with
        stripes := s.tr.stripes.map (fun x => if stripeGroup x.1 = group then (x.1, { x.2 with weak := true }) else x) } })
    else s

end Sys2Proof.Machine
end

