-- ==== Sys2Proof/Machine/Cipher.lean ====
section
/-! DEFINITION. Lines as ciphertext: binding block, sealing and opening of sectors, version counters and leases,
generations (14). -/

namespace Sys2Proof.Machine

/-! ### Binding and sealing -/

/-- The binding block B of a line with BLK = 0 (Table 14-2). -/
def binding (kid node dla ver gen : Nat) : Nat :=
  field 6 36 dla + field 42 10 node + field 52 12 kid + field 64 32 ver + field 96 32 gen

/-- Ciphertext of a line under a key's material and mode (R437). -/
def encryptData (k : KeySlot) (b : Nat) (d : Line) : Line :=
  if k.integrity then d ^^^ BitVec.ofNat 512 (ctrStream (roundKeys (k.material.toNat % 2 ^ 256)) b)
  else BitVec.ofNat 512 (xtsLine k.material.toNat b false d.toNat)

/-- Plaintext of a line's ciphertext (R437). -/
def decryptData (k : KeySlot) (b : Nat) (c : Line) : Line :=
  if k.integrity then c ^^^ BitVec.ofNat 512 (ctrStream (roundKeys (k.material.toNat % 2 ^ 256)) b)
  else BitVec.ofNat 512 (xtsLine k.material.toNat b true c.toNat)

/-- The MAC field: the low 40 bits of AES-256-CMAC over B and the ciphertext in integrity mode (R437); the key ID in
XTS mode (R438). -/
def macField (k : KeySlot) (kid b : Nat) (c : Line) : Nat :=
  if k.integrity then
    cmac (k.material.toNat / 2 ^ 256)
      [b, c.toNat % 2 ^ 128, c.toNat / 2 ^ 128 % 2 ^ 128, c.toNat / 2 ^ 256 % 2 ^ 128, c.toNat / 2 ^ 384] % 2 ^ 40
  else kid % 4096

/-- KCV of key material (R435). -/
def kcvOf (material : BitVec 512) : BitVec 32 :=
  BitVec.ofNat 32 (aesEnc (roundKeys (material.toNat % 2 ^ 256)) 0)

/-- A key ID that is not EMPTY. -/
def keyOf (s : State) (kid : Nat) : Option KeySlot := Table.get? s.sec.kids kid

/-- A key ID serves requests: INSTALLED (Table 14-3). -/
def keyServes (s : State) (kid : Nat) : Bool :=
  match keyOf s kid with
  | some k => k.st == .installed
  | none => false

/-! ### Generations -/

/-- The walk of a segment, running or queued (R444, R445). -/
def walkOf (s : State) (seg : Nat) : Option Walk :=
  match s.sec.walks.find? (fun w => w.seg == seg) with
  | some w => some w
  | none => s.sec.queued.find? (fun w => w.seg == seg)

/-- A line is its segment's pinned line (R444): until its walk's generation is recorded (R448), a restart included (R449). -/
def isPinned (s : State) (dla : Nat) : Bool :=
  match walkOf s (segOf dla) with
  | some w => w.pinned == dla
  | none => false

/-- The generation new writes of a segment take (R444). -/
def writeGen (s : State) (seg : Nat) : Nat :=
  match walkOf s seg with
  | some w => w.gen + 1
  | none => Table.getD s.sec.gens seg 0

/-- The generation a sector is decrypted under (R442). -/
def readGen (s : State) (seg ver : Nat) : Nat :=
  match walkOf s seg with
  | some w => if ver / 2 ^ 31 % 2 = (w.gen + 1) % 2 then w.gen + 1 else w.gen
  | none => Table.getD s.sec.gens seg 0

/-! ### Sectors of the local home -/

/-- The sector a write forms: ciphertext, VER, MAC and TAG (R23, R437, R438), in the fast mode of the eaves. A poisoned
line is a poison sector (R199). -/
def sealLine (s : State) (kid dla ver ep : Nat) (d : Line) (poison : Bool) : RawSector :=
  if poison then poisonSector true ep
  else
    match keyOf s kid with
    | none => poisonSector true ep
    | some k =>
      let b := binding kid s.sgl.cfg.node dla ver (writeGen s (segOf dla))
      let c := encryptData k b d
      mkSector c ver (macField k kid b c) (tagByte false k.integrity true (ep % 2 == 1))

/-- The sector of a failed merge: its bytes as ciphertext, MAC zero and POISON set (R208). -/
def sealFailed (s : State) (kid dla ver ep : Nat) (d : Line) : RawSector :=
  match keyOf s kid with
  | none => poisonSector true ep
  | some k =>
    let b := binding kid s.sgl.cfg.node dla ver (writeGen s (segOf dla))
    mkSector (encryptData k b d) ver 0 (tagByte true k.integrity true (ep % 2 == 1))

/-- What reading a sector under a key ID gives. -/
inductive Opened where
  /-- the line's data -/
  | data (d : Line)
  /-- poison, without an alarm -/
  | poison
  /-- poison, because the sector's IMODE is not the key's mode (R451) -/
  | otherMode
  /-- poison, because the MAC failed (R452) -/
  | macFail
deriving DecidableEq, Repr

/-- Opens a sector of the local home under a key ID: poison first (R200), then a format of another code (Table 01-9),
then a never-written sector (R111), then the mode (R451), the MAC (R437) and the decryption. -/
def openSector (s : State) (kid dla : Nat) (r : RawSector) : Opened :=
  if secPoison r then .poison
  else if secFmt r ≠ 0 then .poison
  else if secBlank r then .data 0
  else
    match keyOf s kid with
    | none => .poison
    | some k =>
      if secImode r != k.integrity then .otherMode
      else
        let b := binding kid s.sgl.cfg.node dla (secVer r) (readGen s (segOf dla) (secVer r))
        if k.integrity && decide (macField k kid b (secData r) ≠ secMac r) then .macFail
        else .data (decryptData k b (secData r))

/-- The failure that opening a sector reports: an event for another mode (R451); the security alarm, SEC_MACLAST and a
Critical event for a MAC failure (R452). `src` and `node` are SEC_MACLAST's SRC and NODE. -/
def reportOpen (o : Opened) (kid dla src node : Nat) (s : State) : State :=
  match o with
  | .data _ => s
  | .poison => s
  | .otherMode => event .keyModeMismatch 10 [dla] s
  | .macFail =>
    alarm 0 (event .macFailure 10 [dla] { s with sec := { s.sec with macLast := (dla, kid, src, node) } })

/-! ### Version counters and leases -/

/-- First value of a generation's range (R439). -/
def genBase (g : Nat) : Nat := if g % 2 = 0 then 0 else 2 ^ 31

/-- Last value of a generation's range (R439). -/
def genLast (g : Nat) : Nat := genBase g + 0x7FFFFFF0

/-- Key of a version counter. -/
def ctrKey (dla : Nat) : Nat := sliceOf dla * 4096 + segOf dla

/-- The next value of a line's version counter (R439): at the factory each starts at its segment's lease of 2^22
(DESIGN CHOICE, log 5). -/
def nextVer (s : State) (dla : Nat) : Nat := Table.getD s.sec.ctrs (ctrKey dla) s.sec.ctrBase

/-- The lease in force of a segment (R440): renewed to 2^23 at the factory's first Boot (DESIGN CHOICE, log 5). -/
def leaseOf (s : State) (seg : Nat) : Nat := Table.getD s.sec.leases seg s.sec.leaseBase

/-- A write of the line must wait for a lease (R440). -/
def leaseWait (s : State) (dla : Nat) : Bool := decide (leaseOf s (segOf dla) ≤ nextVer s dla)

/-- A word of the lease log (R441). -/
def leaseWord (seg lease pass : Nat) : BitVec 32 :=
  BitVec.ofNat 32 (field 0 12 seg + field 12 10 (lease / 2 ^ 22) + field 22 6 pass)

/-- The lease that a carried record repeats (R441): by the time it is written every record before it has been programmed. -/
def carriedLease (x : Sec) (new : List (Nat × Nat)) (seg : Nat) : Nat :=
  match new.find? (fun r => r.1 == seg) with
  | some r => r.2
  | none => (Table.get? x.leasing seg).getD (Table.getD x.leases seg x.leaseBase)

/-- Word i that new records, of segments and leases, add to the lease log: every eighth is a carried one (R441). -/
def logWord (x : Sec) (new : List (Nat × Nat)) (i : Nat) : BitVec 32 :=
  let l := x.leaseLog
  let j := l.2.2.1 + i
  let n := j / 8 * 7 + j % 8 - l.2.2.1
  let seg := (l.2.2.2 + j / 8) % 4096
  let r := if j % 8 = 7 then (seg, carriedLease x (new.take n) seg) else new.getD n (0, 0)
  leaseWord r.1 r.2 ((l.2.1 + (l.1 + i) / 32768) % 64)

/-- New records enter the lease log, a ring of 32,768 words; after every 7 of them one carried record follows (R441). -/
def recordLeases (new : List (Nat × Nat)) (x : Sec) : Sec :=
  let l := x.leaseLog
  let since := l.2.2.1 + new.length
  let words := new.length + since / 7
  { x with
    leaseRecs := (List.range words).foldl (fun t i => Table.put t ((l.1 + i) % 32768) (logWord x new i)) x.leaseRecs
    leaseLog := ((l.1 + words) % 32768, (l.2.1 + (l.1 + words) / 32768) % 64, since % 7, (l.2.2.2 + since / 7) % 4096) }

/-- A segment's new lease enters the lease log (R440, R441). -/
def logLease (seg lease : Nat) (s : State) : State := { s with sec := recordLeases [(seg, lease)] s.sec }

/-- A new lease 2^22 higher is recorded when a counter reaches its lease less 2^21 (R440). -/
def renewLease (seg ver : Nat) (s : State) : State :=
  if (Table.get? s.sec.leasing seg).isNone && decide (leaseOf s seg ≤ ver + 2 ^ 21) then
    logLease seg (leaseOf s seg + 2 ^ 22)
      { s with sec := { s.sec with leasing := Table.put s.sec.leasing seg (leaseOf s seg + 2 ^ 22) } }
  else s

/-- A segment enters re-encryption (R444): its counters move to the next generation, a lease in the new range is
recorded before any of them issues a value in it (R440), and its walk runs or waits (R445). -/
def exhaust (dla : Nat) (s : State) : State :=
  let seg := segOf dla
  let g := Table.getD s.sec.gens seg 0
  let base := genBase (g + 1)
  let w : Walk := { seg := seg, gen := g, pinned := dla }
  let run := decide (s.sec.walks.length < 16)
  let ctrs := (List.range 16).foldl (fun t i => Table.put t (i * 4096 + seg) (base + 1)) s.sec.ctrs
  logLease seg (base + 2 ^ 22) { s with sec := { s.sec with
    ctrs := ctrs
    leases := Table.put s.sec.leases seg base
    leasing := Table.put s.sec.leasing seg (base + 2 ^ 22)
    walks := if run then s.sec.walks ++ [w] else s.sec.walks
    queued := if run then s.sec.queued else s.sec.queued ++ [w]
    reenc := if run then (seg, s.sec.reenc.2) else s.sec.reenc } }

/-- Takes the next value of a line's version counter (R439), renewing the lease where it is due. Answers the value and
whether it was the last of its counter (R444). -/
def takeVer (dla : Nat) (s : State) : Nat × Bool × State :=
  let v := nextVer s dla
  let last := decide (v = genLast (writeGen s (segOf dla))) && (walkOf s (segOf dla)).isNone
  let s := { s with sec := { s.sec with ctrs := Table.put s.sec.ctrs (ctrKey dla) (v + 1) } }
  (v, last, renewLease (segOf dla) (v + 1) s)

/-- The counter of a line's slice has come within 2^16 of its last value while its segment's walk is queued or running:
write credits of the slice are withheld (R445). -/
def counterHold (s : State) (dla : Nat) : Bool :=
  (walkOf s (segOf dla)).isSome && decide (genLast (writeGen s (segOf dla)) ≤ nextVer s dla + 2 ^ 16)

end Sys2Proof.Machine
end

