-- ==== Sys2Proof/Machine/Medium.lean ====
section
/-! DEFINITION. The medium scheduler: reads and their classification, claims, program slots, rounds, resets (03, 04). -/

namespace Sys2Proof.Machine

/-! ### Reads -/

/-- The slice whose reader counter a read holds (R140). -/
def ReadUse.slice : ReadUse → Nat
  | .miss _ dla => sliceOf dla
  | .spec _ dla => sliceOf dla
  | .copy lpn _ => sliceOfLpn lpn
  | .redrain dla => sliceOf dla

/-- Adds to a reader counter (R140). -/
def addReader (slice rgen : Nat) (s : State) : State :=
  let k := slice * 4 + rgen % 4
  { s with sched := { s.sched with readers := Table.putD s.sched.readers k (Table.getD s.sched.readers k 0 + 1) 0 } }

/-- Takes from a reader counter (R140). -/
def dropReader (slice rgen : Nat) (s : State) : State :=
  let k := slice * 4 + rgen % 4
  { s with sched := { s.sched with readers := Table.putD s.sched.readers k (Table.getD s.sched.readers k 0 - 1) 0 } }

/-- Queues a medium read whose location was captured under an RGEN (R98, R140). Answers its number. -/
def queueReadAt (gen : Nat) (use : ReadUse) (l : Loc) (prio : Nat) (s : State) : Nat × State :=
  let rid := s.sched.nextRid
  let rd : MedRead := { use := use, loc := l, prio := prio, rgen := gen }
  (rid, addReader use.slice gen { s with sched := { s.sched with
    reads := Table.put s.sched.reads rid rd, nextRid := rid + 1 } })

/-- Queues a medium read that captures its location now. -/
def queueRead (use : ReadUse) (l : Loc) (prio : Nat) (s : State) : Nat × State := queueReadAt s.sched.rgen use l prio s

/-- A read retires: it leaves the scheduler and its reader counter (R140). -/
def retireRead (rid : Nat) (s : State) : State :=
  match Table.get? s.sched.reads rid with
  | none => s
  | some rd =>
    dropReader rd.use.slice rd.rgen { s with sched := { s.sched with reads := Table.del s.sched.reads rid } }

/-- Changes a read. -/
def modRead (rid : Nat) (f : MedRead → MedRead) (s : State) : State :=
  { s with sched := { s.sched with reads := Table.modify s.sched.reads rid f } }

/-- Counts one more, or one fewer, read on a die of a busy-table entry (R85). -/
def bumpReads (group part stack : Nat) (f : Nat → Nat) (s : State) : State :=
  let e := busyAt s group part
  let e := { e with reads := setNth e.reads stack (f (nthD e.reads stack 0)) }
  { s with sched := { s.sched with busy := Table.putD s.sched.busy (busyKey group part) e {} } }

/-- Replaces a busy-table entry. -/
def setBusy (group part : Nat) (e : BusyEntry) (s : State) : State :=
  { s with sched := { s.sched with busy := Table.putD s.sched.busy (busyKey group part) e {} } }

/-- Suspends the operation on a partition, where one is in progress on one of the dies that a read is to sense (R74, R75). -/
def suspendFor (dies : List Nat) (group part : Nat) (s : State) : State :=
  let e := busyAt s group part
  if (e.state = 2 ∨ e.state = 3) ∧ dies.contains e.stack then
    emit (.die 3 e.stack group part e.course e.row) (setBusy group part { e with state := e.state + 2 } s)
  else s

/-- Starts the operation of a fenced claim, or resumes a suspended one, when READS of its die is 0 (R74, R86, R87). -/
def tryOperate (group part : Nat) (s : State) : State :=
  let e := busyAt s group part
  if nthD e.reads e.stack 0 ≠ 0 then s
  else if e.state = 1 then
    emit (.die (if e.reset then 2 else 1) e.stack group part e.course e.row)
      (setBusy group part { e with state := if e.reset then 3 else 2, tStart := s.now % 2 ^ 32 } s)
  else if e.state = 4 ∨ e.state = 5 then
    emit (.die 4 e.stack group part e.course e.row) (setBusy group part { e with state := e.state - 2 } s)
  else s

/-- The claim on the die of a place, if one stands (R89). -/
def claimedAt (s : State) (l : Loc) : Bool :=
  let e := busyAt s l.group l.part
  e.state != 0 && e.stack == l.stack

/-- Starts a sense of a read on some dies of its stripe: each is counted in READS (R85), and a sector that crosses a row
boundary is sensed in both its rows (R27). -/
def startSenses (l : Loc) : List Nat → State → State
  | [], s => s
  | t :: ts, s =>
    startSenses l ts ((rowsOf l.fast l.slot).foldl (fun s r => emit (.die 0 t l.group l.part l.course r) s)
      (bumpReads l.group l.part t (· + 1) s))

/-- Slice counter qualifier of a read: its home slice's set. -/
def countSlice (dla ev : Nat) (s : State) : State := count (sliceOf dla) ev 0 1 s

/-- Counts a confirmed read as direct or flashing (Table 19-5). -/
def countConfirmed (u : ReadUse) (flash : Bool) (s : State) : State :=
  match u with
  | .miss _ dla => countSlice dla (if flash then 5 else 4) s
  | .spec _ _ => s
  | .copy _ _ => s
  | .redrain _ => s

/-- The read is speculative and not confirmed. -/
def ReadUse.isSpec : ReadUse → Bool
  | .spec _ _ => true
  | .miss _ _ => false
  | .copy _ _ => false
  | .redrain _ => false

/-! ### Transfer slots -/

/-- Earliest data of a sense, in core cycles: t_READ1 or t_READ4 minimum (Table 03-1). -/
def senseMin (fast : Bool) : Nat := if fast then 144 else 240

/-- Core cycles since a channel's training: its slot 0 begins there (R83). -/
def chanTime (s : State) (ch : Nat) : Nat := s.now - Table.getD s.sched.trained ch 0

/-- The earliest slot in which data of a read started now could be ready (R99, R100). -/
def firstSlot (s : State) (ch : Nat) (fast : Bool) : Nat := (chanTime s ch + senseMin fast + 7) / 8

/-- Key of a channel's reservations, those of engine reads apart. -/
def slotKey (ch : Nat) (eng : Bool) : Nat := 2 * ch + (if eng then 1 else 0)

/-- The slots reserved on a channel for engine reads, or for the others (R82). -/
def slotsOf (s : State) (ch : Nat) (eng : Bool) : List Nat := Table.getD s.sched.slots (slotKey ch eng) []

/-- A slot is reserved (R82). -/
def slotTaken (s : State) (ch n : Nat) : Bool := (slotsOf s ch false).contains n || (slotsOf s ch true).contains n

/-- Reservations of a kind in an aligned run of 16 slots (R83). -/
def inRun (s : State) (ch : Nat) (eng : Bool) (run : Nat) : Nat := (slotsOf s ch eng).countP (fun n => n / 16 == run)

/-- A claim on a die of the channel has row data not yet transferred (R83). -/
def rowDataOn (s : State) (ch : Nat) : Bool :=
  s.sched.rowData.any (fun x =>
    decide (0 < x.2) && channelOf (busyAt s (x.1 / 32) (x.1 % 32)).stack (x.1 / 32) == ch)

/-- A read of the engines waits on the channel (R83). -/
def engineWaits (s : State) (ch : Nat) : Bool :=
  s.sched.reads.any (fun x =>
    !x.2.started && x.2.prio == 2 && channelOf x.2.loc.stack x.2.loc.group == ch)

/-- A read may reserve a slot: it is free, and the run keeps 2 slots for waiting engine reads and 2 for row data (R82,
R83). -/
def slotOpen (s : State) (ch : Nat) (eng : Bool) (n : Nat) : Bool :=
  let run := n / 16
  let keepE := if eng || !engineWaits s ch then 0 else 2 - inRun s ch true run
  let keepP := if rowDataOn s ch then 2 else 0
  !slotTaken s ch n && decide (inRun s ch false run + inRun s ch true run + 1 + keepE + keepP ≤ 16)

/-- The slot that a read started now reserves: the first open one, no later than 24 cycles after the earliest in which its
data could be ready (R82, R99; that it is the first, DESIGN CHOICE, log 117). -/
def findSlot (s : State) (ch : Nat) (eng fast : Bool) : Option Nat :=
  ((List.range 4).map (fun i => firstSlot s ch fast + i)).find? (slotOpen s ch eng)

/-- Reserves a slot. -/
def reserveSlot (ch : Nat) (eng : Bool) (n : Nat) (s : State) : State :=
  { s with sched := { s.sched with slots := Table.put s.sched.slots (slotKey ch eng) (n :: slotsOf s ch eng) } }

/-- Reserves the slots of a read on the dies that it senses, on each channel where one is open. -/
def reserveSlots (eng fast : Bool) (group : Nat) : List Nat → State → State
  | [], s => s
  | t :: ts, s =>
    reserveSlots eng fast group ts (match findSlot s (channelOf t group) eng fast with
      | some n => reserveSlot (channelOf t group) eng n s
      | none => s)

/-- One slot of a channel ends: it carries row data unless it was reserved (R82), and its reservation is over. -/
def endSlot (s : State) (ch : Nat) : State :=
  if chanTime s ch % 8 ≠ 0 then s
  else
    let n := chanTime s ch / 8
    let s := if slotTaken s ch n then s
      else
        match s.sched.rowData.find? (fun x =>
            decide (0 < x.2) && channelOf (busyAt s (x.1 / 32) (x.1 % 32)).stack (x.1 / 32) == ch) with
        | some (b, left) => { s with sched := { s.sched with rowData := Table.putD s.sched.rowData b (left - 1) 0 } }
        | none => s
    { s with sched := { s.sched with slots := (s.sched.slots.map (fun x =>
      if x.1 / 2 = ch then (x.1, x.2.filter (fun m => decide (n < m))) else x)).filter (fun x => !x.2.isEmpty) } }

/-- The slots of the 16 channels pass (R81). -/
def passSlots (s : State) : State := (List.range 16).foldl endSlot s

/-- Reads that could still come to a channel: those queued for it, and the misses whose location is not known yet (R100). -/
def mayCome (s : State) (ch : Nat) : Nat :=
  s.sched.reads.countP (fun x => !x.2.started
      && (channelOf x.2.loc.stack x.2.loc.group == ch || claimedAt s x.2.loc && x.2.loc.group / 4 == ch % 2))
    + s.cache.mshrs.countP (fun x => x.2.miss && x.2.rid.isNone && x.2.fill.isNone && x.2.tagHit != some true)

/-- No slot would be left free in the fast or the dense window of some channel: request credits are withheld (R100). -/
def slotHold (s : State) : Bool :=
  (List.range 16).any (fun ch => [true, false].any (fun fast =>
    let f := firstSlot s ch fast
    decide ((([1, 2, 3].filter (fun i => !slotTaken s ch (f + i))).length) ≤ mayCome s ch)))

/-! ### Starting reads -/

/-- The stripe of a place; a place of no stripe is read on its own die. -/
def stripeOf (s : State) (l : Loc) : Stripe :=
  (stripeAt s l.stripe).getD { stream := 0, fast := l.fast, pStack := 0, cls := 2 }

/-- How a read is served, classified against the busy table in this cycle (R89): the dies it senses, and whether it is a
flashing read. A lost member is read from the survivors (R219); a claimed partition by flashing read (R94), but not in a
stripe with a lost member (R97). -/
def readPlan (s : State) (l : Loc) : List Nat × Bool :=
  let x := stripeOf s l
  let others := x.members.filter (fun t => t != l.stack)
  if x.lost.contains l.stack then (others, true)
  else if claimedAt s l && x.lost.isEmpty then (others, true)
  else ([l.stack], false)

/-- The bucket byte that a read takes: that of its course, in measured mode while the course has not been surveyed (R158,
R168). -/
def readByte (s : State) (stack k : Nat) : Nat :=
  let b := Table.getD s.dr.bucket (courseKey stack k) 0
  if s.dr.toSurvey.contains (courseKey stack k) && decide (b / 64 % 2 = 0) then b + 64 else b

/-- A slot can be reserved on the channel of every die that the read senses (R99). -/
def slotsOpen (s : State) (rd : MedRead) (dies : List Nat) : Bool :=
  dies.all (fun t => (findSlot s (channelOf t rd.loc.group) (rd.prio == 2) rd.loc.fast).isSome)

/-- Starts a read (R89): its slots are reserved (R82) and the course's bucket byte is taken (R158). In a stripe with a lost
member a claim on a die that it senses is suspended (R97, R219); where that claim is still fenced there is nothing to
suspend: the read starts, and the operation waits for it with READS (DESIGN CHOICE, log 102). -/
def startRead (rid : Nat) (rd : MedRead) (s : State) : State :=
  let l := rd.loc
  let p := readPlan s l
  let lost := !(stripeOf s l).lost.isEmpty
  let s := if lost then suspendFor p.1 l.group l.part s else s
  startSenses l p.1 (reserveSlots (rd.prio == 2) l.fast l.group p.1
    (modRead rid (fun r => { r with started := true, flashing := p.2, suspended := lost, bucket := readByte s l.stack l.stripe })
      (countConfirmed rd.use p.2 s)))

/-- A queued read that could start as far as its partition goes: a speculative read is never started on a claimed one
(R51), nor any on a lost member or claimed partition as speculative. -/
def mayStart (s : State) (rd : MedRead) : Bool := !(rd.use.isSpec && (readPlan s rd.loc).2)

/-- The channels on which a read would be sensed. -/
def readChans (s : State) (rd : MedRead) : List Nat := (readPlan s rd.loc).1.map (fun t => channelOf t rd.loc.group)

/-- Another read that waits for the same channel starts first: one of higher priority, or of the same priority and queued
earlier (R52, R98). Engine reads are given the slots that R83 guarantees them even then. -/
def outranked (s : State) (rid : Nat) (rd : MedRead) : Bool :=
  s.sched.reads.any (fun x =>
    x.1 != rid && !x.2.started && mayStart s x.2
      && (decide (x.2.prio < rd.prio) || (x.2.prio == rd.prio && decide (x.1 < rid)))
      && !(rd.prio == 2 && x.2.prio == 1
        && (readChans s rd).all (fun ch => decide (inRun s ch true (firstSlot s ch rd.loc.fast / 16) < 2)))
      && (readChans s x.2).any (fun ch => (readChans s rd).contains ch))

/-- A medium read starts, in the order of its priority (R98), once a transfer slot can be reserved on the channel of every
die that it senses (R99); none starts while reads are held after a fault (R89, Table 06-6). -/
def execMediumReadStart (rid : Nat) (s : State) : Host.Outcome State Fault Refusal :=
  .next (match Table.get? s.sched.reads rid with
    | some rd =>
      if rd.started || s.sched.held || !mayStart s rd || outranked s rid rd
          || !slotsOpen s rd (readPlan s rd.loc).1 then s
      else startRead rid rd s
    | none => s)

/-- A read's transfer takes it out of READS of its die; a fenced operation starts, or a suspended one resumes, when none
is left (R74, R86). -/
def execReadTransferred (group part stack : Nat) (s : State) : Host.Outcome State Fault Refusal :=
  .next (
    let e := busyAt s group part
    if nthD e.reads stack 0 = 0 then s
    else
      let s := bumpReads group part stack (· - 1) s
      if e.stack = stack then tryOperate group part s else s)

/-! ### Program slots -/

/-- The rotation weights (Table 03-4); REFRESH keeps a weight of 1 (R172). -/
def classWeights : List Nat := [0, 1, 8, 4, 4, 2, 1, 2]

/-- A program or reset that waits: stripe, stack, and the row of a program. -/
structure Job where
  stripe : Nat
  stack  : Nat
  row    : Option Nat
deriving DecidableEq, Repr

/-- The first round of a stripe that has rows to program. -/
def openRound (x : Stripe) : Option Round := x.rounds.find? (fun r => !r.left.isEmpty)

/-- The next program of a stripe: rows of a round in ascending stack order (R90). -/
def programJob (k : Nat) (x : Stripe) : Option Job :=
  (openRound x).bind (fun r => r.left.head?.map (fun t => ⟨k, t, some r.row⟩))

/-- The class under which a stripe's next program runs (R173): in Flush, those of DRAIN and of the log run under FLUSH
(R259). -/
def effCls (s : State) (x : Stripe) : Nat :=
  if s.pw.phase == .flush && (x.stream == 0 || x.stream == 3) then 0
  else
    match openRound x with
    | some r => rowClass x r.row
    | none => x.cls

/-- The job of a stripe under a class, with the time since which it waits. DRAIN work is not offered while the eaves hold
E_max or more (R123). -/
def jobOf (s : State) (cls k : Nat) (x : Stripe) : Option (Job × Nat) :=
  if cls = 5 then
    if x.reclaim then x.resets.head?.map (fun t => (⟨k, t, none⟩, x.resetAt)) else none
  else if effCls s x = cls && !x.reclaim
      && !(cls == 2 && x.stream == 0 && decide (eavesMax s ≤ eavesBytes s)) then
    (programJob k x).map (fun j => (j, ((openRound x).map (·.since)).getD 0))
  else none

/-- The entry of a stripe's partition is idle (R84). -/
def entryIdle (s : State) (k : Nat) : Bool := (busyAt s (stripeGroup k) (stripePart k)).state == 0

/-- The oldest job of a class in a list of stripes, among those whose entry is idle (R103). -/
def firstJob (s : State) (cls : Nat) (xs : List (Nat × Stripe)) : Option Job :=
  ((xs.filter (fun x => entryIdle s x.1)).foldl (fun (a : Option (Job × Nat)) x =>
    match a, jobOf s cls x.1 x.2 with
    | none, j => j
    | some a, none => some a
    | some a, some j => if j.2 < a.2 then some j else some a) none).map (·.1)

/-- A class has work waiting, behind a claim or not (R103). -/
def hasWork (s : State) (cls : Nat) : Bool := s.tr.stripes.any (fun x => (jobOf s cls x.1 x.2).isSome)

/-- The work of a class that can be granted. While the log extent is 16 GiB or more, log and checkpoint programs come
before all other DRAIN work (R257). -/
def workOf (s : State) (cls : Nat) : Option Job :=
  if cls = 2 ∧ 16 * 2 ^ 30 ≤ s.per.extent then
    match firstJob s 2 (s.tr.stripes.filter (fun x => x.2.stream == 3)) with
    | some j => some j
    | none => firstJob s 2 s.tr.stripes
  else firstJob s cls s.tr.stripes

/-- One grant of the smooth weighted rotation (R103): every class with work waiting adds its weight to its credit, and of
those that an idle entry can serve the one with the largest credit is granted and pays the sum of the weights. Answers the
class and the new credits. -/
def rotate (credits : List Int) (waiting ready : List Nat) : Nat × List Int :=
  let add := (List.range 8).map (fun c =>
    if waiting.contains c then nthD credits c 0 + (nthD classWeights c 0 : Int) else 0)
  let best := ready.foldl (fun b c =>
    match b with
    | none => some c
    | some d => if nthD add d 0 < nthD add c 0 then some c else some d) (none : Option Nat)
  let sum : Int := (waiting.map (fun c => (nthD classWeights c 0 : Int))).foldl (· + ·) 0
  match best with
  | some c => (c, setNth add c (nthD add c 0 - sum))
  | none => (8, add)

/-- REFRESH claims in force. -/
def refreshClaims (s : State) : Nat := s.sched.busy.countP (fun x => x.2.state != 0 && x.2.cls == 1)

/-- The class the allocator grants next, with the new credits (R103): FLUSH; then the share reserved for REFRESH; then
the rotation. In Flush only FLUSH is granted (R259). -/
def nextClass (s : State) : Option Nat × List Int :=
  if (workOf s 0).isSome then (some 0, s.sched.credits)
  else if s.pw.phase == .flush then (none, s.sched.credits)
  else if (workOf s 1).isSome && decide (refreshClaims s < refreshShare (topLevel s) (slotsInForce s)) then
    (some 1, s.sched.credits)
  else
    let waiting := [1, 2, 3, 4, 5, 6, 7].filter (fun c => hasWork s c)
    let ready := waiting.filter (fun c => (workOf s c).isSome)
    if ready.isEmpty then
      (none, (List.range 8).map (fun c => if waiting.contains c then nthD s.sched.credits c 0 else 0))
    else
      let r := rotate s.sched.credits waiting ready
      (some r.1, r.2)

/-- Fences a claim for a job (R86); a program has its row to transfer, 26 slots of a dense row or 7 of a fast one (R81). It
operates at once when no read is on its die. -/
def claim (cls : Nat) (j : Job) (s : State) : State :=
  let g := stripeGroup j.stripe
  let p := stripePart j.stripe
  let e := busyAt s g p
  let s := setBusy g p { e with
    state := 1, stack := j.stack, course := stripeCourse j.stripe, row := j.row.getD 0, cls := cls
    tStart := s.now % 2 ^ 32, reset := j.row.isNone } s
  let s := match j.row with
    | some _ =>
      let n := if (stripeAt s j.stripe).any (fun x => x.fast) then 7 else 26
      { s with sched := { s.sched with rowData := Table.put s.sched.rowData (busyKey g p) n } }
    | none => count 16 0x102 0 1 (setCourses j.stripe 6 [j.stack] s)
  tryOperate g p s

/-- A program slot is free and work waits: the allocator grants it (R101, R103), while programs may start (R76). -/
def execSlotGrant (s : State) : Host.Outcome State Fault Refusal :=
  .next (
    if !progAllowed s || decide (slotsInForce s ≤ claimedCount s) then s
    else
      match nextClass s with
      | (none, cr) => { s with sched := { s.sched with credits := cr } }
      | (some cls, cr) =>
        match workOf s cls with
        | some j => claim cls j { s with sched := { s.sched with credits := cr } }
        | none => s)

/-! ### Rounds -/

/-- A round begins once its rows are staged on all seven data courses (R91): parity and Q are formed. -/
def execRoundStart (group stream : Nat) (s : State) : Host.Outcome State Fault Refusal :=
  .next (match s.tr.stripes.find? (fun x => stripeGroup x.1 == group && x.2.stream == stream && !x.2.failed
      && !x.2.reclaim && roundReady x.2 x.2.begun && decide (x.2.rounds.length < 4)) with
    | some (k, _) => startRound k s
    | none => s)

/-- The limit of a round expires: its rows are completed with pad sectors, and it starts (R121). -/
def execRoundDeadline (group stream : Nat) (s : State) : Host.Outcome State Fault Refusal :=
  .next (match s.tr.stripes.find? (fun x => stripeGroup x.1 == group && x.2.stream == stream && !x.2.failed
      && !x.2.reclaim && (match topRow x.2 with | some r => decide (x.2.begun ≤ r) | none => false)) with
    | some (k, x) => startRound k (padTo k x.begun s)
    | none => s)

/-- Operating hours (R114). -/
def opHours (s : State) : Nat := counter 1 s / 60 % 2 ^ 20

/-- E_d[47:16] of a die (R152, R153). -/
def edSeconds (s : State) (stack group : Nat) : Nat := nthD s.dr.ed (dieBit stack group) 0 / 65536 % 2 ^ 32

/-- The modelled temperature of a die in whole °C, within a signed byte (R160). -/
def dieDegrees (s : State) (stack group : Nat) : Int :=
  max (-128) (min 127 (nthD s.thm.temps (dieBit stack group) 0 / 256))

/-- What a row program leaves for its course's ledger (R116, R153, R160): at row 0 the clocks and, in a dense course, EFIRST
with its log record and the bucket byte of an age of 0, dense and measured (DEDUCED from R132, log 98); at row 509 ELAST; the
highest temperature at every row. -/
def driftLatch (k t r : Nat) (s : State) : State :=
  match stripeAt s k with
  | none => s
  | some x =>
    let v := edSeconds s t (stripeGroup k)
    let s := modStripe k (fun y => { y with tmax := setNth y.tmax t (max (nthD y.tmax t 0) (dieDegrees s t (stripeGroup k))) }) s
    let s := if r = 0 then
        modStripe k (fun y => { y with
          ptime := setNth y.ptime t (rtc s)
          optime := setNth y.optime t (field 0 48 (counter 1 s) + field 48 16 (counter 0 s)) }) s
      else s
    if x.fast then s
    else if r = 0 then
      mapOpen (.age (courseKey t k) v) (modStripe k (fun y => { y with efirst := setNth y.efirst t v })
        { s with dr := { s.dr with bucket := Table.put s.dr.bucket (courseKey t k) 96 } })
    else if r = 509 then modStripe k (fun y => { y with elast := setNth y.elast t v }) s
    else s

/-- Row r of a course has been programmed. -/
def rowDone (x : Stripe) (t r : Nat) : Bool :=
  decide (r < x.begun) && !x.rounds.any (fun y => y.row == r && y.left.contains t)

/-- A row passes: its round ends with its eighth row (R92), and the courses close with their last (R115). -/
def rowPass (k t r : Nat) (s : State) : State :=
  let s := driftLatch k t r s
  let s := modStripe k (fun x =>
    let rounds := x.rounds.map (fun y => if y.row = r then { y with left := y.left.erase t } else y)
    { x with rounds := rounds.filter (fun y => !y.left.isEmpty)
             passed := x.passed + rounds.countP (fun y => y.left.isEmpty) }) s
  match stripeAt s k with
  | none => s
  | some x =>
    if x.passed = 512 && !x.rounds.any (fun _ => true) then
      x.members.foldl (fun s t => putCourse (courseKey t k)
        { courseOf s (courseKey t k) with state := 2, closed := opHours s } s) s
    else s

/-- A die reports PASS or FAIL for a row program, and its claim returns to idle (R70, R73, R86). -/
def execRowProgramDone (group part : Nat) (pass : Bool) (s : State) : Host.Outcome State Fault Refusal :=
  .next (
    let e := busyAt s group part
    if e.state ≠ 2 then s
    else
      let k := stripeKey group part e.course
      let s := setBusy group part { e with state := 0 }
        { s with sched := { s.sched with rowData := Table.del s.sched.rowData (busyKey group part) } }
      if pass then rowPass k e.stack e.row s else courseFail k e.stack s)

/-! ### Read-back and verification -/

/-- Where a line's location is now, while the maps place it on the medium. -/
def mappedAt (s : State) (dla : Nat) : Option Loc := placedIn s.tr.maps dla

/-- A write-back's row passes: the line's location is replaced where it still equals the captured one; EPOCH stays that of
the line's write (R109, R189). A hot line drained again loses one HEAT (R124). Where the line has no entry and its set is
full, the move waits for one (R122). -/
def finishWriteBack (dla : Nat) (l : Loc) (s : State) : State :=
  match Table.get? s.tr.wbacks dla with
  | none => s
  | some w =>
    if w.dst = some l then
      let old := eavesOf s dla
      let drop := { s with tr := { s.tr with wbacks := Table.del s.tr.wbacks dla } }
      if mappedAt s dla = some w.src ∧ (newestSlot s dla).isNone then
        if old.isNone ∧ 8 ≤ setCount s dla then s
        else
          mapOpen (.reloc dla
            { group := l.group, part := l.part, course := l.course, slot := l.slot, epoch := w.epoch
              heat := (old.map (·.heat)).getD 0 - (if w.cool then 1 else 0) } w.src) (invalidate w.src s.per.openEpoch drop)
      else drop
    else s

/-- Write-backs whose row has passed and whose set was full go on (R122, R189). -/
def finishBacks (s : State) : State :=
  s.tr.wbacks.foldl (fun s w =>
    match w.2.dst with
    | some l =>
      match stripeAt s l.stripe with
      | some x => if rowsChecked x l.stack l.slot then finishWriteBack w.1 l s else s
      | none => s
    | none => s) s

/-- Releases what a sector position holds staged, its rows having passed (R131). -/
def releaseStaged (l : Loc) (s : State) : State :=
  match ownerAt s l with
  | some (.line dla ep) =>
    if s.tr.slots.any (fun x => x.dla == dla && x.epoch == ep && x.st == .staged l) then
      let s := dropSlot dla ep s
      match eavesOf s dla with
      | some e => if e.staged && !e.poison && eavesLoc s dla e == l then clearStaged dla s else s
      | none => s
    else s
  | some (.reloc dla) => finishWriteBack dla l s
  | some .pad => s
  | some (.q _ _) => s
  | some (.page _) => s
  | some .metadata => s
  | some .parity => s
  | some .outer => s
  | some .ledger => s
  | none => s

/-- A row passes its check: the course is VERIFIED with its last row (R131 to R133). -/
def checkRow (k t r : Nat) (s : State) : State :=
  let s := modStripe k (fun x =>
    { x with checked := if x.checked.contains (t * 512 + r) then x.checked else (t * 512 + r) :: x.checked }) s
  match stripeAt s k with
  | none => s
  | some x =>
    if x.checked.countP (fun c => c / 512 == t) = 512 then
      let s := setCourses k 3 [t] s
      if !x.fast && stripeVerified s k x then releaseQ k s else s
    else s

/-- The read-back of a passed DRAIN row: with 2 bit errors or fewer in every sector it clears STAGED and releases its
slots; otherwise its course fails and its lines are staged anew (R131, R143). -/
def execDrainRowReadback (stripe stack row : Nat) (worst : Option Nat) (s : State) : Host.Outcome State Fault Refusal :=
  .next (match stripeAt s stripe with
    | none => s
    | some x =>
      if x.stream ≠ 0 ∨ x.passed ≤ row ∨ !x.members.contains stack then s
      else if worst.any (· ≤ 2) then
        let s := checkRow stripe stack row s
        ((rowTouch true row).filter (fun n => match stripeAt s stripe with
          | some y => rowsChecked y stack n
          | none => false)).foldl (fun s n => releaseStaged (locOf stripe stack true n) s) s
      else courseFail stripe stack s)

/-- The verify read of a dense row after t_SETTLE: the row passes with 2 bit errors or fewer in every sector; otherwise
its course fails (R132, R133, R142). -/
def execVerifyReadDue (stripe stack row : Nat) (worst : Option Nat) (s : State) : Host.Outcome State Fault Refusal :=
  .next (match stripeAt s stripe with
    | none => s
    | some x =>
      if x.reclaim ∨ x.passed ≤ row ∨ !x.members.contains stack ∨ x.fast then s
      else if worst.any (· ≤ 2) then checkRow stripe stack row s
      else courseFail stripe stack s)

/-! ### Reclamation -/

/-- The misses of a slice that have captured a location under an RGEN and not yet sent their read for it (R140). -/
def captured (s : State) (slice gen : Nat) : Nat :=
  s.cache.mshrs.countP (fun x => x.2.miss && x.2.loc.isSome && x.2.rid.isNone && x.2.cap % 4 == gen % 4
    && sliceOf (x.1 % 2 ^ 36) == slice)

/-- RGEN advances when the counter it would reuse reads zero in every slice (R140). -/
def execRgenAdvance (s : State) : Host.Outcome State Fault Refusal :=
  .next (
    let n := s.sched.rgen + 1
    if (List.range 16).all (fun sl => Table.getD s.sched.readers (sl * 4 + n % 4) 0 + captured s sl n == 0) then
      { s with sched := { s.sched with rgen := n } }
    else s)

/-- Every course that received pages of a stripe is VERIFIED; one that failed has had its copies re-targeted (R141, R142). -/
def heirsVerified (s : State) (x : Stripe) : Bool :=
  x.heirs.all (fun k => match stripeAt s k with
    | some y => stripeVerified s k y || y.failed || y.reclaim
    | none => true)

/-- A stripe in RECLAIM is granted its resets: the epochs that emptied it have committed, the courses that received its
pages are VERIFIED, and RGEN has advanced at least twice since (R141). -/
def execReclaimGrant (stripe : Nat) (s : State) : Host.Outcome State Fault Refusal :=
  .next (match stripeAt s stripe with
    | none => s
    | some x =>
      if x.reclaim && x.resets.isEmpty && heirsVerified s x && decide (x.emptyEp ≤ s.per.committed)
          && decide (x.emptyGen + 2 ≤ s.sched.rgen) then
        modStripe stripe (fun y => { y with resets := y.members, resetAt := s.now }) s
      else s)

/-- The rows of a course that qualify for a field remap: outer code or P was needed on two scrub passes (R214). -/
def remapRows (s : State) (c : Nat) : List Nat :=
  (s.tr.remapReq.filter (fun x => x.1 / 512 == c && decide (2 ≤ x.2))).map (·.1)

/-- Remaps the qualifying rows of a course at its reset: each takes an entry of its die's array and a spare row of its
mat; whether the mat has one left is free (R214; log 6). Answers whether all were remapped. -/
def fieldRemap (die : Nat) : List Nat → State → Bool × State
  | [], s => (true, s)
  | _ :: rs, s =>
    let d := draw s
    let n := Table.getD s.tr.remaps die 0
    if n < 1024 ∧ Config.freeNat d.1 % 2 = 0 then
      fieldRemap die rs { d.2 with tr := { d.2.tr with remaps := Table.put d.2.tr.remaps die (n + 1) } }
    else (false, (fieldRemap die rs d.2).2)

/-- Removes what a course held, and what drift management noted of it: its margin loss and its bucket byte (R158, R171). -/
def clearCourse (t k : Nat) (s : State) : State :=
  { s with
    tr := { s.tr with
      cells := s.tr.cells.filter (fun x => x.1 / 16384 != courseKey t k)
      remapReq := s.tr.remapReq.filter (fun x => x.1 / 512 != courseKey t k) }
    dr := { s.dr with
      margin := s.dr.margin.filter (· != courseKey t k)
      bucket := Table.del s.dr.bucket (courseKey t k) } }

/-- The age record of a course that has been reset goes (R157). -/
def clearAge (c : Nat) (s : State) : State :=
  if Table.getD s.tr.maps.age c 0 = 0 then s else mapOpen (.age c 0) s

/-- A course that held rebuilt data is reset: that data counts no longer into the spare margin (R144). -/
def releaseSpare (k t : Nat) (s : State) : State :=
  if (stripeAt s k).any (fun x => x.rebuilt.contains t) then { s with tr := { s.tr with spare := s.tr.spare - 1 } } else s

/-- RETIRED courses of a partition of a die (R216). -/
def retiredCount (s : State) (stack group part : Nat) : Nat :=
  s.tr.maps.course.countP (fun x => x.2.state == 7 && x.1 / 4096 == (stack * 8 + group) * 32 + part)

/-- A course's reset ends: WEAR counts it, and it becomes FREE, or RETIRED where the reset failed, the course had FAILED,
its partition is retired or a row could not be remapped (R73, R115, R142, R214 to R216). The stripe is free with its last
reset, its lost members RETIRED (R223). -/
def finishReset (k t : Nat) (pass : Bool) (s : State) : State :=
  let c := courseKey t k
  let die := dieBit t (stripeGroup k)
  let r := fieldRemap die (remapRows s c) s
  let s := r.2
  let bad := match stripeAt s k with
    | some x => x.bad.contains t
    | none => false
  let retire := !pass || bad || !r.1 || s.tr.retired.contains (die * 32 + stripePart k)
  let s := releaseSpare k t (clearAge c (clearCourse t k s))
  let old := courseOf s c
  let s := putCourse c { old with
    wear := old.wear + 1, state := if retire then 7 else 0, fast := false, stream := 0, closed := 0 } s
  let s := if retire then consumeSpare 1 s else s
  let s := if retire && decide (64 ≤ retiredCount s t (stripeGroup k) (stripePart k)) then
      retirePartition t (stripeGroup k) (stripePart k) s
    else s
  match stripeAt s k with
  | none => s
  | some x =>
    let left := x.resets.erase t
    if left.isEmpty then
      let s := consumeSpare x.lost.length (x.lost.foldl (fun s u => putCourse (courseKey u k)
        { courseOf s (courseKey u k) with state := 7 } (clearCourse u k s)) s)
      { s with tr := { s.tr with stripes := Table.del s.tr.stripes k } }
    else modStripe k (fun y => { y with resets := left }) s

/-- A course reset completes (R72, R73). -/
def execResetDone (group part : Nat) (pass : Bool) (s : State) : Host.Outcome State Fault Refusal :=
  .next (
    let e := busyAt s group part
    if e.state ≠ 3 then s
    else
      updateDegraded (finishReset (stripeKey group part e.course) e.stack pass
        (setBusy group part { e with state := 0, reset := false } s)))

end Sys2Proof.Machine
end

