-- ==== Sys2Proof/Machine/Cache.lean ====
section
/-! DEFINITION. The slice caches and the DRAM caches: lookup, victims, eviction, streams (08, 09). -/

namespace Sys2Proof.Machine

/-- This node's ID (R386). -/
def me (s : State) : Nat := s.sgl.cfg.node

/-- The DRAM line at which a line's copy lies. -/
def lineAt (node dla : Nat) : Nat := Config.dramLineOf (lkey node dla)

/-! ### Ways -/

/-- The way of a set that holds a line (R271). -/
def findWay (s : State) (node dla : Nat) : Option Nat :=
  (List.range 16).find? (fun w =>
    match Table.get? s.cache.ways (wayKey (sliceOf dla) (cacheSet dla) w) with
    | some e => e.node == node && e.dla == dla
    | none => false)

/-- The tag entry of a line, with its way. -/
def findLine (s : State) (node dla : Nat) : Option (Nat × TagEntry) :=
  (findWay s node dla).bind (fun w =>
    (Table.get? s.cache.ways (wayKey (sliceOf dla) (cacheSet dla) w)).map (fun e => (w, e)))

/-- Writes a tag entry. -/
def putWay (slice set way : Nat) (e : TagEntry) (s : State) : State :=
  { s with cache := { s.cache with ways := Table.put s.cache.ways (wayKey slice set way) e } }

/-- Frees a way. -/
def delWay (slice set way : Nat) (s : State) : State :=
  { s with cache := { s.cache with ways := Table.del s.cache.ways (wayKey slice set way) } }

/-- One step down the pseudo-LRU tree of 15 bits: at node n a set bit points right. -/
def plruStep (v n : Nat) : Nat := if v / 2 ^ n % 2 = 1 then 2 * n + 2 else 2 * n + 1

/-- The way a pseudo-LRU tree points at. -/
def plruVictim (v : Nat) : Nat := plruStep v (plruStep v (plruStep v (plruStep v 0))) - 15

/-- A bit set to a value. -/
def setBit (v n : Nat) (b : Bool) : Nat :=
  let low := if v / 2 ^ n % 2 = 1 then v - 2 ^ n else v
  if b then low + 2 ^ n else low

/-- The tree after an access to a way: every node on its path points away from it. The numbering of the tree is the
model's (DESIGN CHOICE, log 17). -/
def plruTouch (v way : Nat) : Nat :=
  let b3 := way / 8 % 2 = 1
  let b2 := way / 4 % 2 = 1
  let b1 := way / 2 % 2 = 1
  let b0 := way % 2 = 1
  let n1 := if b3 then 2 else 1
  let n2 := if b2 then 2 * n1 + 2 else 2 * n1 + 1
  let n3 := if b1 then 2 * n2 + 2 else 2 * n2 + 1
  setBit (setBit (setBit (setBit v 0 (!decide b3)) n1 (!decide b2)) n2 (!decide b1)) n3 (!decide b0)

/-- Records an access to a way (R270). -/
def touch (slice set way : Nat) (s : State) : State :=
  let k := slice * 12288 + set
  { s with cache := { s.cache with plru := Table.putD s.cache.plru k (plruTouch (Table.getD s.cache.plru k 0) way) 0 } }

/-- The ways a class may allocate in (R272): its mask over the powered ways, none while the cache is not ON (R285) or a
way is marked to be powered down (R284). -/
def effMask (s : State) (cls w : Nat) : Bool :=
  s.cache.state == 1 && decide (nthD s.cache.cfg.masks cls 0 / 2 ^ w % 2 = 1) && decide (s.cache.waysOn / 2 ^ w % 2 = 1)
    && decide (s.cache.cfg.wayOff / 2 ^ w % 2 = 0)

/-- A way reserved by the MSHR of a line of the set (R273). -/
def reserved (s : State) (slice set w : Nat) : Bool :=
  s.cache.mshrs.any (fun x =>
    x.2.way == some w && sliceOf (x.1 % 2 ^ 36) == slice && cacheSet (x.1 % 2 ^ 36) == set)

/-- A way that may be taken: not reserved, and its entry neither pinned nor being evicted (R273). -/
def takeable (s : State) (cls slice set w : Nat) : Bool :=
  effMask s cls w && !reserved s slice set w
    && (match Table.get? s.cache.ways (wayKey slice set w) with
      | some e => !e.pin && !e.evict
      | none => true)

/-- The victim way for a class (R273): the lowest invalid way first, else the pseudo-LRU way among those left, walking on
from it where it is not among them. -/
def victimWay (s : State) (cls slice set : Nat) : Option Nat :=
  let ok := (List.range 16).filter (takeable s cls slice set)
  match ok.find? (fun w => (Table.get? s.cache.ways (wayKey slice set w)).isNone) with
  | some w => some w
  | none =>
    let p := plruVictim (Table.getD s.cache.plru (slice * 12288 + set) 0)
    ((List.range 16).map (fun i => p ^^^ i)).find? (fun w => ok.contains w)

/-! ### DRAM caches -/

/-- Removes a line's copies in the DRAM caches. -/
def dropDram (node dla : Nat) (s : State) : State :=
  if node = me s then { s with dram := { s.dram with cache := Table.del s.dram.cache dla } }
  else { s with dram := { s.dram with remote := Table.del s.dram.remote (lkey node dla) } }

/-- The ciphertext a line of SRAM leaves as: under its own VER and generation, or for a remote line with GEN all ones
(R274, R443). -/
def cacheSector (s : State) (e : TagEntry) : RawSector :=
  match keyOf s e.kid with
  | none => 0
  | some k =>
    let gen := if e.node = me s then readGen s (segOf e.dla) e.ver else 2 ^ 32 - 1
    let b := binding e.kid e.node e.dla e.ver gen
    let c := encryptData k b e.data
    mkSector c e.ver (macField k e.kid b c) (tagByte false k.integrity true false)

/-- Removes what the DRAM caches hold at a DRAM line (R194). -/
def dropAt (n : Nat) (s : State) : State :=
  { s with dram := { s.dram with
    cache := s.dram.cache.filter (fun x => lineAt (me s) x.1 != n)
    remote := s.dram.remote.filter (fun x => Config.dramLineOf x.1 != n) } }

/-- The copy of a line that a read of the DRAM goes to: of its newest slot in the write buffer the less busy one (R304), else
its place in the read cache. -/
def readLine (s : State) (dla : Nat) : Nat :=
  match newestSlot s dla with
  | some x => lessBusy s (sliceOf dla) (slotBase dla x.epoch)
  | none => lineAt (me s) dla

/-- Installs a line of SRAM in its DRAM cache (R274, R316), in the place of what lay there. A line whose key is gone, the
all-zero line of a page never written, which has no VER, and a line whose place lies on a lost device (R314) are not
installed. -/
def installDram (e : TagEntry) (s : State) : State :=
  let n := Config.dramLineOf (lkey e.node e.dla)
  if (keyOf s e.kid).isNone || e.ver == 0 || onLost s n then s
  else
    let d : DramLine := { kid := e.kid, raw := cacheSector s e }
    let s := dropAt n (count (sliceOf e.dla) 0x012 0 1 s)
    if e.node = me s then dramWrites [n] { s with dram := { s.dram with cache := Table.put s.dram.cache e.dla d } }
    else if s.dram.rSize = 0 then s
    else dramWrites [n] { s with dram := { s.dram with remote := Table.put s.dram.remote (lkey e.node e.dla) d } }

/-- Counts a prefetched line that leaves unread (R280). -/
def countWasted (e : TagEntry) (s : State) : State :=
  if e.pf then count (sliceOf e.dla) 0x011 0 1 s else s

/-- A way is emptied at once: its dirty line is installed, a clean or poisoned one dropped (R274). -/
def evictNow (slice set way : Nat) (s : State) : State :=
  match Table.get? s.cache.ways (wayKey slice set way) with
  | none => s
  | some e =>
    let s := countWasted e s
    delWay slice set way (if e.dirty && !e.poison then installDram e s else s)

/-- Begins the eviction of a way: a dirty line holds it, with EVICT set, until the install is accepted (R275). -/
def beginEvict (slice set way : Nat) (s : State) : State :=
  match Table.get? s.cache.ways (wayKey slice set way) with
  | none => s
  | some e =>
    if e.dirty && !e.poison then putWay slice set way { e with evict := true } s
    else evictNow slice set way s

/-- The eviction of a way ends when an LPDDR6 channel controller accepts the installed line: its write queue has room
(R275, R300). -/
def endEvict (slice set way : Nat) (s : State) : State :=
  match Table.get? s.cache.ways (wayKey slice set way) with
  | some e =>
    let full := decide (2048 ≤ writeCount s (lineChan (Config.dramLineOf (lkey e.node e.dla))))
    if e.evict && !full then evictNow slice set way s else s
  | none => s

/-- The way holds a line whose eviction is in progress (R275). -/
def evicting (s : State) (slice set way : Nat) : Bool :=
  (Table.get? s.cache.ways (wayKey slice set way)).any (fun e => e.evict)

/-- Removes a line from SRAM without install. -/
def dropSram (node dla : Nat) (s : State) : State :=
  match findWay s node dla with
  | some w => delWay (sliceOf dla) (cacheSet dla) w s
  | none => s

/-- A line poisoned at its home reads as poison wherever it lay: its copies go, and its slots hold poison sectors
(R193, R348). -/
def poisonHome (dla : Nat) (s : State) : State :=
  let s := poisonLine dla (dropDram (me s) dla (dropSram (me s) dla s))
  { s with tr := { s.tr with slots := s.tr.slots.map (fun x =>
    if x.dla = dla then { x with raw := poisonSector true x.epoch } else x) } }

/-- Puts a line into a way of its set, evicting what lies there (R273, R274). -/
def installLine (cls : Nat) (e : TagEntry) (s : State) : State :=
  let slice := sliceOf e.dla
  let set := cacheSet e.dla
  match findWay s e.node e.dla with
  | some w => touch slice set w (putWay slice set w e s)
  | none =>
    match victimWay s cls slice set with
    | none => s
    | some w => touch slice set w (putWay slice set w e (evictNow slice set w s))

/-- Powered-down or disabled ways are flushed: CLEAN, then INVAL (R281, R284, R285); a line with EVICT set after its
eviction (R283). -/
def flushWay (slice set way : Nat) (s : State) : State :=
  match Table.get? s.cache.ways (wayKey slice set way) with
  | none => s
  | some e =>
    if e.pin || e.evict then s
    else dropDram e.node e.dla (delWay slice set way s)

/-! ### Streams -/

/-- A demand read at a line of a page: the stream after it, and whether prefetches follow (R278): three reads at one stride
confirm the stream, and each further one issues prefetches. -/
def streamStep (cls lpn line : Nat) (ss : List Stream) : Stream × Bool :=
  match ss.find? (fun x => x.cls == cls && x.lpn == lpn) with
  | none => ({ cls := cls, lpn := lpn, last := line, stride := 0, count := 1 }, false)
  | some x =>
    let d : Int := (line : Int) - (x.last : Int)
    let good := d ≠ 0 ∧ -8 ≤ d ∧ d ≤ 8
    if good ∧ x.stride = d then
      ({ x with last := line, count := x.count + 1 }, decide (3 ≤ x.count))
    else if good then ({ x with last := line, stride := d, count := 2 }, false)
    else ({ x with last := line, stride := 0, count := 1 }, false)

/-- Keeps the 64 most recent streams of a slice (R278). -/
def putStream (slice : Nat) (x : Stream) (s : State) : State :=
  let old := (Table.getD s.cache.streams slice []).filter (fun y => !(y.cls == x.cls && y.lpn == x.lpn))
  { s with cache := { s.cache with streams := Table.put s.cache.streams slice ((x :: old).take 64) } }

/-- The lines a stream asks for: up to PF_DEPTH strides ahead, within the page (R278). -/
def prefetchLines (s : State) (x : Stream) : List Nat :=
  let n := if s.cache.cfg.depth = 0 then 1 else s.cache.cfg.depth
  (List.range n).filterMap (fun i =>
    let l : Int := (x.last : Int) + x.stride * ((i : Int) + 1)
    if 0 ≤ l ∧ l < 64 then some (x.lpn * 64 + l.toNat) else none)

/-- Counts MSHRs of a slice: a line with an outstanding miss, at its home or at its proxy, has one (R276). -/
def mshrCount (s : State) (slice : Nat) : Nat :=
  s.cache.mshrs.countP (fun x => sliceOf (x.1 % 2 ^ 36) == slice)
    + s.coh.px.countP (fun x => x.2.txid.isSome && !x.2.evxSent && sliceOf (x.1 % 2 ^ 36) == slice)

/-- Keeps MSHR_PEAK (R287). -/
def notePeak (slice : Nat) (s : State) : State :=
  { s with cache := { s.cache with peak := max s.cache.peak (min 512 (mshrCount s slice)) } }

/-- Puts an MSHR, keeping MSHR_PEAK (R276, R287). -/
def putMshr (node dla : Nat) (m : Mshr) (s : State) : State :=
  notePeak (sliceOf dla) { s with cache := { s.cache with mshrs := Table.put s.cache.mshrs (lkey node dla) m } }

/-- The MSHR of a line. -/
def mshrAt (s : State) (node dla : Nat) : Option Mshr := Table.get? s.cache.mshrs (lkey node dla)

/-- Changes an MSHR. -/
def modMshr (node dla : Nat) (f : Mshr → Mshr) (s : State) : State :=
  { s with cache := { s.cache with mshrs := Table.modify s.cache.mshrs (lkey node dla) f } }

/-- Releases an MSHR. -/
def delMshr (node dla : Nat) (s : State) : State :=
  { s with cache := { s.cache with mshrs := Table.del s.cache.mshrs (lkey node dla) } }

end Sys2Proof.Machine
end

