-- ==== Sys2Proof/Machine/Sequence.lean ====
section
/-! DEFINITION. The re-encryption sequencer's view of a line: its newest copy, its key ID, and what re-encryption or
re-key does with it (14). -/

namespace Sys2Proof.Machine

/-- The newest stored copy of a line: its write-buffer slot, or the sector its maps name; none for a zero or poison
location (R110, R446). -/
def newestRaw (s : State) (dla : Nat) : Option RawSector :=
  match newestSlot s dla with
  | some x => some x.raw
  | none =>
    match resolve s dla with
    | .zero => none
    | .poison => none
    | .buffer _ => none
    | .medium l => some (cellAt s l)

/-- A sector the sequencer skips: a zero sector or a poison sector (R446). -/
def seqSkips (r : RawSector) : Bool := secBlank r || secPoison r || secFmt r != 0

/-- The key ID recorded with a line's newest write in the write buffer (R446). -/
def slotKid (s : State) (dla : Nat) : Option Nat := (newestSlot s dla).map (·.kid)

/-- A sector's MAC verifies under a key ID of integrity mode (R437). -/
def macVerifies (s : State) (kid dla : Nat) (r : RawSector) : Bool :=
  match keyOf s kid with
  | none => false
  | some k =>
    k.integrity && macField k kid (binding kid s.sgl.cfg.node dla (secVer r) (readGen s (segOf dla) (secVer r))) (secData r)
      == secMac r

/-- The windows of a port whose pool range covers a line (R447). -/
def windowsOver (s : State) (p : Port) (dla : Nat) : List Window :=
  let pla := s.sgl.cfg.node * 2 ^ 42 + dla * 64
  ((s.port p).windows.map (·.2)).filter (fun w => w.valid && decide (w.pbase ≤ pla) && decide (pla < w.pbase + w.size * 2 ^ 28))

/-- The key IDs the sequencer tries for an integrity-mode line, in order (R447). -/
def keyOrder (s : State) (dla : Nat) : List Nat :=
  let walked := match walkOf s (segOf dla) with
    | some w => w.keys
    | none => []
  let ws := windowsOver s .a dla ++ windowsOver s .b dla
  let others := (ws.map (fun w => (w.kids.zipIdx.filter (fun x => x.2 != 0 && decide (w.kvalid / 2 ^ x.2 % 2 = 1))).map (·.1))).flatten
  walked ++ ws.map (fun w => nthD w.kids 0 0) ++ others ++ s.sec.kids.map (·.1)

/-- The key ID K of a line (R446, R447): that of its slot; for an XTS sector the one its MAC field names; else the first
whose MAC verifies. Only an INSTALLED key ID of the sector's mode qualifies. -/
def findKid (s : State) (dla : Nat) (r : RawSector) : Option Nat :=
  let good := fun (kid : Nat) => keyServes s kid && (keyOf s kid).any (fun k => k.integrity == secImode r)
  match slotKid s dla with
  | some kid => if good kid then some kid else none
  | none =>
    if secImode r then (keyOrder s dla).find? (fun kid => good kid && macVerifies s kid dla r)
    else if good (secMac r % 4096) then some (secMac r % 4096) else none

/-- What the sequencer does with a line. -/
inductive SeqAct where
  /-- it passes the line -/
  | pass
  /-- it leaves the line and counts it as skipped (R459) -/
  | left
  /-- it writes the line's data again under a key ID -/
  | write (kid : Nat) (d : Line)
  /-- it rewrites the line as a poison sector (R447) -/
  | poison
deriving DecidableEq, Repr

/-- A device line lies in a re-key's ranges (R459). -/
def inRanges (rs : List (Nat × Nat)) (dla : Nat) : Bool :=
  rs.any (fun r => decide (r.1 ≤ segOf dla) && decide (segOf dla < r.1 + r.2))

/-- The re-key of a line (R459): a written line under the source key ID is written under the target; one that does not
verify under the source, or in XTS mode names another key ID, is left (DEDUCED, log 30). -/
def rekeyAct (s : State) (dla : Nat) : SeqAct :=
  match s.sec.rekey with
  | none => .pass
  | some k =>
    if !inRanges k.ranges dla then .pass
    else
      match newestRaw s dla with
      | none => .pass
      | some r =>
        if seqSkips r then .pass
        else
          let mine := match slotKid s dla with
            | some kid => kid == k.source
            | none => if secImode r then macVerifies s k.source dla r else secMac r % 4096 == k.source
          if !mine then .left
          else
            match openSector s k.source dla r with
            | .data d => .write k.target d
            | .poison => .left
            | .otherMode => .left
            | .macFail => .left

/-- The re-encryption of a line (R446, R447). -/
def reencAct (s : State) (dla : Nat) : SeqAct :=
  match s.sec.walks.find? (fun w => w.seg == segOf dla) with
  | none => .pass
  | some w =>
    match newestRaw s dla with
    | none => .pass
    | some r =>
      if seqSkips r || decide (secVer r / 2 ^ 31 % 2 = (w.gen + 1) % 2) then .pass
      else
        match findKid s dla r with
        | none => .poison
        | some kid =>
          match openSector s kid dla r with
          | .data d => .write kid d
          | .poison => .pass
          | .otherMode => .poison
          | .macFail => .poison

/-- What the sequencer does with a line as it now stands: a re-key's line goes to its target, whatever else runs. -/
def seqAct (s : State) (dla : Nat) : SeqAct :=
  match rekeyAct s dla with
  | .write kid d => .write kid d
  | .pass => reencAct s dla
  | .left => reencAct s dla
  | .poison => reencAct s dla

/-- The key ID of a verified line moves to the front of its walk's list, and the walk notes the epoch of the write
(R447, R448). -/
def noteWrite (dla : Nat) (kid : Option Nat) (s : State) : State :=
  { s with sec := { s.sec with walks := s.sec.walks.map (fun w =>
    if w.seg = segOf dla then
      { w with epoch := s.per.openEpoch, keys := match kid with
        | some k => k :: w.keys.erase k
        | none => w.keys }
    else w) } }

end Sys2Proof.Machine
end

