-- ==== Sys2Proof/Machine/Home.lean ====
section
/-! DEFINITION. The home agent: requests, the directory, the host snoop filter, snoops and back-invalidates, the miss
path and the dovetail buffer (02, 06, 10, 11). -/

namespace Sys2Proof.Machine

/-! ### Messages out -/

/-- Hands a message to the SGL block, which sends it on its port when credit allows (R321, R383). -/
def sendMsg (m : SglMsg) (s : State) : State :=
  emit (.sgl m) { s with fab := { s.fab with waiting := s.fab.waiting ++ [m] } }

/-- A message of the coherence protocol from this node. -/
def cohMsg (s : State) (kind : MsgKind) (dst txid dla : Nat) : SglMsg :=
  { kind := kind, src := me s, dst := dst, txid := txid, line := dla }

/-- The next TXID of a snoop, 0x800 to 0xFFE (R355). -/
def nextSnp (s : State) : Nat × State :=
  (s.coh.snpTx, { s with coh := { s.coh with snpTx := if s.coh.snpTx = 0xFFE then 0x800 else s.coh.snpTx + 1 } })

/-- A combination a table marks error: discarded, with an event (R354). -/
def protocolError (src dla : Nat) (kind : Nat) (s : State) : State := event .protocolError 9 [src, dla, kind] s

/-! ### Host snoop filter -/

/-- The host snoop filter's entry of a line (R331). -/
def hsfAt (s : State) (node dla : Nat) : HsfEntry := Table.getD s.coh.hsf (lkey node dla) {}

/-- Holding of a port's host: 0 I, 1 S, 2 E. -/
def HsfEntry.of (e : HsfEntry) : Port → Nat
  | .a => e.ha
  | .b => e.hb

/-- Sets the holding of a port's host; an entry with both at I is freed (R362). -/
def setHolding (p : Port) (node dla v : Nat) (s : State) : State :=
  let e := hsfAt s node dla
  let e := match p with
    | .a => { e with ha := v }
    | .b => { e with hb := v }
  let e := if e.ha = 0 ∧ e.hb = 0 then {} else e
  { s with coh := { s.coh with hsf := Table.putD s.coh.hsf (lkey node dla) e {} } }

/-- Key of an outstanding back-invalidate. -/
def biKey (p : Port) (node dla : Nat) : Nat := lkey node dla * 2 + p.ix

/-- Sends a back-invalidate (R333, R335). -/
def sendBi (p : Port) (kind : BiKind) (node dla : Nat) (s : State) : State :=
  let s := count (sliceOf dla) 0x014 0 1 s
  emit (.biSnp p kind node dla) { s with coh := { s.coh with bis := Table.put s.coh.bis (biKey p node dla) kind } }

/-- Sends several back-invalidates of a line. -/
def sendBis (node dla : Nat) : List (Port × BiKind) → State → State
  | [], s => s
  | (p, k) :: t, s => sendBis node dla t (sendBi p k node dla s)

/-- Makes room in a full set of the host snoop filter: a victim that is not BUSY is back-invalidated (R336). Of several,
the first listed is taken (DESIGN CHOICE, log 17). -/
def hsfRoom (node dla : Nat) (s : State) : State :=
  if (Table.get? s.coh.hsf (lkey node dla)).isSome then s
  else
    let inSet := s.coh.hsf.filter (fun x =>
      sliceOf (x.1 % 2 ^ 36) == sliceOf dla && hsfSet (x.1 % 2 ^ 36) == hsfSet dla)
    if inSet.length < 16 then s
    else
      match inSet.find? (fun x => !x.2.busy) with
      | none => s
      | some (k, e) =>
        let s := { s with coh := { s.coh with hsf := Table.put s.coh.hsf k { e with busy := true } } }
        sendBis (k / 2 ^ 36) (k % 2 ^ 36)
          ((if e.ha = 0 then [] else [(Port.a, BiKind.inv)]) ++ (if e.hb = 0 then [] else [(Port.b, BiKind.inv)])) s

/-- Grants a host a holding (R362): E takes the line from the other port. -/
def grantHost (p : Port) (node dla v : Nat) (s : State) : State :=
  if v = 0 then s
  else
    let s := setHolding p node dla v (hsfRoom node dla s)
    if v = 2 then setHolding p.other node dla 0 s else s

/-! ### Answers -/

/-- Counter qualifier of a requester (R578). -/
def Asker.qual : Asker → Nat
  | .host .a _ _ _ _ => 1
  | .host .b _ _ _ _ => 2
  | .node _ _ => 3
  | .dovetail => 4
  | .prefetch => 4
  | .sequencer => 4
  | .cxl .a _ => 1
  | .cxl .b _ => 2

/-- A tenant's byte counters of a port: 64 more read, or written (R551). -/
def usage (p : Port) (tenant : Nat) (write : Bool) (s : State) : State :=
  let h := s.port p
  s.setPort p (if write then { h with wrBytes := Table.put h.wrBytes tenant (Table.getD h.wrBytes tenant 0 + 64) }
    else { h with rdBytes := Table.put h.rdBytes tenant (Table.getD h.rdBytes tenant 0 + 64) })

/-- The read's message to a remote requester (R321). -/
def datKind : ReqKind → MsgKind
  | .rdS => .datS
  | .rdX => .datX
  | .upg => .datX
  | .rdC => .datC
  | .write => .cmp
  | .victim => .cmp

/-- The old line of an open dovetail entry has arrived (R205, R206). -/
def doveOld (dla : Nat) (f : Fill) (how : How) (s : State) : State :=
  { s with cache := { s.cache with dove := Table.modify s.cache.dove dla (fun e => { e with old := some f, how := how }) } }

/-- Answers a read: a host with data or poison and its grant (R333), counted for its tenant (R551) and the trace (R583);
a remote requester with the message of its request (R321). -/
def answer (node dla : Nat) (w : Waiter) (f : Fill) (how : How) (s : State) : State :=
  let s := match f with
    | .poison => count (sliceOf dla) 0x007 w.asker.qual 1 s
    | .data _ _ => s
  match w.asker with
  | .host p tag mv tenant hpa =>
    let s := if orphaned tag then s
      else match f with
        | .data d _ => emit (.hostData p tag d) s
        | .poison => emit (.hostPoison p tag) s
    let s := if orphaned tag then s else grantHost p node dla (match w.kind with | .rdS => 1 | .rdX => 2 | .upg => 2 | .rdC => 0 | .write => 0 | .victim => 0) s
    let cls := match f with
      | .data _ _ => how.cls
      | .poison => 7
    traceDone p tag mv.traceKind cls how.flash how.spec how.kill hpa w.kid tenant node (usage p tenant false s)
  | .node src txid =>
    let m := cohMsg s (datKind w.kind) src txid dla
    match f with
    | .data d v => sendMsg { m with data := d, ver := v, kid := w.kid } s
    | .poison => sendMsg { m with poison := true, kid := w.kid } s
  | .dovetail => doveOld dla f how s
  | .prefetch => s
  | .sequencer => s
  | .cxl _ _ => s

/-- Whether the Cmp of a WRT message returns its credit (R43, R324, R445). -/
def creditBack (s : State) (dla : Nat) : Bool := s.pw.phase != .flush && !creditHold s && !counterHold s dla

/-- A Cmp of a WRT message, with its credit or, while the write limit leaves no room, without (R324). -/
def cmpWrt (src txid dla ver : Nat) (s : State) : State :=
  let c := creditBack s dla
  let s := if c then s else
    { s with coh := { s.coh with owed := Table.put s.coh.owed src (Table.getD s.coh.owed src 0 + 1) } }
  sendMsg { cohMsg s .cmp src txid dla with ver := ver, crd := c } s

/-- Completes a write: a host's completion, with its holding, its tenant's bytes and the trace; a remote writer's Cmp. -/
def completeWrite (dla : Nat) (w : Waiter) (ver : Nat) (s : State) : State :=
  match w.asker with
  | .host p tag mv tenant hpa =>
    let s := if orphaned tag then s else setHolding p (me s) dla mv.holding (emit (.hostCmp p tag) s)
    traceDone p tag (if w.mask = fullMask then 3 else 4) 4 false false false hpa w.kid tenant (me s)
      (usage p tenant true s)
  | .node src txid => cmpWrt src txid dla ver s
  | .dovetail => s
  | .prefetch => s
  | .sequencer => s
  | .cxl p op => if orphaned op then s else emit (.cxl p op 0 []) s

/-! ### Writes -/

/-- Removes a line's dovetail entry: its record's slot is free. -/
def dropDove (dla : Nat) (s : State) : State :=
  { s with cache := { s.cache with dove := Table.del s.cache.dove dla } }

/-- Squashes a line's speculative read: unstarted it leaves, started its data goes to the gutter (R54, R55). -/
def squashSpec (dla : Nat) (s : State) : State :=
  match (mshrAt s (me s) dla).bind (·.spec) with
  | none => s
  | some rid =>
    let s := modMshr (me s) dla (fun m => { m with spec := none }) s
    match Table.get? s.sched.reads rid with
    | none => s
    | some rd =>
      if rd.started && rd.waiting.isNone then
        countSlice dla 0x00B (modRead rid (fun r => { r with squashed := true }) s)
      else if rd.started then countSlice dla 0x00B (retireRead rid s)
      else countSlice dla 0x00A (retireRead rid s)

/-- A medium read whose data is wanted no longer: unstarted it leaves, started its data goes to the gutter. -/
def squashRead (rid : Nat) (s : State) : State :=
  match Table.get? s.sched.reads rid with
  | none => s
  | some rd =>
    if rd.started && rd.waiting.isNone then modRead rid (fun r => { r with squashed := true }) s else retireRead rid s

/-- A miss that began beside the recall of a line's copies is given up: another agent's copy gives the data (R54). -/
def dropMiss (dla : Nat) (s : State) : State :=
  match mshrAt s (me s) dla with
  | none => s
  | some m =>
    if !m.miss then s
    else
      let s := squashSpec dla s
      let s := match m.rid with
        | some rid => squashRead rid s
        | none => s
      modMshr (me s) dla (fun m =>
        { m with miss := false, tagHit := none, loc := none, late := false, rid := none, fill := none, way := none
                 newer := none }) s

/-- Writes a full line in an epoch: its version (R439), its ciphertext accepted into the write buffer (R59), the DRAM
copies gone and the line dirty in SRAM (R274); a miss of the line that is outstanding ends with its data (R61, R64); the
last counter value pins it and starts the segment's re-encryption (R444). -/
def writeFull (dla kid cls ep : Nat) (d : Line) (poison : Bool) (s : State) : Nat × State :=
  let t := takeVer dla s
  let v := t.1
  let s := t.2.2
  let raw := sealLine s kid dla v ep d poison
  let pin := (findLine s (me s) dla).any (fun x => x.2.pin)
  let s := dropDove dla (dropDram (me s) dla s)
  let s := installLine cls
    { node := me s, dla := dla, kid := kid, dirty := true, poison := poison, pf := false, pin := pin || t.2.1
      evict := false, data := d, ver := v } s
  let f : Fill := if poison then .poison else .data d v
  let s := if (mshrAt s (me s) dla).any (fun m => m.trans.isSome) then dropMiss dla s else s
  let s := modMshr (me s) dla (fun m =>
    { m with kid := kid, fill := m.fill.map (fun _ => f)
             newer := if m.miss && m.fill.isNone && !m.oldRead then some f else m.newer }) s
  let s := acceptLine { dla := dla, epoch := ep, kid := kid, raw := raw } s
  (v, if t.2.1 then exhaust dla s else s)

/-- Merges enabled bytes into a dovetail entry; a later byte overwrites an earlier one (R203). -/
def doveMerge (e : Dovetail) (d : Line) (mask : BitVec 64) : Dovetail :=
  { e with data := mergeLine mask d e.data, mask := e.mask ||| mask }

/-- Keeps a dovetail entry, with the record of its bytes in the write buffer on two LPDDR6 devices, encrypted under the
internal media key with its DRAM byte address as tweak (R203, R204, R291). -/
def putDove (dla : Nat) (e : Dovetail) (s : State) : State :=
  let n := slotBase dla e.epoch
  let r := BitVec.ofNat 512 (xtsLine (Config.mediaKey s.sec.salt).toNat (64 * n) false e.data.toNat)
  dramWrites (mirrorWrites s n) { s with cache := { s.cache with dove := Table.put s.cache.dove dla { e with record := r } } }

/-- Only one LPDDR6 device can accept a write while the interruption of the other's failure lasts (R59, R224). -/
def oneDevice (s : State) : Bool := lpddrHeld s

/-- Dovetail entries of a slice (R203). -/
def doveCount (s : State) (slice : Nat) : Nat := s.cache.dove.countP (fun x => sliceOf x.1 == slice)

/-- Closes a dovetail entry (R205). -/
def closeDove (dla : Nat) (s : State) : State :=
  { s with cache := { s.cache with dove := Table.modify s.cache.dove dla (fun e => { e with closed := true }) } }

/-- What a request in progress has come to. -/
inductive Prog where
  | done | wait
deriving DecidableEq, Repr

/-- The tenant of a requester. -/
def Asker.tenant : Asker → Nat
  | .host _ _ _ t _ => t
  | .node _ _ => 0
  | .dovetail => 0
  | .prefetch => 0
  | .sequencer => 0
  | .cxl _ _ => 0

/-- The sequencer's write, ordered like any other (R446): it acts on the line as it now stands, so that what has been
rewritten since its read stands; it waits for the merge of a dovetail entry (R206). -/
def applySeq (dla : Nat) (s : State) : Prog × State :=
  if (Table.get? s.cache.dove dla).isSome then (.wait, modMshr (me s) dla (fun m => { m with dove := true }) (closeDove dla s))
  else
    match seqAct s dla with
    | .pass => (.done, s)
    | .left => (.done, s)
    | .write kid d =>
      (.done, noteWrite dla (some kid) (writeFull dla kid 3 s.per.openEpoch d false s).2)
    | .poison =>
      (.done, event .linePoisoned 10 [dla] (noteWrite dla none (writeFull dla 0 3 s.per.openEpoch 0 true s).2))

/-- A full line waits for an eviction (R275): of the line itself, or of the way that it is directed to, which it reserves
(R273). -/
def evictWait (dla cls : Nat) (s : State) : Bool × State :=
  let slice := sliceOf dla
  let set := cacheSet dla
  match findLine s (me s) dla with
  | some (_, e) => (e.evict, s)
  | none =>
    match (mshrAt s (me s) dla).bind (·.way) with
    | some w => (evicting s slice set w, s)
    | none =>
      match victimWay s cls slice set with
      | none => (false, s)
      | some w =>
        let t := beginEvict slice set w s
        if evicting t slice set w then (true, modMshr (me s) dla (fun m => { m with way := some w }) t) else (false, s)

/-- Applies the write in progress on a line: a full line or a poisoned one is written (R202); a partial one goes into
the dovetail buffer; the line of a new entry is read next (R203 to R206). It waits for a lease (R440), for
the merge of an entry under another key ID (R206), for a free entry (R209), for the end of an eviction (R275), or for that
of an LPDDR6 device's interruption (R59). It belongs to the epoch `ep` in which it was ordered (R242). -/
def applyWriteIn (ep dla : Nat) (w : Waiter) (s : State) : Prog × State :=
  if leaseWait s dla then (.wait, modMshr (me s) dla (fun m => { m with lease := true }) s)
  else if oneDevice s then
    (.wait, modMshr (me s) dla (fun m => { m with held := some ep })
      { s with per := { s.per with openHolds := s.per.openHolds || ep == s.per.openEpoch } })
  else if w.asker = .sequencer then applySeq dla s
  else if w.poison || w.mask == fullMask then
    let v := evictWait dla w.cls s
    if v.1 then
      (.wait, modMshr (me s) dla (fun m => { m with held := some ep })
        { v.2 with per := { v.2.per with openHolds := v.2.per.openHolds || ep == v.2.per.openEpoch } })
    else
      let r := writeFull dla w.kid w.cls ep w.data w.poison (modMshr (me s) dla (fun m => { m with way := none }) s)
      (.done, completeWrite dla w r.1 r.2)
  else
    match Table.get? s.cache.dove dla with
    | some e =>
      if e.kid = w.kid && !e.closed then
        let e := doveMerge e w.data w.mask
        if e.mask = fullMask then
          let r := writeFull dla w.kid w.cls e.epoch e.data false s
          (.done, completeWrite dla w r.1 r.2)
        else
          (.done, completeWrite dla w 0 (putDove dla e s))
      else (.wait, modMshr (me s) dla (fun m => { m with dove := true }) (closeDove dla s))
    | none =>
      if 128 ≤ doveCount s (sliceOf dla) then (.wait, modMshr (me s) dla (fun m => { m with dove := true }) s)
      else
        let e : Dovetail :=
          { data := mergeLine w.mask w.data 0, mask := w.mask, kid := w.kid, tenant := w.asker.tenant
            epoch := ep, cls := w.cls, closed := ep != s.per.openEpoch }
        (.done, completeWrite dla w 0 (closeIfHalf (putDove dla e
          { s with per := { s.per with openHolds := s.per.openHolds || ep == s.per.openEpoch } })))

/-- Applies a write ordered in the open epoch (R242). -/
def applyWrite (dla : Nat) (w : Waiter) (s : State) : Prog × State := applyWriteIn s.per.openEpoch dla w s

/-! ### Medium and DRAM reads for a miss -/

/-- The predicted place of a line's page (R51). -/
def predicted (s : State) (dla : Nat) : Option Loc :=
  match Table.get? s.tr.pred (predKey dla) with
  | some p =>
    if p.tag = lpnOf dla / 32768 then
      some { stack := stackOfLpn (lpnOf dla), group := p.group, part := p.part, course := p.course
             slot := p.slot * 68 + lineOf dla, fast := false }
    else none
  | none => none

/-- A confirmed medium read of a line is in flight: for a miss, for a copy of its page, or for a redrain (R51). -/
def confirmedRead (s : State) (dla : Nat) : Bool :=
  s.sched.reads.any (fun x => match x.2.use with
    | .miss node d => node == me s && d == dla
    | .spec _ _ => false
    | .copy lpn line => lpn * 64 + line == dla
    | .redrain d => d == dla)

/-- Issues a speculative medium read where the predictor hits, the partition is not claimed, and no confirmed read of the
line is in flight (R51). -/
def issueSpec (dla : Nat) (s : State) : State :=
  match predicted s dla with
  | none => s
  | some l =>
    if claimedAt s l || confirmedRead s dla then s
    else
      let r := queueRead (.spec (me s) dla) l 3 s
      countSlice dla 0x008 (modMshr (me s) dla (fun m => { m with spec := some r.1 }) r.2)

/-- Learns a confirmed dense location (R53). -/
def learnPred (dla : Nat) (s : State) : State :=
  let d := denseOf s (lpnOf dla)
  if d.valid then
    let e : PredEntry :=
      { tag := lpnOf dla / 32768, group := d.group, part := d.part, course := d.course, slot := d.slot }
    { s with tr := { s.tr with pred := Table.put s.tr.pred (predKey dla) e } }
  else s

/-! ### The data phase -/

/-- The requester class allocates for this request: reads of non-caching agents do not (R277). -/
def allocates (w : Waiter) : Bool :=
  match w.asker with
  | .host _ _ _ _ _ => true
  | .node _ _ => w.kind != .rdC
  | .dovetail => false
  | .prefetch => true
  | .sequencer => false
  | .cxl _ _ => true

/-- Counts an SRAM word corrected in line and written back in place (R186, R228). -/
def sramCorrected (s : State) : State := { s with prot := { s.prot with sramCorr := satInc 16 s.prot.sramCorr } }

/-- SRAM holds the line: it is answered in class L1 (R38, R45); a word that SECDED corrects is written back, an uncorrectable
one turns the response into poison (R45, R186); the first demand read of a prefetched line is a useful prefetch (R280). -/
def sramHit (dla way : Nat) (e : TagEntry) (w : Waiter) (s : State) : State :=
  let slice := sliceOf dla
  let s := count slice 0x002 w.asker.qual 1 (touch slice (cacheSet dla) way s)
  let s := if e.pf then
      count slice 0x010 0 1 (putWay slice (cacheSet dla) way { e with pf := false } s)
    else s
  let s := if w.sram == .corrected then sramCorrected s else s
  answer (me s) dla w (if e.poison || w.sram == .data then .poison else .data e.data e.ver) { cls := 0 } s

/-- Starts the read of the old line of a dovetail entry, under its key ID and without allocation (R205). -/
def startOld (dla kid : Nat) (s : State) : State :=
  issueSpec dla (modMshr (me s) dla (fun m =>
    { m with kid := kid, miss := true, tagHit := none, loc := none, late := false, rid := none, fill := none, way := none
             pf := false, oldRead := true, newer := none }) s)

/-- Reads the old line of a dovetail entry: from SRAM, or by a miss (R205). -/
def readOld (dla : Nat) (e : Dovetail) (s : State) : State :=
  match findLine s (me s) dla with
  | some (way, t) =>
    if t.kid = e.kid then doveOld dla (if t.poison then .poison else .data t.data t.ver) { cls := 0 } s
    else startOld dla e.kid (evictNow (sliceOf dla) (cacheSet dla) way s)
  | none => startOld dla e.kid s

/-- Starts a miss: the way is reserved, the DRAM-cache tag check and the map lookup begin, and the speculative read where
it is permitted (R46, R273). -/
def startMiss (dla : Nat) (w : Waiter) (s : State) : State :=
  let slice := sliceOf dla
  let set := cacheSet dla
  let way := if allocates w then victimWay s w.cls slice set else none
  let s := match way with
    | some x => beginEvict slice set x s
    | none => s
  let s := modMshr (me s) dla (fun m =>
    { m with kid := w.kid, miss := true, tagHit := none, loc := none, late := false, rid := none, fill := none, way := way
             pf := w.asker == .prefetch, oldRead := false, newer := none }) s
  let s := askMaps dla (if w.asker = .prefetch then 3 else 1) s
  if w.asker = .prefetch then s else issueSpec dla s

/-- The miss of a read begins in the cycle after the compare, beside the recall of other agents' copies (R46, R54): nothing
begins where SRAM or the dovetail buffer holds the line, or for a request that brings data. -/
def startEarly (dla : Nat) (w : Waiter) (s : State) : State :=
  let reads := match w.kind with
    | .rdS => true
    | .rdX => true
    | .rdC => true
    | .upg => true
    | .write => false
    | .victim => false
  if reads && (findLine s (me s) dla).isNone && (Table.get? s.cache.dove dla).isNone
      && (mshrAt s (me s) dla).all (fun m => m.fill.isNone && !m.miss) then startMiss dla w s
  else s

/-- Finds the data of the request in progress at the home: a poisoned transaction (R348), an open dovetail entry, which
closes and is merged first, its old line being read where it has not been (R205, R206), the data buffer of the MSHR (R276), SRAM (R271), or a miss (R46). -/
def dataPhase (dla : Nat) (w : Waiter) (s : State) : Prog × State :=
  match mshrAt s (me s) dla with
  | none => (.done, s)
  | some m =>
    if m.pois then (.done, answer (me s) dla w .poison { cls := 7 } (dropMiss dla s))
    else
      match (if w.asker == .dovetail then none else Table.get? s.cache.dove dla) with
      | some e =>
        let s := if m.oldRead then s else dropMiss dla s
        let s := modMshr (me s) dla (fun m => { m with dove := true }) (closeDove dla s)
        (.wait, if e.old.isNone && !m.oldRead then readOld dla e s else s)
      | none =>
        match (if m.kid = w.kid then m.fill else none) with
        | some f =>
          let s := if m.pf && w.asker != .prefetch then
              count (sliceOf dla) 0x010 0 1 (modMshr (me s) dla (fun m => { m with pf := false }) s)
            else s
          (.done, answer (me s) dla w f m.how s)
        | none =>
          if m.miss && !m.oldRead && m.kid = w.kid then (.wait, s)
          else
          match findLine s (me s) dla with
          | some (way, e) =>
            if e.kid = w.kid then (.done, sramHit dla way e w s)
            else (.wait, startMiss dla w (evictNow (sliceOf dla) (cacheSet dla) way s))
          | none => (.wait, startMiss dla w s)

/-! ### The directory -/

/-- The directory entry of a line; none is HU (R326). -/
def dirAt (s : State) (dla : Nat) : Option DirEntry := Table.get? s.coh.dir dla

/-- A directory state is transient (Table 10-2). -/
def HomeSt.transient : HomeSt → Bool
  | .hs => false
  | .hx => false
  | .hsI => true
  | .hxF => true
  | .hxI => true
  | .hxW => true

/-- When a way of a set becomes free of a transient state, it is held for the oldest refusal queued for the set
(R330). -/
def holdWay (dla : Nat) (s : State) : State :=
  let slice := sliceOf dla
  let set := dirSet dla
  match s.coh.refused.find? (fun r => r.1 == slice && r.2.1 == set) with
  | none => s
  | some r =>
    { s with coh := { s.coh with
      refused := s.coh.refused.erase r
      held := Table.put s.coh.held (slice * 131072 + set) r.2.2 } }

/-- Writes or frees a line's directory entry, recording its use (R328). -/
def setDir (dla : Nat) (e : Option DirEntry) (s : State) : State :=
  let was := (dirAt s dla).any (fun d => d.st.transient)
  let s := match e with
    | some d => { s with coh := { s.coh with
        dir := Table.put s.coh.dir dla { d with used := s.coh.clock }, clock := s.coh.clock + 1 } }
    | none => { s with coh := { s.coh with dir := Table.del s.coh.dir dla } }
  if was && !(e.any (fun d => d.st.transient)) then holdWay dla s else s

/-- The directory entries of a line's set. -/
def dirSetOf (s : State) (dla : Nat) : List (Nat × DirEntry) :=
  s.coh.dir.filter (fun x => sliceOf x.1 == sliceOf dla && dirSet x.1 == dirSet dla)

/-- What a request that needs an entry meets (R328 to R330). -/
inductive Room where
  | free
  | victim (dla : Nat)
  | refuse
deriving DecidableEq, Repr

/-- Room for a line's entry: its own, a free way not held for another's retry, the least recently used stable entry, or
none. -/
def dirRoom (s : State) (dla src : Nat) : Room :=
  if (dirAt s dla).isSome then .free
  else
    let es := dirSetOf s dla
    let hold := match Table.get? s.coh.held (sliceOf dla * 131072 + dirSet dla) with
      | some n => if n = src then 0 else 1
      | none => 0
    if es.length + hold < 16 then .free
    else
      match (es.filter (fun x => !x.2.st.transient)).foldl (fun (a : Option (Nat × DirEntry)) x =>
        match a with
        | none => some x
        | some y => if x.2.used < y.2.used then some x else some y) none with
      | some x => .victim x.1
      | none => .refuse

/-- Nodes the pool records as present (R327). -/
def present (s : State) (n : Nat) : Bool := decide (s.sgl.members / 2 ^ n % 2 = 1)

/-- The sharers an HS entry records (R327). -/
def sharersOf (s : State) (e : DirEntry) : List Nat :=
  if e.cv then (List.range 1024).filter (fun n => decide (e.vec / 2 ^ (n / 16) % 2 = 1) && present s n && n != me s)
  else e.ptrs

/-- The bits of VEC for some nodes. -/
def vecOf (ns : List Nat) : Nat := ns.foldl (fun a n => a ||| 2 ^ (n / 16)) 0

/-- Adds a sharer (R327). -/
def addSharer (e : DirEntry) (n : Nat) : DirEntry :=
  if e.cv then { e with st := .hs, vec := e.vec ||| 2 ^ (n / 16) }
  else if e.ptrs.contains n then { e with st := .hs }
  else if e.ptrs.length < 4 then { e with st := .hs, ptrs := e.ptrs ++ [n] }
  else { e with st := .hs, cv := true, ptrs := [], vec := vecOf (e.ptrs ++ [n]) }

/-- A shared entry of some nodes. -/
def sharedBy (ns : List Nat) : DirEntry := { st := .hs, ptrs := ns }

/-- An owned entry. -/
def ownedBy (n : Nat) : DirEntry := { st := .hx, ptrs := [n] }

/-- The owner of an entry. -/
def ownerOf (e : DirEntry) : Nat := e.ptrs.headD 0

/-! ### Transactions -/

/-- The remote node that asks, if one does. -/
def Asker.node? : Asker → Option Nat
  | .node n _ => some n
  | .host _ _ _ _ _ => none
  | .dovetail => none
  | .prefetch => none
  | .sequencer => none
  | .cxl _ _ => none

/-- The port that asks, if one does. -/
def Asker.port? : Asker → Option Port
  | .host p _ _ _ _ => some p
  | .node _ _ => none
  | .dovetail => none
  | .prefetch => none
  | .sequencer => none
  | .cxl _ _ => none

/-- A port's own request: of its host, or of its CXL mailbox. -/
def Asker.ofPort : Asker → Bool
  | .host _ _ _ _ _ => true
  | .node _ _ => false
  | .dovetail => false
  | .prefetch => false
  | .sequencer => false
  | .cxl _ _ => true

/-- REQN and RQTX of a snoop: the home's own ID for a local request (R322). -/
def reqnOf (s : State) (w : Waiter) : Nat × Nat :=
  match w.asker with
  | .node n t => (n, t)
  | .host _ _ _ _ _ => (me s, 0)
  | .dovetail => (me s, 0)
  | .prefetch => (me s, 0)
  | .sequencer => (me s, 0)
  | .cxl _ _ => (me s, 0)

/-- The back-invalidates a request needs at its home (R333, R334): the requesting port's own host is excepted. -/
def biList (s : State) (dla : Nat) (w : Waiter) : List (Port × BiKind) :=
  let e := hsfAt s (me s) dla
  let of := fun (p : Port) =>
    if w.asker.port? = some p then []
    else
      let h := e.of p
      match w.kind with
      | .rdS => if h = 2 then [(p, BiKind.data)] else []
      | .rdC => if h = 2 then [(p, BiKind.cur)] else []
      | .rdX => if h = 0 then [] else [(p, BiKind.inv)]
      | .upg => if h = 0 then [] else [(p, BiKind.inv)]
      | .write => if h = 0 then [] else [(p, BiKind.inv)]
      | .victim => []
  match w.asker with
  | .dovetail => []
  | .prefetch => []
  | .host _ _ _ _ _ => of .a ++ of .b
  | .node _ _ => of .a ++ of .b
  | .sequencer => of .a ++ of .b
  | .cxl _ _ => of .a ++ of .b

/-- The home's line after a request that needed no snoop of an owner (Tables 11-2 and 11-4). -/
def nextDir (w : Waiter) (e : Option DirEntry) : Option DirEntry :=
  match w.asker.node?, w.kind with
  | some n, .rdS => some (addSharer (e.getD (sharedBy [])) n)
  | some n, .rdX => some (ownedBy n)
  | some n, .upg => some (ownedBy n)
  | some _, .rdC => e
  | some n, .write => match e with
    | some d => if d.st == .hx && ownerOf d == n then e else none
    | none => none
  | some _, .victim => none
  | none, .rdS => e
  | none, .rdC => e
  | none, .rdX => none
  | none, .upg => none
  | none, .write => none
  | none, .victim => none

/-- The copies are recalled: the directory takes its next state, and the home supplies the data, applies the write, or
grants without data (Tables 11-3 and 11-4). -/
def finishCoh (dla : Nat) (w : Waiter) (next : Option DirEntry) (supply : Bool) (s : State) : Prog × State :=
  let t := ((mshrAt s (me s) dla).bind (·.trans)).getD {}
  let s := setDir dla next (modMshr (me s) dla (fun m => { m with trans := none, pois := t.pois }) s)
  let s := if !supply || t.upgC then dropMiss dla s else s
  if !supply then
    match w.asker with
    | .node n tx =>
      let k := if w.kind == .rdX || w.kind == .upg then MsgKind.cmpX else .cmp
      (.done, sendMsg (cohMsg s k n tx dla) s)
    | .host _ _ _ _ _ => (.done, s)
    | .dovetail => (.done, s)
    | .prefetch => (.done, s)
    | .sequencer => (.done, s)
    | .cxl _ _ => (.done, s)
  else
    match w.kind with
    | .write => applyWrite dla w s
    | .victim => (.done, s)
    | .upg =>
      if t.upgC then
        match w.asker with
        | .node n tx => (.done, sendMsg (cohMsg s .cmpX n tx dla) s)
        | .host _ _ _ _ _ => dataPhase dla w s
        | .dovetail => dataPhase dla w s
        | .prefetch => dataPhase dla w s
        | .sequencer => dataPhase dla w s
        | .cxl _ _ => dataPhase dla w s
      else dataPhase dla w s
    | .rdS => dataPhase dla w s
    | .rdX => dataPhase dla w s
    | .rdC => dataPhase dla w s

/-- A snoop from the home (R321). -/
def sendSnp (kind : SnpKind) (dst txid dla : Nat) (own : Bool) (w : Waiter) (s : State) : State :=
  let k := match kind with
    | .s => MsgKind.snpS
    | .x => .snpX
    | .c => .snpC
    | .i => .snpI
  let r := reqnOf s w
  sendMsg { cohMsg s k dst txid dla with own := own, reqn := r.1, rqtx := r.2 }
    (count (sliceOf dla) 0x014 0 1 s)

/-- SnpI with OWN = 0 to each sharer (R327). -/
def invalidateSharers (dla : Nat) (w : Waiter) : List Nat → State → State
  | [], s => s
  | n :: ns, s =>
    let t := nextSnp s
    invalidateSharers dla w ns (sendSnp .i n t.1 dla false w t.2)

/-- Begins a transaction: its record stands in the MSHR, its messages leave, and where nothing is outstanding it goes on at
once (R337, R356). -/
def beginTrans (dla : Nat) (w : Waiter) (e : Option DirEntry) (targets : List Nat) (upgC : Bool) (s : State) :
    Prog × State :=
  let bi := biList s dla w
  if bi.isEmpty && targets.isEmpty then
    let s := modMshr (me s) dla (fun m => { m with trans := some { upgC := upgC } }) s
    finishCoh dla w (nextDir w e) true s
  else
    let s := modMshr (me s) dla (fun m =>
      { m with trans := some { pend := targets, upgC := upgC, bi := bi.map (·.1) } }) s
    let s := if targets.isEmpty then s else setDir dla (e.map (fun d => { d with st := .hsI })) s
    let s := if upgC then s else startEarly dla w s
    (.wait, sendBis (me s) dla bi (invalidateSharers dla w targets s))

/-- Snoops the owner (R357). -/
def snoopOwner (dla : Nat) (w : Waiter) (e : DirEntry) (kind : SnpKind) (s : State) : Prog × State :=
  let t := nextSnp s
  let s := modMshr (me t.2) dla (fun m => { m with trans := some { snp := some (kind, t.1) } }) t.2
  let st := if kind == .i then HomeSt.hxI else .hxF
  (.wait, sendSnp kind (ownerOf e) t.1 dla true w (setDir dla (some { e with st := st }) (startEarly dla w s)))

/-- Begins the request in progress on a line against the home's state (Table 11-2). -/
def startStable (dla : Nat) (w : Waiter) (s : State) : Prog × State :=
  match dirAt s dla with
  | none => beginTrans dla w none [] false s
  | some e =>
    if e.st == .hx then
      let own := w.asker.node? == some (ownerOf e)
      match w.kind with
      | .rdS => if own then (.done, protocolError (ownerOf e) dla 0 s) else snoopOwner dla w e .s s
      | .rdX => if own then (.done, protocolError (ownerOf e) dla 1 s) else snoopOwner dla w e .x s
      | .upg => if own then (.done, protocolError (ownerOf e) dla 3 s) else snoopOwner dla w e .x s
      | .rdC =>
        if own then (.done, protocolError (ownerOf e) dla 2 s)
        else if w.asker == .dovetail then dataPhase dla w s
        else snoopOwner dla w e .c s
      | .write => if own then applyWrite dla w s else snoopOwner dla w e .i s
      | .victim => snoopOwner dla w e .i s
    else
      let all := sharersOf s e
      match w.asker.node?, w.kind with
      | some n, .rdX => beginTrans dla w (some e) (all.filter (· != n)) false s
      | some n, .upg => beginTrans dla w (some e) (all.filter (· != n)) (!e.cv && e.ptrs.contains n) s
      | some n, .write => beginTrans dla w (some e) (all.filter (· != n)) false s
      | none, .rdX => beginTrans dla w (some e) all false s
      | none, .write => beginTrans dla w (some e) all false s
      | _, .victim => beginTrans dla w (some e) all false s
      | none, .upg => beginTrans dla w (some e) all false s
      | _, .rdS => beginTrans dla w (some e) [] false s
      | _, .rdC => beginTrans dla w (some e) [] false s

/-- A refusal (R329): those for want of an entry are queued, up to 16 for each slice (R330). -/
def refuse (dla src txid rsn : Nat) (s : State) : State :=
  let slice := sliceOf dla
  let s := count slice 0x015 0 1 s
  let s := if rsn = 0 ∧ s.coh.refused.countP (fun r => r.1 == slice) < 16 then
      { s with coh := { s.coh with refused := s.coh.refused ++ [(slice, dirSet dla, src)] } }
    else s
  sendMsg { cohMsg s .rtyH src txid dla with rsn := rsn } s

/-- Whether a request needs a directory entry (Table 11-2). -/
def needsEntry (w : Waiter) : Bool :=
  (w.asker.node?).isSome && (w.kind == .rdS || w.kind == .rdX || w.kind == .upg)

/-- Starts the request in progress on a line: a request that needs an entry of a full set evicts the least recently used
one and waits, or is refused where all are transient (R328, R329). -/
def startCur (dla : Nat) (w : Waiter) (s : State) : Prog × State :=
  if needsEntry w then
    match w.asker with
    | .node src txid =>
      match dirRoom s dla src with
      | .free =>
        startStable dla w { s with coh := { s.coh with
          held := Table.del s.coh.held (sliceOf dla * 131072 + dirSet dla) } }
      | .refuse => (.done, refuse dla src txid 0 s)
      | .victim v =>
        let s := modMshr (me s) dla (fun m => { m with hold := true }) s
        match mshrAt s (me s) v with
        | some _ => (.wait, s)
        | none =>
          let c : Waiter := { kind := .victim, asker := .sequencer, kid := 0, cls := 3 }
          let s := putMshr (me s) v { kid := 0, cur := some c } s
          (.wait, (startStable v c s).2)
    | .host _ _ _ _ _ => startStable dla w s
    | .dovetail => startStable dla w s
    | .prefetch => startStable dla w s
    | .sequencer => startStable dla w s
    | .cxl _ _ => startStable dla w s
  else startStable dla w s

/-! ### Maintenance of a line -/

/-- CLEAN, INVAL or FLUSH of a line of this home (R281). -/
def maintLine (node dla : Nat) (op : MaintOp) (s : State) : State :=
  let clean := fun (s : State) =>
    match findLine s node dla with
    | some (w, e) =>
      if e.dirty && !e.poison then
        putWay (sliceOf dla) (cacheSet dla) w { e with dirty := false } (installDram e s)
      else s
    | none => s
  let inval := fun (s : State) =>
    match findLine s node dla with
    | some (w, e) =>
      if e.pin then dropDram node dla s
      else dropDram node dla (delWay (sliceOf dla) (cacheSet dla) w (countWasted e s))
    | none => dropDram node dla s
  match op with
  | .clean => clean s
  | .inval => inval s
  | .flush => inval (clean s)

/-- A line of a maintenance operation has been applied: LEFT counts down (R287). -/
def maintApplied (snd : Sender) (s : State) : State :=
  let m := nthD s.cache.maint snd.ix {}
  { s with cache := { s.cache with maint := setNth s.cache.maint snd.ix { m with left := m.left - 1 } } }

/-! ### Driving an MSHR -/

/-- The read of the old line of a dovetail entry, as a request (R205). -/
def oldReader (kid : Nat) : Waiter := { kind := .rdC, asker := .dovetail, kid := kid, cls := 5 }

/-- Takes the entries of an MSHR in order until one has to wait (R283, R337); an empty one is released. -/
def drive : Nat → Nat → State → State
  | 0, _, s => s
  | n + 1, dla, s =>
    match mshrAt s (me s) dla with
    | none => s
    | some m =>
      match m.cur with
      | some _ => s
      | none =>
        match m.queue with
        | [] =>
          if m.way.isSome then s
          else if (Table.get? s.cache.dove dla).any (fun e => e.old.isNone) then
            let w := oldReader (((Table.get? s.cache.dove dla).map (·.kid)).getD m.kid)
            let r := dataPhase dla w (modMshr (me s) dla (fun m => { m with cur := some w }) s)
            match r.1 with
            | .wait => r.2
            | .done => delMshr (me r.2) dla r.2
          else delMshr (me s) dla s
        | .maint snd op :: q =>
          match Table.get? s.cache.dove dla with
          | some e =>
            let s := modMshr (me s) dla (fun m => { m with dove := true }) (closeDove dla s)
            if e.old.isNone && !m.oldRead then readOld dla e s else s
          | none =>
            if (findLine s (me s) dla).any (fun x => x.2.evict) then s
            else
            drive n dla (maintApplied snd (maintLine (me s) dla op
              (modMshr (me s) dla (fun m => { m with queue := q, fill := if op == .clean then m.fill else none }) s)))
        | .req w :: q =>
          let r := startCur dla w (modMshr (me s) dla (fun m => { m with cur := some w, queue := q }) s)
          match r.1 with
          | .wait => r.2
          | .done => drive n dla (modMshr (me r.2) dla (fun m => { m with cur := none, trans := none, pois := false }) r.2)

/-- A request that waited for a dovetail entry of the slice goes on where it waits no longer: a partial write once an
entry is free (R209), and what waited for an entry that is gone (R206). -/
def wakeDove (slice : Nat) (s : State) : State :=
  match s.cache.mshrs.find? (fun x => x.2.dove && x.1 / 2 ^ 36 == me s && sliceOf (x.1 % 2 ^ 36) == slice
      && (Table.get? s.cache.dove (x.1 % 2 ^ 36)).isNone) with
  | none => s
  | some (k, m) =>
    let d := k % 2 ^ 36
    let s := modMshr (me s) d (fun m => { m with dove := false }) s
    match m.cur with
    | none => drive 20 d s
    | some w =>
      let r := if w.kind == .write then applyWrite d w s else dataPhase d w s
      match r.1 with
      | .wait => r.2
      | .done => drive 20 d (modMshr (me r.2) d (fun m => { m with cur := none, trans := none, pois := false }) r.2)

/-- The request in progress ends; what waits for its line, and a request that waits for its directory set, go on. -/
def finishCur (dla : Nat) (s : State) : State :=
  let s := modMshr (me s) dla (fun m =>
    { m with cur := none, trans := none, pois := false, dove := false, lease := false, held := none, hold := false }) s
  let s := if ((mshrAt s (me s) dla).bind (·.fill)).isSome && ((mshrAt s (me s) dla).bind (·.way)).isSome then s
    else drive 20 dla s
  let s := wakeDove (sliceOf dla) s
  match s.cache.mshrs.find? (fun x => x.2.hold && x.1 / 2 ^ 36 == me s && sliceOf (x.1 % 2 ^ 36) == sliceOf dla
      && dirSet (x.1 % 2 ^ 36) == dirSet dla) with
  | none => s
  | some (k, m) =>
    match m.cur with
    | none => s
    | some w =>
      let d := k % 2 ^ 36
      let s := modMshr (me s) d (fun m => { m with hold := false }) s
      let r := startCur d w s
      match r.1 with
      | .wait => r.2
      | .done => drive 20 d (modMshr (me r.2) d (fun m => { m with cur := none, trans := none, pois := false }) r.2)

/-- Ends the request in progress where a part of it has come to its end. -/
def settle (dla : Nat) (r : Prog × State) : State :=
  match r.1 with
  | .wait => r.2
  | .done => finishCur dla r.2

/-- A line's requests that waited for a merge go on: a read under the entry's key ID is answered with the merged line
in the class of the path its old line took (R206); a write, or a read under another key ID, is taken again. -/
def resumeDove (dla : Nat) (kid : Nat) (f : Option (Fill × How)) (s : State) : State :=
  match mshrAt s (me s) dla with
  | none => s
  | some m =>
    if !m.dove then s
    else
      let s := modMshr (me s) dla (fun m => { m with dove := false }) s
      match m.cur with
      | none => drive 20 dla s
      | some w =>
        if w.kind == .write then settle dla (applyWrite dla w s)
        else
          match f with
          | some x => if w.kid = kid then finishCur dla (answer (me s) dla w x.1 x.2 s) else settle dla (dataPhase dla w s)
          | none => settle dla (dataPhase dla w s)

/-- A full line has replaced a line's dovetail entry: the read of its old line is squashed where it has not completed
(R205), the merge is abandoned (R206), and what waited for it goes on. -/
def abandonMerge (dla : Nat) (s : State) : State :=
  let s :=
    match mshrAt s (me s) dla with
    | none => s
    | some m =>
      let reader := m.cur.any (fun w => w.asker == .dovetail)
      let s := if m.oldRead || reader then
          let s := squashSpec dla s
          let s := match m.rid with
            | some rid => squashRead rid s
            | none => s
          modMshr (me s) dla (fun m => { m with oldRead := false, miss := false, rid := none, tagHit := none, loc := none }) s
        else s
      if reader then finishCur dla s else resumeDove dla 0 none s
  wakeDove (sliceOf dla) s

/-- A request reaches its home's compare cycle: it joins the line's MSHR, or begins (R60, R276, R337). A host request to a
line whose snoop filter entry is BUSY waits (Table 11-8). -/
def homeRequest (dla : Nat) (w : Waiter) (s : State) : State :=
  let s := count (sliceOf dla) 0x001 w.asker.qual 1 s
  let s := if (Table.get? s.cache.dove dla).isSome && !(w.kind == .write && w.mask != fullMask && !w.poison) then
      closeDove dla s
    else s
  match mshrAt s (me s) dla with
  | some m =>
    match w.asker with
    | .node src txid =>
      if 16 ≤ m.queue.length && w.kind != .write then refuse dla src txid 1 s
      else modMshr (me s) dla (fun m => { m with queue := m.queue ++ [.req w] }) s
    | .host _ _ _ _ _ => modMshr (me s) dla (fun m => { m with queue := m.queue ++ [.req w] }) s
    | .dovetail => modMshr (me s) dla (fun m => { m with queue := m.queue ++ [.req w] }) s
    | .prefetch => modMshr (me s) dla (fun m => { m with queue := m.queue ++ [.req w] }) s
    | .sequencer => modMshr (me s) dla (fun m => { m with queue := m.queue ++ [.req w] }) s
    | .cxl _ _ => modMshr (me s) dla (fun m => { m with queue := m.queue ++ [.req w] }) s
  | none =>
    if (hsfAt s (me s) dla).busy && w.asker.ofPort then
      putMshr (me s) dla { kid := w.kid, cur := none, queue := [.req w] } s
    else settle dla (startCur dla w (putMshr (me s) dla { kid := w.kid, cur := some w } s))

/-- A partial write that finds its line's dovetail entry open, under its key ID, merges at once (R203): the copies were
invalidated when the entry opened. -/
def mergesOpen (s : State) (dla : Nat) (w : Waiter) : Bool :=
  match Table.get? s.cache.dove dla with
  | some e => w.kind == .write && w.mask != fullMask && !w.poison && e.kid == w.kid && !e.closed
      && (dirAt s dla).isNone && !leaseWait s dla
  | none => false

/-- Applies a write outside the order of the MSHR: that of an owner, and of a host that writes back a line it holds in E,
because no other copy exists (R334, R340); a read ordered after it finds what it wrote (R62).
A partial one merges into the line's dovetail entry of the open epoch or opens one, whose old line is read when the line is next taken. None where it has to wait: for a lease (R440), for two devices to
accept it (R59), or for the merge of a closed entry or one of another key ID or an earlier epoch (R205, R206). -/
def applyAtOnce (dla : Nat) (w : Waiter) (s : State) : Option State :=
  if leaseWait s dla || oneDevice s then none
  else if w.poison || w.mask == fullMask then
    let r := writeFull dla w.kid w.cls s.per.openEpoch w.data w.poison s
    let t := completeWrite dla w r.1 r.2
    some (if (Table.get? s.cache.dove dla).isSome then abandonMerge dla t else t)
  else
    match Table.get? s.cache.dove dla with
    | some e =>
      if e.kid = w.kid && !e.closed && e.epoch == s.per.openEpoch then
        let e := doveMerge e w.data w.mask
        if e.mask = fullMask then
          let r := writeFull dla w.kid w.cls e.epoch e.data false s
          some (abandonMerge dla (completeWrite dla w r.1 r.2))
        else
          some (completeWrite dla w 0 (putDove dla e s))
      else none
    | none =>
      if 128 ≤ doveCount s (sliceOf dla) then none
      else
        let e : Dovetail :=
          { data := mergeLine w.mask w.data 0, mask := w.mask, kid := w.kid, tenant := w.asker.tenant
            epoch := s.per.openEpoch, cls := w.cls }
        some (completeWrite dla w 0 (closeIfHalf (putDove dla e { s with per := { s.per with openHolds := true } })))

/-- A host write of a line its host holds in E is applied at once (R334). -/
def holdsE (s : State) (dla : Nat) (w : Waiter) : Bool :=
  match w.asker with
  | .host p _ _ _ _ => w.kind == .write && decide ((hsfAt s (me s) dla).of p = 2)
  | .node _ _ => false
  | .dovetail => false
  | .prefetch => false
  | .sequencer => false
  | .cxl _ _ => false

/-- A host request at its home. -/
def localRequest (dla : Nat) (w : Waiter) (s : State) : State :=
  if mergesOpen s dla w then
    let t := (applyWrite dla w (count (sliceOf dla) 0x001 w.asker.qual 1 s)).2
    if (Table.get? t.cache.dove dla).isSome then t else abandonMerge dla t
  else if holdsE s dla w && (mshrAt s (me s) dla).isSome then
    match applyAtOnce dla w (count (sliceOf dla) 0x001 w.asker.qual 1 s) with
    | some s => s
    | none => homeRequest dla w s
  else homeRequest dla w s

end Sys2Proof.Machine
end

