-- ==== Sys2Proof/Machine/Ladder.lean ====
section
/-! DEFINITION. What a medium read makes of what its dies return: the reference sets, the retry ladder, the outer code, P
and Q (03, 05, 06). -/

namespace Sys2Proof.Machine

/-! ### Reference sets -/

/-- A set of the 15 references that a sense uses (R161, R162, Table 05-4). -/
inductive RefSet where
  /-- the refined set of a bucket (R161) -/
  | refined (k : Nat)
  /-- the refined set moved one bucket further, older or younger (step 1) -/
  | moved (k : Nat) (older : Bool)
  /-- the measured set (R162) -/
  | measured
  /-- the measured set moved one bucket older (step 1) -/
  | measuredOlder (k : Nat)
  /-- a row of the die's table (R164) -/
  | row (k : Nat)
deriving DecidableEq, Repr

/-- A row of a die's reference table; beyond its ends the last row there is (DESIGN CHOICE, log 98). -/
def tableRow (die k : Nat) : List Nat := (List.range 15).map (fun j => (Config.refTable die (min k 31) j).toNat)

/-- The shift of a row's references against a table row (R161). -/
def shiftsOf (die k : Nat) (cells : List Nat) : List Int :=
  (List.range 15).map (fun j => Config.cellShift cells (tableRow die k) j)

/-- The refined set (R161): each reference of row BUCKET with its shift added, clamped between rows BUCKET − 2 and
BUCKET + 2. -/
def refinedSet (die k : Nat) (cells : List Nat) : List Int :=
  let at0 := tableRow die k
  let lo := tableRow die (k - 2)
  let hi := tableRow die (k + 2)
  (List.range 15).map (fun j =>
    let a : Int := nthD lo j 0
    let b : Int := nthD hi j 0
    max (min a b) (min (max a b) (nthD at0 j 0 + nthD (shiftsOf die k cells) j 0)))

/-- Position of a level as the reference cells give it (R162): the odd levels are theirs, level 0 is the reset level, each
even level lies midway between its odd neighbours. -/
def levelPos (die : Nat) (cells : List Nat) (i : Nat) : Int :=
  let odd := fun (n : Nat) => (nthD cells (n / 2) 0 : Int)
  if i = 0 then Config.resetLevel die
  else if i % 2 = 1 then odd i
  else Config.midLog (odd (i - 1)) (odd (i + 1))

/-- The measured set (R162): reference j midway between levels j − 1 and j. -/
def measuredSet (die : Nat) (cells : List Nat) : List Int :=
  (List.range 15).map (fun j => Config.midLog (levelPos die cells j) (levelPos die cells (j + 1)))

/-- What one bucket, older or younger, moves a reference by (Table 05-4, step 1). -/
def bucketStep (die k : Nat) (older : Bool) (j : Nat) : Int :=
  (nthD (tableRow die (if older then k + 1 else k - 1)) j 0 : Int) - nthD (tableRow die k) j 0

/-- The direction of the reference-cell shift: older where the references' shifts do not sum below zero (DESIGN CHOICE, log
98). -/
def shiftOlder (die k : Nat) (cells : List Nat) : Bool := decide (0 ≤ (shiftsOf die k cells).foldl (· + ·) 0)

/-- The 15 codes of a set on a die, with the row's reference cells. -/
def refCodes (die : Nat) (cells : List Nat) : RefSet → List Int
  | .refined k => refinedSet die k cells
  | .moved k older => (List.range 15).map (fun j => nthD (refinedSet die k cells) j 0 + bucketStep die k older j)
  | .measured => measuredSet die cells
  | .measuredOlder k => (List.range 15).map (fun j => nthD (measuredSet die cells) j 0 + bucketStep die k true j)
  | .row k => (tableRow die k).map (fun c => (c : Int))

/-- The row's reference cells show a shift of more than one bucket from table row BUCKET (R171): that of some reference is
larger than the step to the next row (DESIGN CHOICE, log 98). No reading shows none. -/
def shiftWide (die k : Nat) (cells : List Nat) : Bool :=
  !cells.isEmpty && (List.range 15).any (fun j =>
    let d := nthD (shiftsOf die k cells) j 0
    decide ((bucketStep die k (decide (0 ≤ d)) j).natAbs < d.natAbs))

/-- BUCKET of a bucket byte (Table 05-2). -/
def byteBucket (b : Nat) : Nat := b % 32

/-- MEAS of a bucket byte. -/
def byteMeas (b : Nat) : Bool := decide (b / 64 % 2 = 1)

/-- The sets of a dense read in the order it tries them (Table 05-4, R164): step 0, step 1, and the full ladder, which skips
rows outside 0 to 31 and the measured set where step 0 has tried it. -/
def ladderSets (byte : Nat) (older : Bool) : List RefSet :=
  let k := byteBucket byte
  let rows := [some (k + 1), some (k + 2), if 1 ≤ k then some (k - 1) else none, some (k + 3), if 2 ≤ k then some (k - 2) else none]
  let row := fun (r : Option Nat) => (r.filter (· ≤ 31)).map RefSet.row
  (if byteMeas byte then [.measured, .measuredOlder k] else [.refined k, .moved k older])
    ++ rows.filterMap row ++ (if byteMeas byte then [] else [.measured]) ++ [some (k + 4), some (k + 5)].filterMap row

/-! ### One member -/

/-- How reading a sector on a member ended: the step that recovered it, what it delivers, and the senses made. -/
structure MemberEnd where
  step   : Recovery
  raw    : RawSector
  senses : Nat
deriving DecidableEq, Repr

/-- The first of n senses, from sense i on, that passes the inner code: its number, bits and sector. -/
def firstPass (stored : RawSector) (m : MemberSense) : Nat → Nat → Option (Nat × Nat × RawSector)
  | _, 0 => none
  | i, n + 1 =>
    match innerDecode stored (m.tries.getD i {}) with
    | some (b, r) => some (i, b, r)
    | none => firstPass stored m (i + 1) n

/-- The 68 sectors of the page of a sector. -/
def pageSectors (s : State) (l : Loc) : List RawSector :=
  (List.range 68).map (fun i => cellAt s { l with slot := l.slot / 68 * 68 + i })

/-- The outer code over a sector's page: a fast course and a ledger have none (R182, Tables 01-11 and 01-12). -/
def byOuter (s : State) (l : Loc) (m : MemberSense) : Option RawSector :=
  if l.fast || decide (ledgerAt false ≤ l.slot) then none else outerDecode (l.slot % 68) (pageSectors s l) m

/-- Reads a sector on its own die (Table 05-4): step 0, in a dense course step 1 (R165) and with `full` the whole ladder (R163,
R164), else none of it; then the outer code (R183). -/
def memberEnd (s : State) (l : Loc) (byte : Nat) (full : Bool) (m : MemberSense) : MemberEnd :=
  let stored := cellAt s l
  let n := if l.fast then 1 else if full then (ladderSets byte true).length else 2
  match firstPass stored m 0 n with
  | some (i, b, r) => ⟨if i = 0 then .inner b else if i = 1 then .retry b else .ladder (i - 2) b, r, i + 1⟩
  | none =>
    match byOuter s l m with
    | some r => ⟨.outer, r, n⟩
    | none => ⟨.lost, 0, n⟩

/-! ### The other members -/

/-- The same sector on another member (R31). -/
def onStack (l : Loc) (t : Nat) : Loc := { l with stack := t }

/-- How the other members of the stripe end, in ascending stack order: with their stacks (R94, R219). -/
def othersEnd (s : State) (x : Stripe) (l : Loc) (ms : List MemberSense) : List (Nat × MemberEnd) :=
  ((x.members.filter (fun t => t != l.stack)).zipIdx).map (fun u =>
    (u.1, memberEnd s (onStack l u.1) (readByte s u.1 l.stripe) false (ms.getD u.2 {})))

/-- The XOR of what the other members deliver (R94). -/
def xorEnds (es : List (Nat × MemberEnd)) : RawSector := es.foldl (fun a e => a ^^^ e.2.raw) 0

/-- Q of a round as its sectors hold it (R130). -/
def qHeld (s : State) (l : Loc) : Nat :=
  (List.range 32).foldl (fun a i => a + (secData (cellAt s { l with slot := l.slot + i })).toNat <<< (512 * i)) 0

/-- Row r of the member on stack a, where those on stacks a and b are unknown, from the others, P and Q (R129, Table 06-2). -/
def rowByQ (s : State) (k : Nat) (x : Stripe) (a b q r : Nat) : Nat :=
  let known := x.members.filter (fun t => t != a && t != b)
  let sum := known.foldl (fun v t => v ^^^ rowRaw s k t false r) 0
  let rest := (List.range 8).foldl (fun v i =>
    xtimes 2048 v ^^^ (if known.contains (7 - i) && 7 - i != x.pStack then rowRaw s k (7 - i) false r else 0)) 0 ^^^ q
  if b = x.pStack then byteMul 2048 (byteInv (bytePow 2 a)) rest
  else if a = x.pStack then sum ^^^ byteMul 2048 (byteInv (bytePow 2 b)) rest
  else twoLost 2048 a b sum rest

/-- A sector recovered by P and Q from a round of a dense stripe that is not verified, its own stack and another unknown
(Table 06-2). -/
def byQ (s : State) (x : Stripe) (l : Loc) (b : Nat) : Option RawSector :=
  let rs := rowsOf false l.slot
  if l.fast || rs.any (fun r => (Table.get? x.qtab r).isNone) then none
  else
    let v := (rs.zipIdx).foldl (fun a r =>
      a + (rowByQ s l.stripe x l.stack b (qHeld s ((Table.get? x.qtab r.1).getD l)) r.1) <<< (8 * 2048 * r.2)) 0
    some (BitVec.ofNat 640 (v >>> (8 * (sectorByte l.slot - firstRow false l.slot * 2048))))

/-- Reconstruction from the other members (Table 05-4 step 4, Table 06-2): by P where all are there and recovered; where one
more is lost or fails, by Q in a dense round not yet verified. -/
def byParity (s : State) (x : Stripe) (l : Loc) (es : List (Nat × MemberEnd)) : Option (Recovery × RawSector) :=
  let gone := x.lost.filter (fun t => t != l.stack) ++ (es.filter (fun e => e.2.step == .lost)).map (·.1)
  match gone with
  | [] => some (.parity, xorEnds es)
  | [b] => (byQ s x l b).map (fun r => (.second, r))
  | _ => none

/-! ### The end of a read -/

/-- How a medium read ended. -/
structure Ended where
  /-- every recovery step failed -/
  lost    : Bool
  /-- it took a step beyond the first retry: L4 (R163) -/
  late    : Bool
  /-- the target itself was sensed -/
  direct  : Bool
  /-- the step that recovered the target where it was sensed -/
  step    : Recovery
  /-- the other members that were sensed, with their ends -/
  others  : List (Nat × MemberEnd)
  /-- senses of the target -/
  senses  : Nat
  /-- the protected bits delivered, corrected (R64, R192) -/
  raw     : RawSector
deriving DecidableEq, Repr

/-- Recovered at step 0 or 1 (R163): within L3. -/
def Recovery.early : Sys2Proof.Recovery → Bool
  | .inner _ => true
  | .retry _ => true
  | .ladder _ _ => false
  | .outer => false
  | .parity => false
  | .second => false
  | .lost => false

/-- A direct read goes down the ladder of its own die, then to P (Tables 05-4 and 06-2). -/
def directEnd (s : State) (x : Stripe) (rd : MedRead) (res : SenseResult) (tried : List (Nat × MemberEnd)) : Ended :=
  let e := memberEnd s rd.loc rd.bucket true res.target
  if e.step != .lost then
    { lost := false, late := !Recovery.early e.step || rd.flashing, direct := true, step := e.step, others := tried
      senses := e.senses, raw := e.raw }
  else
    let es := othersEnd s x rd.loc res.sources
    match byParity s x rd.loc es with
    | some (step, r) =>
      { lost := false, late := true, direct := true, step := step, others := es, senses := e.senses, raw := r }
    | none => { lost := true, late := true, direct := true, step := .lost, others := es, senses := e.senses, raw := 0 }

/-- The end of a medium read; a fast sector has no outer code (DEDUCED, log 118). A lost member is read from the survivors,
each by the outer code at the latest (R219), two members of an unverified dense round by Q (R184, Table 06-2). A flashing read whose sources all pass by their first retry is
their XOR (R94); otherwise the target is read directly (R96). -/
def readEnd (s : State) (rd : MedRead) (res : SenseResult) : Ended :=
  let x := stripeOf s rd.loc
  let es := othersEnd s x rd.loc res.sources
  if x.lost.contains rd.loc.stack then
    let late := es.any (fun e => !Recovery.early e.2.step)
    match byParity s x rd.loc es with
    | some (step, r) => { lost := false, late := late, direct := false, step := step, others := es, senses := 0, raw := r }
    | none => { lost := true, late := true, direct := false, step := .lost, others := es, senses := 0, raw := 0 }
  else if rd.flashing then
    if es.all (fun e => Recovery.early e.2.step) then
      { lost := false, late := false, direct := false, step := .inner 0, others := es, senses := 0, raw := xorEnds es }
    else directEnd s x rd res es
  else directEnd s x rd res []

/-- Sets that a read's senses of its target used, sent to its die (R161 to R164). -/
def sendSets (rd : MedRead) (res : SenseResult) (e : Ended) (s : State) : State :=
  if rd.loc.fast then s
  else
    let die := dieBit rd.loc.stack rd.loc.group
    let sets := ladderSets rd.bucket (shiftOlder die (byteBucket rd.bucket) res.target.cells)
    (sets.take e.senses).foldl (fun s r => emit (.refs rd.loc.stack rd.loc.group (refCodes die res.target.cells r)) s) s

end Sys2Proof.Machine
end

