-- ==== Sys2Proof/Machine/Loss.lean ====
section
/-! DEFINITION. Faults of dies, channels, stacks and LPDDR6 devices: deadlines, declarations, the held requests and
their release (06, 09). -/

namespace Sys2Proof.Machine

/-! ### LPDDR6 devices -/

/-- Cached lines by key whose copy lies on a device are invalidated in the DRAM-cache tags (R311). -/
def offDevice {α : Type} (n node : Nat) (t : Table α) : Table α :=
  t.filter (fun x => lineChan (Config.dramLineOf (node * 2 ^ 36 + x.1)) / 4 != n)

/-- A fault's interruption begins: its requests are held until the release (R224). -/
def beginFault (f : HeldFault) (s : State) : State :=
  if s.prot.faults.contains f then s else { s with prot := { s.prot with faults := s.prot.faults ++ [f] } }

/-- The queued reads of a failed device (R311): those of mirrored structures are re-issued to the other copy, the others are
abandoned. -/
def reissueReads (n : Nat) (s : State) : List DramReq :=
  s.dram.queue.filterMap (fun r =>
    if lineChan r.line / 4 ≠ n then some r
    else if r.use != .line || (r.node == s.sgl.cfg.node && (newestSlot s r.dla).isSome) then some { r with line := r.line ^^^ 8 }
    else none)

/-- LPDDR6 device Dn is declared failed (R310, R311): its queued accesses are abandoned or re-issued, its tags go, LOST_LPD is
set, and re-mirroring waits for the release. -/
def failLpddr (n : Nat) (s : State) : State :=
  if lpddrLost s n then s
  else
    let s := { s with
      prot := { s.prot with lostLpd := s.prot.lostLpd + 2 ^ n }
      dram := { s.dram with
        queue := reissueReads n s
        writes := s.dram.writes.filter (fun x => lineChan x / 4 != n)
        cache := offDevice n s.sgl.cfg.node s.dram.cache
        remote := offDevice n 0 s.dram.remote
        remir := match s.dram.remir with
          | some r => some r
          | none => some (n, 0) } }
    beginFault (.lpddr n) (event .lpddrFailed 8 [n] s)

/-- A DQ of a channel qualifies (R293): it is marked, and a second one fails the device (R310). -/
def markDq (c dq : Nat) (s : State) : State :=
  let x := chanAt s c
  match x.mark with
  | none => putChan c { x with mark := some dq } s
  | some d => if d = dq then s else failLpddr (c / 4) s

/-- A corrected LPDDR6 line of a channel: it is counted and waits for its write-back (R187); 16 corrected lines of one DQ
within 1 s mark the DQ (R293); 8 lines within 1 s ask for a retraining (R306). -/
def dramCorrected (line : Nat) (dqs : List Nat) (s : State) : State :=
  let c := lineChan line
  let s := { s with
    prot := { s.prot with dramCorr := satInc 16 s.prot.dramCorr }
    dram := { s.dram with wback := if s.dram.wback.contains line then s.dram.wback else s.dram.wback ++ [line] } }
  let x := chanAt s c
  let corr := ((dqs, s.now) :: x.corr).filter (fun y => decide (s.now - y.2 < second))
  let x := { x with corr := corr, retrain := x.retrain || decide (8 ≤ corr.length) }
  (dqs.filter (fun d => decide (16 ≤ corr.countP (fun y => y.1.contains d)))).foldl (fun s d => markDq c d s) (putChan c x s)

/-- What the DRAM code makes of a read of a line, given what was written there (R292, R293). -/
def decodeAt (s : State) (n : Nat) (stored : BitVec 576) (x : DramSense) : DramDecode :=
  dramDecode (chanAt s (lineChan n)).mark stored x

/-- How a read of a map line ended: its code clean or corrected, served by the other mirror, or failing on both (R194). -/
inductive MapRead where
  | good | other | lost
deriving DecidableEq, Repr

/-- A read of a mirrored line of the maps (R187, R194): a line that fails is read from the other mirror, and rewritten. That a
pattern of errors is taken for another codeword is left out (log 113). -/
def readMirror (n line : Nat) (x y : DramSense) (s : State) : MapRead × State :=
  match decodeAt s line 0 { err := x.err } with
  | .clean => (.good, s)
  | .corrected dqs => (.good, dramCorrected line dqs s)
  | .wrong _ _ => (.good, s)
  | .uncorrectable =>
    let s := { s with prot := { s.prot with dramUe := satInc 16 s.prot.dramUe } }
    match otherCopy s n line with
    | none => (.lost, s)
    | some m =>
      match decodeAt s m 0 { err := y.err } with
      | .clean => (.other, dramWrites [line] s)
      | .corrected dqs => (.other, dramWrites [line] (dramCorrected m dqs s))
      | .wrong _ _ => (.other, dramWrites [line] s)
      | .uncorrectable => (.lost, s)

/-- Counts an LPDDR6 line that fails its code (R228). -/
def dramUncorrectable (s : State) : State :=
  { s with prot := { s.prot with dramUe := satInc 16 s.prot.dramUe } }

/-! ### Dies, channels, stacks -/

/-- Core cycles in one millisecond. -/
def millisecond : Nat := 2400000

/-- Holds all medium reads from the declaration of a medium fault (Table 06-6). -/
def holdMedium (s : State) : State := beginFault .medium { s with sched := { s.sched with held := true } }

/-- Medium channel n is marked failed. -/
def setLostMc (n : Nat) (s : State) : State :=
  if s.prot.lostMc / 2 ^ n % 2 = 1 then s else { s with prot := { s.prot with lostMc := s.prot.lostMc + 2 ^ n } }

/-- A stack is declared failed (R226): both channels and all eight dies are lost. -/
def failStack (t : Nat) (s : State) : State :=
  if s.prot.lostStack / 2 ^ t % 2 = 1 then s
  else
    let s := { s with prot := { s.prot with lostStack := s.prot.lostStack + 2 ^ t } }
    let s := setLostMc (2 * t + 1) (setLostMc (2 * t) s)
    let s := (List.range 8).foldl (fun s g => loseDie t g s) s
    holdMedium (event .stackFailed 7 [t] s)

/-- A unit was declared failed within the last millisecond. -/
def declaredLately (s : State) (p : FaultUnit → Bool) : Bool :=
  s.prot.declared.any (fun d => p d.1 && decide (s.now - d.2 < millisecond))

/-- Another die of the stack, not this one. -/
def otherDie (stack group : Nat) : FaultUnit → Bool
  | .die t g => t == stack && g != group
  | .channel _ => false
  | .lpddr _ => false

/-- The other channel of the stack. -/
def otherChannel (mc : Nat) : FaultUnit → Bool
  | .die _ _ => false
  | .channel n => n == (mc ^^^ 1)
  | .lpddr _ => false

/-- A unit is declared failed (R225, R226, R310): medium reads are held, and its stripes lose a member (R218). The second
die, or the second channel, of a stack within 1 ms fails the stack. -/
def declareFailed (u : FaultUnit) (s : State) : State :=
  match u with
  | .die t g =>
    if dieLost s t g then s
    else
      let whole := declaredLately s (otherDie t g)
      let s := { s with prot := { s.prot with declared := (u, s.now) :: s.prot.declared } }
      let s := holdMedium (event .dieFailed 7 [t, g] (loseDie t g s))
      if whole then failStack t s else s
  | .channel n =>
    if s.prot.lostMc / 2 ^ n % 2 = 1 then s
    else
      let whole := declaredLately s (otherChannel n)
      let s := setLostMc n { s with prot := { s.prot with declared := (u, s.now) :: s.prot.declared } }
      let s := (List.range 4).foldl (fun s i => loseDie (n / 2) (n % 2 * 4 + i) s) s
      let s := holdMedium (event .dieFailed 7 [64 + n] s)
      if whole then failStack (n / 2) s else s
  | .lpddr c => failLpddr (c / 4) s

/-- A read that missed its deadline is made again on the other members of its stripe, none of which may have its partition
claimed: a claim on one of them is suspended, as for a read of a lost member (R219, R225). -/
def reissueRead (rid : Nat) (rd : MedRead) (s : State) : State :=
  let others := (stripeOf s rd.loc).members.filter (fun t => t != rd.loc.stack)
  startSenses rd.loc others (reserveSlots (rd.prio == 2) rd.loc.fast rd.loc.group others
    (modRead rid (fun r => { r with flashing := true }) (suspendFor others rd.loc.group rd.loc.part s)))

/-- A read or operation of a die that missed its deadline is made again: the oldest read that senses it directly (R225); else
the operation on the die. A speculative read is never a flashing one (R51): it is given up, and its data goes to the
gutter. -/
def reissue (stack : Nat) (inUnit : Nat → Bool) (s : State) : State :=
  match s.sched.reads.find? (fun x =>
      x.2.started && !x.2.flashing && !x.2.squashed && x.2.loc.stack == stack && inUnit x.2.loc.group) with
  | some (rid, rd) =>
    if rd.use.isSpec then modRead rid (fun r => { r with squashed := true }) s else reissueRead rid rd s
  | none =>
    match s.sched.busy.find? (fun x => x.2.stack == stack && inUnit (x.1 / 32)
        && (x.2.state == 2 || x.2.state == 3)) with
    | some (k, e) => emit (.die (if e.reset then 2 else 1) e.stack (k / 32) (k % 32) e.course e.row) s
    | none => s

/-- The number under which a unit's misses are kept. -/
def missId : FaultUnit → Nat
  | .die t g => dieBit t g
  | .channel n => 64 + n
  | .lpddr c => 80 + c

/-- A response deadline is missed: the access is made again, and the third miss within 1 ms declares the unit failed
(R225, R310). -/
def execResponseDeadlineMiss (unit : FaultUnit) (s : State) : Host.Outcome State Fault Refusal :=
  .next (
    let id := missId unit
    let ms := ((id, s.now) :: s.sched.misses).filter (fun m => decide (s.now - m.2 < millisecond))
    let s := { s with sched := { s.sched with misses := ms } }
    let s := match unit with
      | .die t g => reissue t (fun h => h == g) s
      | .channel n => reissue (n / 2) (fun h => h / 4 == n % 2) s
      | .lpddr c => putChan c { chanAt s c with missed := (ms.filter (fun m => m.1 == id)).map (·.2) } s
    if 3 ≤ ms.countP (fun m => m.1 == id) then
      declareFailed unit { s with sched := { s.sched with misses := ms.filter (fun m => m.1 != id) } }
    else s)

/-- A die or channel reports an internal fault, or a link check of its channel fails: it is declared failed (R225). -/
def execDieInternalFault (unit : FaultUnit) (s : State) : Host.Outcome State Fault Refusal :=
  .next (declareFailed unit s)

end Sys2Proof.Machine
end

