-- ==== Sys2Proof/Machine/Reloc.lean ====
section
/-! DEFINITION. Relocations: fold, garbage collection, levelling, refresh and rebuild as copies of pages, write-backs, and
what a recovered read says of its stripe (04, 05, 06). -/

namespace Sys2Proof.Machine

/-! ### Refresh levels -/

/-- Raises the refresh level of a dense stripe; a level never falls while its stripe waits (R170). -/
def raiseLevel (k n : Nat) (s : State) : State :=
  match stripeAt s k with
  | none => s
  | some x => if x.fast || x.reclaim || n ≤ x.level then s else updateTop (modStripe k (fun y => { y with level := n }) s)

/-- A course has margin loss: its stripe is Due (R171, Table 05-5). -/
def marginLoss (stack k : Nat) (s : State) : State :=
  let c := courseKey stack k
  raiseLevel k 2 (if s.dr.margin.contains c then s else { s with dr := { s.dr with margin := c :: s.dr.margin } })

/-- The refresh level that a recovery calls for (Table 05-5). -/
def Recovery.calls : Sys2Proof.Recovery → Nat
  | .inner _ => 0
  | .retry _ => 0
  | .ladder _ _ => 2
  | .outer => 3
  | .parity => 3
  | .second => 3
  | .lost => 3

/-- The inner code corrected a bit, or a step beyond step 0 was needed (R188). -/
def Recovery.corrected : Sys2Proof.Recovery → Bool
  | .inner b => decide (b ≠ 0)
  | .retry _ => true
  | .ladder _ _ => true
  | .outer => true
  | .parity => true
  | .second => true
  | .lost => true

/-- The inner decoder corrected bits of the sector (R181, R188). -/
def Recovery.innerBits : Sys2Proof.Recovery → Bool
  | .inner b => decide (b ≠ 0)
  | .retry b => decide (b ≠ 0)
  | .ladder _ b => decide (b ≠ 0)
  | .outer => false
  | .parity => false
  | .second => false
  | .lost => false

/-- Counts a sector that the inner code corrected (R188). -/
def countInner (r : Sys2Proof.Recovery) (s : State) : State :=
  if Recovery.innerBits r then { s with prot := { s.prot with innerCorr := satInc 32 s.prot.innerCorr } } else s

/-- Three or four bits were corrected, or step 1 or a later one was needed (R191). -/
def Recovery.weakens : Sys2Proof.Recovery → Bool
  | .inner b => decide (3 ≤ b)
  | .retry _ => true
  | .ladder _ _ => true
  | .outer => true
  | .parity => true
  | .second => true
  | .lost => true

/-- A stripe enters the weak-stripe queue (R191). -/
def markWeak (k : Nat) (s : State) : State := modStripe k (fun x => { x with weak := true }) s

/-- What sensing a sector says of its stripe: the inner correction is counted, margin loss marked and the level raised (R171,
R188, Table 05-5). -/
def judge (l : Loc) (r : Sys2Proof.Recovery) (shift : Bool) (s : State) : State :=
  let s := countInner r s
  let s := if shift && !l.fast then marginLoss l.stack l.stripe s else s
  if Recovery.calls r = 0 then s else raiseLevel l.stripe (Recovery.calls r) s

/-- The sector holds a line. -/
def holdsLine (s : State) (l : Loc) : Bool :=
  match ownerAt s l with
  | some (.line _ _) => true
  | some (.reloc _) => true
  | some (.page _) => true
  | some .pad => false
  | some (.q _ _) => false
  | some .metadata => false
  | some .parity => false
  | some .outer => false
  | some .ledger => false
  | none => false

/-- The row's reference cells, read with a dense sector, show margin loss (R171). -/
def shiftSeen (s : State) (l : Loc) (m : MemberSense) : Bool :=
  !l.fast && shiftWide (dieBit l.stack l.group) (byteBucket (readByte s l.stack l.stripe)) m.cells

/-! ### Judging a read -/

/-- A flashing read falls back to its target (R96): the operation on its die is suspended, and the target is sensed there,
whose transfer lets the operation resume (R74, R75). -/
def fallBack (rd : MedRead) (e : Ended) (s : State) : State :=
  if rd.flashing && e.direct then
    startSenses rd.loc [rd.loc.stack] (reserveSlots (rd.prio == 2) rd.loc.fast rd.loc.group [rd.loc.stack]
      (suspendFor [rd.loc.stack] rd.loc.group rd.loc.part s))
  else s

/-- What a source or survivor says: its inner corrections, its shift, its level where it needed more than the first retry, and
its stripe's place in the weak-stripe queue where it holds no line (R171, R188, R191). -/
def judgeOther (rd : MedRead) (m : MemberSense) (u : Nat × MemberEnd) (s : State) : State :=
  let l := onStack rd.loc u.1
  let s := judge l u.2.step (shiftSeen s l m) s
  if Recovery.weakens u.2.step && !holdsLine s l then markWeak l.stripe s else s

/-- Sensing the other members of a stripe counts on their dies: those that a direct read turned to for P (R50, R85). -/
def senseOthers (rd : MedRead) (e : Ended) (s : State) : State :=
  if e.direct && !e.others.isEmpty && !rd.flashing then
    startSenses rd.loc (e.others.map (·.1)) (reserveSlots (rd.prio == 2) rd.loc.fast rd.loc.group (e.others.map (·.1))
      (suspendFor (e.others.map (·.1)) rd.loc.group rd.loc.part s))
  else s

/-- Senses of the page of a target that went to the outer code: its other sectors, on the target's die (R50). -/
def sensePage (rd : MedRead) (e : Ended) (s : State) : State :=
  if e.direct && !rd.loc.fast && decide (rd.loc.slot < ledgerAt false) && !Recovery.early e.step then
    let rows := (List.range (lastRow false (rd.loc.slot / 68 * 68 + 67) + 1)).filter
      (fun r => decide (firstRow false (rd.loc.slot / 68 * 68) ≤ r))
    rows.foldl (fun s r => emit (.die 0 rd.loc.stack rd.loc.group rd.loc.part rd.loc.course r) s) s
  else s

/-- Counts and judgements of an ended read (R171, R188), and what it had its dies do: the sets of its senses, the fall-back of
a flashing read (R96), the page read for the outer code and the reconstruction from the other members (R50). -/
def judgeRead (rd : MedRead) (res : SenseResult) (e : Ended) (s : State) : State :=
  let s := senseOthers rd e (sensePage rd e (sendSets rd res e (fallBack rd e s)))
  let s := (e.others.zipIdx).foldl (fun s u => judgeOther rd (res.sources.getD u.2 {}) u.1 s) s
  if e.direct then judge rd.loc e.step (shiftSeen s rd.loc res.target) s
  else if Recovery.calls e.step = 0 ∨ e.step = .parity then s
  else raiseLevel rd.loc.stripe (Recovery.calls e.step) s

/-! ### Write-back by relocation -/

/-- Relocation entries of a slice in use: write-backs under way that are not fold's own copies of hot lines (R124, R190). -/
def wbackCount (s : State) (slice : Nat) : Nat := s.tr.wbacks.countP (fun x => !x.2.cool && sliceOf x.1 == slice)

/-- Bits [11:0] of the epoch in which a line was written (R109): its entry's; of a line in a dense copy, whose own epoch no
entry keeps, the dense entry's with the sector's EPAR (DESIGN CHOICE, log 103). -/
def writeEpoch (s : State) (dla : Nat) (raw : RawSector) : Nat :=
  match eavesOf s dla with
  | some e => e.epoch
  | none => (denseOf s (lpnOf dla)).epoch / 2 * 2 + (if secEpar raw then 1 else 0)

/-- DMA channel of a kind of relocation. -/
def RelocKind.chan : RelocKind → Nat
  | .fold => 0
  | .gc => 1
  | .level => 4
  | .refresh => 2
  | .rebuild => 4

/-- Queues a line for write-back by relocation (R188, R190): not for a page under relocation, in Read-Only, while
programming is forbidden or in Flush; one found when its slice's 64 entries are in use is dropped and counted. Fold's copies
of hot lines (`cool`) take none of the 64 and are not dropped for them (R124; DEDUCED, log 112). -/
def queueBack (dla : Nat) (src : Loc) (raw : RawSector) (cool : Bool) (s : State) : State :=
  if (Table.get? s.tr.relocs (lpnOf dla)).isSome || s.tr.readOnly || !progAllowed s || s.pw.phase == .flush
      || (Table.get? s.tr.wbacks dla).isSome then s
  else if !cool && decide (64 ≤ wbackCount s (sliceOf dla)) then
    { s with prot := { s.prot with relocDrop := satInc 16 s.prot.relocDrop } }
  else
    let w : WriteBack := { src := src, raw := raw, cool := cool, epoch := writeEpoch s dla raw }
    placeBack dla { s with tr := { s.tr with wbacks := Table.put s.tr.wbacks dla w } }

/-! ### Emptied stripes -/

/-- Some dense stripe keeps Q in the stripe (R130, R133). -/
def holdsQ (s : State) (k : Nat) : Bool := s.tr.stripes.any (fun x => x.2.qtab.any (fun q => q.2.stripe == k))

/-- Nothing valid remains in a stripe whose courses are VERIFIED, or that closed on a failure, and nothing is staged in it
(Table 04-4, R137, R173). -/
def emptied (s : State) (k : Nat) : Bool :=
  match stripeAt s k with
  | none => false
  | some x =>
    !x.isOpen && x.rounds.isEmpty && !x.reclaim && x.stream != 3 && (stripeVerified s k x || x.failed)
      && validCount s k == 0 && !holdsQ s k
      && !s.tr.wbacks.any (fun w => match w.2.dst with
        | some l => l.stripe == k
        | none => false)
      && !s.tr.relocs.any (fun r => match r.2.target with
        | some l => l.stripe == k
        | none => false)

/-- An emptied stripe goes to RECLAIM; its refresh task ends with it (R137, R173, R174). -/
def reclaimIfEmpty (k : Nat) (s : State) : State := if emptied s k then updateTop (updateDegraded (toReclaim k s)) else s

/-- Emptied stripes of a stream go to RECLAIM. -/
def reclaimEmptied (stream : Nat) (s : State) : State :=
  ((s.tr.stripes.filter (fun x => x.2.stream == stream)).map (·.1)).foldl (fun s k => reclaimIfEmpty k s) s

/-! ### Copying a page -/

/-- An eaves entry that fold captures (R125). -/
def foldable (e : EavesEntry) : Bool := !e.poison && !e.staged && decide (e.heat < 2)

/-- The eaves entries a relocation captures, by line in page: those fold may take; for rebuild, and for a fold that
disregards the hot threshold (R122), every entry on the medium (R125, R222). -/
def capture (s : State) (kind : RelocKind) (anyHeat : Bool) (lpn : Nat) : Table EavesEntry :=
  let take := fun (e : EavesEntry) =>
    match kind with
    | .fold => if anyHeat then !e.poison && !e.staged else foldable e
    | .rebuild => !e.poison && !e.staged
    | .gc => false
    | .level => false
    | .refresh => false
  (s.tr.maps.eaves.filter (fun x => lpnOf x.1 == lpn && take x.2)).map (fun x => (lineOf x.1, x.2))

/-- The source of a line of a page under relocation (R125), or the sector it takes without a read: a zero sector, or a
poison sector where the page is poisoned and its entry is written anew (Table 06-4). -/
def copySource (s : State) (lpn line : Nat) (d : DenseEntry) (cap : Table EavesEntry) (anew : Bool) :
    Loc ⊕ RawSector :=
  match Table.get? cap line with
  | some e => .inl (eavesLoc s (lpn * 64 + line) e)
  | none =>
    if anew && (d.poison || s.tr.lostLines.contains (lpn * 64 + line)) then .inr (poisonSector false s.per.openEpoch)
    else if d.valid then .inl (denseLoc d (lpn * 64 + line))
    else .inr zeroSector

/-- Page data is written anew, with the eaves folded in, by fold and rebuild; the others copy it raw. -/
def RelocKind.anew : RelocKind → Bool
  | .fold => true
  | .rebuild => true
  | .gc => false
  | .level => false
  | .refresh => false

/-- Work class of a relocation's programs (Table 03-4). -/
def RelocKind.cls : RelocKind → Nat
  | .fold => 3
  | .gc => 4
  | .level => 6
  | .refresh => 1
  | .rebuild => 7

/-- A relocation may still stage pages: fold, garbage collection and levelling stop in Read-Only (R146), and no copy goes on
while its channel is halted (R198). -/
def mayStage (s : State) (lpn : Nat) (r : Reloc) : Bool :=
  !chanHalted s (chanBit (quadOfLpn lpn) r.kind.chan)
    && !(s.tr.readOnly && (r.kind == .fold || r.kind == .gc || r.kind == .level))

/-- ALT of a relocated page: rebuild after the loss of its home stack sets it (R221). -/
def newAlt (s : State) (lpn : Nat) (r : Reloc) : Bool :=
  r.capDense.alt || (r.kind == .rebuild && decide (s.prot.lostStack / 2 ^ stackOfLpn lpn % 2 = 1))

/-- A stripe passes pages on to another: its resets wait until that one is VERIFIED (R141). -/
def addHeir (k heir : Nat) (s : State) : State :=
  modStripe k (fun x => { x with heirs := if x.heirs.contains heir then x.heirs else heir :: x.heirs }) s

/-- Stages a gathered page into the open FOLD or COLLECT stripe on its stack, with its outer code (R125, R137). Its rows run
under its work class (R173). -/
def stagePage (lpn : Nat) (s : State) : State :=
  match Table.get? s.tr.relocs lpn with
  | none => s
  | some r =>
    if !r.want.isEmpty || !r.halted.isEmpty || r.again || r.target.isSome || !mayStage s lpn r then s
    else
      let t := pageStack lpn (newAlt s lpn r)
      match findRoom (if r.kind == .fold then 1 else 2) r.kind.cls t (groupsFrom s.tr.rotor) s with
      | (none, s) => s
      | (some k, s) =>
        match stripeAt s k with
        | none => s
        | some x =>
          let p := nthD x.fill t 0
          let fill := setNth x.fill t (p + 1)
          let rows := (List.range 4).map (fun i => p * 5440 / 2048 + i)
          let rowCls := if r.kind == .fold then x.rowCls
            else (rows.filter (fun q => decide (q ≤ (p * 5440 + 5439) / 2048))).foldl (claimRow r.kind.cls) x.rowCls
          let first := r.kind == .rebuild && !x.rebuilt.contains t
          let x := { x with
            fill := fill, rowCls := rowCls
            pages := Table.put x.pages (t * 192 + p) (lpn, s.per.openEpoch)
            fresh := if r.kind == .refresh && !x.fresh.contains t then t :: x.fresh else x.fresh
            rebuilt := if first then t :: x.rebuilt else x.rebuilt
            isOpen := x.dataStacks.any (fun u => decide (nthD fill u 0 < unitCount false)) }
          let s := putPage k t p (.page lpn) ((List.range 64).map (fun i => Table.getD r.got i 0))
            { s with tr := { s.tr with
              stripes := Table.put s.tr.stripes k x
              relocs := Table.put s.tr.relocs lpn { r with target := some (locOf k t false (p * 68)) } } }
          if first then consumeSpare 1 s else s

/-- A dense entry that fails on both mirrors, or is malformed, gives way to VALID = 0 and POISON = 1 (R107, R195). -/
def loseDense (dla : Nat) (s : State) : State :=
  let lpn := lpnOf dla
  let d := denseOf s lpn
  let s := if d.valid then invalidate (denseLoc d dla) s.per.openEpoch s else s
  let e : DenseEntry := { valid := false, poison := true, eov := d.eov, alt := d.alt }
  dropCopies (byDense s lpn) (event .linePoisoned 7 [dla, lpn] (countUe dla (putDense lpn e s)))

/-- A malformed entry that an engine or a read meets is replaced (R107, R195). -/
def checkDense (lpn : Nat) (s : State) : State := if denseBad (denseOf s lpn) then loseDense (lpn * 64) s else s

/-- The source sectors of a page are read with engine priority, the others taken as they are (R98, R125). -/
def gather (kind : RelocKind) (cap : Table EavesEntry) (lpn : Nat) (s : State) : State :=
  let d := denseOf s lpn
  let src := (List.range 64).map (fun i => (i, copySource s lpn i d cap kind.anew))
  let reads := src.filterMap (fun x => match x.2 with
    | .inl l => some (x.1, l)
    | .inr _ => none)
  let got := src.filterMap (fun x => match x.2 with
    | .inl _ => none
    | .inr r => some (x.1, r))
  let r : Reloc :=
    { kind := kind, capDense := d, capEaves := cap, got := got, want := reads.map (·.1), epoch := s.per.openEpoch }
  let s := { s with tr := { s.tr with relocs := Table.put s.tr.relocs lpn r } }
  stagePage lpn (reads.foldl (fun s x => (queueRead (.copy lpn x.1) x.2 2 s).2) s)

/-- Begins the relocation of a page: its entries are captured and its source sectors read (R125). A page under relocation is
not selected again (R126); none begins on a halted channel (R198). -/
def startReloc (kind : RelocKind) (anyHeat : Bool) (lpn : Nat) (s : State) : State :=
  if (Table.get? s.tr.relocs lpn).isSome || chanHalted s (chanBit (quadOfLpn lpn) kind.chan) then s
  else
    let s := checkDense lpn s
    gather kind (capture s kind anyHeat lpn) lpn s

/-- A relocation whose target failed is copied again from its sources (R142): what it captured stands as far as it is still
mapped. -/
def copyAgain (lpn : Nat) (s : State) : State :=
  match Table.get? s.tr.relocs lpn with
  | none => s
  | some r =>
    if r.again then
      gather r.kind (r.capEaves.filter (fun c => (eavesOf s (lpn * 64 + c.1)).any (fun e =>
        { e with check := none } == { c.2 with check := none }))) lpn s
    else s

/-- Stages every gathered page that waits for a stripe; one whose target failed is copied again (R142). -/
def stagePages (s : State) : State := (s.tr.relocs.map (·.1)).foldl (fun s l => stagePage l (copyAgain l s)) s

/-- A halted DMA channel: its bit, the location of the failed source and an event (R198). -/
def haltDma (b : Nat) (l : Loc) (page : Nat) (s : State) : State :=
  if chanHalted s b then s
  else
    event .dmaHalted 7 [b] { s with prot := { s.prot with
      halted := s.prot.halted + 2 ^ b, haltLoc := some (l, b), haltPage := Table.put s.prot.haltPage b page } }

/-- The first read of a line that Replay placed in an open stripe compares EPAR with its record's EP0 (R263): true where
they differ. -/
def eparBad (s : State) (dla : Nat) (l : Loc) (raw : RawSector) : Bool :=
  match eavesOf s dla with
  | some e =>
    match e.check with
    | some ep => eavesLoc s dla e == l && secEpar raw != ep
    | none => false
  | none => false

/-- The comparison has been made (R263). -/
def clearCheck (dla : Nat) (l : Loc) (s : State) : State :=
  match eavesOf s dla with
  | some e =>
    if e.check.isSome && eavesLoc s dla e == l then
      { s with tr := { s.tr with maps := { s.tr.maps with
        eaves := Table.put s.tr.maps.eaves dla { e with check := none } } } }
    else s
  | none => s

/-- A source sector of a page copy is recovered, corrected (R192); one that no step recovers halts its channel (R198). -/
def copyDone (lpn line : Nat) (rd : MedRead) (res : SenseResult) (s : State) : State :=
  match Table.get? s.tr.relocs lpn with
  | none => s
  | some r =>
    if !r.want.contains line then s
    else
      let e := readEnd s rd res
      let dla := lpn * 64 + line
      let s := judgeRead rd res e s
      if e.lost then
        haltDma (chanBit (quadOfLpn lpn) r.kind.chan) rd.loc lpn { s with tr := { s.tr with
          relocs := Table.put s.tr.relocs lpn { r with halted := line :: r.halted, want := r.want.erase line } } }
      else
        let bad := eparBad s dla rd.loc e.raw
        let s := if bad then poisonHome dla s else clearCheck dla rd.loc s
        let s := if e.direct && Recovery.corrected e.step then queueBack dla rd.loc e.raw false s else s
        stagePage lpn { s with tr := { s.tr with
          relocs := Table.put s.tr.relocs lpn { r with
            got := Table.put r.got line (if bad then poisonSector false r.epoch else e.raw), want := r.want.erase line } } }

/-- A hot line has been read for draining again (R124). -/
def redrainDone (dla : Nat) (rd : MedRead) (res : SenseResult) (s : State) : State :=
  let e := readEnd s rd res
  let s := judgeRead rd res e s
  if e.lost then
    queueBack dla rd.loc (poisonSector true s.per.openEpoch) true
      (haltDma (chanBit (quadOfLpn (lpnOf dla)) 0) rd.loc (lpnOf dla) s)
  else queueBack dla rd.loc e.raw true s

/-- Resumes a halted channel once the MP runs: the failed sectors are written as poison sectors, and the copies go on
(R197, R198). -/
def execDmaResume (chan : Nat) (s : State) : Host.Outcome State Fault Refusal :=
  .next (
    if !chanHalted s chan || !s.mb.mpReady then s
    else
      let mine := s.tr.relocs.filter (fun r => !r.2.halted.isEmpty && chanBit (quadOfLpn r.1) r.2.kind.chan == chan)
      let s := { s with prot := { s.prot with
        halted := s.prot.halted - 2 ^ chan, haltPage := Table.del s.prot.haltPage chan } }
      stagePages (placeBacks (mine.foldl (fun s x =>
        { s with tr := { s.tr with relocs := Table.put s.tr.relocs x.1 { x.2 with
          halted := [], got := x.2.halted.foldl (fun g line => Table.put g line (poisonSector false x.2.epoch)) x.2.got } } })
        s)))

/-! ### The switch -/

/-- Rows of a page in its course (R25, R26). -/
def pageRows (p : Nat) : List Nat :=
  let a := p * 5440 / 2048
  let b := (p * 5440 + 5439) / 2048
  (List.range (b - a + 1)).map (· + a)

/-- Every row that holds a staged page has been verified (R127, R132). -/
def pageVerified (s : State) (l : Loc) : Bool :=
  match stripeAt s l.stripe with
  | none => false
  | some x => !x.reclaim && (pageRows (l.slot / 68)).all (fun r => x.checked.contains (l.stack * 512 + r))

/-- Two eaves entries agree in every field (R127). -/
def sameEntry (a b : EavesEntry) : Bool := { a with check := none } == { b with check := none }

/-- Removes the captured eaves entries that are still what was captured; their sectors become invalid (R127, R128). -/
def removeCaptured (lpn : Nat) : Table EavesEntry → State → State
  | [], s => s
  | (line, c) :: cs, s =>
    let dla := lpn * 64 + line
    removeCaptured lpn cs (match eavesOf s dla with
      | some e =>
        if sameEntry e c then
          mapOpen (.eavesDel dla e) (invalidate (eavesLoc s dla e) s.per.openEpoch s)
        else s
      | none => s)

/-- The switch of a relocated page in one compare cycle (R127): the dense entry names the target, the captured eaves
entries go, EOV says whether any remain; an emptied source goes to RECLAIM. -/
def switchPage (lpn : Nat) (r : Reloc) (l : Loc) (s : State) : State :=
  let d := denseOf s lpn
  let alt := newAlt s lpn r
  let poison := if r.kind.anew then d.poison && !r.capDense.poison else d.poison
  let sources := (if d.valid then [(denseLoc d (lpn * 64)).stripe] else [])
    ++ r.capEaves.map (fun x => stripeKey x.2.group x.2.part x.2.course)
  let s := sources.dedup.foldl (fun s k => addHeir k l.stripe s) s
  let s := if d.valid then invalidate (denseLoc d (lpn * 64)) s.per.openEpoch s else s
  let s := removeCaptured lpn r.capEaves s
  let s := putDense lpn
    { valid := true, eov := anyEaves s.tr.maps lpn, group := l.group, part := l.part, course := l.course
      slot := l.slot / 68, alt := alt, poison := poison } s
  let s := { s with
    tr := { s.tr with
      relocs := Table.del s.tr.relocs lpn
      lostLines := if r.kind.anew then s.tr.lostLines.filter (fun d => lpnOf d != lpn) else s.tr.lostLines }
    prot := if r.kind == .rebuild then { s.prot with pagesDone := satInc 32 s.prot.pagesDone } else s.prot }
  sources.dedup.foldl (fun s k => reclaimIfEmpty k s) (finishBacks s)

/-- Once every target row of a relocated page is verified, the home slice switches it (R127); writes of the page that
waited for its rebuild can then be staged (R222). -/
def execRelocationSwitch (lpn : Nat) (s : State) : Host.Outcome State Fault Refusal :=
  .next (match Table.get? s.tr.relocs lpn with
    | none => s
    | some r =>
      match r.target with
      | none => s
      | some l => if pageVerified s l then switchPage lpn r l s else s)

/-! ### Fold -/

/-- The largest CLOSED of a stripe's courses. -/
def closedHour (s : State) (k : Nat) (x : Stripe) : Nat :=
  x.members.foldl (fun a t => max a (courseOf s (courseKey t k)).closed) 0

/-- The DRAIN stripe fold empties: among the closed ones with valid sectors, a failed or weak one first, then the
oldest (R125, R143, R191). -/
def foldSource (s : State) : Option Nat :=
  let cs := s.tr.stripes.filter (fun x =>
    x.2.stream == 0 && !x.2.isOpen && x.2.rounds.isEmpty && !x.2.reclaim && decide (0 < validCount s x.1))
  let age := fun (x : Nat × Stripe) => (if x.2.weak || x.2.failed then 0 else 1, closedHour s x.1 x.2)
  (cs.foldl (fun (a : Option (Nat × Stripe)) x =>
    match a with
    | none => some x
    | some y => if (age x).1 < (age y).1 ∨ ((age x).1 = (age y).1 ∧ (age x).2 < (age y).2) then some x else some y)
    none).map (·.1)

/-- The lines of a quadrant that a stripe holds validly (R124, R125). -/
def linesIn (s : State) (k q : Nat) : List (Nat × EavesEntry) :=
  s.tr.maps.eaves.filter (fun x =>
    !x.2.poison && !x.2.staged && stripeKey x.2.group x.2.part x.2.course == k && quadrantOfSlice (sliceOf x.1) == q)

/-- A hot line is read to be drained again, unless that is already under way (R124). -/
def startRedrain (dla : Nat) (e : EavesEntry) (s : State) : State :=
  if (Table.get? s.tr.wbacks dla).isSome || (Table.get? s.tr.relocs (lpnOf dla)).isSome
      || s.sched.reads.any (fun r => r.2.use == .redrain dla) then s
  else (queueRead (.redrain dla) (eavesLoc s dla e) 2 s).2

/-- Fold work is offered: the eaves hold more than 0.75 × E_max, or a failed DRAIN stripe is to be emptied, and the device
is not in Read-Only (R123, R143, R146). -/
def foldOffered (s : State) : Bool :=
  !s.tr.readOnly && (decide (3 * eavesMax s < 4 * eavesBytes s)
    || s.tr.stripes.any (fun x => x.2.stream == 0 && !x.2.reclaim && (x.2.failed || x.2.weak) && decide (0 < validCount s x.1)))

/-- A line's eaves set is full at staging: the page of its entry with the lowest HEAT, and among equals the oldest, is
folded, hot or not (R122). -/
def foldForSet (dla : Nat) (s : State) : State :=
  let es := s.tr.maps.eaves.filter (fun x => eavesSet x.1 == eavesSet dla)
  let age := fun (e : EavesEntry) => (s.per.openEpoch - e.epoch) % 4096
  match es.foldl (fun (a : Option (Nat × EavesEntry)) x =>
    match a with
    | none => some x
    | some y =>
      if x.2.heat < y.2.heat ∨ (x.2.heat = y.2.heat ∧ age y.2 < age x.2) then some x else some y) none with
  | none => s
  | some x => startReloc .fold true (lpnOf x.1) s

/-- The sets that write-backs wait for are folded too (R122, R189). -/
def foldForBacks (s : State) : State :=
  s.tr.wbacks.foldl (fun s w =>
    if (eavesOf s w.1).isNone && decide (8 ≤ setCount s w.1) && !s.tr.readOnly then foldForSet w.1 s else s) s

/-- A quadrant engine folds the pages of the oldest closed DRAIN stripe, and drains its hot lines again (R124, R125). -/
def execFoldStep (quadrant : Nat) (s : State) : Host.Outcome State Fault Refusal :=
  .next (
    let s := foldForBacks (stagePages (placeBacks (finishBacks (reclaimEmptied 0 s))))
    if !foldOffered s then s
    else
      match foldSource s with
      | none => s
      | some k =>
        (linesIn s k quadrant).foldl (fun s x =>
          if 2 ≤ x.2.heat then startRedrain x.1 x.2 s else startReloc .fold false (lpnOf x.1) s) s)

/-! ### Garbage collection, levelling, refresh, rebuild -/

/-- Pages whose dense entry names a stripe. -/
def pagesOf (s : State) (k : Nat) : List Nat :=
  (s.tr.maps.dense.filter (fun x => x.2.valid && stripeKey x.2.group x.2.part x.2.course == k)).map (·.1)

/-- Copies every valid page of a stripe (R137, R173); a page under relocation waits for that relocation (R174). -/
def emptyStripe (kind : RelocKind) (k : Nat) (s : State) : State :=
  reclaimIfEmpty k ((pagesOf s k).foldl (fun s l => startReloc kind false l s) s)

/-- A victim may be chosen: a dense data stripe, verified or queued after a failure, and by score not one full of valid pages
(R136, R191). -/
def eligible (s : State) (k : Nat) (x : Stripe) : Bool :=
  !x.fast && x.stream != 3 && !x.isOpen && x.rounds.isEmpty && !x.reclaim && (stripeVerified s k x || x.failed)
    && (decide ((pagesOf s k).length < 1344) || x.weak || x.failed)

/-- The score of R136 as a fraction: (1 − u) × age over 1 + u, in units of 1/1,344. -/
def gcScore (s : State) (k : Nat) (x : Stripe) : Nat × Nat :=
  let v := (pagesOf s k).length
  ((1344 - v) * (opHours s - closedHour s k x), 1344 + v)

/-- The victim of a group (R136): a failed stripe or a weak, verified one first (R142, R191), then the highest score. -/
def victimOf (s : State) (g : Nat) : Option Nat :=
  let cs := s.tr.stripes.filter (fun x => stripeGroup x.1 == g && eligible s x.1 x.2)
  match cs.find? (fun x => x.2.failed || (x.2.weak && stripeVerified s x.1 x.2)) with
  | some x => some x.1
  | none =>
    (cs.foldl (fun (a : Option (Nat × Stripe)) x =>
      match a with
      | none => some x
      | some y =>
        let p := gcScore s x.1 x.2
        let q := gcScore s y.1 y.2
        if q.1 * p.2 < p.1 * q.2 then some x else some y) none).map (·.1)

/-- A stripe of the group waits to be emptied after a failure, or in the weak-stripe queue, whatever is free (R142, R191). -/
def queuedVictim (s : State) (g : Nat) : Bool :=
  s.tr.stripes.any (fun x => stripeGroup x.1 == g && (x.2.failed || x.2.weak) && eligible s x.1 x.2)

/-- Read-Only is entered (R146, R150). -/
def enterReadOnly (s : State) : State :=
  updateMode (checkSpare { s with tr := { s.tr with readOnly := true } })

/-- Metadata of a stripe is rewritten into the META stream, and once all of it has found room the stripe goes to RECLAIM
(R143, R173, R220). -/
def rewriteMeta (k : Nat) (s : State) : State :=
  match stripeAt s k with
  | none => s
  | some x =>
    let n := x.dataStacks.foldl (fun a t => a + nthD x.fill t 0) 0
    let s := modStripe k (fun y => { y with isOpen := false }) s
    if (openOf s (stripeGroup k) 3).isNone && (allocate s (stripeGroup k) 3 2 none).isNone then s
    else
      updateTop (updateDegraded (toReclaim k (modStripe k (fun y =>
        { y with emptyEp := s.per.openEpoch, emptyGen := s.sched.rgen }) (metaPages (stripeGroup k) n s))))

/-- A META stripe of a group that failed or weakened: its metadata is rewritten ahead of other work (R143, R191). -/
def failedMeta (s : State) (g : Nat) : Option Nat :=
  (s.tr.stripes.find? (fun x => stripeGroup x.1 == g && x.2.stream == 3 && (x.2.failed || x.2.weak) && !x.2.isOpen
    && x.2.rounds.isEmpty && !x.2.reclaim)).map (·.1)

/-- Garbage collection of a group short of free stripes (R135 to R137); one at 512 free stripes without a victim puts the
device into Read-Only (R146). -/
def execGcStep (group : Nat) (s : State) : Host.Outcome State Fault Refusal :=
  .next (
    let s := stagePages (reclaimEmptied 2 (reclaimEmptied 1 s))
    let s := match failedMeta s group with
      | some k => rewriteMeta k s
      | none => s
    if s.tr.readOnly || (decide (1024 ≤ freeCount s group) && !queuedVictim s group) then s
    else
      match victimOf s group with
      | some k => emptyStripe .gc k s
      | none => if freeCount s group ≤ 512 then enterReadOnly s else s)

/-- WEAR of the courses that are listed and not RETIRED. -/
def listedWear (s : State) : List Nat := (s.tr.maps.course.filter (fun x => x.2.state != 7)).map (·.2.wear)

/-- The spread of wear over the courses not RETIRED; a course never reset has WEAR 0 (R139). -/
def wearSpread (s : State) : Nat :=
  let ws := listedWear s
  let low := if s.tr.maps.course.length < 8388608 then 0 else ws.foldl min (2 ^ 25)
  ws.foldl max 0 - low

/-- The verified dense stripe with the lowest wear, and among equals the earliest CLOSED (R139). -/
def levelSource (s : State) : Option Nat :=
  let cs := s.tr.stripes.filter (fun x => !x.2.fast && x.2.stream != 3 && !x.2.isOpen && !x.2.reclaim
    && stripeVerified s x.1 x.2)
  (cs.foldl (fun (a : Option (Nat × Stripe)) x =>
    match a with
    | none => some x
    | some y =>
      let p := (stripeWear s x.1, closedHour s x.1 x.2)
      let q := (stripeWear s y.1, closedHour s y.1 y.2)
      if p.1 < q.1 ∨ (p.1 = q.1 ∧ p.2 < q.2) then some x else some y) none).map (·.1)

/-- The static leveller's check (R139); it stops in Read-Only (R146). LEVEL_SPREAD takes effect with the check (R487). -/
def execLevelCheck (s : State) : Host.Outcome State Fault Refusal :=
  .next (
    let s := { s with tr := { s.tr with spread := s.tr.spreadNx } }
    if s.tr.readOnly || decide (wearSpread s ≤ s.tr.spread) then s
    else
      match levelSource s with
      | some k => emptyStripe .level k s
      | none => s)

/-- The effective age of a stripe's oldest course whose row 0 has been programmed (R153, R170). -/
def stripeAge (s : State) (k : Nat) (x : Stripe) : Nat :=
  (x.members.filter (fun t => rowDone x t 0)).foldl (fun a t =>
    max a ((edSeconds s t (stripeGroup k) + 2 ^ 32 - nthD x.efirst t 0) % 2 ^ 32)) 0

/-- The stripe refreshed next: the highest level, and within a level the oldest EFIRST: the greatest effective age (R172). -/
def refreshNext (s : State) : Option (Nat × Stripe) :=
  (s.tr.stripes.filter (fun x => decide (0 < x.2.level) && !x.2.reclaim && !x.2.isOpen && x.2.rounds.isEmpty)).foldl
    (fun a x =>
      match a with
      | none => some x
      | some y =>
        if y.2.level < x.2.level ∨ (x.2.level = y.2.level ∧ stripeAge s y.1 y.2 < stripeAge s x.1 x.2) then some x else some y) none

/-- Refresh of a due stripe (R172, R173); it waits while programming is forbidden (R176). -/
def execRefreshStep (s : State) : Host.Outcome State Fault Refusal :=
  .next (
    let s := stagePages s
    if !progAllowed s then s
    else
      match refreshNext s with
      | none => s
      | some (k, x) => if x.stream = 3 then rewriteMeta k s else emptyStripe .refresh k s)

/-- A stripe holds a page whose writes wait for its rebuild (R222). -/
def stagingWaits (s : State) (k : Nat) : Bool :=
  s.tr.slots.any (fun x => x.st == .waiting && awaitsRebuild s (lpnOf x.dla) && (pagesOf s k).contains (lpnOf x.dla))

/-- The order of rebuild (R220). -/
def rebuildRank (s : State) (k : Nat) (x : Stripe) : Nat :=
  if stagingWaits s k then 0 else if x.stream = 0 ∨ x.stream = 3 then 1 else 2

/-- The stripe rebuilt next: by rank, then by partition and course (R220). -/
def rebuildNext (s : State) : Option (Nat × Stripe) :=
  (s.tr.stripes.filter (fun x => !x.2.lost.isEmpty && !x.2.reclaim)).foldl (fun a x =>
    match a with
    | none => some x
    | some y =>
      let p := (rebuildRank s x.1 x.2, x.1 % 131072)
      let q := (rebuildRank s y.1 y.2, y.1 % 131072)
      if p.1 < q.1 ∨ (p.1 = q.1 ∧ p.2 < q.2) then some x else some y) none

/-- Pages of lost stacks that only the write buffer holds: they have nothing to copy and take their alternate stack at
once (R221, R222). -/
def altEmptyPages (s : State) : State :=
  s.tr.slots.foldl (fun s x =>
    let lpn := lpnOf x.dla
    if awaitsRebuild s lpn && !(denseOf s lpn).valid && !anyEaves s.tr.maps lpn
        && (Table.get? s.tr.relocs lpn).isNone then
      putDense lpn { denseOf s lpn with alt := true } s
    else s) s

/-- Rebuild empties a stripe with a lost member (R220 to R223): its pages, and the pages of its eaves lines, are copied;
metadata is rewritten. Degraded ends with the last such stripe (R218). -/
def execRebuildStep (s : State) : Host.Outcome State Fault Refusal :=
  .next (
    let s := stagePages (altEmptyPages s)
    match rebuildNext s with
    | none => updateDegraded s
    | some (k, x) =>
      if x.stream = 3 then rewriteMeta k s
      else
        let es := (s.tr.maps.eaves.filter (fun e =>
          !e.2.poison && stripeKey e.2.group e.2.part e.2.course == k)).map (fun e => lpnOf e.1)
        let s := es.dedup.foldl (fun s l => startReloc .rebuild false l s) s
        updateDegraded (emptyStripe .rebuild k s))

end Sys2Proof.Machine
end

