-- ==== Sys2Proof/Machine/Miss.lean ====
section
/-! DEFINITION. A miss at the home: the location, the DRAM caches, the medium, the fill; the dovetail merge; leases
(02, 04, 06, 08, 14). -/

namespace Sys2Proof.Machine

/-! ### Delivering -/

/-- Who the miss in progress reads for: the request in progress, or the dovetail entry whose old line it reads. -/
def readerOf (m : Mshr) : Option Waiter := if m.oldRead then some (oldReader m.kid) else m.cur

/-- The data of a line's miss has arrived: the request in progress is answered and the data waits in the MSHR for its fill
(R276, R283), or what a write applied at once has put in its place (R61). A prefetch that ends in poison is discarded
(R279). While copies are still being recalled the data waits, and poison is looked up again once they have been. -/
def deliver (dla : Nat) (f : Fill) (how : How) (s : State) : State :=
  match (mshrAt s (me s) dla).bind readerOf with
  | none => s
  | some w =>
    if (mshrAt s (me s) dla).any (fun m => m.oldRead) then
      doveOld dla f how (modMshr (me s) dla (fun m => { m with oldRead := false, miss := false }) s)
    else if (mshrAt s (me s) dla).any (fun m => m.trans.isSome) then
      if f == .poison then dropMiss dla s
      else modMshr (me s) dla (fun m => { m with fill := some (m.newer.getD f), how := how, miss := false, newer := none }) s
    else if w.asker == .prefetch && f == .poison then
      finishCur dla (modMshr (me s) dla (fun m => { m with way := none, fill := none, pf := false, miss := false }) s)
    else
      let s := answer (me s) dla w f how s
      finishCur dla (modMshr (me s) dla (fun m =>
        { m with fill := some (m.newer.getD f), how := how, miss := false, newer := none }) s)

/-- SRC and NODE of SEC_MACLAST for a requester (R466). -/
def Asker.src : Asker → Nat × Nat
  | .host .a _ _ _ _ => (0, 0)
  | .host .b _ _ _ _ => (1, 0)
  | .node n _ => (2, n)
  | .dovetail => (3, 0)
  | .prefetch => (3, 0)
  | .sequencer => (3, 0)
  | .cxl p _ => (p.ix, 0)

/-- Reports what opening a sector found, but for a prefetch (R279, R451, R452). -/
def reportFor (o : Opened) (dla : Nat) (w : Waiter) (s : State) : State :=
  if w.asker == .prefetch then s else reportOpen o w.kid dla w.asker.src.1 w.asker.src.2 s

/-- The fill that an opened sector gives. -/
def fillOf (o : Opened) (ver : Nat) : Fill :=
  match o with
  | .data d => .data d ver
  | .poison => .poison
  | .otherMode => .poison
  | .macFail => .poison

/-- A sector's tag or MAC makes the egress multiplexer kill an early response (R57). -/
def kills (o : Opened) (raw : RawSector) : Bool := secPoison raw || secFmt raw != 0 || o == .macFail

/-- Opens a sector for the request in progress and delivers it (R57, R437, R442). -/
def deliverSector (dla : Nat) (raw : RawSector) (how : How) (s : State) : State :=
  match (mshrAt s (me s) dla).bind readerOf with
  | none => s
  | some w =>
    let o := openSector s w.kid dla raw
    deliver dla (fillOf o (secVer raw)) how (reportFor o dla w s)

/-! ### Going to the medium -/

/-- The speculative read of a line was issued at its confirmed location (R54). -/
def specRight (s : State) (m : Mshr) (l : Loc) : Bool :=
  match m.spec.bind (fun r => Table.get? s.sched.reads r) with
  | some rd => rd.loc == l && !rd.squashed
  | none => false

/-- Once the DRAM-cache tags have missed and the location is known, the map alone answers (R38), or the line is read from
the medium: a speculative read at the right place is promoted, with priority 1, and keeps its progress (R54); any other is
squashed. A prefetch is dropped when its partition is claimed (R279). Answers also the result of a promoted read that
waited in the return buffer (R55). -/
def proceed (dla : Nat) (s : State) : Option (MedRead × SenseResult) × State :=
  match mshrAt s (me s) dla with
  | none => (none, s)
  | some m =>
    if m.tagHit != some false || m.rid.isSome then (none, s)
    else
      match readerOf m, m.loc with
      | some _, some .zero => (none, deliver dla (.data 0 0) { cls := 1 } (squashSpec dla s))
      | some _, some .poison => (none, deliver dla .poison { cls := 1 } (squashSpec dla s))
      | some _, some (.buffer _) =>
        let s := modMshr (me s) dla (fun m => { m with tagHit := some true }) (squashSpec dla s)
        (none, dramAsk { line := readLine s dla, cls := 1, node := me s, dla := dla, use := .line } s)
      | some w, some (.medium l) =>
        if specRight s m l then
          match m.spec with
          | none => (none, s)
          | some rid =>
            match Table.get? s.sched.reads rid with
            | none => (none, s)
            | some rd =>
              let s := countSlice dla 0x009 s
              let s := if rd.started then countConfirmed (.miss (me s) dla) false s else s
              match rd.waiting with
              | some res =>
                (some (rd, res), retireRead rid (modMshr (me s) dla (fun m => { m with spec := none }) s))
              | none =>
                (none, modRead rid (fun r => { r with use := .miss (me s) dla, prio := 1 })
                  (modMshr (me s) dla (fun m => { m with rid := some rid }) s))
        else
          let s := squashSpec dla s
          if w.asker == .prefetch && claimedAt s l then
            (none, finishCur dla (modMshr (me s) dla (fun m => { m with way := none, pf := false, miss := false }) s))
          else
            let r := queueReadAt m.cap (.miss (me s) dla) l (if w.asker == .prefetch then 3 else 1) s
            (none, modMshr (me s) dla (fun m => { m with rid := some r.1 }) r.2)
      | some _, none => (none, s)
      | none, _ => (none, s)

/-- Counts a read of class L4 (Table 19-5). -/
def countLate (dla : Nat) (w : Waiter) (s : State) : State := count (sliceOf dla) 0x006 w.asker.qual 1 s

/-- Counts a confirmed medium read by its kind: flashing or direct (Table 19-5). -/
def countMedium (dla : Nat) (w : Waiter) (flashing : Bool) (s : State) : State :=
  count (sliceOf dla) (if flashing then 0x005 else 0x004) w.asker.qual 1 s

/-- The syndrome of some source sector was not zero, or a flashing read went on to its target (R57, R96). -/
def syndrome (rd : MedRead) (e : Ended) : Bool :=
  (e.direct && (Recovery.corrected e.step || rd.flashing)) || e.others.any (fun u => Recovery.corrected u.2.step)

/-- A line still lies where a read of it went, and no other agent is being asked for it. -/
def stillThere (s : State) (dla : Nat) (l : Loc) : Bool :=
  resolve s dla == .medium l && (mshrAt s (me s) dla).all (fun m => m.trans.isNone)

/-- A confirmed medium read of a line is over (R57, R94, R188, R193, R263): its judgements and its kill; poison where no step
recovered it or its EPAR is wrong; write-back by relocation where it was corrected; its data. A read that a failing DRAM line
sent to the medium is of class L4 (R194). -/
def medDone (dla : Nat) (spec : Bool) (rd : MedRead) (res : SenseResult) (s : State) : State :=
  match (mshrAt s (me s) dla).bind readerOf with
  | none => s
  | some w =>
    let e := readEnd s rd res
    let demand := w.asker != .prefetch
    let late := e.late || e.lost || (mshrAt s (me s) dla).any (fun m => m.late)
    let s := judgeRead rd res e (modMshr (me s) dla (fun m => { m with rid := none }) s)
    let bad := !e.lost && eparBad s dla rd.loc e.raw
    let s := countMedium dla w rd.flashing s
    let s := if demand && late then countLate dla w s else s
    let k := syndrome rd e || (!e.lost && kills (openSector s w.kid dla e.raw) e.raw)
    let s := if k then count (sliceOf dla) 0x00C w.asker.qual 1 s else s
    if e.lost || bad then
      deliver dla .poison { cls := 3, flash := rd.flashing, spec := spec, kill := k } (if demand && stillThere s dla rd.loc then poisonHome dla s else s)
    else
      let s := clearCheck dla rd.loc s
      let s := if e.direct && Recovery.corrected e.step then queueBack dla rd.loc e.raw false s else s
      deliverSector dla e.raw
        { cls := if late then 3 else 2, flash := rd.flashing, spec := spec, kill := k } s

/-- Goes on with a miss, using a promoted result at once. -/
def proceedAll (dla : Nat) (s : State) : State :=
  match proceed dla s with
  | (none, s) => s
  | (some (rd, res), s) => medDone dla true rd res s

/-! ### The map -/

/-- Removes eaves entries. -/
def removeEaves : List (Nat × EavesEntry) → State → State
  | [], s => s
  | (d, e) :: t, s =>
    removeEaves t (mapOpen (.eavesDel d e)
      (if e.poison then s else invalidate (eavesLoc s d e) s.per.openEpoch s))

/-- An eaves set that fails on both mirrors is replaced by an empty one: every line of a page with EOV set that maps to it
is recorded as poisoned when it is first read (R195). -/
def loseEaves (dla : Nat) (s : State) : State :=
  let set := eavesSet dla
  let gone := s.tr.maps.eaves.filter (fun x => eavesSet x.1 == set)
  let pages := (s.tr.maps.dense.filter (fun x => x.2.eov)).map (·.1)
  let lines := (pages.map (fun p => (List.range 64).map (fun i => p * 64 + i))).flatten.filter
    (fun d => eavesSet d == set && (newestSlot s d).isNone)
  let s := removeEaves gone s
  { s with tr := { s.tr with lostLines := (s.tr.lostLines ++ lines).dedup } }

/-- Puts a page's dense entry, and a line's eaves entry, into the lookaside (R112). -/
def lookasideFill (dla : Nat) (s : State) : State :=
  { s with tr := { s.tr with
    lookD := if s.tr.lookD.contains (lpnOf dla) then s.tr.lookD else lpnOf dla :: s.tr.lookD
    lookE := if s.tr.lookE.contains dla then s.tr.lookE else dla :: s.tr.lookE } }

/-- The dense entry and the eaves set are read at their copies (R112): a read that only the other mirror serves makes the read
of the line one of class L4 (R194); what fails on both mirrors is lost, and so is a dense entry of a form that R107 forbids
(R195). -/
def fetchMaps (dla : Nat) (lines : Nat × Nat) (f : MapFetch) (s : State) : State :=
  let d := readMirror (denseBase (lpnOf dla)) lines.1 f.dense f.denseOther s
  let e := readMirror (eavesBase dla) lines.2 f.eaves f.eavesOther d.2
  let late := d.1 == .other || e.1 == .other
  let s := if late then modMshr (me e.2) dla (fun m => { m with late := true }) e.2 else e.2
  let s := if d.1 == .lost || f.malformed then loseDense dla s else s
  if e.1 == .lost then loseEaves dla s else s

/-- The lookaside lookup, or on a miss the fetch from the mirrors, completes: the location is resolved in the compare cycle
(R110, R112), a malformed or lost entry replaced (R107, R195), the predictor taught (R53), and the miss goes on. A fetch that
its channel controllers have not come to has not completed (R299). -/
def execLookasideResult (dla : Nat) (fetch : MapFetch) (s : State) : Host.Outcome State Fault Refusal :=
  .next (match mshrAt s (me s) dla with
    | none => s
    | some m =>
      match readerOf m with
      | none => s
      | some w =>
        if !m.miss || m.loc.isSome then s
        else
          let demand := w.asker != .prefetch
          let hit := lookasideHit s dla
          let lines := (((asked s .dense (me s) dla).map (·.line)).getD (denseLine s (lpnOf dla)),
            ((asked s .eaves (me s) dla).map (·.line)).getD (eavesLine s dla))
          match mapsServed hit (me s) dla s with
          | none => s
          | some s =>
          let s := if hit then s else countSlice dla 0x00D s
          let s := if hit then s else fetchMaps dla lines fetch s
          let s := checkDense (lpnOf dla) s
          let r := resolve s dla
          let s := if r == .poison && s.tr.lostLines.contains dla && demand then poisonHome dla s else s
          let s := if demand then learnPred dla (lookasideFill dla s) else s
          proceedAll dla (modMshr (me s) dla (fun m => { m with loc := some r, cap := s.sched.rgen }) s))

/-- A run-ahead hint arrives at a home slice: the page's entry is fetched into the lookaside, at the lowest DRAM priority,
unless it is there (R58); while requests of a higher class wait at the channel, the hint waits. -/
def execRunAheadHint (lpn : Nat) (s : State) : Host.Outcome State Fault Refusal :=
  .next (
    if !s.tr.hints.contains lpn then s
    else
      let done := { s with tr := { s.tr with hints := s.tr.hints.erase lpn } }
      if s.tr.lookD.contains lpn then done
      else if !mayServe s 3 (denseLine s lpn) then s
      else { done with tr := { done.tr with lookD := lpn :: s.tr.lookD } })

/-! ### The DRAM caches at the home -/

/-- The tag check of a local line (R38, R271, R304): a write-buffer slot hits under any key ID; a cached line under its
own, unless its bank is marked refresh-busy; under another key ID it is invalidated. -/
def homeTag (dla : Nat) (w : Waiter) (s : State) : Bool × State :=
  match newestSlot s dla with
  | some _ => (true, s)
  | none =>
    match Table.get? s.dram.cache dla with
    | none => (false, s)
    | some c =>
      if c.kid ≠ w.kid then (false, dropDram (me s) dla s)
      else (!lineMarked s (lineAt (me s) dla), s)

/-- The DRAM-cache tag check of a local line's miss: a hit is counted and goes to its LPDDR6 channel; a miss goes on to
the medium (R38, R46). -/
def homeTagResult (dla : Nat) (s : State) : State :=
  match mshrAt s (me s) dla with
  | none => s
  | some m =>
    match readerOf m with
    | none => s
    | some w =>
      if !m.miss || m.tagHit.isSome then s
      else
        let r := homeTag dla w s
        let s := modMshr (me s) dla (fun m => { m with tagHit := some r.1 }) r.2
        if r.1 then
          let n := readLine s dla
          let cls := if w.asker == .prefetch then 3 else 1
          dramAsk { line := n, cls := cls, node := me s, dla := dla, use := .line }
            (squashSpec dla (count (sliceOf dla) 0x003 w.asker.qual 1 (wakeRank n s)))
        else proceedAll dla s

/-- A write-buffer slot whose two copies both fail becomes a poison sector, in its staged row as well while the row has not
been sent to its dies (R195). -/
def poisonSlot (dla ep : Nat) (s : State) : State :=
  let raw := poisonSector true ep
  let rows := s.tr.slots.filterMap (fun x => match x.st with
    | .waiting => none
    | .staged l =>
      if x.dla = dla ∧ x.epoch = ep ∧ (stripeAt s l.stripe).any (fun y => decide (y.begun ≤ firstRow true l.slot)) then some l
      else none)
  let s := { s with tr := { s.tr with slots := s.tr.slots.map (fun x =>
    if x.dla = dla ∧ x.epoch = ep then { x with raw := raw } else x) } }
  let s := rows.foldl (fun s l => putCell l raw (.line dla ep) s) s
  event .linePoisoned 7 [dla] (countUe dla s)

/-- The slots of a staged row whose copies fail: every line staged in the row of one of them; a slot that is not yet staged
stands alone (R195). -/
def rowMates (s : State) (x : WbSlot) : List (Nat × Nat) :=
  match x.st with
  | .waiting => [(x.dla, x.epoch)]
  | .staged l =>
    (s.tr.slots.filter (fun y => match y.st with
      | .waiting => false
      | .staged m => m.stripe == l.stripe && m.stack == l.stack && firstRow true m.slot == firstRow true l.slot)).map
      (fun y => (y.dla, y.epoch))

/-- Slots of the write buffer become poison sectors. -/
def poisonAll (xs : List (Nat × Nat)) (s : State) : State := xs.foldl (fun s x => poisonSlot x.1 x.2 s) s

/-- A sector whose LPDDR6 line the DRAM code took for another codeword: DATA and VER are that word's (R291, R292). -/
def wrongSector (raw : RawSector) (w : BitVec 576) : RawSector :=
  mkSector (BitVec.extractLsb' 0 512 w) (BitVec.extractLsb' 512 32 w).toNat (secMac raw) (secTag raw)

/-- The read of a write-buffer slot at one of its copies (R194, R195, R292): the other mirror serves what one fails, which is
rewritten. -/
def slotRead (dla line : Nat) (x : WbSlot) (a b : DramSense) (s : State) : State :=
  let word := dramWord (secData x.raw) (secVer x.raw)
  match decodeAt s line word a with
  | .clean => deliverSector dla x.raw { cls := 1 } s
  | .corrected dqs => deliverSector dla x.raw { cls := 1 } (dramCorrected line dqs s)
  | .wrong w dqs => deliverSector dla (wrongSector x.raw w) { cls := 1 } (dramCorrected line dqs s)
  | .uncorrectable =>
    let s := dramUncorrectable s
    match otherCopy s (slotBase dla x.epoch) line with
    | none => deliver dla .poison { cls := 3 } (poisonAll (rowMates s x) s)
    | some m =>
      match decodeAt s m word b with
      | .clean => deliverSector dla x.raw { cls := 3 } (dramWrites [line] s)
      | .corrected dqs => deliverSector dla x.raw { cls := 3 } (dramWrites [line] (dramCorrected m dqs s))
      | .wrong w dqs => deliverSector dla (wrongSector x.raw w) { cls := 3 } (dramWrites [line] (dramCorrected m dqs s))
      | .uncorrectable => deliver dla .poison { cls := 3 } (poisonAll (rowMates s x) s)

/-- A cached line cannot be used: it is invalidated, and the read goes to the medium (R194). -/
def cacheLost (dla : Nat) (s : State) : State :=
  let s := dropDram (me s) dla s
  proceedAll dla (modMshr (me s) dla (fun m => { m with tagHit := some false, late := true }) s)

/-- A read whose line has left the DRAM goes on as a miss. -/
def leftDram (dla : Nat) (s : State) : State :=
  let r := resolve s dla
  proceedAll dla (modMshr (me s) dla (fun m => { m with tagHit := some false, loc := some r, cap := s.sched.rgen }) s)

/-- The LPDDR6 read of a local line completes, once its channel controller has come to it (R194, R292, R299); a line still in a
write queue is answered from it, without the DRAM code (R300). A line that left the DRAM meanwhile is looked up again. -/
def homeDramRead (dla : Nat) (a b : DramSense) (s : State) : State :=
  match mshrAt s (me s) dla with
  | none => s
  | some m =>
    if m.tagHit != some true || !m.miss || (readerOf m).isNone then s
    else
      let r := asked s .line (me s) dla
      let a := if r.isNone then {} else a
      let line := (r.map (·.line)).getD (readLine s dla)
      match dramServe .line (me s) dla s with
      | none => s
      | some s =>
      match newestSlot s dla with
      | some x => slotRead dla line x a b s
      | none =>
        match Table.get? s.dram.cache dla with
        | some c =>
          match decodeAt s line (dramWord (secData c.raw) (secVer c.raw)) a with
          | .clean => deliverSector dla c.raw { cls := 1 } s
          | .corrected dqs => deliverSector dla c.raw { cls := 1 } (dramCorrected line dqs s)
          | .wrong w dqs => deliverSector dla (wrongSector c.raw w) { cls := 1 } (dramCorrected line dqs s)
          | .uncorrectable => cacheLost dla (dramUncorrectable s)
        | none => leftDram dla s

/-- A corrected LPDDR6 line is written back in place, in the lowest class (R187, R298). -/
def execDramWriteback (line : Nat) (s : State) : Host.Outcome State Fault Refusal :=
  .next (if s.dram.wback.contains line && mayServe s 3 line then wakeRank line { s with dram := { s.dram with wback := s.dram.wback.erase line } } else s)

/-! ### Medium reads -/

/-- A medium read's sector is transferred and decoded (R55, R94): squashed data goes to the gutter; unconfirmed
speculative data waits in the return buffer; a confirmed read, a page copy or a redrain takes its end. -/
def execMediumReadDone (rid : Nat) (res : SenseResult) (s : State) : Host.Outcome State Fault Refusal :=
  .next (match Table.get? s.sched.reads rid with
    | none => s
    | some rd =>
      if !rd.started || rd.waiting.isSome then s
      else if rd.squashed then retireRead rid s
      else
        match rd.use with
        | .spec _ _ => modRead rid (fun r => { r with waiting := some res }) s
        | .miss _ dla => medDone dla false rd res (retireRead rid s)
        | .copy lpn line => copyDone lpn line rd res (retireRead rid s)
        | .redrain dla => redrainDone dla rd res (retireRead rid s))

/-! ### Fills -/

/-- The fill of a local line's MSHR (R273, R274, R275, R280, R283): the line takes its reserved way once the eviction
there has ended, with DIRTY set where the DRAM cache holds no copy of it; a poisoned line takes none (R202). Then the
recorded requests and maintenance operations act in order. -/
def homeFill (dla : Nat) (s : State) : State :=
  match mshrAt s (me s) dla with
  | none => s
  | some m =>
    match m.way, m.fill with
    | some w, some f =>
      let slice := sliceOf dla
      let set := cacheSet dla
      if (Table.get? s.cache.ways (wayKey slice set w)).any (fun e => e.evict) then s
      else
        let s := match f with
          | .poison => s
          | .data d v =>
            if (findWay s (me s) dla).isSome then s
            else
              touch slice set w (putWay slice set w
                { node := me s, dla := dla, kid := m.kid, dirty := v != 0 && (Table.get? s.dram.cache dla).isNone
                  poison := false, pf := m.pf, pin := isPinned s dla, evict := false, data := d, ver := v } (evictNow slice set w s))
        drive 20 dla (modMshr (me s) dla (fun m => { m with way := none }) s)
    | some _, none => s
    | none, some _ => drive 20 dla s
    | none, none => s

/-! ### The dovetail merge -/

/-- A merge whose old line ended in poison: the merged bytes are stored as ciphertext under the next counter value, with
MAC zero and POISON set; the line reads as poison, and an event records it (R208). The bytes the old line would have given
are free (log 6). -/
def writeFailed (dla : Nat) (e : Dovetail) (s : State) : State :=
  let r := draw s
  let d := mergeLine e.mask e.data (Config.freeLine r.1)
  let t := takeVer dla r.2
  let v := t.1
  let s := t.2.2
  let raw := sealFailed s e.kid dla v e.epoch d
  let pin := (findLine s (me s) dla).any (fun x => x.2.pin)
  let s := dropDove dla (dropDram (me s) dla s)
  let s := installLine e.cls
    { node := me s, dla := dla, kid := e.kid, dirty := true, poison := true, pf := false, pin := pin || t.2.1
      evict := false, data := 0, ver := v } s
  let s := modMshr (me s) dla (fun m => { m with fill := m.fill.map (fun _ => Fill.poison) }) s
  let s := acceptLine { dla := dla, epoch := e.epoch, kid := e.kid, raw := raw } s
  let s := event .linePoisoned 7 [dla] (countUe dla s)
  if t.2.1 then exhaust dla s else s

/-- The old line has arrived for a closed entry: the enabled bytes are merged over it and written as one full line in the
entry's epoch (R205, R208); what waited goes on. The write waits for a lease where it must (R440). -/
def mergeNow (dla : Nat) (s : State) : State :=
  match Table.get? s.cache.dove dla with
  | none => s
  | some e =>
    match e.closed, e.old with
    | true, some f =>
      if leaseWait s dla then s
      else
        let s := count (sliceOf dla) 0x013 0 1 s
        match f with
        | .data old _ =>
          let d := mergeLine e.mask e.data old
          let r := writeFull dla e.kid e.cls e.epoch d false s
          wakeDove (sliceOf dla) (resumeDove dla e.kid (some (.data d r.1, e.how)) r.2)
        | .poison => wakeDove (sliceOf dla) (resumeDove dla e.kid (some (.poison, e.how)) (writeFailed dla e s))
    | true, none => s
    | false, _ => s

/-- The merge of a dovetail entry (R205). -/
def execDovetailMerge (dla : Nat) (s : State) : Host.Outcome State Fault Refusal := .next (mergeNow dla s)

/-- 200 ns after it opened, a dovetail entry closes (R205). -/
def execDovetailTimeout (dla : Nat) (s : State) : Host.Outcome State Fault Refusal := .next (closeDove dla s)

/-! ### Held writes -/

/-- Lines whose write waits for two LPDDR6 devices to accept it. -/
def heldLines (s : State) : List Nat :=
  (s.cache.mshrs.filter (fun x => x.2.held.isSome && x.1 / 2 ^ 36 == me s)).map (·.1 % 2 ^ 36)

/-- A held write goes on, in the epoch in which it was ordered (R242). -/
def releaseWrite (dla : Nat) (s : State) : State :=
  match mshrAt s (me s) dla with
  | none => s
  | some m =>
    match m.cur, m.held with
    | some w, some ep => settle dla (applyWriteIn ep dla w (modMshr (me s) dla (fun m => { m with held := none }) s))
    | some _, none => s
    | none, _ => s

/-- The writes held by an LPDDR6 device's interruption go on (R59, R224). -/
def releaseWrites (s : State) : State := (heldLines s).foldl (fun s d => releaseWrite d s) s

/-- What waited for an eviction of this home's lines goes on (R275, R283): a write of the line or directed to its way, a
fill of the way, maintenance of the line. -/
def afterEvict (dla : Nat) (s : State) : State :=
  match mshrAt s (me s) dla with
  | none => s
  | some m =>
    if m.held.isSome then releaseWrite dla s
    else if m.way.isSome && m.fill.isSome then homeFill dla s
    else if m.cur.isNone && !m.dove then drive 20 dla s
    else s

/-- The reads of lines that lay in the caches on a failed LPDDR6 device go on as misses (R311): their tags are gone. -/
def abandoned (t s : State) : State :=
  ((t.cache.mshrs.filter (fun x => x.2.miss && x.2.tagHit == some true && x.2.fill.isNone && x.1 / 2 ^ 36 == me t
      && (newestSlot t (x.1 % 2 ^ 36)).isNone && (Table.get? t.dram.cache (x.1 % 2 ^ 36)).isNone)).map (·.1 % 2 ^ 36)).foldl
    (fun s d => leftDram d s) s

/-- The interruption of a fault ends: held requests are released, and Degraded is entered where a stripe has a lost
member or re-mirroring runs (R218, R224, Table 06-6); an SRAM row or column has been remapped to a spare (R224). -/
def execFaultRelease (fault : HeldFault) (s : State) : Host.Outcome State Fault Refusal :=
  .next (
    if !s.prot.faults.contains fault then s
    else
      let s := { s with prot := { s.prot with faults := s.prot.faults.erase fault } }
      match fault with
      | .medium => updateDegraded { s with sched := { s.sched with held := false } }
      | .lpddr _ => releaseWrites (abandoned s (updateDegraded s))
      | .hostLane _ => updateDegraded s
      | .sglLane _ => updateDegraded s
      | .sglLink _ => updateDegraded s
      | .sram slice =>
        updateDegraded (event .sramRemapped 8 [slice] { s with prot := { s.prot with
          sramRemap := satInc 8 s.prot.sramRemap
          sramSpare := Table.put s.prot.sramSpare slice (Table.getD s.prot.sramSpare slice 0 + 1) } }))

/-! ### Leases -/

/-- Lines whose write waits for a lease of a segment. -/
def leaseLines (s : State) (seg : Nat) : List Nat :=
  (s.cache.mshrs.filter (fun x => x.2.lease && x.1 / 2 ^ 36 == me s && segOf (x.1 % 2 ^ 36) == seg)).map (·.1 % 2 ^ 36)

/-- A lease record is programmed: the lease is in force, and the writes that waited for it go on (R440). -/
def execLeaseProgrammed (seg : Nat) (s : State) : Host.Outcome State Fault Refusal :=
  .next (match Table.get? s.sec.leasing seg with
    | none => s
    | some v =>
      let s := { s with sec := { s.sec with leases := Table.put s.sec.leases seg v, leasing := Table.del s.sec.leasing seg } }
      (leaseLines s seg).foldl (fun s d =>
        match (mshrAt s (me s) d).bind (·.cur) with
        | none => s
        | some w => settle d (applyWrite d w (modMshr (me s) d (fun m => { m with lease := false }) s))) s)

end Sys2Proof.Machine
end

