-- ==== Sys2Proof/Machine/Answers.lean ====
section
/-! DEFINITION. The home agent's side of the fabric: requests, write-throughs, evictions and responses as they arrive, the
timeouts of snoops and back-invalidates, fences, suspects and dead nodes (10, 11). -/

namespace Sys2Proof.Machine

/-- The home admits remote requests: from the end of Replay, none after entry to Flush (R43, R393). -/
def homeServes (s : State) : Bool := s.pw.phase == .service

/-- Messages from a dead node are discarded (R351). -/
def isDead (s : State) (n : Nat) : Bool := s.coh.dead.contains n

/-- A node and line in the fence table (R349). -/
def fenced (s : State) (n dla : Nat) : Bool := s.coh.fence.contains (sliceOf dla, n, dla)

/-- The rotating pointer moves to the input after the winner (R338). -/
def noteInput (dla input : Nat) (s : State) : State :=
  { s with coh := { s.coh with rotor := Table.put s.coh.rotor (sliceOf dla) ((input + 1) % 12) } }

/-- The class under which a remote request allocates: that of its PORT, and PORT 3 as Port A (R272). -/
def classOfPort (port : Nat) : Nat := if port = 1 then 1 else 0

/-- The checks of R279 for a line. -/
def mayPrefetch (dla : Nat) (s : State) : Bool :=
  let slice := sliceOf dla
  s.cache.cfg.pfEn && (findLine s (me s) dla).isNone && (mshrAt s (me s) dla).isNone
    && (Table.get? s.cache.dove dla).isNone
    && (match dirAt s dla with
      | none => true
      | some e => e.st == .hs)
    && decide ((hsfAt s (me s) dla).ha ≠ 2) && decide ((hsfAt s (me s) dla).hb ≠ 2)
    && decide (s.cache.mshrs.countP (fun x => sliceOf (x.1 % 2 ^ 36) == slice && x.2.pf) < 64)
    && decide (mshrCount s slice < 512)

/-- Issues the prefetch of a line under the key ID of the read that triggered it (R279). -/
def prefetchLine (kid dla : Nat) (s : State) : State :=
  if mayPrefetch dla s then
    let w : Waiter := { kind := .rdS, asker := .prefetch, kid := kid, cls := 4 }
    let s := putMshr (me s) dla { kid := kid, cur := some w } (count (sliceOf dla) 0x00F 0 1 s)
    settle dla (startCur dla w s)
  else s

/-- A demand read at its home slice moves its stream; a confirmed stream issues prefetches (R278). -/
def streamRead (cls kid dla : Nat) (s : State) : State :=
  let slice := sliceOf dla
  let r := streamStep cls (lpnOf dla) (lineOf dla) (Table.getD s.cache.streams slice [])
  let s := putStream slice r.1 s
  if r.2 then (prefetchLines s r.1).foldl (fun s d => prefetchLine kid d s) s else s

/-- A request of a remote node arrives at its home (R357, R359). -/
def recvReq (kind : ReqKind) (src txid dla kid port input : Nat) (s : State) : State :=
  if isDead s src || !homeServes s then s
  else
    let w : Waiter := { kind := kind, asker := .node src txid, kid := kid, cls := classOfPort port }
    streamRead w.cls kid dla (homeRequest dla w (noteInput dla input s))

/-- RdS (Table 11-2). -/
def execRdS (src txid dla kid port input : Nat) (s : State) : Host.Outcome State Fault Refusal :=
  .next (recvReq .rdS src txid dla kid port input s)

/-- RdX (Table 11-2). -/
def execRdX (src txid dla kid port input : Nat) (s : State) : Host.Outcome State Fault Refusal :=
  .next (recvReq .rdX src txid dla kid port input s)

/-- RdC (Table 11-2). -/
def execRdC (src txid dla kid port input : Nat) (s : State) : Host.Outcome State Fault Refusal :=
  .next (recvReq .rdC src txid dla kid port input s)

/-- Upg (R339, Table 11-2). -/
def execUpg (src txid dla kid port input : Nat) (s : State) : Host.Outcome State Fault Refusal :=
  .next (recvReq .upg src txid dla kid port input s)

/-- Evc: in HS with CV clear the sender's pointer goes, and the line is HU when none remains; elsewhere it is ignored
(R327, Tables 11-2 and 11-3). -/
def recvEvc (src dla : Nat) (s : State) : State :=
  if isDead s src then s
  else
    match dirAt s dla with
    | none => s
    | some e =>
      if e.st == .hs && !e.cv && e.ptrs.contains src then
        let ptrs := e.ptrs.erase src
        setDir dla (if ptrs.isEmpty then none else some { e with ptrs := ptrs }) s
      else s

/-- Evc (R327). -/
def execEvc (src _txid dla : Nat) (s : State) : Host.Outcome State Fault Refusal := .next (recvEvc src dla s)

/-! ### Ends of a transaction -/

/-- Ends the transaction in progress on a line, with the directory's next state. -/
def endTrans (dla : Nat) (next : Option DirEntry) (supply : Bool) (s : State) : State :=
  match (mshrAt s (me s) dla).bind (·.cur) with
  | none => setDir dla next (modMshr (me s) dla (fun m => { m with trans := none }) s)
  | some w => settle dla (finishCoh dla w next supply s)

/-- The transaction of a line. -/
def transOf (s : State) (dla : Nat) : Option HomeTrans := (mshrAt s (me s) dla).bind (·.trans)

/-- Changes the transaction of a line. -/
def modTrans (dla : Nat) (f : HomeTrans → HomeTrans) (s : State) : State :=
  modMshr (me s) dla (fun m => { m with trans := m.trans.map f }) s

/-- REQ of the transaction: the remote requester, or none for a local one. -/
def reqOf (s : State) (dla : Nat) : Option Nat := ((mshrAt s (me s) dla).bind (·.cur)).bind (·.asker.node?)

/-- The nodes of HS after a shared grant: O and REQ (Table 11-3). -/
def hsOf (o : List Nat) (req : Option Nat) : Option DirEntry :=
  match o ++ req.toList with
  | [] => none
  | ns => some (sharedBy ns.dedup)

/-- RspFwd in HX_F: completion without data (Table 11-3). -/
def asFwd (k : SnpKind) (o dla : Nat) (s : State) : State :=
  match k with
  | .s => endTrans dla (hsOf [o] (reqOf s dla)) false s
  | .x => endTrans dla ((reqOf s dla).map ownedBy) false s
  | .c => endTrans dla (some (ownedBy o)) false s
  | .i => s

/-- RspS in HX_F: the home's copy goes to REQ; after SnpX an error (Table 11-3). -/
def asS (k : SnpKind) (o dla : Nat) (s : State) : State :=
  match k with
  | .s => endTrans dla (hsOf [o] (reqOf s dla)) true s
  | .c => endTrans dla (some (ownedBy o)) true s
  | .x => protocolError o dla 21 s
  | .i => protocolError o dla 21 s

/-- The completion of Table 11-4. -/
def complete (dla : Nat) (s : State) : State :=
  match (mshrAt s (me s) dla).bind (·.cur) with
  | none => endTrans dla none true s
  | some w => endTrans dla (nextDir w none) true s

/-- RspI in HX_F or HX_I: the home's copy goes to REQ (Tables 11-3 and 11-4). -/
def asI (k : SnpKind) (dla : Nat) (s : State) : State :=
  match k with
  | .s => endTrans dla (hsOf [] (reqOf s dla)) true s
  | .x => endTrans dla ((reqOf s dla).map ownedBy) true s
  | .c => endTrans dla none true s
  | .i => complete dla s

/-- RspWb whose announced message has been accepted (Table 11-3). -/
def asWb (k : SnpKind) (fwd evx : Bool) (o dla : Nat) (s : State) : State :=
  match k with
  | .i => complete dla s
  | .s => if fwd then asFwd .s o dla s else if evx then asI .s dla s else asS .s o dla s
  | .c => if fwd then asFwd .c o dla s else if evx then asI .c dla s else asS .c o dla s
  | .x => if fwd then asFwd .x o dla s else asI .x dla s

/-- The transaction waits for nothing more: no response, no back-invalidate. -/
def transDone (s : State) (dla : Nat) : Bool :=
  match transOf s dla with
  | some t => t.pend.isEmpty && t.bi.isEmpty && t.snp.isNone
  | none => false

/-- Ends an invalidation, or a local wait for hosts, once nothing is outstanding (Table 11-4, R333). -/
def endIfDone (dla : Nat) (s : State) : State :=
  if transDone s dla then
    match (mshrAt s (me s) dla).bind (·.cur) with
    | none => endTrans dla none true s
    | some w =>
      endTrans dla (nextDir w (match dirAt s dla with
        | some e => if e.st.transient then none else some e
        | none => none)) true s
  else s

/-- One answer to SnpI with OWN = 0: PEND − 1 (Table 11-3). -/
def pendLess (src dla : Nat) (s : State) : State :=
  endIfDone dla (modTrans dla (fun t => { t with pend := t.pend.erase src }) s)

/-! ### Responses -/

/-- The responses of a proxy. -/
inductive RspKind where
  | i | s | fwd
  | wb (fwd : Bool)
deriving DecidableEq, Repr

/-- The number of a response in a protocol-error event. -/
def RspKind.num : RspKind → Nat
  | .i => 20
  | .s => 21
  | .fwd => 22
  | .wb _ => 23

/-- A response from the owner in HX_F or HX_I (Table 11-3). -/
def ownerRsp (k : RspKind) (e : DirEntry) (t : HomeTrans) (dla : Nat) (s : State) : State :=
  match t.snp with
  | none => s
  | some (snp, _) =>
    let o := ownerOf e
    match k with
    | .fwd => if e.st == .hxI then protocolError o dla 22 s else asFwd snp o dla s
    | .s => if e.st == .hxI then protocolError o dla 21 s else asS snp o dla s
    | .i => asI snp dla s
    | .wb f =>
      if t.ann || t.evx then asWb snp f t.evx o dla s
      else setDir dla (some { e with st := .hxW }) (modTrans dla (fun t => { t with wb := some f }) s)

/-- A response arrives at its home (R358, R359). -/
def recvRsp (k : RspKind) (src dla : Nat) (s : State) : State :=
  if isDead s src || fenced s src dla then s
  else
    match dirAt s dla, transOf s dla with
    | some e, some t =>
      match e.st with
      | .hsI => if k == .i && t.pend.contains src then pendLess src dla s else protocolError src dla k.num s
      | .hxF => if ownerOf e = src then ownerRsp k e t dla s else protocolError src dla k.num s
      | .hxI => if ownerOf e = src then ownerRsp k e t dla s else protocolError src dla k.num s
      | .hxW => protocolError src dla k.num s
      | .hs => s
      | .hx => s
    | some _, none => s
    | none, _ => s

/-- RspI (Table 11-3). -/
def execRspI (src _txid dla : Nat) (s : State) : Host.Outcome State Fault Refusal := .next (recvRsp .i src dla s)

/-- RspS (Table 11-3). -/
def execRspS (src _txid dla : Nat) (s : State) : Host.Outcome State Fault Refusal := .next (recvRsp .s src dla s)

/-- RspFwd (Table 11-3). -/
def execRspFwd (src _txid dla : Nat) (s : State) : Host.Outcome State Fault Refusal := .next (recvRsp .fwd src dla s)

/-- RspWb (Table 11-3). -/
def execRspWb (src _txid dla : Nat) (fwd : Bool) (s : State) : Host.Outcome State Fault Refusal :=
  .next (recvRsp (.wb fwd) src dla s)

/-! ### Write-throughs and evictions -/

/-- The announced message has been accepted: in HX_W the waiting RspWb is taken (R343, R355, Table 11-3). -/
def announced (txid dla : Nat) (isEvx : Bool) (s : State) : State :=
  match dirAt s dla, transOf s dla with
  | some e, some t =>
    let mine := isEvx || t.snp.any (fun x => x.2 == txid)
    let s := modTrans dla (fun t => { t with
      evx := t.evx || isEvx, ann := t.ann || (!isEvx && t.snp.any (fun x => x.2 == txid)) }) s
    match e.st, t.wb, t.snp with
    | .hxW, some f, some (k, _) => if mine then asWb k f (t.evx || isEvx) (ownerOf e) dla s else s
    | _, _, _ => s
  | some _, none => s
  | none, _ => s

/-- A line whose dovetail entry nothing reads for gets its old-line read (R205). -/
def kickOld (dla : Nat) (s : State) : State :=
  match mshrAt s (me s) dla, Table.get? s.cache.dove dla with
  | none, some e => if e.old.isNone then drive 20 dla (putMshr (me s) dla { kid := e.kid, cur := none } s) else s
  | _, _ => s

/-- The owner of a line, in any of the states that have one. -/
def ownerAt? (s : State) (dla : Nat) : Option Nat :=
  match dirAt s dla with
  | some e =>
    match e.st with
    | .hx => some (ownerOf e)
    | .hxF => some (ownerOf e)
    | .hxI => some (ownerOf e)
    | .hxW => some (ownerOf e)
    | .hs => none
    | .hsI => none
  | none => none

/-- A WrT in its turn (R340, R341, R347, R357 to R359): the owner's is applied at once, with its Cmp, and may be the
announced message; any other is queued or begins its own transaction. -/
def acceptWrt (m : SglMsg) (s : State) : State :=
  if isDead s m.src || fenced s m.src m.line then s
  else
    let w : Waiter :=
      { kind := .write, asker := .node m.src m.txid, kid := m.kid, cls := 0, data := m.data, mask := m.mask, poison := m.poison }
    if ownerAt? s m.line = some m.src then
      match applyAtOnce m.line w (count (sliceOf m.line) 0x001 3 1 s) with
      | some s => announced m.txid m.line false (kickOld m.line s)
      | none => announced m.txid m.line false (homeRequest m.line w s)
    else homeRequest m.line w s

/-- An EvX in its turn: Cmp; from the owner it releases ownership, at once or for the transaction in progress (Tables 11-2
and 11-3). -/
def acceptEvx (m : SglMsg) (s : State) : State :=
  if isDead s m.src || fenced s m.src m.line then s
  else
    let s := cmpWrt m.src m.txid m.line 0 s
    match dirAt s m.line with
    | none => s
    | some e =>
      if ownerAt? s m.line = some m.src then
        if e.st == .hx then setDir m.line none s else announced m.txid m.line true s
      else s

/-- A WRT message is accepted in its turn. -/
def acceptMsg (m : SglMsg) (s : State) : State := if m.kind == .evX then acceptEvx m s else acceptWrt m s

/-- Delivers the WRT messages of a source that are in turn, in WSEQ order (R371). -/
def drainWrt (src : Nat) : Nat → State → State
  | 0, s => s
  | n + 1, s =>
    let next := Table.getD s.fab.wseqRx src 0
    match s.fab.wrtHeld.find? (fun m => m.src == src && m.wseq == next) with
    | none => s
    | some m =>
      drainWrt src n (acceptMsg m { s with fab := { s.fab with
        wrtHeld := s.fab.wrtHeld.erase m, wseqRx := Table.put s.fab.wseqRx src ((next + 1) % 256) } })

/-- A WRT message arrives: it is delivered in WSEQ order, and waits ahead of its turn (R325, R371). One whose number has
been delivered is discarded. -/
def recvWrt (m : SglMsg) (s : State) : State :=
  if isDead s m.src then s
  else
    let next := Table.getD s.fab.wseqRx m.src 0
    if 64 < (m.wseq + 256 - next) % 256 then s
    else if s.fab.wrtHeld.any (fun x => x.src == m.src && x.wseq == m.wseq) then s
    else drainWrt m.src 65 { s with fab := { s.fab with wrtHeld := s.fab.wrtHeld ++ [m] } }

/-- WrT (R340). -/
def execWrT (src txid dla kid : Nat) (data : Line) (mask : BitVec 64) (poison : Bool) (wseq : Nat) (s : State) :
    Host.Outcome State Fault Refusal :=
  .next (recvWrt { kind := .wrT, src := src, dst := me s, txid := txid, line := dla, kid := kid, data := data
                   mask := mask, poison := poison, wseq := wseq } s)

/-- EvX (R357). -/
def execEvX (src txid dla wseq : Nat) (s : State) : Host.Outcome State Fault Refusal :=
  .next (recvWrt { kind := .evX, src := src, dst := me s, txid := txid, line := dla, wseq := wseq } s)

/-! ### Timeouts and dead nodes -/

/-- A transaction's wait for a node ends as by RspI, the line poisoned (R348, R351, Table 11-3). -/
def giveUp (node dla : Nat) (s : State) : State :=
  match dirAt s dla, transOf s dla with
  | some e, some t =>
    let s := modTrans dla (fun t => { t with pois := true }) (poisonHome dla s)
    match e.st with
    | .hsI => if t.pend.contains node then pendLess node dla s else s
    | .hxF => match t.snp with
      | some (k, _) => asI k dla s
      | none => s
    | .hxI => complete dla s
    | .hxW => endTrans dla none true s
    | .hs => s
    | .hx => s
  | some _, none => s
  | none, _ => s

/-- A line's transaction waits for a node. -/
def waitsOn (s : State) (node dla : Nat) : Bool :=
  match dirAt s dla, transOf s dla with
  | some e, some t =>
    match e.st with
    | .hsI => t.pend.contains node
    | .hxF => ownerOf e == node
    | .hxI => ownerOf e == node
    | .hxW => ownerOf e == node
    | .hs => false
    | .hx => false
  | some _, none => false
  | none, _ => false

/-- What a directory entry becomes when a node is dead (R351): none of an HX entry it owns; an HS entry without its
pointers. -/
def withoutNode (node : Nat) (e : DirEntry) : Option DirEntry :=
  if e.st == .hs && !e.cv then
    let ptrs := e.ptrs.filter (· != node)
    if ptrs.isEmpty then none else some { e with ptrs := ptrs }
  else some e

/-- The death of a node is reported to the ridge (R351, R397): a DEAD message with the node and the cause. -/
def reportDead (node cause : Nat) (s : State) : State :=
  if s.sgl.state = 0 then s
  else sendMsg { kind := .mgq, src := me s, dst := s.sgl.ridge, txid := 0, mcode := 5
                 payload := [BitVec.ofNat 64 node, BitVec.ofNat 64 cause] } s

/-- What a home does for a dead node (R351): its credits are reclaimed, its owned lines poisoned in HU, its pointers
removed, and every transaction that waits on it completed. -/
def killNode (node : Nat) (s : State) : State :=
  if isDead s node then s
  else
    let s := { s with coh := { s.coh with
      dead := node :: s.coh.dead
      owed := Table.del s.coh.owed node
      suspect := Table.del s.coh.suspect node
      fence := s.coh.fence.filter (fun f => f.2.1 != node)
      refused := s.coh.refused.filter (fun r => r.2.2 != node) } }
    let s := { s with fab := { s.fab with wrtHeld := s.fab.wrtHeld.filter (fun m => m.src != node) } }
    let owned := (s.coh.dir.filter (fun x => x.2.st == .hx && ownerOf x.2 == node)).map (·.1)
    let s := owned.foldl (fun s d => setDir d none (poisonHome d s)) s
    let shared := s.coh.dir.filter (fun x => x.2.st == .hs && x.2.ptrs.contains node)
    let s := shared.foldl (fun s x => setDir x.1 (withoutNode node x.2) s) s
    let busy := (s.coh.dir.map (·.1)).filter (fun d => waitsOn s node d)
    busy.foldl (fun s d => giveUp node d s) s

/-- A home declares a node dead (R351, R397): the death is recorded and reported. -/
def declareDead (node cause : Nat) (s : State) : State :=
  if isDead s node then s else reportDead node cause (event .nodeDead 9 [node, cause] (killNode node s))

/-- A node enters a slice's fence table; a full table costs the node of its oldest entry its life (R349). -/
def fence (node dla : Nat) (s : State) : State :=
  let slice := sliceOf dla
  let s := if s.coh.fence.countP (fun f => f.1 == slice) < 64 then s
    else
      match s.coh.fence.find? (fun f => f.1 == slice) with
      | none => s
      | some f => declareDead f.2.1 1 s
  if isDead s node then s else { s with coh := { s.coh with fence := s.coh.fence ++ [(slice, node, dla)] } }

/-- A snoop timeout makes its node suspect; the third within 60 s declares it dead (R350). -/
def suspect (node : Nat) (s : State) : State :=
  let ts := (s.now :: Table.getD s.coh.suspect node []).filter (fun t => decide (s.now - t < 60 * second))
  let s := { s with coh := { s.coh with suspect := Table.put s.coh.suspect node ts } }
  if 3 ≤ ts.length then declareDead node 0 s else s

/-- A snoop unanswered for 40 µs (R348 to R350). -/
def execSnoopTimeout (node dla : Nat) (s : State) : Host.Outcome State Fault Refusal :=
  .next (if waitsOn s node dla then suspect node (fence node dla (giveUp node dla s)) else s)

/-- The late answer of a fenced node is discarded and frees its entry (R349). -/
def execFencedAnswer (node dla : Nat) (s : State) : Host.Outcome State Fault Refusal :=
  .next { s with coh := { s.coh with fence := s.coh.fence.erase (sliceOf dla, node, dla) } }

/-- A node without a timeout for 60 s is no longer suspect (R350). -/
def execSuspectExpire (node : Nat) (s : State) : Host.Outcome State Fault Refusal :=
  .next { s with coh := { s.coh with suspect := Table.del s.coh.suspect node } }

/-- A way held for a refusal is released when its retry has not come within 10 µs (R330). -/
def execWayHoldExpire (slice set : Nat) (s : State) : Host.Outcome State Fault Refusal :=
  .next { s with coh := { s.coh with held := Table.del s.coh.held (slice * 131072 + set) } }

end Sys2Proof.Machine
end

