-- ==== Sys2Proof/Machine/Proxy.lean ====
section
/-! DEFINITION. The proxy agent: remote lines for this device's hosts, their copies, grants, recalls, evictions and the
answers to snoops (10, 11). -/

namespace Sys2Proof.Machine

/-! ### Lines, copies and credits -/

/-- The proxy's line (R319); PI where nothing is listed. -/
def pxAt (s : State) (home dla : Nat) : PxLine := Table.getD s.coh.px (lkey home dla) {}

/-- Replaces the proxy's line. -/
def putPx (home dla : Nat) (x : PxLine) (s : State) : State :=
  { s with coh := { s.coh with px := Table.putD s.coh.px (lkey home dla) x {} } }

/-- Changes the proxy's line. -/
def modPx (home dla : Nat) (f : PxLine → PxLine) (s : State) : State := putPx home dla (f (pxAt s home dla)) s

/-- The ports whose host holds a line, with their holdings. -/
def holdersOf (s : State) (node dla : Nat) : List (Port × Nat) :=
  [(Port.a, (hsfAt s node dla).ha), (Port.b, (hsfAt s node dla).hb)].filter (fun x => x.2 != 0)

/-- The port whose host holds a line in E. -/
def eHolder (s : State) (node dla : Nat) : Option Port :=
  ((holdersOf s node dla).find? (fun x => x.2 == 2)).map (·.1)

/-- A back-invalidate of a line is outstanding. -/
def biBusy (s : State) (node dla : Nat) : Bool :=
  (Table.get? s.coh.bis (biKey .a node dla)).isSome || (Table.get? s.coh.bis (biKey .b node dla)).isSome

/-- Back-invalidates every holder of a line. -/
def biAll (node dla : Nat) (s : State) : State :=
  sendBis node dla ((holdersOf s node dla).map (fun x => (x.1, BiKind.inv))) s

/-- Opens a line of the DRAM remote cache, stored with GEN all ones (R443). -/
def openRemote (s : State) (home dla : Nat) (c : DramLine) : Opened :=
  match keyOf s c.kid with
  | none => .poison
  | some k =>
    let b := binding c.kid home dla (secVer c.raw) (2 ^ 32 - 1)
    if k.integrity && decide (macField k c.kid b (secData c.raw) ≠ secMac c.raw) then .macFail
    else .data (decryptData k b (secData c.raw))

/-- The proxy's copy of a line, in the Fabric ways or in the DRAM remote cache (R316), and its key ID. -/
def copyOf (s : State) (home dla : Nat) : Option (Fill × Nat) :=
  match findLine s home dla with
  | some (_, e) => some (if e.poison then .poison else .data e.data e.ver, e.kid)
  | none =>
    (Table.get? s.dram.remote (lkey home dla)).map (fun c => (fillOf (openRemote s home dla c) (secVer c.raw), c.kid))

/-- Removes the proxy's copy from both places. -/
def dropCopy (home dla : Nat) (s : State) : State := dropDram home dla (dropSram home dla s)

/-- Stores a copy in the Fabric ways, or where no way is left in the DRAM remote cache (R273, R316, R347). -/
def storeCopy (home dla kid : Nat) (f : Fill) (s : State) : State :=
  let e : TagEntry :=
    { node := home, dla := dla, kid := kid, dirty := true, poison := f == .poison, pf := false, pin := false
      evict := false
      data := match f with
        | .data d _ => d
        | .poison => 0
      ver := match f with
        | .data _ v => v
        | .poison => 0 }
  let s := installLine 2 e (dropDram home dla s)
  if (findWay s home dla).isSome || f == .poison then s else installDram e s

/-- The copy after a write of this node's hosts: the enabled bytes replaced (R317). -/
def mergeCopy (home dla : Nat) (w : Waiter) (s : State) : State :=
  if w.poison then storeCopy home dla w.kid .poison s
  else
    match copyOf s home dla with
    | some (.data d v, kid) => storeCopy home dla kid (.data (mergeLine w.mask w.data d) v) s
    | some (.poison, _) => if w.mask = fullMask then storeCopy home dla w.kid (.data w.data 0) s else s
    | none => if w.mask = fullMask then storeCopy home dla w.kid (.data w.data 0) s else s

/-- WRT credits this node holds for a home (R324). -/
def creditsOf (s : State) (home : Nat) : Nat := Table.getD s.coh.credits home 64

/-- The next TXID of a request, WrT or EvX (R355). -/
def nextTx (s : State) : Nat × State :=
  (s.coh.txid, { s with coh := { s.coh with txid := (s.coh.txid + 1) % 0x800 } })

/-- Takes a WRT credit and the next WSEQ for a home (R324, R371). -/
def takeCredit (home : Nat) (s : State) : Nat × State :=
  let q := Table.getD s.fab.wseqTx home 0
  (q, { s with
    coh := { s.coh with credits := Table.put s.coh.credits home (creditsOf s home - 1) }
    fab := { s.fab with wseqTx := Table.put s.fab.wseqTx home ((q + 1) % 256) } })

/-- Sends a WrT (R317, R340), remembering the host write it completes. -/
def sendWrt (home dla txid : Nat) (w : Waiter) (mine : Option Waiter) (s : State) : State :=
  let r := takeCredit home s
  let s := modPx home dla (fun x => { x with wrts := Table.put x.wrts txid mine }) r.2
  sendMsg { cohMsg s .wrT home txid dla with
    kid := w.kid, data := w.data, mask := w.mask, poison := w.poison, wseq := r.1 } s

/-- The host write a WrT completes, where a host made it. -/
def hostWrite (w : Waiter) : Option Waiter := if w.asker.ofPort then some w else none

/-- PORT of a request (Table 10-5). -/
def portField (w : Waiter) : Nat :=
  match w.asker.port? with
  | some p => p.ix
  | none => 3

/-- Sends a request for a line and enters the state that waits for its grant (Table 11-6). -/
def sendReq (kind : MsgKind) (st : Option PxSt) (home dla : Nat) (w : Waiter) (s : State) : State :=
  let t := nextTx s
  let s := modPx home dla (fun x => { x with st := st, txid := some t.1, data := none, granted := false, kid := w.kid }) t.2
  notePeak (sliceOf dla) (sendMsg { cohMsg s kind home t.1 dla with kid := w.kid, port := portField w } s)

/-- PM holds while a host holds E (R320). -/
def ownState (s : State) (home dla : Nat) : PxSt :=
  if !(pxAt s home dla).wrts.isEmpty then .pmW else if (eHolder s home dla).isSome then .pm else .pe

/-- A stable owner's state follows its hosts' holdings and its outstanding WrT messages (R320). -/
def normPx (home dla : Nat) (s : State) : State :=
  match (pxAt s home dla).st with
  | some .pm => modPx home dla (fun x => { x with st := some (ownState s home dla) }) s
  | some .pe => modPx home dla (fun x => { x with st := some (ownState s home dla) }) s
  | some .pmW => modPx home dla (fun x => { x with st := some (ownState s home dla) }) s
  | _ => s

/-! ### Serving hosts -/

/-- A read of a line that the proxy may serve from its copy: from SRAM at once; from the DRAM remote cache through an MSHR
(R276); a copy under another key ID, or one that is gone, leaves first (R271, R316). -/
def readCopy (home dla : Nat) (w : Waiter) (s : State) : Prog × State :=
  let slice := sliceOf dla
  let set := cacheSet dla
  match findLine s home dla with
  | some (way, e) =>
    let s := count slice 0x002 w.asker.qual 1 (touch slice set way s)
    (.done, answer home dla w (if e.poison then .poison else .data e.data e.ver) { cls := 0 } s)
  | none =>
    let way := victimWay s 2 slice set
    let s := match way with
      | some v => beginEvict slice set v s
      | none => s
    (.wait, putMshr home dla { kid := w.kid, cur := some w, miss := true, way := way } s)

/-- A host write from a state that sends it as WrT (R317, R324, R411): without a credit, or behind an earlier write to the
home, it waits in the remote write queue. -/
def hostWrt (home dla : Nat) (w : Waiter) (own : Bool) (s : State) : Prog × State :=
  let ahead := s.fab.rwq.filter (fun x => x.1 == home)
  let mine := match ahead with
    | [] => true
    | x :: _ => x.2.1 == dla && x.2.2 == w
  if creditsOf s home = 0 || !mine then
    (.wait, if ahead.any (fun x => x.2.1 == dla && x.2.2 == w) then s
      else { s with fab := { s.fab with rwq := s.fab.rwq ++ [(home, dla, w)] } })
  else
    let s := { s with fab := { s.fab with rwq := s.fab.rwq.erase (home, dla, w) } }
    let t := nextTx s
    let s := sendWrt home dla t.1 w (some w) t.2
    let s := match w.asker with
      | .host p tag mv _ _ => if orphaned tag then s else setHolding p home dla mv.holding s
      | .node _ _ => s
      | .dovetail => s
      | .prefetch => s
      | .sequencer => s
      | .cxl _ _ => s
    if own then (.done, modPx home dla (fun x => { x with st := some .pmW }) (mergeCopy home dla w s))
    else (.done, modPx home dla (fun x => { x with st := none }) (dropCopy home dla s))

/-- Marks that the first waiting request has sent its back-invalidates. -/
def askBi (home dla : Nat) (bi : List (Port × BiKind)) (s : State) : Prog × State :=
  (.wait, sendBis home dla bi (modPx home dla (fun x => { x with asked := true }) s))

/-- The other port's holder of a line. -/
def otherHolding (s : State) (home dla : Nat) (w : Waiter) : Option (Port × Nat) :=
  (holdersOf s home dla).find? (fun x => some x.1 != w.asker.port?)

/-- A host request in an owner's state (PE, PM, PM_W of Table 11-6). -/
def serveOwner (home dla : Nat) (w : Waiter) (s : State) : Prog × State :=
  let other := otherHolding s home dla w
  let otherE := other.any (fun x => x.2 == 2)
  match w.kind with
  | .write =>
    match other with
    | some (p, 2) => askBi home dla [(p, .inv)] s
    | _ => hostWrt home dla w true s
  | .rdX =>
    match other with
    | some (p, _) => askBi home dla [(p, .inv)] s
    | none => readCopy home dla w s
  | .upg =>
    match other with
    | some (p, _) => askBi home dla [(p, .inv)] s
    | none => readCopy home dla w s
  | .rdS =>
    match other with
    | some (p, _) => if otherE then askBi home dla [(p, .data)] s else readCopy home dla w s
    | none => readCopy home dla w s
  | .rdC =>
    match other with
    | some (p, _) =>
      if otherE && !(pxAt s home dla).asked then askBi home dla [(p, .cur)] s else readCopy home dla w s
    | none => readCopy home dla w s
  | .victim => (.done, s)

/-- A host request in PS (Table 11-6). -/
def serveShared (home dla : Nat) (w : Waiter) (s : State) : Prog × State :=
  match w.kind with
  | .rdS => readCopy home dla w s
  | .rdC => readCopy home dla w s
  | .rdX => (.wait, sendReq .upg (some .psX) home dla w s)
  | .upg => (.wait, sendReq .upg (some .psX) home dla w s)
  | .write =>
    match otherHolding s home dla w with
    | some (p, _) => askBi home dla [(p, .inv)] s
    | none => hostWrt home dla w false s
  | .victim => (.done, s)

/-- A host request in PI (Table 11-6). -/
def serveInvalid (home dla : Nat) (w : Waiter) (s : State) : Prog × State :=
  if (pxAt s home dla).txid.isSome then (.wait, s)
  else
    match w.kind with
    | .rdS => (.wait, sendReq .rdS (some .piS) home dla w s)
    | .rdX => (.wait, sendReq .rdX (some .piX) home dla w s)
    | .upg => (.wait, sendReq .rdX (some .piX) home dla w s)
    | .rdC => (.wait, sendReq .rdC none home dla w s)
    | .write => hostWrt home dla w false s
    | .victim => (.done, s)

/-- The copy is not the one this request may use: under another key ID, or gone (R271, R316). -/
def wrongCopy (s : State) (home dla : Nat) (w : Waiter) : Bool :=
  match copyOf s home dla with
  | some c => c.2 != w.kid
  | none => true

/-- The copy is to leave before the request can be served. -/
def leaveFirst (home dla : Nat) (s : State) : Prog × State :=
  (.done, modPx home dla (fun x => { x with leave := true }) s)

/-! ### What a line does next -/

/-- Whether a line goes on, or waits; none where the step has nothing to do. -/
abbrev Next := Option (Prog × State)

/-- The write of a recalled host goes to the home before anything else (R335); in PF with the answer (R344). -/
def stepPull (home dla : Nat) (s : State) : Next :=
  let x := pxAt s home dla
  match x.pullW with
  | none => none
  | some w =>
    if x.st = some .pf then none
    else if creditsOf s home = 0 then some (.wait, s)
    else
      let t := nextTx s
      let s := modPx home dla (fun y => { y with pullW := none }) (sendWrt home dla t.1 w (hostWrite w) t.2)
      some (.done, if x.st = some .pm ∨ x.st = some .pe ∨ x.st = some .pmW then
        modPx home dla (fun y => { y with st := some .pmW }) (mergeCopy home dla w s) else s)

/-- A response of the proxy to its home. -/
def sendRsp (kind : MsgKind) (home txid dla : Nat) (fwd : Bool) (s : State) : State :=
  sendMsg { cohMsg s kind home txid dla with fwd := fwd } s

/-- SnpI with OWN = 0 (R345, Table 11-6): the PS copy, or that of PS_X, is dropped once no host holds the line, and the
answer is RspI. -/
def stepInv (home dla : Nat) (s : State) : Next :=
  let x := pxAt s home dla
  match x.snpI with
  | none => none
  | some tx =>
    if (x.st = some .ps ∨ x.st = some .psX) ∧ !(holdersOf s home dla).isEmpty then some (.wait, biAll home dla s)
    else
      let s := if x.st = some .ps then modPx home dla (fun y => { y with st := none, leave := false }) (dropCopy home dla s)
        else if x.st = some .psX then modPx home dla (fun y => { y with st := some .piX }) (dropCopy home dla s)
        else s
      some (.done, sendRsp .rspI home tx dla false (modPx home dla (fun y => { y with snpI := none }) s))

/-- Sends EvX under a credit, and waits for its Cmp. -/
def sendEvx (home dla : Nat) (st : PxSt) (s : State) : Prog × State :=
  if creditsOf s home = 0 then (.wait, s)
  else
    let t := nextTx s
    let r := takeCredit home t.2
    let s := modPx home dla (fun x => { x with st := some st, txid := some t.1, evxSent := true, leave := false })
      (dropCopy home dla r.2)
    (.done, sendMsg { cohMsg s .evX home t.1 dla with wseq := r.1 } s)

/-- The copy leaves (R316, "evict" in Table 11-6): it does too where both places have lost it. -/
def stepLeave (home dla : Nat) (s : State) : Next :=
  let x := pxAt s home dla
  let gone := (copyOf s home dla).isNone
  match x.st with
  | some .ps =>
    if !(x.leave || gone) then none
    else if !(holdersOf s home dla).isEmpty then some (.wait, biAll home dla s)
    else
      let t := nextTx s
      let s := modPx home dla (fun y => { y with st := none, leave := false }) (dropCopy home dla t.2)
      some (.done, sendMsg (cohMsg s .evc home t.1 dla) s)
  | some .pe =>
    if !(x.leave || gone) then none
    else if !(holdersOf s home dla).isEmpty then some (.wait, biAll home dla s)
    else some (sendEvx home dla .peI s)
  | some .pm =>
    if !(x.leave || gone) then none
    else some (.done, biAll home dla (modPx home dla (fun y => { y with st := some .pmI, leave := false }) s))
  | some .pmI =>
    if x.evxSent then none
    else if !x.wrts.isEmpty then some (.wait, s)
    else some (sendEvx home dla .pmI s)
  | none => if x.leave then some (.done, modPx home dla (fun y => { y with leave := false }) s) else none
  | some _ => none

/-- The back-invalidates a snoop with OWN = 1 needs (R335, R344). -/
def recallList (s : State) (home dla : Nat) (k : SnpKind) : List (Port × BiKind) :=
  match k with
  | .s => ((eHolder s home dla).toList).map (fun p => (p, .data))
  | .c => ((eHolder s home dla).toList).map (fun p => (p, .cur))
  | .x => (holdersOf s home dla).map (fun x => (x.1, .inv))
  | .i => (holdersOf s home dla).map (fun x => (x.1, .inv))

/-- The data message that answers a snoop. -/
def fwdKind : SnpKind → MsgKind
  | .s => .datS
  | .x => .datX
  | .c => .datC
  | .i => .datC

/-- The owner's state after its answer (Table 10-8). -/
def afterSnoop (home dla : Nat) (k : SnpKind) (s : State) : State :=
  let s := modPx home dla (fun x => { x with snoop := none, pullW := none }) s
  match k with
  | .s => modPx home dla (fun x => { x with st := some .ps }) s
  | .c => modPx home dla (fun x => { x with st := some (ownState s home dla) }) s
  | .x => modPx home dla (fun x => { x with st := none }) (dropCopy home dla s)
  | .i => modPx home dla (fun x => { x with st := none }) (dropCopy home dla s)

/-- An owner answers a snoop (R344, R355, Table 10-8): the WrT it announces, the data to REQN, and the response. -/
def answerSnoop (home dla : Nat) (q : HeldSnp) (s : State) : Prog × State :=
  let x := pxAt s home dla
  let announce := x.pullW.isSome || !x.wrts.isEmpty
  if announce && creditsOf s home = 0 then (.wait, s)
  else
    let s := match x.pullW with
      | some w => sendWrt home dla q.txid w (hostWrite w) (mergeCopy home dla w s)
      | none =>
        if x.wrts.isEmpty then s
        else sendWrt home dla q.txid { kind := .write, asker := .sequencer, kid := x.kid, cls := 2 } none s
    let fwd := q.reqn != home && q.kind != .i
    let s := if fwd then
        let m := cohMsg s (fwdKind q.kind) q.reqn q.rqtx dla
        match copyOf s home dla with
        | some (.data d v, kid) => sendMsg { m with data := d, ver := v, kid := kid } s
        | some (.poison, kid) => sendMsg { m with poison := true, kid := kid } s
        | none => sendMsg { m with poison := true, kid := x.kid } s
      else s
    let rsp := if announce then MsgKind.rspWb
      else if fwd then .rspFwd
      else match q.kind with
        | .s => .rspS
        | .c => .rspS
        | .x => .rspI
        | .i => .rspI
    (.done, sendRsp rsp home q.txid dla (announce && fwd) (afterSnoop home dla q.kind s))

/-- A snoop with OWN = 1 (R346, Table 11-6): held until the hold window has passed; hosts are recalled in PF; an evicting
owner answers once its EvX has been sent. -/
def stepSnoop (home dla : Nat) (s : State) : Next :=
  let x := pxAt s home dla
  match x.snoop with
  | none => none
  | some q =>
    let ask := fun (_ : Unit) =>
      if x.holding then none
      else
        let l := recallList s home dla q.kind
        if l.isEmpty then some (answerSnoop home dla q s)
        else some (Prog.wait, sendBis home dla l (modPx home dla (fun y => { y with st := some .pf }) s))
    match x.st with
    | some .pe => ask ()
    | some .pm => ask ()
    | some .pmW => ask ()
    | some .pf => some (answerSnoop home dla q s)
    | some .peI =>
      if x.evxSent && !x.holding then
        some (.done, sendRsp .rspWb home q.txid dla false (modPx home dla (fun y => { y with snoop := none }) s))
      else none
    | some .pmI =>
      if x.evxSent && !x.holding then
        some (.done, sendRsp .rspWb home q.txid dla false (modPx home dla (fun y => { y with snoop := none }) s))
      else none
    | none => some (.done, sendRsp .rspI home q.txid dla false (modPx home dla (fun y => { y with snoop := none }) s))
    | some _ => none

/-- The first waiting host request (Table 11-6). -/
def serveFirst (home dla : Nat) (w : Waiter) (s : State) : Prog × State :=
  match (pxAt s home dla).st with
  | none => serveInvalid home dla w s
  | some .ps => if wrongCopy s home dla w then leaveFirst home dla s else serveShared home dla w s
  | some .pe => if wrongCopy s home dla w then leaveFirst home dla s else serveOwner home dla w s
  | some .pm => if wrongCopy s home dla w then leaveFirst home dla s else serveOwner home dla w s
  | some .pmW => if wrongCopy s home dla w then (.wait, modPx home dla (fun x => { x with leave := true }) s)
    else serveOwner home dla w s
  | some .psX =>
    if w.kind == .rdS || w.kind == .rdC then
      if wrongCopy s home dla w then (.wait, s) else readCopy home dla w s
    else (.wait, s)
  | some .piS => (.wait, s)
  | some .piX => (.wait, s)
  | some .peI => (.wait, s)
  | some .pmI => (.wait, s)
  | some .pf => (.wait, s)

/-- The first request is over. A host granted E makes its proxy PM (R320). -/
def popFirst (home dla : Nat) (w : Waiter) (s : State) : State :=
  modPx home dla (fun x =>
    { x with waits := x.waits.erase w, asked := false
             st := if (w.kind == .rdX || w.kind == .upg) && x.st == some .pe then some .pm else x.st }) s

/-- In PS_X the reads behind the request for ownership are served (Table 11-6). -/
def firstOf (x : PxLine) : Option Waiter :=
  if x.st = some .psX then x.waits.tail.find? (fun w => w.kind == .rdS || w.kind == .rdC) else x.waits.head?

/-- The first waiting host request is taken, unless the copy is about to leave. -/
def stepHost (home dla : Nat) (s : State) : Next :=
  let x := pxAt s home dla
  match firstOf x with
  | none => none
  | some w =>
    if x.leave && x.st != some .pmW then none
    else
      let n := x.waits.length
      let r := serveFirst home dla w s
      match r.1 with
      | .wait => some r
      | .done =>
        if (pxAt r.2 home dla).leave && (pxAt r.2 home dla).waits.length = n && !x.leave then some r
        else some (.done, popFirst home dla w r.2)

/-- A line goes on: the data of recalled hosts, invalidations, evictions, snoops, and host requests in order; it waits
while a back-invalidate or the read of its copy is outstanding. -/
def pxGo : Nat → Nat → Nat → State → State
  | 0, _, _, s => s
  | n + 1, home, dla, s =>
    if biBusy s home dla || (mshrAt s home dla).isSome then s
    else
      let s := normPx home dla s
      let r := (stepPull home dla s).orElse fun _ => (stepInv home dla s).orElse fun _ =>
        (stepLeave home dla s).orElse fun _ => (stepSnoop home dla s).orElse fun _ => stepHost home dla s
      match r with
      | none => s
      | some (.wait, s) => s
      | some (.done, s) => pxGo n home dla s

/-- Lines that wait for a WRT credit of a home: first the remote write queue, in order (R411). -/
def kickCredits (home : Nat) (s : State) : State :=
  let q := (s.fab.rwq.filter (fun x => x.1 == home)).map (·.2.1)
  let ls := (s.coh.px.filter (fun x => x.1 / 2 ^ 36 == home)).map (fun x => x.1 % 2 ^ 36)
  (q ++ ls).foldl (fun s d => pxGo 40 home d s) s

/-- A WRT credit comes back (R324). -/
def creditIn (home : Nat) (s : State) : State :=
  kickCredits home { s with coh := { s.coh with credits := Table.put s.coh.credits home (min 64 (creditsOf s home + 1)) } }

/-- A host request for a remote line reaches its proxy slice (R332). The write of a host whose E line is being recalled
brings the data the recall waits for (Table 10-10). -/
def pxRequest (home dla : Nat) (w : Waiter) (s : State) : State :=
  let s := count (sliceOf dla) 0x001 w.asker.qual 1 s
  let recalled := w.kind == .write && (match w.asker.port? with
    | some p => (Table.get? s.coh.bis (biKey p home dla)).isSome && (hsfAt s home dla).of p == 2
    | none => false)
  if recalled then modPx home dla (fun x => { x with pullW := some w }) s
  else pxGo 40 home dla (modPx home dla (fun x => { x with waits := x.waits ++ [w] }) s)

/-! ### Grants -/

/-- The grant of a line is complete (R342): the first waiting request is answered, the copy stored, and the hold window
begins (R346). -/
def grantDone (home dla : Nat) (f : Fill) (kid : Nat) (s : State) : State :=
  let x := pxAt s home dla
  let next := match x.st with
    | some .piS => if x.noAlloc then none else some PxSt.ps
    | some .piX => some .pm
    | some .psX => some .pm
    | _ => none
  let s := if next.isSome then storeCopy home dla kid f s else s
  let s := modPx home dla (fun x =>
    { x with st := next, txid := none, data := none, granted := false, noAlloc := false, kid := kid
             holding := next.isSome && s.coh.holdNs != 0 }) s
  let s := { s with coh := { s.coh with retries := Table.del s.coh.retries (lkey home dla) } }
  match x.waits.head? with
  | none => pxGo 40 home dla s
  | some w =>
    let w' := if x.noAlloc then { w with kind := .rdC } else w
    pxGo 40 home dla (popFirst home dla w (answer home dla w' f { cls := 5 } s))

/-- Forwarded data and the home's Cmp or CmpX are both present (R342). -/
def grantIfBoth (home dla : Nat) (s : State) : State :=
  let x := pxAt s home dla
  match x.granted, x.data with
  | true, some (f, kid) => grantDone home dla f kid s
  | true, none => s
  | false, _ => s

/-- The line of this node's request that a data message answers: TXID and line name it. -/
def lineByTx (s : State) (txid dla : Nat) : Option (Nat × PxLine) :=
  s.coh.px.find? (fun x => x.1 % 2 ^ 36 == dla && x.2.txid == some txid && !x.2.evxSent)

/-- A data message fits the state that waits for it (Table 11-6). -/
def fits (k : MsgKind) (st : Option PxSt) : Bool :=
  match k, st with
  | .datS, some .piS => true
  | .datX, some .piX => true
  | .datX, some .psX => true
  | .datC, none => true
  | _, _ => false

/-- A data message arrives (R342, R347): from the home it completes the grant; forwarded data waits for the home's Cmp or
CmpX. One of a transaction that has ended is discarded (R352). -/
def recvDat (k : MsgKind) (src txid dla kid : Nat) (f : Fill) (s : State) : State :=
  if isDead s src then s
  else
    match lineByTx s txid dla with
    | none => s
    | some (key, x) =>
      let home := key / 2 ^ 36
      if !fits k x.st then s
      else if src = home then grantDone home dla f kid s
      else grantIfBoth home dla (modPx home dla (fun x => { x with data := some (f, kid) }) s)

/-- The fill of a data message. -/
def fillMsg (data : Line) (ver : Nat) (poison : Bool) : Fill := if poison then .poison else .data data ver

/-- DatS (Table 11-6). -/
def execDatS (src txid dla kid : Nat) (data : Line) (ver : Nat) (poison : Bool) (s : State) :
    Host.Outcome State Fault Refusal := .next (recvDat .datS src txid dla kid (fillMsg data ver poison) s)

/-- DatX (Table 11-6). -/
def execDatX (src txid dla kid : Nat) (data : Line) (ver : Nat) (poison : Bool) (s : State) :
    Host.Outcome State Fault Refusal := .next (recvDat .datX src txid dla kid (fillMsg data ver poison) s)

/-- DatC (Table 11-6). -/
def execDatC (src txid dla kid : Nat) (data : Line) (ver : Nat) (poison : Bool) (s : State) :
    Host.Outcome State Fault Refusal := .next (recvDat .datC src txid dla kid (fillMsg data ver poison) s)

/-- A host write carried by WrT is complete (R317, R341): its holding stands from its acceptance (R332). -/
def completeRemote (home : Nat) (w : Waiter) (s : State) : State :=
  match w.asker with
  | .host p tag _ tenant hpa =>
    traceDone p tag (if w.mask = fullMask then 3 else 4) 5 false false false hpa w.kid tenant home
      (usage p tenant true (if orphaned tag then s else emit (.hostCmp p tag) s))
  | .node _ _ => s
  | .dovetail => s
  | .prefetch => s
  | .sequencer => s
  | .cxl p op => if orphaned op then s else emit (.cxl p op 0 []) s

/-- The copy takes the line's version after the write (Table 10-5). -/
def copyVer (home dla ver : Nat) (s : State) : State :=
  match findLine s home dla with
  | some (w, e) => if e.poison then s else putWay (sliceOf dla) (cacheSet dla) w { e with ver := ver } s
  | none => s

/-- Cmp arrives at a proxy (R324, R342, Table 11-7): a credit alone; the completion of a WrT; the end of an EvX; or the
home's part of a forwarded grant. -/
def recvCmp (src txid dla ver : Nat) (crd : Bool) (s : State) : State :=
  if isDead s src then s
  else if txid = 0xFFF then creditIn src s
  else
    let x := pxAt s src dla
    match Table.get? x.wrts txid with
    | some w =>
      let s := modPx src dla (fun y => { y with wrts := Table.del y.wrts txid }) s
      let s := match w with
        | some w => completeRemote src w s
        | none => s
      let s := pxGo 40 src dla (copyVer src dla ver s)
      if crd then creditIn src s else s
    | none =>
      if x.txid = some txid then
        if x.evxSent then
          let s := pxGo 40 src dla (modPx src dla (fun y => { y with st := none, txid := none, evxSent := false, holding := false }) s)
          if crd then creditIn src s else s
        else if x.st = some .piS ∨ x.st = none then
          grantIfBoth src dla (modPx src dla (fun y => { y with granted := true }) s)
        else s
      else s

/-- Cmp (R360, R361). -/
def execCmp (src txid dla ver : Nat) (crd : Bool) (s : State) : Host.Outcome State Fault Refusal :=
  .next (recvCmp src txid dla ver crd s)

/-- CmpX arrives (R339, R342): in PS_X the copy stands; in PI_X the forwarded data must be present too. -/
def recvCmpX (src txid dla : Nat) (s : State) : State :=
  let x := pxAt s src dla
  if isDead s src || x.txid != some txid || x.evxSent then s
  else
    match x.st with
    | some .piX => grantIfBoth src dla (modPx src dla (fun y => { y with granted := true }) s)
    | some .psX =>
      match x.data, copyOf s src dla with
      | some (f, kid), _ => grantDone src dla f kid s
      | none, some (f, kid) => grantDone src dla f kid s
      | none, none => s
    | _ => s

/-- CmpX (R339). -/
def execCmpX (src txid dla : Nat) (s : State) : Host.Outcome State Fault Refusal := .next (recvCmpX src txid dla s)

/-! ### Snoops -/

/-- A snoop arrives at the proxy (R345, R346, Tables 11-6 and 11-7). -/
def recvSnp (kind : SnpKind) (home txid dla : Nat) (own : Bool) (reqn rqtx : Nat) (s : State) : State :=
  let x := pxAt s home dla
  if isDead s home then s
  else if own then
    match x.st with
    | none => sendRsp .rspI home txid dla false s
    | some .ps => protocolError home dla 10 s
    | some .piS => protocolError home dla 10 s
    | some .pf => protocolError home dla 10 s
    | some _ =>
      pxGo 40 home dla (modPx home dla (fun y => { y with snoop := some ⟨kind, txid, reqn, rqtx⟩ }) s)
  else if kind == .i then
    match x.st with
    | some .ps => pxGo 40 home dla (modPx home dla (fun y => { y with snpI := some txid }) s)
    | some .psX => pxGo 40 home dla (modPx home dla (fun y => { y with snpI := some txid }) s)
    | some .piS => sendRsp .rspI home txid dla false (modPx home dla (fun y => { y with noAlloc := true }) s)
    | _ => sendRsp .rspI home txid dla false s
  else
    match x.st with
    | none => sendRsp .rspI home txid dla false s
    | some _ => protocolError home dla 10 s

/-- SnpS (R344). -/
def execSnpS (home txid dla : Nat) (own : Bool) (reqn rqtx : Nat) (s : State) : Host.Outcome State Fault Refusal :=
  .next (recvSnp .s home txid dla own reqn rqtx s)

/-- SnpX (R344). -/
def execSnpX (home txid dla : Nat) (own : Bool) (reqn rqtx : Nat) (s : State) : Host.Outcome State Fault Refusal :=
  .next (recvSnp .x home txid dla own reqn rqtx s)

/-- SnpC (R344). -/
def execSnpC (home txid dla : Nat) (own : Bool) (reqn rqtx : Nat) (s : State) : Host.Outcome State Fault Refusal :=
  .next (recvSnp .c home txid dla own reqn rqtx s)

/-- SnpI (R344, R345). -/
def execSnpI (home txid dla : Nat) (own : Bool) (reqn rqtx : Nat) (s : State) : Host.Outcome State Fault Refusal :=
  .next (recvSnp .i home txid dla own reqn rqtx s)

/-- HOLD_NS has passed since the grant: a held snoop is answered (R346). -/
def execHoldWindowExpire (home dla : Nat) (s : State) : Host.Outcome State Fault Refusal :=
  .next (pxGo 40 home dla (modPx home dla (fun x => { x with holding := false }) s))

/-! ### Recalls -/

/-- A write that carries data a recalled host returned without a request of its own. -/
def returned (x : PxLine) (data : Line) (poison : Bool) : Waiter :=
  { kind := .write, asker := .sequencer, kid := x.kid, cls := 2, data := data, mask := fullMask, poison := poison }

/-- A host's answer to a back-invalidate (Table 11-8): BIRspS leaves it holding S and BIRspI nothing, whichever
back-invalidate it answers, and the back-invalidate is over. -/
def biAnswer (p : Port) (node dla : Nat) (keepS : Bool) (s : State) : State :=
  match Table.get? s.coh.bis (biKey p node dla) with
  | none => s
  | some _ =>
    setHolding p node dla (if keepS then 1 else 0)
      { s with coh := { s.coh with bis := Table.del s.coh.bis (biKey p node dla) } }

/-- A recall's answer of one host, by what was asked for (R333, R335): S kept after BISnpData, nothing after BISnpInv, its
holding unchanged after BISnpCur. -/
def recallAnswer (p : Port) (node dla : Nat) (s : State) : State :=
  match Table.get? s.coh.bis (biKey p node dla) with
  | none => s
  | some .data => biAnswer p node dla true s
  | some .inv => biAnswer p node dla false s
  | some .cur => { s with coh := { s.coh with bis := Table.del s.coh.bis (biKey p node dla) } }

/-- A proxy's recall of its hosts ends (R344, Table 11-6): every back-invalidate of the line is answered, with the data a
host returned; S is kept where it was asked for (DESIGN CHOICE, log 19). -/
def execHostRecallDone (home dla : Nat) (data : Option Line) (s : State) : Host.Outcome State Fault Refusal :=
  .next (
    if !biBusy s home dla then s
    else
      let s := match data with
        | some d => modPx home dla (fun x => { x with pullW := some (x.pullW.getD (returned x d false)) }) s
        | none => s
      pxGo 40 home dla (recallAnswer .a home dla (recallAnswer .b home dla s)))

/-! ### Refusals -/

/-- RtyH: the request is to be sent again after its back-off (R330, Table 11-7). -/
def recvRty (home txid dla : Nat) (s : State) : State :=
  let x := pxAt s home dla
  if isDead s home || x.txid != some txid || x.evxSent then s
  else
    let n := ((Table.get? s.coh.retries (lkey home dla)).map (·.n)).getD 0
    { s with coh := { s.coh with retries := Table.put s.coh.retries (lkey home dla) { n := n + 1, due := true } } }

/-- RtyH (R330). -/
def execRtyH (home txid dla _rsn : Nat) (s : State) : Host.Outcome State Fault Refusal :=
  .next (recvRty home txid dla s)

/-- The request a state waits for (Table 11-6). -/
def reqKindOf (st : Option PxSt) : MsgKind :=
  match st with
  | some .piS => .rdS
  | some .piX => .rdX
  | some .psX => .upg
  | _ => .rdC

/-- A refused request's back-off ends: it is sent again under its TXID (R330). -/
def execRetryBackoffExpire (home dla : Nat) (s : State) : Host.Outcome State Fault Refusal :=
  .next (
    let x := pxAt s home dla
    match x.txid, Table.get? s.coh.retries (lkey home dla) with
    | some tx, some r =>
      if r.due then
        let s := { s with coh := { s.coh with retries := Table.put s.coh.retries (lkey home dla) { r with due := false } } }
        let port := match x.waits.head? with
          | some w => portField w
          | none => 3
        sendMsg { cohMsg s (reqKindOf x.st) home tx dla with kid := x.kid, port := port } s
      else s
    | some _, none => s
    | none, _ => s)

/-! ### The end of a transaction without its home -/

/-- Answers a host request that cannot be served: a read with poison; a write completes, and its data is lost (R352,
R396). -/
def answerLost (node dla : Nat) (w : Waiter) (s : State) : State :=
  match w.kind with
  | .write => completeRemote node w s
  | .rdS => answer node dla { w with kind := .rdC } .poison { cls := 5 } s
  | .rdX => answer node dla { w with kind := .rdC } .poison { cls := 5 } s
  | .rdC => answer node dla w .poison { cls := 5 } s
  | .upg => answer node dla { w with kind := .rdC } .poison { cls := 5 } s
  | .victim => s

/-- A proxy line ends in PI (R352): its waiting requests and outstanding writes are answered, its copy dropped, its hosts
back-invalidated, a held snoop answered RspI. -/
def endPx (home dla : Nat) (s : State) : State :=
  let x := pxAt s home dla
  let ws := x.waits ++ (x.wrts.filterMap (·.2)) ++ x.pullW.toList
  let s := putPx home dla {} (delMshr home dla (dropCopy home dla s))
  let s := { s with
    coh := { s.coh with retries := Table.del s.coh.retries (lkey home dla) }
    fab := { s.fab with rwq := s.fab.rwq.filter (fun y => !(y.1 == home && y.2.1 == dla)) } }
  let s := ws.foldl (fun s w => answerLost home dla w s) s
  let s := if biBusy s home dla then s else biAll home dla s
  let s := match x.snoop with
    | some q => sendRsp .rspI home q.txid dla false s
    | none => s
  match x.snpI with
  | some t => sendRsp .rspI home t dla false s
  | none => s

/-- The proxy waits for a grant or a Cmp (Table 11-7). -/
def pxWaiting (x : PxLine) : Bool :=
  x.txid.isSome || !x.wrts.isEmpty || x.st == some .pmI

/-- 2 ms without a grant or a Cmp end the transaction (R352). -/
def execProxyTimeout (home dla : Nat) (s : State) : Host.Outcome State Fault Refusal :=
  .next (if pxWaiting (pxAt s home dla) then event .proxyEnded 9 [home, dla] (endPx home dla s) else s)

end Sys2Proof.Machine
end

