-- ==== Sys2Proof/Machine/HostReq.lean ====
section
/-! DEFINITION. Host requests: window decode, violations, run-ahead hints, the home or the proxy; and the reads and fills
of a proxy's copy (02, 08, 13). -/

namespace Sys2Proof.Machine

/-! ### The proxy's copy in the DRAM remote cache -/

/-- The read of a copy cannot be served from the DRAM: it leaves, and the request is taken again (R271, R194). -/
def remoteLost (home dla : Nat) (s : State) : State :=
  pxGo 40 home dla (modPx home dla (fun x => { x with leave := true }) (delMshr home dla s))

/-- The tag check of a remote line (R271, R304). -/
def remoteTagResult (home dla : Nat) (s : State) : State :=
  match mshrAt s home dla with
  | none => s
  | some m =>
    if m.tagHit.isSome then s
    else
      match m.cur, Table.get? s.dram.remote (lkey home dla) with
      | some w, some c =>
        if c.kid = w.kid && !lineMarked s (lineAt home dla) then
          dramAsk { line := lineAt home dla, cls := 1, node := home, dla := dla, use := .line }
            (modMshr home dla (fun m => { m with tagHit := some true })
              (count (sliceOf dla) 0x003 w.asker.qual 1 (wakeRank (lineAt home dla) s)))
        else remoteLost home dla s
      | some _, none => remoteLost home dla s
      | none, _ => s

/-- The copy's sector has been read: the first waiting request is answered, and the copy fills its way. -/
def remoteServe (home dla : Nat) (w : Waiter) (c : DramLine) (s : State) : State :=
  let o := openRemote s home dla c
  let f := fillOf o (secVer c.raw)
  let s := reportOpen o w.kid dla w.asker.src.1 home s
  let s := popFirst home dla w (answer home dla w f { cls := 1 } s)
  if (mshrAt s home dla).any (fun m => m.way.isSome) then
    modMshr home dla (fun m => { m with cur := none, fill := some f }) s
  else pxGo 40 home dla (delMshr home dla s)

/-- The LPDDR6 read of a remote line completes (R194, R292). -/
def remoteDramRead (home dla : Nat) (a : DramSense) (s : State) : State :=
  match mshrAt s home dla with
  | none => s
  | some m =>
    if m.tagHit != some true then s
    else
      let a := if (asked s .line home dla).isNone then {} else a
      match dramServe .line home dla s with
      | none => s
      | some s =>
      match m.cur, Table.get? s.dram.remote (lkey home dla) with
      | some w, some c =>
        let line := lineAt home dla
        match decodeAt s line (dramWord (secData c.raw) (secVer c.raw)) a with
        | .clean => remoteServe home dla w c s
        | .corrected dqs => remoteServe home dla w c (dramCorrected line dqs s)
        | .wrong x dqs => remoteServe home dla w { c with raw := wrongSector c.raw x } (dramCorrected line dqs s)
        | .uncorrectable => remoteLost home dla (dropDram home dla (dramUncorrectable s))
      | some _, none => remoteLost home dla s
      | none, _ => s

/-- The fill of a proxy's copy into its Fabric way (R272, R275). -/
def remoteFill (home dla : Nat) (s : State) : State :=
  match mshrAt s home dla with
  | none => s
  | some m =>
    match m.way, m.fill with
    | some w, some f =>
      let slice := sliceOf dla
      let set := cacheSet dla
      if (Table.get? s.cache.ways (wayKey slice set w)).any (fun e => e.evict) then s
      else
        let s := match f with
          | .poison => s
          | .data d v =>
            if (findWay s home dla).isSome then s
            else
              touch slice set w (putWay slice set w
                { node := home, dla := dla, kid := m.kid, dirty := false, poison := false, pf := false, pin := false
                  evict := false, data := d, ver := v } (evictNow slice set w s))
        pxGo 40 home dla (delMshr home dla s)
    | some _, none => s
    | none, _ => s

/-- The DRAM-cache tag check of a miss completes (R38, R46, R271). -/
def execDramCacheTagResult (node dla : Nat) (s : State) : Host.Outcome State Fault Refusal :=
  .next (if node = me s then homeTagResult dla s else remoteTagResult node dla s)

/-- An LPDDR6 line read completes, at one copy and where that fails at the other (R194, R292). -/
def execLpddr6ReadDone (node dla : Nat) (res : DramRead) (s : State) : Host.Outcome State Fault Refusal :=
  .next (if node = me s then homeDramRead dla res.first res.other s else remoteDramRead node dla res.first s)

/-- A fill reaches its MSHR's way, and the recorded entries act in order (R276, R283). -/
def execMshrFill (node dla : Nat) (s : State) : Host.Outcome State Fault Refusal :=
  .next (if node = me s then homeFill dla s else remoteFill node dla s)

/-- MSHRs of a set of a slice. -/
def setMshrs (s : State) (slice set : Nat) : List (Nat × Nat) :=
  (s.cache.mshrs.filter (fun x => sliceOf (x.1 % 2 ^ 36) == slice && cacheSet (x.1 % 2 ^ 36) == set)).map
    (fun x => (x.1 / 2 ^ 36, x.1 % 2 ^ 36))

/-- An LPDDR6 channel controller accepts the installed line: the way and what waits for it are released (R275). -/
def execEvictionDone (slice set way : Nat) (s : State) : Host.Outcome State Fault Refusal :=
  .next (
    if !evicting s slice set way then s
    else
      let s := endEvict slice set way s
      if evicting s slice set way then s
      else (setMshrs s slice set).foldl (fun s x =>
        if x.1 = me s then afterEvict x.2 s else remoteFill x.1 x.2 s) s)

/-! ### Remote requests -/

/-- A request to an absent node is answered (R396): counted, with one event for each node and generation. -/
def answerAbsent (node dla : Nat) (w : Waiter) (s : State) : State :=
  let s := if w.kind == .write then { s with fab := { s.fab with wrDisc := satInc 32 s.fab.wrDisc } }
    else { s with fab := { s.fab with rdPoison := satInc 32 s.fab.rdPoison } }
  let s := if s.fab.absEv.contains (node, s.sgl.gen) then s
    else event .absentNode 3 [node] { s with fab := { s.fab with absEv := (node, s.sgl.gen) :: s.fab.absEv } }
  answerLost node dla w s

/-- A host request for another node's line (R18): absent nodes are answered at once (R396), and none is present in a
stand-alone device (DEDUCED, log 20); before MEMBER it waits in the hold queue until the hold limit (R393); else it goes
to the proxy. -/
def remoteRequest (home dla : Nat) (w : Waiter) (s : State) : State :=
  if s.sgl.cfg.pool = 0 then answerAbsent home dla w s
  else if s.sgl.state = 2 then if present s home then pxRequest home dla w s else answerAbsent home dla w s
  else if s.fab.holdOver then answerAbsent home dla w s
  else { s with fab := { s.fab with hold := s.fab.hold ++ [(home, dla, w)] } }

/-! ### Run-ahead hints -/

/-- Core cycles in 2 µs. -/
def twoMicros : Nat := 4800

/-- The page a stream at a page of addresses will reach 8 pages on. -/
def aheadPage (page : Nat) (up : Bool) : Option Nat := if up then some (page + 8) else if 8 ≤ page then some (page - 8) else none

/-- Sends a hint for a page of host addresses: inside the same window, with read permission, of this node (R58). -/
def sendHint (p : Port) (win page : Nat) (s : State) : State :=
  match decode (s.port p) (page * 4096) with
  | none => s
  | some d =>
    if d.win = win && d.rd && d.kvalid && plaNode d.pla == me s then
      { s with tr := { s.tr with hints := s.tr.hints ++ [lpnOf (plaDla d.pla)] } }
    else s

/-- The tracker a read belongs to: its page, or the next in its direction, within 2 µs. -/
def tracks (now page : Nat) (t : Tracker) : Bool :=
  decide (now - t.time ≤ twoMicros) && (t.page == page || (t.page + 1 == page && (t.up || t.count == 1))
    || (page + 1 == t.page && (!t.up || t.count == 1)))

/-- A read moves its stream tracker; a confirmed stream that enters a new page sends a hint for the page 8 further on
(02, Run-ahead map fetches; R58). Of a port's 32 trackers the one that moved longest ago gives way to a new stream (DESIGN
CHOICE, log 108). -/
def trackRead (p : Port) (win hpa : Nat) (s : State) : State :=
  let page := hpa / 4096
  let h := s.port p
  match h.tracks.find? (tracks s.now page) with
  | none => s.setPort p { h with tracks := ({ page := page, up := true, count := 1, time := s.now } :: h.tracks).take 32 }
  | some t =>
    let rest := h.tracks.erase t
    if t.page = page then s.setPort p { h with tracks := { t with time := s.now } :: rest }
    else
      let up := decide (t.page < page)
      let s := s.setPort p { h with tracks := { page := page, up := up, count := min 3 (t.count + 1), time := s.now } :: rest }
      if 3 ≤ t.count then
        match aheadPage page up with
        | some q => sendHint p win q s
        | none => s
      else s

/-! ### Uncorrectable SRAM words -/

/-- A lookaside entry that cannot be corrected is dropped (R196). -/
def dropLook (lpn : Nat) (s : State) : State :=
  { s with tr := { s.tr with
    lookD := s.tr.lookD.filter (· != lpn), lookE := s.tr.lookE.filter (fun d => lpnOf d != lpn) } }

/-- The nodes recorded as present in the pool, this one excepted. -/
def otherNodes (s : State) : List Nat := (List.range 1024).filter (fun n => present s n && n != me s)

/-- SnpI, with OWN = 0, to some nodes (R196; OWN is the model's choice, log 24). -/
def snpAll (dla : Nat) : List Nat → State → State
  | [], s => s
  | n :: ns, s =>
    let t := nextSnp s
    snpAll dla ns (sendSnp .i n t.1 dla false { kind := .victim, asker := .sequencer, kid := 0, cls := 3 } t.2)

/-- A line of a directory or host snoop filter entry that cannot be corrected (R196): SnpI to every node present,
back-invalidates on both ports, and the entry in HU once all have answered. A request in progress whose copies are being
recalled waits for them; one that has its data goes on, and the rebuild follows it. -/
def rebuildEntry (dla : Nat) (s : State) : State :=
  let all := otherNodes s
  let bi := [(Port.a, BiKind.inv), (Port.b, BiKind.inv)]
  let e : DirEntry := { st := .hsI, cv := true, vec := 2 ^ 64 - 1 }
  let victim : Waiter := { kind := .victim, asker := .sequencer, kid := 0, cls := 3 }
  let start := fun (s : State) =>
    let s := modMshr (me s) dla (fun m => { m with trans := some { pend := all, bi := [.a, .b] } }) (setDir dla (some e) s)
    sendBis (me s) dla bi (snpAll dla all s)
  match mshrAt s (me s) dla with
  | none => start (putMshr (me s) dla { kid := 0, cur := some victim } s)
  | some m =>
    match m.cur, m.trans with
    | none, _ => start (modMshr (me s) dla (fun m => { m with cur := some victim }) s)
    | some _, some _ => start s
    | some _, none =>
      sendBis (me s) dla bi (setDir dla (some { e with st := .hs })
        (modMshr (me s) dla (fun m => { m with queue := .req victim :: m.queue }) s))

/-- An MSHR that cannot be corrected answers its request with poison (R196), once the copies being recalled have been. -/
def poisonMshr (node dla : Nat) (s : State) : State :=
  if node = me s then
    if (mshrAt s node dla).any (fun m => m.trans.isSome) then
      modMshr node dla (fun m => { m with trans := m.trans.map (fun t => { t with pois := true }) }) s
    else deliver dla .poison { cls := 7 } s
  else
    match (mshrAt s node dla).bind (·.cur) with
    | none => s
    | some w => pxGo 40 node dla (popFirst node dla w (delMshr node dla (answerLost node dla w s)))

/-- A host snoop filter entry that cannot be corrected (R196): that of a remote line's proxy lets its copy go. -/
def filterBad (node dla : Nat) (s : State) : State :=
  if node = me s then rebuildEntry dla s
  else
    let s := modPx node dla (fun x => if x.st.isSome then { x with leave := true } else x) s
    pxGo 40 node dla (sendBis node dla [(.a, .inv), (.b, .inv)] s)

/-- A host request meets an entry that cannot be corrected (R196): a lookaside or predictor entry is dropped, an MSHR answers
its request with poison, a directory or filter entry is rebuilt; the request goes on as then found. -/
def meetEntry (met : SramMeet) (node dla : Nat) (s : State) : State :=
  match met with
  | .clean => s
  | .corrected => s
  | .data => s
  | .lookaside => dropLook (lpnOf dla) s
  | .predictor => { s with tr := { s.tr with pred := Table.del s.tr.pred (predKey dla) } }
  | .mshr => poisonMshr node dla s
  | .directory => if node = me s then rebuildEntry dla s else s
  | .hsf => filterBad node dla s

/-! ### Credits -/

/-- The M2S Req credits a port advertises (R409). -/
def reqCredits : Nat := 256

/-- The M2S RwD credits a port advertises (R409). -/
def rwdCredits : Nat := 128

/-- The M2S BIRsp credits a port advertises (R409): an answer to a back-invalidate is taken in its own step, and its credit is
back with it. -/
def birspCredits : Nat := 64

/-- Credits are withheld for a segment (R445). -/
def waitSeg (s : State) : Bool :=
  (s.sec.walks ++ s.sec.queued).any (fun w =>
    (List.range 16).any (fun h => decide (genLast (w.gen + 1) ≤ Table.getD s.sec.ctrs (h * 4096 + w.seg) s.sec.ctrBase + 2 ^ 16)))

/-- An MSHR or a merge position is not reservable (R276, R277). -/
def mshrHold (s : State) : Bool :=
  (List.range 16).any (fun i => decide (512 ≤ mshrCount s i)) || s.cache.mshrs.any (fun x => decide (16 ≤ x.2.queue.length))

/-- A port's partial write. -/
def partialOf (p : Port) (w : Waiter) : Bool :=
  w.asker.port? == some p && w.kind == .write && w.mask != fullMask && !w.poison

/-- The partial writes of a port that wait for a slice (R209). -/
def partialWaits (s : State) (p : Port) (slice : Nat) : Nat :=
  s.cache.mshrs.foldl (fun a x =>
    if sliceOf (x.1 % 2 ^ 36) != slice || x.1 / 2 ^ 36 != me s then a
    else
      a + x.2.queue.countP (fun e => match e with
        | .req w => partialOf p w
        | .maint _ _ => false) + (if x.2.dove && x.2.cur.any (partialOf p) then 1 else 0)) 0

/-- Req credits are not returned (Table 13-3): no memory service, no MSHR or merge position, no slot of a medium channel's
window (R100), a full remote hold queue (R393). -/
def reqHold (s : State) : Bool := !serving s || mshrHold s || slotHold s || decide (256 ≤ s.fab.hold.length)

/-- RwD credits of a port are not returned (Table 13-3): no memory service, no MSHR or merge position, the dirty limit (R240),
which is also what the free-stripe floor comes to (R145), an LPDDR6 write queue at 1,536 lines (R300), 16 partial writes
waiting for one slice (R209), 32 entries in the remote write queue (R411), a full remote hold queue (R393), or counter values
held back (R445). -/
def rwdHold (p : Port) (s : State) : Bool :=
  !serving s || mshrHold s || creditHold s || (List.range 16).any (fun c => decide (1536 ≤ writeCount s c))
    || (List.range 16).any (fun i => decide (16 ≤ partialWaits s p i))
    || decide (32 ≤ s.fab.rwq.countP (fun x => x.2.2.asker.port? == some p)) || decide (256 ≤ s.fab.hold.length) || waitSeg s

/-- A request has used a Req credit of its port: it is returned at once where nothing holds it (R409, R410). -/
def useReq (p : Port) (s : State) : State :=
  if reqHold s || s.thm.enforced then s.setPort p { s.port p with reqUsed := (s.port p).reqUsed + 1 } else s

/-- A write has used an RwD credit of its port. -/
def useRwd (p : Port) (s : State) : State :=
  if rwdHold p s || s.thm.enforced then s.setPort p { s.port p with rwdUsed := (s.port p).rwdUsed + 1 } else s

/-- Lines that a port's usable bandwidth carries in 1 µs, which scales with width × rate from 121 GB/s (R405, Table 02-8). -/
def linesPerMicro (h : HostPort) : Nat :=
  if h.width = 0 || h.rate = 0 then 0 else 121000 * 2 ^ (h.width + 1) * 2 ^ (h.rate + 3) / 65536

/-- Lines that a port may admit in 1 µs while throttling is enforced (R536). -/
def paceLimit (p : Port) (s : State) : Nat :=
  linesPerMicro (s.port p) * limitNow s / 100

/-- Credits withheld return in a cycle in which nothing holds them; while throttling is enforced, as many as the window of 1 µs
still allows, Req before RwD (R410, R536; the order DESIGN CHOICE, log 105). -/
def returnM2s (p : Port) (s : State) : State :=
  let h := s.port p
  let req := if reqHold s then 0 else h.reqUsed
  let rwd := if rwdHold p s then 0 else h.rwdUsed
  if req + rwd = 0 then s
  else if s.thm.enforced then
    let win := s.now / 2400
    let done := if h.paced.1 = win then h.paced.2 else 0
    let a := min req (paceLimit p s - done)
    let b := min rwd (paceLimit p s - done - a)
    s.setPort p { h with reqUsed := h.reqUsed - a, rwdUsed := h.rwdUsed - b, paced := (win, done + a + b) }
  else s.setPort p { h with reqUsed := h.reqUsed - req, rwdUsed := h.rwdUsed - rwd }

/-! ### Requests -/

/-- What a host access comes to: a violation of a kind, or a decoded access. -/
inductive Access where
  | violation (kind : Nat)
  | good (d : Decoded)
deriving DecidableEq, Repr

/-- The line of a decoded access is one whose back-invalidate a window commit waits for (R418). -/
def inCommit (h : HostPort) (d : Decoded) : Bool :=
  match h.commit with
  | some ls => ls.contains (lkey (plaNode d.pla) (plaDla d.pla))
  | none => false

/-- Window decode of an access; data that a commit's back-invalidates return is decoded under the settings before it
(R16, R418). -/
def decodeAccess (h : HostPort) (write : Bool) (hpa : Nat) : Option Decoded :=
  match (if write then decode { h with windows := h.before } hpa else none) with
  | some d => if inCommit h d then some d else decode h hpa
  | none => decode h hpa

/-- The checks of R413 to R415: window, permission, key ID. Where two of them fail, the first in this order is the one
WIN_VLAST shows (DESIGN CHOICE, log 21). -/
def checkAccess (s : State) (p : Port) (write : Bool) (hpa : Nat) : Access :=
  match decodeAccess (s.port p) write hpa with
  | none => .violation 1
  | some d =>
    if write && !d.wr then .violation 3
    else if !write && !d.rd then .violation 2
    else if !d.kvalid || !keyServes s d.kid then .violation 4
    else .good d

/-- The internal request of a MemRd (R332); A without WR is granted S (R415). -/
def readKind (mv : MetaValue) (wr : Bool) : ReqKind :=
  match mv with
  | .s => .rdS
  | .a => if wr then .rdX else .rdS
  | .i => .rdC

/-- A port takes memory requests: the device serves them, and the port is not out of service after an IDE failure
(R407, R463, R464). -/
def portServes (s : State) (p : Port) : Bool := serving s && !(s.port p).insecure

/-- A MemRd (R332): without a Req credit it does not reach the pins (R44, R409); a violation returns zeros (R420); else it is
ordered at its home or its proxy. -/
def execHostMemRd (port : Port) (mv : MetaValue) (hpa : Nat) (req : ReqTag) (s : State) : Host.Outcome State Fault Refusal :=
  .next (
    if !portServes s port || reqCredits ≤ (s.port port).reqUsed then s
    else useReq port (
      let tag := req.tag % 65536
      let s := traceSeen port tag (updateMode (wake s))
      match checkAccess s port false hpa with
      | .violation k =>
        traceDone port tag mv.traceKind 6 false false false hpa 0 0 0
          (violate port k false hpa (emit (.hostData port tag 0) s))
      | .good d =>
        let w : Waiter :=
          { kind := readKind mv d.wr, asker := .host port tag mv d.tenant hpa, kid := d.kid, cls := port.ix
            sram := req.met }
        let dla := plaDla d.pla
        let s := meetEntry req.met (plaNode d.pla) dla (trackRead port d.win hpa s)
        if plaNode d.pla = me s then streamRead port.ix d.kid dla (localRequest dla w (noteInput dla port.ix s))
        else remoteRequest (plaNode d.pla) dla w s))

/-- A MemWr (R59, R332): without an RwD credit it does not reach the pins (R44, R409); a violation completes and changes
nothing (R420); else it is ordered at its home or its proxy. -/
def execHostMemWr (port : Port) (mv : MetaValue) (hpa : Nat) (data : Line) (mask : BitVec 64) (poison : Bool) (req : ReqTag)
    (s : State) : Host.Outcome State Fault Refusal :=
  .next (
    if !portServes s port || rwdCredits ≤ (s.port port).rwdUsed then s
    else useRwd port (
      let tag := req.tag % 65536
      let s := traceSeen port tag (updateMode (wake s))
      match checkAccess s port true hpa with
      | .violation k =>
        traceDone port tag (if mask = fullMask then 3 else 4) 6 false false false hpa 0 0 0
          (violate port k true hpa (emit (.hostCmp port tag) s))
      | .good d =>
        let w : Waiter :=
          { kind := .write, asker := .host port tag mv d.tenant hpa, kid := d.kid, cls := port.ix, data := data, mask := mask
            poison := poison }
        let dla := plaDla d.pla
        let s := meetEntry req.met (plaNode d.pla) dla s
        if plaNode d.pla = me s then localRequest dla w (noteInput dla port.ix s)
        else
          let h := s.port port
          let home := plaNode d.pla
          let s := s.setPort port { h with wrote := if h.wrote.contains home then h.wrote else h.wrote ++ [home] }
          remoteRequest home dla w s))

/-! ### Back-invalidate responses -/

/-- A back-invalidate of a line is over: its home transaction or its proxy goes on (R337, R362). -/
def biOver (p : Port) (node dla : Nat) (s : State) : State :=
  if node = me s then
    if (transOf s dla).any (fun t => t.bi.contains p) then
      endIfDone dla (modTrans dla (fun t => { t with bi := t.bi.erase p }) s)
    else if (hsfAt s node dla).busy then s
    else drive 20 dla s
  else pxGo 40 node dla s

/-- A host that does not answer (R348): the line is poisoned at its home, by a WrT where this node's proxy owns it; the
holding becomes I. -/
def biGone (p : Port) (node dla : Nat) (s : State) : State :=
  let s := setHolding p node dla 0 { s with coh := { s.coh with bis := Table.del s.coh.bis (biKey p node dla) } }
  if node = me s then biOver p node dla (modTrans dla (fun t => { t with pois := true }) (poisonHome dla s))
  else
    let x := pxAt s node dla
    let owner := x.st == some .pm || x.st == some .pe || x.st == some .pmW || x.st == some .pf || x.st == some .pmI
    biOver p node dla (if owner then modPx node dla (fun y => { y with pullW := some (returned x 0 true) }) s else s)

/-- BIConflict is answered: every completion ordered before it has left (R426). -/
def execBiConflict (port : Port) (_node _dla tag : Nat) (s : State) : Host.Outcome State Fault Refusal :=
  .next (emit (.biConflictAck port tag) s)

end Sys2Proof.Machine
end

