-- ==== Sys2Proof/Machine/Maintain.lean ====
section
/-! DEFINITION. Cache maintenance, the SCC commit group, the power-down of ways and the disable of the slice cache
(08). -/

namespace Sys2Proof.Machine

/-! ### Maintenance -/

/-- A sender's maintenance registers (R282, R608). -/
def maintOf (s : State) (snd : Sender) : Maint := nthD s.cache.maint snd.ix {}

/-- Replaces a sender's maintenance registers. -/
def setMaint (snd : Sender) (m : Maint) (s : State) : State :=
  { s with cache := { s.cache with maint := setNth s.cache.maint snd.ix m } }

/-- A line of this home (R281, R283): recorded in its MSHR where it has one; with an open dovetail entry, after the merge;
with EVICT set, after the eviction; else applied. -/
def maintHome (snd : Sender) (op : MaintOp) (dla : Nat) (s : State) : State :=
  if (mshrAt s (me s) dla).isSome then
    modMshr (me s) dla (fun m => { m with queue := m.queue ++ [.maint snd op] }) s
  else
    match Table.get? s.cache.dove dla with
    | some e => drive 20 dla (putMshr (me s) dla { kid := e.kid, cur := none, queue := [.maint snd op] } s)
    | none =>
      match findLine s (me s) dla with
      | some (_, e) =>
        if e.evict then putMshr (me s) dla { kid := e.kid, cur := none, queue := [.maint snd op] } s
        else maintApplied snd (maintLine (me s) dla op s)
      | none => maintApplied snd (maintLine (me s) dla op s)

/-- A line whose home is remote: the operation acts on this device's copies, which leave through the eviction messages of
the protocol (R281). -/
def maintRemote (snd : Sender) (op : MaintOp) (home dla : Nat) (s : State) : State :=
  maintApplied snd (match op with
    | .clean => maintLine home dla .clean s
    | .inval => pxGo 40 home dla (modPx home dla (fun x => if x.st.isSome then { x with leave := true } else x) s)
    | .flush => pxGo 40 home dla (modPx home dla (fun x => if x.st.isSome then { x with leave := true } else x) s))

/-- A skipped line (R282): it counts as a violation of the port, KIND 6 (R432), and sets SKIPPED. -/
def maintSkip (snd : Sender) (p : Port) (op : MaintOp) (hpa : Nat) (s : State) : State :=
  let s := violate p 6 (op != .clean) hpa s
  maintApplied snd (setMaint snd { maintOf s snd with skipped := true } s)

/-- One line of an operation (R282): a port's address is decoded now, and CLEAN needs read permission, INVAL and FLUSH
write permission; the sideband and the MP give device offsets, of which bits beyond the 42 of a device offset are ignored
(DESIGN CHOICE, log 107). -/
def maintOne (snd : Sender) (op : MaintOp) (line : Nat) (s : State) : State :=
  match snd.port? with
  | none => maintHome snd op (line % 2 ^ 36) s
  | some p =>
    match decode (s.port p) (line * 64) with
    | none => maintSkip snd p op (line * 64) s
    | some d =>
      if op == .clean && !d.rd then maintSkip snd p op (line * 64) s
      else if op != .clean && !d.wr then maintSkip snd p op (line * 64) s
      else if plaNode d.pla = me s then maintHome snd op (plaDla d.pla) s
      else maintRemote snd op (plaNode d.pla) (plaDla d.pla) s

/-- The lines of an operation, in ascending order (R282). -/
def maintLines (snd : Sender) (op : MaintOp) (first : Nat) : Nat → State → State
  | 0, s => s
  | n + 1, s => maintOne snd op (first + n) (maintLines snd op first n s)

/-- A maintenance operation starts (R282): ignored while BUSY is set. COUNT is the number of lines less one. Its start clears
DONE and SKIPPED, which tell of the last operation (R287; DESIGN CHOICE, log 106). -/
def maintStart (snd : Sender) (op : MaintOp) (count : Nat) (s : State) : State :=
  let m := maintOf s snd
  if m.busy then s
  else
    let n := count % 2 ^ 20 + 1
    maintLines snd op m.addr n
      (setMaint snd { m with busy := true, done := false, skipped := false, left := n, op := some op } s)

/-- CLEAN (R281). -/
def execMaintClean (snd : Sender) (count : Nat) (s : State) : Host.Outcome State Fault Refusal :=
  .next (maintStart snd .clean count s)

/-- INVAL (R281). -/
def execMaintInval (snd : Sender) (count : Nat) (s : State) : Host.Outcome State Fault Refusal :=
  .next (maintStart snd .inval count s)

/-- FLUSH (R281). -/
def execMaintFlush (snd : Sender) (count : Nat) (s : State) : Host.Outcome State Fault Refusal :=
  .next (maintStart snd .flush count s)

/-- An operation has applied its last line: BUSY clears and DONE is set (R282, R287). -/
def execMaintDone (snd : Sender) (s : State) : Host.Outcome State Fault Refusal :=
  .next (
    let m := maintOf s snd
    if m.busy && m.left == 0 then setMaint snd { m with busy := false, done := true, op := none } s else s)

/-! ### The commit group -/

/-- The ways of a mask's complement. -/
def notWays (w : Nat) : Nat := 0xFFFF - w % 65536

/-- The SCC commit group takes effect together (R286): ways called off stop allocating, ways called on are powered up with
every entry invalid (R284); clearing ENABLE makes STATE PENDING, and setting it turns an OFF cache on, or one PENDING once
it is OFF (R285). -/
def applyScc (s : State) : State :=
  let c := s.cache.staged
  let st := if !c.enable then (if s.cache.state = 1 then 2 else s.cache.state)
    else if s.cache.state = 0 then 1 else s.cache.state
  { s with cache := { s.cache with
    cfg := c, state := st, reOn := c.enable && s.cache.state == 2
    waysOn := s.cache.waysOn ||| notWays c.wayOff } }

/-- SCC_COMMIT.GO needs the clamp of the SCC block (R286, R422). -/
def execSccCommit (snd : Sender) (s : State) : Host.Outcome State Fault Refusal :=
  .next (if holds snd 1 s then applyScc s else noRight snd true 0x5028 s)

/-- The entries of a way. -/
def wayEntries (s : State) (w : Nat) : List (Nat × TagEntry) := s.cache.ways.filter (fun x => x.1 % 16 == w)

/-- Flushes the entries of a way; pinned lines stay (R284). -/
def flushWays (w : Nat) (s : State) : State :=
  (wayEntries s w).foldl (fun s x => flushWay (x.1 / 16 / 12288) (x.1 / 16 % 12288) w s) s

/-- Nothing is left in a way, and no fill will come to it. -/
def wayEmpty (s : State) (w : Nat) : Bool :=
  (wayEntries s w).isEmpty && !s.cache.mshrs.any (fun x => x.2.way == some w)

/-- The lines of a way called off are flushed, and once none is left its arrays are powered off (R284). -/
def execWayPowerOffDone (way : Nat) (s : State) : Host.Outcome State Fault Refusal :=
  .next (
    if s.cache.cfg.wayOff / 2 ^ way % 2 = 0 || s.cache.waysOn / 2 ^ way % 2 = 0 then s
    else
      let s := flushWays way s
      if wayEmpty s way then { s with cache := { s.cache with waysOn := s.cache.waysOn - 2 ^ way } } else s)

/-- Every line is flushed after a disable: STATE reads OFF; a commit that set ENABLE meanwhile takes effect (R285). -/
def execCacheOffDone (s : State) : Host.Outcome State Fault Refusal :=
  .next (
    if s.cache.state ≠ 2 then s
    else
      let s := (List.range 16).foldl (fun s w => flushWays w s) s
      if (List.range 16).all (wayEmpty s) then
        { s with cache := { s.cache with state := if s.cache.reOn then 1 else 0, reOn := false } }
      else s)

end Sys2Proof.Machine
end

