-- ==== Sys2Proof/Machine/Drift.lean ====
section
/-! DEFINITION. Drift management: effective age, the bucket arrays, the age survey, refresh levels (05). -/

namespace Sys2Proof.Machine

/-! ### Effective age -/

/-- The die that holds a course, 8s + g. -/
def courseDie (c : Nat) : Nat := c / 131072

/-- The stripe of a course. -/
def courseStripe (c : Nat) : Nat := c % 1048576

/-- The stack of a course. -/
def courseStack (c : Nat) : Nat := c / 1048576

/-- v^3840 × 1000^3840 against (65,536 × ms)^3840 × 2^(t − 14,080): v units of 2^-16 s are at most ms × AF(t), with AF of a
temperature in 1/256 °C 2^((t − 14,080) / 3,840) (R152). -/
def atMostAf (ms : Nat) (t : Int) (v : Nat) : Bool :=
  let up := (t - 14080).toNat
  let down := (14080 - t).toNat
  decide ((v * 1000) ^ 3840 * 2 ^ down ≤ (65536 * ms) ^ 3840 * 2 ^ up)

/-- The largest number below a + 2^n that passes a test which falls off. -/
def bisect (ok : Nat → Bool) : Nat → Nat → Nat
  | 0, a => a
  | n + 1, a => bisect ok n (if ok (a + 2 ^ n) then a + 2 ^ n else a)

/-- A time of ms milliseconds × AF(t) in whole units of 2^-16 s, t clamped to −40 °C to 125 °C (R152); whether it is rounded
down or up is the chip's (log 8). -/
def agingOf (ms : Nat) (t : Int) : Nat :=
  let c := max (-10240) (min 32000 t)
  bisect (atMostAf ms c) 21 0 + (if Config.agingUp c then 1 else 0)

/-- E_d of every die advances by its time × AF(T_d) (R152). -/
def advanceEd (ms : Nat) (temps : List Int) (s : State) : State :=
  { s with dr := { s.dr with ed := (List.range 64).map (fun d =>
      (nthD s.dr.ed d 0 + agingOf ms (temps.getD d 0)) % 2 ^ 48) } }

/-- Effective age of a course in whole seconds (R153). -/
def courseAge (s : State) (c : Nat) : Nat :=
  (nthD s.dr.ed (courseDie c) 0 / 65536 + 2 ^ 32 - Table.getD s.tr.maps.age c 0) % 2 ^ 32

/-- The age bucket of an effective age in whole seconds (R159): in whole seconds, an age below 1 s is 0, which lies below
0.125 s as far as it can be told (DESIGN CHOICE, log 8). -/
def bucketOf (age : Nat) : Nat := if age = 0 then 0 else min 31 (Nat.log2 age + 4)

/-- The refresh level an effective age calls for (Table 05-5). -/
def ageLevel (age : Nat) : Nat :=
  if 5184000 ≤ age then 4
  else if 3888000 ≤ age then 3
  else if 2592000 ≤ age then 2
  else if 1728000 ≤ age then 1
  else 0

/-! ### Saving -/

/-- CRC-32 over a set's content: its sequence number and 64 values of 6 bytes (R155, R609). -/
def edCrc (n : Nat) (ed : List Nat) : Nat := (crc32 (bytesOf n 4 ++ ed.flatMap (fun v => bytesOf v 6))).toNat

/-- Saves the 64 values of E_d to the next of 8 sets in rotation, with a sequence number and a CRC-32 (R155). -/
def saveEd (s : State) : State :=
  let n := (s.dr.saveSeq + 1) % 2 ^ 32
  { s with dr := { s.dr with saved := Table.put s.dr.saved (n % 8) (n, s.dr.ed, edCrc n s.dr.ed), saveSeq := n } }

/-- The newest saved set whose CRC passes, by its sequence number (R155). -/
def newestEd (s : State) : Option (Nat × List Nat × Nat) :=
  (s.dr.saved.filter (fun x => x.2.2.2 == edCrc x.2.1 x.2.2.1)).foldl (fun a x =>
    match a with
    | none => some x.2
    | some y => if y.1 < x.2.1 then some x.2 else some y) none

/-- Restores E_d where the always-on clock has lost its count, and marks the off-time unknown (R155). -/
def restoreEd (s : State) : State :=
  { s with dr := { s.dr with ed := ((newestEd s).map (·.2.1)).getD s.dr.ed, unknown := true } }

/-- Every 60 s in service the values of E_d are saved (R155). -/
def execEdSave (s : State) : Host.Outcome State Fault Refusal :=
  .next (if s.pw.phase == .service then saveEd s else s)

/-- In Standby every E_d advances once per second from the hottest diode reading (R154), given in 1/256 °C; after a shut-down
for the junction temperature START_ARMED is set once every diode reads below 105 °C (Table 16-5). -/
def execStandbyModelTick (diodes : List Int) (s : State) : Host.Outcome State Fault Refusal :=
  .next (
    if s.pw.phase == .standby then
      match diodes with
      | [] => s
      | d :: ds =>
        let s := advanceEd 1000 (List.replicate 64 (ds.foldl max d)) s
        if s.pw.junctionWait && diodes.all (fun t => decide (t < 26880)) then
          { s with pw := { s.pw with startArmed := true, junctionWait := false } }
        else s
    else s)

/-! ### Padding by age -/

/-- The age of row 0 of a stripe's first data course, once that row is programmed (R156). -/
def firstAge (s : State) (k : Nat) (x : Stripe) : Option Nat :=
  (x.dataStacks.head?.filter (fun t => rowDone x t 0)).map (fun t => courseAge s (courseKey t k))

/-- An open dense stripe whose first row has reached 32 effective seconds is completed with pad rounds under the stream's own
class (R156). -/
def execStripeAgePad (stripe : Nat) (s : State) : Host.Outcome State Fault Refusal :=
  .next (match stripeAt s stripe with
    | none => s
    | some x =>
      if x.isOpen && !x.fast && !x.reclaim && (firstAge s stripe x).any (fun a => decide (32 ≤ a)) then
        padOut stripe (modStripe stripe (fun y => { y with isOpen := false, agePad := true }) s)
      else s)

/-! ### The sweep -/

/-- The course has not been surveyed (R160, R168). -/
def unsurveyed (s : State) (c : Nat) : Bool := s.dr.toSurvey.contains c

/-- A course is live and dense: OPEN, CLOSED, VERIFIED or FAILED (R166). -/
def liveDense (s : State) (c : Nat) : Bool :=
  let e := courseOf s c
  !e.fast && (e.state == 1 || e.state == 2 || e.state == 3 || e.state == 4)

/-- The level a course calls for (R170): its age, and margin loss (R171). -/
def courseLevel (s : State) (c : Nat) : Nat :=
  max (ageLevel (courseAge s c)) (if s.dr.margin.contains c then 2 else 0)

/-- A course is dense from its allocation to the end of its reset (R66, R160). -/
def isDense (s : State) (c : Nat) : Bool :=
  let e := courseOf s c
  !e.fast && decide (1 ≤ e.state) && decide (e.state ≤ 6)

/-- Row 0 of a course has been programmed: its age runs (R153). -/
def ageRuns (s : State) (c : Nat) : Bool :=
  match stripeAt s (courseStripe c) with
  | some x => rowDone x (courseStack c) 0
  | none => false

/-- The drift engine visits a course: the bucket byte of every dense course, and the stripe's refresh level (R158, R160,
R170). A course without a programmed row has age 0. -/
def execDriftSweep (course : Nat) (s : State) : Host.Outcome State Fault Refusal :=
  .next (
    if !isDense s course then { s with dr := { s.dr with bucket := Table.del s.dr.bucket course } }
    else
      let age := if ageRuns s course then courseAge s course else 0
      let b := bucketOf age + 32 + (if age < 64 ∨ unsurveyed s course then 64 else 0)
      let s := { s with dr := { s.dr with bucket := Table.putD s.dr.bucket course b 0 } }
      if ageRuns s course then raiseLevel (courseStripe course) (courseLevel s course) s else s)

/-! ### The age survey -/

/-- Courses that a survey visits: those live and dense when it starts (R166). -/
def surveyList (s : State) : List Nat := (s.tr.maps.course.filter (fun x => liveDense s x.1)).map (·.1)

/-- The age survey starts, where the off-time is unknown (R166); with no course to visit it ends at once. -/
def startSurvey (s : State) : State :=
  if s.dr.unknown then endSurvey { s with dr := { s.dr with survey := true, toSurvey := surveyList s } } else s

/-- How far a reference set is from a table row: the sum of the distances of its references (DESIGN CHOICE, log 98). -/
def setDistance (set : List Int) (row : List Nat) : Nat :=
  (List.range 15).foldl (fun a j => a + (nthD set j 0 - (nthD row j 0 : Int)).natAbs) 0

/-- The table row that a reference set fits best (R167). -/
def bestRow (die : Nat) (set : List Int) : Nat :=
  (List.range 32).foldl (fun b k => if setDistance set (tableRow die k) < setDistance set (tableRow die b) then k else b) 0

/-- The place of a sector that the survey reads: the first of row 0, and the last that lies wholly in programmed rows (R167). -/
def surveyLoc (s : State) (c : Nat) (last : Bool) : Loc :=
  let k := courseStripe c
  let n := match stripeAt s k with
    | some x => if last then (x.begun * 2048 / 80) - 1 else 0
    | none => 0
  locOf k (courseStack c) false n

/-- The survey reads two sectors of a course (R167, R169): the age that the refined set of row 0 fits gives EFIRST; rows that
fit table rows more than one bucket apart, or that need the full ladder, mark margin loss. The survey ends with its last
course. -/
def execAgeSurvey (course : Nat) (first last : List Sense) (firstCells lastCells : List Nat) (s : State) :
    Host.Outcome State Fault Refusal :=
  .next (
    if !s.dr.survey || !unsurveyed s course then s
    else
      let die := courseDie course
      let byte := readByte s (courseStack course) (courseStripe course)
      let a := memberEnd s (surveyLoc s course false) byte true { tries := first, cells := firstCells }
      let b := memberEnd s (surveyLoc s course true) byte true { tries := last, cells := lastCells }
      let setA := refinedSet die (byteBucket byte) firstCells
      let setB := refinedSet die (byteBucket byte) lastCells
      let fitA := bestRow die setA
      let fitB := bestRow die setB
      let age := Config.fitAge fitA setA
      let efirst := (nthD s.dr.ed die 0 / 65536 + 2 ^ 32 - age % 2 ^ 32) % 2 ^ 32
      let s := mapOpen (.age course efirst) s
      let s := modStripe (courseStripe course) (fun x =>
        { x with efirst := setNth x.efirst (courseStack course) efirst }) s
      let s := { s with dr := { s.dr with
        toSurvey := s.dr.toSurvey.erase course
        bucket := Table.put s.dr.bucket course (bucketOf age + 32 + (if age < 64 then 64 else 0)) } }
      let s := countInner b.step (countInner a.step s)
      let s := if !Recovery.early a.step || !Recovery.early b.step || decide (fitA + 1 < fitB) || decide (fitB + 1 < fitA) then
          marginLoss (courseStack course) (courseStripe course) s
        else s
      endSurvey s)

/-! ### Refresh levels in real time -/

/-- A stripe that has waited its real-time limit at Routine, Due or Urgent rises to the next level (Table 05-5). -/
def execRefreshLevelTimer (stripe : Nat) (s : State) : Host.Outcome State Fault Refusal :=
  .next (match stripeAt s stripe with
    | none => s
    | some x => if 0 < x.level ∧ x.level < 4 ∧ !x.reclaim then raiseLevel stripe (x.level + 1) s else s)

end Sys2Proof.Machine
end

