-- ==== Sys2Proof/Machine/Mailbox.lean ====
section
/-! DEFINITION. Mailboxes and drawers: stamping, acknowledgements, outbox words, packets; the commands of their
registers (15). -/

namespace Sys2Proof.Machine

/-! ### Boxes -/

/-- A sender's boxes. -/
def boxOf (s : State) (b : BoxId) : Box := nthD s.mb.boxes b.ix {}

/-- Changes a sender's boxes. -/
def modBox (b : BoxId) (f : Box → Box) (s : State) : State :=
  { s with mb := { s.mb with boxes := setNth s.mb.boxes b.ix (f (boxOf s b)) } }

/-- A message word (Table 15-2). -/
def messageWord (sender inc op arg : Nat) : Word :=
  BitVec.ofNat 64 (field 0 44 arg + field 44 12 op + field 56 4 inc + field 60 4 sender)

/-- OPCODE of a word. -/
def wordOp (w : Word) : Nat := bitsOf w 44 12

/-- ARG of a word. -/
def wordArg (w : Word) : Nat := bitsOf w 0 44

/-- TAG of a word: its bits [59:44], INC and OPCODE (R471). -/
def wordTag (w : Word) : Nat := bitsOf w 44 16

/-- INC of a word. -/
def wordInc (w : Word) : Nat := bitsOf w 56 4

/-- A word stamped with a sender and its incarnation (R468). -/
def stamp (sender inc : Nat) (w : Word) : Word := messageWord sender inc (wordOp w) (wordArg w)

/-- The port whose boxes these are. -/
def boxPort : BoxId → Option Port
  | .portA => some .a
  | .portB => some .b
  | .sideband => none
  | .fabric => none
  | .meter => none

/-- A word from the MP: opcode, and ARG with RC in [15:0] and TAG in [31:16] (R473). -/
def mpWord (s : State) (op rc tag : Nat) : Word := messageWord 15 s.mb.mpInc op (field 0 16 rc + field 16 16 tag)

/-- A word from the MP to the MP of a node: MPMSG (R473, Table 12-11). -/
def sendMpmsg (node : Nat) (w : Word) (s : State) : State :=
  sendMsg { kind := .mgq, src := me s, dst := node, mcode := 8, payload := [w] } s

/-! ### Acknowledgements and completions -/

/-- Acknowledges the message at the head of an inbox (R471, R472): it leaves the inbox; RC, TAG and ACK are written unless
its incarnation is an earlier one; vector 0 is signalled. To the Fabric sender the acknowledgement travels as MPMSG
(R473). -/
def ackHead (b : BoxId) (rc : Nat) (s : State) : State :=
  match (boxOf s b).inbox with
  | [] => s
  | (w, node, _) :: ws =>
    let s := modBox b (fun x => { x with inbox := ws }) s
    if b == .fabric then sendMpmsg node (mpWord s (wordOp w) rc (wordTag w)) s
    else if wordInc w ≠ (boxOf s b).inc then s
    else
      let s := modBox b (fun x => { x with ack := true, rc := rc, tag := wordTag w }) s
      match boxPort b with
      | some p => emit (.vector p 0) s
      | none => s

/-- Queues an outbox word (R473). -/
def queueOut (b : BoxId) (w : Word) (s : State) : State := modBox b (fun x => { x with outQ := x.outQ ++ [w] }) s

/-- A completion word of an accepted command: it joins the outbox queue, or waits while 64 words are in it
(R473). -/
def postDone (o : BgOp) (rc : Nat) (s : State) : State :=
  let w := mpWord s o.op rc o.tag
  if (boxOf s o.box).outQ.length < 64 then queueOut o.box w s
  else { s with mb := { s.mb with open_ := s.mb.open_ ++ [{ o with fin := some rc }] } }

/-- An open command ends with a return code: its message is acknowledged, or its completion is posted (R470). -/
def endOp (o : BgOp) (rc : Nat) (s : State) : State :=
  let s := { s with mb := { s.mb with open_ := s.mb.open_.erase o } }
  if o.accepted then postDone o rc s else ackHead o.box rc s

/-- Ends every open command of an opcode that a test selects. -/
def endOps (op : Nat) (p : BgOp → Bool) (rc : Nat) (s : State) : State :=
  (s.mb.open_.filter (fun o => o.op == op && o.fin.isNone && p o)).foldl (fun s o => endOp o rc s) s

/-- A command of an opcode is open. -/
def opOpen (s : State) (op : Nat) : Bool := s.mb.open_.any (fun o => o.op == op && o.fin.isNone)

/-- A sender's incarnation advances (R476): ACK, OUT_FULL, the outbox queue and both drawers are cleared; a message that
waits stays. -/
def advanceInc (b : BoxId) (s : State) : State :=
  modBox b (fun x => { x with
    inc := (x.inc + 1) % 16, ack := false, outFull := false, outQ := [], inDrw := [], outDrw := [] }) s

/-! ### Drawers -/

/-- A stage is a reserved one. -/
def Stage.isReserved : Stage → Bool
  | .reserved => true
  | .length _ => false
  | .word _ => false

/-- The word of a stage. -/
def Stage.val : Stage → Word
  | .reserved => 0
  | .length w => w
  | .word w => w

/-- A packet is open. -/
def drwOpen (d : Drawer) : Bool := d.any Stage.isReserved

/-- The length word of a packet (Table 15-4). -/
def lengthWord (ws : List Word) (err : Bool) : Word :=
  BitVec.ofNat 64 (field 0 6 ws.length + flag 6 err
    + field 32 32 (crc32 (ws.flatMap (fun w => bytesOf w.toNat 8))).toNat)

/-- Closes the open packet (R477): its length word takes the reserved stage. -/
def drwClose (err : Bool) (d : Drawer) : Drawer :=
  let ws := ((d.dropWhile (fun x => !x.isReserved)).drop 1).map Stage.val
  d.map (fun x => if x.isReserved then .length (lengthWord ws err) else x)

/-- Opens a packet (R477, R479): false where the operation is ignored. -/
def drwOpenPkt (d : Drawer) : Bool × Drawer :=
  if drwOpen d || decide (64 ≤ d.length) then (false, d) else (true, d ++ [.reserved])

/-- A payload word (R477, R479): with every stage occupied it is ignored and the packet closes with ERR; without an open
packet it has no place. -/
def drwWord (w : Word) (d : Drawer) : Drawer :=
  if 64 ≤ d.length then drwClose true d
  else if drwOpen d then d ++ [.word w]
  else d

/-- The readable count (R478). -/
def drwCount (d : Drawer) : Nat := (d.takeWhile (fun x => !x.isReserved)).length

/-- Advances the head (R478). -/
def drwPop (d : Drawer) : Drawer := if drwCount d = 0 then d else d.tail

/-- The oldest complete packet and the drawer without it (R480): its words, none where ERR is set. -/
def drwTake (d : Drawer) : Option (Option (List Word) × Drawer) :=
  match d with
  | .length w :: t =>
    let n := bitsOf w 0 6
    some (if bitOf w 6 then none else some ((t.take n).map Stage.val), t.drop n)
  | .reserved :: _ => none
  | .word _ :: _ => none
  | [] => none

/-- Writes a packet. -/
def drwPacket (ws : List Word) (d : Drawer) : Drawer :=
  let o := drwOpenPkt d
  if o.1 then
    let d := ws.foldl (fun d w => drwWord w d) o.2
    if drwOpen d then drwClose false d else d
  else d

/-- A reply payload: packets of at most 63 words (R480). -/
def drwReply : Nat → List Word → Drawer → Drawer
  | 0, _, d => d
  | _, [], d => d
  | n + 1, ws, d => drwReply n (ws.drop 63) (drwPacket (ws.take 63) d)

/-- Puts a reply into a sender's outbound drawer. -/
def reply (b : BoxId) (ws : List Word) (s : State) : State :=
  modBox b (fun x => { x with outDrw := drwReply (ws.length + 1) ws x.outDrw }) s

/-! ### The registers' commands -/

/-- The boxes of a sender of register accesses: none for the MP, which does not use the MBX block (R608). -/
def withBox (snd : Sender) (f : BoxId → State → State) (s : State) : State :=
  match snd.box? with
  | some b => f b s
  | none => s

/-- A write to MBX_IN: with IN_FULL clear the stamped word is stored and ACK clears; else it is ignored and OVERRUN is set
(R469, R471). -/
def execMbxPost (snd : Sender) (word : Word) (s : State) : Host.Outcome State Fault Refusal :=
  .next (withBox snd (fun b s => modBox b (fun x =>
    if x.inbox.isEmpty then
      let w := stamp b.ix x.inc word
      { x with inbox := [(w, 0, 0)], inWord := w, ack := false }
    else { x with overrun := true }) s) s)

/-- An acknowledgement of the message at the head of an inbox (R471, R472). -/
def execAcknowledge (box : BoxId) (rc : Nat) (s : State) : Host.Outcome State Fault Refusal :=
  .next (match s.mb.open_.find? (fun o => o.box == box && !o.accepted) with
    | some o => endOp o rc s
    | none => ackHead box rc s)

/-- Belvy posts the next queued outbox word while OUT_FULL is clear, and vector 1 is signalled (R473). A completion that
waited for room in the queue joins it. -/
def execOutboxPost (box : BoxId) (s : State) : Host.Outcome State Fault Refusal :=
  .next (match (boxOf s box).outQ with
    | [] => s
    | w :: ws =>
      if (boxOf s box).outFull || !s.mb.mpReady then s
      else
        let s := modBox box (fun x => { x with outFull := true, outWord := w, outQ := ws }) s
        let s := match boxPort box with
          | some p => emit (.vector p 1) s
          | none => s
        match s.mb.open_.find? (fun o => o.box == box && o.fin.isSome) with
        | some o => queueOut box (mpWord s o.op (o.fin.getD 0) o.tag) { s with mb := { s.mb with open_ := s.mb.open_.erase o } }
        | none => s)

/-- A write of 1 to OUT_FULL frees the outbox (R473). -/
def execOutboxFree (snd : Sender) (s : State) : Host.Outcome State Fault Refusal :=
  .next (withBox snd (modBox · (fun x => { x with outFull := false })) s)

/-- OPEN of a sender's inbound drawer (R477, R479). -/
def openIn (b : BoxId) (s : State) : State :=
  modBox b (fun x =>
    let r := drwOpenPkt x.inDrw
    { x with inDrw := r.2, drwOverrun := x.drwOverrun || !r.1 }) s

/-- CLOSE of a sender's inbound drawer; without an open packet it is ignored (R477, R479). -/
def closeIn (b : BoxId) (s : State) : State :=
  modBox b (fun x => { x with inDrw := if drwOpen x.inDrw then drwClose false x.inDrw else x.inDrw }) s

/-- POP of a sender's outbound drawer (R478). -/
def popOut (b : BoxId) (s : State) : State := modBox b (fun x => { x with outDrw := drwPop x.outDrw }) s

/-- OPEN (R477). -/
def execDrawerOpen (snd : Sender) (s : State) : Host.Outcome State Fault Refusal := .next (withBox snd openIn s)

/-- CLOSE (R477). -/
def execDrawerClose (snd : Sender) (s : State) : Host.Outcome State Fault Refusal := .next (withBox snd closeIn s)

/-- POP (R478). -/
def execDrawerPop (snd : Sender) (s : State) : Host.Outcome State Fault Refusal := .next (withBox snd popOut s)

/-- A payload word into the inbound drawer (R477, R479). -/
def execDrawerWrite (snd : Sender) (word : Word) (s : State) : Host.Outcome State Fault Refusal :=
  .next (withBox snd (modBox · (fun x => { x with inDrw := drwWord word x.inDrw })) s)

end Sys2Proof.Machine
end

