-- ==== Sys2Proof/Machine/Flits.lean ====
section
/-! DEFINITION. Messages as granules and flits as they are sent and received (Tables 12-1 to 12-5), and the identity training
set (Table 12-9). -/

namespace Sys2Proof

/-- The code MSG of a message (Table 12-5); a reserved one is sent by no node. -/
def MsgKind.code : MsgKind → Nat
  | .rdS => 0x01
  | .rdX => 0x02
  | .rdC => 0x03
  | .upg => 0x04
  | .evc => 0x05
  | .mgq => 0x06
  | .snpS => 0x08
  | .snpX => 0x09
  | .snpC => 0x0A
  | .snpI => 0x0B
  | .rspI => 0x10
  | .rspS => 0x11
  | .rspFwd => 0x12
  | .rspWb => 0x13
  | .rtyH => 0x14
  | .cmp => 0x15
  | .cmpX => 0x16
  | .mgr => 0x17
  | .datS => 0x18
  | .datX => 0x19
  | .datC => 0x1A
  | .wrT => 0x1C
  | .evX => 0x1D
  | .reserved => 0x07

/-- The message of a code: every other code is reserved (Table 12-5). -/
def MsgKind.ofCode (c : Nat) : MsgKind :=
  ([MsgKind.rdS, .rdX, .rdC, .upg, .evc, .mgq, .snpS, .snpX, .snpC, .snpI, .rspI, .rspS, .rspFwd, .rspWb, .rtyH, .cmp, .cmpX
    , .mgr, .datS, .datX, .datC, .wrT, .evX].find? (fun k => k.code == c)).getD .reserved

/-- The class of a message (Table 12-5): REQ 0, SNP 1, RSP 2, DAT 3, WRT 4. -/
def MsgKind.cls : MsgKind → Nat
  | .rdS | .rdX | .rdC | .upg | .evc | .mgq | .reserved => 0
  | .snpS | .snpX | .snpC | .snpI => 1
  | .rspI | .rspS | .rspFwd | .rspWb | .rtyH | .cmp | .cmpX | .mgr => 2
  | .datS | .datX | .datC => 3
  | .wrT | .evX => 4

/-- Granules of a message with so many of payload (Table 12-4). -/
def MsgKind.granules (k : MsgKind) (ng : Nat) : Nat :=
  match k with
  | .datS | .datX | .datC => 10
  | .wrT => 11
  | .mgq | .mgr => 2 + ng
  | .rdS | .rdX | .rdC | .upg | .evc | .snpS | .snpX | .snpC | .snpI | .rspI | .rspS | .rspFwd | .rspWb | .rtyH | .cmp
  | .cmpX | .evX | .reserved => 2

/-- A block decodes (R365): up to 15 symbol errors are corrected. -/
def FecBlock.decoded (b : FecBlock) : Bool := decide (b.errors ≤ 15)

/-- Granules of a message (Table 12-4). -/
def SglMsg.size (m : SglMsg) : Nat := m.kind.granules m.payload.length

end Sys2Proof

namespace Sys2Proof.Machine

/-! ### Granules -/

/-- The message-specific bits of G0 (Table 12-4). -/
def specG0 (m : SglMsg) : Nat :=
  match m.kind with
  | .rdS | .rdX | .rdC | .upg | .evc => field 27 2 m.port + field 29 12 m.kid
  | .snpS | .snpX | .snpC | .snpI => flag 27 m.own + field 28 10 m.reqn + field 38 12 m.rqtx
  | .rspWb => flag 27 m.fwd
  | .rtyH => field 27 2 m.rsn
  | .cmp => field 27 32 m.ver + flag 59 m.crd
  | .datS | .datX | .datC => field 27 32 m.ver + flag 59 m.poison
  | .wrT => field 27 12 m.kid + flag 39 m.poison + field 40 8 m.wseq
  | .evX => field 40 8 m.wseq
  | .mgq | .mgr => field 27 8 m.mcode + field 35 4 m.payload.length + field 39 8 m.frag + flag 47 m.more
  | .rspI | .rspS | .rspFwd | .cmpX | .reserved => 0

/-- The message-specific bits of G1 (Table 12-4). -/
def specG1 (m : SglMsg) : Nat :=
  match m.kind with
  | .datS | .datX | .datC => field 48 12 m.kid
  | .rdS | .rdX | .rdC | .upg | .evc | .mgq | .snpS | .snpX | .snpC | .snpI | .rspI | .rspS | .rspFwd | .rspWb | .rtyH
  | .cmp | .cmpX | .mgr | .wrT | .evX | .reserved => 0

/-- The eight granules of a line, byte 0 first (Table 12-4). -/
def lineGranules (d : Line) : List Word := (List.range 8).map (fun i => BitVec.extractLsb' (64 * i) 64 d)

/-- The line of eight granules. -/
def granulesLine (gs : List Word) : Line :=
  BitVec.ofNat 512 ((gs.take 8).zipIdx.foldl (fun a x => a + x.1.toNat * 2 ^ (64 * x.2)) 0)

/-- The granules after the two of the header (Table 12-4). -/
def tailGranules (m : SglMsg) : List Word :=
  match m.kind with
  | .datS | .datX | .datC => lineGranules m.data
  | .wrT => m.mask :: lineGranules m.data
  | .mgq | .mgr => m.payload
  | .rdS | .rdX | .rdC | .upg | .evc | .snpS | .snpX | .snpC | .snpI | .rspI | .rspS | .rspFwd | .rspWb | .rtyH | .cmp
  | .cmpX | .evX | .reserved => []

/-- The granules of a message (R369, Tables 12-3 and 12-4). -/
def granulesOf (m : SglMsg) : List Word :=
  BitVec.ofNat 64 (field 0 5 m.kind.code + field 5 2 m.sub + field 7 10 m.dst + field 17 10 m.src + specG0 m)
    :: BitVec.ofNat 64 (field 0 12 m.txid + field 12 36 m.line + specG1 m) :: tailGranules m

/-- The message of its granules (R369, Tables 12-3 and 12-4); reserved bits are not looked at. -/
def messageOf (gs : List Word) : SglMsg :=
  let a : Word := gs.getD 0 0
  let b : Word := gs.getD 1 0
  let m : SglMsg :=
    { kind := MsgKind.ofCode (bitsOf a 0 5), src := bitsOf a 17 10, dst := bitsOf a 7 10, sub := bitsOf a 5 2
      txid := bitsOf b 0 12, line := bitsOf b 12 36 }
  match m.kind with
  | .rdS | .rdX | .rdC | .upg | .evc => { m with port := bitsOf a 27 2, kid := bitsOf a 29 12 }
  | .snpS | .snpX | .snpC | .snpI => { m with own := bitsOf a 27 1 == 1, reqn := bitsOf a 28 10, rqtx := bitsOf a 38 12 }
  | .rspWb => { m with fwd := bitsOf a 27 1 == 1 }
  | .rtyH => { m with rsn := bitsOf a 27 2 }
  | .cmp => { m with ver := bitsOf a 27 32, crd := bitsOf a 59 1 == 1 }
  | .datS | .datX | .datC =>
    { m with ver := bitsOf a 27 32, poison := bitsOf a 59 1 == 1, kid := bitsOf b 48 12, data := granulesLine (gs.drop 2) }
  | .wrT =>
    { m with kid := bitsOf a 27 12, poison := bitsOf a 39 1 == 1, wseq := bitsOf a 40 8, mask := gs.getD 2 0
             data := granulesLine (gs.drop 3) }
  | .evX => { m with wseq := bitsOf a 40 8 }
  | .mgq | .mgr =>
    { m with line := 0, mcode := bitsOf a 27 8, frag := bitsOf a 39 8, more := bitsOf a 47 1 == 1
             payload := (gs.drop 2).take (bitsOf a 35 4) }
  | .rspI | .rspS | .rspFwd | .cmpX | .reserved => m

/-- Granules of the message that begins with G0 (Table 12-4). -/
def lengthOf (g0 : Word) : Nat := (MsgKind.ofCode (bitsOf g0 0 5)).granules (bitsOf g0 35 4)

/-- Takes the whole messages out of a run of granules (R368): a zero MSG ends them; what is left belongs to a message that
runs on into the next data flit. -/
def takeMessages : Nat → List Word → List SglMsg × List Word
  | 0, gs => ([], gs)
  | _ + 1, [] => ([], [])
  | n + 1, g :: gs =>
    if bitsOf g 0 5 = 0 then ([], [])
    else if (g :: gs).length < lengthOf g then ([], g :: gs)
    else
      let r := takeMessages n ((g :: gs).drop (lengthOf g))
      (messageOf (g :: gs) :: r.1, r.2)

/-! ### Flits -/

/-- LH of a flit of a kind (Table 12-2): data flits carry their SEQ, every flit the SEQ of the last data flit accepted. -/
def linkHeader (kind seq : Nat) (x : SglPort) : Nat :=
  field 0 2 kind + field 2 10 seq + field 12 10 ((x.rxSeq + 1023) % 1024) + flag 22 x.rxAny

/-- The 14 granules of a data flit that carries some messages, the unused ones null (R368). -/
def flitGranules (ms : List SglMsg) : List Word :=
  let gs := (ms.map granulesOf).flatten
  gs ++ List.replicate (14 - gs.length) 0

/-! ### The identity training set -/

/-- The granules this device advertises for each VC (R372): on each class's adaptive VC and its two escape VCs. -/
def ownBufs : List Nat := [32, 16, 16, 32, 16, 16, 32, 16, 16, 96, 48, 48, 96, 48, 48]

/-- A port's direction in TOPO (R385, Table 12-9): F0 to F5 as X+, X−, Y+, Y−, Z+, Z−; F6 and F7 as express ports (DESIGN
CHOICE, log 22). -/
def topoPort (p : Nat) : Nat := if p < 6 then p else 7

/-- The coordinates of a node (R385). -/
def coord (c : PoolCfg) (n d : Nat) : Nat :=
  match d with
  | 0 => n % c.kx
  | 1 => n / c.kx % c.ky
  | _ => n / (c.kx * c.ky)

/-- The size of a dimension. -/
def dimSize (c : PoolCfg) (d : Nat) : Nat :=
  match d with
  | 0 => c.kx
  | 1 => c.ky
  | _ => c.kz

/-- A port is a dateline port: the ring's link between coordinates K − 1 and 0 (R384). -/
def datelinePort (s : State) (p : Nat) : Bool :=
  decide (p < 6) && (let c := s.sgl.cfg
    let x := coord c (me s) (p / 2)
    if p % 2 = 0 then x + 1 == dimSize c (p / 2) else x == 0)

/-- The identity training set that a port sends (Table 12-9). -/
def identity (s : State) (p : Nat) : TrainSet :=
  let c := s.sgl.cfg
  { node := c.node, cfg := c.nodeSet && c.pool != 0, port := p, ridge := c.ridgeOk, pool := c.pool
    topo := field 0 5 c.kx + field 5 5 c.ky + field 10 5 c.kz + field 15 3 (topoPort p) + flag 18 (datelinePort s p)
    bufs := ownBufs, serial := Config.serial }

end Sys2Proof.Machine
end

