-- ==== Sys2Proof/Machine/Link.lean ====
section
/-! DEFINITION. The Slomugon Link: flits, retry, credits, keys, training, failures, forwarding and the delivery of messages
to the coherence agents (12). -/

namespace Sys2Proof.Machine

/-! ### Ports -/

/-- An SGL port. -/
def sglAt (s : State) (p : Nat) : SglPort := nthD s.sgl.ports p {}

/-- Changes an SGL port. -/
def modSgl (p : Nat) (f : SglPort → SglPort) (s : State) : State :=
  { s with sgl := { s.sgl with ports := setNth s.sgl.ports p (f (sglAt s p)) } }

/-- The ports that are UP. -/
def upPorts (s : State) : List Nat := (List.range 8).filter (fun p => (sglAt s p).st == .up)

/-! ### This node's LSA -/

/-- This device's serial number (R482). -/
def mySerial : Nat := Config.serial.toNat

/-- A port as this node's LSA shows it (Table 12-11). -/
def lsaPort (x : SglPort) : LsaPort :=
  { live := x.st == .up, width := x.width, nbr := x.nbr, nbrPort := x.nbrPort }

/-- The words of an LSA payload: its fields in the order of Table 12-11, one a word (DESIGN CHOICE, log 22). -/
def lsaWords (l : Lsa) : List Word :=
  [l.origin, l.serial, l.seq, (if l.ridge then 1 else 0), l.gen, (if l.ready then 1 else 0)].map (BitVec.ofNat 64)

/-- Sends a management payload to the neighbours on some ports. -/
def floodTo (mcode : Nat) (words : List Word) (ports : List Nat) (s : State) : State :=
  ports.foldl (fun s p =>
    sendMsg { kind := .mgq, src := me s, dst := (sglAt s p).nbr, txid := 0, mcode := mcode, payload := words } s) s

/-- Stores an LSA as the newest of its origin and serial (R389). -/
def storeLsa (l : Lsa) (s : State) : State :=
  { s with sgl := { s.sgl with
    lsdb := (l, s.now) :: s.sgl.lsdb.filter (fun x => !(x.1.origin == l.origin && x.1.serial == l.serial))
    stale := true } }

/-- This node's ports or ready state have changed: it sends a new LSA (R389). -/
def newLsa (s : State) : State :=
  let l : Lsa :=
    { origin := me s, serial := mySerial, seq := s.sgl.lsaSeq, ridge := s.sgl.cfg.ridgeOk, gen := s.sgl.gen
      ready := s.pw.phase == .service, ports := s.sgl.ports.map lsaPort }
  let s := storeLsa l { s with sgl := { s.sgl with lsaSeq := s.sgl.lsaSeq + 1 } }
  floodTo 1 (lsaWords l) (upPorts s) s

/-! ### Links going down -/

/-- A link goes down (R398, R399): its requests are held for the interruption, this node floods its LSA and sends SALVAGE
with the SEQ of the last data flit it accepted; a message received in part is discarded (R399). -/
def linkDown (p : Nat) (s : State) : State :=
  let x := sglAt s p
  if x.st != .up then s
  else
    let s := modSgl p (fun x => { x with st := .down, width := 0, keep := false, nakWait := false, part := [], replayAt := [], tagAt := [] }) s
    let s := beginFault (.sglLink p) (event .sglLinkDown 3 [p] s)
    let last := if x.rxAny then (x.rxSeq + 1023) % 1024 else 0x3FF
    newLsa (sendMsg { kind := .mgq, src := me s, dst := x.nbr, txid := 0, mcode := 6
                      payload := [BitVec.ofNat 64 x.nbrPort, BitVec.ofNat 64 last] } s)

/-- The pair of lanes of a ×2 link that does not contain a lane (R398): WIDTH 1 is lanes 0 and 1, 2 lanes 2 and 3. -/
def pairWithout (lane : Nat) : Nat := if lane < 2 then 2 else 1

/-- The ends retrain at ×2, keeping the retry buffer and SEQ (R398). -/
def retrainLink (p lane : Nat) (s : State) : State :=
  if (sglAt s p).st != .up then s
  else
    beginFault (.sglLane p) (event .sglLaneFault 3 [p, lane] (modSgl p (fun x =>
      { x with st := .align, keep := true, faulty := [lane], width := pairWithout lane }) s))

/-! ### Sending -/

/-- A port's granules of credit on a VC (R372, R373). -/
def vcCredit (x : SglPort) (v : Nat) : Nat :=
  nthD x.bufs v 0 - (nthD x.sent v 0 + 65536 - nthD x.freed v 0) % 65536

/-- A port can take a message on a VC: UP, with credit for all its granules and room in the retry buffer (R372, R375). -/
def canSend (s : State) (p sub : Nat) (m : SglMsg) : Bool :=
  let x := sglAt s p
  x.st == .up && decide (m.size ≤ vcCredit x (3 * m.kind.cls + sub)) && decide (x.retry.length < 256)

/-- Sends a message on a port and SUB, in a data flit of its own (R374, R375; DESIGN CHOICE, log 22). -/
def transmit (p sub : Nat) (m : SglMsg) (s : State) : State :=
  let x := sglAt s p
  let v := 3 * m.kind.cls + sub
  let s := modSgl p (fun x => { x with
    txSeq := (x.txSeq + 1) % 1024, retry := x.retry ++ [⟨x.txSeq, [{ m with sub := sub }]⟩]
    sent := setNth x.sent v ((nthD x.sent v 0 + m.size) % 65536) }) s
  emit (.flit p (linkHeader 0 x.txSeq x) (flitGranules [{ m with sub := sub }])) (count 16 0x104 0 1 { s with fab := { s.fab with waiting := s.fab.waiting.erase m } })

/-- Resends data flits from a SEQ on (R375), a replay counted and kept for R398. -/
def replayFrom (p seq : Nat) (s : State) : State :=
  let x := sglAt s p
  let fs := x.retry.dropWhile (fun f => f.seq != seq)
  let s := modSgl p (fun x => { x with
    replays := satInc 16 x.replays
    replayAt := (s.now :: x.replayAt).filter (fun t => decide (s.now - t < 240000)) }) s
  let s := fs.foldl (fun s f => emit (.flit p (linkHeader 0 f.seq x) (flitGranules f.msgs)) s) (count 16 0x105 0 1 s)
  let x := sglAt s p
  if x.replayAt.length < 8 then s
  else
    match x.faulty with
    | [lane] => if x.width = 3 then retrainLink p lane s else linkDown p s
    | _ => linkDown p s

/-- An ACK retires the flits it covers; progress ends a run of replays (R375, R398). -/
def ackTo (p ack : Nat) (s : State) : State :=
  let x := sglAt s p
  if x.retry.any (fun f => f.seq == ack) then
    modSgl p (fun x => { x with retry := (x.retry.dropWhile (fun f => f.seq != ack)).tail, replayAt := [] }) s
  else s

/-- The control flit of a port (Table 12-6). -/
def controlOf (x : SglPort) (nak keySwitch down : Bool) (keyAt : Nat) : CtlPayload :=
  { nak := nak, keySwitch := keySwitch, retrainReq := false, linkDown := down, nakSeq := x.rxSeq, credits := x.mine
    keyAt := keyAt }

/-- Sends a NAK and waits for the expected SEQ (R374). -/
def sendNak (p : Nat) (s : State) : State :=
  emit (.control p (controlOf (sglAt s p) true false false 0)) (modSgl p (fun x => { x with nakWait := true }) s)

/-- A flit that cannot be accepted: the first one is answered with a NAK (R374). -/
def badFlit (p : Nat) (s : State) : State := if (sglAt s p).nakWait then s else sendNak p s

/-! ### Unreachable destinations -/

/-- A line's transaction with an absent node is completed under R396. -/
def endAbsent (home dla : Nat) (s : State) : State :=
  let x := pxAt s home dla
  let ws := x.waits ++ x.wrts.filterMap (·.2)
  let s := endPx home dla (modPx home dla (fun x => { x with waits := [], wrts := [] }) s)
  ws.foldl (fun s w => answerAbsent home dla w s) s

/-- A message whose destination is not reachable is discarded; a request of this node's hosts is answered (R383, R396). -/
def unreachable (m : SglMsg) (s : State) : State :=
  let s := { s with fab := { s.fab with waiting := s.fab.waiting.erase m } }
  if m.src = me s && (m.kind.cls = 4 || m.kind == .rdS || m.kind == .rdX || m.kind == .rdC || m.kind == .upg) then
    endAbsent m.dst m.line s
  else s

/-! ### Delivery -/

/-- The input of the home's rotation that a port is: F0 to F7 after the two host ports (R338). -/
def inputOf (p : Nat) : Nat := 2 + p

/-- Key of a partial payload (R370). -/
def fragKey (src txid mcode : Nat) : Nat := (src * 4096 + txid) * 256 + mcode

/-- A fragment of a management payload arrives: payloads are assembled in order (R370). What a whole payload asks for is
the effect of the command of its name (log 22). -/
def takeFragment (m : SglMsg) (s : State) : State :=
  let k := fragKey m.src m.txid m.mcode
  let f := Table.getD s.fab.frags k ⟨0, []⟩
  if m.frag ≠ f.got then s
  else if m.more then
    { s with fab := { s.fab with frags := Table.put s.fab.frags k ⟨f.got + 1, f.data ++ m.payload⟩ } }
  else { s with fab := { s.fab with frags := Table.del s.fab.frags k } }

/-- A message for this node reaches its agent (R321). -/
def deliverMsg (p : Nat) (m : SglMsg) (s : State) : State :=
  match m.kind with
  | .rdS => recvReq .rdS m.src m.txid m.line m.kid m.port (inputOf p) s
  | .rdX => recvReq .rdX m.src m.txid m.line m.kid m.port (inputOf p) s
  | .rdC => recvReq .rdC m.src m.txid m.line m.kid m.port (inputOf p) s
  | .upg => recvReq .upg m.src m.txid m.line m.kid m.port (inputOf p) s
  | .evc => recvEvc m.src m.line s
  | .snpS => recvSnp .s m.src m.txid m.line m.own m.reqn m.rqtx s
  | .snpX => recvSnp .x m.src m.txid m.line m.own m.reqn m.rqtx s
  | .snpC => recvSnp .c m.src m.txid m.line m.own m.reqn m.rqtx s
  | .snpI => recvSnp .i m.src m.txid m.line m.own m.reqn m.rqtx s
  | .rspI => recvRsp .i m.src m.line s
  | .rspS => recvRsp .s m.src m.line s
  | .rspFwd => recvRsp .fwd m.src m.line s
  | .rspWb => recvRsp (.wb m.fwd) m.src m.line s
  | .rtyH => recvRty m.src m.txid m.line s
  | .cmp => recvCmp m.src m.txid m.line m.ver m.crd s
  | .cmpX => recvCmpX m.src m.txid m.line s
  | .datS => recvDat .datS m.src m.txid m.line m.kid (fillMsg m.data m.ver m.poison) s
  | .datX => recvDat .datX m.src m.txid m.line m.kid (fillMsg m.data m.ver m.poison) s
  | .datC => recvDat .datC m.src m.txid m.line m.kid (fillMsg m.data m.ver m.poison) s
  | .wrT => recvWrt m s
  | .evX => recvWrt m s
  | .mgq => takeFragment m s
  | .mgr => takeFragment m s
  | .reserved => protocolError m.src m.line 31 s

/-- A request for a line of this node whose credit is withheld: in Flush (R43), or while a medium channel has no slot left
(R100). -/
def sglHold (m : SglMsg) (s : State) : Bool :=
  m.dst == me s && (m.kind == .rdS || m.kind == .rdX || m.kind == .rdC || m.kind == .upg) && (s.pw.phase != .service || slotHold s)

/-- A message received on a port: its granules are freed, though a request's credit may be withheld, and it is delivered here
or is in transit (R373, R383). -/
def arrive (p : Nat) (m : SglMsg) (s : State) : State :=
  let add := fun (l : List Nat) => l.zipIdx.map (fun y => if y.2 = 3 * m.kind.cls + m.sub then (y.1 + m.size) % 65536 else y.1)
  let s := if sglHold m s then modSgl p (fun x => { x with kept := add x.kept }) s
    else modSgl p (fun x => { x with mine := add x.mine }) s
  if m.dst = me s then deliverMsg p m s else { s with fab := { s.fab with waiting := s.fab.waiting ++ [m] } }

/-! ### Receiving -/

/-- KEY_AT is acceptable: a multiple of 5, at least 4,096 positions ahead (R378). -/
def keyAtOk (x : SglPort) (at_ : Nat) : Bool :=
  at_ % 5 == 0 && decide (5 * (x.blocks - x.keyBlk) + 4096 ≤ at_)

/-- A control flit is acted on (R373 to R375, R378, R398). -/
def recvControl (p : Nat) (c : CtlPayload) (s : State) : State :=
  if (sglAt s p).st != .up then s
  else
    let s := modSgl p (fun x => { x with freed := c.credits }) s
    if c.linkDown then linkDown p s
    else
      let s := if c.keySwitch then
          if keyAtOk (sglAt s p) c.keyAt then modSgl p (fun x => { x with keyAt := some c.keyAt }) s
          else linkDown p (emit (.control p (controlOf (sglAt s p) false false true 0)) s)
        else s
      let s := if c.retrainReq then
          match (sglAt s p).faulty with
          | lane :: _ => retrainLink p lane s
          | [] => beginFault (.sglLane p) (modSgl p (fun x => { x with st := .align, keep := true }) s)
        else s
      if c.nak then replayFrom p c.nakSeq s else s

/-- A flit whose CRC is correct and whose tag fails (R379): the fourth within 1 s takes the link down and raises the
alarm. -/
def tagFailed (p : Nat) (s : State) : State :=
  let s := modSgl p (fun x => { x with
    tagFail := satInc 8 x.tagFail
    tagAt := (s.now :: x.tagAt).filter (fun t => decide (s.now - t < second)) }) s
  if 4 ≤ (sglAt s p).tagAt.length then linkDown p (alarm 1 (event .sglTagFailures 10 [p] s)) else badFlit p s

/-- A flit of a decoded block (R374): the messages that end in an accepted data flit are passed on (R368). -/
def recvFlit (p : Nat) (s : State) (f : RxFlit) : State :=
  if (sglAt s p).st != .up then s
  else if f.kind = 3 || !f.crcOk then badFlit p s
  else if !f.tagOk then tagFailed p s
  else
    let s := if f.ackv then ackTo p f.ack s else s
    if f.kind = 0 then
      if f.seq = (sglAt s p).rxSeq then
        let r := takeMessages 8 ((sglAt s p).part ++ f.granules)
        r.1.foldl (fun s m => arrive p m s)
          (modSgl p (fun x => { x with rxSeq := (x.rxSeq + 1) % 1024, rxAny := true, nakWait := false, part := r.2 }) s)
      else badFlit p s
    else if f.kind = 1 then
      match f.ctl with
      | some c => recvControl p c s
      | none => s
    else s

/-- An FEC block arrives (R365, R366, R374): a block that does not decode delivers nothing; one whose number disagrees
with the receiver's count means lost lock. -/
def execFecBlockReceive (port : Nat) (blk : FecBlock) (s : State) : Host.Outcome State Fault Refusal :=
  .next (
    let x := sglAt s port
    if x.st != .up then s
    else
      let s := modSgl port (fun x => { x with blocks := x.blocks + 1 }) s
      if !blk.decoded then badFlit port (modSgl port (fun x => { x with fecUe := satInc 8 x.fecUe }) s)
      else if blk.blk ≠ x.blocks % 4096 then linkDown port s
      else blk.flits.foldl (recvFlit port) s)

/-- A control flit is received (R373). -/
def execControlFlit (port : Nat) (ctl : CtlPayload) (s : State) : Host.Outcome State Fault Refusal :=
  .next (recvControl port ctl s)

/-- A receiver that waits repeats its NAK every 256 positions (R374). -/
def execNakRepeat (port : Nat) (s : State) : Host.Outcome State Fault Refusal :=
  .next (if (sglAt s port).nakWait && (sglAt s port).st == .up then sendNak port s else s)

/-- The ACK has not advanced for 2 µs: flits are resent from the oldest (R375). -/
def execAckTimeout (port : Nat) (s : State) : Host.Outcome State Fault Refusal :=
  .next (match (sglAt s port).retry with
    | f :: _ => if (sglAt s port).st == .up then replayFrom port f.seq s else s
    | [] => s)

/-- A control flit with the cumulative counts is due (R373). -/
def execControlFlitDue (port : Nat) (s : State) : Host.Outcome State Fault Refusal :=
  .next (if (sglAt s port).st == .up then emit (.control port (controlOf (sglAt s port) false false false 0)) s else s)

/-- No block has decoded for 1 µs: the link goes down (R398). -/
def execBlockDecodeTimeout (port : Nat) (s : State) : Host.Outcome State Fault Refusal := .next (linkDown port s)

/-- Block lock is lost: on one lane the ends retrain at ×2, on two or more the link goes down (R398). -/
def execBlockLockLoss (port : Nat) (lanes : List Nat) (s : State) : Host.Outcome State Fault Refusal :=
  .next (match lanes with
    | [] => s
    | [lane] => if (sglAt s port).width = 3 then retrainLink port lane s else linkDown port s
    | _ :: _ :: _ => linkDown port s)

/-- The transmitter announces its next key (R378): KEY_AT, a multiple of 5 at least 4,096 positions ahead, is otherwise
free (log 6). -/
def execRekey (port : Nat) (s : State) : Host.Outcome State Fault Refusal :=
  .next (
    if (sglAt s port).st != .up then s
    else
      let d := draw s
      let at_ := 5 * (820 + Config.freeNat d.1)
      emit (.control port (controlOf (sglAt d.2 port) false true false at_))
        (modSgl port (fun x => { x with keyGen := (x.keyGen.1, x.keyGen.2 + 1) }) d.2))

/-- The block at KEY_AT begins: the new key applies and the flit position restarts (R378). -/
def execKeySwitchApply (port : Nat) (s : State) : Host.Outcome State Fault Refusal :=
  .next (match (sglAt s port).keyAt with
    | none => s
    | some a => modSgl port (fun x =>
        { x with keyAt := none, keyBlk := x.keyBlk + a / 5, keyGen := (x.keyGen.1 + 1, x.keyGen.2) }) s)

/-! ### Training -/

/-- The check of IDENT (R381) and of the certificate (R376), as REFUSE shows the first that fails (R400; the order is a
DESIGN CHOICE, log 22). -/
def identCheck (s : State) (i : TrainInput) : Nat :=
  if i.nbrPool ≠ s.sgl.cfg.pool then 1
  else if s.sgl.cfg.pool = 0 || !s.sgl.cfg.nodeSet || !i.nbrCfg then 5
  else if i.nbrTopo % 2 ^ 15 ≠ s.sgl.cfg.kx + 32 * s.sgl.cfg.ky + 1024 * s.sgl.cfg.kz then 4
  else if i.nbrNode = me s then 3
  else if (Table.get? s.sec.trustPool i.certRoot).isNone then 2
  else 0

/-- A node ID found duplicated: both devices are excluded, and each records the other's serial (R387). -/
def duplicate (node serial : Nat) (s : State) : State :=
  let s := { s with sgl := { s.sgl with stale := true }
                    fab := { s.fab with dups := if s.fab.dups.contains node then s.fab.dups else node :: s.fab.dups } }
  if node = me s && s.sgl.cfg.nodeSet then
    event .duplicateNode 3 [serial] { s with sgl := { s.sgl with state := 3 } }
  else s

/-- A link that reaches UP starts afresh (R366, R372, R380), or after a retraining at ×2 goes on where it was (R398). -/
def linkUp (p : Nat) (i : TrainInput) (s : State) : State :=
  let x := sglAt s p
  let s := modSgl p (fun x =>
    if x.keep then { x with st := .up, width := i.width, keep := false }
    else
      { st := .up, width := i.width, nbr := i.nbrNode, nbrPort := i.nbrPort, nbrSer := i.nbrSerial, bufs := i.bufs
        replays := x.replays, tagFail := x.tagFail, fecUe := x.fecUe, retry := x.retry
        faulty := if i.width = 3 then [] else x.faulty }) s
  let s := if x.keep then
      match x.retry with
      | f :: _ => replayFrom p f.seq s
      | [] => s
    else s
  newLsa s

/-- A port trains (Table 12-8). Belvy must run, with VIN present (R380); a device with pool ID 0 brings up no link
(R381). -/
def execLinkTrain (port : Nat) (inp : TrainInput) (s : State) : Host.Outcome State Fault Refusal :=
  .next (
    let x := sglAt s port
    if x.st == .up || x.st == .refused || !s.mb.mpReady || s.pw.phase == .off || s.pw.phase == .standby
        || s.pw.phase == .powerDown then s
    else if inp.width = 0 then modSgl port (fun x => { x with st := .detect, width := 0 }) s
    else if !inp.lockOk then modSgl port (fun x => { x with st := .eq, width := 0 }) s
    else
      let s := emit (.identity port (identity s port)) s
      let r := identCheck s inp
      if r = 0 then linkUp port inp (modSgl port (fun x => { x with refuse := 0 }) s)
      else
        let s := modSgl port (fun x => { x with
          st := .refused, refuse := r, width := 0, nbr := inp.nbrNode, nbrPort := inp.nbrPort }) s
        if r = 3 then duplicate (me s) inp.nbrSerial s else s)

/-- A refused port tries again every 10 s (R380). -/
def execRefusedRetry (port : Nat) (s : State) : Host.Outcome State Fault Refusal :=
  .next (if (sglAt s port).st == .refused then modSgl port (fun x => { x with st := .detect, refuse := 0 }) s else s)

/-! ### Forwarding -/

/-- SUB of a message that leaves on the escape VC of a port (R384). -/
def escapeSub (s : State) (inPort sub p : Nat) : Nat :=
  if datelinePort s p || (sub == 2 && inPort / 2 == p / 2 && decide (inPort < 6)) then 2 else 1

/-- The MIN port with the most credit on the adaptive VC of a message's class; ties go to the lowest (R383). -/
def adaptivePort (s : State) (e : RouteEntry) (m : SglMsg) : Option Nat :=
  ((List.range 8).filter (fun p => decide (e.min / 2 ^ p % 2 = 1) && canSend s p 0 m)).foldl (fun a p =>
    match a with
    | none => some p
    | some q =>
      if vcCredit (sglAt s q) (3 * m.kind.cls) < vcCredit (sglAt s p) (3 * m.kind.cls) then some p else some q) none

/-- A management message stays on the escape VCs (R370). -/
def isManagement (m : SglMsg) : Bool := m.kind == .mgq || m.kind == .mgr

/-- A message goes on (R383, R384): to a neighbour it is flooded to or to its route; without credit it waits. -/
def forward (inPort sub : Nat) (m : SglMsg) (s : State) : State :=
  let hold := fun (s : State) =>
    if s.fab.waiting.contains m then s else { s with fab := { s.fab with waiting := s.fab.waiting ++ [m] } }
  match Table.get? s.sgl.routes m.dst with
  | none =>
    match (upPorts s).find? (fun p => (sglAt s p).nbr == m.dst) with
    | some p => if isManagement m then if canSend s p 1 m then transmit p 1 m s else hold s else unreachable m s
    | none => unreachable m s
  | some e =>
    if !e.reach then unreachable m s
    else
      match (if sub = 0 && !isManagement m then adaptivePort s e m else none) with
      | some p => transmit p 0 m s
      | none =>
        let q := escapeSub s inPort sub e.esc
        if canSend s e.esc q m then transmit e.esc q m s else hold s

/-- A message in transit, or injected by this node, is forwarded (R383). -/
def execMessageForward (inPort sub : Nat) (msg : SglMsg) (s : State) : Host.Outcome State Fault Refusal :=
  .next (
    if msg.dst = me s then deliverMsg inPort msg { s with fab := { s.fab with waiting := s.fab.waiting.erase msg } }
    else forward inPort sub msg s)

/-- No fragment of a partial payload has arrived for 10 ms: it is discarded (R370). -/
def execFragmentTimeout (src txid mcode : Nat) (s : State) : Host.Outcome State Fault Refusal :=
  .next { s with fab := { s.fab with frags := Table.del s.fab.frags (fragKey src txid mcode) } }

/-- SALVAGE arrives (R399): every message of the retry buffer after the neighbour's last SEQ is injected again, in
order. -/
def execSalvage (port lastSeq : Nat) (s : State) : Host.Outcome State Fault Refusal :=
  .next (
    let x := sglAt s port
    if x.st == .up then s
    else
      let after := if x.retry.any (fun f => f.seq == lastSeq) then
          (x.retry.dropWhile (fun f => f.seq != lastSeq)).tail
        else x.retry
      { (modSgl port (fun x => { x with retry := [] }) s) with
        fab := { s.fab with waiting := s.fab.waiting ++ (after.map (·.msgs)).flatten } })

end Sys2Proof.Machine
end

