-- ==== Sys2Proof/Machine/Pool.lean ====
section
/-! DEFINITION. The memory pool: the link-state database, routes, the ridge and its tree, membership, absent and dead
nodes (12). -/

namespace Sys2Proof.Machine

/-! ### The graph of the database -/

/-- The LSAs of a node. -/
def lsasOf (s : State) (n : Nat) : List Lsa := (s.sgl.lsdb.map (·.1)).filter (fun l => l.origin == n)

/-- The live neighbours of a node: its LSA's live ports whose other end shows the link live too. -/
def neighbours (s : State) (n : Nat) : List Nat :=
  (((lsasOf s n).map (fun l => (l.ports.filter (·.live)).map (·.nbr))).flatten).filter (fun v =>
    (lsasOf s v).any (fun l => l.ports.any (fun p => p.live && p.nbr == n)))

/-- Breadth-first levels from a frontier: nodes with their distance. -/
def bfs (s : State) : Nat → Nat → List Nat → List (Nat × Nat) → List (Nat × Nat)
  | 0, _, _, acc => acc
  | _ + 1, _, [], acc => acc
  | f + 1, d, x :: xs, acc =>
    let next := (((x :: xs).map (neighbours s)).flatten).dedup.filter (fun v => !(acc.any (fun a => a.1 == v)))
    bfs s f (d + 1) next (acc ++ next.map (fun v => (v, d + 1)))

/-- Distances from a node over the database. -/
def distances (s : State) (n : Nat) : List (Nat × Nat) := bfs s 1024 0 [n] [(n, 0)]

/-- The distance of a node in a list. -/
def distIn (ds : List (Nat × Nat)) (n : Nat) : Option Nat := (ds.find? (fun x => x.1 == n)).map (·.2)

/-! ### Ridge and tree -/

/-- A node is on the roster (R386). -/
def onRoster (s : State) (n : Nat) : Bool := decide (s.sgl.cfg.roster / 2 ^ n % 2 = 1)

/-- The ridge every node derives (R390): the lowest eligible reachable member; the one in place once pool-ready has been
declared. -/
def ridgeOf (s : State) : Option Nat :=
  if s.sgl.declared then some s.sgl.ridge
  else
    let ds := distances s (me s)
    (List.range 1024).find? (fun n =>
      onRoster s n && !s.fab.dups.contains n && (distIn ds n).isSome && (lsasOf s n).any (·.ridge))

/-- The parent of a node: its lowest neighbour on a path of least hops to the ridge (R390). -/
def parentOf (s : State) (n ridge : Nat) : Option Nat :=
  let ds := distances s ridge
  match distIn ds n with
  | none => none
  | some d =>
    if d = 0 then none
    else
      ((neighbours s n).filter (fun v => distIn ds v == some (d - 1))).foldl (fun a v =>
        match a with
        | none => some v
        | some u => if v < u then some v else some u) none

/-- The children of this node. -/
def childrenOf (s : State) (ridge : Nat) : List Nat :=
  (neighbours s (me s)).dedup.filter (fun v => parentOf s v ridge == some (me s))

/-! ### Routes -/

/-- The neighbour in a direction of a ring (R385). -/
def ringNext (c : PoolCfg) (n d : Nat) (up : Bool) : Nat :=
  let k := dimSize c d
  let x := coord c n d
  let y := if up then (x + 1) % k else (x + k - 1) % k
  let unit := match d with
    | 0 => 1
    | 1 => c.kx
    | _ => c.kx * c.ky
  n - x * unit + y * unit

/-- A node's link in a direction is live. -/
def ringLive (s : State) (n d : Nat) (up : Bool) : Bool :=
  (lsasOf s n).any (fun l => match l.ports[2 * d + (if up then 0 else 1)]? with
    | some p => p.live
    | none => false)

/-- A run of hops in one direction crosses no link that is down. -/
def runLive (s : State) (d : Nat) (up : Bool) : Nat → Nat → Bool
  | 0, _ => true
  | h + 1, n => ringLive s n d up && runLive s d up h (ringNext s.sgl.cfg n d up)

/-- The direction and hops of an escape route in a dimension: fewer hops, + on a tie, unless it crosses a link that is
down (R384). -/
def escapeDim (s : State) (n dst d : Nat) : Option (Bool × Nat) :=
  let k := dimSize s.sgl.cfg d
  let a := coord s.sgl.cfg n d
  let b := coord s.sgl.cfg dst d
  if a = b then none
  else
    let plus := (b + k - a) % k
    let minus := k - plus
    let first := decide (plus ≤ minus)
    let h := if first then plus else minus
    if runLive s d first h n then some (first, h) else some (!first, k - h)

/-- A node moved to another's coordinate in a dimension. -/
def moveTo (c : PoolCfg) (n dst d : Nat) : Nat :=
  let unit := match d with
    | 0 => 1
    | 1 => c.kx
    | _ => c.kx * c.ky
  n - coord c n d * unit + coord c dst d * unit

/-- The escape port and the hops of the escape path in dimension order X, Y, Z (R384). -/
def escapeRoute (s : State) (dst : Nat) : Nat × Nat :=
  let n0 := me s
  let n1 := moveTo s.sgl.cfg n0 dst 0
  let n2 := moveTo s.sgl.cfg n1 dst 1
  let es := [(0, escapeDim s n0 dst 0), (1, escapeDim s n1 dst 1), (2, escapeDim s n2 dst 2)]
  let port := match es.find? (fun e => e.2.isSome) with
    | some (d, some (up, _)) => 2 * d + (if up then 0 else 1)
    | _ => 0
  (port, es.foldl (fun a e => match e.2 with
    | some (_, h) => a + h
    | none => a) 0)

/-- The route entry of a destination (Table 12-7). -/
def routeTo (s : State) (ds : List (Nat × Nat)) (near : List (Nat × List (Nat × Nat))) (dst : Nat) : RouteEntry :=
  let esc := escapeRoute s dst
  match distIn ds dst with
  | none => { min := 0, esc := esc.1, hops := 0, reach := false }
  | some h =>
    { min := near.foldl (fun a x => if (distIn x.2 dst).any (fun k => k + 1 == h) then a + 2 ^ x.1 else a) 0
      esc := esc.1, hops := max esc.2 h
      reach := !s.fab.dups.contains dst && (present s dst || (!s.sgl.declared && onRoster s dst)) }

/-- The route table is computed from the database and installed as one group (R382, R389); the interruption of a link ends
with it (R399). -/
def installRoutes (s : State) : State :=
  let ds := distances s (me s)
  let near := (upPorts s).map (fun p => (p, distances s (sglAt s p).nbr))
  let ns := ((s.sgl.lsdb.map (·.1.origin)).dedup).filter (· != me s)
  let s := { s with sgl := { s.sgl with
    routes := ns.foldl (fun t n => Table.put t n (routeTo s ds near n)) [], stale := false } }
  if s.prot.faults.any (fun f => match f with
      | .sglLink _ => true
      | _ => false) then event .sglRerouted 3 [] s
  else s

/-- Within 50 ms of a change of the database the node installs new routes (R389). -/
def execRouteInstall (s : State) : Host.Outcome State Fault Refusal :=
  .next (if s.sgl.stale then installRoutes s else s)

/-! ### Membership -/

/-- The highest generation found in the database (R388). -/
def highestGen (s : State) : Nat := s.sgl.lsdb.foldl (fun a x => max a x.1.gen) s.sgl.gen

/-- The bits of a membership map (Table 12-11): node 64k + j is bit j of word k. -/
def mapBits (ws : List Nat) : Nat := ws.zipIdx.foldl (fun a x => a + x.1 % 2 ^ 64 * 2 ^ (64 * x.2)) 0

/-- The words of a membership map. -/
def mapWords (m : Nat) : List Word := (List.range 16).map (fun k => BitVec.ofNat 64 (m / 2 ^ (64 * k)))

/-- The words of MEMBER (Table 12-11). -/
def memberWords (gen ridge m : Nat) : List Word := [BitVec.ofNat 64 gen, BitVec.ofNat 64 ridge] ++ mapWords m

/-- A node that a new generation leaves out (R395): R351 applies, its proxy copies go, and requests to it are answered
under R396. -/
def loseNode (node : Nat) (s : State) : State :=
  let s := killNode node s
  let ls := (s.coh.px.filter (fun x => x.1 / 2 ^ 36 == node)).map (fun x => x.1 % 2 ^ 36)
  ls.foldl (fun s d => endAbsent node d s) s

/-- Every proxy line ends as under R352 (R397). -/
def dropAllPx (s : State) : State :=
  (s.coh.px.map (·.1)).foldl (fun s k => endPx (k / 2 ^ 36) (k % 2 ^ 36) s) s

/-- Every directory entry goes: an owned line is poisoned (R397). -/
def dropDirectory (s : State) : State :=
  (s.coh.dir.map (·.1)).foldl (fun s d =>
    match dirAt s d with
    | some e =>
      if e.st == .hs || e.st == .hsI then setDir d none s else setDir d none (poisonHome d s)
    | none => s) s

/-- A member that finds itself left out (R397): its copies and its directory go, and it asks to rejoin (R394). -/
def excluded (ridge : Nat) (s : State) : State :=
  let s := dropDirectory (dropAllPx (event .ownExclusion 3 [] { s with sgl := { s.sgl with state := 3 } }))
  sendMsg { kind := .mgq, src := me s, dst := ridge, txid := 0, mcode := 4
            payload := [BitVec.ofNat 64 (me s), Config.serial] } s

/-- Requests in the hold queue are sent (R393). -/
def releaseHold (s : State) : State :=
  let q := s.fab.hold
  q.foldl (fun s x => remoteRequest x.1 x.2.1 x.2.2 s) { s with fab := { s.fab with hold := [] } }

/-- A membership takes effect (R388, R393 to R395, R397). -/
def takeMember (gen ridge m : Nat) (s : State) : State :=
  let old := s.sgl.members
  let s := { s with sgl := { s.sgl with
    gen := gen, ridge := ridge, members := m, declared := true, gathering := false, stale := true } }
  if m / 2 ^ me s % 2 = 0 then excluded ridge s
  else
    let lost := (List.range 1024).filter (fun n => decide (old / 2 ^ n % 2 = 1 ∧ m / 2 ^ n % 2 = 0))
    let ds := distances s (me s)
    let apart := (s.sgl.apart ++ lost.filter (fun n => (distIn ds n).isNone)).filter (fun n => decide (m / 2 ^ n % 2 = 0))
    let s := lost.foldl (fun s n => loseNode n s) s
    let s := { s with
      sgl := { s.sgl with state := 2, apart := apart }
      coh := { s.coh with dead := s.coh.dead.filter (fun n => decide (m / 2 ^ n % 2 = 0)) } }
    releaseHold s

/-- The ridge issues a generation (R388, R391): it floods MEMBER and takes it. -/
def issue (m : Nat) (s : State) : State :=
  let g := (highestGen s + 1) % 2 ^ 32
  takeMember g (me s) m (floodTo 3 (memberWords g (me s) m) (upPorts s) s)

/-- A membership without some nodes. -/
def without (m : Nat) (ns : List Nat) : Nat := ns.foldl (fun a n => if a / 2 ^ n % 2 = 1 then a - 2 ^ n else a) m

/-- This node is the ridge. -/
def isRidge (s : State) : Bool := s.sgl.cfg.pool != 0 && ridgeOf s == some (me s)

/-- The ready map this node has: its children's maps and, its own Replay ended, its own bit (R391). -/
def readyMap (s : State) : Nat :=
  let own := if s.pw.phase == .service || s.pw.phase == .flush then 2 ^ me s else 0
  s.sgl.readies.foldl (fun a x => a ||| x.2) own

/-- The gather window runs from the ridge's election (R391), in the setting in force then (R487). -/
def noteRidge (s : State) : State :=
  if isRidge s && !s.sgl.declared then
    if s.sgl.gathering then s
    else { s with sgl := { s.sgl with gathering := true, gather := (s.sgl.gather.2, s.sgl.gather.2) } }
  else { s with sgl := { s.sgl with gathering := false } }

/-- READY goes up, or at the ridge pool-ready is declared once the map holds the roster (R391). -/
def sendReady (s : State) : State :=
  let s := noteRidge s
  match ridgeOf s with
  | none => s
  | some r =>
    let own := s.pw.phase == .service || s.pw.phase == .flush
    let all := (childrenOf s r).all (fun c => (Table.get? s.sgl.readies c).isSome)
    if !own || s.sgl.cfg.pool = 0 || s.sgl.declared then s
    else if r = me s then
      let m := readyMap s
      if m &&& s.sgl.cfg.roster = s.sgl.cfg.roster then issue (without (m &&& s.sgl.cfg.roster) s.fab.dups) s else s
    else if all then
      match parentOf s (me s) r with
      | none => s
      | some p =>
        if s.sgl.readySent = some p then s
        else
          sendMsg { kind := .mgq, src := me s, dst := p, txid := 0, mcode := 2, payload := mapWords (readyMap s) }
            { s with sgl := { s.sgl with readySent := some p } }
    else s

/-- A node that has become ready after pool-ready asks to join (R394). -/
def sendJoin (s : State) : State :=
  if s.sgl.cfg.pool ≠ 0 && s.sgl.declared && s.sgl.members / 2 ^ me s % 2 = 0 then
    sendMsg { kind := .mgq, src := me s, dst := s.sgl.ridge, txid := 0, mcode := 4
              payload := [BitVec.ofNat 64 (me s), Config.serial] } s
  else s

/-! ### Management messages -/

/-- The ridge of a partition that this node's was separated from and has met again: the lowest eligible node that was left
out while it was unreachable, is reachable again and holds a generation (R390, R397; DEDUCED, log 114). -/
def otherRidge (s : State) : Option Nat :=
  let ds := distances s (me s)
  (List.range 1024).find? (fun n =>
    s.sgl.apart.contains n && (distIn ds n).isSome && (lsasOf s n).any (fun l => l.ridge && l.gen != 0))

/-- Two partitions meet: where this node's ridge has the higher node ID, it acts as a member declared dead (R397). -/
def meetPartition (s : State) : State :=
  if !s.sgl.declared || !present s (me s) then s
  else
    match otherRidge s with
    | some r => if r < s.sgl.ridge then excluded r { s with sgl := { s.sgl with apart := [] } } else s
    | none => s

/-- An LSA arrives (R387, R389): on first sight of its origin, serial and sequence it is flooded on and kept; a second
serial for one node ID is a duplicate. Partitions that meet are joined again (R397). Changes of the tree may call for a new READY (R391). -/
def execLsa (port : Nat) (body : Lsa) (s : State) : Host.Outcome State Fault Refusal :=
  .next (
    let seen := s.sgl.lsdb.any (fun x => x.1.origin == body.origin && x.1.serial == body.serial && decide (body.seq ≤ x.1.seq))
    if seen then s
    else
      let s := floodTo 1 (lsaWords body) ((upPorts s).filter (· != port)) (storeLsa body s)
      let other := (lsasOf s body.origin).find? (fun l => l.serial != body.serial)
      let clash := other.isSome || (body.origin == me s && s.sgl.cfg.nodeSet && body.serial != mySerial)
      let s := if clash && !s.fab.dups.contains body.origin then
          duplicate body.origin (if body.serial = mySerial then (other.map (·.serial)).getD 0 else body.serial) s
        else s
      let s := meetPartition s
      let s := if clash && s.sgl.declared && isRidge s && s.sgl.members / 2 ^ body.origin % 2 = 1 && body.origin != me s
        then issue (without s.sgl.members [body.origin]) s else s
      sendReady s)

/-- READY from a child (R391). -/
def execReady (child : Nat) (map : List Nat) (s : State) : Host.Outcome State Fault Refusal :=
  .next (sendReady { s with sgl := { s.sgl with readies := Table.put s.sgl.readies child (mapBits map), readySent := none } })

/-- The gather window expires at the ridge: pool-ready is declared with the members that are ready (R391). -/
def execGatherWindowExpire (s : State) : Host.Outcome State Fault Refusal :=
  .next (if s.sgl.gathering && isRidge s && !s.sgl.declared then issue (without (readyMap s &&& s.sgl.cfg.roster) s.fab.dups) s else s)

/-- MEMBER arrives (R388, R395): it counts only with a higher generation, and is flooded on. -/
def execMember (port gen ridge : Nat) (map : List Nat) (s : State) : Host.Outcome State Fault Refusal :=
  .next (
    if s.sgl.cfg.pool = 0 || gen ≤ s.sgl.gen then s
    else takeMember gen ridge (mapBits map)
      (floodTo 3 (memberWords gen ridge (mapBits map)) ((upPorts s).filter (· != port)) s))

/-- The hold limit expires: requests still waiting are answered under R396 (R393). -/
def execHoldLimitExpire (s : State) : Host.Outcome State Fault Refusal :=
  .next (
    if s.sgl.state = 2 then s
    else
      let q := s.fab.hold
      q.foldl (fun s x => answerAbsent x.1 x.2.1 x.2.2 s) { s with fab := { s.fab with hold := [], holdOver := true } })

/-- JOIN at the ridge (R394): a new generation with the joiner. -/
def execJoin (node serial : Nat) (s : State) : Host.Outcome State Fault Refusal :=
  .next (
    if isRidge s && s.sgl.declared && s.sgl.members / 2 ^ node % 2 = 0 && onRoster s node && !s.fab.dups.contains node
        && (lsasOf s node).all (fun l => l.serial == serial) then
      issue (s.sgl.members + 2 ^ node) s
    else s)

/-- DEAD at the ridge (R397): a new generation without the node. -/
def execDead (node _cause : Nat) (s : State) : Host.Outcome State Fault Refusal :=
  .next (if isRidge s && s.sgl.declared && present s node && node != me s then issue (without s.sgl.members [node]) s else s)

/-- The member that R390 selects when the ridge is gone. -/
def successor (s : State) (gone : Nat) : Option Nat :=
  let ds := distances s (me s)
  (List.range 1024).find? (fun n =>
    n != gone && present s n && !s.fab.dups.contains n && (distIn ds n).isSome && (lsasOf s n).any (·.ridge))

/-- A member the database has shown unreachable for 1 ms is declared dead by the ridge; the ridge itself, by its
successor (R397). -/
def execMemberUnreachable (node : Nat) (s : State) : Host.Outcome State Fault Refusal :=
  .next (
    if !s.sgl.declared || !present s node || node = me s || (distIn (distances s (me s)) node).isSome then s
    else if node = s.sgl.ridge then
      if successor s node = some (me s) then
        let s := event .nodeDead 9 [node, 2] { s with sgl := { s.sgl with ridge := me s } }
        issue (without s.sgl.members [node]) s
      else s
    else if isRidge s then issue (without s.sgl.members [node]) (event .nodeDead 9 [node, 2] s)
    else s)

/-- No LSA from one of two serials for 10 s: the duplicate ends, and the remaining device rejoins (R387). -/
def execDuplicateExpire (node serial : Nat) (s : State) : Host.Outcome State Fault Refusal :=
  .next (
    if !s.fab.dups.contains node then s
    else
      let s := { s with sgl := { s.sgl with
        lsdb := s.sgl.lsdb.filter (fun x => !(x.1.origin == node && x.1.serial == serial && serial != mySerial)), stale := true } }
      if ((lsasOf s node).map (·.serial)).dedup.length ≤ 1 then
        let s := { s with fab := { s.fab with dups := s.fab.dups.erase node } }
        if node = me s && s.sgl.state = 3 then sendJoin { s with sgl := { s.sgl with state := 1 } } else s
      else s)

end Sys2Proof.Machine
end

