-- ==== Sys2Proof/Machine/Persist.lean ====
section
/-! DEFINITION. Persistence: the hold-up bank, epochs, checkpoints, Flush, Replay and Global Persistent Flush (07). -/

namespace Sys2Proof.Machine

/-! ### The hold-up bank -/

/-- VIN feeds the internal rails, from Boot step 8 on (R232). -/
def chargerMay (s : State) : Bool :=
  !s.pw.sourceHold && (s.pw.phase == .replay || s.pw.phase == .service || s.pw.phase == .flush
    || (s.pw.phase == .boot && decide (8 ≤ s.pw.bootStep)))

/-- A measurement starts: the charger stops and the test load is applied (Table 07-1). -/
def startMeasure (s : State) : State :=
  { s with per := { s.per with measuring := true, measDue := false, charger := false } }

/-- A measurement is asked for (R233): it starts with VHOLD at 48.0 V, and else waits for it. -/
def askMeasure (s : State) : State :=
  if s.per.measuring then s
  else if 4800 ≤ s.per.vhold && chargerMay s then startMeasure s
  else { s with per := { s.per with measDue := true } }

/-- VHOLD reaches 48.0 V with a measurement due (R233). -/
def execHoldupMeasure (s : State) : Host.Outcome State Fault Refusal :=
  .next (if s.per.measDue && !s.per.measuring && chargerMay s then startMeasure s else s)

/-- Every 24 hours of operation a measurement is made (R233). -/
def execHoldupDailyMeasurement (s : State) : Host.Outcome State Fault Refusal :=
  .next (if chargerMay s then askMeasure s else s)

/-- The bank is found absent, or not (R238). -/
def setAbsent (a : Bool) (s : State) : State :=
  let s := { s with per := { s.per with absent := a } }
  if a then event .holdupAbsent 5 [] { s with per := { s.per with budget := 0, budgetNow := 0 } } else s

/-- C in µF of V_b and V_c in mV (R234). Where V_c is not below V_b the manual states no result: a free value (log 6). -/
def bankCap (vb vc : Nat) (s : State) : Nat × State :=
  if vc < vb then (10000000 / (vb - vc), s) else (Config.freeNat (draw s).1, (draw s).2)

/-- ESR in mΩ of V_a and V_b in mV (R234). Where V_a is below V_b the manual states no result: a free value (log 6). -/
def bankEsr (va vb : Nat) (s : State) : Nat × State :=
  if vb ≤ va then (va - vb, s) else (Config.freeNat (draw s).1, (draw s).2)

/-- Measurement commands complete with the measurement (R233). -/
def measureDone (s : State) : State := endOps 0x302 (fun _ => true) 0 s

/-- The measurement ends (Table 07-1, R234, R235, R238): the charger is on, and C, ESR, E_use and B are known. -/
def execHoldupResult (va vb vc : Nat) (s : State) : Host.Outcome State Fault Refusal :=
  .next (
    if !s.per.measuring then s
    else
      let c := bankCap vb vc s
      let r := bankEsr va vb c.2
      let e := energyOf va c.1 r.1
      let b := budgetOf e
      let s := r.2
      let s := { s with per := { s.per with
        measuring := false, charger := chargerMay s, measValid := true, samples := [va, vb, vc]
        cap := c.1, esr := r.1, euse := e, budget := b, budgetNow := min s.per.budgetNow b } }
      measureDone (updateAccept (setAbsent (decide (e < 1200)) s)))

/-- 2 s have passed since a charger start: where VHOLD has not reached 20 V the bank is absent (R238). -/
def execChargerTimeout (s : State) : Host.Outcome State Fault Refusal :=
  .next (if s.per.charger && decide (s.per.vhold < 2000) then updateAccept (setAbsent true s) else s)

/-- Every 1 ms B_now follows the present VHOLD, given in 10 mV, capped at B (R236); a smaller limit can close the open
epoch (R244). -/
def execBudgetUpdate (vhold : Nat) (s : State) : Host.Outcome State Fault Refusal :=
  .next (
    let s := { s with per := { s.per with vhold := vhold }
                      pw := { s.pw with volts := setNth s.pw.volts 12 vhold } }
    let b := min (budgetOf (energyOf (vhold * 10) s.per.cap s.per.esr)) s.per.budget
    let s := { s with per := { s.per with budgetNow := b } }
    if s.pw.phase == .service then closeIfHalf (updateAccept s) else s)

/-! ### Answers that wait for a commit -/

/-- A port's flush is complete: its epoch has committed, and every remote home that is still present has answered (R251). -/
def gpfDone (s : State) (g : Gpf) : Bool :=
  decide (g.target ≤ s.per.committed) && g.homes.all (fun h => !present s (h / 4096))

/-- Answers a port's flush once it is complete (R251). -/
def gpfCheck (p : Port) (s : State) : State :=
  match (s.port p).gpf with
  | none => s
  | some g =>
    if gpfDone s g then emit (.gpf p 2 g.tag) (s.setPort p { s.port p with gpf := none }) else s

/-- Answers the PFLUSH requests whose epoch has committed: MGR with the epoch (R251, Table 12-11). -/
def pflushCheck (s : State) : State :=
  let ready := s.fab.pflush.filter (fun x => decide (x.2.2.2 ≤ s.per.committed))
  ready.foldl (fun s x =>
    sendMsg { kind := .mgr, src := me s, dst := x.1, txid := x.2.1, mcode := 7
              payload := [BitVec.ofNat 64 x.2.2.1, BitVec.ofNat 64 s.per.committed] } s)
    { s with fab := { s.fab with pflush := s.fab.pflush.filter (fun x => !decide (x.2.2.2 ≤ s.per.committed)) } }

/-- Bytes written into a label storage area from an offset on; an unlisted byte reads 0. -/
def lsaPut : Nat → List (BitVec 8) → Table (BitVec 8) → Table (BitVec 8)
  | _, [], t => t
  | o, b :: bs, t => lsaPut (o + 1) bs (Table.putD t o b 0)

/-- Set LSA commands of a port take their place with the commit of their epoch, and complete (R430). -/
def lsaCheck (p : Port) (s : State) : State :=
  let c := s.cxl p
  let done := c.lsaWait.filter (fun e => decide (e.epoch ≤ s.per.committed))
  done.foldl (fun s e => if e.answer then emit (.cxl p 0x4103 0 []) s else s)
    (s.setCxl p { c with
      lsa := done.foldl (fun t e => lsaPut e.off e.bytes t) c.lsa
      lsaWait := c.lsaWait.filter (fun e => !decide (e.epoch ≤ s.per.committed)) })

/-- What waits for a commit. -/
def commitAnswers (s : State) : State :=
  lsaCheck .b (lsaCheck .a (pflushCheck (gpfCheck .b (gpfCheck .a s))))

/-- A walk's committed position, and its progress record each 64 MiB of committed DLA (R449). -/
def walkCommit (ep : Nat) (w : Walk) : Walk :=
  let d := (w.marks.filter (fun m => decide (m.1 ≤ ep))).foldl (fun a m => max a m.2) w.done
  let w := { w with done := d, marks := w.marks.filter (fun m => !decide (m.1 ≤ ep)) }
  if w.recorded + 2 ^ 20 ≤ d then { w with recorded := d } else w

/-! ### Epochs -/

/-- The epoch timer expires: the open epoch closes where it holds a write or map change (R244). -/
def execEpochTimer (s : State) : Host.Outcome State Fault Refusal :=
  .next (if s.per.openHolds && s.pw.phase == .service then closeEpoch s else s)

/-- EPC_CTRL.CLOSE (R250). -/
def execEpcClose (snd : Sender) (s : State) : Host.Outcome State Fault Refusal := .next (closeRequest snd s)

/-- The dovetail entries of a closed epoch close, their old lines are read, and those that can merge do (R207, R246). -/
def mergeEpoch (ep : Nat) (s : State) : State :=
  ((s.cache.dove.filter (fun x => x.2.epoch == ep)).map (·.1)).foldl
    (fun s d => mergeNow d (kickOld d (closeDove d s))) s

/-- The slots of a closed epoch are staged in the order of their acceptance (R118, R246): one whose eaves set is full has
a page of its set folded and waits (R122); in Read-Only no fold is started for it, and it waits (R146; DEDUCED, log 109). -/
def stageEpoch (ep : Nat) (s : State) : State :=
  (s.tr.slots.filter (fun x => x.epoch == ep && x.st == .waiting)).foldl (fun s x =>
    if (eavesOf s x.dla).isNone && decide (8 ≤ setCount s x.dla) && !s.tr.readOnly then foldForSet x.dla s
    else stageOrDiscard x s) s

/-- Bytes of the log records of an epoch. -/
def epochLog (ep : Nat) (s : State) : Nat :=
  (s.tr.log.filter (fun x => x.1 == ep)).foldl (fun a x => a + recSize x.2) 0

/-- The open META stripes' rounds are padded and started. -/
def padMeta (s : State) : State :=
  ((s.tr.stripes.filter (fun x => x.2.stream == 3 && x.2.isOpen)).map (·.1)).foldl (fun s k => padAndStart k s) s

/-- The log pages of an epoch and of its commit record, in two copies in the META stripes of two groups (R254). -/
def writeLog (ep : Nat) (s : State) : State :=
  let n := (epochLog ep s + 16 + 4095) / 4096
  padMeta (metaPages 1 n (metaPages 0 n s))

/-- The rows of META stripes that are still to pass: each stripe with the number of its staged rows. -/
def metaRows (s : State) : List (Nat × Nat) :=
  s.tr.stripes.filterMap (fun x =>
    if x.2.stream == 3 && !x.2.reclaim && !x.2.failed then
      match topRow x.2 with
      | some r => if x.2.passed ≤ r then some (x.1, r + 1) else none
      | none => none
    else none)

/-- Rows of the log have passed their rounds (R247); those of a failed stripe have been written anew (R143). -/
def rowsPassed (s : State) (rows : List (Nat × Nat)) : Bool :=
  rows.all (fun r => match stripeAt s r.1 with
    | some x => x.failed || x.reclaim || decide (r.2 ≤ x.passed)
    | none => true)

/-- A write ordered into an epoch has not yet been accepted (R246). -/
def heldIn (s : State) (ep : Nat) : Bool := s.cache.mshrs.any (fun x => x.2.held == some ep)

/-- A closed epoch's log stands in these rows (R246). -/
def markStaged (ep : Nat) (rows : List (Nat × Nat)) (s : State) : State :=
  { s with per := { s.per with draining := s.per.draining.map (fun y =>
    if y.epoch = ep then { y with staged := true, logAt := rows } else y) } }

/-- One closed epoch's staging (R246): when every write ordered into it has been accepted and no dovetail entry of it remains,
its rounds are padded and started and its log is written. -/
def stageOne (d : Draining) (s : State) : State :=
  let s := placeBacks (stageEpoch d.epoch (mergeEpoch d.epoch s))
  let s := padClosing s
  if d.staged || s.cache.dove.any (fun x => x.2.epoch == d.epoch) || heldIn s d.epoch then s
  else
    markStaged d.epoch (metaRows (writeLog d.epoch s)) (writeLog d.epoch s)

/-- The closed epochs are staged, the older first (R246). -/
def execEpochStage (s : State) : Host.Outcome State Fault Refusal :=
  .next (s.per.draining.foldl (fun s d => stageOne d s) s)

/-- The oldest closed epoch may commit (R247): its slots are released and its entries merged, the rows of its log have
passed, programming is permitted (R249) and the log is below 24 GiB (R257). -/
def commitReady (s : State) (d : Draining) : Bool :=
  d.staged && !s.tr.slots.any (fun x => x.epoch == d.epoch) && !s.cache.dove.any (fun x => x.2.epoch == d.epoch)
    && rowsPassed s d.logAt && progAllowed s && !logHold s

/-- An epoch commits (R247): EPC_COMMITTED, the vector, its records in the persistent image, a close that waited
(R245), and whatever waited for the commit. -/
def commitEpoch (d : Draining) (rest : List Draining) (s : State) : State :=
  let s := imageCommit d.epoch (logOnly d.epoch (.commit d.epoch) s)
  let s := { s with
    per := { s.per with committed := d.epoch, draining := rest }
    ck := { s.ck with lastCommit := d.epoch }
    sec := { s.sec with walks := s.sec.walks.map (walkCommit d.epoch) } }
  let s := if s.per.commitIrq then vectorBoth 5 s else s
  let s := count 16 0x106 0 1 s
  let s := if s.per.closePend && s.pw.phase != .flush then closeNow s else s
  commitAnswers s

/-- The log and commit records of the oldest closed epoch have passed their read-back: it commits (R247). -/
def execEpochCommit (s : State) : Host.Outcome State Fault Refusal :=
  .next (match s.per.draining with
    | [] => s
    | d :: rest => if commitReady s d then commitEpoch d rest s else s)

/-! ### Checkpoints -/

/-- Segments of the checkpoint (R253). -/
def segments : Nat := 3609

/-- The checkpoint writer writes the next segment and its SEGMENT record (R255, R256). -/
def execCheckpointSegmentWrite (s : State) : Host.Outcome State Fault Refusal :=
  .next (
    if segments ≤ s.ck.segment || s.pw.phase != .service then s
    else
      let n := s.ck.segment
      let s := if n = 0 then { s with per := { s.per with sweepBytes := 0 } } else s
      let s := metaPages (n % 8) 1024 s
      logOnly s.per.openEpoch (.segment n) { s with ck := { s.ck with
        segment := n + 1, sweeps := if n + 1 = segments then s.ck.sweeps + 1 else s.ck.sweeps } })

/-- Closed META stripes that hold nothing the new root still names: opened before the sweep before the one the root
describes (R257). -/
def dropMeta (s : State) : State :=
  ((s.tr.stripes.filter (fun x => x.2.stream == 3 && !x.2.isOpen && x.2.rounds.isEmpty && !x.2.reclaim
      && decide (x.2.sweep + 2 ≤ s.ck.sweeps))).map (·.1)).foldl (fun s k =>
    updateTop (updateDegraded (toReclaim k (modStripe k (fun y =>
      { y with emptyEp := s.per.openEpoch, emptyGen := s.sched.rgen }) s)))) s

/-- The page of a root: successive roots alternate between the 16 pages of bank 0 and the 16 of bank 1 (R256). -/
def rootPage (n : Nat) : Nat := n % 2 * 16 + n / 2 % 16

/-- A complete sweep's root is written to the next root page, no more often than every 10 s (R256): its sequence number and
the log position at which the sweep began; the log extent is then the log since that position (R257). -/
def execCheckpointRootWrite (s : State) : Host.Outcome State Fault Refusal :=
  .next (
    if s.ck.segment < segments || s.ck.rootAt.any (fun t => decide (s.now < t + 10 * second))
        || s.pw.phase != .service then s
    else
      dropMeta { s with
        ck := { s.ck with
          segment := 0, roots := s.ck.roots + 1, rootAt := some s.now
          rootPages := Table.put s.ck.rootPages (rootPage s.ck.roots) (s.ck.roots + 1, s.ck.logPos - s.per.sweepBytes) }
        per := { s.per with extent := s.per.sweepBytes } })

/-! ### Flush -/

/-- Every open DRAIN round is padded and started at once (R259). -/
def padAllDrain (s : State) : State :=
  ((s.tr.stripes.filter (fun x => x.2.stream == 0 && x.2.isOpen && !x.2.reclaim)).map (·.1)).foldl
    (fun s k => padAndStart k s) s

/-- Flush is entered in one cycle (R502, R43, R245, R259, R517): no request is admitted, the power state is Active, the
open epoch closes, and open DRAIN rounds are padded; queued relocations are discarded (R190), and one further set of feed
packets is due (R550). The always-on flags record it (R258), and the REPEAT of the newest
event is written (R571). -/
def enterFlush (s : State) : State :=
  let s := storeRepeat s
  let s := { s with
    pw := { s.pw with phase := .flush }
    ck := { s.ck with flushed := true, flushHold := !progAllowed s } }
  let s := incCounter 2 (updateMode s)
  let s := { s with
    pw := { s.pw with pstate := .active }
    tr := { s.tr with wbacks := s.tr.wbacks.filter (fun x => x.2.dst.isSome) }
    mtr := { s.mtr with flushSet := List.range 8 } }
  padAllDrain (closeNow (updateAccept s))

/-- Both live epochs have committed (R259). -/
def flushComplete (s : State) : Bool := s.pw.phase == .flush && s.per.draining.isEmpty

/-- Table 07-5 step 6: E_d is saved and the clean loss record is written (R155, R258). -/
def finishFlush (s : State) : State := let s := saveEd s; { s with ck := { s.ck with clean := true } }

/-! ### Replay -/

/-- Replay begins: the age survey runs alongside it where the off-time is unknown (R166, R264); a log position or segment
recoverable from neither copy stops it (R265). -/
def execReplayStart (inp : ReplayInput) (s : State) : Host.Outcome State Fault Refusal :=
  .next (
    if s.pw.phase != .replay || s.ck.replaying then s
    else
      let s := { s with
        ck := { s.ck with replaying := true, failed := !inp.recoverable } }
      let s := startSurvey s
      if inp.recoverable then s else event .replayStopped 4 [] s)

/-- The kind of the loss record (Table 07-4): what the always-on flags and the parameter store say of the loss. -/
def lossKind (s : State) : Nat :=
  if s.ck.clean then 0
  else match s.ck.shutOff with
    | some 2 => 2
    | some _ => if s.ck.flushHold then 3 else 1
    | none =>
      if s.ck.flushed then (if s.ck.flushHold then 3 else 1)
      else if s.ck.aoLost then 4
      else if s.ck.formatted then 5
      else 0

/-- The last abandoned epoch (R266): the highest number found, at least the restart epoch plus one unless nothing was
lost, and never below a number already opened, which R241 keeps from being used again. -/
def lastAbandoned (s : State) (kind highest : Nat) : Nat :=
  if kind = 0 ∨ kind = 5 then max s.ck.lastCommit highest
  else max (max highest s.ck.lastOpen) (s.ck.lastCommit + 1)

/-- The loss record (R266), its event (R610) and DIRTY_LOSSES (Table 19-2). -/
def writeLoss (kind last : Nat) (s : State) : State :=
  let s := { s with ck := { s.ck with
    loss := ⟨kind, s.ck.lastCommit, last⟩, lossValid := true
    clean := false, flushed := false, flushHold := false, shutOff := none, aoLost := false, formatted := false } }
  if kind = 0 ∨ kind = 5 then event .lossInfo 4 [kind, s.ck.lastCommit, last] s
  else event .lossCritical 4 [kind, s.ck.lastCommit, last] (incCounter 3 s)

/-- The stripe's courses stand OPEN or FREE in the restored course table: Replay closes it (R262). -/
def leftOpen (s : State) (k : Nat) (x : Stripe) : Bool :=
  !x.reclaim && x.members.any (fun t =>
    let st := (courseOf s (courseKey t k)).state
    st == 0 || st == 1)

/-- Closes one stripe at its last passed round (R262), or carries it on as it stands in the course table. -/
def replayStripe (k : Nat) (s : State) : State :=
  match stripeAt s k with
  | none => s
  | some x =>
    let base : Stripe := { x with rounds := [], begun := x.passed, isOpen := false, emptyEp := s.ck.lastCommit, emptyGen := 0, checked := [] }
    if x.reclaim then setCourses k 5 x.members (modStripe k (fun _ => { base with resets := [] }) s)
    else if leftOpen s k x then
      setCourses k 2 x.members (modStripe k (fun _ => { base with failed := true, bad := [] }) s)
    else modStripe k (fun _ => base) s

/-- A stripe whose courses have left FREE but which nothing else describes is reset again. -/
def lostStripe (k : Nat) (s : State) : State :=
  if (stripeAt s k).isSome then s
  else
    let ts := (List.range 8).filter (fun t =>
      let st := (courseOf s (courseKey t k)).state
      st != 0 && st != 7)
    if ts.isEmpty then s
    else
      let gone := goneStacks s k
      let x : Stripe :=
        { stream := 2, fast := false, pStack := parityStack k gone.head?, absent := gone.head?, isOpen := false
          cls := 5, reclaim := true, emptyEp := s.ck.lastCommit }
      setCourses k 5 x.members { s with tr := { s.tr with stripes := Table.put s.tr.stripes k x } }

/-- Lines placed in a stripe that was left open are checked against EP0 at their first read (R263). -/
def markChecks (open_ : List Nat) (m : Maps) : Maps :=
  { m with eaves := m.eaves.map (fun x =>
    if open_.contains (stripeKey x.2.group x.2.part x.2.course) then (x.1, { x.2 with check := some (x.2.epoch % 2 == 1) })
    else x) }

/-- The maps are as at the restart epoch (R260): the log of later epochs, the write buffer and the dovetail entries of
abandoned epochs are gone (R239), and so is what was staged from them. -/
def restoreMaps (s : State) : State :=
  let open_ := (s.tr.stripes.filter (fun x => leftOpen { s with tr := { s.tr with maps := s.tr.image } } x.1 x.2)).map (·.1)
  { s with
    tr := { s.tr with
      maps := markChecks open_ s.tr.image, log := [], slots := [], relocs := [], wbacks := [], lookD := [], lookE := []
      pred := [], lostLines := [] }
    cache := { s.cache with dove := [] } }

/-- The log position that the root in force holds: of the root pages, the one with the highest sequence number (R256). -/
def rootPos (s : State) : Nat := (s.ck.rootPages.foldl (fun a x => if a.1 ≤ x.2.1 then x.2 else a) (0, 0)).2

/-- Replay ends (Table 07-6): maps restored, open stripes closed, the loss record written, the next epoch open, requests
served. The node's LSA shows it ready, and it sends READY or JOIN (R389, R391, R394). -/
def finishReplay (inp : ReplayInput) (s : State) : State :=
  let kind := lossKind s
  let last := lastAbandoned s kind inp.highest
  let s := restoreMaps s
  let s := { s with
    per := { s.per with
      committed := s.ck.lastCommit, openEpoch := (last + 1) % 2 ^ 48, openHolds := false, draining := []
      closePend := false, interval := s.per.intervalNx }
    ck := { s.ck with replaying := false, replayMs := min inp.millis 65535, lastOpen := last + 1, segment := 0 } }
  let s := { s with per := { s.per with extent := s.ck.logPos - rootPos s, sweepBytes := 0 } }
  let s := logOnly (last + 1) (.opened (last + 1)) s
  let s := (s.tr.stripes.map (·.1)).foldl (fun s k => replayStripe k s) s
  let s := ((s.tr.maps.course.map (·.1 % 1048576)).dedup).foldl (fun s k => lostStripe k s) s
  let s := (s.tr.stripes.map (·.1)).foldl (fun s k => reclaimIfEmpty k s) s
  let s := writeLoss kind last s
  let s := { s with
    pw := { s.pw with phase := .service }
    sgl := { s.sgl with holdLim := (s.sgl.holdLim.2, s.sgl.holdLim.2) } }
  let s := updateTop (updateAccept (updateDegraded s))
  if s.sgl.cfg.pool = 0 then s else sendJoin (sendReady (newLsa s))

/-- Replay completes, unless it has stopped (R264, R265). -/
def execReplayDone (inp : ReplayInput) (s : State) : Host.Outcome State Fault Refusal :=
  .next (if s.pw.phase == .replay && s.ck.replaying && !s.ck.failed then finishReplay inp s else s)

/-! ### Global Persistent Flush -/

/-- Phase 1 is acknowledged: no dirty line exists only in SRAM (R427). -/
def execGpfPhase1 (port : Port) (tag : Nat) (s : State) : Host.Outcome State Fault Refusal :=
  .next (emit (.gpf port 1 tag) s)

/-- Asks each remote home that received a write through the port since its last flush (R251): PFLUSH. -/
def askHomes (port : Port) : List Nat → State → List Nat × State
  | [], s => ([], s)
  | h :: hs, s =>
    let t := nextTx s
    let s := sendMsg { kind := .mgq, src := me t.2, dst := h, txid := t.1, mcode := 7
                       payload := [BitVec.ofNat 64 port.ix] } t.2
    let r := askHomes port hs s
    ((h * 4096 + t.1) :: r.1, r.2)

/-- Phase 2 makes a close request, asks the remote homes and waits (R251). -/
def execGpfPhase2 (port : Port) (tag : Nat) (s : State) : Host.Outcome State Fault Refusal :=
  .next (
    let target := closeTarget s
    let s := closeRequest port.sender s
    let r := askHomes port (s.port port).wrote s
    let s := r.2
    gpfCheck port (s.setPort port { s.port port with gpf := some ⟨tag, target, r.1⟩, wrote := [] }))

/-- A home receives PFLUSH (R251): it answers once the epoch open now has committed. The request raises a close, for an
epoch that holds nothing is closed by no other condition (DEDUCED, log 23). -/
def execPflush (src txid port : Nat) (s : State) : Host.Outcome State Fault Refusal :=
  .next (
    let t := closeTarget s
    pflushCheck { (closeEpoch s) with fab := { s.fab with pflush := s.fab.pflush ++ [(src, txid, port, t)] } })

/-- A home's answer to PFLUSH reaches the port that waits for it (R251). -/
def execPflushReply (src txid _epoch : Nat) (s : State) : Host.Outcome State Fault Refusal :=
  .next (
    let take := fun (p : Port) (s : State) =>
      match (s.port p).gpf with
      | none => s
      | some g => gpfCheck p (s.setPort p { s.port p with gpf := some { g with homes := g.homes.erase (src * 4096 + txid) } })
    take .b (take .a s))

end Sys2Proof.Machine
end

