-- ==== Sys2Proof/Machine/Ports.lean ====
section
/-! DEFINITION. Host ports: training, lane faults and loss, the back-invalidates' ends, window commits, clamps (13). -/

namespace Sys2Proof.Machine

/-! ### Back-invalidates and window commits -/

/-- A WIN_COMMIT command is of a port's table: a port's own, the sideband's by ARG[6] (R412, Table 15-5). -/
def commitOf (p : Port) (o : BgOp) : Bool :=
  match o.box with
  | .portA => p == .a
  | .portB => p == .b
  | .sideband => decide (o.arg / 64 % 2 = p.ix)
  | .fabric => false
  | .meter => false

/-- A window commit of a port is done (R418): its command is acknowledged, and the settings before it are forgotten. -/
def commitDone (p : Port) (s : State) : State :=
  let s := s.setPort p { s.port p with commit := none, before := [] }
  endOps 0x102 (commitOf p) 0 s

/-- A commit's back-invalidate of a line is over (R418); where the answer was to an earlier one that left the host a
holding, the line is invalidated now. -/
def commitNote (p : Port) (node dla : Nat) (s : State) : State :=
  match (s.port p).commit with
  | none => s
  | some ls =>
    if (Table.get? s.coh.bis (biKey p node dla)).isSome then s
    else if ls.contains (lkey node dla) && (hsfAt s node dla).of p != 0 then sendBi p .inv node dla s
    else
    let ls := ls.erase (lkey node dla)
    let s := s.setPort p { s.port p with commit := some ls }
    if ls.isEmpty then commitDone p s else s

/-- A back-invalidate ends with the host's answer (R335, R362). -/
def biEnd (p : Port) (node dla : Nat) (keepS : Bool) (s : State) : State :=
  commitNote p node dla (biOver p node dla (biAnswer p node dla keepS s))

/-- A host's BIRspS or BIRspI (R362). -/
def execBiRsp (port : Port) (node dla : Nat) (keepS : Bool) (s : State) : Host.Outcome State Fault Refusal :=
  .next (if (Table.get? s.coh.bis (biKey port node dla)).isSome then biEnd port node dla keepS s else s)

/-- A back-invalidate unanswered for 40 µs (R348). -/
def execBiTimeout (port : Port) (node dla : Nat) (s : State) : Host.Outcome State Fault Refusal :=
  .next (if (Table.get? s.coh.bis (biKey port node dla)).isSome then commitNote port node dla (biGone port node dla s)
    else s)

/-- The host addresses at which a window shows a pool address: one for each alias index (R413). -/
def windowHpas (w : Window) (pla : Nat) : List Nat :=
  if w.valid && decide (w.pbase ≤ pla) && decide (pla < w.pbase + w.size * 2 ^ 28) then
    let base := w.hbase + (pla - w.pbase)
    (List.range (2 ^ w.kbits)).map (fun i => aliasFold { w with hbase := i * 2 ^ w.kshift } base)
  else []

/-- An access to a host address loses by a commit: its range, RD or WR, or its PBASE or key ID changes (R418). -/
def loses (h : HostPort) (old : Table Window) (hpa : Nat) : Bool :=
  match decode { h with windows := old } hpa with
  | none => false
  | some d =>
    match decode h hpa with
    | none => true
    | some e => (d.rd && !e.rd) || (d.wr && !e.wr) || d.pla != e.pla || d.kid != e.kid || (d.kvalid && !e.kvalid)

/-- A line is affected by a commit of a port (R418). -/
def affected (h : HostPort) (old : Table Window) (key : Nat) : Bool :=
  let pla := key / 2 ^ 36 * 2 ^ 42 + key % 2 ^ 36 * 64
  ((old.map (fun x => windowHpas x.2 pla)).flatten).any (loses h old)

/-- The staged windows take effect (R16, R418): the port's holdings of affected lines are back-invalidated, those with a
back-invalidate on its way excepted, and the command waits for them. -/
def commitWindows (p : Port) (s : State) : State :=
  let h := s.port p
  let old := h.windows
  let new := h.staged.foldl (fun t x => if x.2.valid then Table.put t x.1 x.2 else Table.del t x.1) old
  let h := { h with windows := new, staged := [], gen := (h.gen + 1) % 2 ^ 32 }
  let held := (s.coh.hsf.filter (fun x => x.2.of p != 0 && affected h old x.1)).map (·.1)
  let s := s.setPort p { h with commit := some held, before := old }
  let s := held.foldl (fun s k =>
    if (Table.get? s.coh.bis (k * 2 + p.ix)).isSome then s else sendBi p .inv (k / 2 ^ 36) (k % 2 ^ 36) s) s
  if held.isEmpty then commitDone p s else s

/-! ### Loss of a port -/

/-- A request of a lost port completes without a response (R406). -/
def orphanWaiter (p : Port) (w : Waiter) : Waiter :=
  match w.asker with
  | .host q tag mv t hpa => if q = p && !orphaned tag then { w with asker := .host q (tag + 65536) mv t hpa } else w
  | .node _ _ => w
  | .dovetail => w
  | .prefetch => w
  | .sequencer => w
  | .cxl q op => if q = p && !orphaned op then { w with asker := .cxl q (op + 65536) } else w

/-- A request behind another in its MSHR, of a lost port. -/
def orphanEntry (p : Port) : Entry → Entry
  | .req w => .req (orphanWaiter p w)
  | .maint snd op => .maint snd op

/-- The requests a port has admitted complete inside the device, and their responses are discarded (R406). -/
def orphan (p : Port) (s : State) : State :=
  let f := orphanWaiter p
  { s with
    cache := { s.cache with mshrs := s.cache.mshrs.map (fun x =>
      (x.1, { x.2 with cur := x.2.cur.map f, queue := x.2.queue.map (orphanEntry p) })) }
    coh := { s.coh with px := s.coh.px.map (fun x =>
      (x.1, { x.2 with waits := x.2.waits.map f, wrts := x.2.wrts.map (fun y => (y.1, y.2.map f)), pullW := x.2.pullW.map f })) }
    fab := { s.fab with
      hold := s.fab.hold.map (fun x => (x.1, x.2.1, f x.2.2))
      rwq := s.fab.rwq.map (fun x => (x.1, x.2.1, f x.2.2)) }
    trb := { s.trb with marks := s.trb.marks.map (fun m =>
      if m.1 = p && !orphaned m.2 then (m.1, m.2 + 65536) else m) } }

/-- A port's holdings become I; a back-invalidate that waits for its host is over (R406). -/
def clearHoldings (p : Port) (s : State) : State :=
  let bis := (s.coh.bis.filter (fun x => x.1 % 2 = p.ix)).map (·.1 / 2)
  let s := bis.foldl (fun s k => biEnd p (k / 2 ^ 36) (k % 2 ^ 36) false s) s
  let held := (s.coh.hsf.filter (fun x => x.2.of p != 0)).map (·.1)
  held.foldl (fun s k =>
    let s := setHolding p (k / 2 ^ 36) (k % 2 ^ 36) 0 s
    if k / 2 ^ 36 = me s then s else pxGo 40 (k / 2 ^ 36) (k % 2 ^ 36) s) s

/-- PERST or loss of the link (R406): only that port is affected. Its link state is gone; its clamps are released and its
incarnation advances (R423, R467), and its SPDM session is over (PRESUMED, log 32); windows, aperture and the violation counter are kept. -/
def portDown (p : Port) (s : State) : State :=
  let s := clearHoldings p (orphan p s)
  let s := s.setPort p { s.port p with width := 0, rate := 0, loflit := false, ide := false, gpf := none, reqUsed := 0, rwdUsed := 0 }
  let s := s.setCxl p { s.cxl p with
    lsaWait := (s.cxl p).lsaWait.map (fun e => { e with answer := false }), actWait := false }
  let s := { s with sec := { s.sec with sessions := Table.del s.sec.sessions p.sender.ix } }
  advanceInc (if p = .a then .portA else .portB) (releaseAll p.sender s)

/-- PERST_A_N or PERST_B_N (R406): a conventional reset, at which a new aperture takes effect (R402). -/
def execPerstAssert (port : Port) (s : State) : Host.Outcome State Fault Refusal :=
  .next (
    let s := portDown port s
    event .perst port.ix [port.ix] (s.setPort port { s.port port with aperture := (s.port port).apNext }))

/-- A host link is lost (R406). -/
def linkLost (p : Port) (s : State) : State :=
  if (s.port p).width = 0 then s else event .hostLinkLost p.ix [p.ix] (portDown p s)

/-- Loss of a host link (R406). -/
def execHostLinkLoss (port : Port) (s : State) : Host.Outcome State Fault Refusal := .next (linkLost port s)

/-! ### Training and lane faults -/

/-- The lanes of a trial of 16 lanes: all, a half or a quarter that passes; with each its WIDTH code (R403, R404). -/
def laneSets : List (Nat × Nat) :=
  [(0xFFFF, 3), (0x00FF, 2), (0xFF00, 2), (0x000F, 1), (0x00F0, 1), (0x0F00, 1), (0xF000, 1)]

/-- The widest set of lanes that passes; of two halves or quarters, the lower (DESIGN CHOICE, log 28). -/
def bestLanes (pass : Nat) : Option (Nat × Nat) := laneSets.find? (fun x => x.1 &&& pass == x.1)

/-- A link below ×16 is recorded as narrower (Table 19-8). -/
def noteNarrow (p : Port) (was : Nat) (s : State) : State :=
  if (s.port p).width < 3 && (s.port p).width ≠ was then event .hostLinkNarrow p.ix [p.ix, (s.port p).width] s else s

/-- A host port trains at the widest and fastest setting that passes (R403, R404); no setting passing is a loss of the
link. A training of a link that was up is a retrain. -/
def execHostLinkTrain (port : Port) (lanes : Nat) (rate : Nat) (loflit : Bool) (s : State) :
    Host.Outcome State Fault Refusal :=
  .next (
    if !(s.pw.phase == .replay || s.pw.phase == .service || s.pw.phase == .flush) then s
    else
      match (if rate = 0 || 3 < rate then none else bestLanes lanes) with
      | none => linkLost port s
      | some (m, w) =>
        let h := s.port port
        noteNarrow port h.width (s.setPort port { h with
          width := w, rate := rate, loflit := loflit, faults := 0xFFFF - m
          retrains := if h.width = 0 then h.retrains else satInc 8 h.retrains }))

/-- The lanes a port keeps when one of those in use faults (R404): the half, then the quarter, without it. -/
def withoutLane (h : HostPort) (lane : Nat) : Option (Nat × Nat) :=
  let used := 0xFFFF - h.faults % 65536
  laneSets.find? (fun x => x.2 + 1 = h.width && x.1 &&& used == x.1 && x.1 / 2 ^ lane % 2 == 0)

/-- A host lane faults (R404): the port retrains on lanes without it, its requests held meanwhile (Table 06-6); at ×4 no
narrower width is left, and the link is lost. -/
def execHostLaneFault (port : Port) (lane : Nat) (s : State) : Host.Outcome State Fault Refusal :=
  .next (
    let h := s.port port
    if h.width = 0 || 16 ≤ lane || h.faults / 2 ^ lane % 2 = 1 then s
    else
      match withoutLane h lane with
      | none => linkLost port s
      | some (m, w) =>
        beginFault (.hostLane port) (noteNarrow port h.width (s.setPort port { h with
          width := w, faults := 0xFFFF - m, retrains := satInc 8 h.retrains })))

/-! ### Clamps -/

/-- CLP_n as a sender reads it (R433). -/
def clampView (snd : Sender) (n : Nat) (s : State) : Word :=
  let c := nthD s.mb.clamps n {}
  BitVec.ofNat 64 (field 0 3 c.owner + flag 3 (holds snd n s) + flag 4 c.broken)

/-- The sender with a number of R608. -/
def senderOf : Nat → Sender
  | 0 => .portA
  | 1 => .portB
  | 2 => .sideband
  | _ => .mp

/-- The first reader at or after the rotating pointer (R424). -/
def clampWinner (ptr : Nat) (readers : List Sender) : Option Nat :=
  ((List.range 4).map (fun i => (ptr + i) % 4)).find? (fun i => readers.any (fun r => r.ix == i))

/-- A read of CLP_n: a free clamp goes to the winner (R422, R424). -/
def acquire (n : Nat) (readers : List Sender) (s : State) : State :=
  let c := nthD s.mb.clamps n {}
  match clampWinner c.ptr readers with
  | none => s
  | some i => if c.owner = 0 then setClamp n { c with owner := i + 1, ptr := (i + 1) % 4 } s else s

/-- A read of CLP_n by one or more senders in the same cycle (R422, R424); a read of the upper half acquires nothing. -/
def execClampRead (n : Nat) (readers : List Sender) (upper : Bool) (s : State) : Host.Outcome State Fault Refusal :=
  .next (
    if upper then readers.foldl (fun s r => emit (.regData r 0) s) s
    else
      let s := acquire n readers s
      readers.foldl (fun s r => emit (.regData r (clampView r n s)) s) s)

/-- REL from the holder releases the clamp; from any other sender it is a violation (R423). -/
def execClampRelease (snd : Sender) (n : Nat) (s : State) : Host.Outcome State Fault Refusal :=
  .next (if holds snd n s then releaseClamp n false s else noRight snd true (0x2000 + 8 * n) s)

/-- FORCE from the sideband releases a held clamp; from a port or the MP it is an access without right (R423). -/
def execClampForce (snd : Sender) (n : Nat) (s : State) : Host.Outcome State Fault Refusal :=
  .next (
    if snd = .sideband then (if (nthD s.mb.clamps n {}).owner = 0 then s else releaseClamp n true s)
    else noRight snd true (0x2000 + 8 * n) s)

/-- A reset of the sideband's bus or of its MCTP endpoint advances its incarnation (R467, R476). -/
def execSidebandBusReset (s : State) : Host.Outcome State Fault Refusal := .next (advanceInc .sideband s)

end Sys2Proof.Machine
end

