-- ==== Sys2Proof/Machine/Keys.lean ====
section
/-! DEFINITION. Keys, retirement, the re-encryption sequencer, SPDM sessions and trust stores, IDE, sanitize and format
(14, 15). -/

namespace Sys2Proof.Machine

/-! ### The sequencer's walks -/

/-- The first line from a device line on that is stored: a write-buffer slot, an eaves entry or a page's dense copy. Lines
never written hold zero sectors, which the sequencer skips (R446). -/
def nextStored (s : State) (from_ : Nat) : Option Nat :=
  let least := fun (a : Option Nat) (d : Nat) =>
    if d < from_ then a
    else match a with
      | none => some d
      | some b => some (min b d)
  let a := (s.tr.slots.map (·.dla)).foldl least none
  let a := (s.tr.maps.eaves.map (·.1)).foldl least a
  (s.tr.maps.dense.filter (fun x => x.2.valid)).foldl (fun a x =>
    if from_ < x.1 * 64 + 64 then least a (max from_ (x.1 * 64)) else a) a

/-- A sequencer's write is still on its way at a line of the segment. -/
def seqBusy (s : State) (seg : Nat) : Bool :=
  s.cache.mshrs.any (fun x => x.1 / 2 ^ 36 == me s && segOf (x.1 % 2 ^ 36) == seg && x.2.cur.any (fun w => w.asker == .sequencer))

/-- Sends the sequencer's write of a line to its home (R446). -/
def seqWrite (dla kid : Nat) (d : Line) (poison : Bool) (s : State) : State :=
  homeRequest dla { kind := .write, asker := .sequencer, kid := kid, cls := 3, data := d, mask := fullMask, poison := poison } s

/-- Acts on one line; none while the line is in use, which the sequencer waits for. -/
def seqLine (dla : Nat) (act : SeqAct) (s : State) : Option State :=
  if (mshrAt s (me s) dla).isSome || (Table.get? s.cache.dove dla).isSome then none
  else
    match act with
    | .pass => some s
    | .left => some s
    | .write kid d => some (seqWrite dla kid d false s)
    | .poison => some (seqWrite dla 0 0 true s)

/-- The walk's pointer, with the position the open epoch reaches (R446, R449). -/
def setPos (seg pos : Nat) (s : State) : State :=
  { s with sec := { s.sec with walks := s.sec.walks.map (fun w =>
    if w.seg = seg then { w with pos := pos, marks := Table.put w.marks s.per.openEpoch pos } else w) } }

/-- A walk's next line (R446). -/
def walkStep (w : Walk) (s : State) : State :=
  let base := w.seg * 2 ^ 24
  match nextStored s (base + w.pos) with
  | none => setPos w.seg (2 ^ 24) s
  | some d =>
    if base + 2 ^ 24 ≤ d then setPos w.seg (2 ^ 24) s
    else
      match seqLine d (seqAct s d) s with
      | none => s
      | some s => setPos w.seg (d - base + 1) s

/-- Lines of a re-key's ranges. -/
def rekeyLines (rs : List (Nat × Nat)) : Nat := rs.foldl (fun a r => a + r.2 * 2 ^ 24) 0

/-- The device line at a position of a re-key's ranges, with the first position past its range. -/
def rekeyAt : List (Nat × Nat) → Nat → Nat → Option (Nat × Nat)
  | [], _, _ => none
  | (f, n) :: rs, before, pos =>
    if pos < before + n * 2 ^ 24 then some (f * 2 ^ 24 + (pos - before), before + n * 2 ^ 24)
    else rekeyAt rs (before + n * 2 ^ 24) pos

/-- Step 2 of a retirement (R457): lines whose tag names the key ID go, without install; proxy copies are released. -/
def invalidateKid (kid : Nat) (s : State) : State :=
  let copies := (s.coh.px.filter (fun x => (copyOf s (x.1 / 2 ^ 36) (x.1 % 2 ^ 36)).any (fun c => c.2 == kid))).map (·.1)
  let s := { s with
    cache := { s.cache with ways := s.cache.ways.filter (fun x => !(x.2.node == me s && x.2.kid == kid)) }
    dram := { s.dram with cache := s.dram.cache.filter (fun x => x.2.kid != kid) } }
  copies.foldl (fun s k =>
    pxGo 40 (k / 2 ^ 36) (k % 2 ^ 36) (modPx (k / 2 ^ 36) (k % 2 ^ 36) (fun x =>
      if x.st.isSome then { x with leave := true } else x) s)) s

/-- SEC_REKEY's PROGRESS (R466). -/
def rekeyProgress (k : Rekey) : Nat := min 65535 (k.pos * 65536 / max 1 (rekeyLines k.ranges))

/-- The re-key's pointer; at its end steps 2 to 4 of R457 follow (R459). -/
def setRekey (k : Rekey) (skip : Bool) (s : State) : State :=
  let r := s.sec.rekeyReg
  let s := { s with sec := { s.sec with
    rekey := some k
    rekeyReg := (r.1, r.2.1, rekeyProgress k, if skip then satInc 24 r.2.2.2 else r.2.2.2) } }
  if rekeyLines k.ranges ≤ k.pos then invalidateKid k.source { s with sec := { s.sec with rekey := none } } else s

/-- The re-key's next line (R459). -/
def rekeyStep (k : Rekey) (s : State) : State :=
  match rekeyAt k.ranges 0 k.pos with
  | none => setRekey { k with pos := rekeyLines k.ranges } false s
  | some (d0, past) =>
    let last := d0 + (past - k.pos)
    match nextStored s d0 with
    | none => setRekey { k with pos := past } false s
    | some d =>
      if last ≤ d then setRekey { k with pos := past } false s
      else
        match seqLine d (rekeyAct s d) s with
        | none => s
        | some t => setRekey { k with pos := k.pos + (d - d0) + 1 } (rekeyAct s d == .left) t

/-- The sequencer converts the next line of a segment (R446), or of the re-key whose range covers it (R459; DEDUCED,
log 30). -/
def execReencStep (seg : Nat) (s : State) : Host.Outcome State Fault Refusal :=
  .next (
    if s.pw.phase != .service || seqBusy s seg then s
    else
      match s.sec.walks.find? (fun w => w.seg == seg && decide (w.pos < 2 ^ 24)) with
      | some w => walkStep w s
      | none =>
        match s.sec.rekey with
        | none => s
        | some k =>
          match rekeyAt k.ranges 0 k.pos with
          | some (d, _) => if segOf d = seg then rekeyStep k s else s
          | none => rekeyStep k s)

/-- A walk has ended, and the epoch of the sequencer's last write has committed (R448). -/
def walkDone (s : State) (w : Walk) : Bool :=
  decide (2 ^ 24 ≤ w.pos) && !seqBusy s w.seg && decide (w.epoch ≤ s.per.committed)

/-- The segment's new generation is recorded, and PIN is cleared on its pinned line (R448). -/
def execReencDone (seg : Nat) (s : State) : Host.Outcome State Fault Refusal :=
  .next (match s.sec.walks.find? (fun w => w.seg == seg) with
    | none => s
    | some w =>
      if !walkDone s w then s
      else
        { s with
          sec := { s.sec with
            gens := Table.put s.sec.gens seg (w.gen + 1), walks := s.sec.walks.filter (fun x => x.seg != seg)
            reenc := (s.sec.reenc.1, (s.sec.reenc.2 + 1) % 2 ^ 32) }
          cache := { s.cache with ways := s.cache.ways.map (fun x =>
            if x.2.node = me s ∧ x.2.dla = w.pinned then (x.1, { x.2 with pin := false }) else x) } })

/-- The first queued walk starts when fewer than 16 run (R445). -/
def execReencQueueStart (s : State) : Host.Outcome State Fault Refusal :=
  .next (match s.sec.queued with
    | [] => s
    | w :: ws =>
      if 16 ≤ s.sec.walks.length then s
      else { s with sec := { s.sec with walks := s.sec.walks ++ [w], queued := ws, reenc := (w.seg, s.sec.reenc.2) } })

/-! ### SPDM and trust -/

/-- A slot of the key-management trust store holds a root. -/
def kmRoot (s : State) (slot : Nat) : Bool := (Table.get? s.sec.trustKm slot).isSome

/-- A sender's session may carry key commands (R454): mutually authenticated, its certificate chained to an installed
root. -/
def keySession (s : State) (snd : Sender) : Bool :=
  match Table.get? s.sec.sessions snd.ix with
  | some x => x.mutualAuth && kmRoot s x.root
  | none => false

/-- While the key-management store is empty, TRUST_ADD to its slot 0 is accepted from any mutually authenticated session
on the sideband (R483). -/
def firstRoot (s : State) (snd : Sender) (arg : Nat) : Bool :=
  snd == .sideband && s.sec.trustKm.isEmpty && decide (arg % 16 = 0)
    && (Table.get? s.sec.sessions snd.ix).any (fun x => x.mutualAuth)

/-- A requester establishes or ends a secured session (R454). `root` is the trust-store slot its certificate chains to. -/
def execSecuredSpdmSession (snd : Sender) (establish mutualAuth : Bool) (root : Nat) (s : State) :
    Host.Outcome State Fault Refusal :=
  .next (
    let t := s.sec.sessions
    let t := if establish then Table.put t snd.ix ⟨mutualAuth, root⟩ else Table.del t snd.ix
    if snd = .mp then s else { s with sec := { s.sec with sessions := t } })

/-- Belvy runs and takes commands (R470, R498). -/
def mpRuns (s : State) : Bool :=
  s.mb.mpReady && (s.pw.phase == .boot || s.pw.phase == .replay || s.pw.phase == .service || s.pw.phase == .flush)

/-- Commands other than format, sanitize and return are not accepted: Replay has stopped (R265); or, for a command with a
clamp, the device has been prepared for return (R486). -/
def barred (s : State) (clamped : Bool) : Bool := s.ck.failed || (s.pw.returnDone && clamped)

/-- The boxes of a sender that carries a session. -/
def boxFor : Sender → BoxId
  | .portA => .portA
  | .portB => .portB
  | .sideband => .sideband
  | .mp => .meter

/-- TAG of a sender's message (R471). -/
def tagOf (s : State) (snd : Sender) (op : Nat) : Nat := op % 4096 + (boxOf s (boxFor snd)).inc % 16 * 4096

/-- The response of a key command (R454): the acknowledgement word of R471 and reply words. -/
def spdmReply (snd : Sender) (op rc : Nat) (ws : List Word) (s : State) : State :=
  emit (.spdm snd (BitVec.ofNat 64 (flag 0 true + field 16 16 rc + field 32 16 (tagOf s snd op))) ws) s

/-- A key command's first checks (R454, R482, R486): session, mode, clamp 8, unused bits of the argument below
ARG[43:38], and length; the return code of the first that fails. -/
def keyCheck (snd : Sender) (arg used : Nat) (clamped : Bool) (payload : List Word) (lo hi : Nat) (trusted : Bool)
    (s : State) : Option Nat :=
  if !trusted then some 3
  else if barred s clamped then some 9
  else if clamped && !holds snd 8 s then some 3
  else if (2 ^ used ≤ arg % 2 ^ 38) || (hi = 0 && arg / 2 ^ 38 % 64 ≠ 0) then some 4
  else if payload.length < lo || hi < payload.length || arg / 2 ^ 38 % 64 ≠ payload.length then some 11
  else none

/-- Runs a key command: its first checks, then its body, which answers a return code, reply words and the state. -/
def keyCommand (snd : Sender) (op : Nat) (pre : Option Nat) (body : State → Nat × List Word × State) (s : State) : State :=
  if !mpRuns s || snd == .mp then s
  else
    match pre with
    | some rc => spdmReply snd op rc [] s
    | none =>
      let r := body s
      spdmReply snd op r.1 r.2.1 r.2.2

/-- The material of a KEY_INSTALL payload (R435). -/
def materialOf (ws : List Word) : BitVec 512 :=
  BitVec.ofNat 512 ((ws.take 8).zipIdx.foldl (fun a x => a + x.1.toNat * 2 ^ (64 * x.2)) 0)

/-- KEY_INSTALL (R455). -/
def execKeyInstall (snd : Sender) (arg : Nat) (payload : List Word) (s : State) : Host.Outcome State Fault Refusal :=
  .next (keyCommand snd 0x200 (keyCheck snd arg 13 true payload 9 9 (keySession s snd) s) (fun s =>
    let kid := arg % 4096
    let m := materialOf payload
    let k := nthD payload 8 0
    if (keyOf s kid).isSome then (5, [], s)
    else if k.toNat / 2 ^ 32 ≠ 0 then (4, [], s)
    else if kcvOf m ≠ k.setWidth 32 then (6, [], s)
    else
      let slot : KeySlot := { st := .installed, integrity := decide (arg / 4096 % 2 = 1), material := m, kcv := kcvOf m }
      (0, [], { s with sec := { s.sec with kids := Table.put s.sec.kids kid slot } })) s)

/-- The word KEY_QUERY answers (R455). -/
def keyWord (s : State) (kid : Nat) : Word :=
  match keyOf s kid with
  | none => 0
  | some k =>
    let st := match k.st with
      | .installed => 1
      | .retiring => 2
      | .rekeying => 3
    BitVec.ofNat 64 (field 0 2 st + flag 2 k.integrity + field 32 32 k.kcv.toNat)

/-- KEY_QUERY (R455). -/
def execKeyQuery (snd : Sender) (arg : Nat) (s : State) : Host.Outcome State Fault Refusal :=
  .next (keyCommand snd 0x201 (keyCheck snd arg 12 false [] 0 0 (keySession s snd) s) (fun s =>
    (0, [keyWord s (arg % 4096)], s)) s)

/-- A background key command is accepted: its completion goes to the sender's outbox (R454). -/
def openKeyOp (snd : Sender) (op arg : Nat) (s : State) : State :=
  { s with mb := { s.mb with open_ := s.mb.open_ ++
    [{ op := op, box := (boxFor snd), tag := tagOf s snd op, arg := arg, accepted := true }] } }

/-- A key ID leaves INSTALLED (Table 14-3). -/
def setKeySt (kid : Nat) (st : KeySt) (cmd : Option (Sender × Nat)) (s : State) : State :=
  { s with sec := { s.sec with kids := Table.modify s.sec.kids kid (fun k => { k with st := st, cmd := cmd }) } }

/-- A retirement without re-key begins (R457). -/
def retire (kid : Nat) (cmd : Option (Sender × Nat)) (s : State) : State := invalidateKid kid (setKeySt kid .retiring cmd s)

/-- KEY_RETIRE (R455, R457). -/
def execKeyRetire (snd : Sender) (arg : Nat) (s : State) : Host.Outcome State Fault Refusal :=
  .next (keyCommand snd 0x202 (keyCheck snd arg 12 true [] 0 0 (keySession s snd) s) (fun s =>
    match keyOf s (arg % 4096) with
    | none => (5, [], s)
    | some k =>
      if k.st ≠ .installed then (2, [], s)
      else (1, [], openKeyOp snd 0x202 arg (retire (arg % 4096) (some (snd, tagOf s snd 0x202)) s))) s)

/-- A range word of KEY_REKEY: first GiB in [31:0], GiB in [63:32] (DESIGN CHOICE, log 31). -/
def rangeOf (w : Word) : Nat × Nat := (bitsOf w 0 32, bitsOf w 32 32)

/-- A range lies within the device's 4,096 GiB. -/
def rangeOk (r : Nat × Nat) : Bool := decide (0 < r.2) && decide (r.1 + r.2 ≤ 4096)

/-- KEY_REKEY (R455, R459); while another re-key runs it is BUSY. -/
def execKeyRekey (snd : Sender) (arg : Nat) (payload : List Word) (s : State) : Host.Outcome State Fault Refusal :=
  .next (keyCommand snd 0x203 (keyCheck snd arg 24 true payload 1 16 (keySession s snd) s) (fun s =>
    let src := arg % 4096
    let dst := arg / 4096 % 4096
    let rs := payload.map rangeOf
    match keyOf s src, keyOf s dst with
    | none, _ => (5, [], s)
    | some k, t =>
      if k.st ≠ .installed then (2, [], s)
      else if src = dst || !t.any (fun t => t.st == .installed && t.integrity == k.integrity) then (5, [], s)
      else if !rs.all rangeOk then (4, [], s)
      else if s.sec.rekey.isSome then (2, [], s)
      else
        let s := setKeySt src .rekeying (some (snd, tagOf s snd 0x203)) s
        (1, [], openKeyOp snd 0x203 arg { s with sec := { s.sec with
          rekey := some { source := src, target := dst, ranges := rs }, rekeyReg := (src, dst, 0, 0) } })) s)

/-- Requests admitted under a key ID have not all completed (R457). -/
def kidInUse (s : State) (kid : Nat) : Bool :=
  let mine := fun (w : Waiter) => w.kid == kid
  s.cache.mshrs.any (fun x => x.2.cur.any mine || x.2.queue.any (fun e => match e with
      | .req w => mine w
      | .maint _ _ => false))
    || s.cache.dove.any (fun x => x.2.kid == kid)
    || s.coh.px.any (fun x => x.2.waits.any mine || x.2.wrts.any (fun y => y.2.any mine) || x.2.pullW.any mine
      || (x.2.txid.isSome && x.2.kid == kid))
    || s.fab.hold.any (fun x => mine x.2.2) || s.fab.rwq.any (fun x => mine x.2.2)

/-- Steps 3 and 4 of R457 are not over: a write-buffer slot written under the key ID is not released, or a request
admitted under it has not completed. -/
def retiring (s : State) (kid : Nat) : Bool := kidInUse s kid || s.tr.slots.any (fun x => x.kid == kid)

/-- PREPARE_RETURN is complete once its retirements are (R486): RETURN is set, and it is acknowledged. -/
def returnCheck (s : State) : State :=
  if opOpen s 0xF00 && s.sec.kids.all (fun k => k.2.st == .installed) then
    endOps 0xF00 (fun _ => true) 0 { s with pw := { s.pw with returnDone := true } }
  else s

/-- A retirement completes (R457): the material is zeroised, the key ID EMPTY, and the completion posted (R454). -/
def execKeyRetireDone (kid : Nat) (s : State) : Host.Outcome State Fault Refusal :=
  .next (match keyOf s kid with
    | none => s
    | some k =>
      if k.st = .installed || retiring s kid || s.sec.rekey.any (fun r => r.source == kid) then s
      else
        let s := invalidateKid kid s
        let s := { s with sec := { s.sec with kids := Table.del s.sec.kids kid } }
        returnCheck (endOps 0x203 (fun o => o.arg % 4096 == kid) 0 (endOps 0x202 (fun o => o.arg % 4096 == kid) 0 s)))

/-- Sessions whose certificate chained to a slot's root no longer do once the slot changes (DESIGN CHOICE, log 32). -/
def dropRoot (slot : Nat) (s : State) : State :=
  { s with sec := { s.sec with sessions := s.sec.sessions.map (fun x => if x.2.root = slot then (x.1, { x.2 with root := 8 }) else x) } }

/-- TRUST_ADD (R461, R483). -/
def execTrustAdd (snd : Sender) (arg : Nat) (payload : List Word) (s : State) : Host.Outcome State Fault Refusal :=
  .next (keyCommand snd 0x204 (keyCheck snd arg 4 true payload 1 63 (keySession s snd || firstRoot s snd arg) s) (fun s =>
    let slot := arg / 2 % 8
    if arg % 2 = 0 then (0, [], dropRoot slot { s with sec := { s.sec with trustKm := Table.put s.sec.trustKm slot payload } })
    else (0, [], { s with sec := { s.sec with trustPool := Table.put s.sec.trustPool slot payload } })) s)

/-- TRUST_REMOVE removes the root. -/
def execTrustRemove (snd : Sender) (arg : Nat) (s : State) : Host.Outcome State Fault Refusal :=
  .next (keyCommand snd 0x205 (keyCheck snd arg 4 true [] 0 0 (keySession s snd) s) (fun s =>
    let slot := arg / 2 % 8
    if arg % 2 = 0 then (0, [], dropRoot slot { s with sec := { s.sec with trustKm := Table.del s.sec.trustKm slot } })
    else (0, [], { s with sec := { s.sec with trustPool := Table.del s.sec.trustPool slot } })) s)

/-! ### IDE -/

/-- IDE reports an integrity failure (R463): the stream is insecure, the alarm is raised, the port is lost until IDE is
established again. -/
def execIdeIntegrityFailure (port : Port) (s : State) : Host.Outcome State Fault Refusal :=
  .next (
    if !(s.port port).ide then s
    else
      let s := alarm 2 (event .ideIntegrity 10 [port.ix] (s.setPort port { s.port port with insecure := true }))
      if (s.port port).width = 0 then portDown port s else linkLost port s)

/-- IDE_KM in a secured session of the port sets the stream's keys: it establishes IDE, or refreshes its keys (R460,
R463). -/
def execIdeKeyRefresh (port : Port) (s : State) : Host.Outcome State Fault Refusal :=
  .next (
    if (Table.get? s.sec.sessions port.sender.ix).isSome && decide (0 < (s.port port).width) then
      s.setPort port { s.port port with ide := true, insecure := false }
    else s)

/-- 2^32 flits or an hour have passed without a refresh: the port goes on, and a Warning event is recorded (R460). -/
def execIdeKeyExpire (port : Port) (s : State) : Host.Outcome State Fault Refusal :=
  .next (if (s.port port).ide then event .ideNotRefreshed port.ix [port.ix] s else s)

/-! ### Format and sanitize -/

/-- Maps formatted empty (R482, R464): course table, wear and retirements stay; every stripe is to be reclaimed. -/
def formatMaps (s : State) : State :=
  let bare := fun (m : Maps) => { m with dense := [], eaves := [], age := [] }
  let s := { s with
    tr := { s.tr with
      maps := bare s.tr.maps, log := [], lookD := [], lookE := [], lostLines := [], hints := [], pred := []
      slots := [], relocs := [], wbacks := [] }
    cache := { s.cache with dove := [], ways := s.cache.ways.filter (fun x => x.2.node != me s) }
    dram := { s.dram with cache := [] } }
  let live := (s.tr.stripes.filter (fun x => !x.2.reclaim)).map (·.1)
  let s := live.foldl (fun s k =>
    toReclaim k (releaseQ k (modStripe k (fun x => { x with emptyEp := 0, emptyGen := s.sched.rgen }) s))) s
  let all := s.tr.stripes.map (fun x => (x.1, { x.2 with emptyEp := 0 }))
  let s := { s with tr := { s.tr with stripes := all, log := [] } }
  { s with tr := { s.tr with image := s.tr.maps } }

/-- Requests are in progress, or reads and relocations that answer to the maps: an erasure completes after them. -/
def linesInUse (s : State) : Bool :=
  !s.cache.mshrs.isEmpty || !s.cache.dove.isEmpty || !s.sched.reads.isEmpty

/-- The spare margin's level without Read-Only (R150, R151). -/
def leaveReadOnly (s : State) : State :=
  let s := { s with tr := { s.tr with readOnly := false } }
  updateTop (updateDegraded (updateMode { s with tr := { s.tr with spareLvl := spareLevel s } }))

/-- FORMAT completes (R482, R151, R241): maps empty, epochs from 1, Read-Only ends; FORMATS counts it, and DIRTY_LOSSES is
recorded (Table 19-2). What a register counts since format starts again. A format that repairs a stopped Replay leaves the
device to serve requests once it has started again (R265). -/
def formatAll (s : State) : State :=
  let s := incCounter 5 (formatMaps s)
  leaveReadOnly { s with
    per := { s.per with openEpoch := 1, openHolds := false, draining := [], closePend := false, committed := 0, extent := 0
                        sweepBytes := 0 }
    ck := { s.ck with lastCommit := 0, lastOpen := 1, segment := 0, sweeps := 0, logPos := 0, rootPages := []
                      failed := false, replaying := s.ck.replaying && !s.ck.failed
                      formatted := true, formatting := false }
    prot := { s.prot with passes := 0, progress := 0, passRows := [] }
    portA := { s.portA with gen := 0 }, portB := { s.portB with gen := 0 }
    sec := { s.sec with reenc := (s.sec.reenc.1, 0) }
    pst := { s.pst with dirtyAtFormat := counter 3 s } }

/-- The format's command completes. -/
def execFormatDone (s : State) : Host.Outcome State Fault Refusal :=
  .next (if s.ck.formatting && !linesInUse s then endOps 0x403 (fun _ => true) 0 (formatAll s) else s)

/-- A sanitize starts (R464): every key ID is EMPTY, which completes the retirements in progress (Table 14-3), and no
memory request is served until its end. -/
def startSanitize (kind : Nat) (s : State) : State :=
  let s := endOps 0x203 (fun _ => true) 0 (endOps 0x202 (fun _ => true) 0 s)
  { s with sec := { s.sec with sanitize := kind, kids := [], rekey := none, walks := [], queued := [] } }

/-- An overwritten stripe: each of its courses has been reset twice (Table 14-4), so it is FREE again, or RETIRED as its
reset would leave it (R115). -/
def overwriteStripe (k : Nat) (s : State) : State :=
  match stripeAt s k with
  | none => s
  | some x =>
    x.members.foldl (fun s t =>
        finishReset k t true (putCourse (courseKey t k) { courseOf s (courseKey t k) with wear := (courseOf s (courseKey t k)).wear + 1 } s))
      (modStripe k (fun y => { y with resets := y.members }) s)

/-- The overwrite's pass over the courses that hold anything (R464); the wear of a course that was FREE is left as it
was (log 115). -/
def overwriteAll (s : State) : State :=
  let s := (s.tr.stripes.map (·.1)).foldl (fun s k => overwriteStripe k s) s
  { s with tr := { s.tr with log := [], image := s.tr.maps } }

/-- After a sanitize every segment has a lease of 2^22, recorded in the lease log (R440, R441). -/
def leasedAfresh (x : Sec) : Sec := recordLeases ((List.range 4096).map (fun g => (g, 2 ^ 22))) x

/-- A sanitize completes (Table 14-4, R465): a new media salt, maps empty, generations and counters 0 and leased afresh,
every epoch number kept; both its commands and a CXL one complete. -/
def sanitizeAll (s : State) : State :=
  let kind := s.sec.sanitize
  let s := incCounter 6 (formatMaps s)
  let s := if kind = 2 then overwriteAll s else s
  let log := leasedAfresh { s.sec with leases := [], leasing := [] }
  let s := { s with
    sec := { s.sec with
      sanitize := 0, sanLast := kind, sanCount := (s.sec.sanCount + 1) % 2 ^ 32, salt := s.sec.salt + 1
      saltGen := (s.sec.saltGen + 1) % 2 ^ 32, kids := [], gens := [], ctrs := [], leases := [], leasing := []
      ctrBase := 1, leaseBase := 2 ^ 22, leaseRecs := log.leaseRecs, leaseLog := log.leaseLog }
    ck := { s.ck with failed := false, replaying := s.ck.replaying && !s.ck.failed } }
  if s.tr.spare < spareFormat then leaveReadOnly s else s

/-- SANITIZE_DONE (R465). -/
def execSanitizeDone (s : State) : Host.Outcome State Fault Refusal :=
  .next (
    if s.sec.sanitize = 0 || linesInUse s then s
    else
      let s := endOps 0x404 (fun _ => true) 0 (sanitizeAll s)
      let mark := fun (c : CxlBox) => match c.bg with
        | some (0x4400, _) => { c with bg := some (0x4400, true) }
        | some (0x4401, _) => { c with bg := some (0x4401, true) }
        | b => { c with bg := b }
      { s with cxlA := mark s.cxlA, cxlB := mark s.cxlB })

end Sys2Proof.Machine
end

