-- ==== Sys2Proof/Machine/Meter.lean ====
section
/-! DEFINITION. The metering partition: samples, intervals, usage feed, relayed reads and the service target (18). -/

namespace Sys2Proof.Machine

/-- The partition runs: VAUX is present, and the state saved at its loss has been resumed (R542, R548). -/
def meterRuns (s : State) : Bool := s.pw.phase != .off && !s.mtr.saved

/-- Replaces the partition's state. -/
def setMeter (m : Meter) (s : State) : State := { s with mtr := m }

/-- FW_CRC: the CRC-32 of the active image (R556). -/
def meterCrc (m : Meter) : Nat := (crc32 (m.image.flatMap (fun w => bytesOf w.toNat 8))).toNat

/-- A flag of the open interval is set (Table 18-4). -/
def setFlag (bit : Nat) (on : Bool) (flags : Nat) : Nat :=
  if on && flags / 2 ^ bit % 2 == 0 then flags + 2 ^ bit else flags

/-- A METER_NOTE word is sent (R544): the partition posts its notices in order, each when the Meter inbox is free; the words
behind the head wait in the partition (DESIGN CHOICE, log 33). -/
def notice (n : Nat) (s : State) : State :=
  modBox .meter (fun x =>
    let w := messageWord 4 x.inc 0x9F0 n
    { x with inbox := x.inbox ++ [(w, 0, 0)], inWord := if x.inbox.isEmpty then w else x.inWord
             ack := x.ack && !x.inbox.isEmpty }) s

/-! ### Energy and intervals -/

/-- 1 mWh in the unit of `frac`: 3.6 × 10^6 µJ at 4,000 samples in a second. -/
def milliwattHour : Nat := 14400000000

/-- One sample (R545, R546): the product is integrated; the flags VIN_ABSENT, OVER and UNDER follow it; at the 4,000th of
a second POWER is its mean and a partition second has passed. -/
def sampled (mv ma : Nat) (m : Meter) : Meter :=
  let p := mv * ma
  let f := m.frac + p
  let flags := setFlag 0 (decide (mv < 1000)) m.flags
  let flags := setFlag 4 (decide (250000000 < p)) flags
  let flags := setFlag 5 (decide (p < 10000000)) flags
  let m := { m with
    cum := (m.cum + f / milliwattHour) % 2 ^ 64, frac := f % milliwattHour, flags := flags, vinOn := decide (1000 ≤ mv) }
  if m.acc.2 + 1 < 4000 then { m with acc := (m.acc.1 + p, m.acc.2 + 1) }
  else { m with acc := (0, 0), power := (m.acc.1 + p) / 4000000, psec := (m.psec + 1) % 2 ^ 32 }

/-- A pair of samples of VIN and the shunt (R545). -/
def execMeterSample (millivolts milliamps : Nat) (s : State) : Host.Outcome State Fault Refusal :=
  .next (if meterRuns s then setMeter (sampled millivolts milliamps s.mtr) s else s)

/-- The record of the open interval as it closes, with further flags (R554). -/
def closingRecord (m : Meter) (flags : Nat) : IntervalRec :=
  { number := m.interval, flags := flags, start := m.start, length := m.length
    energy := (m.cum + 2 ^ 64 - m.cumPrev) % 2 ^ 32, cum := m.cum, audit := m.audit
    fwCrc := meterCrc m, fwVer := m.fwVer, sealed := m.sealed
    tenants := some (m.tenants.map (fun x => (x.1, x.2.1, x.2.2.1, x.2.2.2.1))) }

/-- Keeps the newest 8,192 interval records and the newest 64 tenant records (R549). -/
def keepRecords (rs : List IntervalRec) : List IntervalRec :=
  (rs.take 64) ++ ((rs.drop 64).take 8128).map (fun r => { r with tenants := none })

/-- Closes the open interval with a further flag and opens the next with flags of its own (R546, R547, R549). -/
def closeInterval (flag : Option Nat) (next : Nat) (m : Meter) : Meter :=
  let flags := match flag with
    | some b => setFlag b true m.flags
    | none => m.flags
  { m with
    recs := keepRecords (closingRecord m flags :: m.recs)
    interval := (m.interval + 1) % 2 ^ 32, start := m.psec, flags := next, cumPrev := m.cum }

/-- The partition seconds stand at a boundary: a multiple of LENGTH × 60 after the open interval's start (R547). -/
def atBoundary (m : Meter) : Bool := decide (m.psec % (m.length * 60) = 0) && decide (m.start ≠ m.psec)

/-- A boundary is reached (R547): the interval closes, and notice 0x0001 goes to the MP (R544). -/
def execIntervalClose (s : State) : Host.Outcome State Fault Refusal :=
  .next (if meterRuns s && atBoundary s.mtr then notice 1 (setMeter (closeInterval none 0 s.mtr) s) else s)

/-- VAUX falls: the accumulators and the partition seconds are saved (R548). -/
def meterSave (s : State) : State := setMeter { s.mtr with saved := true } s

/-- The partition restarts after a loss of VAUX (R548): the interval open at the loss closes with RESTART, and the next
opens with it (Table 18-4); the incarnation advances (Table 15-1); notices 0x0001 and 0x0003 follow. -/
def execMeterRestart (s : State) : Host.Outcome State Fault Refusal :=
  .next (if s.mtr.saved && s.pw.phase != .off then
    let m := closeInterval (some 1) 2 s.mtr
    let m := { m with saved := false, acc := (0, 0), power := 0, loaded := none }
    notice 3 (notice 1 (advanceInc .meter (setMeter m s)))
  else s)

/-! ### Usage feed -/

/-- A tenant's allocation in units of 256 MiB: the sum of SIZE over the valid windows of both ports (R551). -/
def allocationOf (s : State) (tenant : Nat) : Nat :=
  let sum := fun (h : HostPort) =>
    h.windows.foldl (fun a x => if x.2.valid && x.2.tenant == tenant then a + x.2.size else a) 0
  (sum s.portA + sum s.portB) % 2 ^ 32

/-- Bytes a tenant has read or written since Boot over both ports (R551). -/
def usedBytes (s : State) (tenant : Nat) : Nat × Nat :=
  ((Table.getD s.portA.rdBytes tenant 0 + Table.getD s.portB.rdBytes tenant 0) % 2 ^ 64,
   (Table.getD s.portA.wrBytes tenant 0 + Table.getD s.portB.wrBytes tenant 0) % 2 ^ 64)

/-- The packet of a group (Table 18-2). -/
def feedPacket (s : State) (group : Nat) : FeedPkt :=
  { seq := s.mtr.feedSeq, group := group, boot := counter 0 s % 2 ^ 32
    rows := (List.range 8).map (fun i =>
      let t := 8 * group + i
      ((usedBytes s t).1, (usedBytes s t).2, allocationOf s t)) }

/-- Stages free in the feed drawer: a packet takes 26 (R552). -/
def feedFree (s : State) : Nat := 64 - 26 * s.mtr.feed.length

/-- The slices send a group's packet (R550): from the end of Replay until Flush, and once more at Flush entry; with fewer
than 26 stages free the sample is skipped (R552). -/
def execFeedSend (group : Nat) (s : State) : Host.Outcome State Fault Refusal :=
  let g := group % 8
  .next (if s.pw.phase == .service || s.mtr.flushSet.contains g then
    let s := setMeter { s.mtr with flushSet := s.mtr.flushSet.erase g } s
    if feedFree s < 26 then s
    else setMeter { s.mtr with feed := s.mtr.feed ++ [feedPacket s g], feedSeq := (s.mtr.feedSeq + 1) % 65536 } s
  else s)

/-- Credits one tenant with a packet's row (R553): the differences to the row before, and allocation × seconds / 60 with
the fraction carried. -/
def credit (t : Nat) (old new : Nat × Nat × Nat) (secs : Nat) (m : Meter) : Meter :=
  let x := Table.getD m.tenants t (0, 0, 0, 0)
  let units := x.2.2.2 + new.2.2 * secs
  let y := ((x.1 + (new.1 + 2 ^ 64 - old.1) % 2 ^ 64) % 2 ^ 64, (x.2.1 + (new.2.1 + 2 ^ 64 - old.2.1) % 2 ^ 64) % 2 ^ 64,
    (x.2.2.1 + units / 60) % 2 ^ 64, units % 60)
  { m with tenants := Table.putD m.tenants t y (0, 0, 0, 0) }

/-- Credits the tenants of a packet from the i-th on. -/
def creditRows (group secs : Nat) (old : List (Nat × Nat × Nat)) : Nat → List (Nat × Nat × Nat) → Meter → Meter
  | _, [], m => m
  | i, r :: rs, m => creditRows group secs old (i + 1) rs (credit (8 * group + i) (nthD old i (0, 0, 0)) r secs m)

/-- The partition reads the oldest packet (R553): with the BOOT of the group's previous packet the differences count from
it, else from zero. The seconds since a group's previous packet are capped at 3; where there is none they are free
(log 6). -/
def execFeedReceive (s : State) : Host.Outcome State Fault Refusal :=
  .next (match s.mtr.feed with
    | [] => s
    | k :: ks =>
      if !meterRuns s then s
      else
        let d := draw s
        let old := Table.get? s.mtr.groups k.group
        let rows := match old with
          | some o => if o.boot = k.boot then o.rows else []
          | none => []
        let secs := match old with
          | some o => min 3 ((s.mtr.psec + 2 ^ 32 - o.psec) % 2 ^ 32)
          | none => Config.freeNat d.1 % 4
        let s := if old.isNone then d.2 else s
        let m := creditRows k.group secs rows 0 k.rows { s.mtr with feed := ks }
        setMeter { m with groups := Table.put m.groups k.group ⟨k.boot, m.psec, k.rows, false⟩ } s)

/-- The partition seconds since a group's newest packet; none where it has sent none. -/
def feedAge (m : Meter) (g : Nat) : Option Nat := (Table.get? m.groups g).map (fun x => (m.psec + 2 ^ 32 - x.psec) % 2 ^ 32)

/-- A group sends no packet for 3 s while VIN is present (R553): FEED_GAP is set, the group is shown as absent until its
next packet, and notice 0x0002 goes to the MP. The cap of 3 s keeps the allocation of the gap at zero. -/
def execFeedGap (group : Nat) (s : State) : Host.Outcome State Fault Refusal :=
  .next (if meterRuns s && s.mtr.vinOn && (feedAge s.mtr (group % 8)).all (fun t => decide (3 ≤ t)) then
    let g := group % 8
    notice 2 (setMeter { s.mtr with
      flags := setFlag 2 true s.mtr.flags, groups := Table.modify s.mtr.groups g (fun x => { x with gap := true }) } s)
  else s)

/-! ### Records -/

/-- Words 0 to 7 of an interval record (Table 18-3). -/
def intervalBody (r : IntervalRec) : List Word :=
  [ BitVec.ofNat 64 (field 0 16 1 + field 16 16 r.flags + field 32 32 r.number), Config.serial,
    BitVec.ofNat 64 (field 0 32 r.start + field 32 8 r.length), BitVec.ofNat 64 (field 0 32 r.energy),
    BitVec.ofNat 64 r.cum, BitVec.ofNat 64 (field 0 32 r.audit + field 32 32 r.fwCrc),
    BitVec.ofNat 64 (field 0 16 r.fwVer + flag 16 r.sealed), 0 ]

/-- Words 0 to 7 of a tenant record (Table 18-3). -/
def tenantBody (r : IntervalRec) (tenant : Nat) (x : Nat × Nat × Nat) : List Word :=
  [ BitVec.ofNat 64 (field 0 16 2 + field 16 16 r.flags + field 32 32 r.number), Config.serial,
    BitVec.ofNat 64 (field 0 32 r.start + field 32 8 r.length + field 40 6 tenant), BitVec.ofNat 64 x.1,
    BitVec.ofNat 64 x.2.1, BitVec.ofNat 64 x.2.2, BitVec.ofNat 64 (field 0 32 r.audit + field 32 32 r.fwCrc),
    BitVec.ofNat 64 (field 0 16 r.fwVer + flag 16 r.sealed) ]

/-- A record with its signature (R555). -/
def signed (body : List Word) : List Word := body ++ (List.range 8).map (Config.meterSignature body)

/-- What the partition answers a relayed request: none for INVALID (R555, R556). -/
def relayWords (m : Meter) (op arg : Nat) : Option (List Word) :=
  let k := arg % 8192
  let t := arg / 8192 % 64
  if op = 0x900 then (m.recs[k]?).map (fun r => signed (intervalBody r))
  else if op = 0x901 then
    match m.recs[k]? with
    | some r => r.tenants.map (fun ts => signed (tenantBody r t (Table.getD ts t (0, 0, 0))))
    | none => none
  else if op = 0x902 then some [BitVec.ofNat 64 (field 0 16 m.fwVer), BitVec.ofNat 64 (meterCrc m)]
  else if op = 0x903 then some ((List.range 16).map Config.meterKeyWord)
  else some [BitVec.ofNat 64 (field 0 32 m.audit)]

/-- The reply packet (R556): the opcode and argument in word 0, then the record. For INVALID word 0 stands alone
(DESIGN CHOICE, log 33). -/
def relayPacket (m : Meter) (op arg : Nat) : List Word :=
  messageWord 0 0 op arg :: (relayWords m op arg).getD []

/-- Belvy hands on the oldest reply (R482): the words after word 0 go to the requester's outbound drawer, and its message
is acknowledged OK, or INVALID where word 0 stands alone. -/
def takeReply (s : State) : State :=
  match drwTake (boxOf s .meter).inDrw with
  | some (some (w :: ws), d) =>
    let s := modBox .meter (fun x => { x with inDrw := d }) s
    match s.mb.open_.find? (fun o => o.op == wordOp w && o.arg == wordArg w && !o.accepted) with
    | some o => if ws.isEmpty then endOp o 4 s else endOp o 0 (reply o.box ws s)
    | none => s
  | some (_, d) => modBox .meter (fun x => { x with inDrw := d }) s
  | none => s

/-- The partition takes the oldest relayed request and answers it through the reply drawer (R556); it ignores any opcode but
0x900 to 0x904 (R543). -/
def execMeterRelayAnswer (s : State) : Host.Outcome State Fault Refusal :=
  .next (match s.mb.relays with
    | [] => s
    | (op, arg, _) :: rs =>
      if !meterRuns s then s
      else
        let s := { s with mb := { s.mb with relays := rs } }
        if 0x900 ≤ op && op ≤ 0x904 then
          let s := modBox .meter (fun x => { x with inDrw := drwPacket (relayPacket s.mtr op arg) x.inDrw }) s
          if s.mb.mpReady then takeReply s else s
        else s)

/-! ### Service target -/

/-- Statuses of the service target; the manual names SEALED and gives no numbers (log 33). -/
def svcOk : Nat := 0
/-- The partition is sealed (R557). -/
def svcSealed : Nat := 1
/-- An argument out of range. -/
def svcInvalid : Nat := 2
/-- A failed check, which changes nothing (Table 18-5). -/
def svcCheck : Nat := 3
/-- The audit counter stands at its limit (R558). -/
def svcLimit : Nat := 4

/-- READ_ID (Table 18-5). -/
def execMeterReadId (s : State) : Host.Outcome State Fault Refusal :=
  .next (if meterRuns s then
    emit (.service svcOk [Config.serial, BitVec.ofNat 64 (field 0 16 s.mtr.fwVer), BitVec.ofNat 64 (meterCrc s.mtr),
      BitVec.ofNat 64 s.mtr.audit, BitVec.ofNat 64 (flag 0 s.mtr.sealed)]) s
  else s)

/-- A change is accepted (R558): the audit counter advances, and the open interval closes with PARAM. -/
def acceptChange (m : Meter) : Meter := closeInterval (some 3) 0 { m with audit := m.audit + 1 }

/-- The status of a change command before its own checks: none where it may go on (R557, R558). -/
def changeBar (m : Meter) (counted : Bool) : Option Nat :=
  if m.sealed then some svcSealed
  else if counted && decide (2 ^ 32 ≤ m.audit + 1) then some svcLimit
  else none

/-- A change command of the service target: its bar, its own check, and its effect with notice 0x0004. -/
def serviceChange (bad : Option Nat) (apply : State → State) (s : State) : State :=
  if !meterRuns s then s
  else
    match changeBar s.mtr true, bad with
    | some st, _ => emit (.service st []) s
    | none, some st => emit (.service st []) s
    | none, none => emit (.service svcOk []) (apply s)

/-- SET_LENGTH (R547, R557, R558). -/
def execMeterSetLength (minutes : Nat) (s : State) : Host.Outcome State Fault Refusal :=
  .next (serviceChange (if 1 ≤ minutes && minutes ≤ 60 then none else some svcInvalid)
    (fun s => notice 4 (notice 1 (setMeter { acceptChange s.mtr with length := minutes } s))) s)

/-- FW_LOAD (R557): an image into the inactive slot. -/
def execMeterFwLoad (image : List Word) (s : State) : Host.Outcome State Fault Refusal :=
  .next (if !meterRuns s then s
    else
      match changeBar s.mtr false with
      | some st => emit (.service st []) s
      | none => emit (.service svcOk []) (setMeter { s.mtr with loaded := some image } s))

/-- FW_ACTIVATE (R557, R558): with a good signature the partition restarts on the loaded image, which advances its
incarnation (Table 15-1); notices 0x0001, 0x0004 and 0x0003 follow. -/
def execMeterFwActivate (sigOk : Bool) (s : State) : Host.Outcome State Fault Refusal :=
  .next (serviceChange (if sigOk && s.mtr.loaded.isSome then none else some svcCheck)
    (fun s =>
      let img := s.mtr.loaded.getD []
      let m := acceptChange s.mtr
      let m := { m with image := img, loaded := none, fwVer := Config.meterVersion img % 65536 }
      notice 3 (notice 4 (notice 1 (advanceInc .meter (setMeter m s))))) s)

/-- The seal land has held a level (R557): low seals the partition and abandons a firmware load. -/
def execSealChange (low : Bool) (s : State) : Host.Outcome State Fault Refusal :=
  .next (setMeter { s.mtr with sealed := low, loaded := if low then none else s.mtr.loaded } s)

/-- MTR_STATUS, MTR_POWER, MTR_ENERGY, MTR_ID and MTR_AUDIT (R560). -/
def meterRegs (s : State) : List Word :=
  let m := s.mtr
  let ok := (List.range 8).all (fun g => (feedAge m g).any (fun t => decide (t ≤ 3))
    && (Table.get? m.groups g).any (fun x => !x.gap))
  [ BitVec.ofNat 64 (flag 0 m.sealed + flag 1 ok + flag 2 (decide (250000 < m.power)) + field 8 8 m.length
      + field 32 32 (m.interval + 2 ^ 32 - 1)),
    BitVec.ofNat 64 (field 0 32 m.power + field 32 32 m.psec), BitVec.ofNat 64 m.cum,
    BitVec.ofNat 64 (field 0 16 m.fwVer + field 32 32 (meterCrc m)), BitVec.ofNat 64 (field 0 32 m.audit) ]

end Sys2Proof.Machine
end

