-- ==== Sys2Proof/Machine/Protect.lean ====
section
/-! DEFINITION. Patrol of the medium, the LPDDR6 and the SRAM; the trap of the management processor; re-mirroring
(06, 09). -/

namespace Sys2Proof.Machine

/-! ### Patrol of the medium -/

/-- The sectors of a course in scrub order: its pages' or slots' sectors, then its ledger's (R28, R29, R116, R210). -/
def scrubLast (fast : Bool) : Nat := ledgerAt fast + ledgerCount fast - 1

/-- The line whose present location a sector position is. -/
def lineAtLoc (s : State) (l : Loc) : Option Nat :=
  let d := match ownerAt s l with
    | some (.line dla _) => some dla
    | some (.reloc dla) => some dla
    | some (.page lpn) => if l.slot % 68 < 64 then some (lpn * 64 + l.slot % 68) else none
    | some .pad => none
    | some (.q _ _) => none
    | some .metadata => none
    | some .parity => none
    | some .outer => none
    | some .ledger => none
    | none => none
  d.bind (fun dla => if mappedAt s dla = some l then some dla else none)

/-- A course whose programmed rows scrub reads: CLOSED, VERIFIED or FAILED (R210), on a die that is not lost. -/
def scrubbed (s : State) (c : Nat) : Bool :=
  let e := courseOf s c
  (e.state == 2 || e.state == 3 || e.state == 4) && !dieLost s (courseStack c) (stripeGroup (courseStripe c))

/-- The recovery took the outer code or P. -/
def Recovery.outerOrP : Sys2Proof.Recovery → Bool
  | .inner _ => false
  | .retry _ => false
  | .ladder _ _ => false
  | .outer => true
  | .parity => true
  | .second => true
  | .lost => false

/-- A row that needed outer code or P is recorded, once in a scrub pass (Table 06-5, R214). -/
def noteRow (r : Nat) (s : State) : State :=
  if s.prot.passRows.contains r then s
  else { s with
    prot := { s.prot with passRows := r :: s.prot.passRows }
    tr := { s.tr with remapReq := Table.put s.tr.remapReq r (Table.getD s.tr.remapReq r 0 + 1) } }

/-- The scrub action for a line sector (Table 06-5): relocation, the record of its row, or a poison entry and the halt of
the scrub channel (R193, R198). A flashing read queues nothing (R188). -/
def scrubLine (course dla : Nat) (rd : MedRead) (res : SenseResult) (s : State) : State :=
  let e := readEnd s rd res
  let s := judgeRead rd res e s
  if e.lost then
    let s := if (newestSlot s dla).isSome then s else poisonHome dla (poisonLine dla s)
    haltDma (chanBit (rd.loc.stack / 2) 3) rd.loc (lpnOf dla) s
  else if !e.direct then s
  else
    let s := if Recovery.outerOrP e.step then
        (rowsOf rd.loc.fast rd.loc.slot).foldl (fun s r => noteRow (course * 512 + r) s) s
      else s
    if Recovery.corrected e.step then queueBack dla rd.loc e.raw false s else s

/-- The scrub action for another sector (Table 06-5, R191): where it was sensed itself, the weak-stripe queue; one that no
step recovers halts the scrub channel (R198). -/
def scrubOther (rd : MedRead) (res : SenseResult) (s : State) : State :=
  let e := readEnd s rd res
  let s := judgeRead rd res e s
  let s := if e.direct && Recovery.weakens e.step then markWeak rd.loc.stripe s else s
  if e.lost then haltDma (chanBit (rd.loc.stack / 2) 3) rd.loc (rd.loc.slot / 68) s else s

/-- The scrub action for the sector of a line that has moved on: it is judged, and nothing is written back. -/
def scrubPast (rd : MedRead) (res : SenseResult) (s : State) : State := judgeRead rd res (readEnd s rd res) s

/-- A scrub pass is complete: it is counted, and commands that asked for a pass end (R210, R482, R430). -/
def endPass (s : State) : State :=
  let s := { s with prot := { s.prot with
    passes := (s.prot.passes + 1) % 2 ^ 32, progress := 0, passRows := [], scanning := false } }
  let mark := fun (c : CxlBox) => match c.bg with
    | some (0x4304, false) => { c with bg := some (0x4304, true) }
    | b => { c with bg := b }
  endOps 0x405 (fun _ => true) 0 { s with cxlA := mark s.cxlA, cxlB := mark s.cxlB }

/-- The pass ends with a sector: no scrubbed course has a higher number, and the course has no later sector. -/
def passEnds (s : State) (course n : Nat) : Bool :=
  !s.tr.maps.course.any (fun x => decide (course < x.1) && scrubbed s x.1)
    && (!scrubbed s course || decide (scrubLast (courseOf s course).fast ≤ n))

/-- Scrub's read of a sector, classified as a host read is (R89, R210): by the busy table and the stripe's lost member. -/
def scrubRead (s : State) (l : Loc) : MedRead :=
  { use := .redrain 0, loc := l, prio := 2, started := true, flashing := (readPlan s l).2
    suspended := !(stripeOf s l).lost.isEmpty, bucket := readByte s l.stack l.stripe, rgen := s.sched.rgen }

/-- Patrol scrub reads a sector of a programmed row (R210, R211), unless the scrub channel of its quadrant is halted
(R198). -/
def execPatrolScrub (course sector : Nat) (res : SenseResult) (s : State) : Host.Outcome State Fault Refusal :=
  .next (
    if s.pw.phase != .service || chanHalted s (chanBit (courseStack course / 2) 3) then s
    else
      let l := locOf (courseStripe course) (courseStack course) (courseOf s course).fast sector
      let rd := scrubRead s l
      let s :=
        if !scrubbed s course || decide (scrubLast l.fast < sector) then s
        else
          match lineAtLoc s l with
          | some dla => scrubLine course dla { rd with use := .redrain dla } res s
          | none => if holdsLine s l then scrubPast rd res s else scrubOther rd res s
      if passEnds s course sector then endPass s
      else { s with prot := { s.prot with progress := course / 128 % 65536 } })

/-! ### Patrol of the LPDDR6 -/

/-- Regions of the LPDDR6 by line number N (Table 09-2). -/
inductive DramRegion where
  | denseMap (j : Nat)
  | eavesIndex (j : Nat)
  | writeBuffer
  | descriptors
  | courseTable (j : Nat)
  | ageTable (j : Nat)
  | qTables
  | rowStaging
  | caches
deriving DecidableEq, Repr

/-- The index of a line in its mirrored structure, counted from the structure's first line (R295). -/
def mirrorIndex (base n : Nat) : Nat := (n - base) / 16 * 8 + n % 8

/-- The region of a line and its index j in its mirrored structure (R114, R157, R295, Table 09-2); the tables stand in the
order in which Table 09-2 names them (DEDUCED, log 18). -/
def dramRegion (n : Nat) : DramRegion :=
  if n < 0xC000000 then .denseMap (mirrorIndex 0 n)
  else if n < 0x1C000000 then .eavesIndex (mirrorIndex 0xC000000 n)
  else if n < 0x24000000 then .writeBuffer
  else if n < 0x26000000 then .descriptors
  else if n < 0x26200000 then .courseTable (mirrorIndex 0x26000000 n)
  else if n < 0x26300000 then .ageTable (mirrorIndex 0x26200000 n)
  else if n < 0x26308000 then .qTables
  else if n < 0x27308000 then .rowStaging
  else .caches

/-- Pages whose dense entry has a byte in line j of the dense map: six bytes for each page (R105). -/
def pagesInLine (j : Nat) : List Nat :=
  let a := 64 * j / 6
  (List.range ((64 * j + 63) / 6 - a + 1)).map (· + a)

/-- The slots of the write buffer with a copy at a DRAM line or its mirror (R295). -/
def slotsAt (s : State) (n : Nat) : List (Nat × Nat) :=
  (s.tr.slots.filter (fun x => slotBase x.dla x.epoch / 16 == n / 16 && slotBase x.dla x.epoch % 8 == n % 8)).map
    (fun x => (x.dla, x.epoch))

/-- The slots and staged rows with both copies at a DRAM line are lost (R195). -/
def poisonRowsAt (n : Nat) (s : State) : State :=
  poisonAll (((s.tr.slots.filter (fun x => (slotsAt s n).contains (x.dla, x.epoch))).flatMap (rowMates s)).eraseDups) s

/-- The image of a staged row is lost on both copies: every line staged in it becomes a poison sector (R195). -/
def poisonStaged (row : Nat) (s : State) : State :=
  poisonAll ((s.tr.slots.filter (fun x => match x.st with
    | .waiting => false
    | .staged l => (l.stripe * 8 + l.stack) * 512 + firstRow true l.slot == row)).map (fun x => (x.dla, x.epoch))) s

/-- Both copies of a mirrored line fail (R195): every page with a byte in the line of the dense map, the sets of the eaves
index, every sector of a staged row of the write buffer. The manual gives no other structure an effect. -/
def bothLost (n : Nat) (s : State) : State :=
  match dramRegion n with
  | .denseMap j => (pagesInLine j).foldl (fun s p => loseDense (p * 64) s) s
  | .eavesIndex j => loseEaves j s
  | .courseTable _ => s
  | .ageTable _ => s
  | .qTables => s
  | .descriptors => s
  | .writeBuffer => poisonRowsAt n s
  | .rowStaging => poisonStaged (Config.stagedRowAt n) s
  | .caches => s

/-- The line belongs to a mirrored structure (Table 09-2). -/
def mirrored (n : Nat) : Bool := decide (n < 0x27400000)

/-- Copy 0 of a mirrored line whose copy is given (R295). -/
def copyZero (n : Nat) : Nat := if n / 8 % 2 = 1 then n - 8 else n

/-- DRAM patrol reads a line, in the lowest class (R212, R187, R194, R195, R298): of a mirrored structure a copy that fails is
rewritten from the other. -/
def execDramPatrol (line : Nat) (res : DramRead) (s : State) : Host.Outcome State Fault Refusal :=
  .next (
    if !mayServe s 3 line then s
    else
      let s := wakeRank line s
      if mirrored line then
        let r := readMirror (copyZero line) line res.first res.other s
        if r.1 == .lost then bothLost line r.2 else r.2
      else
        match decodeAt s line 0 { err := res.first.err } with
        | .clean => s
        | .corrected dqs => dramCorrected line dqs s
        | .wrong _ _ => s
        | .uncorrectable => dropAt line (dramUncorrectable s))

/-! ### Patrol of the SRAM -/

/-- SRAM patrol reads words (R212, R186, R196, R224). -/
def execSramPatrol (slice : Nat) (finding : SramFinding) (s : State) : Host.Outcome State Fault Refusal :=
  .next (match finding with
    | .clean => s
    | .corrected => sramCorrected s
    | .lookaside lpn => dropLook lpn s
    | .predictor sl index => { s with tr := { s.tr with pred := Table.del s.tr.pred (sl * 32768 + index % 32768) } }
    | .mshr node dla => poisonMshr node dla s
    | .directory dla => rebuildEntry dla s
    | .hsf node dla => filterBad node dla s
    | .spare sl => beginFault (.sram (if sl < 16 then sl else slice)) s)

/-! ### Re-mirroring -/

/-- Channel-rows of the mirrored structures of one device: 4 channels of 40,192 rows (R312). -/
def remirRows : Nat := 4 * 40192

/-- Cache lines in a receiving row are invalidated before use (R312). -/
def clearRow (ch row : Nat) (s : State) : State :=
  let inRow := fun (n : Nat) => lineChan n == ch && lineRow n == row
  { s with dram := { s.dram with
    cache := s.dram.cache.filter (fun x => !inRow (lineAt (me s) x.1))
    remote := s.dram.remote.filter (fun x => !inRow (Config.dramLineOf x.1)) } }

/-- Lines whose DRAM byte address lies in a range leave the DRAM caches (R297). -/
def clearSpace (lo hi : Nat) (s : State) : State :=
  let inside := fun (n : Nat) => decide (lo ≤ 64 * n) && decide (64 * n < hi)
  { s with dram := { s.dram with
    cache := s.dram.cache.filter (fun x => !inside (lineAt (me s) x.1))
    remote := s.dram.remote.filter (fun x => !inside (Config.dramLineOf x.1)) } }

/-- The remote cache takes a size in GiB: lines in the space that changes hands are invalidated (R297). -/
def resizeRemote (n : Nat) (s : State) : State :=
  let a := (64 - s.dram.rSize) * 2 ^ 30
  let b := (64 - n) * 2 ^ 30
  let s := clearSpace (min a b) (max a b) s
  { s with dram := { s.dram with rSize := n } }

/-- Re-mirroring is complete: Degraded ends unless another condition holds it, and the remote cache is limited to 2 GiB
(R313, R314). -/
def remirrorDone (s : State) : State :=
  let s := if 2 < s.dram.rSize then resizeRemote 2 s else s
  updateDegraded { s with dram := { s.dram with remir := none } }

/-- Re-mirroring copies the next channel-row, in ascending order of u, behind its pointer (R312, R313). -/
def execRemirrorStep (s : State) : Host.Outcome State Fault Refusal :=
  .next (match s.dram.remir with
    | none => s
    | some (n, ptr) =>
      if s.prot.faults.any (fun f => f == .lpddr n) then s
      else
        let u := ptr / 2
        let s := clearRow (4 * remirDevice n (ptr % 2 == 1) + u % 4) (0x9D00 + u / 4) s
        if ptr + 1 < remirRows then { s with dram := { s.dram with remir := some (n, ptr + 1) } }
        else remirrorDone s)

end Sys2Proof.Machine
end

