-- ==== Sys2Proof/Machine/Thermal.lean ====
section
/-! DEFINITION. The thermal model, the throttle level, Warn, the grace time and the programming range (17). -/

namespace Sys2Proof.Machine

/-- One degree in units of a node's temperature (R524). -/
def degree : Int := 256

/-! ### The model -/

/-- The diode that feeds a node (Table 17-1); none feeds node 84. -/
def fedBy (n : Nat) : Option Nat :=
  if n < 64 then some (n / 8)
  else if n < 68 then some (2 * (n - 64))
  else if n < 84 then some ((n - 68) / 2)
  else none

/-- A diode is broken (R529). -/
def diodeBroken (s : State) (d : Nat) : Bool := decide (s.thm.broken / 2 ^ d % 2 = 1)

/-- A node's temperature lies within −40 °C to 125 °C (R524). -/
def clampTemp (t : Int) : Int := max (-10240) (min 32000 t)

/-- The powers of the comparator codes 1 to 11, in mV × 10 mA: a failed monitor's rail is taken at its rated maximum
(R525, R530). -/
def railPowers (fail : Nat) (volts currents : List Nat) : List Nat :=
  (List.range 12).map (fun c =>
    if c = 0 then 0
    else nthD volts c 0 * (if fail / 2 ^ c % 2 = 1 then Config.ratedCurrent c else nthD currents c 0))

/-- The activity of a medium die on VPGM (Table 17-2): its PROG4, PROG1 and reset claims in progress, weighted by their
typical times in units of 0.1 µs (which of the times of Table 03-1, a DESIGN CHOICE, log 8). -/
def programActivity (activity : List Nat) (n : Nat) : Nat :=
  90 * nthD activity (5 * n) 0 + 12 * nthD activity (5 * n + 1) 0 + 20000 * nthD activity (5 * n + 2) 0

/-- The activity of a medium die on VMEDL: sense starts and transfer slots (Table 17-2). -/
def senseActivity (activity : List Nat) (n : Nat) : Nat := nthD activity (5 * n + 3) 0 + nthD activity (5 * n + 4) 0

/-- The activity of an LPDDR6 device: activates, column accesses and per-bank refreshes (Table 17-2). -/
def dramActivity (activity : List Nat) (n : Nat) : Nat :=
  nthD activity (320 + 3 * n) 0 + nthD activity (321 + 3 * n) 0 + nthD activity (322 + 3 * n) 0

/-- One of a rail's nodes takes the rail's power in proportion to the activities (R526), in units of 2^-16. -/
def shareOf (c n : Nat) (acts : List Nat) (i : Nat) : Nat :=
  if acts.sum = 0 then Config.idleShare c n else nthD acts i 0 * 65536 / acts.sum

/-- The share of a slice in VCORE and VSRAM: its active cycles over the 2.4 million cycles of an update of all 16
(DEDUCED from the remainder that Table 17-2 gives to node 84, log 8). -/
def sliceShare (activity : List Nat) (k : Nat) : Nat := nthD activity (332 + k) 0 * 65536 / (16 * 2400000)

/-- The share of a rail's power that a node takes (R526, Table 17-2), in units of 2^-16, of the counters of the millisecond:
five of each medium die, three of each LPDDR6 device, one of each slice. -/
def powerShare (c n : Nat) (activity : List Nat) : Nat :=
  if c = 11 then
    if n < 64 then shareOf c n ((List.range 64).map (programActivity activity)) n else 0
  else if c = 8 then
    if n < 64 then shareOf c n ((List.range 64).map (senseActivity activity)) n else 0
  else if c = 5 || c = 3 || c = 4 then
    if 64 ≤ n && n < 68 then shareOf c n ((List.range 4).map (dramActivity activity)) (n - 64) else 0
  else if c = 6 || c = 7 then
    if 68 ≤ n && n < 84 then sliceShare activity (n - 68)
    else if n = 84 then 65536 - ((List.range 16).map (sliceShare activity)).sum
    else 0
  else if n = 84 then 65536
  else 0

/-- The power of each node (R525, R526). -/
def nodePowers (p : List Nat) (activity : List Nat) : List Nat :=
  (List.range 85).map (fun n =>
    (List.range 12).foldl (fun a c => a + nthD p c 0 * powerShare c n activity / 65536) 0)

/-- The change of a node's temperature in one update, before the correction (R525): its power less what its couplings carry
away, over its heat capacity; rounded down (log 8). -/
def thermalStep (temps : List Int) (powers : List Nat) (n : Nat) : Int :=
  ((nthD powers n 0 : Nat) - (List.range 85).foldl (fun a m => a + Config.coupling n m * (nthD temps n 0 - nthD temps m 0)) 0)
    / (Config.heatCap n : Nat)

/-- The temperatures before the correction by the diodes (R525): every node's step from the temperatures of the last
update. -/
def stepTemps (s : State) (powers : List Nat) : List Int :=
  (List.range 85).map (fun n => clampTemp (nthD s.thm.temps n 0 + thermalStep s.thm.temps powers n))

/-- The model's value at a diode's site (R525). -/
def siteOf (temps : List Int) (d : Nat) : Int := (nthD temps (68 + 2 * d) 0 + nthD temps (69 + 2 * d) 0) / 2

/-- The updates in a row at which a diode has differed from its site by more than 15 °C (R529). -/
def streakOf (s : State) (temps diodes : List Int) (d : Nat) : Nat :=
  if 15 * degree < (nthD diodes d 0 - siteOf temps d).natAbs then nthD s.thm.streak d 0 + 1 else 0

/-- A diode is found broken at an update (R529): out of range, a change of more than 10 °C, or ten updates off its site. -/
def diodeFails (s : State) (temps diodes : List Int) (d : Nat) : Bool :=
  let r := nthD diodes d 0
  decide (r < -40 * degree) || decide (150 * degree < r)
    || (decide (s.thm.updates ≠ 0) && decide (10 * degree < (r - nthD s.thm.diodes d 0).natAbs))
    || decide (10 ≤ streakOf s temps diodes d)

/-- The correction by working diodes, and 125 °C for every node a broken one feeds (R525, R527, R529). -/
def correctTemps (s : State) (broken : Nat) (temps diodes : List Int) : List Int :=
  (List.range 85).map (fun n =>
    match fedBy n with
    | none => nthD temps n 0
    | some d =>
      if broken / 2 ^ d % 2 = 1 then 32000
      else if diodeBroken s d then nthD temps n 0
      else clampTemp (nthD temps n 0 + (nthD diodes d 0 - siteOf temps d) / 16))

/-- Diodes are found broken: their bits, and a Critical event for each (R529). -/
def breakDiodes : List Nat → State → State
  | [], s => s
  | d :: ds, s =>
    breakDiodes ds (if diodeBroken s d then s
      else event .diodeBroken 6 [d] { s with thm := { s.thm with broken := s.thm.broken + 2 ^ d } })

/-- Current monitors are found failed (R530). -/
def failMonitors : List Nat → State → State
  | [], s => s
  | c :: cs, s =>
    failMonitors cs (if s.thm.monFail / 2 ^ c % 2 = 1 then s
      else event .monitorFailed 6 [c] { s with thm := { s.thm with monFail := s.thm.monFail + 2 ^ c } })

/-- The junction temperature (R531): the highest reading of the working diodes; 125 °C where none works. -/
def junction (s : State) : Int :=
  match (List.range 8).filter (fun d => !diodeBroken s d) with
  | [] => 125 * degree
  | d :: ds => ds.foldl (fun a e => max a (nthD s.thm.diodes e 0)) (nthD s.thm.diodes d 0)

/-- The first hottest medium node. -/
def hotMedium (s : State) : Nat :=
  (List.range 64).foldl (fun a n => if nthD s.thm.temps a 0 < nthD s.thm.temps n 0 then n else a) 0

/-! ### Levels -/

/-- The threshold of a level (1 T1, 2 T2, 3 Critical) for a node (Table 17-3); slice nodes and node 84 have none. -/
def levelAt (c : ThmCfg) (n lv : Nat) : Option Int :=
  if n < 64 then some ((nthD c.med lv 0 : Nat) * degree)
  else if n < 68 then some ((nthD c.lpd lv 0 : Nat) * degree)
  else none

/-- The threshold of a level for the junction: T1 and T2 only (R533). -/
def junctionAt (c : ThmCfg) (lv : Nat) : Option Int :=
  if lv = 1 ∨ lv = 2 then some ((nthD c.jct (lv - 1) 0 : Nat) * degree) else none

/-- The Warn threshold of a node (Table 17-3). -/
def warnAt (c : ThmCfg) (n : Nat) : Option Int :=
  if n < 64 then some ((nthD c.med 0 0 : Nat) * degree)
  else if n < 68 then some ((nthD c.lpd 0 0 : Nat) * degree)
  else if n = 84 then some ((c.pkg : Nat) * degree)
  else none

/-- What has reached a level: the first node, or 127 for the junction (R532, R541). -/
def reaches (s : State) (lv : Nat) : Option Nat :=
  match (List.range 85).find? (fun n => (levelAt s.thm.cfg n lv).any (fun t => decide (t ≤ nthD s.thm.temps n 0))) with
  | some n => some n
  | none => if (junctionAt s.thm.cfg lv).any (fun t => decide (t ≤ junction s)) then some 127 else none

/-- Every node and the junction lies at least HYST below a level's threshold (R533). -/
def belowLevel (s : State) (lv : Nat) : Bool :=
  let h : Int := (s.thm.cfg.hyst : Nat) * degree
  (List.range 85).all (fun n => (levelAt s.thm.cfg n lv).all (fun t => decide (nthD s.thm.temps n 0 ≤ t - h)))
    && (junctionAt s.thm.cfg lv).all (fun t => decide (junction s ≤ t - h))

/-- The first node that has reached its Warn threshold (R533). -/
def reachesWarn (s : State) : Option Nat :=
  (List.range 85).find? (fun n => (warnAt s.thm.cfg n).any (fun t => decide (t ≤ nthD s.thm.temps n 0)))

/-- Every node lies at least HYST below its Warn threshold (R533). -/
def belowWarn (s : State) : Bool :=
  let h : Int := (s.thm.cfg.hyst : Nat) * degree
  (List.range 85).all (fun n => (warnAt s.thm.cfg n).all (fun t => decide (nthD s.thm.temps n 0 ≤ t - h)))

/-- The highest level any node, or the junction, has reached (R533). -/
def levelReached (s : State) : Nat :=
  if (reaches s 3).isSome then 3 else if (reaches s 2).isSome then 2 else if (reaches s 1).isSome then 1 else 0

/-- The throttle level changes (R534, R535): vector 3, an event, the grace time from the first rise above none, ENFORCED at
Critical, and its end with the level. -/
def setLevel (lv : Nat) (s : State) : State :=
  let old := s.thm.level
  let s := { s with thm := { s.thm with
    level := lv
    grace := if lv = 0 then 0 else if old = 0 then s.thm.cfg.grace else s.thm.grace
    enforced := if lv = 0 then false else s.thm.enforced || lv == 3 } }
  let s := if lv = 3 then { s with thm := { s.thm with grace := 0 } } else s
  let kind := if lv < old then EvKind.throttleFall else if lv = 3 then .throttleCritical else .throttleRise
  updateMode (event kind 6 [lv, s.thm.hotNode] (vectorBoth 3 s))

/-- The level rises to the highest one reached (R533, R534). -/
def raiseThrottle (s : State) : State :=
  let lv := levelReached s
  if lv ≤ s.thm.level then s
  else setLevel lv { s with thm := { s.thm with hotNode := (reaches s lv).getD 0 } }

/-- Reaching Warn while WARN is clear sets it, with one event (R533). -/
def crossWarn (s : State) : State :=
  match reachesWarn s with
  | none => s
  | some n => if s.thm.warn then s else event .warnReached 6 [n] { s with thm := { s.thm with warn := true } }

/-- The counts of updates below the thresholds (R533). -/
def countCool (s : State) : State :=
  { s with thm := { s.thm with
    cool := (List.range 3).map (fun i => if belowLevel s (i + 1) then nthD s.thm.cool i 0 + 1 else 0)
    coolWarn := if belowWarn s then s.thm.coolWarn + 1 else 0 } }

/-- The programming range (R538): forbidden above 95 °C or below −5 °C, permitted again within −3 °C to 93 °C; the device
enters or leaves Write-Hold, and the durability mode follows (R229). -/
def progRange (s : State) : State :=
  let med := s.thm.temps.take 64
  if s.thm.progHold then
    if med.all (fun t => decide (-3 * degree ≤ t) && decide (t ≤ 93 * degree)) then
      updateAccept (updateMode { s with thm := { s.thm with progHold := false } })
    else s
  else if med.any (fun t => decide (95 * degree < t) || decide (t < -5 * degree)) then
    updateAccept (updateMode { s with thm := { s.thm with progHold := true } })
  else s

/-- The refresh window for a temperature, in ms (R302). -/
def windowFor (t : Int) : Nat := if t ≤ 85 * degree then 32 else if t ≤ 95 * degree then 16 else 8

/-- Every channel's refresh window follows its device's node (R302). -/
def setWindows (s : State) : State :=
  (List.range 16).foldl (fun s c =>
    putChan c { chanAt s c with window := windowFor (nthD s.thm.temps (64 + c / 4) 0) } s) s

/-! ### The commands -/

/-- The model unit runs with the controller: from Boot until the power-down sequence or a shut-off (R525, R534). -/
def modelRuns (s : State) : Bool :=
  match s.pw.phase with
  | .off => false
  | .standby => false
  | .powerDown => false
  | .boot => true
  | .replay => true
  | .service => true
  | .flush => true

/-- The temperatures of an update (R525, R527, R529, R530). -/
def modelStep (inp : ThermalInput) (s : State) : State :=
  let s := failMonitors ((List.range 14).filter (fun c => nthD inp.monBad c false)) s
  let powers := nodePowers (railPowers s.thm.monFail inp.volts inp.currents) inp.activity
  let temps := stepTemps s powers
  let bad := (List.range 8).filter (fun d => !diodeBroken s d && diodeFails s temps inp.diodes d)
  let streak := (List.range 8).map (streakOf s temps inp.diodes)
  let broken := bad.foldl (fun a d => a + 2 ^ d) s.thm.broken
  let now := correctTemps s broken temps inp.diodes
  let s := breakDiodes bad s
  { s with
    thm := { s.thm with
      temps := now, diodes := inp.diodes, streak := streak, updates := (s.thm.updates + 1) % 2 ^ 32
      grace := s.thm.grace - 1 }
    pw := { s.pw with volts := inp.volts, currents := inp.currents } }

/-- An update of the thermal model, every 1 ms (R525): temperatures, drift clocks (R152), refresh windows (R302), then the
decisions of R533 to R538. -/
def execThermalUpdate (inp : ThermalInput) (s : State) : Host.Outcome State Fault Refusal :=
  .next (
    if !modelRuns s then s
    else
      let s := modelStep inp s
      let s := setWindows (advanceEd 1 s.thm.temps s)
      progRange (crossWarn (raiseThrottle (countCool s))))

/-- The level falls by one step once every node and the junction has stayed HYST below its threshold for FALL ms (R533). -/
def execLevelFall (s : State) : Host.Outcome State Fault Refusal :=
  .next (
    if s.thm.level = 0 || decide (nthD s.thm.cool (s.thm.level - 1) 0 ≤ s.thm.cfg.fall) then s
    else setLevel (s.thm.level - 1) s)

/-- WARN clears once every node has stayed HYST below its Warn threshold for FALL ms (R533). -/
def execWarnClear (s : State) : Host.Outcome State Fault Refusal :=
  .next (if s.thm.warn && decide (s.thm.cfg.fall < s.thm.coolWarn) then { s with thm := { s.thm with warn := false } } else s)

/-- The grace time ends with the level above none: ENFORCED is set (R535). -/
def execGraceExpire (s : State) : Host.Outcome State Fault Refusal :=
  .next (
    if 0 < s.thm.level ∧ s.thm.grace = 0 then { s with thm := { s.thm with enforced := true } } else s)

end Sys2Proof.Machine
end

