-- ==== Sys2Proof/Machine/Power.lean ====
section
/-! DEFINITION. The power supervisor: faults, snapshots, Flush entry, shut-off, the power-down sequence, Standby, Boot,
clocks and Deep Idle (16), and the restart of the management processor (06, 15). -/

namespace Sys2Proof.Machine

/-! ### Snapshots and latched faults -/

/-- PSV_STATUS.SEQ (R523): with a Block fault held in Standby 6, else 5 in the hold. -/
def psvSeq (s : State) : Nat :=
  match s.pw.phase with
  | .off => 0
  | .standby => if s.pw.block then 6 else if s.pw.hold then 5 else 0
  | .boot => 1
  | .replay => 2
  | .service => 2
  | .flush => 3
  | .powerDown => 4

/-- The sequence step a snapshot shows: in the power-down sequence the place of its rail, VPGM first; in Boot the step last
completed; else 0 (DEDUCED from the example of chapter 16, log 34). -/
def seqStep (s : State) : Nat :=
  match s.pw.phase with
  | .off => 0
  | .standby => 0
  | .boot => s.pw.bootStep
  | .replay => 0
  | .service => 0
  | .flush => 0
  | .powerDown => 12 - s.pw.rail

/-- One bit per comparator. -/
def compBits (s : State) (f : Comparator → Bool) : Nat :=
  s.pw.comps.zipIdx.foldl (fun a x => a + flag x.2 (f x.1)) 0

/-- PSV_FAULT (R523). -/
def psvFault (s : State) : Nat := field 0 9 s.pw.faults + field 16 4 s.pw.faultRail + flag 20 s.pw.block

/-- Belvy copies each snapshot to the parameter store once it is running (R507). -/
def copySnaps (s : State) : State :=
  if s.mb.mpReady then
    { s with pw := { s.pw with snapsKept := s.pw.snaps.filter (fun x => !s.pw.snapsKept.contains x) ++ s.pw.snapsKept } }
  else s

/-- A snapshot is captured (R507); the newest 16 are kept. -/
def snap (cond code : Nat) (s : State) : State :=
  let x : Snapshot :=
    { rtc := rtc s, cycles := counter 0 s % 2 ^ 32, cond := cond, code := code, seq := psvSeq s, mode := modeOf s
      step := seqStep s, volts := s.pw.volts, currents := s.pw.currents, diodes := s.thm.diodes.map (· / 256)
      inWin := compBits s (·.inWin), enabled := compBits s (·.enabled), fault := psvFault s }
  copySnaps { s with pw := { s.pw with snaps := (x :: s.pw.snaps).take 16 } }

/-- A fault is latched with its comparator code (R500, R523): RAIL keeps the code of the first. -/
def latch (bit code : Nat) (block : Bool) (s : State) : State :=
  { s with pw := { s.pw with
    faults := setFlag bit true s.pw.faults
    faultRail := if s.pw.faults = 0 then code else s.pw.faultRail
    block := s.pw.block || block } }

/-- A latched condition of Table 16-5 with its snapshot and event (R500, R610). -/
def faultNow (bit code : Nat) (block : Bool) (s : State) : State :=
  event (if block then .supervisorBlock else .supervisorRecord) 5 [bit, code] (snap bit code (latch bit code block s))

/-! ### Losing power -/

/-- Marks which rails of codes 2 to 11 are enabled, and so in their windows; VAO and the inputs are unaffected. -/
def setRails (on : Nat → Bool) (s : State) : State :=
  { s with pw := { s.pw with
    comps := s.pw.comps.zipIdx.map (fun x =>
      if 2 ≤ x.2 && x.2 ≤ 11 then { x.1 with enabled := on x.2, inWin := on x.2 } else x.1) } }

/-- A comparator's reading enters or leaves its window (R491, R523). -/
def setWin (code : Nat) (inside : Bool) (s : State) : State :=
  { s with pw := { s.pw with
    comps := s.pw.comps.zipIdx.map (fun x => if x.2 = code then { x.1 with inWin := inside } else x.1) } }

/-- A walk continues from its last progress record (R449). -/
def resumeWalk (w : Walk) : Walk := { seg := w.seg, gen := w.gen, pinned := w.pinned, pos := w.recorded, recorded := w.recorded, done := w.recorded }

/-- The security block without VIN (R455, R449, R453): keys, sessions and the alarm are gone; walks stand at their recorded
positions. -/
def secLoss (x : Sec) : Sec :=
  let ws := (x.walks ++ x.queued).map resumeWalk
  { x with
    kids := [], sessions := [], rekey := none, rekeyReg := (0, 0, 0, 0), reenc := (0, x.reenc.2), alarm := 0, alarmCnt := 0
    macLast := (0, 0, 0, 0), leasing := [], walks := ws.take 16, queued := ws.drop 16 }

/-- A host port without VIN (R406, R432): the link is gone; windows, HDM decoders and aperture are kept. -/
def portLoss (h : HostPort) : HostPort :=
  { windows := h.windows, staged := h.staged, gen := h.gen, aperture := h.aperture, apNext := h.apNext, hdm := h.hdm }

/-- The registers of protection without VIN: the losses, the scrub's place and a commanded pass are kept. -/
def protLoss (x : Prot) : Prot :=
  { lostDie := x.lostDie, lostMc := x.lostMc, lostStack := x.lostStack, lostLpd := x.lostLpd, passes := x.passes
    progress := x.progress, sramSpare := x.sramSpare, scanning := x.scanning, passRows := x.passRows }

/-- A port's clamps and incarnation as its link goes with VIN (R423, R467). -/
def portGone (p : Port) (s : State) : State :=
  let s := releaseAll p.sender s
  if (s.port p).width = 0 then s
  else advanceInc (if p = .a then .portA else .portB) (event .hostLinkLost p.ix [p.ix] s)

/-- Bits 2 to 5 and 7 of DEV_COND as their conditions stand (R522). -/
def condBits (s : State) : Nat :=
  flag 2 s.thm.progHold + flag 3 s.prot.degraded + flag 4 (decide (0 < s.thm.level)) + flag 5 (s.dr.top == 4) + flag 7 s.ck.failed

/-- The model's own phases without the circuits that set those bits: DEV_COND shows what it kept (R9). -/
def condHeld (s : State) : Bool :=
  s.pw.phase == .off || s.pw.phase == .standby || s.pw.phase == .powerDown || s.pw.phase == .boot

/-- DEV_COND keeps its bits as VIN goes (R9). -/
def keepCond (s : State) : State :=
  if condHeld s then s else { s with pw := { s.pw with condKept := condBits s } }

/-- Everything outside the always-on domain, the parameter store and the medium is lost (R474, R522, Table 00-3): the
management processor stops (R423), the links go down (R406), caches, LPDDR6, queues and counters are as at their reset. -/
def volatileLoss (s : State) : State :=
  let s := portGone .b (portGone .a (releaseAll .mp s))
  { s with
    mb := { s.mb with mpReady := false, forwards := [], fwRestart := none, winSel := [0, 0] }
    evr := { s.evr with dropped := 0, cursors := [{}, {}, {}, {}] }
    pmc := {}, trb := {}
    sched := { nSlots := s.sched.nSlots }
    tr := { s.tr with hints := [], slots := [], relocs := [], wbacks := [], lookD := [], lookE := [], pred := [], remapReq := s.tr.remapReq }
    dr := { s.dr with survey := false, toSurvey := [], top := 0, bucket := [] }
    prot := protLoss s.prot
    per := { interval := s.per.interval, intervalNx := s.per.intervalNx, charger := false, measDue := false, vhold := s.per.vhold }
    ck := { s.ck with replaying := false, failed := false }
    cache := {}
    dram := { rSize := s.dram.rSize, rate := s.dram.rate, rateNx := s.dram.rateNx, pdTimer := s.dram.pdTimer
              chans := s.dram.chans.map (fun x => (x.1, { mark := x.2.mark })) }
    coh := { holdNs := s.coh.holdNs }
    sgl := { cfg := s.sgl.cfg, cfgNx := s.sgl.cfgNx, gather := s.sgl.gather, holdLim := s.sgl.holdLim, lsaSeq := s.sgl.lsaSeq }
    fab := {}
    portA := portLoss s.portA, portB := portLoss s.portB
    cxlA := { s.cxlA with lsaWait := [], bg := none, actWait := false }
    cxlB := { s.cxlB with lsaWait := [], bg := none, actWait := false }
    sec := secLoss s.sec
    thm := { cfg := s.thm.cfg, broken := s.thm.broken } }

/-- The contents of the always-on domain are lost (R495, R500, R571): boxes, clamps, latched faults, snapshots, settings,
the RTC and the flags of Table 07-4; a page write in progress is cut (R563). The newest record keeps the REPEAT last
written. -/
def aoLoss (s : State) : State :=
  let s := pstCut s
  let up := s.pw.phase != .off && s.pw.phase != .standby
  let recs := match newest s with
    | some r => Table.put s.evr.recs (r.seq % 4096) { r with rep := r.repStored }
    | none => s.evr.recs
  { s with
    pw := { s.pw with
      pstate := .active, requested := .active, startArmed := false, autoRestart := true, stepTimeout := 3, restart := none
      junctionWait := false, hold := false, rail := 0, fallback := false, fallbackWait := false, clkBackup := false
      xtalFail := false, scan := false, unlocked := false, tap := .idcode, faults := 0, faultRail := 0, block := false, snaps := [], changes := 0
      condKept := 0, volts := List.replicate 14 0, currents := List.replicate 14 0
      comps := s.pw.comps.zipIdx.map (fun x => { nthD defaultComparators x.2 x.1 with inWin := x.1.inWin, enabled := x.1.enabled }) }
    ck := { s.ck with
      aoLost := s.ck.aoLost || up || s.ck.flushed || s.ck.shutOff.isSome, flushed := false, flushHold := false, shutOff := none }
    mb := { s.mb with
      boxes := [{}, {}, {}, {}, {}], clamps := List.replicate 16 {}, relays := [], fabInc := []
      open_ := s.mb.open_.filter (·.accepted) }
    evr := { s.evr with recs := recs, queue := [], rtcBase := 0, rtcAt := s.now, rtcSet := false }
    pst := { s.pst with ports := [{}, {}, {}, {}] }
    portA := { s.portA with staged := [] }, portB := { s.portB with staged := [] }
    dr := { s.dr with edLost := true } }

/-- An immediate shut-off (R501): every rail fed from VIN or VHOLD is off; no Flush is made; the first one's loss kind
stands until the next Replay (R258; DESIGN CHOICE, log 110). The device is in Standby. -/
def shutOffNow (kind : Nat) (s : State) : State :=
  let s := { s with ck := { s.ck with shutOff := some (s.ck.shutOff.getD kind) } }
  let s := volatileLoss (setRails (fun _ => false) (keepCond s))
  updateMode { s with pw := { s.pw with phase := .standby, pstate := .active, rail := 0, scan := false } }

/-- The power-down sequence starts at a rail (R504, R571, R496): VPGM, or the last rail enabled (R499). -/
def startPowerDown (rail : Nat) (s : State) : State :=
  let s := keepCond (storeRepeat s)
  let s := volatileLoss { s with pw := { s.pw with phase := .powerDown, startArmed := false, rail := rail, fallback := false, fallbackWait := false, scan := false } }
  updateMode { s with pw := { s.pw with pstate := .active } }

/-! ### Flush -/

/-- Flush on loss of VIN (Table 16-5): its snapshot, its event and the entry; AUTO_RESTART arms the restart (R512). -/
def vinFlush (s : State) : State :=
  let s := event .supervisorFlush 5 [0] (snap 0xFF 0 (setWin 0 false s))
  enterFlush { s with pw := { s.pw with restart := some s.pw.autoRestart } }

/-- The controller junction's shutdown temperature (Table 16-5): JUNCTION is latched, Flush is entered, and START_ARMED waits
for the diodes. -/
def junctionFlush (s : State) : State :=
  let s := event .supervisorJunction 5 [7] (snap 7 0 (latch 7 0 false s))
  enterFlush { s with pw := { s.pw with restart := none, junctionWait := true } }

/-- An orderly shutdown (R502): its restart bit arms the restart (R512). -/
def shutdownFlush (restart : Bool) (s : State) : State := enterFlush { s with pw := { s.pw with restart := some restart } }

/-- The controller junction has reached its shutdown temperature (R532, R539). -/
def junctionHot (s : State) : Bool := decide ((nthD s.thm.cfg.jct 2 0 : Nat) * degree ≤ junction s)

/-- Flush is entered (R502), for the junction where it has reached its shutdown temperature; once entered, a second trigger
changes nothing (R503). -/
def execFlushEntry (cause : FlushCause) (s : State) : Host.Outcome State Fault Refusal :=
  .next (
    if s.pw.phase != .service then s
    else
      match cause with
      | .vin => vinFlush s
      | .shutdown => shutdownFlush (s.pw.restart.getD false) s
      | .junction => if junctionHot s then junctionFlush s else s)

/-- Flush ends (Table 07-5 steps 6 and 7): the clean loss record is written and the power-down sequence begins. -/
def execFlushDone (s : State) : Host.Outcome State Fault Refusal :=
  .next (if flushComplete s then startPowerDown 11 (finishFlush s) else s)

/-! ### Inputs -/

/-- Rails other than VAO are on. -/
def railsOn (s : State) : Bool := (s.pw.phase != .off && s.pw.phase != .standby) || s.pw.scan

/-- VAUX has stayed in its window (R495): Standby, with START_ARMED set (R496); the RTC counts from 0 and is not set (R570). -/
def execVauxApply (s : State) : Host.Outcome State Fault Refusal :=
  .next (
    if s.pw.phase != .off then s
    else
      let s := setWin 1 true (setWin 13 true s)
      updateMode { s with
        pw := { s.pw with phase := .standby, startArmed := true }
        evr := { s.evr with rtcBase := 0, rtcAt := s.now, rtcSet := false } })

/-- VAUX falls below its UV threshold (Table 16-5): every rail is off, and the always-on contents are lost; the metering
partition saves itself (R548). -/
def execVauxLoss (s : State) : Host.Outcome State Fault Refusal :=
  .next (
    if s.pw.phase == .off then s
    else
      let s := meterSave (event .vauxLost 5 [13] (snap 0xFF 13 (setWin 13 false s)))
      let s := aoLoss (volatileLoss (setRails (fun _ => false) s))
      { s with pw := { s.pw with phase := .off, mode := 0 } })

/-- VIN falls below its UV threshold, unfiltered (R490): the rails pass to VHOLD and the charger stops (R232). -/
def execVinDrop (s : State) : Host.Outcome State Fault Refusal :=
  .next { s with
    pw := { s.pw with sourceHold := railsOn s, vinQualified := false }
    per := { s.per with charger := false } }

/-- VIN has stayed above its UV threshold plus 0.3 V (R490): the rails pass back to VIN, and the charger runs again where it
may (R232). -/
def execVinReturn (s : State) : Host.Outcome State Fault Refusal :=
  let s := setWin 0 true { s with pw := { s.pw with sourceHold := false, vinQualified := true } }
  .next { s with per := { s.per with charger := chargerMay s && !s.per.measuring } }

/-- VIN below its UV threshold for the filter time (Table 16-5): Flush in service; the power-down sequence at once in Boot
and Replay. -/
def execVinUnderVoltage (s : State) : Host.Outcome State Fault Refusal :=
  .next (
    match s.pw.phase with
    | .service => vinFlush s
    | .boot =>
      let s := event .supervisorFlush 5 [0] (snap 0xFF 0 (setWin 0 false s))
      startPowerDown 11 { s with pw := { s.pw with restart := none } }
    | .replay =>
      let s := event .supervisorFlush 5 [0] (snap 0xFF 0 (setWin 0 false s))
      startPowerDown 11 { s with pw := { s.pw with restart := none } }
    | .off => s
    | .standby => s
    | .flush => s
    | .powerDown => s)

/-- VIN above its OV threshold with rails on (Table 16-5): immediate shut-off. -/
def execVinOverVoltage (s : State) : Host.Outcome State Fault Refusal :=
  .next (if railsOn s then shutOffNow 2 (faultNow 4 0 true (setWin 0 false s)) else s)

/-- A rail of code 2 to 11 leaves its window (Table 16-5): immediate shut-off from its step 3 in Boot on; in the power-down
sequence, before its own step, it is recorded and latched (R511). -/
def execRailFault (code : Nat) (s : State) : Host.Outcome State Fault Refusal :=
  .next (
    if code < 2 || 11 < code then s
    else
      match s.pw.phase with
      | .boot => if 3 ≤ s.pw.bootStep then shutOffNow 2 (faultNow 1 code true (setWin code false s)) else s
      | .replay => shutOffNow 2 (faultNow 1 code true (setWin code false s))
      | .service => shutOffNow 2 (faultNow 1 code true (setWin code false s))
      | .flush => shutOffNow 2 (faultNow 1 code true (setWin code false s))
      | .powerDown => if code < s.pw.rail then faultNow 2 code true (setWin code false s) else s
      | .off => s
      | .standby => s)

/-- VAO leaves its window (Table 16-5): every rail is off at once, VAO included, and the always-on contents are lost; the
latched fault and its snapshot are what the supervisor then holds. -/
def execVaoFault (s : State) : Host.Outcome State Fault Refusal :=
  .next (
    if s.pw.phase == .off then s
    else
      let s := aoLoss (volatileLoss (setRails (fun _ => false) s))
      let s := faultNow 5 1 true (setWin 1 false s)
      updateMode { s with pw := { s.pw with phase := .standby } })

/-- VHOLD enters or leaves its window (Table 16-5): outside it in service ACCEPT ends, and on over-voltage the charger stops
and VHOLD_OV is latched; inside it the charger may run again (R232). -/
def execVholdWindow (inside above : Bool) (s : State) : Host.Outcome State Fault Refusal :=
  let s := setWin 12 inside s
  .next (
    if inside then updateAccept { s with per := { s.per with charger := s.per.charger || (chargerMay s && !s.per.measuring) } }
    else if s.pw.phase != .service then s
    else if above then
      let s := faultNow 8 12 false s
      updateAccept { s with per := { s.per with charger := false } }
    else updateAccept (event .supervisorRecord 5 [8, 12] (snap 8 12 s)))

/-- VHOLD reaches its floor in Flush while VIN is below UV (Table 16-5): immediate shut-off with loss kind 1. -/
def execHoldShort (s : State) : Host.Outcome State Fault Refusal :=
  .next (if s.pw.phase == .flush && s.pw.sourceHold then shutOffNow 1 (faultNow 6 12 false s) else s)

/-- A write of 1 to PSV_CTRL.START by the sideband, or by the MP with its rights (R608), sets START_ARMED (R496); a port's
is a violation (R523). -/
def execPsvStart (snd : Sender) (s : State) : Host.Outcome State Fault Refusal :=
  .next (match snd.port? with
    | some _ => noRight snd true 0x8010 s
    | none => { s with pw := { s.pw with startArmed := true } })

/-! ### Power-down -/

/-- The next rail of the power-down sequence is off (R504). -/
def nextRail (s : State) : State :=
  let s := setRails (fun c => decide (c < s.pw.rail)) s
  { s with pw := { s.pw with rail := s.pw.rail - 1, fallbackWait := false } }

/-- The rail of the step is disabled and off (R504). -/
def execPowerdownStep (s : State) : Host.Outcome State Fault Refusal :=
  .next (if s.pw.phase == .powerDown && 2 ≤ s.pw.rail then nextRail s else s)

/-- A rail is still on at its step timeout (R505): the sequence moves to the fall-back, with a snapshot and an event. -/
def execPowerdownStepTimeout (s : State) : Host.Outcome State Fault Refusal :=
  .next (
    if s.pw.phase == .powerDown && 2 ≤ s.pw.rail && !s.pw.fallback then
      let s := event .supervisorRecord 5 [3, s.pw.rail] (snap 3 s.pw.rail s)
      { s with pw := { s.pw with fallback := true, fallbackWait := true } }
    else s)

/-- A rail is still on after 20 ms of the fall-back (R505): SLOW_DISCHARGE is latched, and the next step begins. -/
def execFallbackTimeout (s : State) : Host.Outcome State Fault Refusal :=
  .next (if s.pw.phase == .powerDown && 2 ≤ s.pw.rail && s.pw.fallback then nextRail (faultNow 3 s.pw.rail false s) else s)

/-- VIO is off (Table 16-6 step 11): Standby, the hold begins, and START_ARMED follows R512. -/
def execPowerdownEnd (s : State) : Host.Outcome State Fault Refusal :=
  .next (
    if s.pw.phase == .powerDown && s.pw.rail < 2 then
      let s := setRails (fun _ => false) s
      updateMode { s with pw := { s.pw with
        phase := .standby, hold := true, rail := 0, startArmed := s.pw.startArmed || s.pw.restart.getD false, restart := none } }
    else s)

/-- The hold of 100 ms ends (R497). -/
def execStandbyHoldExpire (s : State) : Host.Outcome State Fault Refusal := .next { s with pw := { s.pw with hold := false } }

/-! ### Boot -/

/-- The conditions of R497; scan power has the supervisor in Standby (R586). -/
def bootMay (s : State) : Bool :=
  s.pw.phase == .standby && s.pw.startArmed && !s.pw.block && s.pw.vinQualified && !s.pw.hold && !s.pw.scan

/-- Words of the lease log that a loss of power caught before they were programmed read ERR, and are skipped (R441). -/
def dropUnwritten (x : Sec) : Table (BitVec 32) :=
  x.leaseRecs.filter (fun w => !x.leasing.any (fun y => w.2.toNat % 2 ^ 22 == (leaseWord y.1 y.2 0).toNat))

/-- Every counter starts at its segment's lease, and the lease above is recorded (R440, R441; log 5). -/
def bootLeases (x : Sec) : Sec :=
  let x := { x with leaseRecs := dropUnwritten x, leasing := [] }
  let x := recordLeases ((List.range 4096).map (fun g => (g, Table.getD x.leases g x.leaseBase + 2 ^ 22))) x
  { x with
    ctrs := (List.range 16).flatMap (fun h =>
      x.leases.map (fun y => (h * 4096 + y.1, min y.2 (genLast (Table.getD x.gens y.1 0)))))
    ctrBase := min x.leaseBase (genLast 0)
    leases := x.leases.map (fun y => (y.1, y.2 + 2 ^ 22))
    leaseBase := x.leaseBase + 2 ^ 22 }

/-- POOL_STATE before any membership: stand-alone, forming, or excluded for a node that is not on the roster (R386, R400). -/
def poolStart (c : PoolCfg) : Nat :=
  if c.pool = 0 || !c.nodeSet then 0 else if c.roster / 2 ^ c.node % 2 = 1 then 1 else 3

/-- Boot is entered (R497, R498): the settings for this Boot take effect (Table 15-7), POWER_CYCLES counts, a freeze ends
(R575), PREPARE_RETURN is over (R486). -/
def enterBoot (s : State) : State :=
  let s := incCounter 0 s
  let s := { s with
    pw := { s.pw with phase := .boot, startArmed := false, junctionWait := false, bootStep := 2, returnDone := false, unlocked := false }
    evr := { s.evr with frozen := false, frozenReturn := false }
    sgl := { s.sgl with cfg := s.sgl.cfgNx, state := poolStart s.sgl.cfgNx }
    dram := { s.dram with rate := s.dram.rateNx }
    mb := { s.mb with active := s.mb.nextSlot }
    portA := { s.portA with aperture := s.portA.apNext }
    portB := { s.portB with aperture := s.portB.apNext }
    sec := bootLeases s.sec }
  let s := updateMode s
  { s with pw := { s.pw with changes := 0 } }

/-- Standby passes to Boot (R497). -/
def execBootEntry (s : State) : Host.Outcome State Fault Refusal := .next (if bootMay s then enterBoot s else s)

/-- A journalled command found open at Belvy's start after a loss of power (R475): a retirement and a window commit are
complete, a re-key has lost its keys and is ABORTED, and a command without a lasting effect is executed again from its
message. The others go on. -/
def recoverOp (s : State) (o : BgOp) : State :=
  if o.fin.isSome then s
  else if o.op = 0x202 || o.op = 0x102 then endOp o 0 s
  else if o.op = 0x203 then endOp o 10 s
  else if o.accepted || o.op = 0xF00 then s
  else { s with mb := { s.mb with open_ := s.mb.open_.erase o } }

/-- Step 6: Belvy runs; the stored settings are restored, comparators included (R493); the snapshots taken meanwhile are
copied (R507); open commands are recovered; the image's security version raises the minimum (R485). -/
def belvyStarts (s : State) : State :=
  let s := copySnaps { s with
    mb := { s.mb with mpReady := true }
    pw := { s.pw with
      autoRestart := s.pw.autoStored.1, stepTimeout := s.pw.autoStored.2
      comps := s.pw.comps.zipIdx.map (fun (x : Comparator × Nat) =>
        { nthD s.pw.compsStored x.2 x.1 with inWin := x.1.inWin, enabled := x.1.enabled }) } }
  let slot := nthD s.mb.slots (s.mb.active % 2) {}
  returnCheck (s.mb.open_.foldl recoverOp { s with mb := { s.mb with minSec := max s.mb.minSec slot.secVersion } })

/-- Step 5: the boot ROM checks the active image; where it fails it is no image that can run, and the other slot is loaded
where that is valid (PRESUMED, log 35). -/
def loadImage (ok : Bool) (s : State) : State :=
  if ok then s
  else
    let a := s.mb.active % 2
    let o := 1 - a
    let s := { s with mb := { s.mb with slots := setNth s.mb.slots a { nthD s.mb.slots a {} with state := 4 } } }
    if (nthD s.mb.slots o {}).state = 3 then
      event .fwFellBack 4 [o] { s with mb := { s.mb with active := o, nextSlot := o } }
    else s

/-- The active image is one that can run. -/
def imageRuns (s : State) : Bool := (nthD s.mb.slots (s.mb.active % 2) {}).state == 3

/-- Step 7: training of the LPDDR6 (R305) and the medium channels (R80): the faults found are those of R311 and R225, with
nothing held and nothing to copy; the remote cache is limited as R314 gives. -/
def trainMemories (inp : BootInput) (s : State) : State :=
  let fails := inp.dramFail.filter (fun c => decide (c < 16))
  let s := { s with dram := { s.dram with rate := if fails.isEmpty then min s.dram.rate inp.dramRate else 0 } }
  let s := (inp.dqFail.filter (fun x => decide (x < 384))).foldl (fun s x =>
    match (chanAt s (x / 24)).mark with
    | none => putChan (x / 24) { chanAt s (x / 24) with mark := some (x % 24) } s
    | some d => if d = x % 24 then s else declareFailed (.lpddr (x / 24)) s) s
  let s := fails.foldl (fun s c => declareFailed (.lpddr c) s) s
  let s := (inp.mediumFail.filter (fun c => decide (c < 16))).foldl (fun s c => declareFailed (.channel c) s) s
  { s with
    dram := { s.dram with remir := none, rSize := if s.prot.lostLpd = 0 then s.dram.rSize else min s.dram.rSize 2 }
    prot := { s.prot with faults := [] }
    sched := { s.sched with held := false, trained := (List.range 16).map (fun c => (c, s.now)) } }

/-- A value is put into a rising list. -/
def insertUp (x : Int) : List Int → List Int
  | [] => [x]
  | y :: ys => if x ≤ y then x :: y :: ys else y :: insertUp x ys

/-- The median of the diode readings: of eight, the mean of the fourth and fifth (DEDUCED, log 8). -/
def median (ds : List Int) : Int :=
  let l := ds.foldr insertUp []
  (l.getD ((l.length - 1) / 2) 0 + l.getD (l.length / 2) 0) / 2

/-- A diode passes its self-test (R529): readings in 1/256 °C. -/
def diodePasses (inp : BootInput) (d : Nat) : Bool :=
  let t := nthD inp.diodes d 0
  decide (-10240 ≤ t) && decide (t ≤ 38400) && decide ((t - median inp.diodes).natAbs ≤ 2560)
    && decide (nthD inp.diodeSpread d 0 ≤ 512)

/-- Step 9: the diode self-test; a diode that fails stays broken, with an event (R529). Replay begins. -/
def selfTest (inp : BootInput) (s : State) : State :=
  let bad := (List.range 8).filter (fun d => !diodePasses inp d)
  let s := { s with thm := { s.thm with broken := bad.foldl (fun a d => a + 2 ^ d) 0, diodes := inp.diodes } }
  let s := bad.foldl (fun s d => event .diodeBroken 6 [d] s) s
  let s := updateMode { s with pw := { s.pw with phase := .replay, condKept := 0 } }
  { s with pw := { s.pw with changes := 0 } }

/-- The next step of Boot completes (Table 16-4). -/
def execBootStep (inp : BootInput) (s : State) : Host.Outcome State Fault Refusal :=
  .next (
    if s.pw.phase != .boot then s
    else
      let n := s.pw.bootStep + 1
      let s := { s with pw := { s.pw with bootStep := n } }
      if n = 3 then setRails (fun _ => true) s
      else if n = 5 then loadImage inp.imageOk s
      else if n = 6 then (if imageRuns s then belvyStarts s else s)
      else if n = 7 then trainMemories inp s
      else if n = 8 then
        let s := { s with per := { s.per with charger := !s.pw.sourceHold, measDue := true } }
        if s.dr.edLost then
          let s := restoreEd s
          { s with dr := { s.dr with edLost := false } }
        else s
      else if n = 9 then selfTest inp s
      else s)

/-- A rail does not reach its window within 5 ms in step 3 (R499): START_TIMEOUT is latched with its code, and the rails
already enabled are disabled in reverse order. Which rail it is the event does not say: a free value (log 6). -/
def execRailStartTimeout (s : State) : Host.Outcome State Fault Refusal :=
  .next (
    if s.pw.phase == .boot && s.pw.bootStep = 2 then
      let d := draw s
      let code := 2 + Config.freeNat d.1 % 10
      let s := faultNow 0 code true (setRails (fun c => decide (c ≤ code)) d.2)
      startPowerDown code { s with pw := { s.pw with restart := none } }
    else s)

/-! ### Clocks and Deep Idle -/

/-- REFCLK has had no edge for 1 µs (R514): the backup oscillator takes over, and every host and SGL link goes down. -/
def execRefclkLoss (s : State) : Host.Outcome State Fault Refusal :=
  .next (
    if s.pw.clkBackup || !modelRuns s || (s.pw.phase == .boot && s.pw.bootStep < 4) then s
    else
      let s := event .refclkLost 5 [] { s with pw := { s.pw with clkBackup := true } }
      let s := if s.portA.width = 0 then s else linkLost .a s
      let s := if s.portB.width = 0 then s else linkLost .b s
      (List.range 8).foldl (fun s p => if (sglAt s p).st == .down then s else linkDown p s) s)

/-- REFCLK is back (R514): the PLLs return to it; the links retrain by their own commands. -/
def execRefclkReturn (s : State) : Host.Outcome State Fault Refusal := .next { s with pw := { s.pw with clkBackup := false } }

/-- The crystal has stopped for 100 ms (R515). -/
def execXtalFail (s : State) : Host.Outcome State Fault Refusal :=
  .next (
    if s.pw.phase == .off || s.pw.xtalFail then s
    else event .crystalStopped 5 [] { s with pw := { s.pw with xtalFail := true } })

/-- Engine work is pending other than Routine refresh and patrol scrub (Table 16-9). -/
def engineWork (s : State) : Bool :=
  decide (2 ≤ topLevel s) || !s.tr.relocs.isEmpty || !s.tr.wbacks.isEmpty || !s.sec.walks.isEmpty || !s.sec.queued.isEmpty
    || s.sec.rekey.isSome || s.dram.remir.isSome || decide (0 < claimedCount s) || s.dr.survey || s.ck.formatting

/-- A memory request is in progress. -/
def requestsOpen (s : State) : Bool :=
  !s.cache.mshrs.isEmpty || !s.sched.reads.isEmpty || !s.fab.hold.isEmpty || !s.fab.rwq.isEmpty

/-- The conditions of entry to Deep Idle (Table 16-9). -/
def deepIdleMay (s : State) : Bool :=
  s.pw.phase == .service && s.pw.requested == .deepIdle && s.pw.pstate != .deepIdle && !conditionApplies s && dirty s == 0
    && s.per.draining.isEmpty && !s.per.openHolds && !engineWork s && !requestsOpen s

/-- Deep Idle is entered (R517, R519): the LPDDR6 is in self-refresh. -/
def execDeepIdleEntry (s : State) : Host.Outcome State Fault Refusal :=
  .next (
    if deepIdleMay s then
      updateMode { s with pw := { s.pw with pstate := .deepIdle }, dram := { s.dram with selfRef := true } }
    else s)

/-- A wake from Deep Idle (R519, Table 16-9). -/
def execDeepIdleWake (s : State) : Host.Outcome State Fault Refusal := .next (updateMode (wake s))

/-! ### The management processor's restart -/

/-- The MP stops (R197, R485): its clamps are released with BROKEN (R423), its incarnation advances (Table 15-1), and
MP_RESTARTS counts. -/
def stopMp (s : State) : State :=
  incCounter 4 (releaseAll .mp { s with mb := { s.mb with mpReady := false, mpInc := (s.mb.mpInc + 1) % 16, forwards := [] } })

/-- An uncorrectable MP fetch or read traps, and the MP restarts (R197). -/
def execMpTrap (s : State) : Host.Outcome State Fault Refusal := .next (if s.mb.mpReady then stopMp s else s)

/-- What Belvy does with an open command after a restart of the MP alone (R475): those without a lasting effect are executed
again from their messages; the others' engines have gone on. -/
def resumeOp (s : State) (o : BgOp) : State :=
  if o.fin.isSome || o.accepted || o.op = 0x102 || o.op = 0x803 || o.op = 0xF00 then s
  else { s with mb := { s.mb with open_ := s.mb.open_.erase o } }

/-- An Activate FW of a port's CXL mailbox is answered (R430, R485): Success, or that the previous image was restored. -/
def answerActivate (p : Port) (ok : Bool) (s : State) : State :=
  if (s.cxl p).actWait then
    emit (.cxl p 0x0202 (if ok then 0 else 12) []) (s.setCxl p { s.cxl p with actWait := false })
  else s

/-- The end of an online activation (R485): OK, or the previous slot is loaded again and answers ABORTED. -/
def endActivation (ok : Bool) (s : State) : State :=
  match s.mb.fwRestart with
  | none => s
  | some (new, old) =>
    let s := answerActivate .b ok (answerActivate .a ok { s with mb := { s.mb with fwRestart := none } })
    if ok then
      let sec := max s.mb.minSec (nthD s.mb.slots (new % 2) {}).secVersion
      endOps 0x803 (fun _ => true) 0 { s with mb := { s.mb with active := new, nextSlot := new, minSec := sec } }
    else
      event .fwFellBack 4 [old] (endOps 0x803 (fun _ => true) 10 { s with mb := { s.mb with active := old, nextSlot := old } })

/-- The MP accepts messages again (R197, R475, R485): after an activation with the image that its check leaves, else with the
active image loaded as at Boot step 5; with no image that can run it does not. -/
def execMpRestartDone (checkOk : Bool) (s : State) : Host.Outcome State Fault Refusal :=
  .next (
    if s.mb.mpReady || !modelRuns s || (s.pw.phase == .boot && s.pw.bootStep < 6) then s
    else
      let s := if s.mb.fwRestart.isSome then s else loadImage checkOk s
      if s.mb.fwRestart.isNone && !imageRuns s then s
      else
        let s := event .mpRestarted 4 [] (copySnaps { s with mb := { s.mb with mpReady := true } })
        endActivation checkOk (s.mb.open_.foldl resumeOp s))

end Sys2Proof.Machine
end

