-- ==== Sys2Proof/Machine/Views.lean ====
section
/-! DEFINITION. What the registers show: the word of each register as its sender reads it (the register tables of 06, 07, 08,
12, 13, 14, 15, 16, 17, 19). -/

namespace Sys2Proof.Machine

/-- A word from a sum of fields. -/
def word (n : Nat) : Word := BitVec.ofNat 64 n

/-! ### DEV and PSV (16) -/

/-- The code of a power state (R522). -/
def PState.code : PState → Nat
  | .active => 0
  | .doze => 1
  | .deepIdle => 2

/-- The Belvy version that runs; 0 while Belvy is not running (R522). -/
def fwVersion (s : State) : Nat := if s.mb.mpReady then (nthD s.mb.slots (s.mb.active % 2) {}).version else 0

/-- DEV_ID. -/
def devId (s : State) : Word := word (0x00B07404 + field 32 32 (fwVersion s))

/-- DEV_MODE. -/
def devMode (s : State) : Word :=
  word (field 0 4 s.pw.mode + field 4 2 s.pw.pstate.code + field 6 2 s.pw.requested.code + flag 8 s.pw.startArmed
    + field 32 32 s.pw.changes)

/-- DEV_COND. DUR_COMMIT is shown while the device has a durability mode, from the end of Replay until power-down
(DEDUCED, log 36); bits 2 to 5 and 7 keep through a loss of VIN what they showed (R9). -/
def devCond (s : State) : Word :=
  word (flag 0 (s.pw.phase == .flush) + flag 1 s.tr.readOnly + (if condHeld s then s.pw.condKept else condBits s)
    + flag 6 ((s.pw.phase == .service || s.pw.phase == .flush) && !s.per.accept)
    + flag 8 (s.pw.faults != 0) + flag 9 s.pw.clkBackup + flag 10 s.pw.returnDone + flag 11 (s.sec.sanitize != 0))

/-- DEV_THROTTLE. -/
def devThrottle (s : State) : Word :=
  word (field 0 2 (min s.thm.level 2) + flag 2 s.thm.enforced + field 8 8 (limitNow s) + field 16 16 s.thm.grace)

/-- The DEV block by offset. -/
def devReg (off : Nat) (s : State) : Word :=
  match off with
  | 0x0000 => devId s
  | 0x0008 => devMode s
  | 0x0010 => devCond s
  | 0x0018 => devThrottle s
  | _ => 0

/-- PSV_STATUS. -/
def psvStatus (s : State) : Word :=
  word (field 0 4 (psvSeq s) + field 4 4 (if s.pw.phase == .powerDown then s.pw.rail else 0) + flag 8 s.pw.sourceHold
    + flag 9 s.pw.fallback + flag 10 s.pw.clkBackup + flag 11 s.pw.xtalFail + field 16 5 s.pw.snaps.length)

/-- Four 16-bit fields of a list, from an index on; only the first n of them. -/
def quad (l : List Nat) (i n : Nat) : Word :=
  word ((List.range 4).foldl (fun a j => if j < n then a + field (16 * j) 16 (nthD l (i + j) 0) else a) 0)

/-- PSV_WIN_n. -/
def psvWin (n : Nat) (s : State) : Word :=
  match s.pw.comps[n]? with
  | none => 0
  | some c => word (field 0 8 c.uv + field 8 8 c.ov + field 16 8 c.filter + flag 24 c.inWin + flag 25 c.enabled
      + (if n = 0 then field 32 4 s.pw.stepTimeout + flag 36 s.pw.autoRestart else 0))

/-- The PSV block by offset. -/
def psvReg (off : Nat) (s : State) : Word :=
  let v := s.pw.volts
  match off with
  | 0x8000 => psvStatus s
  | 0x8008 => word (psvFault s)
  | 0x8018 => word (field 0 16 (nthD v 0 0) + field 16 16 (nthD v 13 0) + field 32 16 (nthD v 12 0))
  | 0x8020 => quad v 1 4
  | 0x8028 => quad v 5 4
  | 0x8030 => quad v 9 3
  | 0x8038 => quad s.pw.currents 0 4
  | 0x8040 => quad s.pw.currents 4 4
  | 0x8048 => quad s.pw.currents 8 4
  | 0x8050 => quad s.pw.currents 12 2
  | _ => if 0x8080 ≤ off && off < 0x80F0 then psvWin ((off - 0x8080) / 8) s else 0

/-- A snapshot's twelve words (Table 16-7): in words 2 to 9 the readings stand in the order of PSV_IN and PSV_RAIL. -/
def snapWords (x : Snapshot) : List Word :=
  let v := [nthD x.volts 0 0, nthD x.volts 13 0, nthD x.volts 12 0] ++ (List.range 11).map (fun i => nthD x.volts (i + 1) 0)
  [ word (field 0 32 x.rtc + field 32 32 x.cycles),
    word (field 0 8 x.cond + field 8 4 x.code + field 12 4 x.seq + field 16 4 x.mode + field 20 4 x.step),
    quad v 0 4, quad v 4 4, quad v 8 4, quad v 12 2,
    quad x.currents 0 4, quad x.currents 4 4, quad x.currents 8 4, quad x.currents 12 2,
    word ((List.range 8).foldl (fun a d => a + field (8 * d) 8 ((nthD x.diodes d 0) % 256).toNat) 0),
    word (field 0 14 x.inWin + field 16 14 x.enabled + field 32 32 x.fault) ]

/-! ### MBX, CLP and WIN (13, 15) -/

/-- MBX_STATUS of a sender's boxes. -/
def mbxStatus (b : BoxId) (s : State) : Word :=
  let x := boxOf s b
  word (flag 0 (!x.inbox.isEmpty) + flag 1 x.outFull + flag 2 x.overrun + flag 3 x.drwOverrun + field 4 4 x.inc
    + flag 8 s.mb.mpReady)

/-- The MBX block by offset, of a sender's boxes. -/
def mbxReg (b : BoxId) (off : Nat) (s : State) : Word :=
  let x := boxOf s b
  match off with
  | 0x1000 => x.inWord
  | 0x1008 => mbxStatus b s
  | 0x1010 => word (flag 0 x.ack + field 16 16 x.rc + field 32 16 x.tag)
  | 0x1018 => x.outWord
  | 0x1030 => word (field 0 7 x.inDrw.length + field 8 7 (drwCount x.outDrw))
  | 0x1038 => if drwCount x.outDrw = 0 then 0 else ((x.outDrw.head?).map Stage.val).getD 0
  | _ => 0

/-- CLP_STATUS (R433). -/
def clpStatus (s : State) : Word :=
  word ((List.range 16).foldl (fun a n =>
    let c := nthD s.mb.clamps n {}
    a + flag n (c.owner != 0) + flag (16 + n) c.broken) 0)

/-- The port a sender's WIN block shows (R432): its own, or that of its WIN_SEL. -/
def winPort (snd : Sender) (s : State) : Port :=
  match snd.port? with
  | some p => p
  | none => if nthD s.mb.winSel (snd.ix - 2) 0 = 0 then .a else .b

/-- Memory_Active (R407, R464). -/
def memActive (s : State) : Bool := (s.pw.phase == .service || s.pw.phase == .flush) && s.sec.sanitize == 0

/-- The four registers of a window (R432): none valid reads 0. -/
def windowWords (w : Window) : List Word :=
  [ word (flag 0 w.valid + flag 1 w.rd + flag 2 w.wr + w.hbase / 2 ^ 28 % 2 ^ 24 * 2 ^ 28),
    word (w.pbase / 2 ^ 28 % 2 ^ 24 * 2 ^ 28), word (field 0 25 w.size),
    word (field 0 12 (nthD w.kids 0 0) + field 12 3 w.kbits + field 16 6 w.kshift + field 24 6 w.tenant + field 32 16 w.kvalid) ]

/-- KID list entries 1 to 15, five to a word (Table 15-6). -/
def kidWords (w : Window) : List Word :=
  (List.range 3).map (fun i => word ((List.range 5).foldl (fun a j => a + field (12 * j) 12 (nthD w.kids (5 * i + j + 1) 0)) 0))

/-- WIN_VLAST (R432): for KIND 5 the offset stands in bits [27:12]. -/
def winVlast (h : HostPort) : Word :=
  let v := h.vlast
  word (field 0 3 v.1 + flag 3 v.2.1 + (if v.1 = 5 then field 12 16 v.2.2 else v.2.2 / 4096 % 2 ^ 52 * 4096))

/-- The WIN block by offset. -/
def winReg (snd : Sender) (off : Nat) (s : State) : Word :=
  let p := winPort snd s
  let h := s.port p
  match off with
  | 0x3000 => word ((match snd.port? with | some q => q.ix | none => 2) + field 2 3 h.width + field 5 2 h.rate + flag 7 h.loflit
      + flag 8 h.ide + flag 9 (memActive s) + field 24 16 h.faults + field 40 8 h.retrains)
  | 0x3008 => word (field 0 32 h.viol)
  | 0x3010 => winVlast h
  | 0x3018 => word (field 0 32 h.gen + field 32 7 (h.windows.countP (fun x => x.2.valid)))
  | 0x3020 => word (h.windows.foldl (fun a x => if x.2.valid then a + 2 ^ (x.1 % 64) else a) 0)
  | 0x3028 => if snd.port?.isSome then 0 else word (nthD s.mb.winSel (snd.ix - 2) 0)
  | _ =>
    if 0x3800 ≤ off then
      match Table.get? h.windows ((off - 0x3800) / 32) with
      | some w => nthD (windowWords w) (off / 8 % 4) 0
      | none => 0
    else 0

/-! ### EPC and SCC (07, 08) -/

/-- EPC_LOSS. -/
def epcLoss (s : State) : Word := word (field 0 3 s.ck.loss.kind + flag 3 s.ck.lossValid + field 16 48 s.ck.loss.restart)

/-- EPC_LOSS_EP. -/
def epcLossEp (s : State) : Word := word (field 0 48 s.ck.loss.abandoned + field 48 16 s.ck.replayMs)

/-- The EPC block by offset; DIRTY and its limit in KiB, and EXTENT in MiB, are rounded down (DESIGN CHOICE, log 111). -/
def epcReg (snd : Sender) (off : Nat) (s : State) : Word :=
  match off with
  | 0x4000 => word (flag 0 s.per.accept + flag 1 s.per.absent + flag 2 s.per.measValid + flag 3 (!s.per.draining.isEmpty)
      + flag 4 s.per.closePend + flag 5 (creditHold s) + flag 6 (logHold s) + flag 7 s.ck.failed + field 16 48 s.per.openEpoch)
  | 0x4008 => word (field 0 48 s.per.committed)
  | 0x4010 => word (flag 1 s.per.commitIrq)
  | 0x4018 => word (field 0 48 (nthD s.per.targets snd.ix 0))
  | 0x4020 => word (field 0 32 (dirty s / 1024) + field 32 32 (dirtyLimit s / 1024))
  | 0x4028 => word (field 0 16 s.per.cap + field 16 16 s.per.esr + field 32 16 s.per.euse + field 48 16 s.per.vhold)
  | 0x4030 => word (field 0 16 s.per.interval + field 16 8 50)
  | 0x4038 => word (field 0 32 (s.per.extent / 2 ^ 20) + field 32 32 s.ck.sweeps)
  | 0x4040 => epcLoss s
  | 0x4048 => epcLossEp s
  | _ => 0

/-- The SCC block by offset: the group as written. -/
def sccReg (snd : Sender) (off : Nat) (s : State) : Word :=
  let c := s.cache.staged
  let m := nthD s.cache.maint snd.ix {}
  match off with
  | 0x5000 => word (flag 0 c.enable + flag 1 c.pfEn + field 4 4 c.depth)
  | 0x5008 => word (field 0 2 s.cache.state + flag 2 (s.cache.cfg.wayOff &&& s.cache.waysOn != 0) + field 16 16 s.cache.waysOn
      + field 32 10 s.cache.peak)
  | 0x5010 => quad c.masks 0 4
  | 0x5018 => quad c.masks 4 1
  | 0x5020 => word (field 0 16 c.wayOff)
  | 0x5030 => word (field 6 58 m.addr)
  | 0x5040 => word (flag 0 m.busy + flag 1 m.done + flag 2 m.skipped + field 32 21 m.left)
  | _ => 0

/-! ### SEC and THM (14, 17) -/

/-- SEC_REENC.PROGRESS: the pointer of the segment most recently started, in units of 1/65,536 of its 2^24 lines. -/
def reencProgress (s : State) : Nat :=
  match s.sec.walks.find? (fun w => w.seg == s.sec.reenc.1) with
  | some w => min 65535 (w.pos / 256)
  | none => 0

/-- The SEC block by offset, with the state after the read: the progress of a running sanitize is not given by the manual
and free (log 6). -/
def secReg (off : Nat) (s : State) : Word × State :=
  let x := s.sec
  match off with
  | 0x6000 => (word (field 0 13 (x.kids.countP (fun k => k.2.st == .installed)) + field 16 5 x.walks.length + flag 21 x.rekey.isSome
      + field 22 2 x.sanitize + flag 24 (waitSeg s) + flag 25 (!x.queued.isEmpty) + field 32 32 x.saltGen), s)
  | 0x6008 => (word (field 0 4 x.alarm + field 32 32 x.alarmCnt), s)
  | 0x6010 => (word (field 0 36 x.macLast.1 + field 36 12 x.macLast.2.1 + field 48 2 x.macLast.2.2.1
      + field 50 10 x.macLast.2.2.2), s)
  | 0x6018 => (word (field 0 12 x.reenc.1 + field 16 16 (reencProgress s) + field 32 32 x.reenc.2), s)
  | 0x6020 => (word (field 0 12 x.rekeyReg.1 + field 12 12 x.rekeyReg.2.1 + field 24 16 x.rekeyReg.2.2.1
      + field 40 24 x.rekeyReg.2.2.2), s)
  | 0x6028 =>
    let v := field 0 2 x.sanLast + field 32 32 x.sanCount
    if x.sanitize = 0 then (word v, s)
    else (word (v + field 16 16 (Config.freeNat (draw s).1)), (draw s).2)
  | _ => (0, s)

/-- A temperature in whole degrees, rounded down, as a signed byte (R541). -/
def degByte (t : Int) : Nat := (t / 256 % 256).toNat

/-- Eight temperatures of a list as bytes. -/
def tempWord (f : Nat → Nat) : Word := word ((List.range 8).foldl (fun a j => a + field (8 * j) 8 (f j)) 0)

/-- THM_CFG_0. -/
def thmCfg0 (c : ThmCfg) : Word :=
  tempWord (fun j => if j < 4 then nthD c.med j 0 else nthD c.lpd (j - 4) 0)

/-- THM_CFG_1. -/
def thmCfg1 (c : ThmCfg) : Word :=
  tempWord (fun j => if j < 3 then nthD c.jct j 0 else if j = 3 then c.grace else if j < 7 then nthD c.limit (j - 4) 0 else c.pkg)

/-- The THM block by offset. -/
def thmReg (off : Nat) (s : State) : Word :=
  let x := s.thm
  match off with
  | 0x7000 => word (field 0 2 (min x.level 2) + flag 2 x.enforced + flag 3 (x.level == 3) + flag 4 x.warn + flag 5 x.progHold
      + flag 6 (x.broken != 0 || x.monFail != 0) + field 8 7 x.hotNode
      + (if x.updates = 0 then 0 else field 16 8 (degByte (nthD x.temps (hotMedium s) 0)) + field 24 8 (degByte (junction s)))
      + field 32 32 x.updates)
  | 0x7010 => thmCfg0 x.cfg
  | 0x7018 => thmCfg1 x.cfg
  | 0x7020 => word (field 0 8 x.cfg.hyst + field 8 8 x.cfg.fall)
  | 0x7060 => tempWord (fun d => if diodeBroken s d then 128 else degByte (nthD x.diodes d 0))
  | 0x7068 => word (field 0 8 x.broken + field 8 14 x.monFail)
  | _ =>
    if 0x7100 ≤ off && off < 0x7158 then
      tempWord (fun j => degByte (nthD x.temps ((off - 0x7100) / 8 * 8 + j) 0))
    else 0

/-! ### EVR, PMC, TRB and PST (19) -/

/-- The EVR block by offset; a read of EVR_DATA_0 or EVR_DATA_3 has a row of its own. -/
def evrReg (snd : Sender) (off : Nat) (s : State) : Word :=
  let c := nthD s.evr.cursors snd.ix {}
  match off with
  | 0x9000 => word (field 0 32 (evrHead s) + field 32 32 (evrTail s))
  | 0x9008 => word (flag 0 s.evr.frozen + flag 1 s.evr.frozenReturn + field 2 7 s.evr.queue.length + field 32 32 s.evr.dropped)
  | 0x9010 => word (field 0 32 c.pos + field 32 2 c.rstat)
  | 0x9020 => nthD c.data 1 0
  | 0x9028 => nthD c.data 2 0
  | _ => 0

/-- PMC_CYCLE: the cycles counted since the set's last clear. -/
def pmcCycle (snd : Sender) (s : State) : Word :=
  match selectedSet snd s with
  | some p => word (s.pmc.cyc - p.cycles)
  | none => 0

/-- The PMC block by offset, with the state after the read. -/
def pmcReg (snd : Sender) (off : Nat) (s : State) : Word × State :=
  match off with
  | 0xA000 => (word (field 0 5 (nthD s.pmc.sel snd.ix 0)), s)
  | 0xA008 => (word (flag 0 s.pmc.freeze), s)
  | 0xA010 => (word (pmcOvf snd s), s)
  | 0xA018 => (pmcCycle snd s, s)
  | 0xA060 => (word (field 0 32 s.pmc.mppc), s)
  | _ =>
    if 0xA020 ≤ off && off < 0xA060 then
      let r := pmcCnt snd ((off - 0xA020) / 8) s
      (word r.1, r.2)
    else (0, s)

/-- The TRB block by offset; a read of TRB_DATA_0 or TRB_DATA_3 has a row of its own. -/
def trbReg (snd : Sender) (off : Nat) (s : State) : Word :=
  let c := nthD s.trb.cursors snd.ix {}
  match off with
  | 0xB000 => word (field 0 32 s.trb.count + flag 32 (s.trb.stop && decide (4096 ≤ s.trb.count)) + field 33 2 s.trb.mode)
  | 0xB008 => word (field 0 32 c.pos + field 32 2 c.rstat)
  | 0xB018 => nthD c.data 1 0
  | 0xB020 => nthD c.data 2 0
  | _ => 0

/-- The PST block by offset; a read of PST_RDATA has a row of its own. -/
def pstReg (snd : Sender) (off : Nat) (s : State) : Word :=
  let p := pstPort snd s
  match off with
  | 0xD000 => word ((List.range 4).foldl (fun a b => a + flag b (s.pst.busy.contains b)) 0 + flag 4 p.job.isSome + flag 5 p.overrun)
  | 0xD008 => word (field 0 6 p.word + field 6 12 p.page + field 18 6 p.buf)
  | _ => if 0xD040 ≤ off && off < 0xD080 then word (field 0 48 (counter ((off - 0xD040) / 8) s)) else 0

/-! ### SGL and MED (06, 12) -/

/-- The code of a link state (R400). -/
def LinkSt.code : LinkSt → Nat
  | .down => 0
  | .detect => 1
  | .eq => 2
  | .align => 3
  | .ident => 4
  | .auth => 5
  | .up => 6
  | .refused => 7

/-- The members of a map. -/
def popCount (m : Nat) : Nat := (List.range 1024).countP (fun n => decide (m / 2 ^ n % 2 = 1))

/-- SGL_STATUS. -/
def sglStatus (s : State) : Word :=
  let c := s.sgl.cfg.nodeSet && s.sgl.cfg.pool != 0
  word (field 0 10 (if s.sgl.cfg.nodeSet then s.sgl.cfg.node else 0) + flag 10 c + field 11 3 s.sgl.state + flag 14 (isRidge s)
    + field 16 10 ((ridgeOf s).getD s.sgl.ridge) + field 32 32 s.sgl.gen)

/-- SGL_POOL. -/
def sglPool (s : State) : Word := word (field 0 32 s.sgl.cfg.pool + field 32 11 (popCount s.sgl.members))

/-- SGL_PORT_n. -/
def sglPortReg (x : SglPort) : Word :=
  word (field 0 3 x.st.code + field 3 2 x.width + field 5 10 x.nbr + field 15 3 x.nbrPort + field 18 3 x.refuse
    + field 32 16 x.replays + field 48 8 x.tagFail + field 56 8 x.fecUe)

/-- The SGL block by offset. -/
def sglReg (off : Nat) (s : State) : Word :=
  match off with
  | 0xE000 => sglStatus s
  | 0xE008 => sglPool s
  | 0xE0D0 => word (field 0 32 s.fab.rdPoison + field 32 32 s.fab.wrDisc)
  | _ =>
    if 0xE010 ≤ off && off < 0xE050 then sglPortReg (sglAt s ((off - 0xE010) / 8))
    else if 0xE050 ≤ off && off < 0xE0D0 then word (s.sgl.members / 2 ^ (64 * ((off - 0xE050) / 8)))
    else 0

/-- The CDAT of a port, which its host reads over DOE (R401, R428): one entry for DPA 0 to the aperture. No command of the table
is that read. -/
def cdat (h : HostPort) : List Dsmas :=
  [{ dpaBase := 0, dpaBytes := h.aperture * 2 ^ 28, nonVolatile := true, readNs := 320, writeNs := 100, readMBs := 121000
     writeMBs := 30000 }]

/-- The bound of R248, in ns, of an epoch of that many bytes: 2 ms, and the data over R_d, which is (8/22) × (1 − s) × 0.32 GB/s
for each slot in force (Table 03-5); at Critical, where R248 gives none, the share of Urgent (DEDUCED, log 116). -/
def commitBound (bytes : Nat) (s : State) : Nat :=
  let share := if topLevel s ≤ 1 then 8 else if topLevel s = 2 then 7 else 4
  let d := 32 * slotsInForce s * share
  2000000 + (bytes * 2200 + d - 1) / d

/-- The links crossed between the two nodes of the pool farthest apart (R385). -/
def poolDiameter (c : PoolCfg) : Nat := c.kx / 2 + c.ky / 2 + c.kz / 2

/-- The phase 2 time that each port reports, in ns (R251): the bound of R248 for B_now and the remote term of R39 for the
pool's diameter. No command of the table reads it. -/
def gpfPhase2Time (s : State) : Nat := commitBound (s.per.budgetNow * 2 ^ 20) s + 70 * poolDiameter s.sgl.cfg + 40

/-- SPARE_PCT in units of 0.01 %; in Read-Only 100 % (R150). -/
def sparePct (s : State) : Nat := if s.tr.readOnly then 10000 else min 10000 (s.tr.spare * 10000 / spareFormat)

/-- The ten MED registers in offset order (R228). -/
def medRegs (s : State) : List Word :=
  let p := s.prot
  [ word (flag 0 p.degraded + flag 1 (decide (0 < lostStripes s)) + flag 2 s.tr.readOnly + flag 3 s.dr.survey + field 4 3 s.dr.top
      + field 7 2 s.tr.spareLvl + field 16 16 (sparePct s)),
    word p.lostDie, word (field 0 16 p.lostMc + field 16 8 p.lostStack + field 24 4 p.lostLpd),
    word (field 0 32 (lostStripes s) + field 32 32 p.pagesDone),
    word (field 0 32 p.innerCorr + field 32 16 p.relocDrop + field 48 16 (s.tr.stripes.countP (fun x => x.2.weak && !x.2.reclaim))),
    word (field 0 36 p.lastDla + field 48 16 p.ueCount), word (field 0 24 p.halted),
    (match p.haltLoc with
      | some (l, c) => word (field 0 3 l.stack + field 3 3 l.group + field 6 5 l.part + field 11 12 l.course
          + field 23 12 (if l.fast then l.slot else l.slot / 68) + field 35 5 c)
      | none => 0),
    word (field 0 32 p.passes + field 32 16 p.progress),
    word (field 0 16 p.dramCorr + field 16 16 p.dramUe + field 32 16 p.sramCorr + field 48 8 p.sramRemap) ]

/-- The MED block by offset. -/
def medReg (off : Nat) (s : State) : Word := if off < 0xF050 then nthD (medRegs s) ((off - 0xF000) / 8) 0 else 0

end Sys2Proof.Machine
end

