-- ==== Sys2Proof/Machine/Bcs.lean ====
section
/-! DEFINITION. The Belvy Command Set: taking messages, the checks of a command, and each command's effect (15). -/

namespace Sys2Proof.Machine

/-! ### The checks of a command -/

/-- What Table 15-5 says of a command besides its effect: opcode; the argument bits it uses; the words of its inbound
payload; whether the Fabric sender may send it; its clamp. -/
structure Gate where
  op    : Nat
  used  : Nat := 0
  pay   : Option (Nat × Nat) := none
  fab   : Bool := false
  clamp : Option Nat := none
deriving DecidableEq, Repr

/-- How a command ends: acknowledged with a return code, accepted in the background, or waiting for its
acknowledgement. -/
inductive Fin where
  | ack (rc : Nat) (s : State)
  | bg (s : State)
  | wait (s : State)

/-- The supervisor core executes the command in Standby (R508). -/
def standbyServes (op : Nat) : Bool := op == 0x002 || op == 0x505 || op == 0xF01

/-- The return commands and the erasures a stopped Replay leaves (R265). -/
def repairs (op : Nat) : Bool := op == 0x403 || op == 0x404 || op == 0xF00 || op == 0xF01

/-- The state of the device does not permit the command (R486, R508, R265). -/
def notReady (g : Gate) (s : State) : Bool :=
  if s.pw.phase == .standby then !standbyServes g.op
  else (s.ck.failed && !repairs g.op)
    || (s.pw.returnDone && g.clamp.isSome && g.op != 0x403 && g.op != 0x404)

/-- The sender holds a clamp; the Fabric and Meter senders never do (R425). -/
def boxHolds (b : BoxId) (n : Nat) (s : State) : Bool :=
  match b.sender? with
  | some x => holds x n s
  | none => false

/-- The argument sets a bit the command does not use (R482); ARG[43:38] is the length of an inbound payload. -/
def unusedSet (g : Gate) (arg : Nat) : Bool :=
  let mask := g.used + (if g.pay.isSome then 63 * 2 ^ 38 else 0)
  arg &&& mask != arg

/-- The first check of Table 15-5 that fails (their order is a DESIGN CHOICE, log 37). -/
def gateRc (g : Gate) (b : BoxId) (arg : Nat) (s : State) : Option Nat :=
  if b == .meter || (b == .fabric && !g.fab) then some 3
  else if notReady g s then some 9
  else if g.clamp.any (fun n => !boxHolds b n s) then some 3
  else if unusedSet g arg then some 4
  else none

/-- The TAG of the message at the head of an inbox (R471). -/
def headTag (b : BoxId) (s : State) : Nat :=
  match (boxOf s b).inbox with
  | (w, _, _) :: _ => wordTag w
  | [] => 0

/-- A command is open: in the background, or with its acknowledgement outstanding (R470, R475). -/
def openOp (op : Nat) (b : BoxId) (arg : Nat) (accepted : Bool) (s : State) : State :=
  { s with mb := { s.mb with open_ := s.mb.open_ ++ [{ op := op, box := b, tag := headTag b s, arg := arg, accepted := accepted }] } }

/-- Ends the taking of a command. -/
def conclude (op : Nat) (b : BoxId) (arg : Nat) : Fin → State
  | .ack rc s => ackHead b rc s
  | .bg s => ackHead b 1 (openOp op b arg true s)
  | .wait s => s

/-- The inbound payload of a command (R480): the packet is removed; none where it is missing, marked ERR or of the wrong
length. -/
def takePayload (b : BoxId) (arg lo hi : Nat) (s : State) : Option (List Word) × State :=
  match drwTake (boxOf s b).inDrw with
  | none => (none, s)
  | some (ws, d) =>
    let s := modBox b (fun x => { x with inDrw := d }) s
    match ws with
    | none => (none, s)
    | some ws =>
      if ws.length = arg / 2 ^ 38 % 64 && lo ≤ ws.length && ws.length ≤ hi then (some ws, s) else (none, s)

/-- Checks a command and runs its body on its payload (R480, R482). -/
def withGate (g : Gate) (b : BoxId) (arg : Nat) (body : List Word → State → Fin) (s : State) : State :=
  match gateRc g b arg s with
  | some rc => ackHead b rc s
  | none =>
    match g.pay with
    | none => conclude g.op b arg (body [] s)
    | some (lo, hi) =>
      let p := takePayload b arg lo hi s
      match p.1 with
      | none => ackHead b 11 p.2
      | some ws => conclude g.op b arg (body ws p.2)

/-- A command that answers with a reply payload (R480): the Fabric sender has no drawer, and only its acknowledgement
travels (UNVERIFIED, log 38). -/
def answerWith (b : BoxId) (ws : List Word) (s : State) : Fin :=
  if b == .fabric then .ack 0 s else .ack 0 (reply b ws s)

/-! ### Device and modes -/

/-- NOP. -/
def bcsNop (b : BoxId) (arg : Nat) (s : State) : State := withGate { op := 0x000, fab := true } b arg (fun _ s => .ack 0 s) s

/-- IDENTIFY: ordering code, stepping, serial, Belvy version, node ID, capacity, both apertures, one word each (the words'
layout DEDUCED from the length, log 10). -/
def bcsIdentify (b : BoxId) (arg : Nat) (s : State) : State :=
  withGate { op := 0x001, fab := true } b arg (fun _ s =>
    answerWith b [Config.orderingCode 0, word 0xB0, Config.serial, word (fwVersion s), word s.sgl.cfg.node, word (2 ^ 42),
      word (s.portA.aperture * 2 ^ 28), word (s.portB.aperture * 2 ^ 28)] s) s

/-- GET_MODE: DEV_MODE and DEV_COND. -/
def bcsGetMode (b : BoxId) (arg : Nat) (s : State) : State :=
  withGate { op := 0x002, fab := true } b arg (fun _ s => answerWith b [devMode s, devCond s] s) s

/-- The power state of a REQ_MODE code. -/
def stateOfCode : Nat → Option PState
  | 4 => some .active
  | 5 => some .doze
  | 6 => some .deepIdle
  | _ => none

/-- A request takes effect (Table 16-9): Active and Doze at once, also from Deep Idle; Deep Idle by its own entry. -/
def request (p : PState) (s : State) : State :=
  let s := { s with pw := { s.pw with requested := p } }
  if p == .deepIdle then s
  else
    let s := wake s
    updateMode { s with pw := { s.pw with pstate := p } }

/-- REQ_MODE (R517, R520): where Table 15-5 and R520 differ on NOT_READY, R520 is followed (log 39). -/
def bcsReqMode (b : BoxId) (arg : Nat) (s : State) : State :=
  withGate { op := 0x010, used := 0xF, clamp := some 0 } b arg (fun _ s =>
    if s.pw.phase != .service then .ack 9 s
    else
      match stateOfCode (arg % 16) with
      | none => .ack 4 s
      | some p => .ack 0 (request p s)) s

/-- SHUTDOWN: OK, then Flush (R502, R503); Flush is entered only in service. -/
def bcsShutdown (b : BoxId) (arg : Nat) (s : State) : State :=
  let go := fun (s : State) => s.pw.phase == .service
  if gateRc { op := 0x011, used := 1, clamp := some 0 } b arg s = none && go s then
    shutdownFlush (decide (arg % 2 = 1)) (ackHead b 0 s)
  else withGate { op := 0x011, used := 1, clamp := some 0 } b arg (fun _ s => .ack 9 s) s

/-! ### Windows -/

/-- The port whose windows a command of a sender names: its own, or for the sideband that of a bit of the argument
(R412). -/
def targetPort (b : BoxId) (arg bit : Nat) : Port :=
  match b with
  | .portA => .a
  | .portB => .b
  | .sideband => if arg / 2 ^ bit % 2 = 0 then .a else .b
  | .fabric => .a
  | .meter => .a

/-- The bit that names the port is used by the sideband only. -/
def portBit (b : BoxId) (bit : Nat) : Nat := if b == .sideband then 2 ^ bit else 0

/-- The gate of a window command. -/
def winGate (op : Nat) (b : BoxId) (arg used bit : Nat) : Gate :=
  { op := op, used := used + portBit b bit, clamp := some (12 + (targetPort b arg bit).ix) }

/-- The window of a payload (Table 15-6); none where a field is out of range. -/
def windowOf (ws : List Word) : Option Window :=
  let h := nthD ws 0 0
  let k := nthD ws 3 0
  let ids := (List.range 15).map (fun i => bitsOf (nthD ws (4 + i / 5) 0) (12 * (i % 5)) 12)
  if 2 ^ 24 < bitsOf (nthD ws 2 0) 0 25 || 4 < bitsOf k 12 3
      || (List.range 3).any (fun i => bitsOf (nthD ws (4 + i) 0) 60 4 != 0) then none
  else some
    { valid := bitOf h 0, rd := bitOf h 1, wr := bitOf h 2, hbase := bitsOf h 28 24 * 2 ^ 28
      pbase := bitsOf (nthD ws 1 0) 28 24 * 2 ^ 28, size := bitsOf (nthD ws 2 0) 0 25
      kbits := bitsOf k 12 3, kshift := bitsOf k 16 6, tenant := bitsOf k 24 6
      kvalid := bitsOf k 32 16 ||| 1, kids := bitsOf k 0 12 :: ids }

/-- Stages a window of a port. -/
def stageWindow (p : Port) (n : Nat) (w : Window) (s : State) : State :=
  s.setPort p { s.port p with staged := Table.put (s.port p).staged n w }

/-- WIN_STAGE (R412). -/
def bcsWinStage (b : BoxId) (arg : Nat) (s : State) : State :=
  withGate { winGate 0x100 b arg 0x3F 6 with pay := some (7, 7) } b arg (fun ws s =>
    match windowOf ws with
    | none => .ack 4 s
    | some w => .ack 0 (stageWindow (targetPort b arg 6) (arg % 64) w s)) s

/-- A window with VALID = 0. -/
def noWindow : Window :=
  { valid := false, rd := false, wr := false, hbase := 0, pbase := 0, size := 0, kbits := 0, kshift := 0, tenant := 0, kvalid := 1, kids := [] }

/-- WIN_REMOVE stages VALID = 0. -/
def bcsWinRemove (b : BoxId) (arg : Nat) (s : State) : State :=
  withGate (winGate 0x101 b arg 0x3F 6) b arg (fun _ s =>
    .ack 0 (stageWindow (targetPort b arg 6) (arg % 64) noWindow s)) s

/-- The host ranges of a window: base and size in bytes (R413). -/
def hostRanges (w : Window) : List (Nat × Nat) :=
  (List.range (2 ^ w.kbits)).map (fun i => (w.hbase + i * 2 ^ w.kshift, w.size * 2 ^ 28))

/-- Two ranges overlap. -/
def rangesMeet (a b : Nat × Nat) : Bool := decide (a.1 < b.1 + b.2) && decide (b.1 < a.1 + a.2)

/-- A window fails R417 by itself. -/
def windowBad (w : Window) : Bool :=
  let last := w.hbase + w.size * 2 ^ 28 - 1
  w.kshift < 28 || 51 < w.kshift || 52 < w.kshift + w.kbits || w.size == 0
    || w.hbase / 2 ^ w.kshift % 2 ^ w.kbits != 0 || w.hbase / 2 ^ w.kshift != last / 2 ^ w.kshift
    || decide (2 ^ 52 < w.pbase + w.size * 2 ^ 28)

/-- Two windows overlap in any of their aliases (R417). -/
def windowsMeet (a b : Window) : Bool := (hostRanges a).any (fun x => (hostRanges b).any (rangesMeet x))

/-- Some pair of a list of windows overlaps. -/
def anyMeet : List Window → Bool
  | [] => false
  | w :: ws => ws.any (windowsMeet w) || anyMeet ws

/-- The valid windows a commit would leave. -/
def windowsAfter (h : HostPort) : List Window :=
  ((h.staged.foldl (fun t x => Table.put t x.1 x.2) h.windows).map (·.2)).filter (·.valid)

/-- A commit is refused (R417). -/
def commitConflicts (h : HostPort) : Bool :=
  let ws := windowsAfter h
  ws.any windowBad || anyMeet ws

/-- WIN_COMMIT (R417, R418): acknowledged when the back-invalidates are done. -/
def bcsWinCommit (b : BoxId) (arg : Nat) (s : State) : State :=
  withGate (winGate 0x102 b arg 0 6) b arg (fun _ s =>
    let p := targetPort b arg 6
    if commitConflicts (s.port p) then .ack 5 s
    else .wait (commitWindows p (openOp 0x102 b arg false s))) s

/-- WIN_QUERY: the window in force. -/
def bcsWinQuery (b : BoxId) (arg : Nat) (s : State) : State :=
  withGate { op := 0x103, used := 0x3F + portBit b 6 } b arg (fun _ s =>
    match Table.get? (s.port (targetPort b arg 6)).windows (arg % 64) with
    | some w => answerWith b (windowWords w ++ kidWords w) s
    | none => answerWith b (List.replicate 7 0) s) s

/-- SET_APERTURE (R402): in 256 MiB units, from the port's next conventional reset. -/
def bcsSetAperture (b : BoxId) (arg : Nat) (s : State) : State :=
  withGate (winGate 0x104 b arg 0x1FFFFFF 25) b arg (fun _ s =>
    let n := arg % 2 ^ 25
    let p := targetPort b arg 25
    if n = 0 || 2 ^ 24 < n then .ack 4 s else .ack 0 (s.setPort p { s.port p with apNext := n })) s

/-! ### Persistence and media -/

/-- CLOSE_EPOCH (R250); the Fabric sender has no EPC_TARGET. Before the end of Replay no epoch is open. -/
def bcsCloseEpoch (b : BoxId) (arg : Nat) (s : State) : State :=
  withGate { op := 0x300, fab := true } b arg (fun _ s =>
    if s.pw.phase != .service && s.pw.phase != .flush then .ack 9 s
    else
      match b.sender? with
      | some x => .ack 0 (closeRequest x s)
      | none => .ack 0 (closeEpoch s)) s

/-- SET_EPOCH_TIMER: from the next opened epoch. -/
def bcsSetEpochTimer (b : BoxId) (arg : Nat) (s : State) : State :=
  withGate { op := 0x301, used := 0xFFFF, clamp := some 5 } b arg (fun _ s =>
    if arg < 50 || 10000 < arg then .ack 4 s else .ack 0 { s with per := { s.per with intervalNx := arg } }) s

/-- MEASURE_HOLDUP (R233), in the background. -/
def bcsMeasureHoldup (b : BoxId) (arg : Nat) (s : State) : State :=
  withGate { op := 0x302, clamp := some 5 } b arg (fun _ s =>
    if s.per.measuring || opOpen s 0x302 then .ack 2 s else .bg (askMeasure s)) s

/-- GET_LOSS. -/
def bcsGetLoss (b : BoxId) (arg : Nat) (s : State) : State :=
  withGate { op := 0x303 } b arg (fun _ s => answerWith b [epcLoss s, epcLossEp s] s) s

/-- MEDIA_HEALTH. -/
def bcsMediaHealth (b : BoxId) (arg : Nat) (s : State) : State :=
  withGate { op := 0x400, fab := true } b arg (fun _ s => answerWith b (medRegs s) s) s

/-- SET_LEVEL_SPREAD (R139): at the next 60 s check. -/
def bcsSetLevelSpread (b : BoxId) (arg : Nat) (s : State) : State :=
  withGate { op := 0x401, used := 0x7FFFFF, clamp := some 6 } b arg (fun _ s =>
    if arg < 65536 || 4194304 < arg then .ack 4 s else .ack 0 { s with tr := { s.tr with spreadNx := arg } }) s

/-- READ_REFTABLE: 32 rows of 15 codes, eight to a word, then the revision. -/
def bcsReadReftable (b : BoxId) (arg : Nat) (s : State) : State :=
  withGate { op := 0x402, used := 0x3F } b arg (fun _ s =>
    let code := fun (k : Nat) => (Config.refTable (arg % 64) (k / 15) (k % 15)).toNat
    answerWith b ((List.range 60).map (fun w => tempWord (fun j => code (8 * w + j)))
      ++ [word (Config.refRevision (arg % 64)).toNat]) s) s

/-- A device-wide erasure may start: in service, or where Replay has stopped (R265); a running one makes it BUSY. -/
def eraseBar (s : State) : Option Nat :=
  if s.pw.phase != .service && !s.ck.failed then some 9
  else if s.ck.formatting || s.sec.sanitize != 0 then some 2
  else none

/-- FORMAT, in the background. -/
def bcsFormat (b : BoxId) (arg : Nat) (s : State) : State :=
  withGate { op := 0x403, clamp := some 0 } b arg (fun _ s =>
    match eraseBar s with
    | some rc => .ack rc s
    | none => .bg { s with ck := { s.ck with formatting := true } }) s

/-- SANITIZE (R464), in the background. -/
def bcsSanitize (b : BoxId) (arg : Nat) (s : State) : State :=
  withGate { op := 0x404, used := 1, clamp := some 0 } b arg (fun _ s =>
    match eraseBar s with
    | some rc => .ack rc s
    | none => .bg (startSanitize (arg % 2 + 1) s)) s

/-- SCAN_MEDIA: an extra scrub pass, in the background (R210). -/
def bcsScanMedia (b : BoxId) (arg : Nat) (s : State) : State :=
  withGate { op := 0x405, clamp := some 6 } b arg (fun _ s =>
    if s.prot.scanning then .ack 2 s
    else .bg { s with prot := { s.prot with scanning := true, progress := 0, passRows := [] } }) s

/-! ### Power and thermal -/

/-- SET_SLOTS (R101). -/
def bcsSetSlots (b : BoxId) (arg : Nat) (s : State) : State :=
  withGate { op := 0x500, used := 0x1FF, clamp := some 3 } b arg (fun _ s =>
    if arg < 32 || 256 < arg || arg % 8 != 0 then .ack 4 s else .ack 0 { s with sched := { s.sched with nSlots := arg } }) s

/-- SET_PD_TIMER (R308). -/
def bcsSetPdTimer (b : BoxId) (arg : Nat) (s : State) : State :=
  withGate { op := 0x501, used := 0xFF, clamp := some 3 } b arg (fun _ s =>
    if 200 < arg then .ack 4 s else .ack 0 { s with dram := { s.dram with pdTimer := arg } }) s

/-- SET_DRAM_RATE (R289): from the next Boot. -/
def bcsSetDramRate (b : BoxId) (arg : Nat) (s : State) : State :=
  withGate { op := 0x502, used := 3, clamp := some 3 } b arg (fun _ s =>
    if arg = 3 then .ack 4 s else .ack 0 { s with dram := { s.dram with rateNx := arg } }) s

/-- The settings of a SET_THERMAL payload (R540). -/
def thermalOf (ws : List Word) : ThmCfg :=
  let f := fun (w j : Nat) => bitsOf (nthD ws w 0) (8 * j) 8
  { med := [f 0 0, f 0 1, f 0 2, f 0 3], lpd := [f 0 4, f 0 5, f 0 6, f 0 7], jct := [f 1 0, f 1 1, f 1 2], grace := f 1 3
    limit := [f 1 4, f 1 5, f 1 6], pkg := f 1 7, hyst := f 2 0, fall := f 2 1 }

/-- A list rises strictly. -/
def rises : List Nat → Bool
  | a :: b :: l => decide (a < b) && rises (b :: l)
  | _ => true

/-- No element is above its default. -/
def atMost : List Nat → List Nat → Bool
  | a :: l, d :: m => decide (a ≤ d) && atMost l m
  | _, _ => true

/-- A SET_THERMAL payload is within R540. -/
def thermalOk (ws : List Word) : Bool :=
  let c := thermalOf ws
  let d : ThmCfg := {}
  atMost c.med d.med && atMost c.lpd d.lpd && atMost c.jct d.jct && decide (c.pkg ≤ d.pkg)
    && rises c.med && rises c.lpd && rises c.jct && decide (1 ≤ c.grace) && decide (c.grace ≤ 100)
    && decide (10 ≤ nthD c.limit 2 0) && decide (nthD c.limit 2 0 ≤ nthD c.limit 1 0)
    && decide (nthD c.limit 1 0 ≤ nthD c.limit 0 0) && decide (nthD c.limit 0 0 ≤ 100)
    && decide (1 ≤ c.hyst) && decide (c.hyst ≤ 10) && decide (10 ≤ c.fall) && decide (c.fall ≤ 250)
    && bitsOf (nthD ws 2 0) 16 48 == 0 && nthD ws 3 0 == 0

/-- SET_THERMAL (R540). -/
def bcsSetThermal (b : BoxId) (arg : Nat) (s : State) : State :=
  withGate { op := 0x503, pay := some (4, 4), clamp := some 2 } b arg (fun ws s =>
    if thermalOk ws then .ack 0 { s with thm := { s.thm with cfg := thermalOf ws } } else .ack 4 s) s

/-- A rail window excludes its nominal voltage (R491): for codes 1 to 11 the code 128 stands for it; of VHOLD 48 V and of
VAUX 3.3 V in their own units. -/
def excludesNominal (code uv ov : Nat) : Bool :=
  let n := if code = 0 then 200 else if code = 12 then 192 else if code = 13 then 165 else 128
  decide (1 ≤ code) && decide (code ≤ 11) && (decide (n < uv) || decide (ov < n))

/-- A SET_SUPERVISOR payload is refused (R492). -/
def supervisorBad (code : Nat) (w0 w1 : Word) : Bool :=
  let uv := bitsOf w0 0 8
  let ov := bitsOf w0 8 8
  decide (13 < code) || bitsOf w0 16 8 == 0 || decide (ov ≤ uv) || excludesNominal code uv ov
    || (code == 0 && decide (190 < uv)) || (code != 0 && w1 != 0) || bitsOf w0 24 40 != 0
    || (code == 0 && (bitsOf w1 1 7 != 0 || bitsOf w1 12 52 != 0 || bitsOf w1 8 4 == 0 || decide (10 < bitsOf w1 8 4)))

/-- Settings of one comparator, in force and stored (R493). -/
def setComparator (code : Nat) (w0 w1 : Word) (s : State) : State :=
  let set := fun (l : List Comparator) => l.zipIdx.map (fun (x : Comparator × Nat) =>
    if x.2 = code then { x.1 with uv := bitsOf w0 0 8, ov := bitsOf w0 8 8, filter := bitsOf w0 16 8 } else x.1)
  let s := { s with pw := { s.pw with comps := set s.pw.comps, compsStored := set s.pw.compsStored } }
  if code = 0 then
    { s with pw := { s.pw with
      autoRestart := bitOf w1 0, stepTimeout := bitsOf w1 8 4, autoStored := (bitOf w1 0, bitsOf w1 8 4) } }
  else s

/-- SET_SUPERVISOR (R492, R493). -/
def bcsSetSupervisor (b : BoxId) (arg : Nat) (s : State) : State :=
  withGate { op := 0x504, used := 0xF, pay := some (2, 2), clamp := some 3 } b arg (fun ws s =>
    if supervisorBad (arg % 16) (nthD ws 0 0) (nthD ws 1 0) then .ack 4 s
    else .ack 0 (setComparator (arg % 16) (nthD ws 0 0) (nthD ws 1 0) s)) s

/-- CLEAR_PSV_FAULT (R509), from the sideband alone. -/
def bcsClearPsvFault (b : BoxId) (arg : Nat) (s : State) : State :=
  if b != .sideband then ackHead b 3 s
  else withGate { op := 0x505, clamp := some 3 } b arg (fun _ s =>
    .ack 0 { s with pw := { s.pw with faults := 0, faultRail := 0, block := false } }) s

/-! ### Fabric and pool -/

/-- Changes the pool settings of the next Boot (Table 15-7). -/
def setPoolNext (f : PoolCfg → PoolCfg) (s : State) : State := { s with sgl := { s.sgl with cfgNx := f s.sgl.cfgNx } }

/-- SET_NODE (R386). -/
def bcsSetNode (b : BoxId) (arg : Nat) (s : State) : State :=
  withGate { op := 0x600, used := 0x3FF, clamp := some 7 } b arg (fun _ s =>
    .ack 0 (setPoolNext (fun c => { c with node := arg % 1024, nodeSet := true }) s)) s

/-- SET_POOL (R386). -/
def bcsSetPool (b : BoxId) (arg : Nat) (s : State) : State :=
  withGate { op := 0x601, used := 0x1FFFFFFFF, clamp := some 7 } b arg (fun _ s =>
    .ack 0 (setPoolNext (fun c => { c with pool := arg % 2 ^ 32, ridgeOk := decide (arg / 2 ^ 32 % 2 = 1) }) s)) s

/-- A ring size R385 allows. -/
def ringSize (k : Nat) : Bool := k == 1 || (decide (3 ≤ k) && decide (k ≤ 16))

/-- SET_TOPOLOGY (R385). -/
def bcsSetTopology (b : BoxId) (arg : Nat) (s : State) : State :=
  withGate { op := 0x602, used := 0x7FFF, clamp := some 7 } b arg (fun _ s =>
    let x := arg % 32
    let y := arg / 32 % 32
    let z := arg / 1024 % 32
    if ringSize x && ringSize y && ringSize z && decide (x * y * z ≤ 1024) then
      .ack 0 (setPoolNext (fun c => { c with kx := x, ky := y, kz := z }) s)
    else .ack 4 s) s

/-- SET_ROSTER: bit j of word k is node 64k + j. -/
def bcsSetRoster (b : BoxId) (arg : Nat) (s : State) : State :=
  withGate { op := 0x603, pay := some (16, 16), clamp := some 7 } b arg (fun ws s =>
    .ack 0 (setPoolNext (fun c => { c with roster := mapBits (ws.map (·.toNat)) }) s)) s

/-- SET_HOLD_NS (R346). -/
def bcsSetHoldNs (b : BoxId) (arg : Nat) (s : State) : State :=
  withGate { op := 0x604, used := 0xFF, clamp := some 7 } b arg (fun _ s =>
    if 200 < arg then .ack 4 s else .ack 0 { s with coh := { s.coh with holdNs := arg } }) s

/-- SET_REMOTE_CACHE (R297); with an LPDDR6 device lost the size is at most 2 GiB (R314). -/
def bcsSetRemoteCache (b : BoxId) (arg : Nat) (s : State) : State :=
  withGate { op := 0x605, used := 0x1F, clamp := some 7 } b arg (fun _ s =>
    if 16 < arg then .ack 4 s
    else .ack 0 (resizeRemote (if s.prot.lostLpd = 0 || s.dram.remir.isSome then arg else min arg 2) s)) s

/-- SET_GATHER (R391): from the next ridge election. -/
def bcsSetGather (b : BoxId) (arg : Nat) (s : State) : State :=
  withGate { op := 0x606, used := 0x1FF, clamp := some 7 } b arg (fun _ s =>
    if arg = 0 || 300 < arg then .ack 4 s else .ack 0 { s with sgl := { s.sgl with gather := (s.sgl.gather.1, arg) } }) s

/-- SET_HOLD_LIMIT (R393): from the next end of Replay. -/
def bcsSetHoldLimit (b : BoxId) (arg : Nat) (s : State) : State :=
  withGate { op := 0x607, used := 0x3F, clamp := some 7 } b arg (fun _ s =>
    if arg = 0 || 60 < arg then .ack 4 s else .ack 0 { s with sgl := { s.sgl with holdLim := (s.sgl.holdLim.1, arg) } }) s

/-- POOL_STATUS. -/
def bcsPoolStatus (b : BoxId) (arg : Nat) (s : State) : State :=
  withGate { op := 0x608, fab := true } b arg (fun _ s =>
    answerWith b ([sglStatus s, sglPool s] ++ mapWords s.sgl.members) s) s

/-- MP_FORWARD: the payload word goes to a node's Fabric inbox, stamped there as the Fabric sender's with this MP's
incarnation (R468); the acknowledgement waits for the node's. A node that is not another member is INVALID (DESIGN CHOICE,
log 40). -/
def bcsMpForward (b : BoxId) (arg : Nat) (s : State) : State :=
  withGate { op := 0x610, used := 0x3FF, pay := some (1, 1) } b arg (fun ws s =>
    let node := arg % 1024
    if !present s node || node = me s then .ack 4 s
    else
      let w := stamp 3 s.mb.mpInc (nthD ws 0 0)
      let s := openOp 0x610 b arg false s
      .wait (sendMpmsg node w { s with mb := { s.mb with forwards := s.mb.forwards ++ [(node, b, wordTag w)] } })) s

/-! ### Recorder, counters, trace -/

/-- EVR_FREEZE (R575). -/
def bcsEvrFreeze (b : BoxId) (arg : Nat) (s : State) : State :=
  withGate { op := 0x700, used := 1, clamp := some 4 } b arg (fun _ s =>
    if arg % 2 = 1 then .ack 0 { s with evr := { s.evr with frozen := true } }
    else .ack 0 (drainUpTo 64 { s with evr := { s.evr with frozen := false } })) s

/-- A counter word of PMC_CONFIG is refused (R578): an event not of the set's level, an unused QUAL, a reserved bit. A
counter that stays disabled may name no event (DEDUCED, log 41). -/
def counterBad (set : Nat) (w : Word) : Bool :=
  let ev := bitsOf w 0 12
  let q := bitsOf w 12 4
  let dev := set == 16
  let evOk := if dev then (decide (0x100 ≤ ev) && decide (ev ≤ 0x106)) || (decide (0x200 ≤ ev) && decide (ev ≤ 0x202))
    else decide (1 ≤ ev) && decide (ev ≤ 0x15)
  let qOk := decide (q ≤ 4) || (dev && decide (8 ≤ q))
  !(evOk || (ev == 0 && !bitOf w 16)) || !qOk || bitsOf w 18 46 != 0

/-- A counter under its new selection: cleared, or with its count (R578). -/
def configured (c : PmcCounter) (w : Word) (clear : Bool) : PmcCounter :=
  { event := bitsOf w 0 12, qual := bitsOf w 12 4, enable := bitOf w 16, irq := bitOf w 17
    count := if clear then 0 else c.count, ovf := !clear && c.ovf }

/-- PMC_CONFIG (R578). -/
def bcsPmcConfig (b : BoxId) (arg : Nat) (s : State) : State :=
  withGate { op := 0x701, used := 0x1F, pay := some (9, 9), clamp := some 4 } b arg (fun ws s =>
    let n := arg % 32
    let w0 := nthD ws 0 0
    if 16 < n || bitsOf w0 1 63 != 0 || (ws.drop 1).any (counterBad n) then .ack 4 s
    else
      let p := Table.getD s.pmc.sets n {}
      let clear := bitOf w0 0
      let x : PmcSet :=
        { cycles := if clear then s.pmc.cyc else p.cycles
          counters := (List.range 8).map (fun i => configured (nthD p.counters i {}) (nthD ws (i + 1) 0) clear) }
      .ack 0 { s with pmc := { s.pmc with sets := Table.put s.pmc.sets n x } }) s

/-- TRB_CONFIG (R582): the buffer is emptied. -/
def bcsTrbConfig (b : BoxId) (arg : Nat) (s : State) : State :=
  withGate { op := 0x702, pay := some (1, 1), clamp := some 4 } b arg (fun ws s =>
    let w := nthD ws 0 0
    if bitsOf w 42 22 != 0 then .ack 4 s
    else .ack 0 { s with trb := { s.trb with
      recs := [], count := 0, seen := 0, marks := [], mode := bitsOf w 0 2, stop := bitOf w 2, ports := bitsOf w 3 2
      n := bitsOf w 5 20 + 1, thresh := bitsOf w 25 16, irq := bitOf w 41 } }) s

/-! ### Firmware -/

/-- Replaces a firmware slot. -/
def setSlot (n : Nat) (x : FwSlot) (s : State) : State := { s with mb := { s.mb with slots := setNth s.mb.slots n x } }

/-- A firmware slot. -/
def slotAt (s : State) (n : Nat) : FwSlot := nthD s.mb.slots (n % 2) {}

/-- The slot with an open transfer. -/
def openSlot (s : State) : Option Nat := (List.range 2).find? (fun n => (slotAt s n).state == 1)

/-- The slot whose image is being checked. -/
def checkSlot (s : State) : Option Nat := (List.range 2).find? (fun n => (slotAt s n).state == 2)

/-- Opens a transfer into a slot (R484); the return code. -/
def fwOpen (slot size : Nat) (s : State) : Nat × State :=
  if slot = s.mb.active || (slotAt s slot).state == 2 then (2, s)
  else (0, setSlot slot { state := 1, size := size } s)

/-- Image words into the open transfer; the return code: INVALID without one, or beyond its size (DESIGN CHOICE, log 42). -/
def fwWrite (off : Nat) (ws : List Word) (s : State) : Nat × State :=
  match openSlot s with
  | none => (4, s)
  | some n =>
    let x := slotAt s n
    if x.size * 512 < off + ws.length then (4, s)
    else (0, setSlot n { x with image := ws.zipIdx.foldl (fun t w => Table.put t (off + w.2) w.1) x.image } s)

/-- The check of the open transfer's image begins (R484). -/
def fwStartCheck (s : State) : Option State :=
  match openSlot s with
  | none => none
  | some n => some (setSlot n { slotAt s n with state := 2 } s)

/-- An activation begins (R485): at the next Boot, or online, where the MP stops and restarts from the slot. -/
def fwSwitch (slot : Nat) (online : Bool) (s : State) : State :=
  if online then stopMp { s with mb := { s.mb with fwRestart := some (slot, s.mb.active) } }
  else { s with mb := { s.mb with nextSlot := slot } }

/-- FW_BEGIN. -/
def bcsFwBegin (b : BoxId) (arg : Nat) (s : State) : State :=
  withGate { op := 0x800, used := 0xFFFF, clamp := some 0 } b arg (fun _ s =>
    let size := arg / 2 % 2 ^ 15
    if size = 0 || 4096 < size then .ack 4 s
    else .ack (fwOpen (arg % 2) size s).1 (fwOpen (arg % 2) size s).2) s

/-- FW_DATA. -/
def bcsFwData (b : BoxId) (arg : Nat) (s : State) : State :=
  withGate { op := 0x801, used := 0xFFFFFFFF, pay := some (1, 63), clamp := some 0 } b arg (fun ws s =>
    let r := fwWrite (arg % 2 ^ 32) ws s
    .ack r.1 r.2) s

/-- FW_END, in the background. -/
def bcsFwEnd (b : BoxId) (arg : Nat) (s : State) : State :=
  withGate { op := 0x802, clamp := some 0 } b arg (fun _ s =>
    match fwStartCheck s with
    | none => .ack 4 s
    | some t => .bg t) s

/-- A CXL firmware transfer's check is over. -/
def fwBgDone (c : CxlBox) : CxlBox :=
  match c.bg with
  | some (0x0201, false) => { c with bg := some (0x0201, true) }
  | b => { c with bg := b }

/-- The check of an image completes (R484, R453): signature, size, and a security version no lower than the minimum. -/
def execFwCheckDone (sigOk sizeOk : Bool) (version secVersion : Nat) (s : State) : Host.Outcome State Fault Refusal :=
  .next (match checkSlot s with
    | none => s
    | some n =>
      let ok := sigOk && sizeOk && decide (s.mb.minSec ≤ secVersion)
      let s := setSlot n { slotAt s n with state := if ok then 3 else 4, version := version % 2 ^ 32, secVersion := secVersion } s
      let s := { s with cxlA := fwBgDone s.cxlA, cxlB := fwBgDone s.cxlB }
      if ok then endOps 0x802 (fun _ => true) 0 s
      else endOps 0x802 (fun _ => true) 6 (alarm 3 (event .fwCheck 10 [n] s)))

/-- FW_ACTIVATE (R485): an image that is not valid is INVALID. -/
def bcsFwActivate (b : BoxId) (arg : Nat) (s : State) : State :=
  withGate { op := 0x803, used := 3, clamp := some 0 } b arg (fun _ s =>
    if (slotAt s arg).state != 3 then .ack 4 s
    else if arg / 2 % 2 = 0 then .ack 0 (fwSwitch (arg % 2) false s)
    else .wait (fwSwitch (arg % 2) true (openOp 0x803 b arg false s))) s

/-- FW_INFO: version, security version and state of both slots (the words' order DEDUCED, log 10). -/
def bcsFwInfo (b : BoxId) (arg : Nat) (s : State) : State :=
  withGate { op := 0x804, fab := true } b arg (fun _ s =>
    let f := fun (n : Nat) => [word (slotAt s n).version, word (slotAt s n).secVersion, word (slotAt s n).state]
    answerWith b (f 0 ++ f 1) s) s

/-! ### Meter -/

/-- A meter read is relayed (R482): the request joins the Meter outbox, and the acknowledgement waits. -/
def relay (g : Gate) (b : BoxId) (arg : Nat) (s : State) : State :=
  withGate g b arg (fun _ s =>
    let s := openOp g.op b arg false s
    .wait { s with mb := { s.mb with relays := s.mb.relays ++ [(g.op, arg, b)] } }) s

/-- METER_RECORD. -/
def bcsMeterRecord (b : BoxId) (arg : Nat) (s : State) : State := relay { op := 0x900, used := 0x1FFF } b arg s

/-- METER_TENANT. -/
def bcsMeterTenant (b : BoxId) (arg : Nat) (s : State) : State := relay { op := 0x901, used := 0x7FFFF } b arg s

/-- METER_ID. -/
def bcsMeterId (b : BoxId) (arg : Nat) (s : State) : State := relay { op := 0x902 } b arg s

/-- METER_KEY. -/
def bcsMeterKey (b : BoxId) (arg : Nat) (s : State) : State := relay { op := 0x903 } b arg s

/-- METER_AUDIT. -/
def bcsMeterAudit (b : BoxId) (arg : Nat) (s : State) : State := relay { op := 0x904 } b arg s

/-- METER_NOTE, from the partition alone: the notice is recorded as an event (R544). -/
def bcsMeterNote (b : BoxId) (arg : Nat) (s : State) : State :=
  if b != .meter then ackHead b 3 s
  else ackHead b 0 (event (if arg % 65536 = 2 then .meterFeedGap else .meterNotice) 11 [arg % 65536] s)

/-! ### Return to the maker -/

/-- The open records of the journal (R475): the open commands that have a clamp in Table 15-5, one word each: ARG, OPCODE
and INC, and the sender (the word's layout a DESIGN CHOICE, log 10). -/
def journalWords (s : State) : List Word :=
  (s.mb.open_.filter (fun o => o.op != 0x610 && o.op / 256 != 9)).map (fun o =>
    BitVec.ofNat 64 (field 0 44 o.arg + field 44 16 o.tag + field 60 4 o.box.ix))

/-- The capture of R486: the registers MED, EPC, PSV and SGL, the journal, then the snapshots. -/
def captureWords (s : State) : List Word :=
  medRegs s ++ (List.range 10).map (fun i => epcReg .sideband (0x4000 + 8 * i) s)
    ++ (List.range 30).map (fun i => psvReg (0x8000 + 8 * i) s) ++ (List.range 27).map (fun i => sglReg (0xE000 + 8 * i) s)
    ++ journalWords s ++ (s.pw.snaps.map snapWords).flatten

/-- Every key ID is retired without re-key (R457, R486); a re-key in progress ends ABORTED. -/
def retireAll (s : State) : State :=
  let s := if s.sec.rekey.isSome then endOps 0x203 (fun _ => true) 10 { s with sec := { s.sec with rekey := none } } else s
  (s.sec.kids.map (·.1)).foldl (fun s k => retire k none s) s

/-- PREPARE_RETURN (R486): the recorder freezes, the capture is written, the key IDs retire; it is acknowledged when they
have. -/
def bcsPrepareReturn (b : BoxId) (arg : Nat) (s : State) : State :=
  withGate { op := 0xF00, clamp := some 0 } b arg (fun _ s =>
    let s := { s with evr := { s.evr with frozen := true, frozenReturn := true } }
    let s := { s with pst := { s.pst with capture := captureWords s } }
    .wait (returnCheck (retireAll (openOp 0xF00 b arg false s)))) s

/-- DIAG_SNAPSHOT (R507): snapshot k, 0 the newest. -/
def bcsDiagSnapshot (b : BoxId) (arg : Nat) (s : State) : State :=
  withGate { op := 0xF01, used := 0xF } b arg (fun _ s =>
    match s.pw.snaps[arg % 16]? with
    | none => .ack 4 s
    | some x => answerWith b (snapWords x) s) s

/-- The sender may not send key commands by mailbox (R454, R482). -/
def bcsSpdmOnly (b : BoxId) (s : State) : State := ackHead b 3 s

/-- Any other opcode (R482); in Standby the supervisor answers NOT_READY (R508). -/
def bcsUnknown (b : BoxId) (s : State) : State := ackHead b (if s.pw.phase == .standby then 9 else 8) s

/-! ### Taking messages -/

/-- An inbox is served: by Belvy, or in Standby the sideband's by the supervisor core (R470, R508). -/
def canServe (s : State) (b : BoxId) : Bool := mpRuns s || (s.pw.phase == .standby && b == .sideband)

/-- The message at the head of an inbox has been taken and waits for its acknowledgement. -/
def headTaken (s : State) (b : BoxId) : Bool := s.mb.open_.any (fun o => o.box == b && !o.accepted && o.fin.isNone)

/-- A further window commit of a port waits until the one before is acknowledged (R418). -/
def headWaits (s : State) (b : BoxId) (op arg : Nat) : Bool := op == 0x102 && (s.port (targetPort b arg 6)).commit.isSome

/-- A message is of an earlier incarnation (R468, R476). -/
def staleHead (s : State) (b : BoxId) (w : Word) (node : Nat) : Bool :=
  if b == .fabric then Table.getD s.mb.fabInc node (wordInc w) != wordInc w else wordInc w != (boxOf s b).inc

/-- The SOURCE of an event about a sender's message (Table 19-3). -/
def boxSource : BoxId → Nat
  | .portA => 0
  | .portB => 1
  | .sideband => 2
  | .fabric => 3
  | .meter => 11

/-- Takes the message at the head of an inbox and runs its command, or answers STALE_SENDER with an event (R470, R476). -/
def takeHead (b : BoxId) (w : Word) (node : Nat) (run : State → State) (s : State) : State :=
  let s := count 16 0x201 0 1 s
  if staleHead s b w node then ackHead b 7 (event .staleSender (boxSource b) [b.ix, wordOp w] s) else run s

/-- The message of a row: the one its sender posts into a free inbox (R468, R469). -/
def postIfFree (b : BoxId) (op arg : Nat) (s : State) : State :=
  if (boxOf s b).inbox.isEmpty then
    modBox b (fun x =>
      let w := messageWord b.ix x.inc op arg
      { x with inbox := [(w, 0, 0)], inWord := w, ack := false }) s
  else s

/-- A command's row: its message, waiting at the head of its inbox or posted now, is taken and executed (log 43). -/
def runMsg (op : Nat) (b : BoxId) (arg : Nat) (run : State → State) (s : State) : State :=
  let s1 := postIfFree b op arg s
  match (boxOf s1 b).inbox with
  | [] => s
  | (w, node, _) :: _ =>
    if !canServe s b || headTaken s b || headWaits s b op (arg % 2 ^ 44) || wordOp w != op || wordArg w != arg % 2 ^ 44 then s
    else takeHead b w node run s1

/-- The command of an opcode (Table 15-5). -/
def dispatchOp (op : Nat) (b : BoxId) (arg : Nat) (s : State) : State :=
  match op with
  | 0x000 => bcsNop b arg s
  | 0x001 => bcsIdentify b arg s
  | 0x002 => bcsGetMode b arg s
  | 0x010 => bcsReqMode b arg s
  | 0x011 => bcsShutdown b arg s
  | 0x100 => bcsWinStage b arg s
  | 0x101 => bcsWinRemove b arg s
  | 0x102 => bcsWinCommit b arg s
  | 0x103 => bcsWinQuery b arg s
  | 0x104 => bcsSetAperture b arg s
  | 0x200 => bcsSpdmOnly b s
  | 0x201 => bcsSpdmOnly b s
  | 0x202 => bcsSpdmOnly b s
  | 0x203 => bcsSpdmOnly b s
  | 0x204 => bcsSpdmOnly b s
  | 0x205 => bcsSpdmOnly b s
  | 0x300 => bcsCloseEpoch b arg s
  | 0x301 => bcsSetEpochTimer b arg s
  | 0x302 => bcsMeasureHoldup b arg s
  | 0x303 => bcsGetLoss b arg s
  | 0x400 => bcsMediaHealth b arg s
  | 0x401 => bcsSetLevelSpread b arg s
  | 0x402 => bcsReadReftable b arg s
  | 0x403 => bcsFormat b arg s
  | 0x404 => bcsSanitize b arg s
  | 0x405 => bcsScanMedia b arg s
  | 0x500 => bcsSetSlots b arg s
  | 0x501 => bcsSetPdTimer b arg s
  | 0x502 => bcsSetDramRate b arg s
  | 0x503 => bcsSetThermal b arg s
  | 0x504 => bcsSetSupervisor b arg s
  | 0x505 => bcsClearPsvFault b arg s
  | 0x600 => bcsSetNode b arg s
  | 0x601 => bcsSetPool b arg s
  | 0x602 => bcsSetTopology b arg s
  | 0x603 => bcsSetRoster b arg s
  | 0x604 => bcsSetHoldNs b arg s
  | 0x605 => bcsSetRemoteCache b arg s
  | 0x606 => bcsSetGather b arg s
  | 0x607 => bcsSetHoldLimit b arg s
  | 0x608 => bcsPoolStatus b arg s
  | 0x610 => bcsMpForward b arg s
  | 0x700 => bcsEvrFreeze b arg s
  | 0x701 => bcsPmcConfig b arg s
  | 0x702 => bcsTrbConfig b arg s
  | 0x800 => bcsFwBegin b arg s
  | 0x801 => bcsFwData b arg s
  | 0x802 => bcsFwEnd b arg s
  | 0x803 => bcsFwActivate b arg s
  | 0x804 => bcsFwInfo b arg s
  | 0x900 => bcsMeterRecord b arg s
  | 0x901 => bcsMeterTenant b arg s
  | 0x902 => bcsMeterId b arg s
  | 0x903 => bcsMeterKey b arg s
  | 0x904 => bcsMeterAudit b arg s
  | 0x9F0 => bcsMeterNote b arg s
  | 0xF00 => bcsPrepareReturn b arg s
  | 0xF01 => bcsDiagSnapshot b arg s
  | _ => bcsUnknown b s

/-- An inbox holds a message that may be taken now. -/
def mayTake (s : State) (b : BoxId) : Bool :=
  match (boxOf s b).inbox with
  | [] => false
  | (w, _, _) :: _ => canServe s b && !headTaken s b && !headWaits s b (wordOp w) (wordArg w)

/-- Takes the head of an inbox. -/
def takeFrom (b : BoxId) (s : State) : State :=
  match (boxOf s b).inbox with
  | [] => s
  | (w, node, _) :: _ => takeHead b w node (dispatchOp (wordOp w) b (wordArg w)) s

/-- The next waiting message in rotation over the inboxes (R470). -/
def execMessageTake (s : State) : Host.Outcome State Fault Refusal :=
  .next (
    match ((List.range 5).map (fun i => (s.mb.rot + i) % 5)).find? (fun i => mayTake s (BoxId.ofIx i)) with
    | none => s
    | some i => takeFrom (BoxId.ofIx i) { s with mb := { s.mb with rot := (i + 1) % 5 } })

/-- MPMSG (R468, R473): an acknowledgement from a node's MP ends an MP_FORWARD; any other word joins the Fabric inbox, or
finds its 64 words taken and is answered BUSY. -/
def execMpMsg (src inc : Nat) (word : Word) (s : State) : Host.Outcome State Fault Refusal :=
  .next (
    let tag := bitsOf word 16 16
    match if bitsOf word 60 4 = 15 then s.mb.forwards.find? (fun f => f.1 == src && f.2.2 == tag) else none with
    | some f =>
      let s := { s with mb := { s.mb with forwards := s.mb.forwards.erase f } }
      match s.mb.open_.find? (fun o => o.op == 0x610 && o.box == f.2.1 && o.fin.isNone) with
      | some o => endOp o 0 (reply o.box [word] s)
      | none => s
    | none =>
      let w := stamp 3 inc word
      if 64 ≤ (boxOf s .fabric).inbox.length then
        sendMsg { kind := .mgr, src := me s, dst := src, mcode := 8, payload := [BitVec.ofNat 64 2] } s
      else
        modBox .fabric (fun x => { x with inbox := x.inbox ++ [(w, src, 0)], inWord := if x.inbox.isEmpty then w else x.inWord })
          { s with mb := { s.mb with fabInc := Table.put s.mb.fabInc src (inc % 16) } })

/-! ### The rows -/

/-- 0x000: its message is taken and executed. -/
def execNop (box : BoxId) (arg : Nat) (s : State) : Host.Outcome State Fault Refusal :=
  .next (runMsg 0x000 box arg (bcsNop box (arg % 2 ^ 44)) s)

/-- 0x001: its message is taken and executed. -/
def execIdentify (box : BoxId) (arg : Nat) (s : State) : Host.Outcome State Fault Refusal :=
  .next (runMsg 0x001 box arg (bcsIdentify box (arg % 2 ^ 44)) s)

/-- 0x002: its message is taken and executed. -/
def execGetMode (box : BoxId) (arg : Nat) (s : State) : Host.Outcome State Fault Refusal :=
  .next (runMsg 0x002 box arg (bcsGetMode box (arg % 2 ^ 44)) s)

/-- 0x010: its message is taken and executed. -/
def execReqMode (box : BoxId) (arg : Nat) (s : State) : Host.Outcome State Fault Refusal :=
  .next (runMsg 0x010 box arg (bcsReqMode box (arg % 2 ^ 44)) s)

/-- 0x011: its message is taken and executed. -/
def execShutdown (box : BoxId) (arg : Nat) (s : State) : Host.Outcome State Fault Refusal :=
  .next (runMsg 0x011 box arg (bcsShutdown box (arg % 2 ^ 44)) s)

/-- 0x100: its message is taken and executed. -/
def execWinStage (box : BoxId) (arg : Nat) (s : State) : Host.Outcome State Fault Refusal :=
  .next (runMsg 0x100 box arg (bcsWinStage box (arg % 2 ^ 44)) s)

/-- 0x101: its message is taken and executed. -/
def execWinRemove (box : BoxId) (arg : Nat) (s : State) : Host.Outcome State Fault Refusal :=
  .next (runMsg 0x101 box arg (bcsWinRemove box (arg % 2 ^ 44)) s)

/-- 0x102: its message is taken and executed. -/
def execWinCommit (box : BoxId) (arg : Nat) (s : State) : Host.Outcome State Fault Refusal :=
  .next (runMsg 0x102 box arg (bcsWinCommit box (arg % 2 ^ 44)) s)

/-- 0x103: its message is taken and executed. -/
def execWinQuery (box : BoxId) (arg : Nat) (s : State) : Host.Outcome State Fault Refusal :=
  .next (runMsg 0x103 box arg (bcsWinQuery box (arg % 2 ^ 44)) s)

/-- 0x104: its message is taken and executed. -/
def execSetAperture (box : BoxId) (arg : Nat) (s : State) : Host.Outcome State Fault Refusal :=
  .next (runMsg 0x104 box arg (bcsSetAperture box (arg % 2 ^ 44)) s)

/-- 0x300: its message is taken and executed. -/
def execCloseEpoch (box : BoxId) (arg : Nat) (s : State) : Host.Outcome State Fault Refusal :=
  .next (runMsg 0x300 box arg (bcsCloseEpoch box (arg % 2 ^ 44)) s)

/-- 0x301: its message is taken and executed. -/
def execSetEpochTimer (box : BoxId) (arg : Nat) (s : State) : Host.Outcome State Fault Refusal :=
  .next (runMsg 0x301 box arg (bcsSetEpochTimer box (arg % 2 ^ 44)) s)

/-- 0x302: its message is taken and executed. -/
def execMeasureHoldup (box : BoxId) (arg : Nat) (s : State) : Host.Outcome State Fault Refusal :=
  .next (runMsg 0x302 box arg (bcsMeasureHoldup box (arg % 2 ^ 44)) s)

/-- 0x303: its message is taken and executed. -/
def execGetLoss (box : BoxId) (arg : Nat) (s : State) : Host.Outcome State Fault Refusal :=
  .next (runMsg 0x303 box arg (bcsGetLoss box (arg % 2 ^ 44)) s)

/-- 0x400: its message is taken and executed. -/
def execMediaHealth (box : BoxId) (arg : Nat) (s : State) : Host.Outcome State Fault Refusal :=
  .next (runMsg 0x400 box arg (bcsMediaHealth box (arg % 2 ^ 44)) s)

/-- 0x401: its message is taken and executed. -/
def execSetLevelSpread (box : BoxId) (arg : Nat) (s : State) : Host.Outcome State Fault Refusal :=
  .next (runMsg 0x401 box arg (bcsSetLevelSpread box (arg % 2 ^ 44)) s)

/-- 0x402: its message is taken and executed. -/
def execReadReftable (box : BoxId) (arg : Nat) (s : State) : Host.Outcome State Fault Refusal :=
  .next (runMsg 0x402 box arg (bcsReadReftable box (arg % 2 ^ 44)) s)

/-- 0x403: its message is taken and executed. -/
def execFormat (box : BoxId) (arg : Nat) (s : State) : Host.Outcome State Fault Refusal :=
  .next (runMsg 0x403 box arg (bcsFormat box (arg % 2 ^ 44)) s)

/-- 0x404: its message is taken and executed. -/
def execSanitize (box : BoxId) (arg : Nat) (s : State) : Host.Outcome State Fault Refusal :=
  .next (runMsg 0x404 box arg (bcsSanitize box (arg % 2 ^ 44)) s)

/-- 0x405: its message is taken and executed. -/
def execScanMedia (box : BoxId) (arg : Nat) (s : State) : Host.Outcome State Fault Refusal :=
  .next (runMsg 0x405 box arg (bcsScanMedia box (arg % 2 ^ 44)) s)

/-- 0x500: its message is taken and executed. -/
def execSetSlots (box : BoxId) (arg : Nat) (s : State) : Host.Outcome State Fault Refusal :=
  .next (runMsg 0x500 box arg (bcsSetSlots box (arg % 2 ^ 44)) s)

/-- 0x501: its message is taken and executed. -/
def execSetPdTimer (box : BoxId) (arg : Nat) (s : State) : Host.Outcome State Fault Refusal :=
  .next (runMsg 0x501 box arg (bcsSetPdTimer box (arg % 2 ^ 44)) s)

/-- 0x502: its message is taken and executed. -/
def execSetDramRate (box : BoxId) (arg : Nat) (s : State) : Host.Outcome State Fault Refusal :=
  .next (runMsg 0x502 box arg (bcsSetDramRate box (arg % 2 ^ 44)) s)

/-- 0x503: its message is taken and executed. -/
def execSetThermal (box : BoxId) (arg : Nat) (s : State) : Host.Outcome State Fault Refusal :=
  .next (runMsg 0x503 box arg (bcsSetThermal box (arg % 2 ^ 44)) s)

/-- 0x504: its message is taken and executed. -/
def execSetSupervisor (box : BoxId) (arg : Nat) (s : State) : Host.Outcome State Fault Refusal :=
  .next (runMsg 0x504 box arg (bcsSetSupervisor box (arg % 2 ^ 44)) s)

/-- 0x505: its message is taken and executed. -/
def execClearPsvFault (box : BoxId) (arg : Nat) (s : State) : Host.Outcome State Fault Refusal :=
  .next (runMsg 0x505 box arg (bcsClearPsvFault box (arg % 2 ^ 44)) s)

/-- 0x600: its message is taken and executed. -/
def execSetNode (box : BoxId) (arg : Nat) (s : State) : Host.Outcome State Fault Refusal :=
  .next (runMsg 0x600 box arg (bcsSetNode box (arg % 2 ^ 44)) s)

/-- 0x601: its message is taken and executed. -/
def execSetPool (box : BoxId) (arg : Nat) (s : State) : Host.Outcome State Fault Refusal :=
  .next (runMsg 0x601 box arg (bcsSetPool box (arg % 2 ^ 44)) s)

/-- 0x602: its message is taken and executed. -/
def execSetTopology (box : BoxId) (arg : Nat) (s : State) : Host.Outcome State Fault Refusal :=
  .next (runMsg 0x602 box arg (bcsSetTopology box (arg % 2 ^ 44)) s)

/-- 0x603: its message is taken and executed. -/
def execSetRoster (box : BoxId) (arg : Nat) (s : State) : Host.Outcome State Fault Refusal :=
  .next (runMsg 0x603 box arg (bcsSetRoster box (arg % 2 ^ 44)) s)

/-- 0x604: its message is taken and executed. -/
def execSetHoldNs (box : BoxId) (arg : Nat) (s : State) : Host.Outcome State Fault Refusal :=
  .next (runMsg 0x604 box arg (bcsSetHoldNs box (arg % 2 ^ 44)) s)

/-- 0x605: its message is taken and executed. -/
def execSetRemoteCache (box : BoxId) (arg : Nat) (s : State) : Host.Outcome State Fault Refusal :=
  .next (runMsg 0x605 box arg (bcsSetRemoteCache box (arg % 2 ^ 44)) s)

/-- 0x606: its message is taken and executed. -/
def execSetGather (box : BoxId) (arg : Nat) (s : State) : Host.Outcome State Fault Refusal :=
  .next (runMsg 0x606 box arg (bcsSetGather box (arg % 2 ^ 44)) s)

/-- 0x607: its message is taken and executed. -/
def execSetHoldLimit (box : BoxId) (arg : Nat) (s : State) : Host.Outcome State Fault Refusal :=
  .next (runMsg 0x607 box arg (bcsSetHoldLimit box (arg % 2 ^ 44)) s)

/-- 0x608: its message is taken and executed. -/
def execPoolStatus (box : BoxId) (arg : Nat) (s : State) : Host.Outcome State Fault Refusal :=
  .next (runMsg 0x608 box arg (bcsPoolStatus box (arg % 2 ^ 44)) s)

/-- 0x610: its message is taken and executed. -/
def execMpForward (box : BoxId) (arg : Nat) (s : State) : Host.Outcome State Fault Refusal :=
  .next (runMsg 0x610 box arg (bcsMpForward box (arg % 2 ^ 44)) s)

/-- 0x700: its message is taken and executed. -/
def execEvrFreeze (box : BoxId) (arg : Nat) (s : State) : Host.Outcome State Fault Refusal :=
  .next (runMsg 0x700 box arg (bcsEvrFreeze box (arg % 2 ^ 44)) s)

/-- 0x701: its message is taken and executed. -/
def execPmcConfig (box : BoxId) (arg : Nat) (s : State) : Host.Outcome State Fault Refusal :=
  .next (runMsg 0x701 box arg (bcsPmcConfig box (arg % 2 ^ 44)) s)

/-- 0x702: its message is taken and executed. -/
def execTrbConfig (box : BoxId) (arg : Nat) (s : State) : Host.Outcome State Fault Refusal :=
  .next (runMsg 0x702 box arg (bcsTrbConfig box (arg % 2 ^ 44)) s)

/-- 0x800: its message is taken and executed. -/
def execFwBegin (box : BoxId) (arg : Nat) (s : State) : Host.Outcome State Fault Refusal :=
  .next (runMsg 0x800 box arg (bcsFwBegin box (arg % 2 ^ 44)) s)

/-- 0x801: its message is taken and executed. -/
def execFwData (box : BoxId) (arg : Nat) (s : State) : Host.Outcome State Fault Refusal :=
  .next (runMsg 0x801 box arg (bcsFwData box (arg % 2 ^ 44)) s)

/-- 0x802: its message is taken and executed. -/
def execFwEnd (box : BoxId) (arg : Nat) (s : State) : Host.Outcome State Fault Refusal :=
  .next (runMsg 0x802 box arg (bcsFwEnd box (arg % 2 ^ 44)) s)

/-- 0x803: its message is taken and executed. -/
def execFwActivate (box : BoxId) (arg : Nat) (s : State) : Host.Outcome State Fault Refusal :=
  .next (runMsg 0x803 box arg (bcsFwActivate box (arg % 2 ^ 44)) s)

/-- 0x804: its message is taken and executed. -/
def execFwInfo (box : BoxId) (arg : Nat) (s : State) : Host.Outcome State Fault Refusal :=
  .next (runMsg 0x804 box arg (bcsFwInfo box (arg % 2 ^ 44)) s)

/-- 0x900: its message is taken and executed. -/
def execMeterRecord (box : BoxId) (arg : Nat) (s : State) : Host.Outcome State Fault Refusal :=
  .next (runMsg 0x900 box arg (bcsMeterRecord box (arg % 2 ^ 44)) s)

/-- 0x901: its message is taken and executed. -/
def execMeterTenant (box : BoxId) (arg : Nat) (s : State) : Host.Outcome State Fault Refusal :=
  .next (runMsg 0x901 box arg (bcsMeterTenant box (arg % 2 ^ 44)) s)

/-- 0x902: its message is taken and executed. -/
def execMeterId (box : BoxId) (arg : Nat) (s : State) : Host.Outcome State Fault Refusal :=
  .next (runMsg 0x902 box arg (bcsMeterId box (arg % 2 ^ 44)) s)

/-- 0x903: its message is taken and executed. -/
def execMeterKey (box : BoxId) (arg : Nat) (s : State) : Host.Outcome State Fault Refusal :=
  .next (runMsg 0x903 box arg (bcsMeterKey box (arg % 2 ^ 44)) s)

/-- 0x904: its message is taken and executed. -/
def execMeterAudit (box : BoxId) (arg : Nat) (s : State) : Host.Outcome State Fault Refusal :=
  .next (runMsg 0x904 box arg (bcsMeterAudit box (arg % 2 ^ 44)) s)

/-- 0x9F0: its message is taken and executed. -/
def execMeterNote (notice : Nat) (s : State) : Host.Outcome State Fault Refusal :=
  .next (runMsg 0x9F0 .meter notice (bcsMeterNote .meter (notice % 2 ^ 44)) s)

/-- 0xF00: its message is taken and executed. -/
def execPrepareReturn (box : BoxId) (arg : Nat) (s : State) : Host.Outcome State Fault Refusal :=
  .next (runMsg 0xF00 box arg (bcsPrepareReturn box (arg % 2 ^ 44)) s)

/-- 0xF01: its message is taken and executed. -/
def execDiagSnapshot (box : BoxId) (arg : Nat) (s : State) : Host.Outcome State Fault Refusal :=
  .next (runMsg 0xF01 box arg (bcsDiagSnapshot box (arg % 2 ^ 44)) s)

end Sys2Proof.Machine
end

