-- ==== Sys2Proof/Machine/Cxl.lean ====
section
/-! DEFINITION. The CXL memory device commands of a port's mailbox (Table 13-6, R430, R431). Return codes are those of the
CXL standard (PRESUMED, log 45): 0 Success, 1 Background Command Started, 2 Invalid Input, 6 Busy, 9 FW Transfer Out of Order,
11 Invalid Slot, 12 Activation Failed with FW Rolled Back, 14 Invalid Handle, 15 Invalid Physical Address, 19 Invalid Security
State. Payload words that the standard and not the manual lays out are opaque functions of the values the manual names
(log 10). -/

namespace Sys2Proof.Machine

/-! ### Shared parts -/

/-- The CXL mailbox is available from the end of Boot (R407). -/
def cxlUp (s : State) : Bool :=
  match s.pw.phase with
  | .off => false
  | .standby => false
  | .boot => false
  | .powerDown => false
  | .replay => true
  | .service => true
  | .flush => true

/-- A command's answer, or none before the mailbox is available. -/
def cxlCmd (f : State → State) (s : State) : State := if cxlUp s then f s else s

/-- An answer (R430). -/
def cxlAns (p : Port) (op rc : Nat) (ws : List Word) (s : State) : State := emit (.cxl p op rc ws) s

/-- An answer whose words the CXL standard lays out, of the values the manual names (log 10). -/
def cxlVals (p : Port) (op n : Nat) (vals : List Nat) (s : State) : State :=
  cxlAns p op 0 ((List.range n).map (fun k => Config.cxlWord op k vals)) s

/-- Needs a clamp: Invalid Security State without it (R421, R425). -/
def cxlClamp (p : Port) (op n : Nat) (f : State → State) (s : State) : State :=
  if holds p.sender n s then f s else cxlAns p op 19 [] s

/-- Needs memory: Busy until Replay ends, and while memory is not served (R407, R464). -/
def cxlMem (p : Port) (op : Nat) (f : State → State) (s : State) : State :=
  if serving s then f s else cxlAns p op 6 [] s

/-- A background operation of the port runs. -/
def bgRuns (p : Port) (s : State) : Bool :=
  match (s.cxl p).bg with
  | some (_, done) => !done
  | none => false

/-- A background operation starts: Busy while another of the port runs. -/
def cxlBackground (p : Port) (op : Nat) (f : State → State) (s : State) : State :=
  if bgRuns p s then cxlAns p op 6 [] s
  else cxlAns p op 1 [] (f (s.setCxl p { s.cxl p with bg := some (op, false) }))

/-- Packs bytes into words, the first in the low byte. -/
def packBytes (bs : List (BitVec 8)) : List Word :=
  (List.range ((bs.length + 7) / 8)).map (fun i =>
    word ((List.range 8).foldl (fun a j => a + field (8 * j) 8 (nthD bs (8 * i + j) 0).toNat) 0))

/-! ### Identity, status, events -/

/-- Identify: the device identity. -/
def execCxlIdentify (port : Port) (s : State) : Host.Outcome State Fault Refusal :=
  .next (cxlCmd (fun s => cxlAns port 0x0001 0 [Config.cxlWord 0x0001 0 [], Config.serial] s) s)

/-- Background Operation Status: the operation and whether it is complete. -/
def execCxlBackgroundStatus (port : Port) (s : State) : Host.Outcome State Fault Refusal :=
  .next (cxlCmd (fun s =>
    match (s.cxl port).bg with
    | some (op, done) => cxlVals port 0x0002 1 [op, if done then 1 else 0] s
    | none => cxlVals port 0x0002 1 [] s) s)

/-- The place of an event log. -/
def logIx : CxlLog → Nat
  | .info => 0
  | .warning => 1
  | .failure => 2
  | .fatal => 3

/-- The classes carried in a CXL record format of their own (Table 19-4, R573). -/
def cxlFormat (e : Event) : Bool := [0x1000, 0x2000, 0x3000, 0x8000].contains e.kind.cls

/-- A posted record's words: the vendor-specific 32 bytes, or the CXL format's (R573). -/
def logWords (s : State) (seq : Nat) : List Word :=
  match recAt s seq with
  | none => []
  | some r =>
    let ws := recWords r (shownRepeat s r)
    if cxlFormat r.ev then (List.range 4).map (fun k => Config.cxlWord 0x0100 k (ws.map (·.toNat))) else ws

/-- Get Event Records: the records of a log, oldest first. -/
def execCxlGetEventRecords (port : Port) (log : CxlLog) (s : State) : Host.Outcome State Fault Refusal :=
  .next (cxlCmd (fun s => cxlAns port 0x0100 0 ((nthD (s.cxl port).logs (logIx log) []).flatMap (logWords s)) s) s)

/-- Clear Event Records: the records named, by the SEQ that is their handle here, or all; a handle that names none leaves
the log as it was (Invalid Handle). -/
def execCxlClearEventRecords (port : Port) (log : CxlLog) (handles : List Nat) (s : State) :
    Host.Outcome State Fault Refusal :=
  .next (cxlCmd (fun s =>
    let c := s.cxl port
    let l := nthD c.logs (logIx log) []
    let rest := if handles.isEmpty then [] else l.filter (fun x => !handles.contains x)
    if handles.all (fun h => l.contains h) then
      cxlAns port 0x0101 0 [] (s.setCxl port { c with logs := setNth c.logs (logIx log) rest })
    else cxlAns port 0x0101 14 [] s) s)

/-- Get Event Interrupt Policy. -/
def execCxlGetEventIntPolicy (port : Port) (s : State) : Host.Outcome State Fault Refusal :=
  .next (cxlCmd (fun s => cxlVals port 0x0102 1 (s.cxl port).policy s) s)

/-- Set Event Interrupt Policy: one byte for each log. -/
def execCxlSetEventIntPolicy (port : Port) (policy : List Nat) (s : State) : Host.Outcome State Fault Refusal :=
  .next (cxlCmd (fun s =>
    if policy.length = 4 && policy.all (fun v => decide (v < 256)) then
      cxlAns port 0x0103 0 [] (s.setCxl port { s.cxl port with policy := policy })
    else cxlAns port 0x0103 2 [] s) s)

/-! ### Firmware -/

/-- Get FW Info: two slots; BCS slot 0 is CXL slot 1 (R484). -/
def execCxlGetFwInfo (port : Port) (s : State) : Host.Outcome State Fault Refusal :=
  .next (cxlCmd (fun s => cxlVals port 0x0200 10
    [2, s.mb.active + 1, s.mb.nextSlot + 1, (slotAt s 0).state, (slotAt s 0).version, (slotAt s 1).state, (slotAt s 1).version] s) s)

/-- The image words of a transfer go into the open slot: its return code. -/
def cxlData (off : Nat) (ws : List Word) (s : State) : Nat × State :=
  if (openSlot s).isNone then (9, s)
  else
    let r := fwWrite (off * 16) ws s
    (if r.1 = 0 then 0 else 2, r.2)

/-- A transfer opens on a CXL slot: the largest image fits, since the command gives no size (log 45). -/
def cxlOpen (slot : Nat) (s : State) : Nat × State :=
  if slot = 0 || 2 < slot then (11, s)
  else
    let r := fwOpen (slot - 1) 4096 s
    (if r.1 = 0 then 0 else 6, r.2)

/-- The last part of a transfer: its words, then the check in the background (R484). -/
def cxlEnd (p : Port) (off : Nat) (ws : List Word) (s : State) : State :=
  let r := cxlData off ws s
  if r.1 ≠ 0 then cxlAns p 0x0201 r.1 [] s
  else cxlBackground p 0x0201 (fun s => (fwStartCheck s).getD s) r.2

/-- Transfer FW (R484): actions 0 full, 1 initiate, 2 continue, 3 end, 4 abort; offsets in 128 bytes. -/
def execCxlTransferFw (port : Port) (action slot offset : Nat) (words : List Word) (s : State) :
    Host.Outcome State Fault Refusal :=
  .next (cxlCmd (cxlClamp port 0x0201 0 (fun s =>
    if bgRuns port s then cxlAns port 0x0201 6 [] s
    else
      match action with
      | 0 =>
        let r := cxlOpen slot s
        if r.1 = 0 then cxlEnd port 0 words r.2 else cxlAns port 0x0201 r.1 [] s
      | 1 =>
        let r := cxlOpen slot s
        if r.1 = 0 then
          let d := cxlData offset words r.2
          cxlAns port 0x0201 d.1 [] d.2
        else cxlAns port 0x0201 r.1 [] s
      | 2 =>
        let d := cxlData offset words s
        cxlAns port 0x0201 d.1 [] d.2
      | 3 => cxlEnd port offset words s
      | 4 =>
        match openSlot s with
        | some n => cxlAns port 0x0201 0 [] (setSlot n {} s)
        | none => cxlAns port 0x0201 9 [] s
      | _ => cxlAns port 0x0201 2 [] s)) s)

/-- Activate FW (R485), at the next Boot or online; online it is answered when the MP has restarted. -/
def execCxlActivateFw (port : Port) (slot : Nat) (online : Bool) (s : State) : Host.Outcome State Fault Refusal :=
  .next (cxlCmd (cxlClamp port 0x0202 0 (fun s =>
    if slot = 0 || 2 < slot || (slotAt s (slot - 1)).state != 3 then cxlAns port 0x0202 11 [] s
    else if !online then cxlAns port 0x0202 0 [] (fwSwitch (slot - 1) false s)
    else if s.mb.fwRestart.isSome || !s.mb.mpReady then cxlAns port 0x0202 6 [] s
    else fwSwitch (slot - 1) true (s.setCxl port { s.cxl port with actWait := true }))) s)

/-! ### Time, logs, identity -/

/-- Get Timestamp: the RTC (R570). -/
def execCxlGetTimestamp (port : Port) (s : State) : Host.Outcome State Fault Refusal :=
  .next (cxlCmd (fun s => cxlVals port 0x0300 1 [rtc s] s) s)

/-- Set Timestamp sets the RTC (R570). -/
def execCxlSetTimestamp (port : Port) (seconds : Nat) (s : State) : Host.Outcome State Fault Refusal :=
  .next (cxlCmd (fun s => cxlAns port 0x0301 0 []
    { s with evr := { s.evr with rtcBase := seconds % 2 ^ 32, rtcAt := s.now, rtcSet := true } }) s)

/-- Get Supported Logs: the Command Effects Log. -/
def execCxlGetSupportedLogs (port : Port) (s : State) : Host.Outcome State Fault Refusal :=
  .next (cxlCmd (cxlVals port 0x0400 3 []) s)

/-- Get Log: the Command Effects Log, one entry for each command of Table 13-6. -/
def execCxlGetLog (port : Port) (s : State) : Host.Outcome State Fault Refusal :=
  .next (cxlCmd (cxlVals port 0x0401 30 []) s)

/-- Identify Memory Device: the aperture is the total and the persistent-only capacity, volatile is 0 (R402); the label
storage area has 128 KiB. -/
def execCxlIdentifyMemoryDevice (port : Port) (s : State) : Host.Outcome State Fault Refusal :=
  .next (cxlCmd (fun s => cxlVals port 0x4000 9 [(s.port port).aperture, 0, (s.port port).aperture, 131072] s) s)

/-- Get Partition Info: the active volatile capacity is 0, the persistent the aperture. -/
def execCxlGetPartitionInfo (port : Port) (s : State) : Host.Outcome State Fault Refusal :=
  .next (cxlCmd (fun s => cxlAns port 0x4100 0 [0, word (s.port port).aperture, 0, 0] s) s)

/-! ### Label storage area -/

/-- The label storage area as reads see it: what has been written, committed or not. -/
def lsaView (c : CxlBox) : Table (BitVec 8) := c.lsaWait.foldl (fun t e => lsaPut e.off e.bytes t) c.lsa

/-- Get LSA. -/
def execCxlGetLsa (port : Port) (off len : Nat) (s : State) : Host.Outcome State Fault Refusal :=
  .next (cxlCmd (cxlMem port 0x4102 (fun s =>
    if 131072 < off + len then cxlAns port 0x4102 2 [] s
    else
      let t := lsaView (s.cxl port)
      cxlAns port 0x4102 0 (packBytes ((List.range len).map (fun i => Table.getD t (off + i) 0))) s)) s)

/-- Set LSA: written in the open epoch, and complete after its commit. -/
def execCxlSetLsa (port : Port) (off : Nat) (bytes : List (BitVec 8)) (s : State) : Host.Outcome State Fault Refusal :=
  .next (cxlCmd (cxlMem port 0x4103 (fun s =>
    if 131072 < off + bytes.length then cxlAns port 0x4103 2 [] s
    else
      let c := s.cxl port
      let e : LsaWrite := { epoch := s.per.openEpoch, off := off, bytes := bytes, answer := true }
      let s := s.setCxl port { c with lsaWait := c.lsaWait ++ [e] }
      { s with per := { s.per with openHolds := true } })) s)

/-! ### Health and alerts -/

/-- Life Used: SPARE_PCT / 100, rounded down (R431). -/
def lifeUsed (s : State) : Nat := sparePct s / 100

/-- Dirty Shutdown Count: loss records of kinds 1 to 4 since format (R431). -/
def dirtyShutdowns (s : State) : Nat := counter 3 s - s.pst.dirtyAtFormat

/-- Get Health Info (R431): life used, the hottest medium node of the model, dirty shutdowns, and read-only. -/
def execCxlGetHealthInfo (port : Port) (s : State) : Host.Outcome State Fault Refusal :=
  .next (cxlCmd (fun s => cxlVals port 0x4200 3
    [lifeUsed s, degByte (nthD s.thm.temps (hotMedium s) 0), dirtyShutdowns s, if s.tr.readOnly then 1 else 0] s) s)

/-- Get Alert Configuration. -/
def execCxlGetAlertConfig (port : Port) (s : State) : Host.Outcome State Fault Refusal :=
  .next (cxlCmd (fun s => cxlVals port 0x4201 2 (s.cxl port).alert s) s)

/-- Set Alert Configuration. -/
def execCxlSetAlertConfig (port : Port) (cfg : List Nat) (s : State) : Host.Outcome State Fault Refusal :=
  .next (cxlCmd (fun s => cxlAns port 0x4202 0 [] (s.setCxl port { s.cxl port with alert := cfg })) s)

/-- Get Shutdown State. -/
def execCxlGetShutdownState (port : Port) (s : State) : Host.Outcome State Fault Refusal :=
  .next (cxlCmd (fun s => cxlAns port 0x4203 0 [word (if (s.cxl port).dirty then 1 else 0)] s) s)

/-- Set Shutdown State. -/
def execCxlSetShutdownState (port : Port) (dirty : Bool) (s : State) : Host.Outcome State Fault Refusal :=
  .next (cxlCmd (fun s => cxlAns port 0x4204 0 [] (s.setCxl port { s.cxl port with dirty := dirty })) s)

/-! ### Poison -/

/-- The host address of a device physical address under the port's HDM decoders (R402). -/
def dpaHpa : List (Nat × Nat × Nat) → Nat → Option Nat
  | [], _ => none
  | (b, n, d) :: t, dpa => if d ≤ dpa ∧ dpa < d + n then some (dpa - d + b) else dpaHpa t dpa

/-- The window decode of a device physical address of a port. -/
def decodeDpa (h : HostPort) (dpa : Nat) : Option Decoded :=
  match dpaHpa h.hdm dpa with
  | some hpa => decode h hpa
  | none => none

/-- The device physical addresses at which a port's windows show a line of this node. -/
def dpasOf (s : State) (h : HostPort) (dla : Nat) : List Nat :=
  h.windows.flatMap (fun x =>
    let w := x.2
    let pla := me s * 2 ^ 42 + dla * 64
    if w.valid && decide (w.pbase ≤ pla) && decide (pla < w.pbase + w.size * 2 ^ 28) then
      (List.range (2 ^ w.kbits)).filterMap (fun i => hdmDpa h.hdm (w.hbase + (pla - w.pbase) + i * 2 ^ w.kshift))
    else [])

/-- The lines of a page that read as poison because their dense entry says so. -/
def pagePoison (s : State) (lpn : Nat) : List Nat :=
  ((List.range 64).map (fun i => lpn * 64 + i)).filter (fun d => (eavesOf s d).isNone)

/-- The lines poisoned in this device's maps (R430). -/
def poisonedLines (s : State) : List Nat :=
  ((s.tr.maps.eaves.filter (fun x => x.2.poison)).map (·.1))
    ++ (s.tr.maps.dense.filter (fun x => x.2.poison)).flatMap (fun x => pagePoison s x.1)
    ++ s.tr.lostLines

/-- Get Poison List: within the DPA range, through the port's windows. -/
def execCxlGetPoisonList (port : Port) (dpa len : Nat) (s : State) : Host.Outcome State Fault Refusal :=
  .next (cxlCmd (cxlMem port 0x4300 (fun s =>
    let h := s.port port
    let ds := (poisonedLines s).dedup.flatMap (dpasOf s h)
    cxlAns port 0x4300 0 ((ds.filter (fun d => decide (dpa ≤ d) && decide (d < dpa + len) && decide (d < h.aperture * 2 ^ 28))).map
      word) s)) s)

/-- A poison command's line: it needs a window with WR and a key ID in force (R421, R430). -/
def poisonTarget (p : Port) (op dpa : Nat) (f : Decoded → State → State) (s : State) : State :=
  match decodeDpa (s.port p) dpa with
  | none => cxlAns p op 15 [] s
  | some d => if d.wr && d.kvalid && keyServes s d.kid then f d s else cxlAns p op 19 [] s

/-- A write of a CXL mailbox: it is answered when it completes. -/
def cxlWaiter (p : Port) (op : Nat) (d : Decoded) (data : Line) (poison : Bool) : Waiter :=
  { kind := .write, asker := .cxl p op, kid := d.kid, cls := p.ix, data := data, mask := fullMask, poison := poison }

/-- Inject Poison: the line is recorded as R193 does; a line of another node is poisoned by a write with POISON (DEDUCED,
log 45). -/
def execCxlInjectPoison (port : Port) (dpa : Nat) (s : State) : Host.Outcome State Fault Refusal :=
  .next (cxlCmd (cxlMem port 0x4301 (poisonTarget port 0x4301 dpa (fun d s =>
    let dla := plaDla d.pla
    if plaNode d.pla = me s then cxlAns port 0x4301 0 [] (poisonHome dla s)
    else remoteRequest (plaNode d.pla) dla (cxlWaiter port 0x4301 d 0 true) s))) s)

/-- Clear Poison: a full-line write of the data supplied. -/
def execCxlClearPoison (port : Port) (dpa : Nat) (data : Line) (s : State) : Host.Outcome State Fault Refusal :=
  .next (cxlCmd (cxlMem port 0x4302 (poisonTarget port 0x4302 dpa (fun d s =>
    let dla := plaDla d.pla
    let w := cxlWaiter port 0x4302 d data false
    if plaNode d.pla = me s then localRequest dla w s else remoteRequest (plaNode d.pla) dla w s))) s)

/-! ### Scan Media and sanitize -/

/-- Get Scan Media Capabilities. -/
def execCxlScanMediaCaps (port : Port) (s : State) : Host.Outcome State Fault Refusal :=
  .next (cxlCmd (cxlVals port 0x4303 1 []) s)

/-- Scan Media: an extra scrub pass in the background (R210). -/
def execCxlScanMedia (port : Port) (s : State) : Host.Outcome State Fault Refusal :=
  .next (cxlCmd (cxlClamp port 0x4304 6 (cxlMem port 0x4304 (fun s =>
    if s.prot.scanning then cxlAns port 0x4304 6 [] s
    else cxlBackground port 0x4304 (fun s =>
      { s with prot := { s.prot with scanning := true, progress := 0, passRows := [] } }) s))) s)

/-- Get Scan Media Results: the lines poisoned in the maps, once the pass is complete. -/
def execCxlScanMediaResults (port : Port) (s : State) : Host.Outcome State Fault Refusal :=
  .next (cxlCmd (cxlMem port 0x4305 (fun s =>
    if s.prot.scanning then cxlAns port 0x4305 6 [] s
    else cxlAns port 0x4305 0 (((poisonedLines s).dedup.flatMap (dpasOf s (s.port port))).map word) s)) s)

/-- A sanitize of a kind starts in the background (R464). -/
def cxlErase (p : Port) (op kind : Nat) (s : State) : State :=
  match eraseBar s with
  | some _ => cxlAns p op 6 [] s
  | none => cxlBackground p op (startSanitize kind) s

/-- Sanitize: the overwrite sanitize. -/
def execCxlSanitize (port : Port) (s : State) : Host.Outcome State Fault Refusal :=
  .next (cxlCmd (cxlClamp port 0x4400 0 (cxlErase port 0x4400 2)) s)

/-- Secure Erase: the cryptographic sanitize. -/
def execCxlSecureErase (port : Port) (s : State) : Host.Outcome State Fault Refusal :=
  .next (cxlCmd (cxlClamp port 0x4401 0 (cxlErase port 0x4401 1)) s)

end Sys2Proof.Machine
end

