-- ==== Sys2Proof/Machine/Lpddr.lean ====
section
/-! DEFINITION. Refresh, training and power-down of the LPDDR6 channels (09). -/

namespace Sys2Proof.Machine

/-- Core cycles that a per-bank refresh holds its bank: its maximum (R302; DESIGN CHOICE, log 25). -/
def refreshCycles : Nat := 280

/-- Replaces a bank. -/
def putBank (k : Nat) (b : Bank) (s : State) : State :=
  { s with dram := { s.dram with banks := Table.putD s.dram.banks k b {} } }

/-- A read that passed its tag check is still to be served by the bank (R304). -/
def bankReads (s : State) (k : Nat) : Bool :=
  s.dram.queue.any (fun r => r.use == .line && r.live s && bankOf r.line == k)

/-- The asker is a host. -/
def Asker.isHost : Asker → Bool
  | .host _ _ _ _ _ => true
  | .node _ _ => false
  | .dovetail => false
  | .prefetch => false
  | .sequencer => false
  | .cxl _ _ => false

/-- A host read waits for the bank, for its line or for its map entries (R304). -/
def hostReads (s : State) (k : Nat) : Bool :=
  s.dram.queue.any (fun r => r.live s && bankOf r.line == k
    && ((Table.get? s.cache.mshrs (lkey r.node r.dla)).bind (·.cur)).any (fun w => w.asker.isHost))

/-- No request is queued for a rank (R308). -/
def rankIdle (s : State) (ch rank : Nat) : Bool :=
  !s.dram.queue.any (fun r => r.live s && lineChan r.line == ch && lineRank r.line == rank)
    && !s.dram.writes.any (fun n => lineChan n == ch && lineRank n == rank)

/-- A per-bank refresh falls due (R304): it is postponed while host reads wait for the bank, by up to 8 intervals, and else
the bank is marked refresh-busy. In self-refresh the devices refresh themselves. -/
def execBankRefreshDue (ch rank bank : Nat) (s : State) : Host.Outcome State Fault Refusal :=
  .next (
    if s.dram.selfRef || !(decide (ch < 16) && decide (rank < 2) && decide (bank < 16)) then s
    else
      let k := bankKey ch rank bank
      let b := bankAt s k
      if hostReads s k && b.postponed < 8 then putBank k { b with postponed := b.postponed + 1 } s
      else putBank k { b with marked := true } s)

/-- The bank with the same rank, group and number on channel c XOR 8 is refreshing (R303). -/
def partnerBusy (s : State) (ch rank bank : Nat) : Bool :=
  (bankAt s (bankKey (ch ^^^ 8) rank bank)).busyTo.isSome

/-- The refresh of a marked bank starts once every read that passed its tag check has completed, and its partner does not
refresh (R303, R304). -/
def execBankRefreshStart (ch rank bank : Nat) (s : State) : Host.Outcome State Fault Refusal :=
  .next (
    let k := bankKey ch rank bank
    let b := bankAt s k
    if !b.marked || b.busyTo.isSome || bankReads s k || partnerBusy s ch rank bank then s
    else putBank k { b with busyTo := some (s.now + refreshCycles), postponed := b.postponed - 1 } s)

/-- Refreshes whose time has passed end, and their banks are no longer marked (R302, R304). -/
def endRefreshes (s : State) : State :=
  if s.dram.banks.all (fun x => x.2.busyTo.all (fun t => decide (s.now < t))) then s
  else
    s.dram.banks.foldl (fun s x =>
      if x.2.busyTo.any (fun t => decide (t ≤ s.now)) then putBank x.1 { x.2 with busyTo := none, marked := false } s
      else s) s

/-- The temperature of a channel's device node (Table 17-1). -/
def chanTemp (s : State) (c : Nat) : Int := nthD s.thm.temps (64 + c / 4) 0

/-- A retraining of a channel is called for (R306): its node has moved by 10 °C, 24 hours have passed, or 8 lines were
corrected within 1 s. -/
def retrainCalled (s : State) (c : Nat) : Bool :=
  let x := chanAt s c
  x.retrain || decide (2560 ≤ (chanTemp s c - x.trainT).natAbs) || decide (x.trainAt + 86400 * second ≤ s.now)

/-- Any channel of the device is being retrained (R303). -/
def anyTraining (s : State) : Bool := s.dram.chans.any (fun x => x.2.training)

/-- Every 50 ms a channel's DQS drift is tracked (R306): where a retraining is called for, it starts, with every bank of
the channel marked, unless another channel is being retrained (R303). -/
def execDqsTrack (ch : Nat) (s : State) : Host.Outcome State Fault Refusal :=
  .next (
    if s.dram.selfRef || 16 ≤ ch || !retrainCalled s ch then s
    else
      let x := { chanAt s ch with retrain := true }
      putChan ch { x with training := !anyTraining s || x.training } s)

/-- A retraining of a channel (R306): it begins, if it has not, with its banks marked, and ends within 2 µs; the temperature
and the time of the training are kept. -/
def execChannelRetrain (ch : Nat) (s : State) : Host.Outcome State Fault Refusal :=
  .next (
    let x := chanAt s ch
    if 16 ≤ ch || !x.retrain || (anyTraining s && !x.training) then s
    else putChan ch { x with training := false, retrain := false, corr := [], trainT := chanTemp s ch, trainAt := s.now } s)

/-- A rank without a queued request enters power-down after PD_TIMER; 0 disables it (R308). -/
def execRankPowerDown (ch rank : Nat) (s : State) : Host.Outcome State Fault Refusal :=
  .next (
    if s.dram.pdTimer = 0 || 16 ≤ ch || 2 ≤ rank || s.dram.selfRef
        || !rankIdle s ch rank then s
    else
      let x := chanAt s ch
      putChan ch { x with down := if x.down.contains rank then x.down else rank :: x.down } s)

end Sys2Proof.Machine
end

