-- ==== Sys2Proof/Machine/Clock.lean ====
section
/-! DEFINITION. What one core cycle does while no command waits: what happens at a tick whatever is commanded (log 1). -/

namespace Sys2Proof.Machine

/-- The core clock reaches the counters: from Boot to Flush, but not in Deep Idle (R518, R577). -/
def cclkRuns (s : State) : Bool :=
  match s.pw.phase with
  | .off => false
  | .standby => false
  | .powerDown => false
  | .boot => true
  | .replay => true
  | .flush => true
  | .service => s.pw.pstate != .deepIdle

/-- Request credits are withheld or paced (Table 13-3, Table 19-5). -/
def reqWithheld (s : State) : Bool := reqHold s || s.thm.enforced

/-- The events counted each cycle (Table 19-5): MSHRs occupied, cycles with request credits withheld, program slots
claimed. -/
def countCycle (s : State) : State :=
  let s := (List.range 16).foldl (fun s i => count i 0x00E 0 (mshrCount s i) s) s
  let s := if reqWithheld s then count 16 0x100 0 1 s else s
  count 16 0x101 0 (claimedCount s) s

/-- A proxy's copy is to leave, or is gone from both places that held it (R316). -/
def leaving (s : State) (k : Nat) (x : PxLine) : Bool :=
  (x.st == some .ps || x.st == some .pe || x.st == some .pm)
    && (x.leave || (copyOf s (k / 2 ^ 36) (k % 2 ^ 36)).isNone)

/-- Proxy copies that are to leave go on (R316). -/
def sweepProxy (s : State) : State :=
  ((s.coh.px.filter (fun x => leaving s x.1 x.2)).map (·.1)).foldl (fun s k => pxGo 40 (k / 2 ^ 36) (k % 2 ^ 36) s) s

/-- One write credit owed to a node returns, as a Cmp with TXID 0xFFF, when space and counters allow (R324, R445). -/
def returnCredit (s : State) (node n : Nat) : State :=
  if n = 0 || creditHold s || waitSeg s then s
  else
    sendMsg { cohMsg s .cmp node 0xFFF 0 with crd := true }
      { s with coh := { s.coh with owed := Table.putD s.coh.owed node (n - 1) 0 } }

/-- Owed write credits return in service. -/
def returnCredits (s : State) : State :=
  if s.pw.phase == .service then s.coh.owed.foldl (fun s x => returnCredit s x.1 x.2) s else s

/-- Credits of requests that the SGL block has withheld return (R43, R100). -/
def returnSgl (s : State) : State :=
  if s.pw.phase != .service || slotHold s || s.sgl.ports.all (fun x => x.kept.all (· == 0)) then s
  else
    { s with sgl := { s.sgl with ports := s.sgl.ports.map (fun x =>
      { x with mine := x.mine.zipIdx.map (fun y => (y.1 + nthD x.kept y.2 0) % 65536), kept := List.replicate 15 0 }) } }

/-- The cycle counter and the events of a cycle, while the counters run (R577, R580). -/
def clockCounters (s : State) : State :=
  if s.pmc.freeze || !cclkRuns s then s
  else countCycle { s with pmc := { s.pmc with cyc := (s.pmc.cyc + 1) % 2 ^ 64 } }

/-- One core cycle passes: the model's time advances, transfer slots pass (R81), refreshes whose time has passed end, copies that are to leave go on,
owed credits and those withheld at the ports return, and the counters count. -/
def tick (s : State) : State :=
  clockCounters (returnSgl (returnM2s .b (returnM2s .a (returnCredits (sweepProxy (passSlots (drainWrites (endRefreshes { s with now := s.now + 1 }))))))))

end Sys2Proof.Machine
end

