-- ==== Sys2Proof/Machine/Registers.lean ====
section
/-! DEFINITION. Register accesses: rights, halves, reads, and writes by the access code of each field (00, Register
conventions). -/

namespace Sys2Proof.Machine

/-! ### Accesses -/

/-- The state a command left. -/
def after (o : Host.Outcome State Fault Refusal) (s : State) : State :=
  match o with
  | .next t => t
  | .fault _ => s
  | .refused _ => s

/-- An access without right by its size or alignment (R4). -/
def badShape (off width : Nat) : Bool :=
  !((width == 32 && off % 4 == 0) || (width == 64 && off % 8 == 0))

/-- The bits of its register an access reaches: all, or an aligned half (R3). -/
def reach (off width : Nat) : Word :=
  if width = 64 then 0xFFFFFFFFFFFFFFFF#64 else if off % 8 = 4 then 0xFFFFFFFF00000000#64 else 0x00000000FFFFFFFF#64

/-- A written value at the place of its half; a 32-bit value has its low 32 bits. -/
def placed (off width : Nat) (v : Word) : Word :=
  if width = 64 then v else if off % 8 = 4 then v <<< 32 else v &&& 0x00000000FFFFFFFF#64

/-- What a read of a register, or of an aligned half, delivers. -/
def shown (off width : Nat) (w : Word) : Word :=
  if width = 64 then w else if off % 8 = 4 then w >>> 32 else w &&& 0x00000000FFFFFFFF#64

/-- A register's word with the written bits of it replaced: each half takes effect at its own write (R5). -/
def merged (m v old : Word) : Word := (old &&& ~~~m) ||| v

/-- A sender reaches the register space at all: any in the modes from Boot to Flush; only the sideband in Standby and, as
there, during the power-down sequence (R522, R611; DEDUCED, log 44). -/
def senderReaches (snd : Sender) (s : State) : Bool :=
  match s.pw.phase with
  | .off => false
  | .standby => snd == .sideband
  | .powerDown => snd == .sideband
  | .boot => true
  | .replay => true
  | .service => true
  | .flush => true

/-- A block answers: in Standby only DEV, MBX, CLP, PSV and PST (R522). -/
def blockAnswers (base : Nat) (s : State) : Bool :=
  (s.pw.phase != .standby && s.pw.phase != .powerDown)
    || [0x0, 0x1, 0x2, 0x8, 0xD].contains (base / 0x1000)

/-! ### Reads -/

/-- A read of CLP_n acquires a free clamp (R422); of its upper half, nothing. -/
def clpRead (snd : Sender) (base : Nat) (upper : Bool) (s : State) : Word × State :=
  let n := (base - 0x2000) / 8
  if n < 16 then
    let t := if upper then s else acquire n [snd] s
    (clampView snd n t, t)
  else if base = 0x2080 then (clpStatus s, s)
  else (0, s)

/-- Reads of the recorder (R574): EVR_DATA_0 takes the snapshot, EVR_DATA_3 advances the cursor. -/
def evrRead (snd : Sender) (base : Nat) (s : State) : Word × State :=
  if base = 0x9018 then
    let c := snapshotOf s (nthD s.evr.cursors snd.ix {})
    (nthD c.data 0 0, setCursor snd c s)
  else if base = 0x9030 then
    let c := nthD s.evr.cursors snd.ix {}
    (nthD c.data 3 0, setCursor snd { c with pos := (c.pos + 1) % 2 ^ 32 } s)
  else (evrReg snd base s, s)

/-- Reads of the trace buffer (R584). -/
def trbRead (snd : Sender) (base : Nat) (s : State) : Word × State :=
  if base = 0xB010 then
    let c := trbSnapshotOf s snd (nthD s.trb.cursors snd.ix {})
    (nthD c.data 0 0, setTrbCursor snd c s)
  else if base = 0xB028 then
    let c := nthD s.trb.cursors snd.ix {}
    (nthD c.data 3 0, setTrbCursor snd { c with pos := (c.pos + 1) % 2 ^ 32 } s)
  else (trbReg snd base s, s)

/-- Reads of the parameter store (R562, R568): whether the array corrected the word is the cells' and free here (log 6);
PST_READ has it as an operand. -/
def pstReadReg (snd : Sender) (base : Nat) (s : State) : Word × State :=
  if base = 0xD010 then
    let p := pstPort snd s
    if userPage p.page then
      let d := draw s
      (BitVec.ofNat 64 (pstRdata s p.page p.word (Config.freeNat d.1 % 2 == 1)),
        setPstPort snd { p with word := (p.word + 1) % 64 } d.2)
    else (0, noRight snd false base s)
  else (pstReg snd base s, s)

/-- The MBX block of a sender; the MP does not use it (R608). -/
def mbxRead (snd : Sender) (base : Nat) (s : State) : Word :=
  match snd.box? with
  | some b => mbxReg b base s
  | none => 0

/-- The register at an aligned offset as a sender reads it, with the state after the read (R6, R8). -/
def regRead (snd : Sender) (base : Nat) (upper : Bool) (s : State) : Word × State :=
  match base / 0x1000 with
  | 0x0 => (devReg base s, s)
  | 0x1 => (mbxRead snd base s, s)
  | 0x2 => clpRead snd base upper s
  | 0x3 => (winReg snd base s, s)
  | 0x4 => (epcReg snd base s, s)
  | 0x5 => (sccReg snd base s, s)
  | 0x6 => secReg base s
  | 0x7 => (thmReg base s, s)
  | 0x8 => (psvReg base s, s)
  | 0x9 => evrRead snd base s
  | 0xA => pmcReg snd base s
  | 0xB => trbRead snd base s
  | 0xC => (nthD (meterRegs s) ((base - 0xC000) / 8) 0, s)
  | 0xD => pstReadReg snd base s
  | 0xE => (sglReg base s, s)
  | 0xF => (medReg base s, s)
  | _ => (0, s)

/-! ### Writes -/

/-- The WO and RW1C bits a write sets, one by one. -/
def andThen (b : Bool) (f : State → State) (s : State) : State := if b then f s else s

/-- Writes of the MBX block (R481): of MBX_DRW_CTL, OPEN is applied before CLOSE. -/
def mbxWrite (b : BoxId) (snd : Sender) (base : Nat) (m v : Word) (s : State) : State :=
  match base with
  | 0x1000 => after (execMbxPost snd (merged m v (boxOf s b).inWord) s) s
  | 0x1008 => modBox b (fun x => { x with
      outFull := x.outFull && !bitOf v 1, overrun := x.overrun && !bitOf v 2, drwOverrun := x.drwOverrun && !bitOf v 3 }) s
  | 0x1010 => modBox b (fun x => { x with ack := x.ack && !bitOf v 0 }) s
  | 0x1020 => modBox b (fun x => { x with inDrw := drwWord v x.inDrw }) s
  | 0x1028 => andThen (bitOf v 2) (popOut b) (andThen (bitOf v 1) (closeIn b) (andThen (bitOf v 0) (openIn b) s))
  | _ => s

/-- Writes of CLP_n: REL, then FORCE (R423). -/
def clpWrite (snd : Sender) (base : Nat) (v : Word) (s : State) : State :=
  let n := (base - 0x2000) / 8
  if n < 16 then
    let s := if bitOf v 8 then after (execClampRelease snd n s) s else s
    if bitOf v 9 then after (execClampForce snd n s) s else s
  else s

/-- Writes of the WIN block (R432). -/
def winWrite (snd : Sender) (base : Nat) (m v : Word) (s : State) : State :=
  let p := winPort snd s
  let h := s.port p
  match base with
  | 0x3000 => s.setPort p { h with retrains := bitsOf (merged m v (winReg snd base s)) 40 8 }
  | 0x3008 => s.setPort p { h with viol := bitsOf (merged m v (winReg snd base s)) 0 32 }
  | 0x3028 =>
    match snd.port? with
    | some _ => s
    | none =>
      let x := bitsOf (merged m v (winReg snd base s)) 0 1
      { s with mb := { s.mb with winSel := setNth s.mb.winSel (snd.ix - 2) x } }
  | _ => s

/-- Writes of the EPC block (R267). -/
def epcWrite (snd : Sender) (base : Nat) (m v : Word) (s : State) : State :=
  match base with
  | 0x4010 =>
    let irq := bitOf (merged m v (epcReg snd base s)) 1
    andThen (bitOf v 0) (closeRequest snd) { s with per := { s.per with commitIrq := irq } }
  | 0x4040 => { s with ck := { s.ck with lossValid := s.ck.lossValid && !bitOf v 3 } }
  | _ => s

/-- A staged SCC commit group from its register words (R287). -/
def sccStage (base : Nat) (w : Word) (c : SccCfg) : SccCfg :=
  match base with
  | 0x5000 => { c with enable := bitOf w 0, pfEn := bitOf w 1, depth := bitsOf w 4 4 }
  | 0x5010 => { c with masks := [bitsOf w 0 16, bitsOf w 16 16, bitsOf w 32 16, bitsOf w 48 16, nthD c.masks 4 0] }
  | 0x5018 => { c with masks := c.masks.take 4 ++ [bitsOf w 0 16] }
  | 0x5020 => { c with wayOff := bitsOf w 0 16 }
  | _ => c

/-- A register of the SCC commit group (R286). -/
def sccGroup (base : Nat) : Bool := base == 0x5000 || base == 0x5010 || base == 0x5018 || base == 0x5020

/-- Writes of the SCC block (R286, R287): the group and SCC_COMMIT need the clamp. -/
def sccWrite (snd : Sender) (base : Nat) (m v : Word) (s : State) : State :=
  if sccGroup base then
    if holds snd 1 s then
      { s with cache := { s.cache with staged := sccStage base (merged m v (sccReg snd base s)) s.cache.staged } }
    else noRight snd true base s
  else
    match base with
    | 0x5028 => if !holds snd 1 s then noRight snd true base s else if bitOf v 0 then after (execSccCommit snd s) s else s
    | 0x5008 => { s with cache := { s.cache with peak := bitsOf (merged m v (sccReg snd base s)) 32 10 } }
    | 0x5030 => setMaint snd { maintOf s snd with addr := bitsOf (merged m v (sccReg snd base s)) 6 58 } s
    | 0x5038 =>
      match bitsOf v 0 2 with
      | 1 => after (execMaintClean snd (bitsOf v 2 20) s) s
      | 2 => after (execMaintInval snd (bitsOf v 2 20) s) s
      | 3 => after (execMaintFlush snd (bitsOf v 2 20) s) s
      | _ => s
    | 0x5040 =>
      let x := maintOf s snd
      setMaint snd { x with done := x.done && !bitOf v 1, skipped := x.skipped && !bitOf v 2 } s
    | _ => s

/-- Writes of SEC_ALARM (R466): the alarm bits clear by 1; COUNT is set. -/
def secWrite (base : Nat) (m v : Word) (s : State) : State :=
  if base = 0x6008 then
    let n := bitsOf (merged m v (secReg base s).1) 32 32
    { s with sec := { s.sec with alarm := s.sec.alarm &&& (15 - bitsOf v 0 4), alarmCnt := n } }
  else s

/-- Writes of the EVR block (R576). -/
def evrWrite (snd : Sender) (base : Nat) (m v : Word) (s : State) : State :=
  match base with
  | 0x9008 =>
    let n := bitsOf (merged m v (evrReg snd base s)) 32 32
    { s with evr := { s.evr with dropped := n } }
  | 0x9010 => setCursor snd { nthD s.evr.cursors snd.ix {} with pos := bitsOf (merged m v (evrReg snd base s)) 0 32 } s
  | _ => s

/-- Clears the sticky bits of the selected set that a write of PMC_OVF names (R581). -/
def clearOvf (snd : Sender) (v : Word) (s : State) : State :=
  let i := nthD s.pmc.sel snd.ix 0
  if 16 < i then s
  else
    let p := Table.getD s.pmc.sets i {}
    let cs := p.counters.zipIdx.map (fun (c : PmcCounter × Nat) => { c.1 with ovf := c.1.ovf && !bitOf v c.2 })
    { s with pmc := { s.pmc with sets := Table.put s.pmc.sets i { p with counters := cs } } }

/-- Writes of the PMC block (R580, R581): those to PMC_CTRL need the clamp. -/
def pmcWrite (snd : Sender) (base : Nat) (m v : Word) (s : State) : State :=
  match base with
  | 0xA000 =>
    let n := bitsOf (merged m v (pmcReg snd base s).1) 0 5
    { s with pmc := { s.pmc with sel := setNth s.pmc.sel snd.ix n } }
  | 0xA008 => after (execPmcFreeze snd (bitOf (merged m v (pmcReg snd base s).1) 0) s) s
  | 0xA010 => clearOvf snd (v &&& 0xFF#64) s
  | _ => s

/-- Writes of the PST block (R568). -/
def pstWrite (snd : Sender) (base : Nat) (m v : Word) (s : State) : State :=
  let p := pstPort snd s
  match base with
  | 0xD000 => setPstPort snd { p with overrun := p.overrun && !bitOf v 5 } s
  | 0xD008 =>
    let w := merged m v (pstReg snd base s)
    setPstPort snd { p with word := bitsOf w 0 6, page := bitsOf w 6 12, buf := bitsOf w 18 6 } s
  | 0xD018 => if bitOf m 0 then after (execPstWdataWrite snd (BitVec.ofNat 32 (bitsOf v 0 32)) s) s else s
  | 0xD020 => if bitOf v 0 then after (execPstProgram snd (bitsOf v 1 6) s) s else s
  | _ => s

/-- Writes of the SGL block (R400): its counters are set. -/
def sglWrite (base : Nat) (m v : Word) (s : State) : State :=
  let w := merged m v (sglReg base s)
  if base = 0xE0D0 then { s with fab := { s.fab with rdPoison := bitsOf w 0 32, wrDisc := bitsOf w 32 32 } }
  else if 0xE010 ≤ base && base < 0xE050 then
    let i := (base - 0xE010) / 8
    let x := { sglAt s i with replays := bitsOf w 32 16, tagFail := bitsOf w 48 8, fecUe := bitsOf w 56 8 }
    { s with sgl := { s.sgl with ports := setNth s.sgl.ports i x } }
  else s

/-- Writes of the MED block (R228): its counters are set. -/
def medWrite (base : Nat) (m v : Word) (s : State) : State :=
  let w := merged m v (medReg base s)
  match base with
  | 0xF020 => { s with prot := { s.prot with innerCorr := bitsOf w 0 32, relocDrop := bitsOf w 32 16 } }
  | 0xF028 => { s with prot := { s.prot with ueCount := bitsOf w 48 16 } }
  | 0xF048 => { s with prot := { s.prot with dramCorr := bitsOf w 0 16, dramUe := bitsOf w 16 16, sramCorr := bitsOf w 32 16 } }
  | _ => s

/-- A write of the bits `m` of the register at an aligned offset, `v` their values (R5, R6): an RW field takes its value, a
1 clears an RW1C bit, a WO field performs its function, everything else ignores it (R8). -/
def regWrite (snd : Sender) (base : Nat) (m v : Word) (s : State) : State :=
  match base / 0x1000 with
  | 0x1 => withBox snd (fun b s => mbxWrite b snd base m v s) s
  | 0x2 => clpWrite snd base v s
  | 0x3 => winWrite snd base m v s
  | 0x4 => epcWrite snd base m v s
  | 0x5 => sccWrite snd base m v s
  | 0x6 => secWrite base m v s
  | 0x8 => if base = 0x8010 && (bitOf v 0 || snd.port?.isSome) then after (execPsvStart snd s) s else s
  | 0x9 => evrWrite snd base m v s
  | 0xA => pmcWrite snd base m v s
  | 0xB =>
    if base = 0xB008 then
      setTrbCursor snd { nthD s.trb.cursors snd.ix {} with pos := bitsOf (merged m v (trbReg snd base s)) 0 32 } s
    else s
  | 0xD => pstWrite snd base m v s
  | 0xE => sglWrite base m v s
  | 0xF => medWrite base m v s
  | _ => s

/-- The RW1C bits of the register at an aligned offset (R7, the register tables). -/
def clearBits (base : Nat) : Word :=
  match base with
  | 0x1008 => 0xE
  | 0x1010 => 0x1
  | 0x4040 => 0x8
  | 0x5040 => 0x6
  | 0x6008 => 0xF
  | 0xA010 => 0xFF
  | 0xD000 => 0x20
  | _ => 0

/-- What a write clears of the RW1C bits that hardware sets in the same cycle: nothing, the set wins (R7). The set itself is
the command of its event, which stands before the write (log 49). -/
def setWins (base : Nat) (sets v : Word) : Word := v &&& ~~~(sets &&& clearBits base)

/-- A write of 0 to WIN_VIOL in the cycle of an increment leaves 1 (R420): `sets` bit 0 tells the increment, whose command
stands before the write (log 49). -/
def sameCycle (snd : Sender) (base : Nat) (sets : Word) (s : State) : State :=
  let p := winPort snd s
  if base = 0x3008 && bitOf sets 0 && (s.port p).viol == 0 then s.setPort p { s.port p with viol := 1 } else s

/-- A register access (R3 to R8): one without right by its shape reads 0 or is ignored and is counted; a read answers the
register; a write takes effect by the access codes of the fields. -/
def execRegisterWrite (snd : Sender) (off width : Nat) (op : RegOp) (s : State) : Host.Outcome State Fault Refusal :=
  .next (
    if !senderReaches snd s then s
    else
      let base := off / 8 * 8
      match op with
      | .read =>
        if badShape off width then emit (.regData snd 0) (noRight snd false off s)
        else if !blockAnswers base s then emit (.regData snd 0) s
        else
          let r := regRead snd base (width == 32 && off % 8 == 4) s
          emit (.regData snd (shown off width r.1)) r.2
      | .write v sets =>
        if badShape off width then noRight snd true off s
        else if !blockAnswers base s then s
        else sameCycle snd base sets (regWrite snd base (reach off width) (setWins base sets (placed off width v)) s))

end Sys2Proof.Machine
end

