-- ==== Sys2Proof/Machine/Tap.lean ====
section
/-! DEFINITION. The TAP: boundary scan and the private instructions (19, R586 to R588). -/

namespace Sys2Proof.Machine

/-- The TAP is powered from VAUX (R586). -/
def tapRuns (s : State) : Bool := s.pw.phase != .off

/-- Scan power may be in force (R586): VIN qualified, the supervisor in Standby. -/
def scanMay (s : State) : Bool := s.pw.phase == .standby && s.pw.vinQualified

/-- The rails of scan power: VIO, VPHY and VPHYH (R586). -/
def scanRail (code : Nat) : Bool := code == 2 || code == 9 || code == 10

/-- Scan power ends through the power-down sequence (R586), from VPHYH, the last rail enabled. -/
def endScan (s : State) : State := if s.pw.scan then startPowerDown 10 s else s

/-- The instruction register is updated, and the register of an instruction lies between TDI and TDO (R586). -/
def select (t : TapInstr) (reg value : Nat) (s : State) : State :=
  emit (.tap reg value) { s with pw := { s.pw with tap := t } }

/-- The boundary register captures the lands: their levels are the board's, and free here (R587; log 6). -/
def captureBoundary (t : TapInstr) (s : State) : State :=
  let d := draw s
  let v := Config.freeNat d.1
  select t 2 v { d.2 with pw := { d.2.pw with boundary := v } }

/-- Acts as BYPASS (R586): loading BYPASS ends scan power. -/
def bypassNow (s : State) : State := select .bypass 0 0 (endScan s)

/-- Enters scan power, with SCAN_ENTRIES counted at the entry (R586, Table 19-2). -/
def enterScan (s : State) : State :=
  if s.pw.scan then s
  else incCounter 7 (setRails scanRail { s with pw := { s.pw with scan := true } })

/-- An instruction that drives lands (R586): in force in scan power, and in any other state as BYPASS. -/
def driveNow (act : State → State) (s : State) : State :=
  if !tapRuns s then s
  else if scanMay s then act (enterScan s)
  else bypassNow s

/-- EXTEST: the boundary register drives the lands. -/
def execExtest (s : State) : Host.Outcome State Fault Refusal := .next (driveNow (captureBoundary .extest) s)

/-- EXTEST_PULSE (IEEE 1149.6). -/
def execExtestPulse (s : State) : Host.Outcome State Fault Refusal := .next (driveNow (captureBoundary .extestPulse) s)

/-- EXTEST_TRAIN (IEEE 1149.6). -/
def execExtestTrain (s : State) : Host.Outcome State Fault Refusal := .next (driveNow (captureBoundary .extestTrain) s)

/-- CLAMP: the lands are held from the boundary register, bypass selected. -/
def execTapClamp (s : State) : Host.Outcome State Fault Refusal := .next (driveNow (select .clamp 0 0) s)

/-- HIGHZ: the outputs are in high impedance, bypass selected. -/
def execHighz (s : State) : Host.Outcome State Fault Refusal := .next (driveNow (select .highz 0 0) s)

/-- SAMPLE/PRELOAD in any state; it ends scan power. -/
def execSamplePreload (s : State) : Host.Outcome State Fault Refusal :=
  .next (if tapRuns s then captureBoundary .samplePreload (endScan s) else s)

/-- IDCODE in any state: the device ID register; it ends scan power. -/
def execIdcode (s : State) : Host.Outcome State Fault Refusal :=
  .next (if tapRuns s then select .idcode 1 0x27404A3D (endScan s) else s)

/-- BYPASS, and every code not listed. -/
def execBypass (s : State) : Host.Outcome State Fault Refusal := .next (if tapRuns s then bypassNow s else s)

/-- A private instruction (R588): BYPASS unless opened; a code that Table 19-7 does not list as private is BYPASS too. What
an open one does beyond its selection the manual does not say, nor what its register reads, which is free (log 6). -/
def execPrivateInstruction (code : Nat) (s : State) : Host.Outcome State Fault Refusal :=
  .next (
    if !tapRuns s then s
    else if s.pw.unlocked && decide (0x80 ≤ code) && decide (code ≤ 0xFE) then
      let d := draw s
      select (.privateCode code) 3 (Config.freeNat d.1) d.2
    else bypassNow s)

/-- TRST_N resets the TAP, which selects IDCODE, and ends scan power (R586, Table 19-7). -/
def execTrstAssert (s : State) : Host.Outcome State Fault Refusal :=
  .next (if tapRuns s then select .idcode 1 0x27404A3D (endScan s) else s)

/-- An unlock loaded through the TAP (R588): it opens the private instructions when it is authentic and PREPARE_RETURN has
completed since the last Boot. -/
def execReturnUnlock (authentic : Bool) (s : State) : Host.Outcome State Fault Refusal :=
  .next (if tapRuns s && authentic && s.pw.returnDone then { s with pw := { s.pw with unlocked := true } } else s)

end Sys2Proof.Machine
end

