-- ==== Sys2Proof/Machine/Dispatch.lean ====
section
/-! DEFINITION. One arm per command: the meaning it has. -/

namespace Sys2Proof.Machine

/-- The effect of a command on everything but the queue of commands. -/
def exec (i : Instr) (s : State) : Host.Outcome State Fault Refusal :=
  match i with
  | .registerWrite snd off width op => Sys2Proof.Machine.execRegisterWrite snd off width op s
  | .hostMemRd port mv hpa tag => Sys2Proof.Machine.execHostMemRd port mv hpa tag s
  | .runAheadHint lpn => Sys2Proof.Machine.execRunAheadHint lpn s
  | .hostMemWr port mv hpa data mask poison tag => Sys2Proof.Machine.execHostMemWr port mv hpa data mask poison tag s
  | .leaseProgrammed seg => Sys2Proof.Machine.execLeaseProgrammed seg s
  | .dovetailTimeout dla => Sys2Proof.Machine.execDovetailTimeout dla s
  | .dovetailMerge dla => Sys2Proof.Machine.execDovetailMerge dla s
  | .lookasideResult dla fetch => Sys2Proof.Machine.execLookasideResult dla fetch s
  | .dramCacheTagResult node dla => Sys2Proof.Machine.execDramCacheTagResult node dla s
  | .lpddr6ReadDone node dla res => Sys2Proof.Machine.execLpddr6ReadDone node dla res s
  | .dramWriteback line => Sys2Proof.Machine.execDramWriteback line s
  | .mediumReadStart rid => Sys2Proof.Machine.execMediumReadStart rid s
  | .mediumReadDone rid res => Sys2Proof.Machine.execMediumReadDone rid res s
  | .dmaResume chan => Sys2Proof.Machine.execDmaResume chan s
  | .readTransferred group part stack => Sys2Proof.Machine.execReadTransferred group part stack s
  | .slotGrant => Sys2Proof.Machine.execSlotGrant s
  | .roundStart group stream => Sys2Proof.Machine.execRoundStart group stream s
  | .rowProgramDone group part pass => Sys2Proof.Machine.execRowProgramDone group part pass s
  | .resetDone group part pass => Sys2Proof.Machine.execResetDone group part pass s
  | .roundDeadline group stream => Sys2Proof.Machine.execRoundDeadline group stream s
  | .drainRowReadback stripe stack row worst => Sys2Proof.Machine.execDrainRowReadback stripe stack row worst s
  | .verifyReadDue stripe stack row worst => Sys2Proof.Machine.execVerifyReadDue stripe stack row worst s
  | .foldStep quadrant => Sys2Proof.Machine.execFoldStep quadrant s
  | .relocationSwitch lpn => Sys2Proof.Machine.execRelocationSwitch lpn s
  | .gcStep group => Sys2Proof.Machine.execGcStep group s
  | .levelCheck => Sys2Proof.Machine.execLevelCheck s
  | .rgenAdvance => Sys2Proof.Machine.execRgenAdvance s
  | .reclaimGrant stripe => Sys2Proof.Machine.execReclaimGrant stripe s
  | .thermalUpdate inp => Sys2Proof.Machine.execThermalUpdate inp s
  | .levelFall => Sys2Proof.Machine.execLevelFall s
  | .warnClear => Sys2Proof.Machine.execWarnClear s
  | .graceExpire => Sys2Proof.Machine.execGraceExpire s
  | .standbyModelTick diodes => Sys2Proof.Machine.execStandbyModelTick diodes s
  | .edSave => Sys2Proof.Machine.execEdSave s
  | .stripeAgePad stripe => Sys2Proof.Machine.execStripeAgePad stripe s
  | .driftSweep course => Sys2Proof.Machine.execDriftSweep course s
  | .ageSurvey course first last firstCells lastCells => Sys2Proof.Machine.execAgeSurvey course first last firstCells lastCells s
  | .refreshLevelTimer stripe => Sys2Proof.Machine.execRefreshLevelTimer stripe s
  | .refreshStep => Sys2Proof.Machine.execRefreshStep s
  | .patrolScrub course sector res => Sys2Proof.Machine.execPatrolScrub course sector res s
  | .dramPatrol line res => Sys2Proof.Machine.execDramPatrol line res s
  | .sramPatrol slice finding => Sys2Proof.Machine.execSramPatrol slice finding s
  | .mpTrap => Sys2Proof.Machine.execMpTrap s
  | .responseDeadlineMiss unit => Sys2Proof.Machine.execResponseDeadlineMiss unit s
  | .faultRelease fault => Sys2Proof.Machine.execFaultRelease fault s
  | .rebuildStep => Sys2Proof.Machine.execRebuildStep s
  | .remirrorStep => Sys2Proof.Machine.execRemirrorStep s
  | .holdupMeasure => Sys2Proof.Machine.execHoldupMeasure s
  | .holdupResult va vb vc => Sys2Proof.Machine.execHoldupResult va vb vc s
  | .chargerTimeout => Sys2Proof.Machine.execChargerTimeout s
  | .budgetUpdate vhold => Sys2Proof.Machine.execBudgetUpdate vhold s
  | .epochTimer => Sys2Proof.Machine.execEpochTimer s
  | .epochStage => Sys2Proof.Machine.execEpochStage s
  | .epochCommit => Sys2Proof.Machine.execEpochCommit s
  | .epcClose snd => Sys2Proof.Machine.execEpcClose snd s
  | .checkpointSegmentWrite => Sys2Proof.Machine.execCheckpointSegmentWrite s
  | .checkpointRootWrite => Sys2Proof.Machine.execCheckpointRootWrite s
  | .flushEntry cause => Sys2Proof.Machine.execFlushEntry cause s
  | .flushDone => Sys2Proof.Machine.execFlushDone s
  | .replayStart inp => Sys2Proof.Machine.execReplayStart inp s
  | .replayDone inp => Sys2Proof.Machine.execReplayDone inp s
  | .evictionDone slice set way => Sys2Proof.Machine.execEvictionDone slice set way s
  | .mshrFill node dla => Sys2Proof.Machine.execMshrFill node dla s
  | .maintClean snd count => Sys2Proof.Machine.execMaintClean snd count s
  | .maintInval snd count => Sys2Proof.Machine.execMaintInval snd count s
  | .maintFlush snd count => Sys2Proof.Machine.execMaintFlush snd count s
  | .maintDone snd => Sys2Proof.Machine.execMaintDone snd s
  | .sccCommit snd => Sys2Proof.Machine.execSccCommit snd s
  | .wayPowerOffDone way => Sys2Proof.Machine.execWayPowerOffDone way s
  | .cacheOffDone => Sys2Proof.Machine.execCacheOffDone s
  | .bankRefreshDue ch rank bank => Sys2Proof.Machine.execBankRefreshDue ch rank bank s
  | .bankRefreshStart ch rank bank => Sys2Proof.Machine.execBankRefreshStart ch rank bank s
  | .dqsTrack ch => Sys2Proof.Machine.execDqsTrack ch s
  | .channelRetrain ch => Sys2Proof.Machine.execChannelRetrain ch s
  | .rankPowerDown ch rank => Sys2Proof.Machine.execRankPowerDown ch rank s
  | .rdS src txid dla kid port input => Sys2Proof.Machine.execRdS src txid dla kid port input s
  | .rdX src txid dla kid port input => Sys2Proof.Machine.execRdX src txid dla kid port input s
  | .rdC src txid dla kid port input => Sys2Proof.Machine.execRdC src txid dla kid port input s
  | .upg src txid dla kid port input => Sys2Proof.Machine.execUpg src txid dla kid port input s
  | .evc src txid dla => Sys2Proof.Machine.execEvc src txid dla s
  | .wrT src txid dla kid data mask poison wseq => Sys2Proof.Machine.execWrT src txid dla kid data mask poison wseq s
  | .evX src txid dla wseq => Sys2Proof.Machine.execEvX src txid dla wseq s
  | .snpS home txid dla own reqn rqtx => Sys2Proof.Machine.execSnpS home txid dla own reqn rqtx s
  | .snpX home txid dla own reqn rqtx => Sys2Proof.Machine.execSnpX home txid dla own reqn rqtx s
  | .snpC home txid dla own reqn rqtx => Sys2Proof.Machine.execSnpC home txid dla own reqn rqtx s
  | .snpI home txid dla own reqn rqtx => Sys2Proof.Machine.execSnpI home txid dla own reqn rqtx s
  | .holdWindowExpire home dla => Sys2Proof.Machine.execHoldWindowExpire home dla s
  | .hostRecallDone home dla data => Sys2Proof.Machine.execHostRecallDone home dla data s
  | .rspI src txid dla => Sys2Proof.Machine.execRspI src txid dla s
  | .rspS src txid dla => Sys2Proof.Machine.execRspS src txid dla s
  | .rspFwd src txid dla => Sys2Proof.Machine.execRspFwd src txid dla s
  | .rspWb src txid dla fwd => Sys2Proof.Machine.execRspWb src txid dla fwd s
  | .rtyH home txid dla rsn => Sys2Proof.Machine.execRtyH home txid dla rsn s
  | .retryBackoffExpire home dla => Sys2Proof.Machine.execRetryBackoffExpire home dla s
  | .wayHoldExpire slice set => Sys2Proof.Machine.execWayHoldExpire slice set s
  | .cmp src txid dla ver crd => Sys2Proof.Machine.execCmp src txid dla ver crd s
  | .cmpX src txid dla => Sys2Proof.Machine.execCmpX src txid dla s
  | .datS src txid dla kid data ver poison => Sys2Proof.Machine.execDatS src txid dla kid data ver poison s
  | .datX src txid dla kid data ver poison => Sys2Proof.Machine.execDatX src txid dla kid data ver poison s
  | .datC src txid dla kid data ver poison => Sys2Proof.Machine.execDatC src txid dla kid data ver poison s
  | .snoopTimeout node dla => Sys2Proof.Machine.execSnoopTimeout node dla s
  | .fencedAnswer node dla => Sys2Proof.Machine.execFencedAnswer node dla s
  | .suspectExpire node => Sys2Proof.Machine.execSuspectExpire node s
  | .proxyTimeout home dla => Sys2Proof.Machine.execProxyTimeout home dla s
  | .biRsp port node dla keepS => Sys2Proof.Machine.execBiRsp port node dla keepS s
  | .biTimeout port node dla => Sys2Proof.Machine.execBiTimeout port node dla s
  | .biConflict port node dla tag => Sys2Proof.Machine.execBiConflict port node dla tag s
  | .fecBlockReceive port blk => Sys2Proof.Machine.execFecBlockReceive port blk s
  | .controlFlit port ctl => Sys2Proof.Machine.execControlFlit port ctl s
  | .nakRepeat port => Sys2Proof.Machine.execNakRepeat port s
  | .ackTimeout port => Sys2Proof.Machine.execAckTimeout port s
  | .controlFlitDue port => Sys2Proof.Machine.execControlFlitDue port s
  | .blockDecodeTimeout port => Sys2Proof.Machine.execBlockDecodeTimeout port s
  | .rekey port => Sys2Proof.Machine.execRekey port s
  | .keySwitchApply port => Sys2Proof.Machine.execKeySwitchApply port s
  | .linkTrain port inp => Sys2Proof.Machine.execLinkTrain port inp s
  | .refusedRetry port => Sys2Proof.Machine.execRefusedRetry port s
  | .messageForward inPort sub msg => Sys2Proof.Machine.execMessageForward inPort sub msg s
  | .fragmentTimeout src txid mcode => Sys2Proof.Machine.execFragmentTimeout src txid mcode s
  | .lsa port body => Sys2Proof.Machine.execLsa port body s
  | .routeInstall => Sys2Proof.Machine.execRouteInstall s
  | .duplicateExpire node serial => Sys2Proof.Machine.execDuplicateExpire node serial s
  | .ready child map => Sys2Proof.Machine.execReady child map s
  | .gatherWindowExpire => Sys2Proof.Machine.execGatherWindowExpire s
  | .member port gen ridge map => Sys2Proof.Machine.execMember port gen ridge map s
  | .holdLimitExpire => Sys2Proof.Machine.execHoldLimitExpire s
  | .join node serial => Sys2Proof.Machine.execJoin node serial s
  | .dead node cause => Sys2Proof.Machine.execDead node cause s
  | .memberUnreachable node => Sys2Proof.Machine.execMemberUnreachable node s
  | .salvage port lastSeq => Sys2Proof.Machine.execSalvage port lastSeq s
  | .pflush src txid port => Sys2Proof.Machine.execPflush src txid port s
  | .mpMsg src inc word => Sys2Proof.Machine.execMpMsg src inc word s
  | .perstAssert port => Sys2Proof.Machine.execPerstAssert port s
  | .hostLinkLoss port => Sys2Proof.Machine.execHostLinkLoss port s
  | .hostLaneFault port lane => Sys2Proof.Machine.execHostLaneFault port lane s
  | .hostLinkTrain port lanes rate loflit => Sys2Proof.Machine.execHostLinkTrain port lanes rate loflit s
  | .gpfPhase1 port tag => Sys2Proof.Machine.execGpfPhase1 port tag s
  | .gpfPhase2 port tag => Sys2Proof.Machine.execGpfPhase2 port tag s
  | .clampRead n readers upper => Sys2Proof.Machine.execClampRead n readers upper s
  | .clampRelease snd n => Sys2Proof.Machine.execClampRelease snd n s
  | .clampForce snd n => Sys2Proof.Machine.execClampForce snd n s
  | .cxlIdentify port => Sys2Proof.Machine.execCxlIdentify port s
  | .cxlBackgroundStatus port => Sys2Proof.Machine.execCxlBackgroundStatus port s
  | .cxlGetEventRecords port log => Sys2Proof.Machine.execCxlGetEventRecords port log s
  | .cxlClearEventRecords port log handles => Sys2Proof.Machine.execCxlClearEventRecords port log handles s
  | .cxlGetEventIntPolicy port => Sys2Proof.Machine.execCxlGetEventIntPolicy port s
  | .cxlSetEventIntPolicy port policy => Sys2Proof.Machine.execCxlSetEventIntPolicy port policy s
  | .cxlGetFwInfo port => Sys2Proof.Machine.execCxlGetFwInfo port s
  | .cxlTransferFw port action slot offset words => Sys2Proof.Machine.execCxlTransferFw port action slot offset words s
  | .cxlActivateFw port slot online => Sys2Proof.Machine.execCxlActivateFw port slot online s
  | .cxlGetTimestamp port => Sys2Proof.Machine.execCxlGetTimestamp port s
  | .cxlSetTimestamp port seconds => Sys2Proof.Machine.execCxlSetTimestamp port seconds s
  | .cxlGetSupportedLogs port => Sys2Proof.Machine.execCxlGetSupportedLogs port s
  | .cxlGetLog port => Sys2Proof.Machine.execCxlGetLog port s
  | .cxlIdentifyMemoryDevice port => Sys2Proof.Machine.execCxlIdentifyMemoryDevice port s
  | .cxlGetPartitionInfo port => Sys2Proof.Machine.execCxlGetPartitionInfo port s
  | .cxlGetLsa port off len => Sys2Proof.Machine.execCxlGetLsa port off len s
  | .cxlSetLsa port off bytes => Sys2Proof.Machine.execCxlSetLsa port off bytes s
  | .cxlGetHealthInfo port => Sys2Proof.Machine.execCxlGetHealthInfo port s
  | .cxlGetAlertConfig port => Sys2Proof.Machine.execCxlGetAlertConfig port s
  | .cxlSetAlertConfig port cfg => Sys2Proof.Machine.execCxlSetAlertConfig port cfg s
  | .cxlGetShutdownState port => Sys2Proof.Machine.execCxlGetShutdownState port s
  | .cxlSetShutdownState port dirty => Sys2Proof.Machine.execCxlSetShutdownState port dirty s
  | .cxlGetPoisonList port dpa len => Sys2Proof.Machine.execCxlGetPoisonList port dpa len s
  | .cxlInjectPoison port dpa => Sys2Proof.Machine.execCxlInjectPoison port dpa s
  | .cxlClearPoison port dpa data => Sys2Proof.Machine.execCxlClearPoison port dpa data s
  | .cxlScanMediaCaps port => Sys2Proof.Machine.execCxlScanMediaCaps port s
  | .cxlScanMedia port => Sys2Proof.Machine.execCxlScanMedia port s
  | .cxlScanMediaResults port => Sys2Proof.Machine.execCxlScanMediaResults port s
  | .cxlSanitize port => Sys2Proof.Machine.execCxlSanitize port s
  | .cxlSecureErase port => Sys2Proof.Machine.execCxlSecureErase port s
  | .reencStep seg => Sys2Proof.Machine.execReencStep seg s
  | .reencDone seg => Sys2Proof.Machine.execReencDone seg s
  | .reencQueueStart => Sys2Proof.Machine.execReencQueueStart s
  | .keyInstall snd arg payload => Sys2Proof.Machine.execKeyInstall snd arg payload s
  | .keyQuery snd arg => Sys2Proof.Machine.execKeyQuery snd arg s
  | .keyRetire snd arg => Sys2Proof.Machine.execKeyRetire snd arg s
  | .keyRekey snd arg payload => Sys2Proof.Machine.execKeyRekey snd arg payload s
  | .keyRetireDone kid => Sys2Proof.Machine.execKeyRetireDone kid s
  | .trustAdd snd arg payload => Sys2Proof.Machine.execTrustAdd snd arg payload s
  | .trustRemove snd arg => Sys2Proof.Machine.execTrustRemove snd arg s
  | .ideIntegrityFailure port => Sys2Proof.Machine.execIdeIntegrityFailure port s
  | .ideKeyRefresh port => Sys2Proof.Machine.execIdeKeyRefresh port s
  | .ideKeyExpire port => Sys2Proof.Machine.execIdeKeyExpire port s
  | .sanitizeDone => Sys2Proof.Machine.execSanitizeDone s
  | .mbxPost snd word => Sys2Proof.Machine.execMbxPost snd word s
  | .messageTake => Sys2Proof.Machine.execMessageTake s
  | .acknowledge box rc => Sys2Proof.Machine.execAcknowledge box rc s
  | .outboxPost box => Sys2Proof.Machine.execOutboxPost box s
  | .outboxFree snd => Sys2Proof.Machine.execOutboxFree snd s
  | .drawerOpen snd => Sys2Proof.Machine.execDrawerOpen snd s
  | .drawerClose snd => Sys2Proof.Machine.execDrawerClose snd s
  | .drawerPop snd => Sys2Proof.Machine.execDrawerPop snd s
  | .drawerWrite snd word => Sys2Proof.Machine.execDrawerWrite snd word s
  | .nop box arg => Sys2Proof.Machine.execNop box arg s
  | .identify box arg => Sys2Proof.Machine.execIdentify box arg s
  | .getMode box arg => Sys2Proof.Machine.execGetMode box arg s
  | .reqMode box arg => Sys2Proof.Machine.execReqMode box arg s
  | .shutdown box arg => Sys2Proof.Machine.execShutdown box arg s
  | .winStage box arg => Sys2Proof.Machine.execWinStage box arg s
  | .winRemove box arg => Sys2Proof.Machine.execWinRemove box arg s
  | .winCommit box arg => Sys2Proof.Machine.execWinCommit box arg s
  | .winQuery box arg => Sys2Proof.Machine.execWinQuery box arg s
  | .setAperture box arg => Sys2Proof.Machine.execSetAperture box arg s
  | .closeEpoch box arg => Sys2Proof.Machine.execCloseEpoch box arg s
  | .setEpochTimer box arg => Sys2Proof.Machine.execSetEpochTimer box arg s
  | .measureHoldup box arg => Sys2Proof.Machine.execMeasureHoldup box arg s
  | .getLoss box arg => Sys2Proof.Machine.execGetLoss box arg s
  | .mediaHealth box arg => Sys2Proof.Machine.execMediaHealth box arg s
  | .setLevelSpread box arg => Sys2Proof.Machine.execSetLevelSpread box arg s
  | .readReftable box arg => Sys2Proof.Machine.execReadReftable box arg s
  | .format box arg => Sys2Proof.Machine.execFormat box arg s
  | .formatDone => Sys2Proof.Machine.execFormatDone s
  | .sanitize box arg => Sys2Proof.Machine.execSanitize box arg s
  | .scanMedia box arg => Sys2Proof.Machine.execScanMedia box arg s
  | .setSlots box arg => Sys2Proof.Machine.execSetSlots box arg s
  | .setPdTimer box arg => Sys2Proof.Machine.execSetPdTimer box arg s
  | .setDramRate box arg => Sys2Proof.Machine.execSetDramRate box arg s
  | .setThermal box arg => Sys2Proof.Machine.execSetThermal box arg s
  | .setSupervisor box arg => Sys2Proof.Machine.execSetSupervisor box arg s
  | .clearPsvFault box arg => Sys2Proof.Machine.execClearPsvFault box arg s
  | .setNode box arg => Sys2Proof.Machine.execSetNode box arg s
  | .setPool box arg => Sys2Proof.Machine.execSetPool box arg s
  | .setTopology box arg => Sys2Proof.Machine.execSetTopology box arg s
  | .setRoster box arg => Sys2Proof.Machine.execSetRoster box arg s
  | .setHoldNs box arg => Sys2Proof.Machine.execSetHoldNs box arg s
  | .setRemoteCache box arg => Sys2Proof.Machine.execSetRemoteCache box arg s
  | .setGather box arg => Sys2Proof.Machine.execSetGather box arg s
  | .setHoldLimit box arg => Sys2Proof.Machine.execSetHoldLimit box arg s
  | .poolStatus box arg => Sys2Proof.Machine.execPoolStatus box arg s
  | .mpForward box arg => Sys2Proof.Machine.execMpForward box arg s
  | .evrFreeze box arg => Sys2Proof.Machine.execEvrFreeze box arg s
  | .pmcConfig box arg => Sys2Proof.Machine.execPmcConfig box arg s
  | .trbConfig box arg => Sys2Proof.Machine.execTrbConfig box arg s
  | .fwBegin box arg => Sys2Proof.Machine.execFwBegin box arg s
  | .fwData box arg => Sys2Proof.Machine.execFwData box arg s
  | .fwEnd box arg => Sys2Proof.Machine.execFwEnd box arg s
  | .fwCheckDone sigOk sizeOk version secVersion => Sys2Proof.Machine.execFwCheckDone sigOk sizeOk version secVersion s
  | .fwActivate box arg => Sys2Proof.Machine.execFwActivate box arg s
  | .fwInfo box arg => Sys2Proof.Machine.execFwInfo box arg s
  | .meterRecord box arg => Sys2Proof.Machine.execMeterRecord box arg s
  | .meterTenant box arg => Sys2Proof.Machine.execMeterTenant box arg s
  | .meterId box arg => Sys2Proof.Machine.execMeterId box arg s
  | .meterKey box arg => Sys2Proof.Machine.execMeterKey box arg s
  | .meterAudit box arg => Sys2Proof.Machine.execMeterAudit box arg s
  | .meterNote notice => Sys2Proof.Machine.execMeterNote notice s
  | .prepareReturn box arg => Sys2Proof.Machine.execPrepareReturn box arg s
  | .diagSnapshot box arg => Sys2Proof.Machine.execDiagSnapshot box arg s
  | .vauxApply => Sys2Proof.Machine.execVauxApply s
  | .vauxLoss => Sys2Proof.Machine.execVauxLoss s
  | .vinDrop => Sys2Proof.Machine.execVinDrop s
  | .vinReturn => Sys2Proof.Machine.execVinReturn s
  | .vinUnderVoltage => Sys2Proof.Machine.execVinUnderVoltage s
  | .vinOverVoltage => Sys2Proof.Machine.execVinOverVoltage s
  | .railFault code => Sys2Proof.Machine.execRailFault code s
  | .vaoFault => Sys2Proof.Machine.execVaoFault s
  | .vholdWindow inside above => Sys2Proof.Machine.execVholdWindow inside above s
  | .holdShort => Sys2Proof.Machine.execHoldShort s
  | .psvStart snd => Sys2Proof.Machine.execPsvStart snd s
  | .bootEntry => Sys2Proof.Machine.execBootEntry s
  | .bootStep inp => Sys2Proof.Machine.execBootStep inp s
  | .railStartTimeout => Sys2Proof.Machine.execRailStartTimeout s
  | .powerdownStep => Sys2Proof.Machine.execPowerdownStep s
  | .powerdownStepTimeout => Sys2Proof.Machine.execPowerdownStepTimeout s
  | .fallbackTimeout => Sys2Proof.Machine.execFallbackTimeout s
  | .powerdownEnd => Sys2Proof.Machine.execPowerdownEnd s
  | .standbyHoldExpire => Sys2Proof.Machine.execStandbyHoldExpire s
  | .refclkLoss => Sys2Proof.Machine.execRefclkLoss s
  | .refclkReturn => Sys2Proof.Machine.execRefclkReturn s
  | .xtalFail => Sys2Proof.Machine.execXtalFail s
  | .deepIdleEntry => Sys2Proof.Machine.execDeepIdleEntry s
  | .deepIdleWake => Sys2Proof.Machine.execDeepIdleWake s
  | .meterSample millivolts milliamps => Sys2Proof.Machine.execMeterSample millivolts milliamps s
  | .intervalClose => Sys2Proof.Machine.execIntervalClose s
  | .meterRestart => Sys2Proof.Machine.execMeterRestart s
  | .feedSend group => Sys2Proof.Machine.execFeedSend group s
  | .feedReceive => Sys2Proof.Machine.execFeedReceive s
  | .feedGap group => Sys2Proof.Machine.execFeedGap group s
  | .meterRelayAnswer => Sys2Proof.Machine.execMeterRelayAnswer s
  | .meterReadId => Sys2Proof.Machine.execMeterReadId s
  | .meterSetLength minutes => Sys2Proof.Machine.execMeterSetLength minutes s
  | .meterFwLoad image => Sys2Proof.Machine.execMeterFwLoad image s
  | .meterFwActivate sigOk => Sys2Proof.Machine.execMeterFwActivate sigOk s
  | .sealChange low => Sys2Proof.Machine.execSealChange low s
  | .pstProgram snd count => Sys2Proof.Machine.execPstProgram snd count s
  | .pstWriteDone bank => Sys2Proof.Machine.execPstWriteDone bank s
  | .pstRead snd corrected => Sys2Proof.Machine.execPstRead snd corrected s
  | .pstWdataWrite snd word => Sys2Proof.Machine.execPstWdataWrite snd word s
  | .opMinuteTick => Sys2Proof.Machine.execOpMinuteTick s
  | .eventQueueDrain => Sys2Proof.Machine.execEventQueueDrain s
  | .freezeExpire => Sys2Proof.Machine.execFreezeExpire s
  | .evrSnapshot snd => Sys2Proof.Machine.execEvrSnapshot snd s
  | .evrAdvance snd => Sys2Proof.Machine.execEvrAdvance snd s
  | .pmcFreeze snd on => Sys2Proof.Machine.execPmcFreeze snd on s
  | .trbSnapshot snd => Sys2Proof.Machine.execTrbSnapshot snd s
  | .trbAdvance snd => Sys2Proof.Machine.execTrbAdvance snd s
  | .extest => Sys2Proof.Machine.execExtest s
  | .samplePreload => Sys2Proof.Machine.execSamplePreload s
  | .idcode => Sys2Proof.Machine.execIdcode s
  | .tapClamp => Sys2Proof.Machine.execTapClamp s
  | .highz => Sys2Proof.Machine.execHighz s
  | .extestPulse => Sys2Proof.Machine.execExtestPulse s
  | .extestTrain => Sys2Proof.Machine.execExtestTrain s
  | .bypass => Sys2Proof.Machine.execBypass s
  | .privateInstruction code => Sys2Proof.Machine.execPrivateInstruction code s
  | .trstAssert => Sys2Proof.Machine.execTrstAssert s
  | .returnUnlock authentic => Sys2Proof.Machine.execReturnUnlock authentic s
  | .blockLockLoss port lanes => Sys2Proof.Machine.execBlockLockLoss port lanes s
  | .dieInternalFault unit => Sys2Proof.Machine.execDieInternalFault unit s
  | .mpRestartDone checkOk => Sys2Proof.Machine.execMpRestartDone checkOk s
  | .sidebandBusReset => Sys2Proof.Machine.execSidebandBusReset s
  | .holdupDailyMeasurement => Sys2Proof.Machine.execHoldupDailyMeasurement s
  | .pflushReply src txid epoch => Sys2Proof.Machine.execPflushReply src txid epoch s
  | .securedSpdmSession snd establish mutualAuth root => Sys2Proof.Machine.execSecuredSpdmSession snd establish mutualAuth root s

end Sys2Proof.Machine
end

