-- ==== Sys2Proof/Safety.lean ====
section
/-! DEFINITION. The terms the statements use: the parts of the state and what leaves them alone, and what a well-kept state
is. -/

namespace Sys2Proof.Machine

/-- The parts of the state: its fields, and some registers of its fields on their own: the clamps (R422), the phase of the
supply and its latched faults (R497, R509), Read-Only (R146), the dies lost (R228), the last epoch committed (R245), the pool's
members (R388), the keys and both trust stores (R434, R454, R376). -/
inductive Part where
  | pw | evr | pst | pmc | trb | mb | sched | tr | dr | prot | per | ck | cache | dram | coh | sgl | fab | portA | portB
  | cxlA | cxlB | sec | thm | mtr | now | freeCtr | outs | pending
  | clamps | phase | latched | readOnly | lostDie | committed | members | kids | trustKm | trustPool
deriving DecidableEq, Repr

/-- A part of the state is the same in two states. -/
def Part.same (s t : State) : Part → Prop
  | .pw => t.pw = s.pw | .evr => t.evr = s.evr | .pst => t.pst = s.pst | .pmc => t.pmc = s.pmc | .trb => t.trb = s.trb
  | .mb => t.mb = s.mb | .sched => t.sched = s.sched | .tr => t.tr = s.tr | .dr => t.dr = s.dr | .prot => t.prot = s.prot
  | .per => t.per = s.per | .ck => t.ck = s.ck | .cache => t.cache = s.cache | .dram => t.dram = s.dram | .coh => t.coh = s.coh
  | .sgl => t.sgl = s.sgl | .fab => t.fab = s.fab | .portA => t.portA = s.portA | .portB => t.portB = s.portB
  | .cxlA => t.cxlA = s.cxlA | .cxlB => t.cxlB = s.cxlB | .sec => t.sec = s.sec | .thm => t.thm = s.thm | .mtr => t.mtr = s.mtr
  | .now => t.now = s.now | .freeCtr => t.freeCtr = s.freeCtr | .outs => t.outs = s.outs | .pending => t.pending = s.pending
  | .clamps => t.mb.clamps = s.mb.clamps | .phase => t.pw.phase = s.pw.phase | .latched => t.pw.faults = s.pw.faults
  | .readOnly => t.tr.readOnly = s.tr.readOnly | .lostDie => t.prot.lostDie = s.prot.lostDie
  | .committed => t.per.committed = s.per.committed | .members => t.sgl.members = s.sgl.members
  | .kids => t.sec.kids = s.sec.kids | .trustKm => t.sec.trustKm = s.sec.trustKm | .trustPool => t.sec.trustPool = s.sec.trustPool

/-- From one state to another, only the listed parts change. -/
def OnlyChanges (L : List Part) (s t : State) : Prop := ∀ p, p ∉ L → p.same s t

/-- Each of the 16 clamps is free or held by one of Port A, Port B, the sideband and the management processor (R422,
R433). -/
def ClampsOk (s : State) : Prop := s.mb.clamps.length = 16 ∧ ∀ c ∈ s.mb.clamps, c.owner ≤ 4

/-! ### Messages -/

/-- A message of an opcode and argument waits at the head of a sender's inbox, of the sender's present incarnation, and is the
next that may be taken there: the inbox is served, no message of it waits for its acknowledgement, and no window commit of the
port is in progress (R468, R470, R418). -/
def headReady (s : State) (b : BoxId) (op arg : Nat) : Bool :=
  match (boxOf s b).inbox with
  | [] => false
  | (w, node, _) :: _ =>
    wordOp w == op && wordArg w == arg && canServe s b && !headTaken s b && !headWaits s b op arg && !staleHead s b w node

/-- The state in which a message taken is executed: its taking is counted as event 0x201 (Table 19-5). -/
def taken (s : State) : State := count 16 0x201 0 1 s

/-- The row of Table 15-5 of a mailbox command: opcode, argument bits, inbound payload, whether the Fabric sender may send it, and
clamp; with it the sender and the argument. CLEAR_PSV_FAULT is listed for the sideband, which alone may send it; METER_NOTE, of
the metering partition, is not of the table's columns. -/
def gateOf : Instr → Option (Gate × BoxId × Nat)
  | .nop b a => some ({ op := 0x000, fab := true }, b, a)
  | .identify b a => some ({ op := 0x001, fab := true }, b, a)
  | .getMode b a => some ({ op := 0x002, fab := true }, b, a)
  | .reqMode b a => some ({ op := 0x010, used := 0xF, clamp := some 0 }, b, a)
  | .shutdown b a => some ({ op := 0x011, used := 1, clamp := some 0 }, b, a)
  | .winStage b a => some ({ winGate 0x100 b a 0x3F 6 with pay := some (7, 7) }, b, a)
  | .winRemove b a => some (winGate 0x101 b a 0x3F 6, b, a)
  | .winCommit b a => some (winGate 0x102 b a 0 6, b, a)
  | .winQuery b a => some ({ op := 0x103, used := 0x3F + portBit b 6 }, b, a)
  | .setAperture b a => some (winGate 0x104 b a 0x1FFFFFF 25, b, a)
  | .closeEpoch b a => some ({ op := 0x300, fab := true }, b, a)
  | .setEpochTimer b a => some ({ op := 0x301, used := 0xFFFF, clamp := some 5 }, b, a)
  | .measureHoldup b a => some ({ op := 0x302, clamp := some 5 }, b, a)
  | .getLoss b a => some ({ op := 0x303 }, b, a)
  | .mediaHealth b a => some ({ op := 0x400, fab := true }, b, a)
  | .setLevelSpread b a => some ({ op := 0x401, used := 0x7FFFFF, clamp := some 6 }, b, a)
  | .readReftable b a => some ({ op := 0x402, used := 0x3F }, b, a)
  | .format b a => some ({ op := 0x403, clamp := some 0 }, b, a)
  | .sanitize b a => some ({ op := 0x404, used := 1, clamp := some 0 }, b, a)
  | .scanMedia b a => some ({ op := 0x405, clamp := some 6 }, b, a)
  | .setSlots b a => some ({ op := 0x500, used := 0x1FF, clamp := some 3 }, b, a)
  | .setPdTimer b a => some ({ op := 0x501, used := 0xFF, clamp := some 3 }, b, a)
  | .setDramRate b a => some ({ op := 0x502, used := 3, clamp := some 3 }, b, a)
  | .setThermal b a => some ({ op := 0x503, pay := some (4, 4), clamp := some 2 }, b, a)
  | .setSupervisor b a => some ({ op := 0x504, used := 0xF, pay := some (2, 2), clamp := some 3 }, b, a)
  | .clearPsvFault .sideband a => some ({ op := 0x505, clamp := some 3 }, .sideband, a)
  | .setNode b a => some ({ op := 0x600, used := 0x3FF, clamp := some 7 }, b, a)
  | .setPool b a => some ({ op := 0x601, used := 0x1FFFFFFFF, clamp := some 7 }, b, a)
  | .setTopology b a => some ({ op := 0x602, used := 0x7FFF, clamp := some 7 }, b, a)
  | .setRoster b a => some ({ op := 0x603, pay := some (16, 16), clamp := some 7 }, b, a)
  | .setHoldNs b a => some ({ op := 0x604, used := 0xFF, clamp := some 7 }, b, a)
  | .setRemoteCache b a => some ({ op := 0x605, used := 0x1F, clamp := some 7 }, b, a)
  | .setGather b a => some ({ op := 0x606, used := 0x1FF, clamp := some 7 }, b, a)
  | .setHoldLimit b a => some ({ op := 0x607, used := 0x3F, clamp := some 7 }, b, a)
  | .poolStatus b a => some ({ op := 0x608, fab := true }, b, a)
  | .mpForward b a => some ({ op := 0x610, used := 0x3FF, pay := some (1, 1) }, b, a)
  | .evrFreeze b a => some ({ op := 0x700, used := 1, clamp := some 4 }, b, a)
  | .pmcConfig b a => some ({ op := 0x701, used := 0x1F, pay := some (9, 9), clamp := some 4 }, b, a)
  | .trbConfig b a => some ({ op := 0x702, pay := some (1, 1), clamp := some 4 }, b, a)
  | .fwBegin b a => some ({ op := 0x800, used := 0xFFFF, clamp := some 0 }, b, a)
  | .fwData b a => some ({ op := 0x801, used := 0xFFFFFFFF, pay := some (1, 63), clamp := some 0 }, b, a)
  | .fwEnd b a => some ({ op := 0x802, clamp := some 0 }, b, a)
  | .fwActivate b a => some ({ op := 0x803, used := 3, clamp := some 0 }, b, a)
  | .fwInfo b a => some ({ op := 0x804, fab := true }, b, a)
  | .meterRecord b a => some ({ op := 0x900, used := 0x1FFF }, b, a)
  | .meterTenant b a => some ({ op := 0x901, used := 0x7FFFF }, b, a)
  | .meterId b a => some ({ op := 0x902 }, b, a)
  | .meterKey b a => some ({ op := 0x903 }, b, a)
  | .meterAudit b a => some ({ op := 0x904 }, b, a)
  | .prepareReturn b a => some ({ op := 0xF00, clamp := some 0 }, b, a)
  | .diagSnapshot b a => some ({ op := 0xF01, used := 0xF }, b, a)
  | _ => none

/-! ### Frames -/

/-- The parts of the state each command may change, whatever its operands. -/
def mayChange : Instr → List Part
  | .registerWrite .. =>
    [.pw, .evr, .pst, .pmc, .trb, .mb, .sched, .tr, .prot, .per, .ck, .cache, .dram, .coh, .sgl, .fab, .portA,
    .portB, .cxlA, .cxlB, .sec, .freeCtr, .outs, .clamps]
  | .hostMemRd .. | .hostMemWr .. =>
    [.pw, .evr, .pmc, .trb, .sched, .tr, .prot, .per, .ck, .cache, .dram, .coh, .fab, .portA, .portB, .cxlA,
    .cxlB, .sec, .freeCtr, .outs]
  | .runAheadHint .. | .reclaimGrant .. => [.tr]
  | .leaseProgrammed .. | .dovetailMerge .. | .sramPatrol .. | .epochStage .. | .evictionDone .. | .mshrFill ..
  | .maintClean .. | .maintInval .. | .maintFlush .. | .rdS .. | .rdX .. | .rdC .. | .upg .. | .wrT .. | .evX ..
  | .rspI .. | .rspS .. | .rspFwd .. | .rspWb .. | .snoopTimeout .. | .cxlClearPoison .. | .reencStep .. =>
    [.evr, .pmc, .trb, .sched, .tr, .prot, .per, .ck, .cache, .dram, .coh, .fab, .portA, .portB, .cxlA, .cxlB,
    .sec, .freeCtr, .outs]
  | .dovetailTimeout .. | .maintDone .. => [.cache]
  | .lookasideResult .. | .dramCacheTagResult .. | .lpddr6ReadDone .. | .mediumReadDone .. =>
    [.evr, .pmc, .trb, .sched, .tr, .dr, .prot, .per, .ck, .cache, .dram, .coh, .fab, .portA, .portB, .cxlA,
    .cxlB, .sec, .freeCtr, .outs]
  | .dramWriteback .. => [.pmc, .dram, .freeCtr, .outs]
  | .mediumReadStart .. => [.pmc, .sched, .freeCtr, .outs]
  | .dmaResume .. => [.evr, .sched, .tr, .prot, .per, .ck, .cxlA, .cxlB, .freeCtr, .outs]
  | .readTransferred .. => [.sched, .outs]
  | .slotGrant .. => [.pmc, .sched, .tr, .per, .ck, .freeCtr, .outs]
  | .roundStart .. | .roundDeadline .. | .stripeAgePad .. | .checkpointSegmentWrite .. => [.tr, .per, .ck, .freeCtr]
  | .rowProgramDone .. => [.evr, .sched, .tr, .dr, .per, .ck, .cxlA, .cxlB, .freeCtr, .outs]
  | .resetDone .. => [.pw, .evr, .sched, .tr, .dr, .prot, .per, .ck, .dram, .cxlA, .cxlB, .freeCtr, .outs, .lostDie]
  | .drainRowReadback .. | .verifyReadDue .. => [.evr, .tr, .dr, .per, .ck, .cxlA, .cxlB, .freeCtr, .outs]
  | .foldStep .. | .refreshStep .. | .rebuildStep .. =>
    [.pw, .evr, .sched, .tr, .dr, .prot, .per, .ck, .cache, .dram, .cxlA, .cxlB, .freeCtr, .outs]
  | .relocationSwitch .. | .checkpointRootWrite .. =>
    [.pw, .evr, .tr, .dr, .prot, .per, .ck, .dram, .cxlA, .cxlB, .outs]
  | .gcStep .. =>
    [.pw, .evr, .sched, .tr, .dr, .prot, .per, .ck, .cache, .dram, .cxlA, .cxlB, .freeCtr, .outs, .readOnly]
  | .levelCheck .. => [.pw, .evr, .sched, .tr, .dr, .prot, .per, .ck, .cache, .dram, .cxlA, .cxlB, .outs]
  | .rgenAdvance .. => [.sched]
  | .thermalUpdate .. => [.pw, .evr, .tr, .dr, .per, .ck, .cache, .dram, .cxlA, .cxlB, .thm, .outs]
  | .levelFall .. => [.pw, .evr, .dram, .cxlA, .cxlB, .thm, .outs]
  | .warnClear .. | .graceExpire .. => [.thm]
  | .standbyModelTick .. => [.pw, .dr]
  | .edSave .. => [.dr]
  | .driftSweep .. | .refreshLevelTimer .. => [.evr, .tr, .dr, .cxlA, .cxlB, .outs]
  | .ageSurvey .. => [.evr, .tr, .dr, .prot, .per, .ck, .cxlA, .cxlB, .outs]
  | .patrolScrub .. =>
    [.evr, .mb, .sched, .tr, .dr, .prot, .per, .ck, .cache, .dram, .fab, .cxlA, .cxlB, .freeCtr, .outs]
  | .dramPatrol .. => [.evr, .pmc, .tr, .prot, .per, .ck, .cache, .dram, .cxlA, .cxlB, .freeCtr, .outs]
  | .mpTrap .. => [.pst, .mb, .cache, .portA, .portB, .clamps]
  | .responseDeadlineMiss .. | .dieInternalFault .. =>
    [.evr, .sched, .tr, .prot, .per, .ck, .dram, .cxlA, .cxlB, .freeCtr, .outs, .lostDie]
  | .faultRelease .. =>
    [.pw, .evr, .pmc, .trb, .sched, .tr, .dr, .prot, .per, .ck, .cache, .dram, .coh, .fab, .portA, .portB, .cxlA,
    .cxlB, .sec, .freeCtr, .outs]
  | .remirrorStep .. => [.pw, .evr, .prot, .dram, .cxlA, .cxlB, .outs]
  | .holdupMeasure .. | .holdupDailyMeasurement .. => [.per]
  | .holdupResult .. => [.evr, .mb, .tr, .per, .ck, .cache, .fab, .cxlA, .cxlB, .freeCtr, .outs]
  | .chargerTimeout .. => [.evr, .tr, .per, .ck, .cache, .cxlA, .cxlB, .outs]
  | .budgetUpdate .. => [.pw, .tr, .per, .ck, .cache]
  | .epochTimer .. | .epcClose .. => [.tr, .per, .ck, .cache]
  | .epochCommit .. =>
    [.pmc, .tr, .per, .ck, .cache, .fab, .portA, .portB, .cxlA, .cxlB, .sec, .freeCtr, .outs, .committed]
  | .flushEntry .. =>
    [.pw, .evr, .pst, .tr, .per, .ck, .cache, .dram, .cxlA, .cxlB, .mtr, .freeCtr, .outs, .phase, .latched]
  | .flushDone .. | .idcode .. | .bypass .. | .trstAssert .. =>
    [.pw, .evr, .pmc, .trb, .mb, .sched, .tr, .dr, .prot, .per, .ck, .cache, .dram, .coh, .sgl, .fab, .portA,
    .portB, .cxlA, .cxlB, .sec, .thm, .outs, .clamps, .phase, .committed, .members, .kids]
  | .replayStart .. => [.evr, .dr, .ck, .cxlA, .cxlB, .outs]
  | .replayDone .. =>
    [.pw, .evr, .pst, .pmc, .trb, .sched, .tr, .dr, .prot, .per, .ck, .cache, .dram, .coh, .sgl, .fab, .portA,
    .portB, .cxlA, .cxlB, .sec, .freeCtr, .outs, .phase, .committed, .members]
  | .sccCommit .. => [.cache, .portA, .portB]
  | .wayPowerOffDone .. | .cacheOffDone .. => [.cache, .dram]
  | .bankRefreshDue .. | .bankRefreshStart .. | .dqsTrack .. | .channelRetrain .. | .rankPowerDown .. => [.dram]
  | .evc .. | .rtyH .. | .wayHoldExpire .. | .fencedAnswer .. | .suspectExpire .. => [.coh]
  | .snpS .. | .snpX .. | .snpC .. | .snpI .. | .proxyTimeout .. =>
    [.evr, .pmc, .trb, .cache, .dram, .coh, .fab, .portA, .portB, .cxlA, .cxlB, .freeCtr, .outs]
  | .holdWindowExpire .. | .hostRecallDone .. | .cmp .. | .cmpX .. | .datS .. | .datX .. | .datC .. =>
    [.pmc, .trb, .cache, .dram, .coh, .fab, .portA, .portB, .freeCtr, .outs]
  | .retryBackoffExpire .. => [.coh, .fab, .outs]
  | .biRsp .. | .biTimeout .. =>
    [.evr, .pmc, .trb, .mb, .sched, .tr, .prot, .per, .ck, .cache, .dram, .coh, .fab, .portA, .portB, .cxlA,
    .cxlB, .sec, .freeCtr, .outs]
  | .biConflict .. | .controlFlitDue .. | .gpfPhase1 .. | .cxlIdentify .. | .cxlBackgroundStatus ..
  | .cxlGetEventRecords .. | .cxlGetEventIntPolicy .. | .cxlGetFwInfo .. | .cxlGetTimestamp ..
  | .cxlGetSupportedLogs .. | .cxlGetLog .. | .cxlIdentifyMemoryDevice .. | .cxlGetPartitionInfo .. | .cxlGetLsa ..
  | .cxlGetHealthInfo .. | .cxlGetAlertConfig .. | .cxlGetShutdownState .. | .cxlGetPoisonList ..
  | .cxlScanMediaCaps .. | .cxlScanMediaResults .. | .keyQuery .. | .meterReadId .. => [.outs]
  | .fecBlockReceive .. | .messageForward .. =>
    [.evr, .pmc, .trb, .sched, .tr, .prot, .per, .ck, .cache, .dram, .coh, .sgl, .fab, .portA, .portB, .cxlA,
    .cxlB, .sec, .freeCtr, .outs]
  | .controlFlit .. | .ackTimeout .. | .linkTrain .. => [.evr, .pmc, .prot, .sgl, .fab, .cxlA, .cxlB, .freeCtr, .outs]
  | .nakRepeat .. => [.sgl, .outs]
  | .blockDecodeTimeout .. | .blockLockLoss .. => [.evr, .prot, .sgl, .fab, .cxlA, .cxlB, .outs]
  | .rekey .. => [.sgl, .freeCtr, .outs]
  | .keySwitchApply .. | .refusedRetry .. => [.sgl]
  | .fragmentTimeout .. => [.fab]
  | .lsa .. | .ready .. | .gatherWindowExpire .. | .member .. | .join .. | .dead .. | .memberUnreachable .. =>
    [.evr, .pmc, .trb, .sched, .tr, .prot, .per, .ck, .cache, .dram, .coh, .sgl, .fab, .portA, .portB, .cxlA,
    .cxlB, .sec, .freeCtr, .outs, .members]
  | .routeInstall .. => [.evr, .sgl, .cxlA, .cxlB, .outs]
  | .duplicateExpire .. => [.sgl, .fab, .outs]
  | .holdLimitExpire .. => [.evr, .pmc, .trb, .cache, .coh, .fab, .portA, .portB, .cxlA, .cxlB, .freeCtr, .outs]
  | .salvage .. => [.sgl, .fab]
  | .pflush .. => [.tr, .per, .ck, .cache, .fab, .outs]
  | .mpMsg .. | .acknowledge .. | .meterRelayAnswer .. => [.mb, .fab, .outs]
  | .perstAssert .. | .hostLinkLoss .. | .hostLaneFault .. | .hostLinkTrain .. | .ideIntegrityFailure .. =>
    [.evr, .pmc, .trb, .mb, .sched, .tr, .prot, .per, .ck, .cache, .dram, .coh, .fab, .portA, .portB, .cxlA,
    .cxlB, .sec, .freeCtr, .outs, .clamps]
  | .gpfPhase2 .. => [.tr, .per, .ck, .cache, .coh, .fab, .portA, .portB, .outs]
  | .clampRead .. => [.mb, .outs, .clamps]
  | .clampRelease .. | .clampForce .. => [.mb, .cache, .portA, .portB, .clamps]
  | .cxlClearEventRecords .. | .cxlSetEventIntPolicy .. | .cxlSetAlertConfig .. | .cxlSetShutdownState .. =>
    [.cxlA, .cxlB, .outs]
  | .cxlTransferFw .. => [.mb, .cxlA, .cxlB, .outs]
  | .cxlActivateFw .. => [.pst, .mb, .cache, .portA, .portB, .cxlA, .cxlB, .outs, .clamps]
  | .cxlSetTimestamp .. | .evrSnapshot .. | .evrAdvance .. => [.evr, .outs]
  | .cxlSetLsa .. => [.per, .cxlA, .cxlB, .outs]
  | .cxlInjectPoison .. =>
    [.evr, .pmc, .trb, .tr, .prot, .per, .ck, .cache, .dram, .coh, .fab, .portA, .portB, .cxlA, .cxlB, .freeCtr,
    .outs]
  | .cxlScanMedia .. => [.prot, .cxlA, .cxlB, .outs]
  | .cxlSanitize .. | .cxlSecureErase .. => [.mb, .fab, .cxlA, .cxlB, .sec, .outs, .kids]
  | .reencDone .. => [.cache, .sec]
  | .reencQueueStart .. | .securedSpdmSession .. => [.sec]
  | .keyInstall .. => [.sec, .outs, .kids]
  | .keyRetire .. => [.pmc, .trb, .mb, .cache, .dram, .coh, .fab, .portA, .portB, .sec, .freeCtr, .outs, .kids]
  | .keyRekey .. => [.mb, .sec, .outs, .kids]
  | .keyRetireDone .. => [.pw, .pmc, .trb, .mb, .cache, .dram, .coh, .fab, .portA, .portB, .sec, .freeCtr, .outs, .kids]
  | .trustAdd .. | .trustRemove .. => [.sec, .outs, .trustKm, .trustPool]
  | .ideKeyRefresh .. => [.portA, .portB]
  | .ideKeyExpire .. | .eventQueueDrain .. => [.evr, .cxlA, .cxlB, .outs]
  | .sanitizeDone .. =>
    [.pw, .evr, .pst, .mb, .sched, .tr, .dr, .prot, .per, .ck, .cache, .dram, .fab, .cxlA, .cxlB, .sec, .freeCtr,
    .outs, .readOnly, .lostDie, .kids]
  | .mbxPost .. | .outboxFree .. | .drawerOpen .. | .drawerClose .. | .drawerPop .. | .drawerWrite ..
  | .sidebandBusReset .. => [.mb]
  | .messageTake .. =>
    [.pw, .evr, .pst, .pmc, .trb, .mb, .sched, .tr, .prot, .per, .ck, .cache, .dram, .coh, .sgl, .fab, .portA,
    .portB, .cxlA, .cxlB, .sec, .thm, .mtr, .freeCtr, .outs, .clamps, .phase, .latched, .kids]
  | .outboxPost .. => [.mb, .outs]
  | .nop .. | .identify .. | .getMode .. | .winQuery .. | .getLoss .. | .mediaHealth .. | .readReftable ..
  | .poolStatus .. | .mpForward .. | .evrFreeze .. | .pmcConfig .. | .fwBegin .. | .fwData .. | .fwEnd ..
  | .fwInfo .. | .meterRecord .. | .meterTenant .. | .meterId .. | .meterKey .. | .meterAudit .. | .meterNote ..
  | .diagSnapshot .. => [.evr, .pmc, .mb, .fab, .cxlA, .cxlB, .freeCtr, .outs]
  | .reqMode .. => [.pw, .evr, .pmc, .mb, .dram, .fab, .cxlA, .cxlB, .freeCtr, .outs]
  | .shutdown .. =>
    [.pw, .evr, .pst, .pmc, .mb, .tr, .per, .ck, .cache, .dram, .fab, .cxlA, .cxlB, .mtr, .freeCtr, .outs, .phase]
  | .winStage .. | .winRemove .. | .setAperture .. =>
    [.evr, .pmc, .mb, .fab, .portA, .portB, .cxlA, .cxlB, .freeCtr, .outs]
  | .winCommit .. => [.evr, .pmc, .mb, .coh, .fab, .portA, .portB, .cxlA, .cxlB, .freeCtr, .outs]
  | .closeEpoch .. => [.evr, .pmc, .mb, .tr, .per, .ck, .cache, .fab, .cxlA, .cxlB, .freeCtr, .outs]
  | .setEpochTimer .. | .measureHoldup .. => [.evr, .pmc, .mb, .per, .fab, .cxlA, .cxlB, .freeCtr, .outs]
  | .setLevelSpread .. => [.evr, .pmc, .mb, .tr, .fab, .cxlA, .cxlB, .freeCtr, .outs]
  | .format .. => [.evr, .pmc, .mb, .ck, .fab, .cxlA, .cxlB, .freeCtr, .outs]
  | .formatDone .. =>
    [.pw, .evr, .pst, .mb, .tr, .dr, .prot, .per, .ck, .cache, .dram, .fab, .portA, .portB, .cxlA, .cxlB, .sec,
    .outs, .readOnly, .committed]
  | .sanitize .. => [.evr, .pmc, .mb, .fab, .cxlA, .cxlB, .sec, .freeCtr, .outs, .kids]
  | .scanMedia .. => [.evr, .pmc, .mb, .prot, .fab, .cxlA, .cxlB, .freeCtr, .outs]
  | .setSlots .. => [.evr, .pmc, .mb, .sched, .fab, .cxlA, .cxlB, .freeCtr, .outs]
  | .setPdTimer .. | .setDramRate .. | .setRemoteCache .. =>
    [.evr, .pmc, .mb, .dram, .fab, .cxlA, .cxlB, .freeCtr, .outs]
  | .setThermal .. => [.evr, .pmc, .mb, .fab, .cxlA, .cxlB, .thm, .freeCtr, .outs]
  | .setSupervisor .. => [.pw, .evr, .pmc, .mb, .fab, .cxlA, .cxlB, .freeCtr, .outs]
  | .clearPsvFault .. => [.pw, .evr, .pmc, .mb, .fab, .cxlA, .cxlB, .freeCtr, .outs, .latched]
  | .setNode .. | .setPool .. | .setTopology .. | .setRoster .. | .setGather .. | .setHoldLimit .. =>
    [.evr, .pmc, .mb, .sgl, .fab, .cxlA, .cxlB, .freeCtr, .outs]
  | .setHoldNs .. => [.evr, .pmc, .mb, .coh, .fab, .cxlA, .cxlB, .freeCtr, .outs]
  | .trbConfig .. => [.evr, .pmc, .trb, .mb, .fab, .cxlA, .cxlB, .freeCtr, .outs]
  | .fwCheckDone .. => [.evr, .mb, .fab, .cxlA, .cxlB, .sec, .outs]
  | .fwActivate .. => [.evr, .pst, .pmc, .mb, .cache, .fab, .portA, .portB, .cxlA, .cxlB, .freeCtr, .outs, .clamps]
  | .prepareReturn .. =>
    [.pw, .evr, .pst, .pmc, .trb, .mb, .cache, .dram, .coh, .fab, .portA, .portB, .cxlA, .cxlB, .sec, .freeCtr,
    .outs, .kids]
  | .vauxApply .. | .powerdownEnd .. => [.pw, .evr, .dram, .cxlA, .cxlB, .outs, .phase]
  | .vauxLoss .. =>
    [.pw, .evr, .pst, .pmc, .trb, .mb, .sched, .tr, .dr, .prot, .per, .ck, .cache, .dram, .coh, .sgl, .fab,
    .portA, .portB, .cxlA, .cxlB, .sec, .thm, .mtr, .freeCtr, .outs, .clamps, .phase, .latched, .committed,
    .members, .kids]
  | .vinDrop .. | .vinReturn .. => [.pw, .per]
  | .vinUnderVoltage .. =>
    [.pw, .evr, .pst, .pmc, .trb, .mb, .sched, .tr, .dr, .prot, .per, .ck, .cache, .dram, .coh, .sgl, .fab,
    .portA, .portB, .cxlA, .cxlB, .sec, .thm, .mtr, .freeCtr, .outs, .clamps, .phase, .committed, .members, .kids]
  | .vinOverVoltage .. | .railFault .. | .holdShort .. =>
    [.pw, .evr, .pmc, .trb, .mb, .sched, .tr, .dr, .prot, .per, .ck, .cache, .dram, .coh, .sgl, .fab, .portA,
    .portB, .cxlA, .cxlB, .sec, .thm, .outs, .clamps, .phase, .latched, .committed, .members, .kids]
  | .vaoFault .. =>
    [.pw, .evr, .pst, .pmc, .trb, .mb, .sched, .tr, .dr, .prot, .per, .ck, .cache, .dram, .coh, .sgl, .fab,
    .portA, .portB, .cxlA, .cxlB, .sec, .thm, .freeCtr, .outs, .clamps, .phase, .latched, .committed, .members,
    .kids]
  | .vholdWindow .. => [.pw, .evr, .tr, .per, .ck, .cache, .cxlA, .cxlB, .outs, .latched]
  | .psvStart .. => [.pw, .portA, .portB]
  | .bootEntry .. => [.pw, .evr, .pst, .mb, .dram, .sgl, .portA, .portB, .cxlA, .cxlB, .sec, .outs, .phase]
  | .bootStep .. =>
    [.pw, .evr, .mb, .sched, .tr, .dr, .prot, .per, .ck, .dram, .fab, .cxlA, .cxlB, .thm, .freeCtr, .outs, .phase,
    .lostDie]
  | .railStartTimeout .. =>
    [.pw, .evr, .pmc, .trb, .mb, .sched, .tr, .dr, .prot, .per, .ck, .cache, .dram, .coh, .sgl, .fab, .portA,
    .portB, .cxlA, .cxlB, .sec, .thm, .freeCtr, .outs, .clamps, .phase, .latched, .committed, .members, .kids]
  | .powerdownStep .. | .standbyHoldExpire .. | .refclkReturn .. | .returnUnlock .. => [.pw]
  | .powerdownStepTimeout .. | .xtalFail .. => [.pw, .evr, .cxlA, .cxlB, .outs]
  | .fallbackTimeout .. => [.pw, .evr, .cxlA, .cxlB, .outs, .latched]
  | .refclkLoss .. =>
    [.pw, .evr, .pmc, .trb, .mb, .sched, .tr, .prot, .per, .ck, .cache, .dram, .coh, .sgl, .fab, .portA, .portB,
    .cxlA, .cxlB, .sec, .freeCtr, .outs, .clamps]
  | .deepIdleEntry .. | .deepIdleWake .. => [.pw, .evr, .dram, .cxlA, .cxlB, .outs]
  | .meterSample .. | .feedSend .. | .sealChange .. => [.mtr]
  | .intervalClose .. | .meterRestart .. | .feedGap .. => [.mb, .mtr]
  | .feedReceive .. => [.mtr, .freeCtr]
  | .meterSetLength .. | .meterFwActivate .. => [.mb, .mtr, .outs]
  | .meterFwLoad .. => [.mtr, .outs]
  | .pstProgram .. => [.pst, .portA, .portB]
  | .pstWriteDone .. | .pstWdataWrite .. | .opMinuteTick .. => [.pst]
  | .pstRead .. => [.pst, .portA, .portB, .outs]
  | .freezeExpire .. => [.evr]
  | .pmcFreeze .. => [.pmc, .portA, .portB]
  | .trbSnapshot .. | .trbAdvance .. => [.trb, .outs]
  | .extest .. | .extestPulse .. | .extestTrain .. =>
    [.pw, .evr, .pst, .pmc, .trb, .mb, .sched, .tr, .dr, .prot, .per, .ck, .cache, .dram, .coh, .sgl, .fab,
    .portA, .portB, .cxlA, .cxlB, .sec, .thm, .freeCtr, .outs, .clamps, .phase, .committed, .members, .kids]
  | .samplePreload .. | .privateInstruction .. =>
    [.pw, .evr, .pmc, .trb, .mb, .sched, .tr, .dr, .prot, .per, .ck, .cache, .dram, .coh, .sgl, .fab, .portA,
    .portB, .cxlA, .cxlB, .sec, .thm, .freeCtr, .outs, .clamps, .phase, .committed, .members, .kids]
  | .tapClamp .. | .highz .. =>
    [.pw, .evr, .pst, .pmc, .trb, .mb, .sched, .tr, .dr, .prot, .per, .ck, .cache, .dram, .coh, .sgl, .fab,
    .portA, .portB, .cxlA, .cxlB, .sec, .thm, .outs, .clamps, .phase, .committed, .members, .kids]
  | .mpRestartDone .. => [.pw, .evr, .mb, .fab, .cxlA, .cxlB, .outs]
  | .pflushReply .. => [.portA, .portB, .outs]

end Sys2Proof.Machine
end

