-- ==== Sys2Proof/Certificates/Slice0/Obligations.lean ====
section
/-! DEFINITION. The statements. -/

open Sys2Proof Sys2Proof.Machine

/-- When a command stands at the front of the queue, a step is that command's exec on the state with the queue's rest,
for every command and state. -/
def Obligations.StepRunsFront : Prop :=
  ∀ (c : Instr) (rest : List Instr) (s : State), s.pending = c :: rest →
    step s = exec c { s with pending := rest }

/-- With an empty queue a step is one tick of the core clock, in which the model's time advances by one (the model's
choice, log 1). -/
def Obligations.StepIdles : Prop :=
  ∀ s : State, s.pending = [] → step s = .next (tick s) ∧ (tick s).now = s.now + 1

/-- In the state right after reset there are sixteen clamps, each of them free (R422, R433), none of them broken. -/
def Obligations.ResetClamps : Prop :=
  ClampsOk State.reset ∧ ∀ c ∈ State.reset.mb.clamps, c.owner = 0 ∧ c.broken = false

/-- Of the first sentence of R422: from every state in which there are sixteen clamps, each free or held by one of
Port A, Port B, the sideband and the management processor, every step that answers a next state leads to such a state.
-/
def Obligations.ClampsStayOk : Prop :=
  ∀ s t : State, ClampsOk s → step s = .next t → ClampsOk t

/-- R20: bit b of the home slice of a page is the XOR of the bits b, b + 4, ... of its logical page number, with zero
above bit 29; so the home slice is below 16. The hash depends on the page number alone, so nothing can change it. -/
def Obligations.HomeSliceHash : Prop :=
  ∀ lpn : Nat, lpn < 2 ^ 30 → sliceOfLpn lpn < 16 ∧
    ∀ b : Nat, b < 4 → (sliceOfLpn lpn).testBit b =
      ((List.range 8).map (fun k => lpn.testBit (4 * k + b))).foldl Bool.xor false

/-- R531: where a diode works, the junction temperature is the reading of a working diode and no working diode reads
higher; where none works it is 125 °C, in the model's unit of 1/256 °C. -/
def Obligations.JunctionReading : Prop :=
  ∀ s : State,
    ((∃ d, d < 8 ∧ diodeBroken s d = false) →
      (∃ d, d < 8 ∧ diodeBroken s d = false ∧ junction s = nthD s.thm.diodes d 0) ∧
      ∀ d, d < 8 → diodeBroken s d = false → nthD s.thm.diodes d 0 ≤ junction s) ∧
    ((∀ d, d < 8 → diodeBroken s d = true) → junction s = 125 * 256)

/-- R424: when several senders read a free clamp in one cycle, the winner is a reader, no other reader lies nearer at
or after the rotating pointer in the order Port A, Port B, sideband, management processor, and the pointer then stands
at the sender after the winner. A release of the clamp by its holder followed by a read in the same cycle lets the
reader acquire it. -/
def Obligations.ClampArbitration : Prop :=
  (∀ (n : Nat) (readers : List Sender) (s : State), n < s.mb.clamps.length → readers ≠ [] → (nthD s.mb.clamps n {}).owner = 0 →
    ∃ w ∈ readers, ∃ t, exec (.clampRead n readers false) s = .next t ∧ (nthD t.mb.clamps n {}).owner = w.ix + 1 ∧
      (nthD t.mb.clamps n {}).ptr = (w.ix + 1) % 4 ∧
      ∀ r ∈ readers, (w.ix + 4 - (nthD s.mb.clamps n {}).ptr % 4) % 4 ≤ (r.ix + 4 - (nthD s.mb.clamps n {}).ptr % 4) % 4) ∧
  (∀ (n : Nat) (h r : Sender) (s : State), n < s.mb.clamps.length → holds h n s = true →
    ∃ u t, exec (.clampRelease h n) s = .next u ∧ exec (.clampRead n [r] false) u = .next t ∧
      (nthD t.mb.clamps n {}).owner = r.ix + 1)

/-- R509: CLEAR_PSV_FAULT from the sideband, taken and past its checks, leaves no fault bit and no Block fault latched
and the snapshots as they were; in Standby with START_ARMED set the conditions of R497 then decide, with scan power
off, whether Boot may be entered. -/
def Obligations.ClearPsvFaultEffect : Prop :=
  ∀ (arg : Nat) (s : State), headReady s .sideband 0x505 arg = true →
    gateRc { op := 0x505, clamp := some 3 } .sideband arg s = none →
    ∃ t, exec (.clearPsvFault .sideband arg) s = .next t ∧ t.pw.faults = 0 ∧ t.pw.block = false ∧ t.pw.snaps = s.pw.snaps ∧
      (s.pw.phase = .standby → s.pw.startArmed = true →
        bootMay t = (s.pw.vinQualified && !s.pw.hold && !s.pw.scan))

/-- R497: in Standby, with scan power off (R586), the device passes to Boot exactly when START_ARMED is set, no fault
of class Block is latched, VIN has stayed at or above 11.4 V for 10 ms (VIN_RETURN ends that time) and the 100 ms
since the last power-down sequence have passed (STANDBY_HOLD_EXPIRE ends them). -/
def Obligations.BootCondition : Prop :=
  ∀ s : State, s.pw.phase = .standby → s.pw.scan = false →
    ∃ t, exec .bootEntry s = .next t ∧
      (t.pw.phase = .boot ↔ s.pw.startArmed = true ∧ s.pw.block = false ∧ s.pw.vinQualified = true ∧ s.pw.hold = false)

/-- R511: a fault of a rail that the power-down sequence has not reached is recorded in a snapshot and latched with
class Block; the sequence stays at its step, in its order, and no immediate shut-off follows. -/
def Obligations.RailFaultInPowerDown : Prop :=
  ∀ (code : Nat) (s : State), 2 ≤ code → code ≤ 11 → s.pw.phase = .powerDown → code < s.pw.rail →
    ∃ t, exec (.railFault code) s = .next t ∧ t.pw.phase = .powerDown ∧ t.pw.rail = s.pw.rail ∧
      t.pw.fallback = s.pw.fallback ∧ t.ck.shutOff = s.ck.shutOff ∧ t.pw.block = true ∧ t.pw.faults.testBit 2 = true ∧
      (∃ x, x.cond = 2 ∧ x.code = code ∧ t.pw.snaps = (x :: s.pw.snaps).take 16)

/-- R520: REQ_MODE, taken and past its checks, is acknowledged NOT_READY (9) in Off, Standby, Boot, Replay, Flush and
the power-down sequence, with nothing else changed; in every other mode a request of Active, Doze or Deep Idle is
acknowledged OK and REQUESTED holds what was asked for, whatever condition delays its effect. -/
def Obligations.ReqModeAnswer : Prop :=
  ∀ (b : BoxId) (arg : Nat) (s : State), headReady s b 0x010 arg = true →
    gateRc { op := 0x010, used := 0xF, clamp := some 0 } b arg s = none →
    (s.pw.phase ≠ .service → exec (.reqMode b arg) s = .next (ackHead b 9 (taken s))) ∧
    (s.pw.phase = .service → ∀ p, stateOfCode (arg % 16) = some p →
      ∃ t, exec (.reqMode b arg) s = .next (ackHead b 0 t) ∧ t.pw.requested = p)

/-- R552: in service, with fewer than 26 stages of the feed drawer free a group's sample is skipped and the drawer
stays as it was, else the group's packet with the cumulative counts joins it; either way the counts the ports keep are
untouched, so that nothing is lost. -/
def Obligations.FeedPacketRoom : Prop :=
  ∀ (g : Nat) (s : State), g < 8 → s.pw.phase = .service → ∃ t, exec (.feedSend g) s = .next t ∧
    t.mtr.feed = (if 26 ≤ feedFree s then s.mtr.feed ++ [feedPacket s g] else s.mtr.feed) ∧
    ∀ tenant, usedBytes t tenant = usedBytes s tenant

/-- Every command of all 314 forms, whatever its operands and whatever state it meets, answers a next state (none ends
in a fault or a refusal), and the frame of every command: that state differs from the one met only in the parts that
mayChange lists for the command. In particular no command changes the queue or the clock; the trust stores change with
TRUST_ADD and TRUST_REMOVE alone; Read-Only is entered or left only by garbage collection, a sanitize and a format
(R146); a latched supervisor fault is set or cleared only by the commands of the supplies, the flush entry and
CLEAR_PSV_FAULT (R509), sent or taken as a message. -/
def Obligations.CommandFrames : Prop :=
  ∀ (c : Instr) (s : State), ∃ t, exec c s = .next t ∧ OnlyChanges (mayChange c) s t

/-- R482 and R425 with Table 15-5: a mailbox command whose message is taken and which a check of its row refuses
(sender, mode, clamp, unused argument bits; the order of the checks is the model's, log 37) is acknowledged with that
check's return code; beyond the taking of its message and the acknowledgement it changes nothing. -/
def Obligations.GateRefusals : Prop :=
  ∀ (c : Instr) (g : Gate) (b : BoxId) (arg rc : Nat) (s : State), gateOf c = some (g, b, arg) →
    headReady s b g.op arg = true → gateRc g b arg s = some rc → exec c s = .next (ackHead b rc (taken s))

/-- R471: an acknowledgement of a port's message of its present incarnation takes the message out of the inbox
(IN_FULL reads clear), writes RC and TAG, sets ACK and signals MSI-X vector 0 to the port, in one step; the sender's
next message clears ACK. -/
def Obligations.AcknowledgementEffect : Prop :=
  (∀ (b : BoxId) (p : Port) (w : Word) (x : Nat × Nat) (rc : Nat) (s : State), boxPort b = some p → (boxOf s b).inbox = [(w, x)] →
    wordInc w = (boxOf s b).inc → s.mb.open_ = [] → s.mb.boxes.length = 5 →
    ∃ t, exec (.acknowledge b rc) s = .next t ∧ (boxOf t b).inbox = [] ∧ (boxOf t b).rc = rc ∧
      (boxOf t b).tag = bitsOf w 44 16 ∧ (boxOf t b).ack = true ∧ t.outs = s.outs ++ [.vector p 0]) ∧
  (∀ (b : BoxId) (snd : Sender) (w : Word) (s : State), snd.box? = some b → (boxOf s b).inbox = [] → s.mb.boxes.length = 5 →
    ∃ t, exec (.mbxPost snd w) s = .next t ∧ (boxOf t b).ack = false ∧
      (boxOf t b).inbox.length = 1)

/-- R479: OPEN with a packet of the writer open, or with all 64 stages occupied, leaves the drawer as it is and sets
DRW_OVERRUN; a payload word written with all stages occupied is not stored, and the open packet is closed with ERR set
in its length word; CLOSE without an open packet changes nothing. -/
def Obligations.DrawerOverruns : Prop :=
  (∀ (snd : Sender) (b : BoxId) (s : State), snd.box? = some b → s.mb.boxes.length = 5 →
    drwOpen (boxOf s b).inDrw = true ∨ 64 ≤ (boxOf s b).inDrw.length →
    ∃ t, exec (.drawerOpen snd) s = .next t ∧ (boxOf t b).inDrw = (boxOf s b).inDrw ∧ (boxOf t b).drwOverrun = true) ∧
  (∀ (snd : Sender) (b : BoxId) (w : Word) (s : State), snd.box? = some b → s.mb.boxes.length = 5 →
    64 ≤ (boxOf s b).inDrw.length →
    ∃ t, exec (.drawerWrite snd w) s = .next t ∧ (boxOf t b).inDrw.length = (boxOf s b).inDrw.length ∧
      (∀ (i : Nat) (x : Stage), (boxOf s b).inDrw[i]? = some x → x ≠ Stage.reserved → (boxOf t b).inDrw[i]? = some x) ∧
      (∀ i : Nat, (boxOf s b).inDrw[i]? = some Stage.reserved → ∃ l, (boxOf t b).inDrw[i]? = some (Stage.length l) ∧ bitOf l 6 = true)) ∧
  (∀ (snd : Sender) (b : BoxId) (s : State), snd.box? = some b → s.mb.boxes.length = 5 →
    drwOpen (boxOf s b).inDrw = false → exec (.drawerClose snd) s = .next s)

/-- The LPDDR6 rows complete as chapter 09 says: a due refresh of an existing bank outside self-refresh is postponed
by one interval while reads of hosts (for their lines or for their map entries) wait in its queue and fewer than 8 are
postponed, and else marks the bank (R304); a marked bank with no read in progress, whose partner bank does not
refresh, starts its refresh (its length is the model's choice of log 25) and uses up one postponed interval (R303,
R304); a called-for retraining is noted and starts unless another channel is being retrained (R306); a retraining
keeps the temperature and time of the training and clears the count of corrections (R306); a rank with no request and
no write queued enters power-down unless PD_TIMER is 0 (R308). Each changes nothing but the named bank or channel. -/
def Obligations.Lpddr6Upkeep : Prop :=
  (∀ (ch rank bank : Nat) (s : State),
      s.dram.selfRef = false →
      ch < 16 →
      rank < 2 →
      bank < 16 →
      hostReads s (bankKey ch rank bank) = true →
      (bankAt s (bankKey ch rank bank)).postponed < 8 →
      exec (.bankRefreshDue ch rank bank) s =
        .next (putBank (bankKey ch rank bank) { bankAt s (bankKey ch rank bank) with postponed := (bankAt s (bankKey ch rank bank)).postponed + 1 } s)) ∧
  (∀ (ch rank bank : Nat) (s : State),
      s.dram.selfRef = false →
      ch < 16 →
      rank < 2 →
      bank < 16 →
      hostReads s (bankKey ch rank bank) = false ∨ (bankAt s (bankKey ch rank bank)).postponed = 8 →
      exec (.bankRefreshDue ch rank bank) s =
        .next (putBank (bankKey ch rank bank) { bankAt s (bankKey ch rank bank) with marked := true } s)) ∧
  (∀ (ch rank bank : Nat) (s : State),
      (bankAt s (bankKey ch rank bank)).marked = true →
      (bankAt s (bankKey ch rank bank)).busyTo = none →
      bankReads s (bankKey ch rank bank) = false →
      partnerBusy s ch rank bank = false →
      exec (.bankRefreshStart ch rank bank) s =
        .next (putBank (bankKey ch rank bank) { bankAt s (bankKey ch rank bank) with busyTo := some (s.now + refreshCycles), postponed := (bankAt s (bankKey ch rank bank)).postponed - 1 } s)) ∧
  (∀ (ch : Nat) (s : State),
      s.dram.selfRef = false →
      ch < 16 →
      retrainCalled s ch = true →
      exec (.dqsTrack ch) s =
        .next (putChan ch { chanAt s ch with retrain := true, training := !anyTraining s || (chanAt s ch).training } s)) ∧
  (∀ (ch : Nat) (s : State),
      ch < 16 →
      (chanAt s ch).retrain = true →
      anyTraining s = false ∨ (chanAt s ch).training = true →
      exec (.channelRetrain ch) s =
        .next (putChan ch { chanAt s ch with training := false, retrain := false, corr := [], trainT := chanTemp s ch, trainAt := s.now } s)) ∧
  (∀ (ch rank : Nat) (s : State),
      s.dram.pdTimer ≠ 0 →
      ch < 16 →
      rank < 2 →
      s.dram.selfRef = false →
      rankIdle s ch rank = true →
      (chanAt s ch).down.contains rank = false →
      exec (.rankPowerDown ch rank) s =
        .next (putChan ch { chanAt s ch with down := rank :: (chanAt s ch).down } s))

/-- With VAUX applied, the instructions that drive lands act in scan power, entered from Standby with VIN qualified
(SCAN_ENTRIES counted at the entry), and act as BYPASS, which ends scan power, in any other state (R586);
SAMPLE/PRELOAD, IDCODE, BYPASS, TRST_N and a private instruction act in every state and end scan power (R586); IDCODE
answers 0x27404A3D; a private instruction is BYPASS unless the TAP is unlocked and its code lies in 0x80 to 0xFE
(R588); an authentic unlock opens them once PREPARE_RETURN has completed (R588). Captured values and the register of
an open private instruction are free (log 6). -/
def Obligations.BoundaryScan : Prop :=
  (∀ (s : State),
      scanMay s = true →
      exec .extest s = .next (captureBoundary .extest (enterScan s))) ∧
  (∀ (s : State),
      scanMay s = true →
      exec .extestPulse s = .next (captureBoundary .extestPulse (enterScan s))) ∧
  (∀ (s : State),
      scanMay s = true →
      exec .extestTrain s = .next (captureBoundary .extestTrain (enterScan s))) ∧
  (∀ (s : State),
      scanMay s = true →
      exec .tapClamp s = .next (select .clamp 0 0 (enterScan s))) ∧
  (∀ (s : State),
      scanMay s = true →
      exec .highz s = .next (select .highz 0 0 (enterScan s))) ∧
  (∀ (c : Instr) (s : State),
      c ∈ [Instr.extest, .extestPulse, .extestTrain, .tapClamp, .highz] →
      tapRuns s = true →
      scanMay s = false →
      exec c s = .next (select .bypass 0 0 (endScan s))) ∧
  (∀ (s : State),
      tapRuns s = true →
      exec .samplePreload s = .next (captureBoundary .samplePreload (endScan s))) ∧
  (∀ (s : State),
      tapRuns s = true →
      exec .idcode s = .next (select .idcode 1 0x27404A3D (endScan s))) ∧
  (∀ (s : State),
      tapRuns s = true →
      exec .bypass s = .next (select .bypass 0 0 (endScan s))) ∧
  (∀ (s : State),
      tapRuns s = true →
      exec .trstAssert s = .next (select .idcode 1 0x27404A3D (endScan s))) ∧
  (∀ (code : Nat) (s : State),
      tapRuns s = true →
      s.pw.unlocked = true →
      0x80 ≤ code →
      code ≤ 0xFE →
      exec (.privateInstruction code) s =
        .next (select (.privateCode code) 3 (Config.freeNat s.freeCtr) { s with freeCtr := s.freeCtr + 1 })) ∧
  (∀ (code : Nat) (s : State),
      tapRuns s = true →
      s.pw.unlocked = false ∨ code < 0x80 ∨ 0xFE < code →
      exec (.privateInstruction code) s = .next (select .bypass 0 0 (endScan s))) ∧
  (∀ (s : State),
      tapRuns s = true →
      s.pw.returnDone = true →
      exec (.returnUnlock true) s = .next { s with pw := { s.pw with unlocked := true } })

/-- A read of EVR_DATA_0 takes the snapshot of the record the sender's cursor names and answers its first word, one of
EVR_DATA_3 answers the last word and advances the cursor, each changing that sender's cursor only (R574, R608);
waiting events are written one after another while the recorder may write (R572); a freeze other than that of
PREPARE_RETURN ends (R575). -/
def Obligations.RecorderRows : Prop :=
  (∀ (snd : Sender) (s : State),
      exec (.evrSnapshot snd) s =
        .next (emit (.regData snd (nthD (snapshotOf s (nthD s.evr.cursors snd.ix {})).data 0 0)) { s with evr := { s.evr with cursors := setNth s.evr.cursors snd.ix (snapshotOf s (nthD s.evr.cursors snd.ix {})) } })) ∧
  (∀ (snd : Sender) (s : State),
      exec (.evrAdvance snd) s =
        .next (emit (.regData snd (nthD (nthD s.evr.cursors snd.ix {}).data 3 0)) { s with evr := { s.evr with cursors := setNth s.evr.cursors snd.ix { nthD s.evr.cursors snd.ix {} with pos := ((nthD s.evr.cursors snd.ix {}).pos + 1) % 2 ^ 32 } } })) ∧
  (∀ (e : Event) (s : State),
      s.evr.queue = [e] →
      s.evr.frozen = false →
      newest s = none →
      recentCount s < 12 →
      exec .eventQueueDrain s = .next (writeRecord e { s with evr := { s.evr with queue := [] } })) ∧
  (∀ (s : State),
      s.evr.frozen = true →
      s.evr.frozenReturn = false →
      exec .freezeExpire s = .next { s with evr := { s.evr with frozen := false } })

/-- PROGRAM of a user page while no program of the sender waits starts in a free bank with the staged words and place
of that moment (R562, R565; the moment is the model's reading, log 15), waits for a busy bank, and sets OVERRUN while
a program of the sender waits or runs (R565); a page outside the user pages is a violation of the port (R564); the
last word programmed frees the bank (R562); a read of PST_RDATA of a user page answers the word with its status and
advances WORD modulo 64 (R562, R568); a write of PST_WDATA stages the word and advances BUF modulo 64 (R568); sixty
seconds of operating time increment OP_MINUTES by one in the next cell (R567, R611). -/
def Obligations.ParameterStoreRows : Prop :=
  (∀ (snd : Sender) (count : Nat) (s : State),
      (pstPort snd s).job = none →
      userPage (pstPort snd s).page = true →
      s.pst.busy.contains ((pstPort snd s).page / 1024) = false →
      exec (.pstProgram snd count) s =
        .next { s with pst := { s.pst with ports := setNth s.pst.ports snd.ix { pstPort snd s with job := some ({ page := (pstPort snd s).page, word := (pstPort snd s).word, vals := stagedWords (pstPort snd s) (count % 64 + 1) }, true) } , busy := (pstPort snd s).page / 1024 :: s.pst.busy } }) ∧
  (∀ (snd : Sender) (count : Nat) (s : State),
      (pstPort snd s).job = none →
      userPage (pstPort snd s).page = true →
      s.pst.busy.contains ((pstPort snd s).page / 1024) = true →
      exec (.pstProgram snd count) s =
        .next { s with pst := { s.pst with ports := setNth s.pst.ports snd.ix { pstPort snd s with job := some ({ page := (pstPort snd s).page, word := (pstPort snd s).word, vals := stagedWords (pstPort snd s) (count % 64 + 1) }, false) } } }) ∧
  (∀ (snd : Sender) (count : Nat) (s : State),
      (pstPort snd s).job ≠ none →
      exec (.pstProgram snd count) s =
        .next { s with pst := { s.pst with ports := setNth s.pst.ports snd.ix { pstPort snd s with overrun := true } } }) ∧
  (∀ (snd : Sender) (count : Nat) (s : State),
      (pstPort snd s).job = none →
      userPage (pstPort snd s).page = false →
      exec (.pstProgram snd count) s = .next (noRight snd true 0xD020 s)) ∧
  (∀ (bank : Nat) (s : State),
      s.pst.busy.contains bank = true →
      s.pst.ports.all (fun p => p.job.all (fun x => x.2)) = true →
      exec (.pstWriteDone bank) s =
        .next { pstFinish bank s with pst := { (pstFinish bank s).pst with busy := (pstFinish bank s).pst.busy.erase bank } }) ∧
  (∀ (snd : Sender) (corrected : Bool) (s : State),
      userPage (pstPort snd s).page = true →
      exec (.pstRead snd corrected) s =
        .next (emit (.regData snd (BitVec.ofNat 64 (pstRdata s (pstPort snd s).page (pstPort snd s).word corrected))) { s with pst := { s.pst with ports := setNth s.pst.ports snd.ix { pstPort snd s with word := ((pstPort snd s).word + 1) % 64 } } })) ∧
  (∀ (snd : Sender) (word : BitVec 32) (s : State),
      exec (.pstWdataWrite snd word) s =
        .next { s with pst := { s.pst with ports := setNth s.pst.ports snd.ix { pstPort snd s with stage := Table.put (pstPort snd s).stage ((pstPort snd s).buf % 64) word , buf := ((pstPort snd s).buf + 1) % 64 } } }) ∧
  (∀ (s : State),
      2 ≤ modeOf s →
      exec .opMinuteTick s = .next (incCounter 1 s))

/-- A write of PMC_FREEZE by the holder of clamp 4 stops or restarts every counter, one without it is counted as a
violation of the port (R580, R4); a read of TRB_DATA_0 takes the snapshot of the trace record the sender's cursor
names, one of TRB_DATA_3 answers its last word and advances that cursor only (R584, R608). -/
def Obligations.CounterAndTraceRows : Prop :=
  (∀ (snd : Sender) (on : Bool) (s : State),
      exec (.pmcFreeze snd on) s =
        .next (if holds snd 4 s then { s with pmc := { s.pmc with freeze := on } } else noRight snd true 0xA008 s)) ∧
  (∀ (snd : Sender) (s : State),
      exec (.trbSnapshot snd) s =
        .next (emit (.regData snd (nthD (trbSnapshotOf s snd (nthD s.trb.cursors snd.ix {})).data 0 0)) { s with trb := { s.trb with cursors := setNth s.trb.cursors snd.ix (trbSnapshotOf s snd (nthD s.trb.cursors snd.ix {})) } })) ∧
  (∀ (snd : Sender) (s : State),
      exec (.trbAdvance snd) s =
        .next (emit (.regData snd (nthD (nthD s.trb.cursors snd.ix {}).data 3 0)) { s with trb := { s.trb with cursors := setNth s.trb.cursors snd.ix { nthD s.trb.cursors snd.ix {} with pos := ((nthD s.trb.cursors snd.ix {}).pos + 1) % 2 ^ 32 } } }))

/-- A message of the command, ready at the head of its sender's inbox and passed by the checks of Table 15-5 (written
out in the gate: opcode, argument bits, payload words, Fabric, clamp), is counted, has the effect said here and is
acknowledged with RC 0 (R470 to R473, R482); nothing else changes. NOP has no effect. IDENTIFY and GET_MODE put their
words into the outbound drawer of a sender that has one (the order of IDENTIFY's words is the model's reading, log
10). REQ_MODE in service requests Active (4), Doze (5) or Deep Idle (6), and any other code is INVALID. SHUTDOWN in
service is acknowledged and enters Flush, with the restart its bit 0 asks for. -/
def Obligations.BcsDeviceRows : Prop :=
  (∀ (b : BoxId) (arg : Nat) (s : State),
      headReady s b 0x000 arg = true →
      gateRc { op := 0x000, fab := true } b arg s = none →
      exec (.nop b arg) s = .next (ackHead b 0 (taken s))) ∧
  (∀ (b : BoxId) (arg : Nat) (s : State),
      headReady s b 0x001 arg = true →
      gateRc { op := 0x001, fab := true } b arg s = none →
      b ≠ .fabric →
      exec (.identify b arg) s =
        .next (ackHead b 0 (reply b [Config.orderingCode 0, word 0xB0, Config.serial, word (fwVersion (taken s)), word s.sgl.cfg.node, word (2 ^ 42), word (s.portA.aperture * 2 ^ 28), word (s.portB.aperture * 2 ^ 28)] (taken s)))) ∧
  (∀ (b : BoxId) (arg : Nat) (s : State),
      headReady s b 0x002 arg = true →
      gateRc { op := 0x002, fab := true } b arg s = none →
      b ≠ .fabric →
      exec (.getMode b arg) s = .next (ackHead b 0 (reply b [devMode (taken s), devCond (taken s)] (taken s)))) ∧
  (∀ (b : BoxId) (arg : Nat) (s : State),
      headReady s b 0x010 arg = true →
      gateRc { op := 0x010, used := 0xF, clamp := some 0 } b arg s = none →
      s.pw.phase = .service →
      arg % 16 = 4 →
      exec (.reqMode b arg) s = .next (ackHead b 0 (request .active (taken s)))) ∧
  (∀ (b : BoxId) (arg : Nat) (s : State),
      headReady s b 0x010 arg = true →
      gateRc { op := 0x010, used := 0xF, clamp := some 0 } b arg s = none →
      s.pw.phase = .service →
      arg % 16 = 5 →
      exec (.reqMode b arg) s = .next (ackHead b 0 (request .doze (taken s)))) ∧
  (∀ (b : BoxId) (arg : Nat) (s : State),
      headReady s b 0x010 arg = true →
      gateRc { op := 0x010, used := 0xF, clamp := some 0 } b arg s = none →
      s.pw.phase = .service →
      arg % 16 = 6 →
      exec (.reqMode b arg) s = .next (ackHead b 0 (request .deepIdle (taken s)))) ∧
  (∀ (b : BoxId) (arg : Nat) (s : State),
      headReady s b 0x010 arg = true →
      gateRc { op := 0x010, used := 0xF, clamp := some 0 } b arg s = none →
      s.pw.phase = .service →
      arg % 16 < 4 ∨ 6 < arg % 16 →
      exec (.reqMode b arg) s = .next (ackHead b 4 (taken s))) ∧
  (∀ (b : BoxId) (arg : Nat) (s : State),
      headReady s b 0x011 arg = true →
      gateRc { op := 0x011, used := 0x1, clamp := some 0 } b arg s = none →
      s.pw.phase = .service →
      exec (.shutdown b arg) s = .next (shutdownFlush (decide (arg % 2 = 1)) (ackHead b 0 (taken s))))

/-- A message of the command, ready at the head of its sender's inbox and passed by the checks of Table 15-5 (written
out in the gate: opcode, argument bits, payload words, Fabric, clamp), is counted, has the effect said here and is
acknowledged with RC 0 (R470 to R473, R482); nothing else changes. WIN_STAGE stages the window its seven payload words
give and WIN_REMOVE one with VALID = 0, both for the port of the sender or, from the sideband, the port its bit 6
names (R412); WIN_COMMIT of windows that meet R417 opens the command and commits, its acknowledgement following when
the back-invalidates are done (R418), and of others is CONFLICT; WIN_QUERY answers the window in force; SET_APERTURE
of 1 to 2^24 units is kept for the port's next reset (R402), any other size is INVALID. -/
def Obligations.BcsWindowRows : Prop :=
  (∀ (b : BoxId) (arg : Nat) (ws : List Word) (s t : State),
      headReady s b 0x100 arg = true →
      gateRc { winGate 0x100 b arg 0x3F 6 with pay := some (7, 7) } b arg s = none →
      takePayload b arg 7 7 (taken s) = (some ws, t) →
      (windowOf ws).isSome = true →
      exec (.winStage b arg) s =
        .next (ackHead b 0 (stageWindow (targetPort b arg 6) (arg % 64) ((windowOf ws).getD noWindow) t))) ∧
  (∀ (b : BoxId) (arg : Nat) (s : State),
      headReady s b 0x101 arg = true →
      gateRc (winGate 0x101 b arg 0x3F 6) b arg s = none →
      exec (.winRemove b arg) s =
        .next (ackHead b 0 (stageWindow (targetPort b arg 6) (arg % 64) noWindow (taken s)))) ∧
  (∀ (b : BoxId) (arg : Nat) (s : State),
      headReady s b 0x102 arg = true →
      gateRc (winGate 0x102 b arg 0 6) b arg s = none →
      commitConflicts (s.port (targetPort b arg 6)) = false →
      exec (.winCommit b arg) s = .next (commitWindows (targetPort b arg 6) (openOp 0x102 b arg false (taken s)))) ∧
  (∀ (b : BoxId) (arg : Nat) (s : State),
      headReady s b 0x102 arg = true →
      gateRc (winGate 0x102 b arg 0 6) b arg s = none →
      commitConflicts (s.port (targetPort b arg 6)) = true →
      exec (.winCommit b arg) s = .next (ackHead b 5 (taken s))) ∧
  (∀ (b : BoxId) (arg : Nat) (s : State),
      headReady s b 0x103 arg = true →
      gateRc { op := 0x103, used := 0x3F + portBit b 6 } b arg s = none →
      (Table.get? (s.port (targetPort b arg 6)).windows (arg % 64)) = none →
      exec (.winQuery b arg) s = .next (ackHead b 0 (reply b (List.replicate 7 0) (taken s)))) ∧
  (∀ (b : BoxId) (arg : Nat) (w : Window) (s : State),
      headReady s b 0x103 arg = true →
      gateRc { op := 0x103, used := 0x3F + portBit b 6 } b arg s = none →
      (Table.get? (s.port (targetPort b arg 6)).windows (arg % 64)) = some w →
      exec (.winQuery b arg) s = .next (ackHead b 0 (reply b (windowWords w ++ kidWords w) (taken s)))) ∧
  (∀ (b : BoxId) (arg : Nat) (s : State),
      headReady s b 0x104 arg = true →
      gateRc (winGate 0x104 b arg 0x1FFFFFF 25) b arg s = none →
      1 ≤ arg % 2 ^ 25 →
      arg % 2 ^ 25 ≤ 2 ^ 24 →
      exec (.setAperture b arg) s =
        .next (ackHead b 0 ((taken s).setPort (targetPort b arg 25) { s.port (targetPort b arg 25) with apNext := arg % 2 ^ 25 }))) ∧
  (∀ (b : BoxId) (arg : Nat) (s : State),
      headReady s b 0x104 arg = true →
      gateRc (winGate 0x104 b arg 0x1FFFFFF 25) b arg s = none →
      arg % 2 ^ 25 = 0 ∨ 2 ^ 24 < arg % 2 ^ 25 →
      exec (.setAperture b arg) s = .next (ackHead b 4 (taken s)))

/-- A message of the command, ready at the head of its sender's inbox and passed by the checks of Table 15-5 (written
out in the gate: opcode, argument bits, payload words, Fabric, clamp), is counted, has the effect said here and is
acknowledged with RC 0 (R470 to R473, R482); nothing else changes. CLOSE_EPOCH in service or Flush raises a close with
the sender's target, from the Fabric sender without one (R250); SET_EPOCH_TIMER takes 50 to 10,000 ms for the next
opened epoch; MEASURE_HOLDUP, FORMAT, SANITIZE and SCAN_MEDIA are accepted in the background (RC 1, the command kept
open) and are BUSY (2) while one runs, CLOSE_EPOCH outside service and Flush and a FORMAT or SANITIZE outside service,
unless Replay has stopped, being NOT_READY (9); GET_LOSS, MEDIA_HEALTH and READ_REFTABLE answer their words;
SET_LEVEL_SPREAD takes 65,536 to 4,194,304. Values outside the ranges are INVALID. -/
def Obligations.BcsPersistenceRows : Prop :=
  (∀ (b : BoxId) (arg : Nat) (x : Sender) (s : State),
      headReady s b 0x300 arg = true →
      gateRc { op := 0x300, fab := true } b arg s = none →
      s.pw.phase = .service ∨ s.pw.phase = .flush →
      b.sender? = some x →
      exec (.closeEpoch b arg) s = .next (ackHead b 0 (closeRequest x (taken s)))) ∧
  (∀ (b : BoxId) (arg : Nat) (s : State),
      headReady s b 0x300 arg = true →
      gateRc { op := 0x300, fab := true } b arg s = none →
      s.pw.phase = .service ∨ s.pw.phase = .flush →
      b = .fabric →
      exec (.closeEpoch b arg) s = .next (ackHead b 0 (closeEpoch (taken s)))) ∧
  (∀ (b : BoxId) (arg : Nat) (s : State),
      headReady s b 0x301 arg = true →
      gateRc { op := 0x301, used := 0xFFFF, clamp := some 5 } b arg s = none →
      50 ≤ arg →
      arg ≤ 10000 →
      exec (.setEpochTimer b arg) s =
        .next (ackHead b 0 ({ taken s with per := { s.per with intervalNx := arg } }))) ∧
  (∀ (b : BoxId) (arg : Nat) (s : State),
      headReady s b 0x301 arg = true →
      gateRc { op := 0x301, used := 0xFFFF, clamp := some 5 } b arg s = none →
      arg < 50 ∨ 10000 < arg →
      exec (.setEpochTimer b arg) s = .next (ackHead b 4 (taken s))) ∧
  (∀ (b : BoxId) (arg : Nat) (s : State),
      headReady s b 0x302 arg = true →
      gateRc { op := 0x302, clamp := some 5 } b arg s = none →
      s.per.measuring = false →
      opOpen s 0x302 = false →
      exec (.measureHoldup b arg) s = .next (ackHead b 1 (openOp 0x302 b arg true (askMeasure (taken s))))) ∧
  (∀ (b : BoxId) (arg : Nat) (s : State),
      headReady s b 0x300 arg = true →
      gateRc { op := 0x300, fab := true } b arg s = none →
      s.pw.phase ≠ .service ∧ s.pw.phase ≠ .flush →
      exec (.closeEpoch b arg) s = .next (ackHead b 9 (taken s))) ∧
  (∀ (b : BoxId) (arg : Nat) (s : State),
      headReady s b 0x302 arg = true →
      gateRc { op := 0x302, clamp := some 5 } b arg s = none →
      s.per.measuring = true ∨ opOpen s 0x302 = true →
      exec (.measureHoldup b arg) s = .next (ackHead b 2 (taken s))) ∧
  (∀ (b : BoxId) (arg : Nat) (s : State),
      headReady s b 0x303 arg = true →
      gateRc { op := 0x303 } b arg s = none →
      exec (.getLoss b arg) s = .next (ackHead b 0 (reply b [epcLoss (taken s), epcLossEp (taken s)] (taken s)))) ∧
  (∀ (b : BoxId) (arg : Nat) (s : State),
      headReady s b 0x400 arg = true →
      gateRc { op := 0x400, fab := true } b arg s = none →
      b ≠ .fabric →
      exec (.mediaHealth b arg) s = .next (ackHead b 0 (reply b (medRegs (taken s)) (taken s)))) ∧
  (∀ (b : BoxId) (arg : Nat) (s : State),
      headReady s b 0x401 arg = true →
      gateRc { op := 0x401, used := 0x7FFFFF, clamp := some 6 } b arg s = none →
      65536 ≤ arg →
      arg ≤ 4194304 →
      exec (.setLevelSpread b arg) s = .next (ackHead b 0 ({ taken s with tr := { s.tr with spreadNx := arg } }))) ∧
  (∀ (b : BoxId) (arg : Nat) (s : State),
      headReady s b 0x401 arg = true →
      gateRc { op := 0x401, used := 0x7FFFFF, clamp := some 6 } b arg s = none →
      arg < 65536 ∨ 4194304 < arg →
      exec (.setLevelSpread b arg) s = .next (ackHead b 4 (taken s))) ∧
  (∀ (b : BoxId) (arg : Nat) (s : State),
      headReady s b 0x402 arg = true →
      gateRc { op := 0x402, used := 0x3F } b arg s = none →
      exec (.readReftable b arg) s =
        .next (ackHead b 0 (reply b ((List.range 60).map (fun w => tempWord (fun j => (Config.refTable (arg % 64) ((8 * w + j) / 15) ((8 * w + j) % 15)).toNat)) ++ [word (Config.refRevision (arg % 64)).toNat]) (taken s)))) ∧
  (∀ (b : BoxId) (arg : Nat) (s : State),
      headReady s b 0x403 arg = true →
      gateRc { op := 0x403, clamp := some 0 } b arg s = none →
      s.pw.phase = .service ∨ s.ck.failed = true →
      s.ck.formatting = false →
      s.sec.sanitize = 0 →
      exec (.format b arg) s =
        .next (ackHead b 1 (openOp 0x403 b arg true { taken s with ck := { s.ck with formatting := true } }))) ∧
  (∀ (b : BoxId) (arg : Nat) (s : State),
      headReady s b 0x404 arg = true →
      gateRc { op := 0x404, used := 0x1, clamp := some 0 } b arg s = none →
      s.pw.phase = .service ∨ s.ck.failed = true →
      s.ck.formatting = false →
      s.sec.sanitize = 0 →
      exec (.sanitize b arg) s =
        .next (ackHead b 1 (openOp 0x404 b arg true (startSanitize (arg % 2 + 1) (taken s))))) ∧
  (∀ (b : BoxId) (arg : Nat) (s : State),
      headReady s b 0x403 arg = true →
      gateRc { op := 0x403, clamp := some 0 } b arg s = none →
      (s.pw.phase = .service ∨ s.ck.failed = true) ∧ (s.ck.formatting = true ∨ s.sec.sanitize ≠ 0) →
      exec (.format b arg) s = .next (ackHead b 2 (taken s))) ∧
  (∀ (b : BoxId) (arg : Nat) (s : State),
      headReady s b 0x403 arg = true →
      gateRc { op := 0x403, clamp := some 0 } b arg s = none →
      s.pw.phase ≠ .service ∧ s.ck.failed = false →
      exec (.format b arg) s = .next (ackHead b 9 (taken s))) ∧
  (∀ (b : BoxId) (arg : Nat) (s : State),
      headReady s b 0x404 arg = true →
      gateRc { op := 0x404, used := 0x1, clamp := some 0 } b arg s = none →
      (s.pw.phase = .service ∨ s.ck.failed = true) ∧ (s.ck.formatting = true ∨ s.sec.sanitize ≠ 0) →
      exec (.sanitize b arg) s = .next (ackHead b 2 (taken s))) ∧
  (∀ (b : BoxId) (arg : Nat) (s : State),
      headReady s b 0x404 arg = true →
      gateRc { op := 0x404, used := 0x1, clamp := some 0 } b arg s = none →
      s.pw.phase ≠ .service ∧ s.ck.failed = false →
      exec (.sanitize b arg) s = .next (ackHead b 9 (taken s))) ∧
  (∀ (b : BoxId) (arg : Nat) (s : State),
      headReady s b 0x405 arg = true →
      gateRc { op := 0x405, clamp := some 6 } b arg s = none →
      s.prot.scanning = true →
      exec (.scanMedia b arg) s = .next (ackHead b 2 (taken s))) ∧
  (∀ (b : BoxId) (arg : Nat) (s : State),
      headReady s b 0x405 arg = true →
      gateRc { op := 0x405, clamp := some 6 } b arg s = none →
      s.prot.scanning = false →
      exec (.scanMedia b arg) s =
        .next (ackHead b 1 (openOp 0x405 b arg true { taken s with prot := { s.prot with scanning := true, progress := 0, passRows := [] } })))

/-- A message of the command, ready at the head of its sender's inbox and passed by the checks of Table 15-5 (written
out in the gate: opcode, argument bits, payload words, Fabric, clamp), is counted, has the effect said here and is
acknowledged with RC 0 (R470 to R473, R482); nothing else changes. SET_SLOTS takes 32 to 256 in steps of 8 (R101),
SET_PD_TIMER 0 to 200 (R308), SET_DRAM_RATE 0 to 2 from the next Boot (R289), SET_THERMAL the settings of its four
words where R540 allows them, SET_SUPERVISOR the comparator settings of its two words where R492 allows them, kept in
force and stored (R493); CLEAR_PSV_FAULT from the sideband clears the latched conditions, rail and block (R509). Other
values are INVALID. -/
def Obligations.BcsPowerRows : Prop :=
  (∀ (b : BoxId) (arg : Nat) (s : State),
      headReady s b 0x500 arg = true →
      gateRc { op := 0x500, used := 0x1FF, clamp := some 3 } b arg s = none →
      32 ≤ arg →
      arg ≤ 256 →
      arg % 8 = 0 →
      exec (.setSlots b arg) s = .next (ackHead b 0 ({ taken s with sched := { s.sched with nSlots := arg } }))) ∧
  (∀ (b : BoxId) (arg : Nat) (s : State),
      headReady s b 0x500 arg = true →
      gateRc { op := 0x500, used := 0x1FF, clamp := some 3 } b arg s = none →
      arg < 32 ∨ 256 < arg ∨ arg % 8 ≠ 0 →
      exec (.setSlots b arg) s = .next (ackHead b 4 (taken s))) ∧
  (∀ (b : BoxId) (arg : Nat) (s : State),
      headReady s b 0x501 arg = true →
      gateRc { op := 0x501, used := 0xFF, clamp := some 3 } b arg s = none →
      arg ≤ 200 →
      exec (.setPdTimer b arg) s = .next (ackHead b 0 ({ taken s with dram := { s.dram with pdTimer := arg } }))) ∧
  (∀ (b : BoxId) (arg : Nat) (s : State),
      headReady s b 0x501 arg = true →
      gateRc { op := 0x501, used := 0xFF, clamp := some 3 } b arg s = none →
      200 < arg →
      exec (.setPdTimer b arg) s = .next (ackHead b 4 (taken s))) ∧
  (∀ (b : BoxId) (arg : Nat) (s : State),
      headReady s b 0x502 arg = true →
      gateRc { op := 0x502, used := 0x3, clamp := some 3 } b arg s = none →
      arg ≠ 3 →
      exec (.setDramRate b arg) s = .next (ackHead b 0 ({ taken s with dram := { s.dram with rateNx := arg } }))) ∧
  (∀ (b : BoxId) (arg : Nat) (s : State),
      headReady s b 0x502 arg = true →
      gateRc { op := 0x502, used := 0x3, clamp := some 3 } b arg s = none →
      arg = 3 →
      exec (.setDramRate b arg) s = .next (ackHead b 4 (taken s))) ∧
  (∀ (b : BoxId) (arg : Nat) (ws : List Word) (s t : State),
      headReady s b 0x503 arg = true →
      gateRc { op := 0x503, pay := some (4, 4), clamp := some 2 } b arg s = none →
      takePayload b arg 4 4 (taken s) = (some ws, t) →
      thermalOk ws = true →
      exec (.setThermal b arg) s = .next (ackHead b 0 ({ t with thm := { t.thm with cfg := thermalOf ws } }))) ∧
  (∀ (b : BoxId) (arg : Nat) (ws : List Word) (s t : State),
      headReady s b 0x503 arg = true →
      gateRc { op := 0x503, pay := some (4, 4), clamp := some 2 } b arg s = none →
      takePayload b arg 4 4 (taken s) = (some ws, t) →
      thermalOk ws = false →
      exec (.setThermal b arg) s = .next (ackHead b 4 (t))) ∧
  (∀ (b : BoxId) (arg : Nat) (ws : List Word) (s t : State),
      headReady s b 0x504 arg = true →
      gateRc { op := 0x504, used := 0xF, pay := some (2, 2), clamp := some 3 } b arg s = none →
      takePayload b arg 2 2 (taken s) = (some ws, t) →
      supervisorBad (arg % 16) (nthD ws 0 0) (nthD ws 1 0) = false →
      exec (.setSupervisor b arg) s = .next (ackHead b 0 (setComparator (arg % 16) (nthD ws 0 0) (nthD ws 1 0) t))) ∧
  (∀ (b : BoxId) (arg : Nat) (ws : List Word) (s t : State),
      headReady s b 0x504 arg = true →
      gateRc { op := 0x504, used := 0xF, pay := some (2, 2), clamp := some 3 } b arg s = none →
      takePayload b arg 2 2 (taken s) = (some ws, t) →
      supervisorBad (arg % 16) (nthD ws 0 0) (nthD ws 1 0) = true →
      exec (.setSupervisor b arg) s = .next (ackHead b 4 (t))) ∧
  (∀ (b : BoxId) (arg : Nat) (s : State),
      headReady s b 0x505 arg = true →
      gateRc { op := 0x505, clamp := some 3 } b arg s = none →
      b = .sideband →
      exec (.clearPsvFault b arg) s =
        .next (ackHead b 0 ({ taken s with pw := { s.pw with faults := 0, faultRail := 0, block := false } })))

/-- A message of the command, ready at the head of its sender's inbox and passed by the checks of Table 15-5 (written
out in the gate: opcode, argument bits, payload words, Fabric, clamp), is counted, has the effect said here and is
acknowledged with RC 0 (R470 to R473, R482); nothing else changes. SET_NODE, SET_POOL, SET_TOPOLOGY and SET_ROSTER
change the pool settings of the next Boot (R385, R386), SET_TOPOLOGY only with ring sizes that R385 allows;
SET_HOLD_NS takes 0 to 200 (R346), SET_REMOTE_CACHE 0 to 16 GiB (R297), at most 2 with an LPDDR6 device lost and not
re-mirrored (R314), SET_GATHER 1 to 300 from the next ridge election (R391), SET_HOLD_LIMIT 1 to 60 from the next end
of Replay (R393); POOL_STATUS answers its words; MP_FORWARD to another member sends the payload word, stamped as the
Fabric sender's, and stays open (R468). Other values are INVALID. -/
def Obligations.BcsPoolRows : Prop :=
  (∀ (b : BoxId) (arg : Nat) (s : State),
      headReady s b 0x600 arg = true →
      gateRc { op := 0x600, used := 0x3FF, clamp := some 7 } b arg s = none →
      exec (.setNode b arg) s =
        .next (ackHead b 0 (setPoolNext (fun c => { c with node := arg % 1024, nodeSet := true }) (taken s)))) ∧
  (∀ (b : BoxId) (arg : Nat) (s : State),
      headReady s b 0x601 arg = true →
      gateRc { op := 0x601, used := 0x1FFFFFFFF, clamp := some 7 } b arg s = none →
      exec (.setPool b arg) s =
        .next (ackHead b 0 (setPoolNext (fun c => { c with pool := arg % 2 ^ 32, ridgeOk := decide (arg / 2 ^ 32 % 2 = 1) }) (taken s)))) ∧
  (∀ (b : BoxId) (arg : Nat) (s : State),
      headReady s b 0x602 arg = true →
      gateRc { op := 0x602, used := 0x7FFF, clamp := some 7 } b arg s = none →
      (ringSize (arg % 32) && ringSize (arg / 32 % 32) && ringSize (arg / 1024 % 32) && decide ((arg % 32) * (arg / 32 % 32) * (arg / 1024 % 32) ≤ 1024)) = true →
      exec (.setTopology b arg) s =
        .next (ackHead b 0 (setPoolNext (fun c => { c with kx := arg % 32, ky := arg / 32 % 32, kz := arg / 1024 % 32 }) (taken s)))) ∧
  (∀ (b : BoxId) (arg : Nat) (s : State),
      headReady s b 0x602 arg = true →
      gateRc { op := 0x602, used := 0x7FFF, clamp := some 7 } b arg s = none →
      (ringSize (arg % 32) && ringSize (arg / 32 % 32) && ringSize (arg / 1024 % 32) && decide ((arg % 32) * (arg / 32 % 32) * (arg / 1024 % 32) ≤ 1024)) = false →
      exec (.setTopology b arg) s = .next (ackHead b 4 (taken s))) ∧
  (∀ (b : BoxId) (arg : Nat) (ws : List Word) (s t : State),
      headReady s b 0x603 arg = true →
      gateRc { op := 0x603, pay := some (16, 16), clamp := some 7 } b arg s = none →
      takePayload b arg 16 16 (taken s) = (some ws, t) →
      exec (.setRoster b arg) s =
        .next (ackHead b 0 (setPoolNext (fun c => { c with roster := mapBits (ws.map (·.toNat)) }) t))) ∧
  (∀ (b : BoxId) (arg : Nat) (s : State),
      headReady s b 0x604 arg = true →
      gateRc { op := 0x604, used := 0xFF, clamp := some 7 } b arg s = none →
      arg ≤ 200 →
      exec (.setHoldNs b arg) s = .next (ackHead b 0 ({ taken s with coh := { s.coh with holdNs := arg } }))) ∧
  (∀ (b : BoxId) (arg : Nat) (s : State),
      headReady s b 0x604 arg = true →
      gateRc { op := 0x604, used := 0xFF, clamp := some 7 } b arg s = none →
      200 < arg →
      exec (.setHoldNs b arg) s = .next (ackHead b 4 (taken s))) ∧
  (∀ (b : BoxId) (arg : Nat) (s : State),
      headReady s b 0x605 arg = true →
      gateRc { op := 0x605, used := 0x1F, clamp := some 7 } b arg s = none →
      arg ≤ 16 →
      exec (.setRemoteCache b arg) s =
        .next (ackHead b 0 (resizeRemote (if s.prot.lostLpd = 0 || s.dram.remir.isSome then arg else min arg 2) (taken s)))) ∧
  (∀ (b : BoxId) (arg : Nat) (s : State),
      headReady s b 0x605 arg = true →
      gateRc { op := 0x605, used := 0x1F, clamp := some 7 } b arg s = none →
      16 < arg →
      exec (.setRemoteCache b arg) s = .next (ackHead b 4 (taken s))) ∧
  (∀ (b : BoxId) (arg : Nat) (s : State),
      headReady s b 0x606 arg = true →
      gateRc { op := 0x606, used := 0x1FF, clamp := some 7 } b arg s = none →
      1 ≤ arg →
      arg ≤ 300 →
      exec (.setGather b arg) s =
        .next (ackHead b 0 ({ taken s with sgl := { s.sgl with gather := (s.sgl.gather.1, arg) } }))) ∧
  (∀ (b : BoxId) (arg : Nat) (s : State),
      headReady s b 0x606 arg = true →
      gateRc { op := 0x606, used := 0x1FF, clamp := some 7 } b arg s = none →
      arg < 1 ∨ 300 < arg →
      exec (.setGather b arg) s = .next (ackHead b 4 (taken s))) ∧
  (∀ (b : BoxId) (arg : Nat) (s : State),
      headReady s b 0x607 arg = true →
      gateRc { op := 0x607, used := 0x3F, clamp := some 7 } b arg s = none →
      1 ≤ arg →
      arg ≤ 60 →
      exec (.setHoldLimit b arg) s =
        .next (ackHead b 0 ({ taken s with sgl := { s.sgl with holdLim := (s.sgl.holdLim.1, arg) } }))) ∧
  (∀ (b : BoxId) (arg : Nat) (s : State),
      headReady s b 0x607 arg = true →
      gateRc { op := 0x607, used := 0x3F, clamp := some 7 } b arg s = none →
      arg < 1 ∨ 60 < arg →
      exec (.setHoldLimit b arg) s = .next (ackHead b 4 (taken s))) ∧
  (∀ (b : BoxId) (arg : Nat) (s : State),
      headReady s b 0x608 arg = true →
      gateRc { op := 0x608, fab := true } b arg s = none →
      b ≠ .fabric →
      exec (.poolStatus b arg) s =
        .next (ackHead b 0 (reply b ([sglStatus (taken s), sglPool (taken s)] ++ mapWords s.sgl.members) (taken s)))) ∧
  (∀ (b : BoxId) (arg : Nat) (ws : List Word) (s t : State),
      headReady s b 0x610 arg = true →
      gateRc { op := 0x610, used := 0x3FF, pay := some (1, 1) } b arg s = none →
      takePayload b arg 1 1 (taken s) = (some ws, t) →
      present t (arg % 1024) = true →
      arg % 1024 ≠ me t →
      exec (.mpForward b arg) s =
        .next (sendMpmsg (arg % 1024) (stamp 3 t.mb.mpInc (nthD ws 0 0)) { openOp 0x610 b arg false t with mb := { (openOp 0x610 b arg false t).mb with forwards := t.mb.forwards ++ [(arg % 1024, b, wordTag (stamp 3 t.mb.mpInc (nthD ws 0 0)))] } }))

/-- A message of the command, ready at the head of its sender's inbox and passed by the checks of Table 15-5 (written
out in the gate: opcode, argument bits, payload words, Fabric, clamp), is counted, has the effect said here and is
acknowledged with RC 0 (R470 to R473, R482); nothing else changes. EVR_FREEZE with bit 0 set freezes the recorder,
with it clear ends the freeze and writes the waiting events (R575); PMC_CONFIG sets the eight counters of a set 0 to
16 from its words, clearing them where bit 0 of the first asks it (R578); TRB_CONFIG empties the trace buffer and
takes the settings of its word (R582). A set above 16, a reserved bit or an event or qualifier the set lacks is
INVALID (that a counter that stays disabled may name event 0 is the model's reading, log 41). -/
def Obligations.BcsObserveRows : Prop :=
  (∀ (b : BoxId) (arg : Nat) (s : State),
      headReady s b 0x700 arg = true →
      gateRc { op := 0x700, used := 0x1, clamp := some 4 } b arg s = none →
      arg % 2 = 1 →
      exec (.evrFreeze b arg) s = .next (ackHead b 0 ({ taken s with evr := { s.evr with frozen := true } }))) ∧
  (∀ (b : BoxId) (arg : Nat) (s : State),
      headReady s b 0x700 arg = true →
      gateRc { op := 0x700, used := 0x1, clamp := some 4 } b arg s = none →
      arg % 2 = 0 →
      exec (.evrFreeze b arg) s =
        .next (ackHead b 0 (drainUpTo 64 { taken s with evr := { s.evr with frozen := false } }))) ∧
  (∀ (b : BoxId) (arg : Nat) (ws : List Word) (s t : State),
      headReady s b 0x701 arg = true →
      gateRc { op := 0x701, used := 0x1F, pay := some (9, 9), clamp := some 4 } b arg s = none →
      takePayload b arg 9 9 (taken s) = (some ws, t) →
      arg % 32 ≤ 16 →
      bitsOf (nthD ws 0 0) 1 63 = 0 →
      (ws.drop 1).any (counterBad (arg % 32)) = false →
      exec (.pmcConfig b arg) s =
        .next (ackHead b 0 ({ t with pmc := { t.pmc with sets := Table.put t.pmc.sets (arg % 32) { cycles := if bitOf (nthD ws 0 0) 0 then t.pmc.cyc else (Table.getD t.pmc.sets (arg % 32) {}).cycles, counters := (List.range 8).map (fun i => configured (nthD (Table.getD t.pmc.sets (arg % 32) {}).counters i {}) (nthD ws (i + 1) 0) (bitOf (nthD ws 0 0) 0)) } } }))) ∧
  (∀ (b : BoxId) (arg : Nat) (ws : List Word) (s t : State),
      headReady s b 0x701 arg = true →
      gateRc { op := 0x701, used := 0x1F, pay := some (9, 9), clamp := some 4 } b arg s = none →
      takePayload b arg 9 9 (taken s) = (some ws, t) →
      16 < arg % 32 ∨ bitsOf (nthD ws 0 0) 1 63 ≠ 0 ∨ (ws.drop 1).any (counterBad (arg % 32)) = true →
      exec (.pmcConfig b arg) s = .next (ackHead b 4 (t))) ∧
  (∀ (b : BoxId) (arg : Nat) (ws : List Word) (s t : State),
      headReady s b 0x702 arg = true →
      gateRc { op := 0x702, pay := some (1, 1), clamp := some 4 } b arg s = none →
      takePayload b arg 1 1 (taken s) = (some ws, t) →
      bitsOf (nthD ws 0 0) 42 22 = 0 →
      exec (.trbConfig b arg) s =
        .next (ackHead b 0 ({ t with trb := { t.trb with recs := [], count := 0, seen := 0, marks := [], mode := bitsOf (nthD ws 0 0) 0 2, stop := bitOf (nthD ws 0 0) 2, ports := bitsOf (nthD ws 0 0) 3 2, n := bitsOf (nthD ws 0 0) 5 20 + 1, thresh := bitsOf (nthD ws 0 0) 25 16, irq := bitOf (nthD ws 0 0) 41 } }))) ∧
  (∀ (b : BoxId) (arg : Nat) (ws : List Word) (s t : State),
      headReady s b 0x702 arg = true →
      gateRc { op := 0x702, pay := some (1, 1), clamp := some 4 } b arg s = none →
      takePayload b arg 1 1 (taken s) = (some ws, t) →
      bitsOf (nthD ws 0 0) 42 22 ≠ 0 →
      exec (.trbConfig b arg) s = .next (ackHead b 4 (t)))

/-- A message of the command, ready at the head of its sender's inbox and passed by the checks of Table 15-5 (written
out in the gate: opcode, argument bits, payload words, Fabric, clamp), is counted, has the effect said here and is
acknowledged with RC 0 (R470 to R473, R482); nothing else changes. FW_BEGIN of 1 to 4,096 units opens a transfer into
the slot, BUSY where it is active or being checked (R484); FW_DATA writes its words into the open transfer, FW_END
begins its check in the background (RC 1), FW_ACTIVATE of a valid slot switches at the next Boot or, online, restarts
Belvy from it and stays open (R485); FW_INFO answers its words (their order is the model's reading, log 10). What is
INVALID among FW_DATA, FW_END and FW_ACTIVATE is the model's choice (log 42). -/
def Obligations.BcsFirmwareRows : Prop :=
  (∀ (b : BoxId) (arg : Nat) (s : State),
      headReady s b 0x800 arg = true →
      gateRc { op := 0x800, used := 0xFFFF, clamp := some 0 } b arg s = none →
      1 ≤ arg / 2 % 2 ^ 15 →
      arg / 2 % 2 ^ 15 ≤ 4096 →
      arg % 2 ≠ s.mb.active →
      (slotAt s (arg % 2)).state ≠ 2 →
      exec (.fwBegin b arg) s =
        .next (ackHead b 0 (setSlot (arg % 2) { state := 1, size := arg / 2 % 2 ^ 15 } (taken s)))) ∧
  (∀ (b : BoxId) (arg : Nat) (s : State),
      headReady s b 0x800 arg = true →
      gateRc { op := 0x800, used := 0xFFFF, clamp := some 0 } b arg s = none →
      1 ≤ arg / 2 % 2 ^ 15 →
      arg / 2 % 2 ^ 15 ≤ 4096 →
      arg % 2 = s.mb.active →
      exec (.fwBegin b arg) s = .next (ackHead b 2 (taken s))) ∧
  (∀ (b : BoxId) (arg n : Nat) (ws : List Word) (s t : State),
      headReady s b 0x801 arg = true →
      gateRc { op := 0x801, used := 0xFFFFFFFF, pay := some (1, 63), clamp := some 0 } b arg s = none →
      takePayload b arg 1 63 (taken s) = (some ws, t) →
      openSlot t = some n →
      arg % 2 ^ 32 + ws.length ≤ (slotAt t n).size * 512 →
      exec (.fwData b arg) s =
        .next (ackHead b 0 (setSlot n { slotAt t n with image := ws.zipIdx.foldl (fun m w => Table.put m (arg % 2 ^ 32 + w.2) w.1) (slotAt t n).image } t))) ∧
  (∀ (b : BoxId) (arg n : Nat) (s : State),
      headReady s b 0x802 arg = true →
      gateRc { op := 0x802, clamp := some 0 } b arg s = none →
      openSlot s = some n →
      exec (.fwEnd b arg) s =
        .next (ackHead b 1 (openOp 0x802 b arg true (setSlot n { slotAt s n with state := 2 } (taken s))))) ∧
  (∀ (b : BoxId) (arg : Nat) (s : State),
      headReady s b 0x803 arg = true →
      gateRc { op := 0x803, used := 0x3, clamp := some 0 } b arg s = none →
      (slotAt s arg).state = 3 →
      arg / 2 % 2 = 0 →
      exec (.fwActivate b arg) s = .next (ackHead b 0 ({ taken s with mb := { s.mb with nextSlot := arg % 2 } }))) ∧
  (∀ (b : BoxId) (arg : Nat) (s : State),
      headReady s b 0x803 arg = true →
      gateRc { op := 0x803, used := 0x3, clamp := some 0 } b arg s = none →
      (slotAt s arg).state = 3 →
      arg / 2 % 2 = 1 →
      exec (.fwActivate b arg) s = .next (fwSwitch (arg % 2) true (openOp 0x803 b arg false (taken s)))) ∧
  (∀ (b : BoxId) (arg : Nat) (s : State),
      headReady s b 0x804 arg = true →
      gateRc { op := 0x804, fab := true } b arg s = none →
      b ≠ .fabric →
      exec (.fwInfo b arg) s =
        .next (ackHead b 0 (reply b [word (slotAt s 0).version, word (slotAt s 0).secVersion, word (slotAt s 0).state, word (slotAt s 1).version, word (slotAt s 1).secVersion, word (slotAt s 1).state] (taken s))))

/-- A message of the command, ready at the head of its sender's inbox and passed by the checks of Table 15-5 (written
out in the gate: opcode, argument bits, payload words, Fabric, clamp), is counted, has the effect said here and is
acknowledged with RC 0 (R470 to R473, R482); nothing else changes. The five meter reads stay open and join the
requests relayed to the partition (R482); a METER_NOTE of the partition is recorded as an event and acknowledged
(R544); PREPARE_RETURN freezes the recorder for good, writes the capture and retires every key ID, its acknowledgement
following when they have retired (R486); DIAG_SNAPSHOT answers the words of a snapshot held, and is INVALID for one
that is not (R507). -/
def Obligations.BcsMeterAndReturnRows : Prop :=
  (∀ (b : BoxId) (arg : Nat) (s : State),
      headReady s b 0x900 arg = true →
      gateRc { op := 0x900, used := 0x1FFF } b arg s = none →
      exec (.meterRecord b arg) s =
        .next ({ openOp 0x900 b arg false (taken s) with mb := { (openOp 0x900 b arg false (taken s)).mb with relays := s.mb.relays ++ [(0x900, arg, b)] } })) ∧
  (∀ (b : BoxId) (arg : Nat) (s : State),
      headReady s b 0x901 arg = true →
      gateRc { op := 0x901, used := 0x7FFFF } b arg s = none →
      exec (.meterTenant b arg) s =
        .next ({ openOp 0x901 b arg false (taken s) with mb := { (openOp 0x901 b arg false (taken s)).mb with relays := s.mb.relays ++ [(0x901, arg, b)] } })) ∧
  (∀ (b : BoxId) (arg : Nat) (s : State),
      headReady s b 0x902 arg = true →
      gateRc { op := 0x902 } b arg s = none →
      exec (.meterId b arg) s =
        .next ({ openOp 0x902 b arg false (taken s) with mb := { (openOp 0x902 b arg false (taken s)).mb with relays := s.mb.relays ++ [(0x902, arg, b)] } })) ∧
  (∀ (b : BoxId) (arg : Nat) (s : State),
      headReady s b 0x903 arg = true →
      gateRc { op := 0x903 } b arg s = none →
      exec (.meterKey b arg) s =
        .next ({ openOp 0x903 b arg false (taken s) with mb := { (openOp 0x903 b arg false (taken s)).mb with relays := s.mb.relays ++ [(0x903, arg, b)] } })) ∧
  (∀ (b : BoxId) (arg : Nat) (s : State),
      headReady s b 0x904 arg = true →
      gateRc { op := 0x904 } b arg s = none →
      exec (.meterAudit b arg) s =
        .next ({ openOp 0x904 b arg false (taken s) with mb := { (openOp 0x904 b arg false (taken s)).mb with relays := s.mb.relays ++ [(0x904, arg, b)] } })) ∧
  (∀ (notice : Nat) (s : State),
      headReady s .meter 0x9F0 notice = true →
      exec (.meterNote notice) s =
        .next (ackHead .meter 0 (event (if notice % 65536 = 2 then .meterFeedGap else .meterNotice) 11 [notice % 65536] (taken s)))) ∧
  (∀ (b : BoxId) (arg : Nat) (s : State),
      headReady s b 0xF00 arg = true →
      gateRc { op := 0xF00, clamp := some 0 } b arg s = none →
      exec (.prepareReturn b arg) s =
        .next (returnCheck (retireAll (openOp 0xF00 b arg false { taken s with evr := { s.evr with frozen := true, frozenReturn := true }, pst := { s.pst with capture := captureWords { taken s with evr := { s.evr with frozen := true, frozenReturn := true } } } })))) ∧
  (∀ (b : BoxId) (arg : Nat) (s : State),
      headReady s b 0xF01 arg = true →
      gateRc { op := 0xF01, used := 0xF } b arg s = none →
      s.pw.snaps[arg % 16]? = none →
      exec (.diagSnapshot b arg) s = .next (ackHead b 4 (taken s))) ∧
  (∀ (b : BoxId) (arg : Nat) (x : Snapshot) (s : State),
      headReady s b 0xF01 arg = true →
      gateRc { op := 0xF01, used := 0xF } b arg s = none →
      s.pw.snaps[arg % 16]? = some x →
      exec (.diagSnapshot b arg) s = .next (ackHead b 0 (reply b (snapWords x) (taken s))))

/-- A word written to a free MBX_IN is stamped with the sender and its incarnation and waits there, with ACK cleared;
one written while IN_FULL is set is ignored and sets OVERRUN (R468, R469, R471). An outbox word that waits is posted
when OUT_FULL is clear, with vector 1 to a port (R473); a write of 1 to OUT_FULL frees the outbox (R473). OPEN starts
a packet unless one is open or no stage is left, which sets DRW_OVERRUN (R477, R479; that no other operation sets it
is the model's reading, log 86); CLOSE writes the packet's length word; POP drops the oldest readable word of the
outbound drawer (R478); a payload word joins the open packet, and one beyond the last stage closes it with ERR (R479).
Each changes the sender's own boxes only. A message that waits for its acknowledgement is acknowledged with the return
code (R471, R472). -/
def Obligations.MailboxRows : Prop :=
  (∀ (snd : Sender) (b : BoxId) (word : Word) (s : State),
      snd.box? = some b →
      (boxOf s b).inbox = [] →
      exec (.mbxPost snd word) s =
        .next (modBox b (fun x => { x with inbox := [(stamp b.ix x.inc word, 0, 0)], inWord := stamp b.ix x.inc word, ack := false }) s)) ∧
  (∀ (snd : Sender) (b : BoxId) (word : Word) (s : State),
      snd.box? = some b →
      (boxOf s b).inbox ≠ [] →
      exec (.mbxPost snd word) s = .next (modBox b (fun x => { x with overrun := true }) s)) ∧
  (∀ (snd : Sender) (b : BoxId) (s : State),
      snd.box? = some b →
      exec (.outboxFree snd) s = .next (modBox b (fun x => { x with outFull := false }) s)) ∧
  (∀ (snd : Sender) (b : BoxId) (s : State),
      snd.box? = some b →
      drwOpen (boxOf s b).inDrw = false →
      (boxOf s b).inDrw.length < 64 →
      exec (.drawerOpen snd) s = .next (modBox b (fun x => { x with inDrw := x.inDrw ++ [.reserved] }) s)) ∧
  (∀ (snd : Sender) (b : BoxId) (s : State),
      snd.box? = some b →
      drwOpen (boxOf s b).inDrw = true ∨ 64 ≤ (boxOf s b).inDrw.length →
      exec (.drawerOpen snd) s = .next (modBox b (fun x => { x with drwOverrun := true }) s)) ∧
  (∀ (snd : Sender) (b : BoxId) (s : State),
      snd.box? = some b →
      drwOpen (boxOf s b).inDrw = true →
      exec (.drawerClose snd) s = .next (modBox b (fun x => { x with inDrw := drwClose false x.inDrw }) s)) ∧
  (∀ (snd : Sender) (b : BoxId) (s : State),
      snd.box? = some b →
      0 < drwCount (boxOf s b).outDrw →
      exec (.drawerPop snd) s = .next (modBox b (fun x => { x with outDrw := x.outDrw.tail }) s)) ∧
  (∀ (snd : Sender) (b : BoxId) (word : Word) (s : State),
      snd.box? = some b →
      drwOpen (boxOf s b).inDrw = true →
      (boxOf s b).inDrw.length < 64 →
      exec (.drawerWrite snd word) s = .next (modBox b (fun x => { x with inDrw := x.inDrw ++ [.word word] }) s)) ∧
  (∀ (snd : Sender) (b : BoxId) (word : Word) (s : State),
      snd.box? = some b →
      64 ≤ (boxOf s b).inDrw.length →
      exec (.drawerWrite snd word) s = .next (modBox b (fun x => { x with inDrw := drwClose true x.inDrw }) s)) ∧
  (∀ (b : BoxId) (w : Word) (ws : List Word) (s : State),
      (boxOf s b).outQ = w :: ws →
      (boxOf s b).outFull = false →
      s.mb.mpReady = true →
      s.mb.open_.all (fun o => o.fin.isNone) = true →
      exec (.outboxPost b) s =
        .next (match boxPort b with | some p => emit (.vector p 1) (modBox b (fun x => { x with outFull := true, outWord := w, outQ := ws }) s) | none => modBox b (fun x => { x with outFull := true, outWord := w, outQ := ws }) s)) ∧
  (∀ (b : BoxId) (rc : Nat) (o : BgOp) (s : State),
      s.mb.open_ = [o] →
      o.box = b →
      o.accepted = false →
      exec (.acknowledge b rc) s = .next (ackHead b rc { s with mb := { s.mb with open_ := [] } })) ∧
  (∀ (b : BoxId) (rc : Nat) (s : State),
      s.mb.open_ = [] →
      exec (.acknowledge b rc) s = .next (ackHead b rc s)) ∧
  (∀ (i : Nat) (s : State),
      ((List.range 5).map (fun i => (s.mb.rot + i) % 5)).find? (fun i => mayTake s (BoxId.ofIx i)) = some i →
      exec .messageTake s = .next (takeFrom (BoxId.ofIx i) { s with mb := { s.mb with rot := (i + 1) % 5 } })) ∧
  (∀ (src inc : Nat) (word : Word) (s : State),
      bitsOf word 60 4 ≠ 15 →
      (boxOf s .fabric).inbox.length < 64 →
      exec (.mpMsg src inc word) s =
        .next (modBox .fabric (fun x => { x with inbox := x.inbox ++ [(stamp 3 inc word, src, 0)], inWord := if x.inbox.isEmpty then stamp 3 inc word else x.inWord }) { s with mb := { s.mb with fabInc := Table.put s.mb.fabInc src (inc % 16) } })) ∧
  (∀ (src inc : Nat) (word : Word) (s : State),
      bitsOf word 60 4 ≠ 15 →
      64 ≤ (boxOf s .fabric).inbox.length →
      exec (.mpMsg src inc word) s =
        .next (sendMsg { kind := .mgr, src := me s, dst := src, mcode := 8, payload := [BitVec.ofNat 64 2] } s))

/-- The check of an image received ends VALID, with its version and security version, where signature and size are
right and its security version is not below the minimum, and FW_END completes OK (R484); else the slot is INVALID, the
event and alarm 3 are raised and FW_END completes BAD_IMAGE (R484, R453). FORMAT and SANITIZE complete, when no
request or read is in progress, with what their rules lay down and OK to their command (R482, R465). -/
def Obligations.CompletionRows : Prop :=
  (∀ (version sec n : Nat) (s : State),
      checkSlot s = some n →
      s.mb.minSec ≤ sec →
      exec (.fwCheckDone true true version sec) s =
        .next (endOps 0x802 (fun _ => true) 0 { setSlot n { slotAt s n with state := 3, version := version % 2 ^ 32, secVersion := sec } s with cxlA := fwBgDone s.cxlA, cxlB := fwBgDone s.cxlB })) ∧
  (∀ (sig size : Bool) (version sec n : Nat) (s : State),
      checkSlot s = some n →
      sig = false ∨ size = false ∨ sec < s.mb.minSec →
      exec (.fwCheckDone sig size version sec) s =
        .next (endOps 0x802 (fun _ => true) 6 (alarm 3 (event .fwCheck 10 [n] { setSlot n { slotAt s n with state := 4, version := version % 2 ^ 32, secVersion := sec } s with cxlA := fwBgDone s.cxlA, cxlB := fwBgDone s.cxlB })))) ∧
  (∀ (s : State),
      s.ck.formatting = true →
      linesInUse s = false →
      exec .formatDone s = .next (endOps 0x403 (fun _ => true) 0 (formatAll s))) ∧
  (∀ (s : State),
      s.sec.sanitize ≠ 0 →
      linesInUse s = false →
      (endOps 0x404 (fun _ => true) 0 (sanitizeAll s)).cxlA.bg = none →
      (endOps 0x404 (fun _ => true) 0 (sanitizeAll s)).cxlB.bg = none →
      exec .sanitizeDone s = .next (endOps 0x404 (fun _ => true) 0 (sanitizeAll s)))

/-- In a session that R454 admits, with Belvy running, clamp 8 where the command needs it and an argument and payload
of the right form (keyCheck answers none; that ARG[43:38] must be the payload's length is the model's reading, log
47), KEY_INSTALL of an EMPTY key ID whose check value matches installs it (R455); KEY_QUERY answers the key ID's word
and changes nothing; KEY_RETIRE of an INSTALLED key ID and KEY_REKEY between two INSTALLED ones of the same mode, over
ranges of the device (their layout is the model's choice, log 31), start in the background (RC 1) when none is under
way (R455, R457, R459); TRUST_ADD and TRUST_REMOVE change one slot of the store their bit 0 names (R461), the sessions
of a removed key-management root losing it (the model's reading, log 32). A key command whose check fails is answered
with its return code and changes nothing else. A retirement completes once no request in progress and no line in the
write buffer uses the key ID and no rekey reads from it (R457, R459). -/
def Obligations.KeyRows : Prop :=
  (∀ (snd : Sender) (arg : Nat) (ws : List Word) (s : State),
      mpRuns s = true →
      snd ≠ .mp →
      keyCheck snd arg 13 true (ws ++ [(kcvOf (materialOf ws)).setWidth 64]) 9 9 (keySession s snd) s = none →
      ws.length = 8 →
      keyOf s (arg % 4096) = none →
      exec (.keyInstall snd arg (ws ++ [(kcvOf (materialOf ws)).setWidth 64])) s =
        .next (spdmReply snd 0x200 0 [] { s with sec := { s.sec with kids := Table.put s.sec.kids (arg % 4096) { st := .installed, integrity := decide (arg / 4096 % 2 = 1), material := materialOf ws, kcv := kcvOf (materialOf ws) } } })) ∧
  (∀ (snd : Sender) (arg : Nat) (payload : List Word) (k : KeySlot) (s : State),
      mpRuns s = true →
      snd ≠ .mp →
      keyCheck snd arg 13 true payload 9 9 (keySession s snd) s = none →
      keyOf s (arg % 4096) = some k →
      exec (.keyInstall snd arg payload) s = .next (spdmReply snd 0x200 5 [] s)) ∧
  (∀ (snd : Sender) (arg : Nat) (s : State),
      mpRuns s = true →
      snd ≠ .mp →
      keyCheck snd arg 12 false [] 0 0 (keySession s snd) s = none →
      exec (.keyQuery snd arg) s = .next (spdmReply snd 0x201 0 [keyWord s (arg % 4096)] s)) ∧
  (∀ (snd : Sender) (arg : Nat) (k : KeySlot) (s : State),
      mpRuns s = true →
      snd ≠ .mp →
      keyCheck snd arg 12 true [] 0 0 (keySession s snd) s = none →
      keyOf s (arg % 4096) = some k →
      k.st = .installed →
      exec (.keyRetire snd arg) s =
        .next (spdmReply snd 0x202 1 [] (openKeyOp snd 0x202 arg (retire (arg % 4096) (some (snd, tagOf s snd 0x202)) s)))) ∧
  (∀ (snd : Sender) (arg : Nat) (payload : List Word) (k t : KeySlot) (s : State),
      mpRuns s = true →
      snd ≠ .mp →
      keyCheck snd arg 24 true payload 1 16 (keySession s snd) s = none →
      keyOf s (arg % 4096) = some k →
      k.st = .installed →
      arg % 4096 ≠ arg / 4096 % 4096 →
      keyOf s (arg / 4096 % 4096) = some t →
      t.st = .installed →
      t.integrity = k.integrity →
      (payload.map rangeOf).all rangeOk = true →
      s.sec.rekey = none →
      exec (.keyRekey snd arg payload) s =
        .next (spdmReply snd 0x203 1 [] (openKeyOp snd 0x203 arg { setKeySt (arg % 4096) .rekeying (some (snd, tagOf s snd 0x203)) s with sec := { (setKeySt (arg % 4096) .rekeying (some (snd, tagOf s snd 0x203)) s).sec with rekey := some { source := arg % 4096, target := arg / 4096 % 4096, ranges := payload.map rangeOf }, rekeyReg := (arg % 4096, arg / 4096 % 4096, 0, 0) } }))) ∧
  (∀ (snd : Sender) (arg rc : Nat) (s : State),
      mpRuns s = true →
      snd ≠ .mp →
      keyCheck snd arg 12 false [] 0 0 (keySession s snd) s = some rc →
      exec (.keyQuery snd arg) s = .next (spdmReply snd 0x201 rc [] s)) ∧
  (∀ (snd : Sender) (arg : Nat) (payload : List Word) (s : State),
      mpRuns s = true →
      snd ≠ .mp →
      keyCheck snd arg 4 true payload 1 63 (keySession s snd || firstRoot s snd arg) s = none →
      arg % 2 = 0 →
      exec (.trustAdd snd arg payload) s =
        .next (spdmReply snd 0x204 0 [] (dropRoot (arg / 2 % 8) { s with sec := { s.sec with trustKm := Table.put s.sec.trustKm (arg / 2 % 8) payload } }))) ∧
  (∀ (snd : Sender) (arg : Nat) (payload : List Word) (s : State),
      mpRuns s = true →
      snd ≠ .mp →
      keyCheck snd arg 4 true payload 1 63 (keySession s snd || firstRoot s snd arg) s = none →
      arg % 2 = 1 →
      exec (.trustAdd snd arg payload) s =
        .next (spdmReply snd 0x204 0 [] { s with sec := { s.sec with trustPool := Table.put s.sec.trustPool (arg / 2 % 8) payload } })) ∧
  (∀ (snd : Sender) (arg : Nat) (s : State),
      mpRuns s = true →
      snd ≠ .mp →
      keyCheck snd arg 4 true [] 0 0 (keySession s snd) s = none →
      arg % 2 = 0 →
      exec (.trustRemove snd arg) s =
        .next (spdmReply snd 0x205 0 [] (dropRoot (arg / 2 % 8) { s with sec := { s.sec with trustKm := Table.del s.sec.trustKm (arg / 2 % 8) } }))) ∧
  (∀ (snd : Sender) (arg : Nat) (s : State),
      mpRuns s = true →
      snd ≠ .mp →
      keyCheck snd arg 4 true [] 0 0 (keySession s snd) s = none →
      arg % 2 = 1 →
      exec (.trustRemove snd arg) s =
        .next (spdmReply snd 0x205 0 [] { s with sec := { s.sec with trustPool := Table.del s.sec.trustPool (arg / 2 % 8) } })) ∧
  (∀ (kid : Nat) (k : KeySlot) (s : State),
      keyOf s kid = some k →
      k.st ≠ .installed →
      retiring s kid = false →
      s.sec.rekey.any (fun r => r.source == kid) = false →
      exec (.keyRetireDone kid) s =
        .next (returnCheck (endOps 0x203 (fun o => o.arg % 4096 == kid) 0 (endOps 0x202 (fun o => o.arg % 4096 == kid) 0 { invalidateKid kid s with sec := { (invalidateKid kid s).sec with kids := Table.del (invalidateKid kid s).sec.kids kid } })))) ∧
  (∀ (kid : Nat) (k : KeySlot) (s : State),
      keyOf s kid = some k →
      k.st = .installed ∨ retiring s kid = true ∨ s.sec.rekey.any (fun r => r.source == kid) = true →
      exec (.keyRetireDone kid) s = .next s) ∧
  (∀ (snd : Sender) (auth : Bool) (root : Nat) (s : State),
      snd ≠ .mp →
      exec (.securedSpdmSession snd true auth root) s =
        .next { s with sec := { s.sec with sessions := Table.put s.sec.sessions snd.ix ⟨auth, root⟩ } }) ∧
  (∀ (snd : Sender) (auth : Bool) (root : Nat) (s : State),
      snd ≠ .mp →
      exec (.securedSpdmSession snd false auth root) s =
        .next { s with sec := { s.sec with sessions := Table.del s.sec.sessions snd.ix } })

/-- The sequencer takes the next line of a segment's walk in service, while none of its writes in that segment is on
its way (R446); a walk whose end has been reached and whose last write's epoch has committed records the segment's
next generation, counts it and clears PIN on its pinned line (R448); the first queued walk starts when fewer than 16
run (R445); IDE_KM in a session of the port establishes or refreshes its stream's keys, clearing insecure (R460,
R463); a missed refresh of an established stream records a Warning and the port goes on (R460); an integrity failure
raises alarm 2 and its event, and the port is lost (R463). -/
def Obligations.ReencryptionRows : Prop :=
  (∀ (seg : Nat) (w : Walk) (s : State),
      s.pw.phase = .service →
      seqBusy s seg = false →
      s.sec.walks.find? (fun w => w.seg == seg && decide (w.pos < 2 ^ 24)) = some w →
      exec (.reencStep seg) s = .next (walkStep w s)) ∧
  (∀ (seg : Nat) (w : Walk) (s : State),
      s.sec.walks.find? (fun w => w.seg == seg) = some w →
      walkDone s w = true →
      exec (.reencDone seg) s =
        .next { s with sec := { s.sec with gens := Table.put s.sec.gens seg (w.gen + 1), walks := s.sec.walks.filter (fun x => x.seg != seg), reenc := (s.sec.reenc.1, (s.sec.reenc.2 + 1) % 2 ^ 32) }, cache := { s.cache with ways := s.cache.ways.map (fun x => if x.2.node = me s ∧ x.2.dla = w.pinned then (x.1, { x.2 with pin := false }) else x) } }) ∧
  (∀ (w : Walk) (ws : List Walk) (s : State),
      s.sec.queued = w :: ws →
      s.sec.walks.length < 16 →
      exec .reencQueueStart s =
        .next { s with sec := { s.sec with walks := s.sec.walks ++ [w], queued := ws, reenc := (w.seg, s.sec.reenc.2) } }) ∧
  (∀ (p : Port) (s : State),
      (Table.get? s.sec.sessions p.sender.ix).isSome = true →
      0 < (s.port p).width →
      exec (.ideKeyRefresh p) s = .next (s.setPort p { s.port p with ide := true, insecure := false })) ∧
  (∀ (p : Port) (s : State),
      (s.port p).ide = true →
      exec (.ideKeyExpire p) s = .next (event .ideNotRefreshed p.ix [p.ix] s)) ∧
  (∀ (p : Port) (s : State),
      (s.port p).ide = true →
      (s.port p).width ≠ 0 →
      exec (.ideIntegrityFailure p) s =
        .next (linkLost p (alarm 2 (event .ideIntegrity 10 [p.ix] (s.setPort p { s.port p with insecure := true })))))

/-- From the end of Boot (R407), each of these commands of a port's CXL mailbox is answered Success with what R430 and
R431 say it reports (words whose layout is the CXL standard's are free, log 10; return codes and the order of checks
are the model's, log 45), and changes only what it sets: the cleared event records, the interrupt policy, the RTC
(R570), the alert configuration, the shutdown state. Capacity is the aperture, all persistent (R402); Get Log and Get
Supported Logs give the Command Effects Log. -/
def Obligations.CxlInformationRows : Prop :=
  (∀ (p : Port) (s : State),
      cxlUp s = true →
      exec (.cxlIdentify p) s = .next (cxlAns p 0x0001 0 [Config.cxlWord 0x0001 0 [], Config.serial] s)) ∧
  (∀ (p : Port) (op : Nat) (done : Bool) (s : State),
      cxlUp s = true →
      (s.cxl p).bg = some (op, done) →
      exec (.cxlBackgroundStatus p) s = .next (cxlVals p 0x0002 1 [op, if done then 1 else 0] s)) ∧
  (∀ (p : Port) (s : State),
      cxlUp s = true →
      (s.cxl p).bg = none →
      exec (.cxlBackgroundStatus p) s = .next (cxlVals p 0x0002 1 [] s)) ∧
  (∀ (p : Port) (log : CxlLog) (s : State),
      cxlUp s = true →
      exec (.cxlGetEventRecords p log) s =
        .next (cxlAns p 0x0100 0 ((nthD (s.cxl p).logs (logIx log) []).flatMap (logWords s)) s)) ∧
  (∀ (p : Port) (log : CxlLog) (s : State),
      cxlUp s = true →
      exec (.cxlClearEventRecords p log []) s =
        .next (cxlAns p 0x0101 0 [] (s.setCxl p { s.cxl p with logs := setNth (s.cxl p).logs (logIx log) [] }))) ∧
  (∀ (p : Port) (log : CxlLog) (hs : List Nat) (s : State),
      cxlUp s = true →
      hs ≠ [] →
      hs.all (fun h => (nthD (s.cxl p).logs (logIx log) []).contains h) = true →
      exec (.cxlClearEventRecords p log hs) s =
        .next (cxlAns p 0x0101 0 [] (s.setCxl p { s.cxl p with logs := setNth (s.cxl p).logs (logIx log) ((nthD (s.cxl p).logs (logIx log) []).filter (fun x => !hs.contains x)) }))) ∧
  (∀ (p : Port) (log : CxlLog) (hs : List Nat) (s : State),
      cxlUp s = true →
      hs.all (fun h => (nthD (s.cxl p).logs (logIx log) []).contains h) = false →
      exec (.cxlClearEventRecords p log hs) s = .next (cxlAns p 0x0101 14 [] s)) ∧
  (∀ (p : Port) (s : State),
      cxlUp s = true →
      exec (.cxlGetEventIntPolicy p) s = .next (cxlVals p 0x0102 1 (s.cxl p).policy s)) ∧
  (∀ (p : Port) (policy : List Nat) (s : State),
      cxlUp s = true →
      policy.length = 4 →
      policy.all (fun v => decide (v < 256)) = true →
      exec (.cxlSetEventIntPolicy p policy) s =
        .next (cxlAns p 0x0103 0 [] (s.setCxl p { s.cxl p with policy := policy }))) ∧
  (∀ (p : Port) (s : State),
      cxlUp s = true →
      exec (.cxlGetFwInfo p) s =
        .next (cxlVals p 0x0200 10 [2, s.mb.active + 1, s.mb.nextSlot + 1, (slotAt s 0).state, (slotAt s 0).version, (slotAt s 1).state, (slotAt s 1).version] s)) ∧
  (∀ (p : Port) (s : State),
      cxlUp s = true →
      exec (.cxlGetTimestamp p) s = .next (cxlVals p 0x0300 1 [rtc s] s)) ∧
  (∀ (p : Port) (t : Nat) (s : State),
      cxlUp s = true →
      exec (.cxlSetTimestamp p t) s =
        .next (cxlAns p 0x0301 0 [] { s with evr := { s.evr with rtcBase := t % 2 ^ 32, rtcAt := s.now, rtcSet := true } })) ∧
  (∀ (p : Port) (s : State),
      cxlUp s = true →
      exec (.cxlGetSupportedLogs p) s = .next (cxlVals p 0x0400 3 [] s)) ∧
  (∀ (p : Port) (s : State),
      cxlUp s = true →
      exec (.cxlGetLog p) s = .next (cxlVals p 0x0401 30 [] s)) ∧
  (∀ (p : Port) (s : State),
      cxlUp s = true →
      exec (.cxlIdentifyMemoryDevice p) s =
        .next (cxlVals p 0x4000 9 [(s.port p).aperture, 0, (s.port p).aperture, 131072] s)) ∧
  (∀ (p : Port) (s : State),
      cxlUp s = true →
      exec (.cxlGetPartitionInfo p) s = .next (cxlAns p 0x4100 0 [0, word (s.port p).aperture, 0, 0] s)) ∧
  (∀ (p : Port) (s : State),
      cxlUp s = true →
      exec (.cxlGetHealthInfo p) s =
        .next (cxlVals p 0x4200 3 [lifeUsed s, degByte (nthD s.thm.temps (hotMedium s) 0), dirtyShutdowns s, if s.tr.readOnly then 1 else 0] s)) ∧
  (∀ (p : Port) (s : State),
      cxlUp s = true →
      exec (.cxlGetAlertConfig p) s = .next (cxlVals p 0x4201 2 (s.cxl p).alert s)) ∧
  (∀ (p : Port) (cfg : List Nat) (s : State),
      cxlUp s = true →
      exec (.cxlSetAlertConfig p cfg) s = .next (cxlAns p 0x4202 0 [] (s.setCxl p { s.cxl p with alert := cfg }))) ∧
  (∀ (p : Port) (s : State),
      cxlUp s = true →
      exec (.cxlGetShutdownState p) s = .next (cxlAns p 0x4203 0 [word (if (s.cxl p).dirty then 1 else 0)] s)) ∧
  (∀ (p : Port) (dirty : Bool) (s : State),
      cxlUp s = true →
      exec (.cxlSetShutdownState p dirty) s =
        .next (cxlAns p 0x4204 0 [] (s.setCxl p { s.cxl p with dirty := dirty }))) ∧
  (∀ (p : Port) (s : State),
      cxlUp s = true →
      exec (.cxlScanMediaCaps p) s = .next (cxlVals p 0x4303 1 [] s))

/-- While memory is served (R407, R464) and with the clamp the command needs (R421, R425): Transfer FW opens a slot,
takes data, ends and aborts a transfer (R484), Activate FW switches at the next Boot or restarts Belvy from the slot
and is answered then (R485); Get LSA answers the bytes of the label storage area's view and Set LSA writes them in the
open epoch, answered after its commit (R430); Get Poison List and Scan Media Results answer the poisoned lines of the
maps through the port's windows (R430); Inject Poison records the line of this node as poisoned and Clear Poison
writes it (R430); Scan Media, Sanitize and Secure Erase start in the background (R210, R464). Before memory is served
the memory commands answer Busy. Numbers and the order of checks are the model's (log 45). -/
def Obligations.CxlMemoryRows : Prop :=
  (∀ (p : Port) (slot off : Nat) (ws : List Word) (s : State),
      cxlUp s = true →
      holds p.sender 0 s = true →
      bgRuns p s = false →
      (openSlot s).isSome = true →
      exec (.cxlTransferFw p 4 slot off ws) s = .next (cxlAns p 0x0201 0 [] (setSlot ((openSlot s).getD 0) {} s))) ∧
  (∀ (p : Port) (slot off : Nat) (ws : List Word) (s : State),
      cxlUp s = true →
      holds p.sender 0 s = true →
      bgRuns p s = false →
      slot = 1 ∨ slot = 2 →
      (fwOpen (slot - 1) 4096 s).1 = 0 →
      exec (.cxlTransferFw p 1 slot off ws) s =
        .next (cxlAns p 0x0201 (cxlData off ws (fwOpen (slot - 1) 4096 s).2).1 [] (cxlData off ws (fwOpen (slot - 1) 4096 s).2).2)) ∧
  (∀ (p : Port) (slot off : Nat) (ws : List Word) (s : State),
      cxlUp s = true →
      holds p.sender 0 s = true →
      bgRuns p s = false →
      exec (.cxlTransferFw p 2 slot off ws) s =
        .next (cxlAns p 0x0201 (cxlData off ws s).1 [] (cxlData off ws s).2)) ∧
  (∀ (p : Port) (slot off : Nat) (ws : List Word) (s : State),
      cxlUp s = true →
      holds p.sender 0 s = true →
      bgRuns p s = false →
      exec (.cxlTransferFw p 3 slot off ws) s = .next (cxlEnd p off ws s)) ∧
  (∀ (p : Port) (slot : Nat) (s : State),
      cxlUp s = true →
      holds p.sender 0 s = true →
      slot = 1 ∨ slot = 2 →
      (slotAt s (slot - 1)).state = 3 →
      exec (.cxlActivateFw p slot false) s =
        .next (cxlAns p 0x0202 0 [] { s with mb := { s.mb with nextSlot := slot - 1 } })) ∧
  (∀ (p : Port) (slot : Nat) (s : State),
      cxlUp s = true →
      holds p.sender 0 s = true →
      slot = 1 ∨ slot = 2 →
      (slotAt s (slot - 1)).state = 3 →
      s.mb.fwRestart = none →
      s.mb.mpReady = true →
      exec (.cxlActivateFw p slot true) s =
        .next (fwSwitch (slot - 1) true (s.setCxl p { s.cxl p with actWait := true }))) ∧
  (∀ (p : Port) (off len : Nat) (s : State),
      cxlUp s = true →
      serving s = true →
      off + len ≤ 131072 →
      exec (.cxlGetLsa p off len) s =
        .next (cxlAns p 0x4102 0 (packBytes ((List.range len).map (fun i => Table.getD (lsaView (s.cxl p)) (off + i) 0))) s)) ∧
  (∀ (p : Port) (off : Nat) (bytes : List (BitVec 8)) (s : State),
      cxlUp s = true →
      serving s = true →
      off + bytes.length ≤ 131072 →
      exec (.cxlSetLsa p off bytes) s =
        .next ({ s.setCxl p { s.cxl p with lsaWait := (s.cxl p).lsaWait ++ [{ epoch := s.per.openEpoch, off := off, bytes := bytes, answer := true }] } with per := { s.per with openHolds := true } })) ∧
  (∀ (p : Port) (dpa len : Nat) (s : State),
      cxlUp s = true →
      serving s = true →
      exec (.cxlGetPoisonList p dpa len) s =
        .next (cxlAns p 0x4300 0 ((((poisonedLines s).dedup.flatMap (dpasOf s (s.port p))).filter (fun d => decide (dpa ≤ d) && decide (d < dpa + len) && decide (d < (s.port p).aperture * 2 ^ 28))).map word) s)) ∧
  (∀ (p : Port) (dpa : Nat) (d : Decoded) (s : State),
      cxlUp s = true →
      serving s = true →
      decodeDpa (s.port p) dpa = some d →
      d.wr = true →
      d.kvalid = true →
      keyServes s d.kid = true →
      plaNode d.pla = me s →
      exec (.cxlInjectPoison p dpa) s = .next (cxlAns p 0x4301 0 [] (poisonHome (plaDla d.pla) s))) ∧
  (∀ (p : Port) (dpa : Nat) (data : Line) (d : Decoded) (s : State),
      cxlUp s = true →
      serving s = true →
      decodeDpa (s.port p) dpa = some d →
      d.wr = true →
      d.kvalid = true →
      keyServes s d.kid = true →
      plaNode d.pla = me s →
      exec (.cxlClearPoison p dpa data) s = .next (localRequest (plaDla d.pla) (cxlWaiter p 0x4302 d data false) s)) ∧
  (∀ (p : Port) (s : State),
      cxlUp s = true →
      holds p.sender 6 s = true →
      serving s = true →
      s.prot.scanning = false →
      bgRuns p s = false →
      exec (.cxlScanMedia p) s =
        .next (cxlAns p 0x4304 1 [] { s.setCxl p { s.cxl p with bg := some (0x4304, false) } with prot := { s.prot with scanning := true, progress := 0, passRows := [] } })) ∧
  (∀ (p : Port) (s : State),
      cxlUp s = true →
      serving s = true →
      s.prot.scanning = false →
      exec (.cxlScanMediaResults p) s =
        .next (cxlAns p 0x4305 0 (((poisonedLines s).dedup.flatMap (dpasOf s (s.port p))).map word) s)) ∧
  (∀ (p : Port) (s : State),
      cxlUp s = true →
      holds p.sender 0 s = true →
      eraseBar s = none →
      bgRuns p s = false →
      exec (.cxlSanitize p) s =
        .next (cxlAns p 0x4400 1 [] (startSanitize 2 (s.setCxl p { s.cxl p with bg := some (0x4400, false) })))) ∧
  (∀ (p : Port) (s : State),
      cxlUp s = true →
      holds p.sender 0 s = true →
      eraseBar s = none →
      bgRuns p s = false →
      exec (.cxlSecureErase p) s =
        .next (cxlAns p 0x4401 1 [] (startSanitize 1 (s.setCxl p { s.cxl p with bg := some (0x4401, false) })))) ∧
  (∀ (p : Port) (off len : Nat) (s : State),
      cxlUp s = true →
      serving s = false →
      exec (.cxlGetLsa p off len) s = .next (cxlAns p 0x4102 6 [] s))

/-- A read of CLP_n gives a free clamp to the reader at or after the rotating pointer, which moves past it, and leaves
a held one (R422, R424); each reader sees OWNER, MINE and BROKEN as they stand then (R433); a read of the upper half
acquires nothing. REL from the holder frees the clamp with BROKEN clear and discards what it guarded, from another
sender it is a violation of its port; FORCE of a held clamp frees it with BROKEN set from the sideband, and is an
access without right from any other sender (R423). A reset of the sideband's bus advances its incarnation (R467,
R476). -/
def Obligations.ClampRows : Prop :=
  (∀ (n i : Nat) (readers : List Sender) (s : State),
      clampWinner (nthD s.mb.clamps n {}).ptr readers = some i →
      (nthD s.mb.clamps n {}).owner = 0 →
      exec (.clampRead n readers false) s =
        .next (readers.foldl (fun u r => emit (.regData r (clampView r n u)) u) (setClamp n { nthD s.mb.clamps n {} with owner := i + 1, ptr := (i + 1) % 4 } s))) ∧
  (∀ (n : Nat) (readers : List Sender) (s : State),
      (nthD s.mb.clamps n {}).owner ≠ 0 →
      exec (.clampRead n readers false) s =
        .next (readers.foldl (fun u r => emit (.regData r (clampView r n u)) u) s)) ∧
  (∀ (n : Nat) (readers : List Sender) (s : State),
      exec (.clampRead n readers true) s = .next (readers.foldl (fun u r => emit (.regData r 0) u) s)) ∧
  (∀ (snd : Sender) (n : Nat) (s : State),
      holds snd n s = true →
      exec (.clampRelease snd n) s =
        .next (discardStaged n (setClamp n { nthD s.mb.clamps n {} with owner := 0, broken := false } s))) ∧
  (∀ (snd : Sender) (n : Nat) (s : State),
      holds snd n s = false →
      exec (.clampRelease snd n) s = .next (noRight snd true (0x2000 + 8 * n) s)) ∧
  (∀ (n : Nat) (s : State),
      (nthD s.mb.clamps n {}).owner ≠ 0 →
      exec (.clampForce .sideband n) s =
        .next (discardStaged n (setClamp n { nthD s.mb.clamps n {} with owner := 0, broken := true } s))) ∧
  (∀ (snd : Sender) (n : Nat) (s : State),
      snd ≠ .sideband →
      exec (.clampForce snd n) s = .next (noRight snd true (0x2000 + 8 * n) s)) ∧
  (∀ (s : State),
      exec .sidebandBusReset s =
        .next (modBox .sideband (fun x => { x with inc := (x.inc + 1) % 16, ack := false, outFull := false, outQ := [], inDrw := [], outDrw := [] }) s))

/-- A port trains, from the end of Boot, at the widest passing set of lanes with its rate (R403, R404; of two halves
or quarters the lower, the model's choice, log 28), a width below ×16 being recorded; PERST brings the port down and
takes over the new aperture (R402, R406); the loss of a link that is up brings the port down with its event (R406); a
fault of a lane in use narrows the link (R404) and its requests wait (Table 06-6), and at ×4 the link is lost; an
outstanding back-invalidate ends with the host's answer (R335, R362), or after 40 µs without one (R348). -/
def Obligations.HostPortRows : Prop :=
  (∀ (p : Port) (lanes rate m w : Nat) (loflit : Bool) (s : State),
      s.pw.phase = .replay ∨ s.pw.phase = .service ∨ s.pw.phase = .flush →
      1 ≤ rate →
      rate ≤ 3 →
      bestLanes lanes = some (m, w) →
      exec (.hostLinkTrain p lanes rate loflit) s =
        .next (noteNarrow p (s.port p).width (s.setPort p { s.port p with width := w, rate := rate, loflit := loflit, faults := 0xFFFF - m, retrains := if (s.port p).width = 0 then (s.port p).retrains else satInc 8 (s.port p).retrains }))) ∧
  (∀ (p : Port) (s : State),
      exec (.perstAssert p) s =
        .next (event .perst p.ix [p.ix] ((portDown p s).setPort p { (portDown p s).port p with aperture := ((portDown p s).port p).apNext }))) ∧
  (∀ (p : Port) (s : State),
      (s.port p).width ≠ 0 →
      exec (.hostLinkLoss p) s = .next (event .hostLinkLost p.ix [p.ix] (portDown p s))) ∧
  (∀ (p : Port) (lane m w : Nat) (s : State),
      (s.port p).width ≠ 0 →
      lane < 16 →
      (s.port p).faults / 2 ^ lane % 2 ≠ 1 →
      withoutLane (s.port p) lane = some (m, w) →
      exec (.hostLaneFault p lane) s =
        .next (beginFault (.hostLane p) (noteNarrow p (s.port p).width (s.setPort p { s.port p with width := w, faults := 0xFFFF - m, retrains := satInc 8 (s.port p).retrains })))) ∧
  (∀ (p : Port) (lane : Nat) (s : State),
      (s.port p).width ≠ 0 →
      lane < 16 →
      (s.port p).faults / 2 ^ lane % 2 ≠ 1 →
      withoutLane (s.port p) lane = none →
      exec (.hostLaneFault p lane) s = .next (event .hostLinkLost p.ix [p.ix] (portDown p s))) ∧
  (∀ (p : Port) (node dla : Nat) (keepS : Bool) (s : State),
      (Table.get? s.coh.bis (biKey p node dla)).isSome = true →
      exec (.biRsp p node dla keepS) s = .next (biEnd p node dla keepS s)) ∧
  (∀ (p : Port) (node dla : Nat) (s : State),
      (Table.get? s.coh.bis (biKey p node dla)).isSome = true →
      exec (.biTimeout p node dla) s = .next (commitNote p node dla (biGone p node dla s)))

/-- VAUX in its window begins Standby with START_ARMED and the RTC counting from 0 (R495, R496, R570); its loss
switches every rail off and loses the always-on contents (R500). VIN under its threshold for the filter time enters
Flush in service and the power-down sequence in Boot and Replay; VIN over its threshold, or a rail out of its window,
shuts off at once (R501), the rail being recorded and latched in the power-down sequence before its own step (R511).
The power-down sequence turns its rails off one by one and falls back to a slow discharge (R504, R505); its end begins
Standby and the hold (R497, R512). -/
def Obligations.PowerRows : Prop :=
  (∀ (s : State),
      s.pw.phase = .off →
      exec .vauxApply s =
        .next (updateMode (let u := setWin 1 true (setWin 13 true s); { u with pw := { u.pw with phase := .standby, startArmed := true }, evr := { u.evr with rtcBase := 0, rtcAt := u.now, rtcSet := false } }))) ∧
  (∀ (s : State),
      s.pw.phase ≠ .off →
      exec .vauxLoss s =
        .next (let u := aoLoss (volatileLoss (setRails (fun _ => false) (meterSave (event .vauxLost 5 [13] (snap 0xFF 13 (setWin 13 false s)))))); { u with pw := { u.pw with phase := .off, mode := 0 } })) ∧
  (∀ (s : State),
      exec .vinDrop s =
        .next ({ s with pw := { s.pw with sourceHold := railsOn s, vinQualified := false }, per := { s.per with charger := false } })) ∧
  (∀ (s : State),
      exec .vinReturn s =
        .next (let u := setWin 0 true { s with pw := { s.pw with sourceHold := false, vinQualified := true } }; { u with per := { u.per with charger := chargerMay u && !u.per.measuring } })) ∧
  (∀ (s : State),
      s.pw.phase = .service →
      exec .vinUnderVoltage s =
        .next (enterFlush (let u := event .supervisorFlush 5 [0] (snap 0xFF 0 (setWin 0 false s)); { u with pw := { u.pw with restart := some u.pw.autoRestart } }))) ∧
  (∀ (s : State),
      s.pw.phase = .boot ∨ s.pw.phase = .replay →
      exec .vinUnderVoltage s =
        .next (startPowerDown 11 (let u := event .supervisorFlush 5 [0] (snap 0xFF 0 (setWin 0 false s)); { u with pw := { u.pw with restart := none } }))) ∧
  (∀ (s : State),
      railsOn s = true →
      exec .vinOverVoltage s = .next (shutOffNow 2 (faultNow 4 0 true (setWin 0 false s)))) ∧
  (∀ (code : Nat) (s : State),
      2 ≤ code →
      code ≤ 11 →
      s.pw.phase = .replay ∨ s.pw.phase = .service ∨ s.pw.phase = .flush ∨ (s.pw.phase = .boot ∧ 3 ≤ s.pw.bootStep) →
      exec (.railFault code) s = .next (shutOffNow 2 (faultNow 1 code true (setWin code false s)))) ∧
  (∀ (code : Nat) (s : State),
      2 ≤ code →
      code ≤ 11 →
      s.pw.phase = .powerDown →
      code < s.pw.rail →
      exec (.railFault code) s = .next (faultNow 2 code true (setWin code false s))) ∧
  (∀ (s : State),
      s.pw.phase ≠ .off →
      exec .vaoFault s =
        .next (updateMode (let u := faultNow 5 1 true (setWin 1 false (aoLoss (volatileLoss (setRails (fun _ => false) s)))); { u with pw := { u.pw with phase := .standby } }))) ∧
  (∀ (above : Bool) (s : State),
      exec (.vholdWindow true above) s =
        .next (updateAccept (let u := setWin 12 true s; { u with per := { u.per with charger := u.per.charger || (chargerMay u && !u.per.measuring) } }))) ∧
  (∀ (s : State),
      s.pw.phase = .service →
      exec (.vholdWindow false true) s =
        .next (updateAccept (let u := faultNow 8 12 false (setWin 12 false s); { u with per := { u.per with charger := false } }))) ∧
  (∀ (s : State),
      s.pw.phase = .service →
      exec (.vholdWindow false false) s =
        .next (updateAccept (event .supervisorRecord 5 [8, 12] (snap 8 12 (setWin 12 false s))))) ∧
  (∀ (s : State),
      s.pw.phase = .flush →
      s.pw.sourceHold = true →
      exec .holdShort s = .next (shutOffNow 1 (faultNow 6 12 false s))) ∧
  (∀ (snd : Sender) (s : State),
      snd.port? = none →
      exec (.psvStart snd) s = .next ({ s with pw := { s.pw with startArmed := true } })) ∧
  (∀ (snd : Sender) (p : Port) (s : State),
      snd.port? = some p →
      exec (.psvStart snd) s = .next (noRight snd true 0x8010 s)) ∧
  (∀ (s : State),
      s.pw.phase = .powerDown →
      2 ≤ s.pw.rail →
      exec .powerdownStep s =
        .next (let u := setRails (fun c => decide (c < s.pw.rail)) s; { u with pw := { u.pw with rail := s.pw.rail - 1, fallbackWait := false } })) ∧
  (∀ (s : State),
      s.pw.phase = .powerDown →
      2 ≤ s.pw.rail →
      s.pw.fallback = false →
      exec .powerdownStepTimeout s =
        .next (let u := event .supervisorRecord 5 [3, s.pw.rail] (snap 3 s.pw.rail s); { u with pw := { u.pw with fallback := true, fallbackWait := true } })) ∧
  (∀ (s : State),
      s.pw.phase = .powerDown →
      2 ≤ s.pw.rail →
      s.pw.fallback = true →
      exec .fallbackTimeout s = .next (nextRail (faultNow 3 s.pw.rail false s))) ∧
  (∀ (s : State),
      s.pw.phase = .powerDown →
      s.pw.rail < 2 →
      exec .powerdownEnd s =
        .next (updateMode (let u := setRails (fun _ => false) s; { u with pw := { u.pw with phase := .standby, hold := true, rail := 0, startArmed := s.pw.startArmed || s.pw.restart.getD false, restart := none } }))) ∧
  (∀ (s : State),
      exec .standbyHoldExpire s = .next ({ s with pw := { s.pw with hold := false } }))

/-- From Standby with START_ARMED, no Block fault, VIN qualified, the hold over and no scan power, Boot is entered
(R497, R586); its steps follow Table 16-4 one by one to Replay, a rail that stays out of its window latching
START_TIMEOUT with its code, which the event does not name and is free (R499, log 6). A Flush is entered in service
only (R502, R503), for the junction only where it has reached its shutdown temperature (R539), and passes to the
power-down sequence once no epoch drains, both live epochs having committed (R259, R504), with E_d saved and the loss
record clean. REFCLK lost switches to the backup oscillator and takes down each host port that has a width and each of
the eight SGL links that is not down (R514), and its return ends that; the crystal's failure is latched with one event
(R515). Deep Idle is entered under the conditions of Table 16-9 and left by a wake (R517, R519). The management
processor traps, its clamps released, its incarnation and MP_RESTARTS advanced (R197, R423), and restarts with the
image that its check leaves, or after an online activation with the one activated (R197, R475, R485). -/
def Obligations.BootAndClockRows : Prop :=
  (∀ (s : State),
      s.pw.phase = .standby →
      s.pw.startArmed = true →
      s.pw.block = false →
      s.pw.vinQualified = true →
      s.pw.hold = false →
      s.pw.scan = false →
      exec .bootEntry s = .next (enterBoot s)) ∧
  (∀ (s : State),
      bootMay s = false →
      exec .bootEntry s = .next (s)) ∧
  (∀ (inp : BootInput) (s : State),
      s.pw.phase = .boot →
      s.pw.bootStep + 1 = 3 →
      exec (.bootStep inp) s =
        .next (let u := { s with pw := { s.pw with bootStep := 3 } }; setRails (fun _ => true) u)) ∧
  (∀ (inp : BootInput) (s : State),
      s.pw.phase = .boot →
      s.pw.bootStep + 1 = 4 →
      exec (.bootStep inp) s = .next (let u := { s with pw := { s.pw with bootStep := 4 } }; u)) ∧
  (∀ (inp : BootInput) (s : State),
      s.pw.phase = .boot →
      s.pw.bootStep + 1 = 5 →
      exec (.bootStep inp) s =
        .next (let u := { s with pw := { s.pw with bootStep := 5 } }; loadImage inp.imageOk u)) ∧
  (∀ (inp : BootInput) (s : State),
      s.pw.phase = .boot →
      s.pw.bootStep + 1 = 6 →
      imageRuns s = true →
      exec (.bootStep inp) s = .next (let u := { s with pw := { s.pw with bootStep := 6 } }; belvyStarts u)) ∧
  (∀ (inp : BootInput) (s : State),
      s.pw.phase = .boot →
      s.pw.bootStep + 1 = 6 →
      imageRuns s = false →
      exec (.bootStep inp) s = .next (let u := { s with pw := { s.pw with bootStep := 6 } }; u)) ∧
  (∀ (inp : BootInput) (s : State),
      s.pw.phase = .boot →
      s.pw.bootStep + 1 = 7 →
      exec (.bootStep inp) s = .next (let u := { s with pw := { s.pw with bootStep := 7 } }; trainMemories inp u)) ∧
  (∀ (inp : BootInput) (s : State),
      s.pw.phase = .boot →
      s.pw.bootStep + 1 = 8 →
      s.dr.edLost = false →
      exec (.bootStep inp) s =
        .next (let u := { s with pw := { s.pw with bootStep := 8 } }; { u with per := { s.per with charger := !s.pw.sourceHold, measDue := true } })) ∧
  (∀ (inp : BootInput) (s : State),
      s.pw.phase = .boot →
      s.pw.bootStep + 1 = 8 →
      s.dr.edLost = true →
      exec (.bootStep inp) s =
        .next (let u := { s with pw := { s.pw with bootStep := 8 } }; let v := restoreEd { u with per := { s.per with charger := !s.pw.sourceHold, measDue := true } }; { v with dr := { v.dr with edLost := false } })) ∧
  (∀ (inp : BootInput) (s : State),
      s.pw.phase = .boot →
      s.pw.bootStep + 1 = 9 →
      exec (.bootStep inp) s = .next (let u := { s with pw := { s.pw with bootStep := 9 } }; selfTest inp u)) ∧
  (∀ (s : State),
      s.pw.phase = .boot →
      s.pw.bootStep = 2 →
      exec .railStartTimeout s =
        .next (let code := 2 + Config.freeNat (draw s).1 % 10; startPowerDown code (let u := faultNow 0 code true (setRails (fun c => decide (c ≤ code)) (draw s).2); { u with pw := { u.pw with restart := none } }))) ∧
  (∀ (cause : FlushCause) (s : State),
      s.pw.phase ≠ .service →
      exec (.flushEntry cause) s = .next (s)) ∧
  (∀ (s : State),
      s.pw.phase = .service →
      exec (.flushEntry .shutdown) s =
        .next (enterFlush { s with pw := { s.pw with restart := some (s.pw.restart.getD false) } })) ∧
  (∀ (s : State),
      s.pw.phase = .service →
      exec (.flushEntry .vin) s =
        .next (enterFlush (let u := event .supervisorFlush 5 [0] (snap 0xFF 0 (setWin 0 false s)); { u with pw := { u.pw with restart := some u.pw.autoRestart } }))) ∧
  (∀ (s : State),
      s.pw.phase = .service →
      junctionHot s = false →
      exec (.flushEntry .junction) s = .next (s)) ∧
  (∀ (s : State),
      s.pw.phase = .service →
      junctionHot s = true →
      exec (.flushEntry .junction) s =
        .next (enterFlush (let u := event .supervisorJunction 5 [7] (snap 7 0 (latch 7 0 false s)); { u with pw := { u.pw with restart := none, junctionWait := true } }))) ∧
  (∀ (s : State),
      s.pw.phase ≠ .flush ∨ s.per.draining ≠ [] →
      exec .flushDone s = .next (s)) ∧
  (∀ (s : State),
      s.pw.phase = .flush →
      s.per.draining = [] →
      exec .flushDone s =
        .next (startPowerDown 11 (let u := saveEd s; { u with ck := { u.ck with clean := true } }))) ∧
  (∀ (s : State),
      s.pw.clkBackup = false →
      s.pw.phase = .replay ∨ s.pw.phase = .service ∨ s.pw.phase = .flush →
      s.portA.width = 0 →
      s.portB.width = 0 →
      (List.range 8).all (fun p => (sglAt s p).st == .down) = true →
      exec .refclkLoss s = .next (event .refclkLost 5 [] { s with pw := { s.pw with clkBackup := true } })) ∧
  (∀ (s : State),
      s.pw.clkBackup = false →
      modelRuns s = true →
      (s.pw.phase = .boot → 4 ≤ s.pw.bootStep) →
      exec .refclkLoss s =
        .next (let u := event .refclkLost 5 [] { s with pw := { s.pw with clkBackup := true } }; let v := if u.portA.width = 0 then u else linkLost .a u; let w := if v.portB.width = 0 then v else linkLost .b v; (List.range 8).foldl (fun s p => if (sglAt s p).st == .down then s else linkDown p s) w)) ∧
  (∀ (s : State),
      exec .refclkReturn s = .next ({ s with pw := { s.pw with clkBackup := false } })) ∧
  (∀ (s : State),
      s.pw.phase ≠ .off →
      s.pw.xtalFail = false →
      exec .xtalFail s = .next (event .crystalStopped 5 [] { s with pw := { s.pw with xtalFail := true } })) ∧
  (∀ (s : State),
      deepIdleMay s = true →
      exec .deepIdleEntry s =
        .next (updateMode { s with pw := { s.pw with pstate := .deepIdle }, dram := { s.dram with selfRef := true } })) ∧
  (∀ (s : State),
      exec .deepIdleWake s = .next (updateMode (wake s))) ∧
  (∀ (s : State),
      s.mb.mpReady = true →
      exec .mpTrap s =
        .next (incCounter 4 (releaseAll .mp { s with mb := { s.mb with mpReady := false, mpInc := (s.mb.mpInc + 1) % 16, forwards := [] } }))) ∧
  (∀ (s : State),
      s.mb.mpReady = false →
      exec .mpTrap s = .next (s)) ∧
  (∀ (ok : Bool) (s : State),
      s.mb.mpReady = false →
      modelRuns s = true →
      (s.pw.phase = .boot → 6 ≤ s.pw.bootStep) →
      s.mb.fwRestart = none →
      imageRuns (loadImage ok s) = true →
      exec (.mpRestartDone ok) s =
        .next (let v := loadImage ok s; let u := event .mpRestarted 4 [] (copySnaps { v with mb := { v.mb with mpReady := true } }); endActivation ok (u.mb.open_.foldl resumeOp u))) ∧
  (∀ (ok : Bool) (x : Nat × Nat) (s : State),
      s.mb.mpReady = false →
      modelRuns s = true →
      (s.pw.phase = .boot → 6 ≤ s.pw.bootStep) →
      s.mb.fwRestart = some x →
      exec (.mpRestartDone ok) s =
        .next (let u := event .mpRestarted 4 [] (copySnaps { s with mb := { s.mb with mpReady := true } }); endActivation ok (u.mb.open_.foldl resumeOp u)))

/-- While the controller runs, an update of the thermal model takes its inputs, advances the drift clocks (R152) and
the refresh windows (R302), and then raises the level to the highest reached, sets WARN and follows the programming
range (R525, R533, R538). The level falls one step once every node has stayed below for FALL milliseconds (R533), WARN
clears likewise, and the end of the grace time enforces the level (R535). -/
def Obligations.ThermalRows : Prop :=
  (∀ (inp : ThermalInput) (s : State),
      modelRuns s = true →
      exec (.thermalUpdate inp) s =
        .next (let m := modelStep inp s; progRange (crossWarn (raiseThrottle (countCool (setWindows (advanceEd 1 m.thm.temps m))))))) ∧
  (∀ (inp : ThermalInput) (s : State),
      modelRuns s = false →
      exec (.thermalUpdate inp) s = .next (s)) ∧
  (∀ (s : State),
      s.thm.level ≠ 0 →
      s.thm.cfg.fall < nthD s.thm.cool (s.thm.level - 1) 0 →
      exec .levelFall s = .next (setLevel (s.thm.level - 1) s)) ∧
  (∀ (s : State),
      s.thm.warn = true →
      s.thm.cfg.fall < s.thm.coolWarn →
      exec .warnClear s = .next ({ s with thm := { s.thm with warn := false } })) ∧
  (∀ (s : State),
      0 < s.thm.level →
      s.thm.grace = 0 →
      exec .graceExpire s = .next ({ s with thm := { s.thm with enforced := true } }))

/-- The effective ages are saved every 60 s in service, with a sequence number and a CRC-32 (R155), and advance in
Standby from the hottest diode (R154), where the end of an over-temperature arms the start; an open dense stripe whose
row 0 was programmed 32 effective seconds ago is padded (R156); the sweep of a dense course writes its bucket byte, as
of age 0 before its row 0 is programmed, and raises its stripe to the level its age calls for (R158, R160, R170); the
survey gives a course the age that the refined set of its first row fits, with margin loss where its two reads differ
by more than a row or need the full ladder (R167, R169, R171; the fit is the model's, log 98); and a stripe's level
rises with real time (Table 05-5). -/
def Obligations.DriftRows : Prop :=
  (∀ (s : State),
      s.pw.phase = .service →
      exec .edSave s =
        .next ({ s with dr := { s.dr with saved := Table.put s.dr.saved ((s.dr.saveSeq + 1) % 2 ^ 32 % 8) ((s.dr.saveSeq + 1) % 2 ^ 32, s.dr.ed, edCrc ((s.dr.saveSeq + 1) % 2 ^ 32) s.dr.ed), saveSeq := (s.dr.saveSeq + 1) % 2 ^ 32 } })) ∧
  (∀ (d : Int) (ds : List Int) (s : State),
      s.pw.phase = .standby →
      s.pw.junctionWait = false →
      exec (.standbyModelTick (d :: ds)) s = .next (advanceEd 1000 (List.replicate 64 (ds.foldl max d)) s)) ∧
  (∀ (d : Int) (ds : List Int) (s : State),
      s.pw.phase = .standby →
      s.pw.junctionWait = true →
      (d :: ds).all (fun t => decide (t < 105 * 256)) = true →
      exec (.standbyModelTick (d :: ds)) s =
        .next (let u := advanceEd 1000 (List.replicate 64 (ds.foldl max d)) s; { u with pw := { u.pw with startArmed := true, junctionWait := false } })) ∧
  (∀ (k : Nat) (x : Stripe) (s : State),
      stripeAt s k = some x →
      (firstAge s k x).any (fun a => decide (32 ≤ a)) = true →
      x.isOpen = true →
      x.fast = false →
      x.reclaim = false →
      exec (.stripeAgePad k) s =
        .next (padOut k (modStripe k (fun y => { y with isOpen := false, agePad := true }) s))) ∧
  (∀ (k : Nat) (x : Stripe) (s : State),
      stripeAt s k = some x →
      firstAge s k x = none →
      exec (.stripeAgePad k) s = .next (s)) ∧
  (∀ (c : Nat) (s : State),
      isDense s c = false →
      exec (.driftSweep c) s = .next ({ s with dr := { s.dr with bucket := Table.del s.dr.bucket c } })) ∧
  (∀ (c : Nat) (s : State),
      isDense s c = true →
      ageRuns s c = true →
      exec (.driftSweep c) s =
        .next (let u := { s with dr := { s.dr with bucket := Table.putD s.dr.bucket c (bucketOf (courseAge s c) + 32 + (if courseAge s c < 64 ∨ unsurveyed s c = true then 64 else 0)) 0 } }; raiseLevel (courseStripe c) (courseLevel s c) u)) ∧
  (∀ (c : Nat) (s : State),
      isDense s c = true →
      ageRuns s c = false →
      exec (.driftSweep c) s = .next ({ s with dr := { s.dr with bucket := Table.putD s.dr.bucket c 96 0 } })) ∧
  (∀ (c : Nat) (f l : List Sense) (fc lc : List Nat) (s : State),
      s.dr.survey = false ∨ unsurveyed s c = false →
      exec (.ageSurvey c f l fc lc) s = .next (s)) ∧
  (∀ (c : Nat) (f l : List Sense) (fc lc : List Nat) (s : State),
      s.dr.survey = true →
      unsurveyed s c = true →
      exec (.ageSurvey c f l fc lc) s =
        .next (let byte := readByte s (courseStack c) (courseStripe c); let a := memberEnd s (surveyLoc s c false) byte true { tries := f, cells := fc }; let b := memberEnd s (surveyLoc s c true) byte true { tries := l, cells := lc }; let setA := refinedSet (courseDie c) (byteBucket byte) fc; let setB := refinedSet (courseDie c) (byteBucket byte) lc; let age := Config.fitAge (bestRow (courseDie c) setA) setA; let first := (nthD s.dr.ed (courseDie c) 0 / 65536 + 2 ^ 32 - age % 2 ^ 32) % 2 ^ 32; let u := modStripe (courseStripe c) (fun x => { x with efirst := setNth x.efirst (courseStack c) first }) (mapOpen (.age c first) s); let v := countInner b.step (countInner a.step { u with dr := { u.dr with toSurvey := u.dr.toSurvey.erase c, bucket := Table.put u.dr.bucket c (bucketOf age + 32 + (if age < 64 then 64 else 0)) } }); endSurvey (if !Recovery.early a.step || !Recovery.early b.step || decide (bestRow (courseDie c) setA + 1 < bestRow (courseDie c) setB) || decide (bestRow (courseDie c) setB + 1 < bestRow (courseDie c) setA) then marginLoss (courseStack c) (courseStripe c) v else v))) ∧
  (∀ (k : Nat) (x : Stripe) (s : State),
      stripeAt s k = some x →
      0 < x.level →
      x.level < 4 →
      x.reclaim = false →
      exec (.refreshLevelTimer k) s = .next (raiseLevel k (x.level + 1) s))

/-- With VIN feeding the rails a measurement that is due, or the daily one, starts with VHOLD at 48.0 V (R233):
charger off and test load on (Table 07-1); its result gives C, ESR, the usable energy and the budget (R234, R235) and
ends the measurement commands. A charger that does not reach 20 V finds the bank absent (R238). Every millisecond the
present budget follows VHOLD, capped at B (R236). -/
def Obligations.HoldupRows : Prop :=
  (∀ (s : State),
      s.per.measDue = true →
      s.per.measuring = false →
      chargerMay s = true →
      exec .holdupMeasure s =
        .next ({ s with per := { s.per with measuring := true, measDue := false, charger := false } })) ∧
  (∀ (s : State),
      chargerMay s = true →
      s.per.measuring = false →
      4800 ≤ s.per.vhold →
      exec .holdupDailyMeasurement s =
        .next ({ s with per := { s.per with measuring := true, measDue := false, charger := false } })) ∧
  (∀ (s : State),
      chargerMay s = true →
      s.per.measuring = false →
      s.per.vhold < 4800 →
      exec .holdupDailyMeasurement s = .next ({ s with per := { s.per with measDue := true } })) ∧
  (∀ (va vb vc : Nat) (s : State),
      s.per.measuring = true →
      vb ≤ va →
      vc < vb →
      exec (.holdupResult va vb vc) s =
        .next (let c := 10000000 / (vb - vc); let e := energyOf va c (va - vb); endOps 0x302 (fun _ => true) 0 (updateAccept (setAbsent (decide (e < 1200)) { s with per := { s.per with measuring := false, charger := chargerMay s, measValid := true, samples := [va, vb, vc], cap := c, esr := va - vb, euse := e, budget := budgetOf e, budgetNow := min s.per.budgetNow (budgetOf e) } })))) ∧
  (∀ (s : State),
      s.per.charger = true →
      s.per.vhold < 2000 →
      exec .chargerTimeout s = .next (updateAccept (setAbsent true s))) ∧
  (∀ (s : State),
      s.per.charger = false ∨ 2000 ≤ s.per.vhold →
      exec .chargerTimeout s = .next (s)) ∧
  (∀ (v : Nat) (s : State),
      s.pw.phase ≠ .service →
      exec (.budgetUpdate v) s =
        .next ({ s with per := { s.per with vhold := v, budgetNow := min (budgetOf (energyOf (v * 10) s.per.cap s.per.esr)) s.per.budget }, pw := { s.pw with volts := setNth s.pw.volts 12 v } })) ∧
  (∀ (v : Nat) (s : State),
      s.pw.phase = .service →
      exec (.budgetUpdate v) s =
        .next (closeIfHalf (updateAccept { s with per := { s.per with vhold := v, budgetNow := min (budgetOf (energyOf (v * 10) s.per.cap s.per.esr)) s.per.budget }, pw := { s.pw with volts := setNth s.pw.volts 12 v } })))

/-- The epoch timer closes an open epoch that holds a change (R244), as EPC_CTRL.CLOSE asks of every sender with its
rights (R250); the closed epochs are staged older first (R246), and the oldest commits once its records have passed,
programming is permitted and the log is not held (R247, R249, R257). The checkpoint writer writes its segments in turn
and then the root, with its sequence number and the log position of the sweep's begin, no more often than every 10 s
(R255, R256). Replay begins once, with the age survey where the off-time is unknown (R166, R264), stops where a log
position is recoverable from neither copy (R265), and otherwise ends with the maps as at the restart epoch, the loss
record and the next epoch open (R260, R266). Phase 1 of a Global Persistent Flush is acknowledged at once (R427),
phase 2 makes a close request and waits for its commit and for the remote homes (R251). -/
def Obligations.EpochRows : Prop :=
  (∀ (s : State),
      s.per.openHolds = true →
      s.pw.phase = .service →
      exec .epochTimer s = .next (closeEpoch s)) ∧
  (∀ (s : State),
      s.per.openHolds = false →
      exec .epochTimer s = .next (s)) ∧
  (∀ (snd : Sender) (s : State),
      exec (.epcClose snd) s = .next (closeRequest snd s)) ∧
  (∀ (s : State),
      exec .epochStage s = .next (s.per.draining.foldl (fun s d => stageOne d s) s)) ∧
  (∀ (d : Draining) (rest : List Draining) (s : State),
      s.per.draining = d :: rest →
      commitReady s d = true →
      exec .epochCommit s = .next (commitEpoch d rest s)) ∧
  (∀ (d : Draining) (rest : List Draining) (s : State),
      s.per.draining = d :: rest →
      commitReady s d = false →
      exec .epochCommit s = .next (s)) ∧
  (∀ (s : State),
      s.ck.segment < 3609 →
      s.pw.phase = .service →
      s.ck.segment ≠ 0 →
      exec .checkpointSegmentWrite s =
        .next (let n := s.ck.segment; let u := metaPages (n % 8) 1024 s; logOnly u.per.openEpoch (.segment n) { u with ck := { u.ck with segment := n + 1, sweeps := if n + 1 = 3609 then u.ck.sweeps + 1 else u.ck.sweeps } })) ∧
  (∀ (s : State),
      3609 ≤ s.ck.segment →
      s.ck.rootAt.all (fun t => decide (t + 10 * second ≤ s.now)) = true →
      s.pw.phase = .service →
      exec .checkpointRootWrite s =
        .next (dropMeta { s with ck := { s.ck with segment := 0, roots := s.ck.roots + 1, rootAt := some s.now, rootPages := Table.put s.ck.rootPages (rootPage s.ck.roots) (s.ck.roots + 1, s.ck.logPos - s.per.sweepBytes) }, per := { s.per with extent := s.per.sweepBytes } })) ∧
  (∀ (inp : ReplayInput) (s : State),
      s.pw.phase = .replay →
      s.ck.replaying = false →
      inp.recoverable = true →
      exec (.replayStart inp) s =
        .next (startSurvey { s with ck := { s.ck with replaying := true, failed := false } })) ∧
  (∀ (inp : ReplayInput) (s : State),
      s.pw.phase = .replay →
      s.ck.replaying = false →
      inp.recoverable = false →
      exec (.replayStart inp) s =
        .next (event .replayStopped 4 [] (startSurvey { s with ck := { s.ck with replaying := true, failed := true } }))) ∧
  (∀ (inp : ReplayInput) (s : State),
      s.pw.phase = .replay →
      s.ck.replaying = true →
      s.ck.failed = false →
      exec (.replayDone inp) s = .next (finishReplay inp s)) ∧
  (∀ (inp : ReplayInput) (s : State),
      s.ck.failed = true →
      exec (.replayDone inp) s = .next (s)) ∧
  (∀ (p : Port) (tag : Nat) (s : State),
      exec (.gpfPhase1 p tag) s = .next (emit (.gpf p 1 tag) s)) ∧
  (∀ (p : Port) (tag : Nat) (s : State),
      exec (.gpfPhase2 p tag) s =
        .next (let c := closeRequest p.sender s; let r := askHomes p (c.port p).wrote c; gpfCheck p (r.2.setPort p { r.2.port p with gpf := some ⟨tag, closeTarget s, r.1⟩, wrote := [] }))) ∧
  (∀ (src txid port : Nat) (s : State),
      exec (.pflush src txid port) s =
        .next (pflushCheck { (closeEpoch s) with fab := { s.fab with pflush := s.fab.pflush ++ [(src, txid, port, closeTarget s)] } })) ∧
  (∀ (src txid e : Nat) (g : Gpf) (s : State),
      s.portA.gpf = none →
      s.portB.gpf = some g →
      exec (.pflushReply src txid e) s =
        .next (gpfCheck .b (s.setPort .b { s.portB with gpf := some { g with homes := g.homes.erase (src * 4096 + txid) } }))) ∧
  (∀ (src txid e : Nat) (s : State),
      s.portA.gpf = none →
      s.portB.gpf = none →
      exec (.pflushReply src txid e) s = .next (s))

/-- While the partition runs, each pair of samples is integrated into the energy and the mean of the second (R545,
R546); at a boundary the interval closes and the next opens with a notice to the processor (R544, R547); after a loss
of VAUX the partition restarts with RESTART and a new incarnation (R548). A feed packet is sent in service and at
Flush entry where 26 stages are free and is skipped else (R550, R552), and is received in order and credited (R553); a
gap of 3 s sets FEED_GAP (R553). The relayed reads are answered in order (R556). The service target answers READ_ID; a
change command is refused while sealed or at the audit counter's limit, and else takes effect with the interval closed
by PARAM (R547, R557, R558); the seal land seals the partition and abandons a firmware load (R557). Status numbers are
the model's (log 33). -/
def Obligations.MeterRows : Prop :=
  (∀ (mv ma : Nat) (s : State),
      meterRuns s = true →
      exec (.meterSample mv ma) s = .next ({ s with mtr := sampled mv ma s.mtr })) ∧
  (∀ (s : State),
      meterRuns s = true →
      atBoundary s.mtr = true →
      exec .intervalClose s = .next (notice 1 (setMeter (closeInterval none 0 s.mtr) s))) ∧
  (∀ (s : State),
      meterRuns s = false ∨ atBoundary s.mtr = false →
      exec .intervalClose s = .next (s)) ∧
  (∀ (s : State),
      s.mtr.saved = true →
      s.pw.phase ≠ .off →
      exec .meterRestart s =
        .next (notice 3 (notice 1 (advanceInc .meter (setMeter { closeInterval (some 1) 2 s.mtr with saved := false, acc := (0, 0), power := 0, loaded := none } s))))) ∧
  (∀ (g : Nat) (s : State),
      g < 8 →
      s.pw.phase = .service →
      feedFree s < 26 →
      exec (.feedSend g) s = .next ({ s with mtr := { s.mtr with flushSet := s.mtr.flushSet.erase g } })) ∧
  (∀ (g : Nat) (s : State),
      g < 8 →
      s.pw.phase = .service →
      26 ≤ feedFree s →
      exec (.feedSend g) s =
        .next ({ s with mtr := { s.mtr with flushSet := s.mtr.flushSet.erase g, feed := s.mtr.feed ++ [feedPacket s g], feedSeq := (s.mtr.feedSeq + 1) % 65536 } })) ∧
  (∀ (k : FeedPkt) (ks : List FeedPkt) (o : FeedGroup) (s : State),
      meterRuns s = true →
      s.mtr.feed = k :: ks →
      Table.get? s.mtr.groups k.group = some o →
      exec .feedReceive s =
        .next (let m := creditRows k.group (min 3 ((s.mtr.psec + 2 ^ 32 - o.psec) % 2 ^ 32)) (if o.boot = k.boot then o.rows else []) 0 k.rows { s.mtr with feed := ks }; { s with mtr := { m with groups := Table.put m.groups k.group ⟨k.boot, m.psec, k.rows, false⟩ } })) ∧
  (∀ (g : Nat) (s : State),
      meterRuns s = true →
      s.mtr.vinOn = true →
      g < 8 →
      (feedAge s.mtr g).all (fun t => decide (3 ≤ t)) = true →
      exec (.feedGap g) s =
        .next (notice 2 { s with mtr := { s.mtr with flags := setFlag 2 true s.mtr.flags, groups := Table.modify s.mtr.groups g (fun x => { x with gap := true }) } })) ∧
  (∀ (op arg : Nat) (i : BoxId) (rs : List (Nat × Nat × BoxId)) (s : State),
      meterRuns s = true →
      s.mb.relays = (op, arg, i) :: rs →
      op < 0x900 ∨ 0x904 < op →
      exec .meterRelayAnswer s = .next ({ s with mb := { s.mb with relays := rs } })) ∧
  (∀ (op arg : Nat) (i : BoxId) (rs : List (Nat × Nat × BoxId)) (s : State),
      meterRuns s = true →
      s.mb.relays = (op, arg, i) :: rs →
      0x900 ≤ op →
      op ≤ 0x904 →
      s.mb.mpReady = true →
      exec .meterRelayAnswer s =
        .next (takeReply (modBox .meter (fun x => { x with inDrw := drwPacket (relayPacket s.mtr op arg) x.inDrw }) { s with mb := { s.mb with relays := rs } }))) ∧
  (∀ (s : State),
      meterRuns s = true →
      exec .meterReadId s =
        .next (emit (.service 0 [Config.serial, BitVec.ofNat 64 (field 0 16 s.mtr.fwVer), BitVec.ofNat 64 (meterCrc s.mtr), BitVec.ofNat 64 s.mtr.audit, BitVec.ofNat 64 (flag 0 s.mtr.sealed)]) s)) ∧
  (∀ (n : Nat) (s : State),
      meterRuns s = true →
      s.mtr.sealed = false →
      s.mtr.audit + 1 < 2 ^ 32 →
      1 ≤ n →
      n ≤ 60 →
      exec (.meterSetLength n) s =
        .next (emit (.service 0 []) (notice 4 (notice 1 (setMeter { closeInterval (some 3) 0 { s.mtr with audit := s.mtr.audit + 1 } with length := n } s))))) ∧
  (∀ (n : Nat) (s : State),
      meterRuns s = true →
      s.mtr.sealed = true →
      exec (.meterSetLength n) s = .next (emit (.service 1 []) s)) ∧
  (∀ (ws : List Word) (s : State),
      meterRuns s = true →
      s.mtr.sealed = false →
      exec (.meterFwLoad ws) s = .next (emit (.service 0 []) { s with mtr := { s.mtr with loaded := some ws } })) ∧
  (∀ (img : List Word) (s : State),
      meterRuns s = true →
      s.mtr.sealed = false →
      s.mtr.audit + 1 < 2 ^ 32 →
      s.mtr.loaded = some img →
      exec (.meterFwActivate true) s =
        .next (emit (.service 0 []) (notice 3 (notice 4 (notice 1 (advanceInc .meter (setMeter { closeInterval (some 3) 0 { s.mtr with audit := s.mtr.audit + 1 } with image := img, loaded := none, fwVer := Config.meterVersion img % 65536 } s))))))) ∧
  (∀ (s : State),
      meterRuns s = true →
      s.mtr.sealed = false →
      s.mtr.audit + 1 < 2 ^ 32 →
      exec (.meterFwActivate false) s = .next (emit (.service 3 []) s)) ∧
  (∀ (low : Bool) (s : State),
      exec (.sealChange low) s =
        .next ({ s with mtr := { s.mtr with sealed := low, loaded := if low then none else s.mtr.loaded } }))

/-- A sender that does not reach the register space in its state is not answered (R522, R611; its reach in the power-
down sequence is the model's reading, log 44). An access of a shape to which the sender has no right (8 or 16 bits, or
misaligned) reads zero or is ignored and counts as a violation of its port (R4); an access of a block that does not
answer in Standby reads zero or is ignored (R522); every other read answers the register at the aligned offset, or the
aligned half of it, with what the read does to the state (R3, R6), and every other write reaches only the bits of its
width (R3, R5), the RW1C bits that hardware sets in the same cycle left set (R7) and a WIN_VIOL cleared in the cycle
of an increment left at 1 (R420). So DEV_MODE is read whole or by halves; an offset of the DEV block without a
register reads zero and ignores a write (R8); a 64-bit write of SEC_ALARM clears the alarm bits written as 1 that are
not set in that cycle and sets COUNT, one of its upper half sets COUNT alone (R6, R7, R466); a write of PMC_SEL sets
the sender's selection alone (R578). -/
def Obligations.RegisterRows : Prop :=
  (∀ (snd : Sender) (off w : Nat) (op : RegOp) (s : State),
      senderReaches snd s = false →
      exec (.registerWrite snd off w op) s = .next (s)) ∧
  (∀ (snd : Sender) (off w : Nat) (s : State),
      senderReaches snd s = true →
      badShape off w = true →
      exec (.registerWrite snd off w .read) s = .next (emit (.regData snd 0) (noRight snd false off s))) ∧
  (∀ (snd : Sender) (off w : Nat) (v sets : Word) (s : State),
      senderReaches snd s = true →
      badShape off w = true →
      exec (.registerWrite snd off w (.write v sets)) s = .next (noRight snd true off s)) ∧
  (∀ (snd : Sender) (off w : Nat) (s : State),
      senderReaches snd s = true →
      badShape off w = false →
      blockAnswers (off / 8 * 8) s = false →
      exec (.registerWrite snd off w .read) s = .next (emit (.regData snd 0) s)) ∧
  (∀ (snd : Sender) (off w : Nat) (v sets : Word) (s : State),
      senderReaches snd s = true →
      badShape off w = false →
      blockAnswers (off / 8 * 8) s = false →
      exec (.registerWrite snd off w (.write v sets)) s = .next (s)) ∧
  (∀ (snd : Sender) (off w : Nat) (s : State),
      senderReaches snd s = true →
      badShape off w = false →
      blockAnswers (off / 8 * 8) s = true →
      exec (.registerWrite snd off w .read) s =
        .next (emit (.regData snd (shown off w (regRead snd (off / 8 * 8) (w == 32 && off % 8 == 4) s).1)) (regRead snd (off / 8 * 8) (w == 32 && off % 8 == 4) s).2)) ∧
  (∀ (snd : Sender) (off w : Nat) (v sets : Word) (s : State),
      senderReaches snd s = true →
      badShape off w = false →
      blockAnswers (off / 8 * 8) s = true →
      exec (.registerWrite snd off w (.write v sets)) s =
        .next (sameCycle snd (off / 8 * 8) sets (regWrite snd (off / 8 * 8) (reach off w) (setWins (off / 8 * 8) sets (placed off w v)) s))) ∧
  (∀ (snd : Sender) (s : State),
      senderReaches snd s = true →
      exec (.registerWrite snd 8 64 .read) s = .next (emit (.regData snd (devMode s)) s)) ∧
  (∀ (snd : Sender) (s : State),
      senderReaches snd s = true →
      exec (.registerWrite snd 8 32 .read) s = .next (emit (.regData snd (devMode s &&& 0xFFFFFFFF)) s)) ∧
  (∀ (snd : Sender) (s : State),
      senderReaches snd s = true →
      exec (.registerWrite snd 12 32 .read) s = .next (emit (.regData snd (devMode s >>> 32)) s)) ∧
  (∀ (snd : Sender) (off : Nat) (s : State),
      senderReaches snd s = true →
      0x20 ≤ off →
      off < 0x1000 →
      off % 8 = 0 →
      exec (.registerWrite snd off 64 .read) s = .next (emit (.regData snd 0) s)) ∧
  (∀ (snd : Sender) (off : Nat) (v sets : Word) (s : State),
      senderReaches snd s = true →
      off < 0x1000 →
      off % 8 = 0 →
      exec (.registerWrite snd off 64 (.write v sets)) s = .next (s)) ∧
  (∀ (snd : Sender) (v sets : Word) (s : State),
      senderReaches snd s = true →
      blockAnswers 0x6008 s = true →
      exec (.registerWrite snd 0x6008 64 (.write v sets)) s =
        .next ({ s with sec := { s.sec with alarm := s.sec.alarm &&& (15 - bitsOf (v &&& ~~~(sets &&& 0xF)) 0 4), alarmCnt := bitsOf v 32 32 } })) ∧
  (∀ (snd : Sender) (v sets : Word) (s : State),
      senderReaches snd s = true →
      blockAnswers 0x6008 s = true →
      s.sec.alarm < 16 →
      exec (.registerWrite snd 0x600C 32 (.write v sets)) s =
        .next ({ s with sec := { s.sec with alarmCnt := bitsOf v 0 32 } })) ∧
  (∀ (snd : Sender) (v sets : Word) (s : State),
      senderReaches snd s = true →
      blockAnswers 0xA000 s = true →
      exec (.registerWrite snd 0xA000 64 (.write v sets)) s =
        .next ({ s with pmc := { s.pmc with sel := setNth s.pmc.sel snd.ix (bitsOf v 0 5) } }))

/-- While a port serves memory and the host has a credit of the request's class left, of 256 Req or 128 RwD (R409): a
MemRd or MemWr outside every window is completed, with zeros or without effect, and counted with its kind and address
(R416, R420), as is one without permission or under a key ID that does not serve (R414, R415, R420); a good one to
this node is ordered at its home slice, with its stream tracked and prefetched (R58, R278), and a good one to another
node goes to the remote path (R18), a write noting its home for the next persistent flush (R251). What SECDED finds in
the entries that a good request meets is dealt with first (R196). The request uses its credit (R409, R410). Without a
credit it does not reach the device. A run-ahead hint puts its page into the lookaside, once and while nothing of a
higher class waits at its channel (R58, R298). A conflict is acknowledged (R426). -/
def Obligations.HostRequestRows : Prop :=
  (∀ (p : Port) (mv : MetaValue) (hpa tag : Nat) (met : SramMeet) (s : State),
      portServes s p = true →
      (s.port p).reqUsed < 256 →
      decodeAccess (s.port p) false hpa = none →
      exec (.hostMemRd p mv hpa ⟨tag, met⟩) s =
        .next (useReq p (let u := traceSeen p (tag % 65536) (updateMode (wake s)); traceDone p (tag % 65536) mv.traceKind 6 false false false hpa 0 0 0 (violate p 1 false hpa (emit (.hostData p (tag % 65536) 0) u))))) ∧
  (∀ (p : Port) (mv : MetaValue) (hpa tag : Nat) (met : SramMeet) (d : Decoded) (s : State),
      portServes s p = true →
      (s.port p).reqUsed < 256 →
      decodeAccess (s.port p) false hpa = some d →
      d.rd = false →
      exec (.hostMemRd p mv hpa ⟨tag, met⟩) s =
        .next (useReq p (let u := traceSeen p (tag % 65536) (updateMode (wake s)); traceDone p (tag % 65536) mv.traceKind 6 false false false hpa 0 0 0 (violate p 2 false hpa (emit (.hostData p (tag % 65536) 0) u))))) ∧
  (∀ (p : Port) (mv : MetaValue) (hpa tag : Nat) (met : SramMeet) (d : Decoded) (s : State),
      portServes s p = true →
      (s.port p).reqUsed < 256 →
      decodeAccess (s.port p) false hpa = some d →
      d.rd = true →
      d.kvalid = false ∨ keyServes s d.kid = false →
      exec (.hostMemRd p mv hpa ⟨tag, met⟩) s =
        .next (useReq p (let u := traceSeen p (tag % 65536) (updateMode (wake s)); traceDone p (tag % 65536) mv.traceKind 6 false false false hpa 0 0 0 (violate p 4 false hpa (emit (.hostData p (tag % 65536) 0) u))))) ∧
  (∀ (p : Port) (mv : MetaValue) (hpa tag : Nat) (met : SramMeet) (d : Decoded) (s : State),
      portServes s p = true →
      (s.port p).reqUsed < 256 →
      decodeAccess (s.port p) false hpa = some d →
      d.rd = true →
      d.kvalid = true →
      keyServes s d.kid = true →
      plaNode d.pla = me s →
      exec (.hostMemRd p mv hpa ⟨tag, met⟩) s =
        .next (useReq p (let u := traceSeen p (tag % 65536) (updateMode (wake s)); let v := meetEntry met (plaNode d.pla) (plaDla d.pla) (trackRead p d.win hpa u); streamRead p.ix d.kid (plaDla d.pla) (localRequest (plaDla d.pla) { kind := readKind mv d.wr, asker := .host p (tag % 65536) mv d.tenant hpa, kid := d.kid, cls := p.ix, sram := met } (noteInput (plaDla d.pla) p.ix v))))) ∧
  (∀ (p : Port) (mv : MetaValue) (hpa tag : Nat) (met : SramMeet) (d : Decoded) (s : State),
      portServes s p = true →
      (s.port p).reqUsed < 256 →
      decodeAccess (s.port p) false hpa = some d →
      d.rd = true →
      d.kvalid = true →
      keyServes s d.kid = true →
      plaNode d.pla ≠ me s →
      exec (.hostMemRd p mv hpa ⟨tag, met⟩) s =
        .next (useReq p (let u := traceSeen p (tag % 65536) (updateMode (wake s)); let v := meetEntry met (plaNode d.pla) (plaDla d.pla) (trackRead p d.win hpa u); remoteRequest (plaNode d.pla) (plaDla d.pla) { kind := readKind mv d.wr, asker := .host p (tag % 65536) mv d.tenant hpa, kid := d.kid, cls := p.ix, sram := met } v))) ∧
  (∀ (p : Port) (mv : MetaValue) (hpa tag : Nat) (met : SramMeet) (s : State),
      (s.port p).reqUsed ≥ 256 →
      exec (.hostMemRd p mv hpa ⟨tag, met⟩) s = .next (s)) ∧
  (∀ (p : Port) (mv : MetaValue) (hpa tag : Nat) (data : Line) (mask : BitVec 64) (poison : Bool) (met : SramMeet) (s : State),
      portServes s p = true →
      (s.port p).rwdUsed < 128 →
      decodeAccess (s.port p) true hpa = none →
      exec (.hostMemWr p mv hpa data mask poison ⟨tag, met⟩) s =
        .next (useRwd p (let u := traceSeen p (tag % 65536) (updateMode (wake s)); traceDone p (tag % 65536) (if mask = fullMask then 3 else 4) 6 false false false hpa 0 0 0 (violate p 1 true hpa (emit (.hostCmp p (tag % 65536)) u))))) ∧
  (∀ (p : Port) (mv : MetaValue) (hpa tag : Nat) (data : Line) (mask : BitVec 64) (poison : Bool) (met : SramMeet) (d : Decoded) (s : State),
      portServes s p = true →
      (s.port p).rwdUsed < 128 →
      decodeAccess (s.port p) true hpa = some d →
      d.wr = false →
      exec (.hostMemWr p mv hpa data mask poison ⟨tag, met⟩) s =
        .next (useRwd p (let u := traceSeen p (tag % 65536) (updateMode (wake s)); traceDone p (tag % 65536) (if mask = fullMask then 3 else 4) 6 false false false hpa 0 0 0 (violate p 3 true hpa (emit (.hostCmp p (tag % 65536)) u))))) ∧
  (∀ (p : Port) (mv : MetaValue) (hpa tag : Nat) (data : Line) (mask : BitVec 64) (poison : Bool) (met : SramMeet) (d : Decoded) (s : State),
      portServes s p = true →
      (s.port p).rwdUsed < 128 →
      decodeAccess (s.port p) true hpa = some d →
      d.wr = true →
      d.kvalid = false ∨ keyServes s d.kid = false →
      exec (.hostMemWr p mv hpa data mask poison ⟨tag, met⟩) s =
        .next (useRwd p (let u := traceSeen p (tag % 65536) (updateMode (wake s)); traceDone p (tag % 65536) (if mask = fullMask then 3 else 4) 6 false false false hpa 0 0 0 (violate p 4 true hpa (emit (.hostCmp p (tag % 65536)) u))))) ∧
  (∀ (p : Port) (mv : MetaValue) (hpa tag : Nat) (data : Line) (mask : BitVec 64) (poison : Bool) (met : SramMeet) (d : Decoded) (s : State),
      portServes s p = true →
      (s.port p).rwdUsed < 128 →
      decodeAccess (s.port p) true hpa = some d →
      d.wr = true →
      d.kvalid = true →
      keyServes s d.kid = true →
      plaNode d.pla = me s →
      exec (.hostMemWr p mv hpa data mask poison ⟨tag, met⟩) s =
        .next (useRwd p (let u := traceSeen p (tag % 65536) (updateMode (wake s)); localRequest (plaDla d.pla) { kind := .write, asker := .host p (tag % 65536) mv d.tenant hpa, kid := d.kid, cls := p.ix, data := data, mask := mask, poison := poison } (noteInput (plaDla d.pla) p.ix (meetEntry met (plaNode d.pla) (plaDla d.pla) u))))) ∧
  (∀ (p : Port) (mv : MetaValue) (hpa tag : Nat) (data : Line) (mask : BitVec 64) (poison : Bool) (met : SramMeet) (d : Decoded) (s : State),
      portServes s p = true →
      (s.port p).rwdUsed < 128 →
      decodeAccess (s.port p) true hpa = some d →
      d.wr = true →
      d.kvalid = true →
      keyServes s d.kid = true →
      plaNode d.pla ≠ me s →
      exec (.hostMemWr p mv hpa data mask poison ⟨tag, met⟩) s =
        .next (useRwd p (let u := traceSeen p (tag % 65536) (updateMode (wake s)); let home := plaNode d.pla; let v := meetEntry met home (plaDla d.pla) u; remoteRequest home (plaDla d.pla) { kind := .write, asker := .host p (tag % 65536) mv d.tenant hpa, kid := d.kid, cls := p.ix, data := data, mask := mask, poison := poison } (v.setPort p { v.port p with wrote := if (v.port p).wrote.contains home then (v.port p).wrote else (v.port p).wrote ++ [home] })))) ∧
  (∀ (p : Port) (mv : MetaValue) (hpa tag : Nat) (data : Line) (mask : BitVec 64) (poison : Bool) (met : SramMeet) (s : State),
      (s.port p).rwdUsed ≥ 128 →
      exec (.hostMemWr p mv hpa data mask poison ⟨tag, met⟩) s = .next (s)) ∧
  (∀ (lpn : Nat) (s : State),
      s.tr.hints.contains lpn = true →
      s.tr.lookD.contains lpn = false →
      mayServe s 3 (denseLine s lpn) = true →
      exec (.runAheadHint lpn) s =
        .next ({ s with tr := { s.tr with hints := s.tr.hints.erase lpn, lookD := lpn :: s.tr.lookD } })) ∧
  (∀ (lpn : Nat) (s : State),
      s.tr.hints.contains lpn = true →
      s.tr.lookD.contains lpn = true →
      exec (.runAheadHint lpn) s = .next ({ s with tr := { s.tr with hints := s.tr.hints.erase lpn } })) ∧
  (∀ (p : Port) (n d tag : Nat) (s : State),
      exec (.biConflict p n d tag) s = .next (emit (.biConflictAck p tag) s))

/-- The tag check of a miss answers hit or miss once and goes on to the LPDDR6 or the medium (R38, R46); the lookaside
lookup resolves the location in the compare cycle and the miss goes on (R110, R112); an LPDDR6 read whose channel
controller has come to it (R299), or whose line still waits in a write queue (R300), delivers the write-buffer slot or
the cached line it was made for (R292), a corrected line being counted and written back (R187) and a cached line that
fails sent to the medium (R194); a fetch or read that its controller has not come to waits; a confirmed medium read is
judged and delivered, a squashed one goes to the gutter, an unconfirmed speculative one waits (R54, R55); an eviction
ends once its channel's write queue takes the line, and then what waited for it goes on, and a fill ends as R274 and
R275 say (R300). A dovetail entry closes 200 ns after it opened and is merged with its old line in its epoch (R205); a
lease in force releases the writes that waited for it (R440). -/
def Obligations.HomeMissRows : Prop :=
  (∀ (dla : Nat) (m : Mshr) (w : Waiter) (s : State),
      mshrAt s (me s) dla = some m →
      readerOf m = some w →
      m.miss = true →
      m.tagHit = none →
      newestSlot s dla = none →
      Table.get? s.dram.cache dla = none →
      exec (.dramCacheTagResult (me s) dla) s =
        .next (proceedAll dla (modMshr (me s) dla (fun m => { m with tagHit := some false }) s))) ∧
  (∀ (dla : Nat) (m : Mshr) (w : Waiter) (x : WbSlot) (s : State),
      mshrAt s (me s) dla = some m →
      readerOf m = some w →
      m.miss = true →
      m.tagHit = none →
      newestSlot s dla = some x →
      exec (.dramCacheTagResult (me s) dla) s =
        .next (let u := modMshr (me s) dla (fun m => { m with tagHit := some true }) s; dramAsk { line := readLine u dla, cls := if w.asker == .prefetch then 3 else 1, node := me s, dla := dla, use := .line } (squashSpec dla (count (sliceOf dla) 0x003 w.asker.qual 1 (wakeRank (readLine u dla) u))))) ∧
  (∀ (dla : Nat) (f : MapFetch) (m : Mshr) (w : Waiter) (s : State),
      mshrAt s (me s) dla = some m →
      readerOf m = some w →
      m.miss = true →
      m.loc = none →
      w.asker ≠ .prefetch →
      denseBad (denseOf s (lpnOf dla)) = false →
      lookasideHit s dla = true →
      s.tr.lostLines.contains dla = false →
      exec (.lookasideResult dla f) s =
        .next (let u := learnPred dla (lookasideFill dla s); proceedAll dla (modMshr (me u) dla (fun m => { m with loc := some (resolve s dla), cap := u.sched.rgen }) u))) ∧
  (∀ (dla : Nat) (f : MapFetch) (m : Mshr) (w : Waiter) (s : State),
      mshrAt s (me s) dla = some m →
      readerOf m = some w →
      m.miss = true →
      m.loc = none →
      lookasideHit s dla = false →
      serveMaps (me s) dla s = none →
      exec (.lookasideResult dla f) s = .next (s)) ∧
  (∀ (dla : Nat) (m : Mshr) (w : Waiter) (x : WbSlot) (res other : DramSense) (s : State),
      mshrAt s (me s) dla = some m →
      readerOf m = some w →
      m.miss = true →
      m.tagHit = some true →
      asked s .line (me s) dla = none →
      newestSlot s dla = some x →
      decodeAt s (readLine s dla) (dramWord (secData x.raw) (secVer x.raw)) {} = .clean →
      exec (.lpddr6ReadDone (me s) dla ⟨res, other⟩) s = .next (deliverSector dla x.raw { cls := 1 } s)) ∧
  (∀ (dla : Nat) (m : Mshr) (w : Waiter) (x : WbSlot) (r : DramReq) (res other : DramSense) (s : State),
      mshrAt s (me s) dla = some m →
      readerOf m = some w →
      m.miss = true →
      m.tagHit = some true →
      asked s .line (me s) dla = some r →
      nextReq s (lineChan r.line) = some r →
      newestSlot (dramTake r s) dla = some x →
      decodeAt (dramTake r s) r.line (dramWord (secData x.raw) (secVer x.raw)) res = .clean →
      exec (.lpddr6ReadDone (me s) dla ⟨res, other⟩) s =
        .next (deliverSector dla x.raw { cls := 1 } (dramTake r s))) ∧
  (∀ (dla : Nat) (m : Mshr) (w : Waiter) (c : DramLine) (r : DramReq) (res other : DramSense) (s : State),
      mshrAt s (me s) dla = some m →
      readerOf m = some w →
      m.miss = true →
      m.tagHit = some true →
      asked s .line (me s) dla = some r →
      nextReq s (lineChan r.line) = some r →
      newestSlot (dramTake r s) dla = none →
      Table.get? (dramTake r s).dram.cache dla = some c →
      decodeAt (dramTake r s) r.line (dramWord (secData c.raw) (secVer c.raw)) res = .clean →
      exec (.lpddr6ReadDone (me s) dla ⟨res, other⟩) s =
        .next (deliverSector dla c.raw { cls := 1 } (dramTake r s))) ∧
  (∀ (dla : Nat) (m : Mshr) (w : Waiter) (c : DramLine) (r : DramReq) (res other : DramSense) (dqs : List Nat) (s : State),
      mshrAt s (me s) dla = some m →
      readerOf m = some w →
      m.miss = true →
      m.tagHit = some true →
      asked s .line (me s) dla = some r →
      nextReq s (lineChan r.line) = some r →
      newestSlot (dramTake r s) dla = none →
      Table.get? (dramTake r s).dram.cache dla = some c →
      decodeAt (dramTake r s) r.line (dramWord (secData c.raw) (secVer c.raw)) res = .corrected dqs →
      exec (.lpddr6ReadDone (me s) dla ⟨res, other⟩) s =
        .next (deliverSector dla c.raw { cls := 1 } (dramCorrected r.line dqs (dramTake r s)))) ∧
  (∀ (dla : Nat) (m : Mshr) (w : Waiter) (c : DramLine) (r : DramReq) (res other : DramSense) (s : State),
      mshrAt s (me s) dla = some m →
      readerOf m = some w →
      m.miss = true →
      m.tagHit = some true →
      asked s .line (me s) dla = some r →
      nextReq s (lineChan r.line) = some r →
      newestSlot (dramTake r s) dla = none →
      Table.get? (dramTake r s).dram.cache dla = some c →
      decodeAt (dramTake r s) r.line (dramWord (secData c.raw) (secVer c.raw)) res = .uncorrectable →
      exec (.lpddr6ReadDone (me s) dla ⟨res, other⟩) s = .next (cacheLost dla (dramUncorrectable (dramTake r s)))) ∧
  (∀ (dla : Nat) (m : Mshr) (w : Waiter) (r : DramReq) (res other : DramSense) (s : State),
      mshrAt s (me s) dla = some m →
      readerOf m = some w →
      m.miss = true →
      m.tagHit = some true →
      asked s .line (me s) dla = some r →
      nextReq s (lineChan r.line) ≠ some r →
      exec (.lpddr6ReadDone (me s) dla ⟨res, other⟩) s = .next (s)) ∧
  (∀ (line : Nat) (s : State),
      s.dram.wback.contains line = true →
      mayServe s 3 line = true →
      exec (.dramWriteback line) s =
        .next (wakeRank line { s with dram := { s.dram with wback := s.dram.wback.erase line } })) ∧
  (∀ (rid : Nat) (r : SenseResult) (x : MedRead) (s : State),
      Table.get? s.sched.reads rid = some x →
      x.started = true →
      x.waiting = none →
      x.squashed = true →
      exec (.mediumReadDone rid r) s = .next (retireRead rid s)) ∧
  (∀ (rid n dla : Nat) (r : SenseResult) (x : MedRead) (s : State),
      Table.get? s.sched.reads rid = some x →
      x.started = true →
      x.waiting = none →
      x.squashed = false →
      x.use = .spec n dla →
      exec (.mediumReadDone rid r) s = .next (modRead rid (fun y => { y with waiting := some r }) s)) ∧
  (∀ (rid n dla : Nat) (r : SenseResult) (x : MedRead) (s : State),
      Table.get? s.sched.reads rid = some x →
      x.started = true →
      x.waiting = none →
      x.squashed = false →
      x.use = .miss n dla →
      exec (.mediumReadDone rid r) s = .next (medDone dla false x r (retireRead rid s))) ∧
  (∀ (dla : Nat) (m : Mshr) (f : Fill) (s : State),
      mshrAt s (me s) dla = some m →
      m.way = none →
      m.fill = some f →
      exec (.mshrFill (me s) dla) s = .next (drive 20 dla s)) ∧
  (∀ (dla w v : Nat) (d : Line) (m : Mshr) (s : State),
      mshrAt s (me s) dla = some m →
      m.way = some w →
      m.fill = some (.data d v) →
      Table.get? s.cache.ways (wayKey (sliceOf dla) (cacheSet dla) w) = none →
      findWay s (me s) dla = none →
      exec (.mshrFill (me s) dla) s =
        .next (let u := touch (sliceOf dla) (cacheSet dla) w (putWay (sliceOf dla) (cacheSet dla) w { node := me s, dla := dla, kid := m.kid, dirty := v != 0 && (Table.get? s.dram.cache dla).isNone, poison := false, pf := m.pf, pin := isPinned s dla, evict := false, data := d, ver := v } (evictNow (sliceOf dla) (cacheSet dla) w s)); drive 20 dla (modMshr (me u) dla (fun m => { m with way := none }) u))) ∧
  (∀ (slice set way : Nat) (s : State),
      evicting s slice set way = true →
      evicting (endEvict slice set way s) slice set way = false →
      exec (.evictionDone slice set way) s =
        .next ((setMshrs (endEvict slice set way s) slice set).foldl (fun s x => if x.1 = me s then afterEvict x.2 s else remoteFill x.1 x.2 s) (endEvict slice set way s))) ∧
  (∀ (slice set way : Nat) (s : State),
      evicting s slice set way = true →
      evicting (endEvict slice set way s) slice set way = true →
      exec (.evictionDone slice set way) s = .next (endEvict slice set way s)) ∧
  (∀ (dla : Nat) (s : State),
      exec (.dovetailTimeout dla) s =
        .next ({ s with cache := { s.cache with dove := Table.modify s.cache.dove dla (fun e => { e with closed := true }) } })) ∧
  (∀ (dla v : Nat) (old : Line) (e : Dovetail) (s : State),
      Table.get? s.cache.dove dla = some e →
      e.closed = true →
      e.old = some (.data old v) →
      leaseWait s dla = false →
      exec (.dovetailMerge dla) s =
        .next (let r := writeFull dla e.kid e.cls e.epoch (mergeLine e.mask e.data old) false (count (sliceOf dla) 0x013 0 1 s); wakeDove (sliceOf dla) (resumeDove dla e.kid (some (.data (mergeLine e.mask e.data old) r.1, e.how)) r.2))) ∧
  (∀ (dla : Nat) (e : Dovetail) (s : State),
      Table.get? s.cache.dove dla = some e →
      e.closed = true →
      e.old = some .poison →
      leaseWait s dla = false →
      exec (.dovetailMerge dla) s =
        .next (wakeDove (sliceOf dla) (resumeDove dla e.kid (some (.poison, e.how)) (writeFailed dla e (count (sliceOf dla) 0x013 0 1 s))))) ∧
  (∀ (seg v : Nat) (s : State),
      Table.get? s.sec.leasing seg = some v →
      leaseLines s seg = [] →
      exec (.leaseProgrammed seg) s =
        .next ({ s with sec := { s.sec with leases := Table.put s.sec.leases seg v, leasing := Table.del s.sec.leasing seg } }))

/-- While a home serves, a request of a node that is not dead is ordered at its home slice with its stream tracked
(R357, R278, Table 11-2); an Evc takes the sender's pointer out of an entry in HS with CV clear and is ignored
elsewhere (R327); WrT and EvX are delivered in WSEQ order and wait ahead of their turn, a number already delivered
being discarded (R325, R371). What a dead node sends is discarded (R351). -/
def Obligations.HomeRequestRows : Prop :=
  (∀ (src txid dla kid port input : Nat) (s : State),
      isDead s src = false →
      homeServes s = true →
      exec (.rdS src txid dla kid port input) s =
        .next (streamRead (classOfPort port) kid dla (homeRequest dla { kind := .rdS, asker := .node src txid, kid := kid, cls := classOfPort port } (noteInput dla input s)))) ∧
  (∀ (src txid dla kid port input : Nat) (s : State),
      isDead s src = false →
      homeServes s = true →
      exec (.rdX src txid dla kid port input) s =
        .next (streamRead (classOfPort port) kid dla (homeRequest dla { kind := .rdX, asker := .node src txid, kid := kid, cls := classOfPort port } (noteInput dla input s)))) ∧
  (∀ (src txid dla kid port input : Nat) (s : State),
      isDead s src = false →
      homeServes s = true →
      exec (.rdC src txid dla kid port input) s =
        .next (streamRead (classOfPort port) kid dla (homeRequest dla { kind := .rdC, asker := .node src txid, kid := kid, cls := classOfPort port } (noteInput dla input s)))) ∧
  (∀ (src txid dla kid port input : Nat) (s : State),
      isDead s src = false →
      homeServes s = true →
      exec (.upg src txid dla kid port input) s =
        .next (streamRead (classOfPort port) kid dla (homeRequest dla { kind := .upg, asker := .node src txid, kid := kid, cls := classOfPort port } (noteInput dla input s)))) ∧
  (∀ (src txid dla kid port input : Nat) (s : State),
      isDead s src = true ∨ homeServes s = false →
      exec (.rdS src txid dla kid port input) s = .next (s)) ∧
  (∀ (src txid dla : Nat) (e : DirEntry) (s : State),
      isDead s src = false →
      dirAt s dla = some e →
      e.st = .hs →
      e.cv = false →
      e.ptrs.contains src = true →
      exec (.evc src txid dla) s =
        .next (setDir dla (if (e.ptrs.erase src).isEmpty then none else some { e with ptrs := e.ptrs.erase src }) s)) ∧
  (∀ (src txid dla : Nat) (e : DirEntry) (s : State),
      dirAt s dla = some e →
      e.st ≠ .hs ∨ e.cv = true ∨ e.ptrs.contains src = false →
      exec (.evc src txid dla) s = .next (s)) ∧
  (∀ (src txid dla kid : Nat) (data : Line) (mask : BitVec 64) (poison : Bool) (wseq : Nat) (s : State),
      isDead s src = false →
      (wseq + 256 - Table.getD s.fab.wseqRx src 0) % 256 ≤ 64 →
      s.fab.wrtHeld.any (fun x => x.src == src && x.wseq == wseq) = false →
      exec (.wrT src txid dla kid data mask poison wseq) s =
        .next (drainWrt src 65 { s with fab := { s.fab with wrtHeld := s.fab.wrtHeld ++ [{ kind := .wrT, src := src, dst := me s, txid := txid, line := dla, kid := kid, data := data, mask := mask, poison := poison, wseq := wseq }] } })) ∧
  (∀ (src txid dla kid : Nat) (data : Line) (mask : BitVec 64) (poison : Bool) (wseq : Nat) (s : State),
      64 < (wseq + 256 - Table.getD s.fab.wseqRx src 0) % 256 →
      exec (.wrT src txid dla kid data mask poison wseq) s = .next (s)) ∧
  (∀ (src txid dla wseq : Nat) (s : State),
      isDead s src = false →
      (wseq + 256 - Table.getD s.fab.wseqRx src 0) % 256 ≤ 64 →
      s.fab.wrtHeld.any (fun x => x.src == src && x.wseq == wseq) = false →
      exec (.evX src txid dla wseq) s =
        .next (drainWrt src 65 { s with fab := { s.fab with wrtHeld := s.fab.wrtHeld ++ [{ kind := .evX, src := src, dst := me s, txid := txid, line := dla, wseq := wseq }] } })) ∧
  (∀ (src txid dla wseq : Nat) (s : State),
      64 < (wseq + 256 - Table.getD s.fab.wseqRx src 0) % 256 →
      exec (.evX src txid dla wseq) s = .next (s))

/-- In HS_I a sharer's RspI takes it from those outstanding, and any other response of a node is a protocol error; in
HX_F and HX_I the owner's response ends the snoop as Table 11-3 gives, or waits in HX_W for the message it announces
(R343, R358, R359). A snoop unanswered for 40 µs is given up with the line poisoned, the node fenced and suspect (R348
to R350); a fenced node's late answer frees its entry (R349), a suspect is one no longer after 60 s (R350), and a way
held for a refusal is released after 10 µs (R330). -/
def Obligations.HomeAnswerRows : Prop :=
  (∀ (src txid dla : Nat) (e : DirEntry) (t : HomeTrans) (s : State),
      isDead s src = false →
      fenced s src dla = false →
      dirAt s dla = some e →
      transOf s dla = some t →
      e.st = .hsI →
      t.pend.contains src = true →
      exec (.rspI src txid dla) s = .next (pendLess src dla s)) ∧
  (∀ (src txid dla tx : Nat) (k : SnpKind) (e : DirEntry) (t : HomeTrans) (s : State),
      isDead s src = false →
      fenced s src dla = false →
      dirAt s dla = some e →
      transOf s dla = some t →
      e.st = .hxF ∨ e.st = .hxI →
      ownerOf e = src →
      t.snp = some (k, tx) →
      exec (.rspI src txid dla) s = .next (asI k dla s)) ∧
  (∀ (src txid dla tx : Nat) (k : SnpKind) (e : DirEntry) (t : HomeTrans) (s : State),
      isDead s src = false →
      fenced s src dla = false →
      dirAt s dla = some e →
      transOf s dla = some t →
      e.st = .hxF →
      ownerOf e = src →
      t.snp = some (k, tx) →
      exec (.rspS src txid dla) s = .next (asS k src dla s)) ∧
  (∀ (src txid dla : Nat) (e : DirEntry) (t : HomeTrans) (s : State),
      isDead s src = false →
      fenced s src dla = false →
      dirAt s dla = some e →
      transOf s dla = some t →
      e.st = .hsI →
      exec (.rspS src txid dla) s = .next (protocolError src dla 21 s)) ∧
  (∀ (src txid dla tx : Nat) (k : SnpKind) (e : DirEntry) (t : HomeTrans) (s : State),
      isDead s src = false →
      fenced s src dla = false →
      dirAt s dla = some e →
      transOf s dla = some t →
      e.st = .hxF →
      ownerOf e = src →
      t.snp = some (k, tx) →
      exec (.rspFwd src txid dla) s = .next (asFwd k src dla s)) ∧
  (∀ (src txid dla : Nat) (e : DirEntry) (t : HomeTrans) (s : State),
      isDead s src = false →
      fenced s src dla = false →
      dirAt s dla = some e →
      transOf s dla = some t →
      e.st = .hsI →
      exec (.rspFwd src txid dla) s = .next (protocolError src dla 22 s)) ∧
  (∀ (src txid dla tx : Nat) (f : Bool) (k : SnpKind) (e : DirEntry) (t : HomeTrans) (s : State),
      isDead s src = false →
      fenced s src dla = false →
      dirAt s dla = some e →
      transOf s dla = some t →
      e.st = .hxF ∨ e.st = .hxI →
      ownerOf e = src →
      t.snp = some (k, tx) →
      t.ann = true ∨ t.evx = true →
      exec (.rspWb src txid dla f) s = .next (asWb k f t.evx src dla s)) ∧
  (∀ (src txid dla tx : Nat) (f : Bool) (k : SnpKind) (e : DirEntry) (t : HomeTrans) (s : State),
      isDead s src = false →
      fenced s src dla = false →
      dirAt s dla = some e →
      transOf s dla = some t →
      e.st = .hxF ∨ e.st = .hxI →
      ownerOf e = src →
      t.snp = some (k, tx) →
      t.ann = false →
      t.evx = false →
      exec (.rspWb src txid dla f) s =
        .next (setDir dla (some { e with st := .hxW }) (modTrans dla (fun t => { t with wb := some f }) s))) ∧
  (∀ (node dla : Nat) (s : State),
      waitsOn s node dla = true →
      exec (.snoopTimeout node dla) s = .next (suspect node (fence node dla (giveUp node dla s)))) ∧
  (∀ (node dla : Nat) (s : State),
      waitsOn s node dla = false →
      exec (.snoopTimeout node dla) s = .next (s)) ∧
  (∀ (node dla : Nat) (s : State),
      exec (.fencedAnswer node dla) s =
        .next ({ s with coh := { s.coh with fence := s.coh.fence.erase (sliceOf dla, node, dla) } })) ∧
  (∀ (node : Nat) (s : State),
      exec (.suspectExpire node) s =
        .next ({ s with coh := { s.coh with suspect := Table.del s.coh.suspect node } })) ∧
  (∀ (slice set : Nat) (s : State),
      exec (.wayHoldExpire slice set) s =
        .next ({ s with coh := { s.coh with held := Table.del s.coh.held (slice * 131072 + set) } }))

/-- A snoop from a node that is not dead: with OWN set, a line in PI answers RspI, one in PS, PI_S or PF is a protocol
error, and any other holds the snoop and goes on (R344, R346, Table 11-6); SnpI without OWN invalidates a shared copy
once its hosts have let go (R345). The hold window's end lets a held snoop be answered (R346). A recall's end takes
the host's data and every back-invalidate's answer (R335, R344). -/
def Obligations.ProxySnoopRows : Prop :=
  (∀ (home txid dla reqn rqtx : Nat) (s : State),
      isDead s home = false →
      (pxAt s home dla).st = none →
      exec (.snpS home txid dla true reqn rqtx) s = .next (sendRsp .rspI home txid dla false s)) ∧
  (∀ (home txid dla reqn rqtx : Nat) (s : State),
      isDead s home = false →
      (pxAt s home dla).st = some .pe ∨ (pxAt s home dla).st = some .pm ∨ (pxAt s home dla).st = some .pmW ∨ (pxAt s home dla).st = some .peI ∨ (pxAt s home dla).st = some .pmI ∨ (pxAt s home dla).st = some .piX ∨ (pxAt s home dla).st = some .psX →
      exec (.snpS home txid dla true reqn rqtx) s =
        .next (pxGo 40 home dla (modPx home dla (fun y => { y with snoop := some ⟨.s, txid, reqn, rqtx⟩ }) s))) ∧
  (∀ (home txid dla reqn rqtx : Nat) (s : State),
      isDead s home = false →
      (pxAt s home dla).st = some .ps ∨ (pxAt s home dla).st = some .piS ∨ (pxAt s home dla).st = some .pf →
      exec (.snpS home txid dla true reqn rqtx) s = .next (protocolError home dla 10 s)) ∧
  (∀ (home txid dla reqn rqtx : Nat) (s : State),
      isDead s home = false →
      (pxAt s home dla).st = none →
      exec (.snpX home txid dla true reqn rqtx) s = .next (sendRsp .rspI home txid dla false s)) ∧
  (∀ (home txid dla reqn rqtx : Nat) (s : State),
      isDead s home = false →
      (pxAt s home dla).st = some .pe ∨ (pxAt s home dla).st = some .pm ∨ (pxAt s home dla).st = some .pmW ∨ (pxAt s home dla).st = some .peI ∨ (pxAt s home dla).st = some .pmI ∨ (pxAt s home dla).st = some .piX ∨ (pxAt s home dla).st = some .psX →
      exec (.snpX home txid dla true reqn rqtx) s =
        .next (pxGo 40 home dla (modPx home dla (fun y => { y with snoop := some ⟨.x, txid, reqn, rqtx⟩ }) s))) ∧
  (∀ (home txid dla reqn rqtx : Nat) (s : State),
      isDead s home = false →
      (pxAt s home dla).st = some .ps ∨ (pxAt s home dla).st = some .piS ∨ (pxAt s home dla).st = some .pf →
      exec (.snpX home txid dla true reqn rqtx) s = .next (protocolError home dla 10 s)) ∧
  (∀ (home txid dla reqn rqtx : Nat) (s : State),
      isDead s home = false →
      (pxAt s home dla).st = none →
      exec (.snpC home txid dla true reqn rqtx) s = .next (sendRsp .rspI home txid dla false s)) ∧
  (∀ (home txid dla reqn rqtx : Nat) (s : State),
      isDead s home = false →
      (pxAt s home dla).st = some .pe ∨ (pxAt s home dla).st = some .pm ∨ (pxAt s home dla).st = some .pmW ∨ (pxAt s home dla).st = some .peI ∨ (pxAt s home dla).st = some .pmI ∨ (pxAt s home dla).st = some .piX ∨ (pxAt s home dla).st = some .psX →
      exec (.snpC home txid dla true reqn rqtx) s =
        .next (pxGo 40 home dla (modPx home dla (fun y => { y with snoop := some ⟨.c, txid, reqn, rqtx⟩ }) s))) ∧
  (∀ (home txid dla reqn rqtx : Nat) (s : State),
      isDead s home = false →
      (pxAt s home dla).st = some .ps ∨ (pxAt s home dla).st = some .piS ∨ (pxAt s home dla).st = some .pf →
      exec (.snpC home txid dla true reqn rqtx) s = .next (protocolError home dla 10 s)) ∧
  (∀ (home txid dla reqn rqtx : Nat) (s : State),
      isDead s home = false →
      (pxAt s home dla).st = none →
      exec (.snpI home txid dla true reqn rqtx) s = .next (sendRsp .rspI home txid dla false s)) ∧
  (∀ (home txid dla reqn rqtx : Nat) (s : State),
      isDead s home = false →
      (pxAt s home dla).st = some .pe ∨ (pxAt s home dla).st = some .pm ∨ (pxAt s home dla).st = some .pmW ∨ (pxAt s home dla).st = some .peI ∨ (pxAt s home dla).st = some .pmI ∨ (pxAt s home dla).st = some .piX ∨ (pxAt s home dla).st = some .psX →
      exec (.snpI home txid dla true reqn rqtx) s =
        .next (pxGo 40 home dla (modPx home dla (fun y => { y with snoop := some ⟨.i, txid, reqn, rqtx⟩ }) s))) ∧
  (∀ (home txid dla reqn rqtx : Nat) (s : State),
      isDead s home = false →
      (pxAt s home dla).st = some .ps ∨ (pxAt s home dla).st = some .piS ∨ (pxAt s home dla).st = some .pf →
      exec (.snpI home txid dla true reqn rqtx) s = .next (protocolError home dla 10 s)) ∧
  (∀ (home txid dla reqn rqtx : Nat) (s : State),
      isDead s home = false →
      (pxAt s home dla).st = some .ps ∨ (pxAt s home dla).st = some .psX →
      exec (.snpI home txid dla false reqn rqtx) s =
        .next (pxGo 40 home dla (modPx home dla (fun y => { y with snpI := some txid }) s))) ∧
  (∀ (home dla : Nat) (s : State),
      exec (.holdWindowExpire home dla) s =
        .next (pxGo 40 home dla (modPx home dla (fun x => { x with holding := false }) s))) ∧
  (∀ (home dla : Nat) (d : Line) (s : State),
      biBusy s home dla = true →
      exec (.hostRecallDone home dla (some d)) s =
        .next (let u := modPx home dla (fun x => { x with pullW := some (x.pullW.getD (returned x d false)) }) s; pxGo 40 home dla (recallAnswer .a home dla (recallAnswer .b home dla u)))) ∧
  (∀ (home dla : Nat) (s : State),
      biBusy s home dla = true →
      exec (.hostRecallDone home dla none) s =
        .next (pxGo 40 home dla (recallAnswer .a home dla (recallAnswer .b home dla s))))

/-- A data message that fits the state waiting for it (Table 11-6) completes the grant when it comes from the home,
and waits for the home's Cmp or CmpX when it was forwarded (R342, R347); one that fits nothing is discarded (R352). A
Cmp with TXID 0xFFF returns a credit alone (R324), that of a WrT completes the host's write (R317, R341), that of an
EvX ends it. CmpX grants PI_X with its data, and PS_X with its copy (R339). A refusal is sent again under its TXID
after its back-off (R330). 2 ms without an answer end the transaction (R352). -/
def Obligations.ProxyGrantRows : Prop :=
  (∀ (src txid dla kid ver key : Nat) (d : Line) (po : Bool) (x : PxLine) (s : State),
      isDead s src = false →
      lineByTx s txid dla = some (key, x) →
      fits .datS x.st = true →
      src = key / 2 ^ 36 →
      exec (.datS src txid dla kid d ver po) s = .next (grantDone src dla (fillMsg d ver po) kid s)) ∧
  (∀ (src txid dla kid ver key : Nat) (d : Line) (po : Bool) (x : PxLine) (s : State),
      isDead s src = false →
      lineByTx s txid dla = some (key, x) →
      fits .datS x.st = true →
      src ≠ key / 2 ^ 36 →
      exec (.datS src txid dla kid d ver po) s =
        .next (grantIfBoth (key / 2 ^ 36) dla (modPx (key / 2 ^ 36) dla (fun y => { y with data := some (fillMsg d ver po, kid) }) s))) ∧
  (∀ (src txid dla kid ver key : Nat) (d : Line) (po : Bool) (x : PxLine) (s : State),
      isDead s src = false →
      lineByTx s txid dla = some (key, x) →
      fits .datX x.st = true →
      src = key / 2 ^ 36 →
      exec (.datX src txid dla kid d ver po) s = .next (grantDone src dla (fillMsg d ver po) kid s)) ∧
  (∀ (src txid dla kid ver key : Nat) (d : Line) (po : Bool) (x : PxLine) (s : State),
      isDead s src = false →
      lineByTx s txid dla = some (key, x) →
      fits .datX x.st = true →
      src ≠ key / 2 ^ 36 →
      exec (.datX src txid dla kid d ver po) s =
        .next (grantIfBoth (key / 2 ^ 36) dla (modPx (key / 2 ^ 36) dla (fun y => { y with data := some (fillMsg d ver po, kid) }) s))) ∧
  (∀ (src txid dla kid ver key : Nat) (d : Line) (po : Bool) (x : PxLine) (s : State),
      isDead s src = false →
      lineByTx s txid dla = some (key, x) →
      fits .datC x.st = true →
      src = key / 2 ^ 36 →
      exec (.datC src txid dla kid d ver po) s = .next (grantDone src dla (fillMsg d ver po) kid s)) ∧
  (∀ (src txid dla kid ver key : Nat) (d : Line) (po : Bool) (x : PxLine) (s : State),
      isDead s src = false →
      lineByTx s txid dla = some (key, x) →
      fits .datC x.st = true →
      src ≠ key / 2 ^ 36 →
      exec (.datC src txid dla kid d ver po) s =
        .next (grantIfBoth (key / 2 ^ 36) dla (modPx (key / 2 ^ 36) dla (fun y => { y with data := some (fillMsg d ver po, kid) }) s))) ∧
  (∀ (src dla ver : Nat) (crd : Bool) (s : State),
      isDead s src = false →
      exec (.cmp src 0xFFF dla ver crd) s = .next (creditIn src s)) ∧
  (∀ (src txid dla ver : Nat) (w : Waiter) (s : State),
      isDead s src = false →
      txid ≠ 0xFFF →
      Table.get? (pxAt s src dla).wrts txid = some (some w) →
      exec (.cmp src txid dla ver false) s =
        .next (pxGo 40 src dla (copyVer src dla ver (completeRemote src w (modPx src dla (fun y => { y with wrts := Table.del y.wrts txid }) s))))) ∧
  (∀ (src txid dla ver : Nat) (s : State),
      isDead s src = false →
      txid ≠ 0xFFF →
      Table.get? (pxAt s src dla).wrts txid = none →
      (pxAt s src dla).txid = some txid →
      (pxAt s src dla).evxSent = true →
      exec (.cmp src txid dla ver true) s =
        .next (creditIn src (pxGo 40 src dla (modPx src dla (fun y => { y with st := none, txid := none, evxSent := false, holding := false }) s)))) ∧
  (∀ (src txid dla : Nat) (s : State),
      isDead s src = false →
      (pxAt s src dla).txid = some txid →
      (pxAt s src dla).evxSent = false →
      (pxAt s src dla).st = some .piX →
      exec (.cmpX src txid dla) s =
        .next (grantIfBoth src dla (modPx src dla (fun y => { y with granted := true }) s))) ∧
  (∀ (src txid dla kid : Nat) (f : Fill) (s : State),
      isDead s src = false →
      (pxAt s src dla).txid = some txid →
      (pxAt s src dla).evxSent = false →
      (pxAt s src dla).st = some .psX →
      (pxAt s src dla).data = none →
      copyOf s src dla = some (f, kid) →
      exec (.cmpX src txid dla) s = .next (grantDone src dla f kid s)) ∧
  (∀ (home txid dla rsn : Nat) (s : State),
      isDead s home = false →
      (pxAt s home dla).txid = some txid →
      (pxAt s home dla).evxSent = false →
      exec (.rtyH home txid dla rsn) s =
        .next ({ s with coh := { s.coh with retries := Table.put s.coh.retries (lkey home dla) { n := ((Table.get? s.coh.retries (lkey home dla)).map (·.n)).getD 0 + 1, due := true } } })) ∧
  (∀ (home dla tx : Nat) (r : Retry) (s : State),
      (pxAt s home dla).txid = some tx →
      Table.get? s.coh.retries (lkey home dla) = some r →
      r.due = true →
      exec (.retryBackoffExpire home dla) s =
        .next (let x := pxAt s home dla; let u := { s with coh := { s.coh with retries := Table.put s.coh.retries (lkey home dla) { r with due := false } } }; sendMsg { cohMsg u (reqKindOf x.st) home tx dla with kid := x.kid, port := (match x.waits.head? with | some w => portField w | none => 3) } u)) ∧
  (∀ (home dla : Nat) (s : State),
      pxWaiting (pxAt s home dla) = true →
      exec (.proxyTimeout home dla) s = .next (event .proxyEnded 9 [home, dla] (endPx home dla s)))

/-- A maintenance command takes effect only while BUSY is clear: BUSY is set, DONE and SKIPPED clear, and each line
from the address on is treated once (R281, R282); the last line applied clears BUSY and sets DONE (R282). The SCC
group is committed by the holder of its clamp (R286): clearing ENABLE makes STATE pending, setting it turns an OFF
cache on, and ways called on are powered at once (R284, R285). A way called off is powered down once its last entry is
flushed (R284), and STATE reads OFF once every line is (R285). -/
def Obligations.CacheUpkeepRows : Prop :=
  (∀ (snd : Sender) (count : Nat) (s : State),
      (maintOf s snd).busy = false →
      exec (.maintClean snd count) s =
        .next (maintLines snd .clean (maintOf s snd).addr (count % 2 ^ 20 + 1) (setMaint snd { maintOf s snd with busy := true, done := false, skipped := false, left := count % 2 ^ 20 + 1, op := some .clean } s))) ∧
  (∀ (snd : Sender) (count : Nat) (s : State),
      (maintOf s snd).busy = true →
      exec (.maintClean snd count) s = .next (s)) ∧
  (∀ (snd : Sender) (count : Nat) (s : State),
      (maintOf s snd).busy = false →
      exec (.maintInval snd count) s =
        .next (maintLines snd .inval (maintOf s snd).addr (count % 2 ^ 20 + 1) (setMaint snd { maintOf s snd with busy := true, done := false, skipped := false, left := count % 2 ^ 20 + 1, op := some .inval } s))) ∧
  (∀ (snd : Sender) (count : Nat) (s : State),
      (maintOf s snd).busy = true →
      exec (.maintInval snd count) s = .next (s)) ∧
  (∀ (snd : Sender) (count : Nat) (s : State),
      (maintOf s snd).busy = false →
      exec (.maintFlush snd count) s =
        .next (maintLines snd .flush (maintOf s snd).addr (count % 2 ^ 20 + 1) (setMaint snd { maintOf s snd with busy := true, done := false, skipped := false, left := count % 2 ^ 20 + 1, op := some .flush } s))) ∧
  (∀ (snd : Sender) (count : Nat) (s : State),
      (maintOf s snd).busy = true →
      exec (.maintFlush snd count) s = .next (s)) ∧
  (∀ (snd : Sender) (s : State),
      (maintOf s snd).busy = true →
      (maintOf s snd).left = 0 →
      exec (.maintDone snd) s =
        .next (setMaint snd { maintOf s snd with busy := false, done := true, op := none } s)) ∧
  (∀ (snd : Sender) (s : State),
      (maintOf s snd).left ≠ 0 →
      exec (.maintDone snd) s = .next (s)) ∧
  (∀ (snd : Sender) (s : State),
      holds snd 1 s = true →
      s.cache.staged.enable = false →
      s.cache.state = 1 →
      exec (.sccCommit snd) s =
        .next ({ s with cache := { s.cache with cfg := s.cache.staged, state := 2, reOn := false, waysOn := s.cache.waysOn ||| notWays s.cache.staged.wayOff } })) ∧
  (∀ (snd : Sender) (s : State),
      holds snd 1 s = true →
      s.cache.staged.enable = false →
      s.cache.state ≠ 1 →
      exec (.sccCommit snd) s =
        .next ({ s with cache := { s.cache with cfg := s.cache.staged, state := s.cache.state, reOn := false, waysOn := s.cache.waysOn ||| notWays s.cache.staged.wayOff } })) ∧
  (∀ (snd : Sender) (s : State),
      holds snd 1 s = true →
      s.cache.staged.enable = true →
      s.cache.state = 0 →
      exec (.sccCommit snd) s =
        .next ({ s with cache := { s.cache with cfg := s.cache.staged, state := 1, reOn := false, waysOn := s.cache.waysOn ||| notWays s.cache.staged.wayOff } })) ∧
  (∀ (snd : Sender) (s : State),
      holds snd 1 s = true →
      s.cache.staged.enable = true →
      s.cache.state = 2 →
      exec (.sccCommit snd) s =
        .next ({ s with cache := { s.cache with cfg := s.cache.staged, state := 2, reOn := true, waysOn := s.cache.waysOn ||| notWays s.cache.staged.wayOff } })) ∧
  (∀ (snd : Sender) (s : State),
      holds snd 1 s = true →
      s.cache.staged.enable = true →
      s.cache.state = 1 →
      exec (.sccCommit snd) s =
        .next ({ s with cache := { s.cache with cfg := s.cache.staged, state := 1, reOn := false, waysOn := s.cache.waysOn ||| notWays s.cache.staged.wayOff } })) ∧
  (∀ (snd : Sender) (s : State),
      holds snd 1 s = false →
      exec (.sccCommit snd) s = .next (noRight snd true 0x5028 s)) ∧
  (∀ (way : Nat) (s : State),
      s.cache.cfg.wayOff / 2 ^ way % 2 = 1 →
      s.cache.waysOn / 2 ^ way % 2 = 1 →
      wayEmpty (flushWays way s) way = true →
      exec (.wayPowerOffDone way) s =
        .next (let u := flushWays way s; { u with cache := { u.cache with waysOn := u.cache.waysOn - 2 ^ way } })) ∧
  (∀ (way : Nat) (s : State),
      s.cache.cfg.wayOff / 2 ^ way % 2 = 0 ∨ s.cache.waysOn / 2 ^ way % 2 = 0 →
      exec (.wayPowerOffDone way) s = .next (s)) ∧
  (∀ (s : State),
      s.cache.state = 2 →
      (List.range 16).all (wayEmpty ((List.range 16).foldl (fun s w => flushWays w s) s)) = true →
      exec .cacheOffDone s =
        .next (let u := (List.range 16).foldl (fun s w => flushWays w s) s; { u with cache := { u.cache with state := if u.cache.reOn then 1 else 0, reOn := false } })) ∧
  (∀ (s : State),
      s.cache.state ≠ 2 →
      exec .cacheOffDone s = .next (s))

/-- On a link that is UP a decoded FEC block whose number is the receiver's count delivers its flits (R374); one that
does not decode delivers none and is answered with a NAK, and a wrong number is lost lock, which takes the link down
(R365, R366, R398). A control flit brings the cumulative credits; with LINK_DOWN it takes the link down, with NAK the
flits are resent from NAK_SEQ (R373, R375). A waiting receiver repeats its NAK (R374); an ACK that has not advanced
for 2 µs resends from the oldest flit (R375). Lock lost on one lane of ×4 retrains at ×2, else the link goes down
(R398). A new key is announced at least 4,096 positions ahead and applies from its block on (R378; the position is
free, log 6). -/
def Obligations.LinkReceiveRows : Prop :=
  (∀ (port : Nat) (blk : FecBlock) (s : State),
      (sglAt s port).st = .up →
      blk.decoded = true →
      blk.blk = (sglAt s port).blocks % 4096 →
      exec (.fecBlockReceive port blk) s =
        .next (blk.flits.foldl (recvFlit port) (modSgl port (fun x => { x with blocks := x.blocks + 1 }) s))) ∧
  (∀ (port : Nat) (blk : FecBlock) (s : State),
      (sglAt s port).st = .up →
      blk.decoded = false →
      exec (.fecBlockReceive port blk) s =
        .next (badFlit port (modSgl port (fun x => { x with fecUe := satInc 8 x.fecUe }) (modSgl port (fun x => { x with blocks := x.blocks + 1 }) s)))) ∧
  (∀ (port : Nat) (blk : FecBlock) (s : State),
      (sglAt s port).st = .up →
      blk.decoded = true →
      blk.blk ≠ (sglAt s port).blocks % 4096 →
      exec (.fecBlockReceive port blk) s =
        .next (linkDown port (modSgl port (fun x => { x with blocks := x.blocks + 1 }) s))) ∧
  (∀ (port : Nat) (ctl : CtlPayload) (s : State),
      (sglAt s port).st = .up →
      ctl.linkDown = false →
      ctl.keySwitch = false →
      ctl.retrainReq = false →
      ctl.nak = false →
      exec (.controlFlit port ctl) s = .next (modSgl port (fun x => { x with freed := ctl.credits }) s)) ∧
  (∀ (port : Nat) (ctl : CtlPayload) (s : State),
      (sglAt s port).st = .up →
      ctl.linkDown = true →
      exec (.controlFlit port ctl) s =
        .next (linkDown port (modSgl port (fun x => { x with freed := ctl.credits }) s))) ∧
  (∀ (port : Nat) (ctl : CtlPayload) (s : State),
      (sglAt s port).st = .up →
      ctl.linkDown = false →
      ctl.keySwitch = false →
      ctl.retrainReq = false →
      ctl.nak = true →
      exec (.controlFlit port ctl) s =
        .next (replayFrom port ctl.nakSeq (modSgl port (fun x => { x with freed := ctl.credits }) s))) ∧
  (∀ (port : Nat) (ctl : CtlPayload) (s : State),
      (sglAt s port).st = .up →
      ctl.linkDown = false →
      ctl.keySwitch = true →
      ctl.retrainReq = false →
      ctl.nak = false →
      keyAtOk (sglAt (modSgl port (fun x => { x with freed := ctl.credits }) s) port) ctl.keyAt = true →
      exec (.controlFlit port ctl) s =
        .next (modSgl port (fun x => { x with keyAt := some ctl.keyAt }) (modSgl port (fun x => { x with freed := ctl.credits }) s))) ∧
  (∀ (port : Nat) (s : State),
      (sglAt s port).nakWait = true →
      (sglAt s port).st = .up →
      exec (.nakRepeat port) s =
        .next (emit (.control port (controlOf (sglAt s port) true false false 0)) (modSgl port (fun x => { x with nakWait := true }) s))) ∧
  (∀ (port : Nat) (s : State),
      (sglAt s port).nakWait = false →
      exec (.nakRepeat port) s = .next (s)) ∧
  (∀ (port : Nat) (f : TxFlit) (fs : List TxFlit) (s : State),
      (sglAt s port).retry = f :: fs →
      (sglAt s port).st = .up →
      exec (.ackTimeout port) s = .next (replayFrom port f.seq s)) ∧
  (∀ (port : Nat) (s : State),
      (sglAt s port).retry = [] →
      exec (.ackTimeout port) s = .next (s)) ∧
  (∀ (port : Nat) (s : State),
      (sglAt s port).st = .up →
      exec (.controlFlitDue port) s = .next (emit (.control port (controlOf (sglAt s port) false false false 0)) s)) ∧
  (∀ (port : Nat) (s : State),
      exec (.blockDecodeTimeout port) s = .next (linkDown port s)) ∧
  (∀ (port lane : Nat) (s : State),
      (sglAt s port).width = 3 →
      exec (.blockLockLoss port [lane]) s = .next (retrainLink port lane s)) ∧
  (∀ (port lane : Nat) (s : State),
      (sglAt s port).width ≠ 3 →
      exec (.blockLockLoss port [lane]) s = .next (linkDown port s)) ∧
  (∀ (port a b : Nat) (ls : List Nat) (s : State),
      exec (.blockLockLoss port (a :: b :: ls)) s = .next (linkDown port s)) ∧
  (∀ (port : Nat) (s : State),
      (sglAt s port).st = .up →
      exec (.rekey port) s =
        .next (let a := 5 * (820 + Config.freeNat (draw s).1); emit (.control port (controlOf (sglAt (draw s).2 port) false true false a)) (modSgl port (fun x => { x with keyGen := (x.keyGen.1, x.keyGen.2 + 1) }) (draw s).2))) ∧
  (∀ (port at_ : Nat) (s : State),
      (sglAt s port).keyAt = some at_ →
      exec (.keySwitchApply port) s =
        .next (modSgl port (fun x => { x with keyAt := none, keyBlk := x.keyBlk + at_ / 5, keyGen := (x.keyGen.1 + 1, x.keyGen.2) }) s)) ∧
  (∀ (port : Nat) (s : State),
      (sglAt s port).keyAt = none →
      exec (.keySwitchApply port) s = .next (s))

/-- A port trains while the firmware runs and the supply is up: no lane stays at DETECT, no lock at EQ, and else its
IDENT is sent, and a failed check of IDENT or of the certificate makes it REFUSED with the first reason (R380, R381,
R376, R400), and the rest brings it UP (R389). A refused port goes back to DETECT after 10 s (R380). A message for
this node is delivered and one for another is forwarded; one whose destination cannot be reached is discarded (R383).
SALVAGE injects again every message after the neighbour's last SEQ, in order (R399); a partial payload is discarded
after 10 ms (R370). -/
def Obligations.LinkTrainRows : Prop :=
  (∀ (port : Nat) (inp : TrainInput) (s : State),
      (sglAt s port).st ≠ .up →
      (sglAt s port).st ≠ .refused →
      s.mb.mpReady = true →
      s.pw.phase = .boot ∨ s.pw.phase = .replay ∨ s.pw.phase = .service ∨ s.pw.phase = .flush →
      inp.width = 0 →
      exec (.linkTrain port inp) s = .next (modSgl port (fun x => { x with st := .detect, width := 0 }) s)) ∧
  (∀ (port : Nat) (inp : TrainInput) (s : State),
      (sglAt s port).st ≠ .up →
      (sglAt s port).st ≠ .refused →
      s.mb.mpReady = true →
      s.pw.phase = .boot ∨ s.pw.phase = .replay ∨ s.pw.phase = .service ∨ s.pw.phase = .flush →
      inp.width ≠ 0 →
      inp.lockOk = false →
      exec (.linkTrain port inp) s = .next (modSgl port (fun x => { x with st := .eq, width := 0 }) s)) ∧
  (∀ (port : Nat) (inp : TrainInput) (s : State),
      (sglAt s port).st ≠ .up →
      (sglAt s port).st ≠ .refused →
      s.mb.mpReady = true →
      s.pw.phase = .boot ∨ s.pw.phase = .replay ∨ s.pw.phase = .service ∨ s.pw.phase = .flush →
      inp.width ≠ 0 →
      inp.lockOk = true →
      identCheck s inp = 0 →
      exec (.linkTrain port inp) s =
        .next (linkUp port inp (modSgl port (fun x => { x with refuse := 0 }) (emit (.identity port (identity s port)) s)))) ∧
  (∀ (port : Nat) (inp : TrainInput) (s : State),
      (sglAt s port).st ≠ .up →
      (sglAt s port).st ≠ .refused →
      s.mb.mpReady = true →
      s.pw.phase = .boot ∨ s.pw.phase = .replay ∨ s.pw.phase = .service ∨ s.pw.phase = .flush →
      inp.width ≠ 0 →
      inp.lockOk = true →
      identCheck s inp ≠ 0 →
      identCheck s inp ≠ 3 →
      exec (.linkTrain port inp) s =
        .next (modSgl port (fun x => { x with st := .refused, refuse := identCheck s inp, width := 0, nbr := inp.nbrNode, nbrPort := inp.nbrPort }) (emit (.identity port (identity s port)) s))) ∧
  (∀ (port : Nat) (inp : TrainInput) (s : State),
      (sglAt s port).st ≠ .up →
      (sglAt s port).st ≠ .refused →
      s.mb.mpReady = true →
      s.pw.phase = .boot ∨ s.pw.phase = .replay ∨ s.pw.phase = .service ∨ s.pw.phase = .flush →
      inp.width ≠ 0 →
      inp.lockOk = true →
      identCheck s inp = 3 →
      exec (.linkTrain port inp) s =
        .next (duplicate (me s) inp.nbrSerial (modSgl port (fun x => { x with st := .refused, refuse := 3, width := 0, nbr := inp.nbrNode, nbrPort := inp.nbrPort }) (emit (.identity port (identity s port)) s)))) ∧
  (∀ (port : Nat) (inp : TrainInput) (s : State),
      (sglAt s port).st = .up ∨ (sglAt s port).st = .refused ∨ s.mb.mpReady = false ∨ s.pw.phase = .off ∨ s.pw.phase = .standby ∨ s.pw.phase = .powerDown →
      exec (.linkTrain port inp) s = .next (s)) ∧
  (∀ (port : Nat) (s : State),
      (sglAt s port).st = .refused →
      exec (.refusedRetry port) s = .next (modSgl port (fun x => { x with st := .detect, refuse := 0 }) s)) ∧
  (∀ (inPort sub : Nat) (msg : SglMsg) (s : State),
      msg.dst = me s →
      exec (.messageForward inPort sub msg) s =
        .next (deliverMsg inPort msg { s with fab := { s.fab with waiting := s.fab.waiting.erase msg } })) ∧
  (∀ (inPort sub : Nat) (msg : SglMsg) (s : State),
      msg.dst ≠ me s →
      exec (.messageForward inPort sub msg) s = .next (forward inPort sub msg s)) ∧
  (∀ (inPort sub : Nat) (msg : SglMsg) (e : RouteEntry) (s : State),
      msg.dst ≠ me s →
      Table.get? s.sgl.routes msg.dst = some e →
      e.reach = false →
      exec (.messageForward inPort sub msg) s = .next (unreachable msg s)) ∧
  (∀ (inPort : Nat) (msg : SglMsg) (e : RouteEntry) (p : Nat) (s : State),
      msg.dst ≠ me s →
      Table.get? s.sgl.routes msg.dst = some e →
      e.reach = true →
      isManagement msg = false →
      adaptivePort s e msg = some p →
      exec (.messageForward inPort 0 msg) s = .next (transmit p 0 msg s)) ∧
  (∀ (src txid mcode : Nat) (s : State),
      exec (.fragmentTimeout src txid mcode) s =
        .next ({ s with fab := { s.fab with frags := Table.del s.fab.frags (fragKey src txid mcode) } })) ∧
  (∀ (port lastSeq : Nat) (s : State),
      (sglAt s port).st ≠ .up →
      (sglAt s port).retry.any (fun f => f.seq == lastSeq) = true →
      exec (.salvage port lastSeq) s =
        .next ({ (modSgl port (fun x => { x with retry := [] }) s) with fab := { s.fab with waiting := s.fab.waiting ++ (((sglAt s port).retry.dropWhile (fun f => f.seq != lastSeq)).tail.map (·.msgs)).flatten } })) ∧
  (∀ (port lastSeq : Nat) (s : State),
      (sglAt s port).st ≠ .up →
      (sglAt s port).retry.any (fun f => f.seq == lastSeq) = false →
      exec (.salvage port lastSeq) s =
        .next ({ (modSgl port (fun x => { x with retry := [] }) s) with fab := { s.fab with waiting := s.fab.waiting ++ ((sglAt s port).retry.map (·.msgs)).flatten } }))

/-- An LSA already seen changes nothing, and a new one is kept, flooded on, judged against the partition it may come
from (R397) and may call for READY (R389, R391); routes follow a change of the database (R389). READY is recorded for
its child and goes up once every child's is in (R391); pool-ready at the end of the gather window, and every JOIN,
DEAD or unreachable member issue a generation at the ridge (R388, R394, R397), and a MEMBER with no higher generation
changes nothing (R388, R395). At the hold limit the requests held are answered (R393). A duplicate node ID ends when
one of its serials is gone (R387). -/
def Obligations.PoolRows : Prop :=
  (∀ (port : Nat) (body : Lsa) (s : State),
      s.sgl.lsdb.any (fun x => x.1.origin == body.origin && x.1.serial == body.serial && decide (body.seq ≤ x.1.seq)) = true →
      exec (.lsa port body) s = .next (s)) ∧
  (∀ (port : Nat) (body : Lsa) (s : State),
      s.sgl.lsdb.any (fun x => x.1.origin == body.origin && x.1.serial == body.serial && decide (body.seq ≤ x.1.seq)) = false →
      ((lsasOf (floodTo 1 (lsaWords body) ((upPorts s).filter (· != port)) (storeLsa body s)) body.origin).find? (fun l => l.serial != body.serial)).isSome = false →
      (body.origin == me (floodTo 1 (lsaWords body) ((upPorts s).filter (· != port)) (storeLsa body s)) && (floodTo 1 (lsaWords body) ((upPorts s).filter (· != port)) (storeLsa body s)).sgl.cfg.nodeSet && body.serial != mySerial) = false →
      exec (.lsa port body) s =
        .next (sendReady (meetPartition (floodTo 1 (lsaWords body) ((upPorts s).filter (· != port)) (storeLsa body s))))) ∧
  (∀ (s : State),
      s.sgl.stale = true →
      exec .routeInstall s = .next (installRoutes s)) ∧
  (∀ (s : State),
      s.sgl.stale = false →
      exec .routeInstall s = .next (s)) ∧
  (∀ (child : Nat) (map : List Nat) (s : State),
      exec (.ready child map) s =
        .next (sendReady { s with sgl := { s.sgl with readies := Table.put s.sgl.readies child (mapBits map), readySent := none } })) ∧
  (∀ (s : State),
      s.sgl.gathering = true →
      isRidge s = true →
      s.sgl.declared = false →
      exec .gatherWindowExpire s = .next (issue (without (readyMap s &&& s.sgl.cfg.roster) s.fab.dups) s)) ∧
  (∀ (s : State),
      s.sgl.declared = true ∨ s.sgl.gathering = false →
      exec .gatherWindowExpire s = .next (s)) ∧
  (∀ (port gen ridge : Nat) (map : List Nat) (s : State),
      s.sgl.cfg.pool ≠ 0 →
      s.sgl.gen < gen →
      exec (.member port gen ridge map) s =
        .next (takeMember gen ridge (mapBits map) (floodTo 3 (memberWords gen ridge (mapBits map)) ((upPorts s).filter (· != port)) s))) ∧
  (∀ (port gen ridge : Nat) (map : List Nat) (s : State),
      s.sgl.cfg.pool = 0 ∨ gen ≤ s.sgl.gen →
      exec (.member port gen ridge map) s = .next (s)) ∧
  (∀ (s : State),
      s.sgl.state ≠ 2 →
      exec .holdLimitExpire s =
        .next (s.fab.hold.foldl (fun s x => answerAbsent x.1 x.2.1 x.2.2 s) { s with fab := { s.fab with hold := [], holdOver := true } })) ∧
  (∀ (s : State),
      s.sgl.state = 2 →
      exec .holdLimitExpire s = .next (s)) ∧
  (∀ (node serial : Nat) (s : State),
      isRidge s = true →
      s.sgl.declared = true →
      s.sgl.members / 2 ^ node % 2 = 0 →
      onRoster s node = true →
      s.fab.dups.contains node = false →
      (lsasOf s node).all (fun l => l.serial == serial) = true →
      exec (.join node serial) s = .next (issue (s.sgl.members + 2 ^ node) s)) ∧
  (∀ (node serial : Nat) (s : State),
      isRidge s = false →
      exec (.join node serial) s = .next (s)) ∧
  (∀ (node cause : Nat) (s : State),
      isRidge s = true →
      s.sgl.declared = true →
      present s node = true →
      node ≠ me s →
      exec (.dead node cause) s = .next (issue (without s.sgl.members [node]) s)) ∧
  (∀ (node cause : Nat) (s : State),
      isRidge s = false →
      exec (.dead node cause) s = .next (s)) ∧
  (∀ (node : Nat) (s : State),
      s.sgl.declared = true →
      present s node = true →
      node ≠ me s →
      (distIn (distances s (me s)) node).isSome = false →
      node ≠ s.sgl.ridge →
      isRidge s = true →
      exec (.memberUnreachable node) s =
        .next (issue (without s.sgl.members [node]) (event .nodeDead 9 [node, 2] s))) ∧
  (∀ (node : Nat) (s : State),
      s.sgl.declared = true →
      present s node = true →
      node ≠ me s →
      (distIn (distances s (me s)) node).isSome = false →
      node = s.sgl.ridge →
      successor s node = some (me s) →
      exec (.memberUnreachable node) s =
        .next (let u := event .nodeDead 9 [node, 2] { s with sgl := { s.sgl with ridge := me s } }; issue (without u.sgl.members [node]) u)) ∧
  (∀ (node serial : Nat) (s : State),
      s.fab.dups.contains node = false →
      exec (.duplicateExpire node serial) s = .next (s)) ∧
  (∀ (node serial : Nat) (s : State),
      s.fab.dups.contains node = true →
      ((lsasOf { s with sgl := { s.sgl with lsdb := s.sgl.lsdb.filter (fun x => !(x.1.origin == node && x.1.serial == serial && serial != mySerial)), stale := true } } node).map (·.serial)).dedup.length ≤ 1 →
      node ≠ me s →
      exec (.duplicateExpire node serial) s =
        .next (let u := { s with sgl := { s.sgl with lsdb := s.sgl.lsdb.filter (fun x => !(x.1.origin == node && x.1.serial == serial && serial != mySerial)), stale := true } }; { u with fab := { u.fab with dups := u.fab.dups.erase node } }))

/-- A waiting read starts in the order of its priority (R98) once a transfer slot can be reserved on the channel of
every die that it senses (R99); it reserves them, takes its course's bucket byte (R158), and is classified against the
busy table when it starts (R89): on an unclaimed partition its own die is sensed, on a claimed one the other members
by flashing read (R94), and in a stripe that lost a member its own die, or the others where it is that die, with an
operation on them suspended (R97, R219); a speculative read is not started where it would be a flashing one (R51). A
transfer takes the read out of READS, and a fenced or suspended operation on that die goes on when none is left (R74,
R86). A free slot is granted to the class R103 names. A program's PASS or FAIL and a reset's end free the claim (R70,
R73, R86). -/
def Obligations.MediumReadRows : Prop :=
  (∀ (rid : Nat) (rd : MedRead) (x : Stripe) (s : State),
      Table.get? s.sched.reads rid = some rd →
      rd.started = false →
      s.sched.held = false →
      outranked s rid rd = false →
      slotsOpen s rd (readPlan s rd.loc).1 = true →
      stripeAt s rd.loc.stripe = some x →
      x.lost = [] →
      claimedAt s rd.loc = false →
      exec (.mediumReadStart rid) s =
        .next (startSenses rd.loc [rd.loc.stack] (reserveSlots (rd.prio == 2) rd.loc.fast rd.loc.group [rd.loc.stack] (modRead rid (fun r => { r with started := true, flashing := false, suspended := false, bucket := readByte s rd.loc.stack rd.loc.stripe }) (countConfirmed rd.use false s))))) ∧
  (∀ (rid : Nat) (rd : MedRead) (x : Stripe) (s : State),
      Table.get? s.sched.reads rid = some rd →
      rd.started = false →
      s.sched.held = false →
      outranked s rid rd = false →
      slotsOpen s rd (readPlan s rd.loc).1 = true →
      stripeAt s rd.loc.stripe = some x →
      x.lost = [] →
      claimedAt s rd.loc = true →
      rd.use.isSpec = false →
      exec (.mediumReadStart rid) s =
        .next (startSenses rd.loc (x.members.filter (fun t => t != rd.loc.stack)) (reserveSlots (rd.prio == 2) rd.loc.fast rd.loc.group (x.members.filter (fun t => t != rd.loc.stack)) (modRead rid (fun r => { r with started := true, flashing := true, suspended := false, bucket := readByte s rd.loc.stack rd.loc.stripe }) (countConfirmed rd.use true s))))) ∧
  (∀ (rid : Nat) (rd : MedRead) (x : Stripe) (s : State),
      Table.get? s.sched.reads rid = some rd →
      rd.started = false →
      s.sched.held = false →
      outranked s rid rd = false →
      slotsOpen s rd (readPlan s rd.loc).1 = true →
      stripeAt s rd.loc.stripe = some x →
      x.lost.contains rd.loc.stack = true →
      rd.use.isSpec = false →
      exec (.mediumReadStart rid) s =
        .next (let u := suspendFor (x.members.filter (fun t => t != rd.loc.stack)) rd.loc.group rd.loc.part s; startSenses rd.loc (x.members.filter (fun t => t != rd.loc.stack)) (reserveSlots (rd.prio == 2) rd.loc.fast rd.loc.group (x.members.filter (fun t => t != rd.loc.stack)) (modRead rid (fun r => { r with started := true, flashing := true, suspended := true, bucket := readByte u rd.loc.stack rd.loc.stripe }) (countConfirmed rd.use true u))))) ∧
  (∀ (rid : Nat) (rd : MedRead) (x : Stripe) (s : State),
      Table.get? s.sched.reads rid = some rd →
      rd.started = false →
      s.sched.held = false →
      outranked s rid rd = false →
      slotsOpen s rd (readPlan s rd.loc).1 = true →
      stripeAt s rd.loc.stripe = some x →
      x.lost.contains rd.loc.stack = false →
      x.lost ≠ [] →
      exec (.mediumReadStart rid) s =
        .next (let u := suspendFor [rd.loc.stack] rd.loc.group rd.loc.part s; startSenses rd.loc [rd.loc.stack] (reserveSlots (rd.prio == 2) rd.loc.fast rd.loc.group [rd.loc.stack] (modRead rid (fun r => { r with started := true, flashing := false, suspended := true, bucket := readByte u rd.loc.stack rd.loc.stripe }) (countConfirmed rd.use false u))))) ∧
  (∀ (rid : Nat) (rd : MedRead) (s : State),
      Table.get? s.sched.reads rid = some rd →
      rd.use.isSpec = true →
      (readPlan s rd.loc).2 = true →
      exec (.mediumReadStart rid) s = .next (s)) ∧
  (∀ (rid : Nat) (rd : MedRead) (s : State),
      Table.get? s.sched.reads rid = some rd →
      outranked s rid rd = true ∨ slotsOpen s rd (readPlan s rd.loc).1 = false →
      exec (.mediumReadStart rid) s = .next (s)) ∧
  (∀ (rid : Nat) (rd : MedRead) (s : State),
      Table.get? s.sched.reads rid = some rd →
      rd.started = true ∨ s.sched.held = true →
      exec (.mediumReadStart rid) s = .next (s)) ∧
  (∀ (group part stack : Nat) (s : State),
      nthD (busyAt s group part).reads stack 0 ≠ 0 →
      (busyAt s group part).stack = stack →
      exec (.readTransferred group part stack) s =
        .next (tryOperate group part (bumpReads group part stack (· - 1) s))) ∧
  (∀ (group part stack : Nat) (s : State),
      nthD (busyAt s group part).reads stack 0 ≠ 0 →
      (busyAt s group part).stack ≠ stack →
      exec (.readTransferred group part stack) s = .next (bumpReads group part stack (· - 1) s)) ∧
  (∀ (group part stack : Nat) (s : State),
      nthD (busyAt s group part).reads stack 0 = 0 →
      exec (.readTransferred group part stack) s = .next (s)) ∧
  (∀ (cls : Nat) (cr : List Int) (j : Job) (s : State),
      progAllowed s = true →
      claimedCount s < slotsInForce s →
      nextClass s = (some cls, cr) →
      workOf s cls = some j →
      exec .slotGrant s = .next (claim cls j { s with sched := { s.sched with credits := cr } })) ∧
  (∀ (s : State),
      progAllowed s = false ∨ slotsInForce s ≤ claimedCount s →
      exec .slotGrant s = .next (s)) ∧
  (∀ (group part : Nat) (s : State),
      (busyAt s group part).state = 2 →
      exec (.rowProgramDone group part true) s =
        .next (rowPass (stripeKey group part (busyAt s group part).course) (busyAt s group part).stack (busyAt s group part).row (setBusy group part { busyAt s group part with state := 0 } { s with sched := { s.sched with rowData := Table.del s.sched.rowData (busyKey group part) } }))) ∧
  (∀ (group part : Nat) (s : State),
      (busyAt s group part).state = 2 →
      exec (.rowProgramDone group part false) s =
        .next (courseFail (stripeKey group part (busyAt s group part).course) (busyAt s group part).stack (setBusy group part { busyAt s group part with state := 0 } { s with sched := { s.sched with rowData := Table.del s.sched.rowData (busyKey group part) } }))) ∧
  (∀ (group part : Nat) (pass : Bool) (s : State),
      (busyAt s group part).state ≠ 2 →
      exec (.rowProgramDone group part pass) s = .next (s)) ∧
  (∀ (group part : Nat) (pass : Bool) (s : State),
      (busyAt s group part).state = 3 →
      exec (.resetDone group part pass) s =
        .next (updateDegraded (finishReset (stripeKey group part (busyAt s group part).course) (busyAt s group part).stack pass (setBusy group part { busyAt s group part with state := 0, reset := false } s)))) ∧
  (∀ (group part : Nat) (pass : Bool) (s : State),
      (busyAt s group part).state ≠ 3 →
      exec (.resetDone group part pass) s = .next (s))

/-- A missed deadline is kept for 1 ms and the access is made again on the other members; the third within 1 ms
declares the unit failed (R225, R310). A die's or channel's internal fault declares it at once (R225): its stripes
lose a member, reads are held, and a second die or the other channel within 1 ms fails the stack (R218, R226). At the
end of a fault's interruption its requests are released and Degraded follows what is left of it (R218, R224); a
release of a fault not held changes nothing. -/
def Obligations.MediumFaultRows : Prop :=
  (∀ (t g : Nat) (s : State),
      (((missId (.die t g), s.now) :: s.sched.misses).filter (fun m => decide (s.now - m.2 < millisecond))).countP (fun m => m.1 == missId (.die t g)) < 3 →
      exec (.responseDeadlineMiss (.die t g)) s =
        .next (reissue t (fun h => h == g) { s with sched := { s.sched with misses := (((missId (.die t g), s.now) :: s.sched.misses).filter (fun m => decide (s.now - m.2 < millisecond))) } })) ∧
  (∀ (n : Nat) (s : State),
      (((missId (.channel n), s.now) :: s.sched.misses).filter (fun m => decide (s.now - m.2 < millisecond))).countP (fun m => m.1 == missId (.channel n)) < 3 →
      exec (.responseDeadlineMiss (.channel n)) s =
        .next (reissue (n / 2) (fun h => h / 4 == n % 2) { s with sched := { s.sched with misses := (((missId (.channel n), s.now) :: s.sched.misses).filter (fun m => decide (s.now - m.2 < millisecond))) } })) ∧
  (∀ (t g : Nat) (s : State),
      3 ≤ (((missId (.die t g), s.now) :: s.sched.misses).filter (fun m => decide (s.now - m.2 < millisecond))).countP (fun m => m.1 == missId (.die t g)) →
      exec (.responseDeadlineMiss (.die t g)) s =
        .next (declareFailed (.die t g) (let u := reissue t (fun h => h == g) { s with sched := { s.sched with misses := (((missId (.die t g), s.now) :: s.sched.misses).filter (fun m => decide (s.now - m.2 < millisecond))) } }; { u with sched := { u.sched with misses := (((missId (.die t g), s.now) :: s.sched.misses).filter (fun m => decide (s.now - m.2 < millisecond))).filter (fun m => m.1 != missId (.die t g)) } }))) ∧
  (∀ (t g : Nat) (s : State),
      dieLost s t g = false →
      declaredLately s (otherDie t g) = false →
      exec (.dieInternalFault (.die t g)) s =
        .next (holdMedium (event .dieFailed 7 [t, g] (loseDie t g { s with prot := { s.prot with declared := (.die t g, s.now) :: s.prot.declared } })))) ∧
  (∀ (t g : Nat) (s : State),
      dieLost s t g = false →
      declaredLately s (otherDie t g) = true →
      exec (.dieInternalFault (.die t g)) s =
        .next (failStack t (holdMedium (event .dieFailed 7 [t, g] (loseDie t g { s with prot := { s.prot with declared := (.die t g, s.now) :: s.prot.declared } }))))) ∧
  (∀ (t g : Nat) (s : State),
      dieLost s t g = true →
      exec (.dieInternalFault (.die t g)) s = .next (s)) ∧
  (∀ (s : State),
      s.prot.faults.contains .medium = true →
      exec (.faultRelease .medium) s =
        .next (updateDegraded { s with prot := { s.prot with faults := s.prot.faults.erase .medium }, sched := { s.sched with held := false } })) ∧
  (∀ (d : Nat) (s : State),
      s.prot.faults.contains (.lpddr d) = true →
      exec (.faultRelease (.lpddr d)) s =
        .next (let u := { s with prot := { s.prot with faults := s.prot.faults.erase (.lpddr d) } }; releaseWrites (abandoned u (updateDegraded u)))) ∧
  (∀ (f : HeldFault) (s : State),
      s.prot.faults.contains f = false →
      exec (.faultRelease f) s = .next (s))

/-- A round of a stripe begins once its rows are staged, or at its limit with pad sectors (R91, R121). The read-back
of a passed DRAIN row with at most 2 bit errors checks the row and releases what it holds; with more, or undecoded,
the course fails (R131, R143); so the verify read of a dense row (R132, R133, R142). RGEN advances when the counter it
would reuse reads zero in every slice, the misses that have captured a location under it counted with the reads
(R140), and a stripe in RECLAIM is granted its resets once the epochs that emptied it have committed, the courses that
received its pages are VERIFIED, and RGEN has advanced twice (R141). -/
def Obligations.PlacementRows : Prop :=
  (∀ (group stream k : Nat) (x : Stripe) (s : State),
      s.tr.stripes.find? (fun x => stripeGroup x.1 == group && x.2.stream == stream && !x.2.failed && !x.2.reclaim && roundReady x.2 x.2.begun && decide (x.2.rounds.length < 4)) = some (k, x) →
      exec (.roundStart group stream) s = .next (startRound k s)) ∧
  (∀ (group stream : Nat) (s : State),
      s.tr.stripes.find? (fun x => stripeGroup x.1 == group && x.2.stream == stream && !x.2.failed && !x.2.reclaim && roundReady x.2 x.2.begun && decide (x.2.rounds.length < 4)) = none →
      exec (.roundStart group stream) s = .next (s)) ∧
  (∀ (group stream k : Nat) (x : Stripe) (s : State),
      s.tr.stripes.find? (fun x => stripeGroup x.1 == group && x.2.stream == stream && !x.2.failed && !x.2.reclaim && (match topRow x.2 with | some r => decide (x.2.begun ≤ r) | none => false)) = some (k, x) →
      exec (.roundDeadline group stream) s = .next (startRound k (padTo k x.begun s))) ∧
  (∀ (group stream : Nat) (s : State),
      s.tr.stripes.find? (fun x => stripeGroup x.1 == group && x.2.stream == stream && !x.2.failed && !x.2.reclaim && (match topRow x.2 with | some r => decide (x.2.begun ≤ r) | none => false)) = none →
      exec (.roundDeadline group stream) s = .next (s)) ∧
  (∀ (stripe stack row b : Nat) (x : Stripe) (s : State),
      stripeAt s stripe = some x →
      x.stream = 0 →
      row < x.passed →
      x.members.contains stack = true →
      b ≤ 2 →
      exec (.drainRowReadback stripe stack row (some b)) s =
        .next (let u := checkRow stripe stack row s; ((rowTouch true row).filter (fun n => match stripeAt u stripe with | some y => rowsChecked y stack n | none => false)).foldl (fun s n => releaseStaged (locOf stripe stack true n) s) u)) ∧
  (∀ (stripe stack row b : Nat) (x : Stripe) (s : State),
      stripeAt s stripe = some x →
      x.stream = 0 →
      row < x.passed →
      x.members.contains stack = true →
      2 < b →
      exec (.drainRowReadback stripe stack row (some b)) s = .next (courseFail stripe stack s)) ∧
  (∀ (stripe stack row : Nat) (x : Stripe) (s : State),
      stripeAt s stripe = some x →
      x.stream = 0 →
      row < x.passed →
      x.members.contains stack = true →
      exec (.drainRowReadback stripe stack row none) s = .next (courseFail stripe stack s)) ∧
  (∀ (stripe stack row b : Nat) (x : Stripe) (s : State),
      stripeAt s stripe = some x →
      x.reclaim = false →
      row < x.passed →
      x.members.contains stack = true →
      x.fast = false →
      b ≤ 2 →
      exec (.verifyReadDue stripe stack row (some b)) s = .next (checkRow stripe stack row s)) ∧
  (∀ (stripe stack row b : Nat) (x : Stripe) (s : State),
      stripeAt s stripe = some x →
      x.reclaim = false →
      row < x.passed →
      x.members.contains stack = true →
      x.fast = false →
      2 < b →
      exec (.verifyReadDue stripe stack row (some b)) s = .next (courseFail stripe stack s)) ∧
  (∀ (s : State),
      (List.range 16).all (fun sl => Table.getD s.sched.readers (sl * 4 + (s.sched.rgen + 1) % 4) 0 + captured s sl (s.sched.rgen + 1) == 0) = true →
      exec .rgenAdvance s = .next ({ s with sched := { s.sched with rgen := s.sched.rgen + 1 } })) ∧
  (∀ (s : State),
      (List.range 16).all (fun sl => Table.getD s.sched.readers (sl * 4 + (s.sched.rgen + 1) % 4) 0 + captured s sl (s.sched.rgen + 1) == 0) = false →
      exec .rgenAdvance s = .next (s)) ∧
  (∀ (stripe : Nat) (x : Stripe) (s : State),
      stripeAt s stripe = some x →
      x.reclaim = true →
      x.resets = [] →
      heirsVerified s x = true →
      x.emptyEp ≤ s.per.committed →
      x.emptyGen + 2 ≤ s.sched.rgen →
      exec (.reclaimGrant stripe) s =
        .next (modStripe stripe (fun y => { y with resets := y.members, resetAt := s.now }) s)) ∧
  (∀ (stripe : Nat) (x : Stripe) (s : State),
      stripeAt s stripe = some x →
      s.per.committed < x.emptyEp ∨ s.sched.rgen < x.emptyGen + 2 ∨ heirsVerified s x = false →
      exec (.reclaimGrant stripe) s = .next (s))

/-- A resumed DMA channel writes its failed sectors as poison sectors and goes on, while the MP runs (R197, R198). A
relocated page is switched once all its target rows are verified, and not before (R127). Fold takes the lines of the
source of R125 quadrant by quadrant, hot ones being drained again (R123, R124). Garbage collection first rewrites the
metadata of a META stripe that failed or weakened (R143, R191); it empties the victim of R136 below 1,024 free
stripes, or a failed or weak stripe whatever is free, and at 512 free stripes without a victim the device enters Read-
Only (R135, R146). The leveller, refresh and rebuild empty their next stripe, metadata being rewritten (R139, R172,
R173, R220). Re-mirroring copies one channel-row at a time (R312, R313). -/
def Obligations.RelocationRows : Prop :=
  (∀ (chan : Nat) (s : State),
      chanHalted s chan = false ∨ s.mb.mpReady = false →
      exec (.dmaResume chan) s = .next (s)) ∧
  (∀ (chan : Nat) (s : State),
      chanHalted s chan = true →
      s.mb.mpReady = true →
      s.tr.relocs.filter (fun r => !r.2.halted.isEmpty && chanBit (quadOfLpn r.1) r.2.kind.chan == chan) = [] →
      exec (.dmaResume chan) s =
        .next (stagePages (placeBacks { s with prot := { s.prot with halted := s.prot.halted - 2 ^ chan, haltPage := Table.del s.prot.haltPage chan } }))) ∧
  (∀ (chan lpn : Nat) (r : Reloc) (s : State),
      chanHalted s chan = true →
      s.mb.mpReady = true →
      s.tr.relocs.filter (fun r => !r.2.halted.isEmpty && chanBit (quadOfLpn r.1) r.2.kind.chan == chan) = [(lpn, r)] →
      exec (.dmaResume chan) s =
        .next (let u := { s with prot := { s.prot with halted := s.prot.halted - 2 ^ chan, haltPage := Table.del s.prot.haltPage chan } }; stagePages (placeBacks { u with tr := { u.tr with relocs := Table.put u.tr.relocs lpn { r with halted := [], got := r.halted.foldl (fun g line => Table.put g line (poisonSector false r.epoch)) r.got } } }))) ∧
  (∀ (lpn : Nat) (r : Reloc) (l : Loc) (s : State),
      Table.get? s.tr.relocs lpn = some r →
      r.target = some l →
      pageVerified s l = true →
      exec (.relocationSwitch lpn) s = .next (switchPage lpn r l s)) ∧
  (∀ (lpn : Nat) (r : Reloc) (l : Loc) (s : State),
      Table.get? s.tr.relocs lpn = some r →
      r.target = some l →
      pageVerified s l = false →
      exec (.relocationSwitch lpn) s = .next (s)) ∧
  (∀ (lpn : Nat) (s : State),
      Table.get? s.tr.relocs lpn = none →
      exec (.relocationSwitch lpn) s = .next (s)) ∧
  (∀ (quadrant : Nat) (s : State),
      foldOffered (foldForBacks (stagePages (placeBacks (finishBacks (reclaimEmptied 0 s))))) = false →
      exec (.foldStep quadrant) s =
        .next (foldForBacks (stagePages (placeBacks (finishBacks (reclaimEmptied 0 s)))))) ∧
  (∀ (quadrant k : Nat) (s : State),
      foldOffered (foldForBacks (stagePages (placeBacks (finishBacks (reclaimEmptied 0 s))))) = true →
      foldSource (foldForBacks (stagePages (placeBacks (finishBacks (reclaimEmptied 0 s))))) = some k →
      exec (.foldStep quadrant) s =
        .next ((linesIn (foldForBacks (stagePages (placeBacks (finishBacks (reclaimEmptied 0 s))))) k quadrant).foldl (fun s x => if 2 ≤ x.2.heat then startRedrain x.1 x.2 s else startReloc .fold false (lpnOf x.1) s) (foldForBacks (stagePages (placeBacks (finishBacks (reclaimEmptied 0 s))))))) ∧
  (∀ (group : Nat) (s u : State),
      (match failedMeta (stagePages (reclaimEmptied 2 (reclaimEmptied 1 s))) group with | some m => rewriteMeta m (stagePages (reclaimEmptied 2 (reclaimEmptied 1 s))) | none => stagePages (reclaimEmptied 2 (reclaimEmptied 1 s))) = u →
      u.tr.readOnly = true ∨ 1024 ≤ freeCount u group ∧ queuedVictim u group = false →
      exec (.gcStep group) s = .next (u)) ∧
  (∀ (group k : Nat) (s u : State),
      (match failedMeta (stagePages (reclaimEmptied 2 (reclaimEmptied 1 s))) group with | some m => rewriteMeta m (stagePages (reclaimEmptied 2 (reclaimEmptied 1 s))) | none => stagePages (reclaimEmptied 2 (reclaimEmptied 1 s))) = u →
      u.tr.readOnly = false →
      freeCount u group < 1024 ∨ queuedVictim u group = true →
      victimOf u group = some k →
      exec (.gcStep group) s = .next (emptyStripe .gc k u)) ∧
  (∀ (group : Nat) (s u : State),
      (match failedMeta (stagePages (reclaimEmptied 2 (reclaimEmptied 1 s))) group with | some m => rewriteMeta m (stagePages (reclaimEmptied 2 (reclaimEmptied 1 s))) | none => stagePages (reclaimEmptied 2 (reclaimEmptied 1 s))) = u →
      u.tr.readOnly = false →
      freeCount u group < 1024 ∨ queuedVictim u group = true →
      victimOf u group = none →
      freeCount u group ≤ 512 →
      exec (.gcStep group) s = .next (enterReadOnly u)) ∧
  (∀ (s : State),
      s.tr.readOnly = true ∨ wearSpread s ≤ s.tr.spreadNx →
      exec .levelCheck s = .next ({ s with tr := { s.tr with spread := s.tr.spreadNx } })) ∧
  (∀ (k : Nat) (s : State),
      s.tr.readOnly = false →
      s.tr.spreadNx < wearSpread s →
      levelSource { s with tr := { s.tr with spread := s.tr.spreadNx } } = some k →
      exec .levelCheck s = .next (emptyStripe .level k { s with tr := { s.tr with spread := s.tr.spreadNx } })) ∧
  (∀ (s : State),
      progAllowed (stagePages s) = false ∨ refreshNext (stagePages s) = none →
      exec .refreshStep s = .next (stagePages s)) ∧
  (∀ (k : Nat) (x : Stripe) (s : State),
      progAllowed (stagePages s) = true →
      refreshNext (stagePages s) = some (k, x) →
      x.stream ≠ 3 →
      exec .refreshStep s = .next (emptyStripe .refresh k (stagePages s))) ∧
  (∀ (k : Nat) (x : Stripe) (s : State),
      progAllowed (stagePages s) = true →
      refreshNext (stagePages s) = some (k, x) →
      x.stream = 3 →
      exec .refreshStep s = .next (rewriteMeta k (stagePages s))) ∧
  (∀ (s : State),
      rebuildNext (stagePages (altEmptyPages s)) = none →
      exec .rebuildStep s = .next (updateDegraded (stagePages (altEmptyPages s)))) ∧
  (∀ (k : Nat) (x : Stripe) (s : State),
      rebuildNext (stagePages (altEmptyPages s)) = some (k, x) →
      x.stream = 3 →
      exec .rebuildStep s = .next (rewriteMeta k (stagePages (altEmptyPages s)))) ∧
  (∀ (k : Nat) (x : Stripe) (s : State),
      rebuildNext (stagePages (altEmptyPages s)) = some (k, x) →
      x.stream ≠ 3 →
      exec .rebuildStep s =
        .next (updateDegraded (emptyStripe .rebuild k ((((stagePages (altEmptyPages s)).tr.maps.eaves.filter (fun e => !e.2.poison && stripeKey e.2.group e.2.part e.2.course == k)).map (fun e => lpnOf e.1)).dedup.foldl (fun s l => startReloc .rebuild false l s) (stagePages (altEmptyPages s)))))) ∧
  (∀ (n ptr : Nat) (s : State),
      s.dram.remir = some (n, ptr) →
      s.prot.faults.any (fun f => f == .lpddr n) = false →
      ptr + 1 < remirRows →
      exec .remirrorStep s =
        .next (let u := clearRow (4 * remirDevice n (ptr % 2 == 1) + ptr / 2 % 4) (0x9D00 + ptr / 2 / 4) s; { u with dram := { u.dram with remir := some (n, ptr + 1) } })) ∧
  (∀ (n ptr : Nat) (s : State),
      s.dram.remir = some (n, ptr) →
      s.prot.faults.any (fun f => f == .lpddr n) = false →
      ¬ ptr + 1 < remirRows →
      exec .remirrorStep s =
        .next (remirrorDone (clearRow (4 * remirDevice n (ptr % 2 == 1) + ptr / 2 % 4) (0x9D00 + ptr / 2 / 4) s))) ∧
  (∀ (s : State),
      s.dram.remir = none →
      exec .remirrorStep s = .next (s))

/-- In service and unless its channel is halted, patrol scrub reads a sector of a scrubbed course and takes the action
of Table 06-5 (R210, R211, R191), a pass ending with the last one. A line's sector is judged as the present location
of that line, another's as its course's; a course or sector that scrub does not cover is passed over. DRAM patrol
waits behind every higher class (R298); it counts and writes back what it corrects, rewrites a failing copy of a
mirrored line from the other and acts on one that fails on both (R187, R194, R195, R212). SRAM patrol corrects in
place, drops a lookaside or predictor entry that cannot be corrected, answers an MSHR's request with poison, once the
copies being recalled have been, rebuilds a directory or host snoop filter entry and remaps a spare (R186, R196, R212,
R224). -/
def Obligations.PatrolRows : Prop :=
  (∀ (course sector : Nat) (res : SenseResult) (s : State),
      s.pw.phase ≠ .service ∨ chanHalted s (chanBit (courseStack course / 2) 3) = true →
      exec (.patrolScrub course sector res) s = .next (s)) ∧
  (∀ (course sector : Nat) (res : SenseResult) (s : State),
      s.pw.phase = .service →
      chanHalted s (chanBit (courseStack course / 2) 3) = false →
      scrubbed s course = false ∨ scrubLast (courseOf s course).fast < sector →
      exec (.patrolScrub course sector res) s =
        .next (let u := s; if passEnds u course sector then endPass u else { u with prot := { u.prot with progress := course / 128 % 65536 } })) ∧
  (∀ (course sector : Nat) (res : SenseResult) (s : State),
      s.pw.phase = .service →
      chanHalted s (chanBit (courseStack course / 2) 3) = false →
      scrubbed s course = true →
      sector ≤ scrubLast (courseOf s course).fast →
      lineAtLoc s (locOf (courseStripe course) (courseStack course) (courseOf s course).fast sector) = none →
      holdsLine s (locOf (courseStripe course) (courseStack course) (courseOf s course).fast sector) = false →
      exec (.patrolScrub course sector res) s =
        .next (let u := scrubOther (scrubRead s (locOf (courseStripe course) (courseStack course) (courseOf s course).fast sector)) res s; if passEnds u course sector then endPass u else { u with prot := { u.prot with progress := course / 128 % 65536 } })) ∧
  (∀ (course sector : Nat) (res : SenseResult) (s : State),
      s.pw.phase = .service →
      chanHalted s (chanBit (courseStack course / 2) 3) = false →
      scrubbed s course = true →
      sector ≤ scrubLast (courseOf s course).fast →
      lineAtLoc s (locOf (courseStripe course) (courseStack course) (courseOf s course).fast sector) = none →
      holdsLine s (locOf (courseStripe course) (courseStack course) (courseOf s course).fast sector) = true →
      exec (.patrolScrub course sector res) s =
        .next (let u := scrubPast (scrubRead s (locOf (courseStripe course) (courseStack course) (courseOf s course).fast sector)) res s; if passEnds u course sector then endPass u else { u with prot := { u.prot with progress := course / 128 % 65536 } })) ∧
  (∀ (course sector dla : Nat) (res : SenseResult) (s : State),
      s.pw.phase = .service →
      chanHalted s (chanBit (courseStack course / 2) 3) = false →
      scrubbed s course = true →
      sector ≤ scrubLast (courseOf s course).fast →
      lineAtLoc s (locOf (courseStripe course) (courseStack course) (courseOf s course).fast sector) = some dla →
      exec (.patrolScrub course sector res) s =
        .next (let u := scrubLine course dla { scrubRead s (locOf (courseStripe course) (courseStack course) (courseOf s course).fast sector) with use := .redrain dla } res s; if passEnds u course sector then endPass u else { u with prot := { u.prot with progress := course / 128 % 65536 } })) ∧
  (∀ (line : Nat) (res other : DramSense) (s : State),
      mayServe s 3 line = false →
      exec (.dramPatrol line ⟨res, other⟩) s = .next (s)) ∧
  (∀ (line : Nat) (res other : DramSense) (s : State),
      mayServe s 3 line = true →
      mirrored line = true →
      ((readMirror (copyZero line) line res other (wakeRank line s)).1 == .lost) = false →
      exec (.dramPatrol line ⟨res, other⟩) s =
        .next ((readMirror (copyZero line) line res other (wakeRank line s)).2)) ∧
  (∀ (line : Nat) (res other : DramSense) (s : State),
      mayServe s 3 line = true →
      mirrored line = true →
      ((readMirror (copyZero line) line res other (wakeRank line s)).1 == .lost) = true →
      exec (.dramPatrol line ⟨res, other⟩) s =
        .next (bothLost line (readMirror (copyZero line) line res other (wakeRank line s)).2)) ∧
  (∀ (line : Nat) (res other : DramSense) (s : State),
      mayServe s 3 line = true →
      mirrored line = false →
      decodeAt (wakeRank line s) line 0 { err := res.err } = .clean →
      exec (.dramPatrol line ⟨res, other⟩) s = .next (wakeRank line s)) ∧
  (∀ (line : Nat) (res other : DramSense) (dqs : List Nat) (s : State),
      mayServe s 3 line = true →
      mirrored line = false →
      decodeAt (wakeRank line s) line 0 { err := res.err } = .corrected dqs →
      exec (.dramPatrol line ⟨res, other⟩) s = .next (dramCorrected line dqs (wakeRank line s))) ∧
  (∀ (line : Nat) (res other : DramSense) (s : State),
      mayServe s 3 line = true →
      mirrored line = false →
      decodeAt (wakeRank line s) line 0 { err := res.err } = .uncorrectable →
      exec (.dramPatrol line ⟨res, other⟩) s = .next (dropAt line (dramUncorrectable (wakeRank line s)))) ∧
  (∀ (slice : Nat) (s : State),
      exec (.sramPatrol slice .clean) s = .next (s)) ∧
  (∀ (slice : Nat) (s : State),
      exec (.sramPatrol slice .corrected) s =
        .next ({ s with prot := { s.prot with sramCorr := satInc 16 s.prot.sramCorr } })) ∧
  (∀ (slice lpn : Nat) (s : State),
      exec (.sramPatrol slice (.lookaside lpn)) s =
        .next ({ s with tr := { s.tr with lookD := s.tr.lookD.filter (· != lpn), lookE := s.tr.lookE.filter (fun d => lpnOf d != lpn) } })) ∧
  (∀ (slice sl i : Nat) (s : State),
      exec (.sramPatrol slice (.predictor sl i)) s =
        .next ({ s with tr := { s.tr with pred := Table.del s.tr.pred (sl * 32768 + i % 32768) } })) ∧
  (∀ (slice node dla : Nat) (s : State),
      node = me s →
      (mshrAt s node dla).any (fun m => m.trans.isSome) = false →
      exec (.sramPatrol slice (.mshr node dla)) s = .next (deliver dla .poison { cls := 7 } s)) ∧
  (∀ (slice node dla : Nat) (s : State),
      node = me s →
      (mshrAt s node dla).any (fun m => m.trans.isSome) = true →
      exec (.sramPatrol slice (.mshr node dla)) s =
        .next (modMshr node dla (fun m => { m with trans := m.trans.map (fun t => { t with pois := true }) }) s)) ∧
  (∀ (slice dla : Nat) (s : State),
      exec (.sramPatrol slice (.directory dla)) s = .next (rebuildEntry dla s)) ∧
  (∀ (slice node dla : Nat) (s : State),
      exec (.sramPatrol slice (.hsf node dla)) s = .next (filterBad node dla s)) ∧
  (∀ (slice sl : Nat) (s : State),
      sl < 16 →
      exec (.sramPatrol slice (.spare sl)) s = .next (beginFault (.sram sl) s))
end

