-- ==== Sys2Proof/Laws/Frame.lean ====
section
/-! SUPPORT. What an operation leaves alone: the laws of OnlyChanges, which every frame lemma below is built from. -/

set_option linter.all false

namespace Sys2Proof.Machine

/-- The first list is within the second. -/
def partsWithin (l m : List Part) : Bool := l.all (fun p => m.contains p)

theorem partsWithin_trans {L M N : List Part} (h : partsWithin L M = true) (k : partsWithin M N = true) : partsWithin L N = true := by
  simp only [partsWithin, List.all_eq_true, List.contains_iff_mem] at *
  exact fun p hp => k p (h p hp)

namespace OnlyChanges
theorem refl (L : List Part) (s : State) : OnlyChanges L s s := by
  intro p _; cases p <;> rfl

theorem trans {L : List Part} {x y t : State} (h0 : OnlyChanges L x y) (h : OnlyChanges L y t) : OnlyChanges L x t := by
  intro p hp
  have h1 := h0 p hp
  have h2 := h p hp
  cases p <;> exact Eq.trans h2 h1

theorem widen {L M : List Part} {x t : State} (h : OnlyChanges L x t) (hs : partsWithin L M = true) : OnlyChanges M x t := by
  intro p hp
  apply h p
  intro hL
  have := List.all_eq_true.mp hs p hL
  exact hp (by simpa using this)

theorem step {L M : List Part} {x y t : State} (h : OnlyChanges L y t) (hs : partsWithin L M = true)
    (h0 : OnlyChanges M x y) : OnlyChanges M x t := h0.trans (h.widen hs)

theorem cut {L : List Part} {x t : State} (y : State) (h : OnlyChanges L x y) (k : OnlyChanges L x y → OnlyChanges L x t) :
    OnlyChanges L x t := k h
theorem cutP {α : Type} {L : List Part} {x t : State} (y : α × State) (h : OnlyChanges L x y.2)
    (k : OnlyChanges L x y.2 → OnlyChanges L x t) : OnlyChanges L x t := k h
theorem cutPP {α β : Type} {L : List Part} {x t : State} (y : α × β × State) (h : OnlyChanges L x y.2.2)
    (k : OnlyChanges L x y.2.2 → OnlyChanges L x t) : OnlyChanges L x t := k h
theorem ite {L : List Part} {x a b : State} {c : Prop} {_ : Decidable c} (ha : OnlyChanges L x a) (hb : OnlyChanges L x b) :
    OnlyChanges L x (if c then a else b) := by
  split <;> assumption
theorem ofPair {α : Type} {L : List Part} {x t : State} {a : α} {p : α × State} (h : p = (a, t)) (k : OnlyChanges L x p.2) :
    OnlyChanges L x t := by
  subst h; exact k
theorem foldl {α : Type} {L : List Part} {x y : State} {f : State → α → State} {l : List α} (hx : OnlyChanges L x y)
    (hf : ∀ z a, OnlyChanges L z (f z a)) : OnlyChanges L x (l.foldl f y) := by
  induction l generalizing y with
  | nil => exact hx
  | cons a l ih => exact ih (hx.trans (hf _ _))
end OnlyChanges

/-- Only the listed parts change in the state of a pair. -/
def OnlyChangesP {α : Type} (L : List Part) (s : State) (p : α × State) : Prop := OnlyChanges L s p.2
namespace OnlyChangesP
variable {α : Type} {L M : List Part} {x : State}
theorem cut {p : α × State} (y : State) (h : OnlyChanges L x y) (k : OnlyChanges L x y → OnlyChangesP L x p) : OnlyChangesP L x p := k h
theorem cutP {β : Type} {p : α × State} (y : β × State) (h : OnlyChanges L x y.2) (k : OnlyChanges L x y.2 → OnlyChangesP L x p) :
    OnlyChangesP L x p := k h
theorem cutPP {β γ : Type} {p : α × State} (y : β × γ × State) (h : OnlyChanges L x y.2.2)
    (k : OnlyChanges L x y.2.2 → OnlyChangesP L x p) : OnlyChangesP L x p := k h
theorem mk {a : α} {t : State} (h : OnlyChanges L x t) : OnlyChangesP L x (a, t) := h
theorem ite {a b : α × State} {c : Prop} {_ : Decidable c} (ha : OnlyChangesP L x a) (hb : OnlyChangesP L x b) :
    OnlyChangesP L x (if c then a else b) := by
  split <;> assumption
theorem step {y : State} {p : α × State} (h : OnlyChangesP L y p) (hs : partsWithin L M = true) (h0 : OnlyChanges M x y) :
    OnlyChangesP M x p := OnlyChanges.step h hs h0
theorem snd {y : State} {p : α × State} (h : OnlyChangesP L y p) (hs : partsWithin L M = true) (h0 : OnlyChanges M x y) :
    OnlyChanges M x p.2 := OnlyChanges.step h hs h0
theorem foldl {β : Type} {y : α × State} {f : α × State → β → α × State} {l : List β} (hx : OnlyChangesP L x y)
    (hf : ∀ z a, OnlyChangesP L z.2 (f z a)) : OnlyChangesP L x (l.foldl f y) := by
  induction l generalizing y with
  | nil => exact hx
  | cons a l ih => exact ih (OnlyChanges.trans hx (hf _ _))
end OnlyChangesP

/-- Only the listed parts change in the state that ends a triple. -/
def OnlyChangesPP {α β : Type} (L : List Part) (s : State) (p : α × β × State) : Prop := OnlyChanges L s p.2.2
namespace OnlyChangesPP
variable {α β : Type} {L M : List Part} {x : State}
theorem cut {p : α × β × State} (y : State) (h : OnlyChanges L x y) (k : OnlyChanges L x y → OnlyChangesPP L x p) :
    OnlyChangesPP L x p := k h
theorem mk {a : α} {b : β} {t : State} (h : OnlyChanges L x t) : OnlyChangesPP L x (a, b, t) := h
theorem ite {a b : α × β × State} {c : Prop} {_ : Decidable c} (ha : OnlyChangesPP L x a) (hb : OnlyChangesPP L x b) :
    OnlyChangesPP L x (if c then a else b) := by
  split <;> assumption
end OnlyChangesPP

/-- Only the listed parts change in the state of an option, if it has one. -/
def OnlyChangesO (L : List Part) (s : State) (o : Option State) : Prop := ∀ t, o = some t → OnlyChanges L s t
namespace OnlyChangesO
theorem cut {L : List Part} {x : State} {o : Option State} (y : State) (h : OnlyChanges L x y)
    (k : OnlyChanges L x y → OnlyChangesO L x o) : OnlyChangesO L x o := k h
theorem cutP {α : Type} {L : List Part} {x : State} {o : Option State} (y : α × State) (h : OnlyChanges L x y.2)
    (k : OnlyChanges L x y.2 → OnlyChangesO L x o) : OnlyChangesO L x o := k h
theorem none (L : List Part) (s : State) : OnlyChangesO L s none := by
  intro t h; cases h
theorem some {L : List Part} {s t : State} (h : OnlyChanges L s t) : OnlyChangesO L s (some t) := by
  intro u e; cases e; exact h
theorem ite {L : List Part} {x : State} {a b : Option State} {c : Prop} {_ : Decidable c} (ha : OnlyChangesO L x a) (hb : OnlyChangesO L x b) :
    OnlyChangesO L x (if c then a else b) := by
  split <;> assumption
theorem ofSome {L M : List Part} {x y t : State} {o : Option State} (h : OnlyChangesO L y o) (e : o = Option.some t)
    (hs : partsWithin L M = true) (h0 : OnlyChanges M x y) : OnlyChanges M x t := h0.trans ((h t e).widen hs)
theorem widen {L M : List Part} {x : State} {o : Option State} (h : OnlyChangesO L x o) (hs : partsWithin L M = true) : OnlyChangesO M x o :=
  fun t e => (h t e).widen hs
theorem step {L M : List Part} {x y : State} {o : Option State} (h : OnlyChangesO L y o) (hs : partsWithin L M = true)
    (h0 : OnlyChanges M x y) : OnlyChangesO M x o := fun t e => h0.trans ((h t e).widen hs)
theorem getD {L : List Part} {x y : State} {o : Option State} (h : OnlyChangesO L x o) (h0 : OnlyChanges L x y) :
    OnlyChanges L x (o.getD y) := by
  cases o
  · exact h0
  · exact h _ rfl
end OnlyChangesO

/-- Only the listed parts change in the state of an optional pair, if there is one. -/
def OnlyChangesN {α : Type} (L : List Part) (s : State) (o : Option (α × State)) : Prop := ∀ p, o = some p → OnlyChangesP L s p
namespace OnlyChangesN
variable {α : Type} {L M : List Part} {x : State}
theorem cut {o : Option (α × State)} (y : State) (h : OnlyChanges L x y) (k : OnlyChanges L x y → OnlyChangesN L x o) : OnlyChangesN L x o := k h
theorem cutP {β : Type} {o : Option (α × State)} (y : β × State) (h : OnlyChanges L x y.2) (k : OnlyChanges L x y.2 → OnlyChangesN L x o) :
    OnlyChangesN L x o := k h
theorem none : OnlyChangesN (α := α) L x none := by
  intro t h; cases h
theorem some {p : α × State} (h : OnlyChangesP L x p) : OnlyChangesN L x (some p) := by
  intro u e; cases e; exact h
theorem some' {p : α × State} (h : OnlyChanges L x p.2) : OnlyChangesN L x (Option.some p) := some h
theorem ite {a b : Option (α × State)} {c : Prop} {_ : Decidable c} (ha : OnlyChangesN L x a) (hb : OnlyChangesN L x b) :
    OnlyChangesN L x (if c then a else b) := by
  split <;> assumption
theorem step {y : State} {o : Option (α × State)} (h : OnlyChangesN L y o) (hs : partsWithin L M = true)
    (h0 : OnlyChanges M x y) : OnlyChangesN M x o := fun t e => h0.trans (OnlyChanges.widen (h t e) hs)
theorem orElse {a : Option (α × State)} {f : Unit → Option (α × State)} (ha : OnlyChangesN L x a) (hb : OnlyChangesN L x (f ())) :
    OnlyChangesN L x (a.orElse f) := by
  cases a
  · exact hb
  · exact ha
theorem out {o : Option (α × State)} {a : α} {t : State} (h : o = Option.some (a, t)) (k : OnlyChangesN L x o) : OnlyChanges L x t :=
  k _ h
end OnlyChangesN

/-- Only the listed parts change in the state a command's body ends with. -/
def OnlyChangesF (L : List Part) (s : State) : Fin → Prop
  | .ack _ t => OnlyChanges L s t
  | .bg t => OnlyChanges L s t
  | .wait t => OnlyChanges L s t
namespace OnlyChangesF
theorem cut {L : List Part} {x : State} {o : Fin} (y : State) (h : OnlyChanges L x y)
    (k : OnlyChanges L x y → OnlyChangesF L x o) : OnlyChangesF L x o := k h
theorem cutP {α : Type} {L : List Part} {x : State} {o : Fin} (y : α × State) (h : OnlyChanges L x y.2)
    (k : OnlyChanges L x y.2 → OnlyChangesF L x o) : OnlyChangesF L x o := k h
theorem ack {L : List Part} {s t : State} {n : Nat} (h : OnlyChanges L s t) : OnlyChangesF L s (.ack n t) := h
theorem bg {L : List Part} {s t : State} (h : OnlyChanges L s t) : OnlyChangesF L s (.bg t) := h
theorem wait {L : List Part} {s t : State} (h : OnlyChanges L s t) : OnlyChangesF L s (.wait t) := h
theorem ite {L : List Part} {x : State} {a b : Fin} {c : Prop} {_ : Decidable c} (ha : OnlyChangesF L x a) (hb : OnlyChangesF L x b) :
    OnlyChangesF L x (if c then a else b) := by
  split <;> assumption
theorem step {L M : List Part} {x y : State} {o : Fin} (h : OnlyChangesF L y o) (hs : partsWithin L M = true)
    (h0 : OnlyChanges M x y) : OnlyChangesF M x o := by
  cases o <;> exact h0.trans (OnlyChanges.widen h hs)
end OnlyChangesF

theorem partsWithin_mem {L M : List Part} {p : Part} (h : partsWithin L M = true) (hp : p ∈ L) : p ∈ M := by
  simpa using List.all_eq_true.mp h p hp

theorem kept_or {M : List Part} {p : Part} {Q : Prop} (hp : p ∉ M) (h : partsWithin [p] M = true ∨ Q) : Q :=
  h.resolve_left fun k => hp (partsWithin_mem k (List.mem_singleton.mpr rfl))

theorem OnlyChanges.upd1 {M : List Part} {x y : State} {v0} (hs : partsWithin [.pw] M = true) (h_phase : partsWithin [.phase] M = true ∨ v0.phase = y.pw.phase) (h_latched : partsWithin [.latched] M = true ∨ v0.faults = y.pw.faults) (h : OnlyChanges M x y) :
    OnlyChanges M x { y with pw := v0 } := by
  refine OnlyChanges.trans h ?_
  intro p hp
  cases p <;> first | rfl | exact absurd (partsWithin_mem hs (by decide)) hp | exact kept_or hp h_phase | exact kept_or hp h_latched

theorem OnlyChanges.upd2 {M : List Part} {x y : State} {v0} (hs : partsWithin [.evr] M = true) (h : OnlyChanges M x y) :
    OnlyChanges M x { y with evr := v0 } := by
  refine OnlyChanges.trans h ?_
  intro p hp
  cases p <;> first | rfl | exact absurd (partsWithin_mem hs (by decide)) hp

theorem OnlyChanges.upd3 {M : List Part} {x y : State} {v0} {v1} (hs : partsWithin [.pw, .evr] M = true) (h_phase : partsWithin [.phase] M = true ∨ v0.phase = y.pw.phase) (h_latched : partsWithin [.latched] M = true ∨ v0.faults = y.pw.faults) (h : OnlyChanges M x y) :
    OnlyChanges M x { y with pw := v0, evr := v1 } := by
  refine OnlyChanges.trans h ?_
  intro p hp
  cases p <;> first | rfl | exact absurd (partsWithin_mem hs (by decide)) hp | exact kept_or hp h_phase | exact kept_or hp h_latched

theorem OnlyChanges.upd4 {M : List Part} {x y : State} {v0} (hs : partsWithin [.pst] M = true) (h : OnlyChanges M x y) :
    OnlyChanges M x { y with pst := v0 } := by
  refine OnlyChanges.trans h ?_
  intro p hp
  cases p <;> first | rfl | exact absurd (partsWithin_mem hs (by decide)) hp

theorem OnlyChanges.upd8 {M : List Part} {x y : State} {v0} (hs : partsWithin [.pmc] M = true) (h : OnlyChanges M x y) :
    OnlyChanges M x { y with pmc := v0 } := by
  refine OnlyChanges.trans h ?_
  intro p hp
  cases p <;> first | rfl | exact absurd (partsWithin_mem hs (by decide)) hp

theorem OnlyChanges.upd16 {M : List Part} {x y : State} {v0} (hs : partsWithin [.trb] M = true) (h : OnlyChanges M x y) :
    OnlyChanges M x { y with trb := v0 } := by
  refine OnlyChanges.trans h ?_
  intro p hp
  cases p <;> first | rfl | exact absurd (partsWithin_mem hs (by decide)) hp

theorem OnlyChanges.upd32 {M : List Part} {x y : State} {v0} (hs : partsWithin [.mb] M = true) (h_clamps : partsWithin [.clamps] M = true ∨ v0.clamps = y.mb.clamps) (h : OnlyChanges M x y) :
    OnlyChanges M x { y with mb := v0 } := by
  refine OnlyChanges.trans h ?_
  intro p hp
  cases p <;> first | rfl | exact absurd (partsWithin_mem hs (by decide)) hp | exact kept_or hp h_clamps

theorem OnlyChanges.upd33 {M : List Part} {x y : State} {v0} {v1} (hs : partsWithin [.pw, .mb] M = true) (h_clamps : partsWithin [.clamps] M = true ∨ v1.clamps = y.mb.clamps) (h_phase : partsWithin [.phase] M = true ∨ v0.phase = y.pw.phase) (h_latched : partsWithin [.latched] M = true ∨ v0.faults = y.pw.faults) (h : OnlyChanges M x y) :
    OnlyChanges M x { y with pw := v0, mb := v1 } := by
  refine OnlyChanges.trans h ?_
  intro p hp
  cases p <;> first | rfl | exact absurd (partsWithin_mem hs (by decide)) hp | exact kept_or hp h_clamps | exact kept_or hp h_phase | exact kept_or hp h_latched

theorem OnlyChanges.upd64 {M : List Part} {x y : State} {v0} (hs : partsWithin [.sched] M = true) (h : OnlyChanges M x y) :
    OnlyChanges M x { y with sched := v0 } := by
  refine OnlyChanges.trans h ?_
  intro p hp
  cases p <;> first | rfl | exact absurd (partsWithin_mem hs (by decide)) hp

theorem OnlyChanges.upd128 {M : List Part} {x y : State} {v0} (hs : partsWithin [.tr] M = true) (h_readOnly : partsWithin [.readOnly] M = true ∨ v0.readOnly = y.tr.readOnly) (h : OnlyChanges M x y) :
    OnlyChanges M x { y with tr := v0 } := by
  refine OnlyChanges.trans h ?_
  intro p hp
  cases p <;> first | rfl | exact absurd (partsWithin_mem hs (by decide)) hp | exact kept_or hp h_readOnly

theorem OnlyChanges.upd256 {M : List Part} {x y : State} {v0} (hs : partsWithin [.dr] M = true) (h : OnlyChanges M x y) :
    OnlyChanges M x { y with dr := v0 } := by
  refine OnlyChanges.trans h ?_
  intro p hp
  cases p <;> first | rfl | exact absurd (partsWithin_mem hs (by decide)) hp

theorem OnlyChanges.upd384 {M : List Part} {x y : State} {v0} {v1} (hs : partsWithin [.tr, .dr] M = true) (h_readOnly : partsWithin [.readOnly] M = true ∨ v0.readOnly = y.tr.readOnly) (h : OnlyChanges M x y) :
    OnlyChanges M x { y with tr := v0, dr := v1 } := by
  refine OnlyChanges.trans h ?_
  intro p hp
  cases p <;> first | rfl | exact absurd (partsWithin_mem hs (by decide)) hp | exact kept_or hp h_readOnly

theorem OnlyChanges.upd512 {M : List Part} {x y : State} {v0} (hs : partsWithin [.prot] M = true) (h_lostDie : partsWithin [.lostDie] M = true ∨ v0.lostDie = y.prot.lostDie) (h : OnlyChanges M x y) :
    OnlyChanges M x { y with prot := v0 } := by
  refine OnlyChanges.trans h ?_
  intro p hp
  cases p <;> first | rfl | exact absurd (partsWithin_mem hs (by decide)) hp | exact kept_or hp h_lostDie

theorem OnlyChanges.upd640 {M : List Part} {x y : State} {v0} {v1} (hs : partsWithin [.tr, .prot] M = true) (h_readOnly : partsWithin [.readOnly] M = true ∨ v0.readOnly = y.tr.readOnly) (h_lostDie : partsWithin [.lostDie] M = true ∨ v1.lostDie = y.prot.lostDie) (h : OnlyChanges M x y) :
    OnlyChanges M x { y with tr := v0, prot := v1 } := by
  refine OnlyChanges.trans h ?_
  intro p hp
  cases p <;> first | rfl | exact absurd (partsWithin_mem hs (by decide)) hp | exact kept_or hp h_readOnly | exact kept_or hp h_lostDie

theorem OnlyChanges.upd1024 {M : List Part} {x y : State} {v0} (hs : partsWithin [.per] M = true) (h_committed : partsWithin [.committed] M = true ∨ v0.committed = y.per.committed) (h : OnlyChanges M x y) :
    OnlyChanges M x { y with per := v0 } := by
  refine OnlyChanges.trans h ?_
  intro p hp
  cases p <;> first | rfl | exact absurd (partsWithin_mem hs (by decide)) hp | exact kept_or hp h_committed

theorem OnlyChanges.upd1025 {M : List Part} {x y : State} {v0} {v1} (hs : partsWithin [.pw, .per] M = true) (h_phase : partsWithin [.phase] M = true ∨ v0.phase = y.pw.phase) (h_latched : partsWithin [.latched] M = true ∨ v0.faults = y.pw.faults) (h_committed : partsWithin [.committed] M = true ∨ v1.committed = y.per.committed) (h : OnlyChanges M x y) :
    OnlyChanges M x { y with pw := v0, per := v1 } := by
  refine OnlyChanges.trans h ?_
  intro p hp
  cases p <;> first | rfl | exact absurd (partsWithin_mem hs (by decide)) hp | exact kept_or hp h_phase | exact kept_or hp h_latched | exact kept_or hp h_committed

theorem OnlyChanges.upd1152 {M : List Part} {x y : State} {v0} {v1} (hs : partsWithin [.tr, .per] M = true) (h_readOnly : partsWithin [.readOnly] M = true ∨ v0.readOnly = y.tr.readOnly) (h_committed : partsWithin [.committed] M = true ∨ v1.committed = y.per.committed) (h : OnlyChanges M x y) :
    OnlyChanges M x { y with tr := v0, per := v1 } := by
  refine OnlyChanges.trans h ?_
  intro p hp
  cases p <;> first | rfl | exact absurd (partsWithin_mem hs (by decide)) hp | exact kept_or hp h_readOnly | exact kept_or hp h_committed

theorem OnlyChanges.upd2048 {M : List Part} {x y : State} {v0} (hs : partsWithin [.ck] M = true) (h : OnlyChanges M x y) :
    OnlyChanges M x { y with ck := v0 } := by
  refine OnlyChanges.trans h ?_
  intro p hp
  cases p <;> first | rfl | exact absurd (partsWithin_mem hs (by decide)) hp

theorem OnlyChanges.upd2049 {M : List Part} {x y : State} {v0} {v1} (hs : partsWithin [.pw, .ck] M = true) (h_phase : partsWithin [.phase] M = true ∨ v0.phase = y.pw.phase) (h_latched : partsWithin [.latched] M = true ∨ v0.faults = y.pw.faults) (h : OnlyChanges M x y) :
    OnlyChanges M x { y with pw := v0, ck := v1 } := by
  refine OnlyChanges.trans h ?_
  intro p hp
  cases p <;> first | rfl | exact absurd (partsWithin_mem hs (by decide)) hp | exact kept_or hp h_phase | exact kept_or hp h_latched

theorem OnlyChanges.upd3072 {M : List Part} {x y : State} {v0} {v1} (hs : partsWithin [.per, .ck] M = true) (h_committed : partsWithin [.committed] M = true ∨ v0.committed = y.per.committed) (h : OnlyChanges M x y) :
    OnlyChanges M x { y with per := v0, ck := v1 } := by
  refine OnlyChanges.trans h ?_
  intro p hp
  cases p <;> first | rfl | exact absurd (partsWithin_mem hs (by decide)) hp | exact kept_or hp h_committed

theorem OnlyChanges.upd4096 {M : List Part} {x y : State} {v0} (hs : partsWithin [.cache] M = true) (h : OnlyChanges M x y) :
    OnlyChanges M x { y with cache := v0 } := by
  refine OnlyChanges.trans h ?_
  intro p hp
  cases p <;> first | rfl | exact absurd (partsWithin_mem hs (by decide)) hp

theorem OnlyChanges.upd4224 {M : List Part} {x y : State} {v0} {v1} (hs : partsWithin [.tr, .cache] M = true) (h_readOnly : partsWithin [.readOnly] M = true ∨ v0.readOnly = y.tr.readOnly) (h : OnlyChanges M x y) :
    OnlyChanges M x { y with tr := v0, cache := v1 } := by
  refine OnlyChanges.trans h ?_
  intro p hp
  cases p <;> first | rfl | exact absurd (partsWithin_mem hs (by decide)) hp | exact kept_or hp h_readOnly

theorem OnlyChanges.upd8192 {M : List Part} {x y : State} {v0} (hs : partsWithin [.dram] M = true) (h : OnlyChanges M x y) :
    OnlyChanges M x { y with dram := v0 } := by
  refine OnlyChanges.trans h ?_
  intro p hp
  cases p <;> first | rfl | exact absurd (partsWithin_mem hs (by decide)) hp

theorem OnlyChanges.upd8193 {M : List Part} {x y : State} {v0} {v1} (hs : partsWithin [.pw, .dram] M = true) (h_phase : partsWithin [.phase] M = true ∨ v0.phase = y.pw.phase) (h_latched : partsWithin [.latched] M = true ∨ v0.faults = y.pw.faults) (h : OnlyChanges M x y) :
    OnlyChanges M x { y with pw := v0, dram := v1 } := by
  refine OnlyChanges.trans h ?_
  intro p hp
  cases p <;> first | rfl | exact absurd (partsWithin_mem hs (by decide)) hp | exact kept_or hp h_phase | exact kept_or hp h_latched

theorem OnlyChanges.upd8704 {M : List Part} {x y : State} {v0} {v1} (hs : partsWithin [.prot, .dram] M = true) (h_lostDie : partsWithin [.lostDie] M = true ∨ v0.lostDie = y.prot.lostDie) (h : OnlyChanges M x y) :
    OnlyChanges M x { y with prot := v0, dram := v1 } := by
  refine OnlyChanges.trans h ?_
  intro p hp
  cases p <;> first | rfl | exact absurd (partsWithin_mem hs (by decide)) hp | exact kept_or hp h_lostDie

theorem OnlyChanges.upd8768 {M : List Part} {x y : State} {v0} {v1} {v2} (hs : partsWithin [.sched, .prot, .dram] M = true) (h_lostDie : partsWithin [.lostDie] M = true ∨ v1.lostDie = y.prot.lostDie) (h : OnlyChanges M x y) :
    OnlyChanges M x { y with sched := v0, prot := v1, dram := v2 } := by
  refine OnlyChanges.trans h ?_
  intro p hp
  cases p <;> first | rfl | exact absurd (partsWithin_mem hs (by decide)) hp | exact kept_or hp h_lostDie

theorem OnlyChanges.upd12288 {M : List Part} {x y : State} {v0} {v1} (hs : partsWithin [.cache, .dram] M = true) (h : OnlyChanges M x y) :
    OnlyChanges M x { y with cache := v0, dram := v1 } := by
  refine OnlyChanges.trans h ?_
  intro p hp
  cases p <;> first | rfl | exact absurd (partsWithin_mem hs (by decide)) hp

theorem OnlyChanges.upd12416 {M : List Part} {x y : State} {v0} {v1} {v2} (hs : partsWithin [.tr, .cache, .dram] M = true) (h_readOnly : partsWithin [.readOnly] M = true ∨ v0.readOnly = y.tr.readOnly) (h : OnlyChanges M x y) :
    OnlyChanges M x { y with tr := v0, cache := v1, dram := v2 } := by
  refine OnlyChanges.trans h ?_
  intro p hp
  cases p <;> first | rfl | exact absurd (partsWithin_mem hs (by decide)) hp | exact kept_or hp h_readOnly

theorem OnlyChanges.upd16384 {M : List Part} {x y : State} {v0} (hs : partsWithin [.coh] M = true) (h : OnlyChanges M x y) :
    OnlyChanges M x { y with coh := v0 } := by
  refine OnlyChanges.trans h ?_
  intro p hp
  cases p <;> first | rfl | exact absurd (partsWithin_mem hs (by decide)) hp

theorem OnlyChanges.upd32768 {M : List Part} {x y : State} {v0} (hs : partsWithin [.sgl] M = true) (h_members : partsWithin [.members] M = true ∨ v0.members = y.sgl.members) (h : OnlyChanges M x y) :
    OnlyChanges M x { y with sgl := v0 } := by
  refine OnlyChanges.trans h ?_
  intro p hp
  cases p <;> first | rfl | exact absurd (partsWithin_mem hs (by decide)) hp | exact kept_or hp h_members

theorem OnlyChanges.upd32769 {M : List Part} {x y : State} {v0} {v1} (hs : partsWithin [.pw, .sgl] M = true) (h_phase : partsWithin [.phase] M = true ∨ v0.phase = y.pw.phase) (h_latched : partsWithin [.latched] M = true ∨ v0.faults = y.pw.faults) (h_members : partsWithin [.members] M = true ∨ v1.members = y.sgl.members) (h : OnlyChanges M x y) :
    OnlyChanges M x { y with pw := v0, sgl := v1 } := by
  refine OnlyChanges.trans h ?_
  intro p hp
  cases p <;> first | rfl | exact absurd (partsWithin_mem hs (by decide)) hp | exact kept_or hp h_phase | exact kept_or hp h_latched | exact kept_or hp h_members

theorem OnlyChanges.upd49152 {M : List Part} {x y : State} {v0} {v1} (hs : partsWithin [.coh, .sgl] M = true) (h_members : partsWithin [.members] M = true ∨ v1.members = y.sgl.members) (h : OnlyChanges M x y) :
    OnlyChanges M x { y with coh := v0, sgl := v1 } := by
  refine OnlyChanges.trans h ?_
  intro p hp
  cases p <;> first | rfl | exact absurd (partsWithin_mem hs (by decide)) hp | exact kept_or hp h_members

theorem OnlyChanges.upd65536 {M : List Part} {x y : State} {v0} (hs : partsWithin [.fab] M = true) (h : OnlyChanges M x y) :
    OnlyChanges M x { y with fab := v0 } := by
  refine OnlyChanges.trans h ?_
  intro p hp
  cases p <;> first | rfl | exact absurd (partsWithin_mem hs (by decide)) hp

theorem OnlyChanges.upd81920 {M : List Part} {x y : State} {v0} {v1} (hs : partsWithin [.coh, .fab] M = true) (h : OnlyChanges M x y) :
    OnlyChanges M x { y with coh := v0, fab := v1 } := by
  refine OnlyChanges.trans h ?_
  intro p hp
  cases p <;> first | rfl | exact absurd (partsWithin_mem hs (by decide)) hp

theorem OnlyChanges.upd86032 {M : List Part} {x y : State} {v0} {v1} {v2} {v3} (hs : partsWithin [.trb, .cache, .coh, .fab] M = true) (h : OnlyChanges M x y) :
    OnlyChanges M x { y with trb := v0, cache := v1, coh := v2, fab := v3 } := by
  refine OnlyChanges.trans h ?_
  intro p hp
  cases p <;> first | rfl | exact absurd (partsWithin_mem hs (by decide)) hp

theorem OnlyChanges.upd98304 {M : List Part} {x y : State} {v0} {v1} (hs : partsWithin [.sgl, .fab] M = true) (h_members : partsWithin [.members] M = true ∨ v0.members = y.sgl.members) (h : OnlyChanges M x y) :
    OnlyChanges M x { y with sgl := v0, fab := v1 } := by
  refine OnlyChanges.trans h ?_
  intro p hp
  cases p <;> first | rfl | exact absurd (partsWithin_mem hs (by decide)) hp | exact kept_or hp h_members

theorem OnlyChanges.upd131072 {M : List Part} {x y : State} {v0} (hs : partsWithin [.portA] M = true) (h : OnlyChanges M x y) :
    OnlyChanges M x { y with portA := v0 } := by
  refine OnlyChanges.trans h ?_
  intro p hp
  cases p <;> first | rfl | exact absurd (partsWithin_mem hs (by decide)) hp

theorem OnlyChanges.upd262144 {M : List Part} {x y : State} {v0} (hs : partsWithin [.portB] M = true) (h : OnlyChanges M x y) :
    OnlyChanges M x { y with portB := v0 } := by
  refine OnlyChanges.trans h ?_
  intro p hp
  cases p <;> first | rfl | exact absurd (partsWithin_mem hs (by decide)) hp

theorem OnlyChanges.upd395559 {M : List Part} {x y : State} {v0} {v1} {v2} {v3} {v4} {v5} {v6} {v7} (hs : partsWithin [.pw, .evr, .pst, .mb, .dr, .ck, .portA, .portB] M = true) (h_clamps : partsWithin [.clamps] M = true ∨ v3.clamps = y.mb.clamps) (h_phase : partsWithin [.phase] M = true ∨ v0.phase = y.pw.phase) (h_latched : partsWithin [.latched] M = true ∨ v0.faults = y.pw.faults) (h : OnlyChanges M x y) :
    OnlyChanges M x { y with pw := v0, evr := v1, pst := v2, mb := v3, dr := v4, ck := v5, portA := v6, portB := v7 } := by
  refine OnlyChanges.trans h ?_
  intro p hp
  cases p <;> first | rfl | exact absurd (partsWithin_mem hs (by decide)) hp | exact kept_or hp h_clamps | exact kept_or hp h_phase | exact kept_or hp h_latched

theorem OnlyChanges.upd524288 {M : List Part} {x y : State} {v0} (hs : partsWithin [.cxlA] M = true) (h : OnlyChanges M x y) :
    OnlyChanges M x { y with cxlA := v0 } := by
  refine OnlyChanges.trans h ?_
  intro p hp
  cases p <;> first | rfl | exact absurd (partsWithin_mem hs (by decide)) hp

theorem OnlyChanges.upd1048576 {M : List Part} {x y : State} {v0} (hs : partsWithin [.cxlB] M = true) (h : OnlyChanges M x y) :
    OnlyChanges M x { y with cxlB := v0 } := by
  refine OnlyChanges.trans h ?_
  intro p hp
  cases p <;> first | rfl | exact absurd (partsWithin_mem hs (by decide)) hp

theorem OnlyChanges.upd1572864 {M : List Part} {x y : State} {v0} {v1} (hs : partsWithin [.cxlA, .cxlB] M = true) (h : OnlyChanges M x y) :
    OnlyChanges M x { y with cxlA := v0, cxlB := v1 } := by
  refine OnlyChanges.trans h ?_
  intro p hp
  cases p <;> first | rfl | exact absurd (partsWithin_mem hs (by decide)) hp

theorem OnlyChanges.upd1572866 {M : List Part} {x y : State} {v0} {v1} {v2} (hs : partsWithin [.evr, .cxlA, .cxlB] M = true) (h : OnlyChanges M x y) :
    OnlyChanges M x { y with evr := v0, cxlA := v1, cxlB := v2 } := by
  refine OnlyChanges.trans h ?_
  intro p hp
  cases p <;> first | rfl | exact absurd (partsWithin_mem hs (by decide)) hp

theorem OnlyChanges.upd2097152 {M : List Part} {x y : State} {v0} (hs : partsWithin [.sec] M = true) (h_kids : partsWithin [.kids] M = true ∨ v0.kids = y.sec.kids) (h_trustKm : partsWithin [.trustKm] M = true ∨ v0.trustKm = y.sec.trustKm) (h_trustPool : partsWithin [.trustPool] M = true ∨ v0.trustPool = y.sec.trustPool) (h : OnlyChanges M x y) :
    OnlyChanges M x { y with sec := v0 } := by
  refine OnlyChanges.trans h ?_
  intro p hp
  cases p <;> first | rfl | exact absurd (partsWithin_mem hs (by decide)) hp | exact kept_or hp h_kids | exact kept_or hp h_trustKm | exact kept_or hp h_trustPool

theorem OnlyChanges.upd2099200 {M : List Part} {x y : State} {v0} {v1} (hs : partsWithin [.ck, .sec] M = true) (h_kids : partsWithin [.kids] M = true ∨ v1.kids = y.sec.kids) (h_trustKm : partsWithin [.trustKm] M = true ∨ v1.trustKm = y.sec.trustKm) (h_trustPool : partsWithin [.trustPool] M = true ∨ v1.trustPool = y.sec.trustPool) (h : OnlyChanges M x y) :
    OnlyChanges M x { y with ck := v0, sec := v1 } := by
  refine OnlyChanges.trans h ?_
  intro p hp
  cases p <;> first | rfl | exact absurd (partsWithin_mem hs (by decide)) hp | exact kept_or hp h_kids | exact kept_or hp h_trustKm | exact kept_or hp h_trustPool

theorem OnlyChanges.upd2100224 {M : List Part} {x y : State} {v0} {v1} {v2} (hs : partsWithin [.per, .ck, .sec] M = true) (h_committed : partsWithin [.committed] M = true ∨ v0.committed = y.per.committed) (h_kids : partsWithin [.kids] M = true ∨ v2.kids = y.sec.kids) (h_trustKm : partsWithin [.trustKm] M = true ∨ v2.trustKm = y.sec.trustKm) (h_trustPool : partsWithin [.trustPool] M = true ∨ v2.trustPool = y.sec.trustPool) (h : OnlyChanges M x y) :
    OnlyChanges M x { y with per := v0, ck := v1, sec := v2 } := by
  refine OnlyChanges.trans h ?_
  intro p hp
  cases p <;> first | rfl | exact absurd (partsWithin_mem hs (by decide)) hp | exact kept_or hp h_committed | exact kept_or hp h_kids | exact kept_or hp h_trustKm | exact kept_or hp h_trustPool

theorem OnlyChanges.upd2101248 {M : List Part} {x y : State} {v0} {v1} (hs : partsWithin [.cache, .sec] M = true) (h_kids : partsWithin [.kids] M = true ∨ v1.kids = y.sec.kids) (h_trustKm : partsWithin [.trustKm] M = true ∨ v1.trustKm = y.sec.trustKm) (h_trustPool : partsWithin [.trustPool] M = true ∨ v1.trustPool = y.sec.trustPool) (h : OnlyChanges M x y) :
    OnlyChanges M x { y with cache := v0, sec := v1 } := by
  refine OnlyChanges.trans h ?_
  intro p hp
  cases p <;> first | rfl | exact absurd (partsWithin_mem hs (by decide)) hp | exact kept_or hp h_kids | exact kept_or hp h_trustKm | exact kept_or hp h_trustPool

theorem OnlyChanges.upd2493956 {M : List Part} {x y : State} {v0} {v1} {v2} {v3} {v4} {v5} {v6} (hs : partsWithin [.pst, .prot, .per, .ck, .portA, .portB, .sec] M = true) (h_lostDie : partsWithin [.lostDie] M = true ∨ v1.lostDie = y.prot.lostDie) (h_committed : partsWithin [.committed] M = true ∨ v2.committed = y.per.committed) (h_kids : partsWithin [.kids] M = true ∨ v6.kids = y.sec.kids) (h_trustKm : partsWithin [.trustKm] M = true ∨ v6.trustKm = y.sec.trustKm) (h_trustPool : partsWithin [.trustPool] M = true ∨ v6.trustPool = y.sec.trustPool) (h : OnlyChanges M x y) :
    OnlyChanges M x { y with pst := v0, prot := v1, per := v2, ck := v3, portA := v4, portB := v5, sec := v6 } := by
  refine OnlyChanges.trans h ?_
  intro p hp
  cases p <;> first | rfl | exact absurd (partsWithin_mem hs (by decide)) hp | exact kept_or hp h_lostDie | exact kept_or hp h_committed | exact kept_or hp h_kids | exact kept_or hp h_trustKm | exact kept_or hp h_trustPool

theorem OnlyChanges.upd2531363 {M : List Part} {x y : State} {v0} {v1} {v2} {v3} {v4} {v5} {v6} {v7} (hs : partsWithin [.pw, .evr, .mb, .dram, .sgl, .portA, .portB, .sec] M = true) (h_clamps : partsWithin [.clamps] M = true ∨ v2.clamps = y.mb.clamps) (h_phase : partsWithin [.phase] M = true ∨ v0.phase = y.pw.phase) (h_latched : partsWithin [.latched] M = true ∨ v0.faults = y.pw.faults) (h_members : partsWithin [.members] M = true ∨ v4.members = y.sgl.members) (h_kids : partsWithin [.kids] M = true ∨ v7.kids = y.sec.kids) (h_trustKm : partsWithin [.trustKm] M = true ∨ v7.trustKm = y.sec.trustKm) (h_trustPool : partsWithin [.trustPool] M = true ∨ v7.trustPool = y.sec.trustPool) (h : OnlyChanges M x y) :
    OnlyChanges M x { y with pw := v0, evr := v1, mb := v2, dram := v3, sgl := v4, portA := v5, portB := v6, sec := v7 } := by
  refine OnlyChanges.trans h ?_
  intro p hp
  cases p <;> first | rfl | exact absurd (partsWithin_mem hs (by decide)) hp | exact kept_or hp h_clamps | exact kept_or hp h_phase | exact kept_or hp h_latched | exact kept_or hp h_members | exact kept_or hp h_kids | exact kept_or hp h_trustKm | exact kept_or hp h_trustPool

theorem OnlyChanges.upd4194304 {M : List Part} {x y : State} {v0} (hs : partsWithin [.thm] M = true) (h : OnlyChanges M x y) :
    OnlyChanges M x { y with thm := v0 } := by
  refine OnlyChanges.trans h ?_
  intro p hp
  cases p <;> first | rfl | exact absurd (partsWithin_mem hs (by decide)) hp

theorem OnlyChanges.upd4194305 {M : List Part} {x y : State} {v0} {v1} (hs : partsWithin [.pw, .thm] M = true) (h_phase : partsWithin [.phase] M = true ∨ v0.phase = y.pw.phase) (h_latched : partsWithin [.latched] M = true ∨ v0.faults = y.pw.faults) (h : OnlyChanges M x y) :
    OnlyChanges M x { y with pw := v0, thm := v1 } := by
  refine OnlyChanges.trans h ?_
  intro p hp
  cases p <;> first | rfl | exact absurd (partsWithin_mem hs (by decide)) hp | exact kept_or hp h_phase | exact kept_or hp h_latched

theorem OnlyChanges.upd8388602 {M : List Part} {x y : State} {v0} {v1} {v2} {v3} {v4} {v5} {v6} {v7} {v8} {v9} {v10} {v11} {v12} {v13} {v14} {v15} {v16} {v17} {v18} {v19} {v20} (hs : partsWithin [.evr, .pmc, .trb, .mb, .sched, .tr, .dr, .prot, .per, .ck, .cache, .dram, .coh, .sgl, .fab, .portA, .portB, .cxlA, .cxlB, .sec, .thm] M = true) (h_clamps : partsWithin [.clamps] M = true ∨ v3.clamps = y.mb.clamps) (h_readOnly : partsWithin [.readOnly] M = true ∨ v5.readOnly = y.tr.readOnly) (h_lostDie : partsWithin [.lostDie] M = true ∨ v7.lostDie = y.prot.lostDie) (h_committed : partsWithin [.committed] M = true ∨ v8.committed = y.per.committed) (h_members : partsWithin [.members] M = true ∨ v13.members = y.sgl.members) (h_kids : partsWithin [.kids] M = true ∨ v19.kids = y.sec.kids) (h_trustKm : partsWithin [.trustKm] M = true ∨ v19.trustKm = y.sec.trustKm) (h_trustPool : partsWithin [.trustPool] M = true ∨ v19.trustPool = y.sec.trustPool) (h : OnlyChanges M x y) :
    OnlyChanges M x { y with evr := v0, pmc := v1, trb := v2, mb := v3, sched := v4, tr := v5, dr := v6, prot := v7, per := v8, ck := v9, cache := v10, dram := v11, coh := v12, sgl := v13, fab := v14, portA := v15, portB := v16, cxlA := v17, cxlB := v18, sec := v19, thm := v20 } := by
  refine OnlyChanges.trans h ?_
  intro p hp
  cases p <;> first | rfl | exact absurd (partsWithin_mem hs (by decide)) hp | exact kept_or hp h_clamps | exact kept_or hp h_readOnly | exact kept_or hp h_lostDie | exact kept_or hp h_committed | exact kept_or hp h_members | exact kept_or hp h_kids | exact kept_or hp h_trustKm | exact kept_or hp h_trustPool

theorem OnlyChanges.upd8388608 {M : List Part} {x y : State} {v0} (hs : partsWithin [.mtr] M = true) (h : OnlyChanges M x y) :
    OnlyChanges M x { y with mtr := v0 } := by
  refine OnlyChanges.trans h ?_
  intro p hp
  cases p <;> first | rfl | exact absurd (partsWithin_mem hs (by decide)) hp

theorem OnlyChanges.upd8388737 {M : List Part} {x y : State} {v0} {v1} {v2} (hs : partsWithin [.pw, .tr, .mtr] M = true) (h_phase : partsWithin [.phase] M = true ∨ v0.phase = y.pw.phase) (h_latched : partsWithin [.latched] M = true ∨ v0.faults = y.pw.faults) (h_readOnly : partsWithin [.readOnly] M = true ∨ v1.readOnly = y.tr.readOnly) (h : OnlyChanges M x y) :
    OnlyChanges M x { y with pw := v0, tr := v1, mtr := v2 } := by
  refine OnlyChanges.trans h ?_
  intro p hp
  cases p <;> first | rfl | exact absurd (partsWithin_mem hs (by decide)) hp | exact kept_or hp h_phase | exact kept_or hp h_latched | exact kept_or hp h_readOnly

theorem OnlyChanges.upd16777216 {M : List Part} {x y : State} {v0} (hs : partsWithin [.now] M = true) (h : OnlyChanges M x y) :
    OnlyChanges M x { y with now := v0 } := by
  refine OnlyChanges.trans h ?_
  intro p hp
  cases p <;> first | rfl | exact absurd (partsWithin_mem hs (by decide)) hp

theorem OnlyChanges.upd33554432 {M : List Part} {x y : State} {v0} (hs : partsWithin [.freeCtr] M = true) (h : OnlyChanges M x y) :
    OnlyChanges M x { y with freeCtr := v0 } := by
  refine OnlyChanges.trans h ?_
  intro p hp
  cases p <;> first | rfl | exact absurd (partsWithin_mem hs (by decide)) hp

theorem OnlyChanges.upd67108864 {M : List Part} {x y : State} {v0} (hs : partsWithin [.outs] M = true) (h : OnlyChanges M x y) :
    OnlyChanges M x { y with outs := v0 } := by
  refine OnlyChanges.trans h ?_
  intro p hp
  cases p <;> first | rfl | exact absurd (partsWithin_mem hs (by decide)) hp

end Sys2Proof.Machine
end

