-- ==== Sys2Proof/Laws/FrameOps.lean ====
section
/-! SUPPORT. The parts of the state that each operation of Machine/Ops.lean may change; every other part it leaves
alone. -/

set_option linter.all false

namespace Sys2Proof.Machine

theorem discardStaged_frame {a0} {x : State} : OnlyChanges [.cache, .portA, .portB] x (discardStaged a0 x) := by
  unfold discardStaged
  repeat' first
    | with_reducible assumption
    | with_reducible apply OnlyChanges.refl
    | (extract_lets +onlyGivenNames y; guard_hyp y : State := Prod.snd _; subst y)
    | (extract_lets +onlyGivenNames y; guard_hyp y : State := _; apply OnlyChanges.cut y; (on_goal 1 => (unfold y; clear y)); (on_goal 2 => (intro hx; clear_value y)))
    | (extract_lets +onlyGivenNames y; guard_hyp y : _ × State := _; apply OnlyChanges.cutP y; (on_goal 1 => (unfold y; clear y)); (on_goal 2 => (intro hx; clear_value y)))
    | (extract_lets +onlyGivenNames y; guard_hyp y : _ × _ × State := _; apply OnlyChanges.cutPP y; (on_goal 1 => (unfold y; clear y)); (on_goal 2 => (intro hx; clear_value y)))
    | (extract_lets +onlyGivenNames y; guard_hyp y : Boxes := _; subst y)
    | (extract_lets +onlyGivenNames y; guard_hyp y : Power := _; subst y)
    | (extract_lets +onlyGivenNames y; guard_hyp y : Trans := _; subst y)
    | (extract_lets +onlyGivenNames y; guard_hyp y : Prot := _; subst y)
    | (extract_lets +onlyGivenNames y; guard_hyp y : Persist := _; subst y)
    | (extract_lets +onlyGivenNames y; guard_hyp y : Sgl := _; subst y)
    | (extract_lets +onlyGivenNames y; guard_hyp y : Sec := _; subst y)
    | (extract_lets +onlyGivenNames y; clear_value y)
    | extract_lets +onlyGivenNames y
    | with_reducible apply OnlyChanges.ite
    | split
    | (with_reducible apply OnlyChanges.upd4096; (on_goal 1 => decide))
    | (with_reducible apply OnlyChanges.upd131072; (on_goal 1 => decide))
    | (with_reducible apply OnlyChanges.upd262144; (on_goal 1 => decide))

theorem setClamp_frame {a0} {a1} {x : State} : OnlyChanges [.mb, .clamps] x (setClamp a0 a1 x) := by
  unfold setClamp
  repeat' first
    | with_reducible assumption
    | with_reducible apply OnlyChanges.refl
    | (extract_lets +onlyGivenNames y; guard_hyp y : State := Prod.snd _; subst y)
    | (extract_lets +onlyGivenNames y; guard_hyp y : State := _; apply OnlyChanges.cut y; (on_goal 1 => (unfold y; clear y)); (on_goal 2 => (intro hx; clear_value y)))
    | (extract_lets +onlyGivenNames y; guard_hyp y : _ × State := _; apply OnlyChanges.cutP y; (on_goal 1 => (unfold y; clear y)); (on_goal 2 => (intro hx; clear_value y)))
    | (extract_lets +onlyGivenNames y; guard_hyp y : _ × _ × State := _; apply OnlyChanges.cutPP y; (on_goal 1 => (unfold y; clear y)); (on_goal 2 => (intro hx; clear_value y)))
    | (extract_lets +onlyGivenNames y; guard_hyp y : Boxes := _; subst y)
    | (extract_lets +onlyGivenNames y; guard_hyp y : Power := _; subst y)
    | (extract_lets +onlyGivenNames y; guard_hyp y : Trans := _; subst y)
    | (extract_lets +onlyGivenNames y; guard_hyp y : Prot := _; subst y)
    | (extract_lets +onlyGivenNames y; guard_hyp y : Persist := _; subst y)
    | (extract_lets +onlyGivenNames y; guard_hyp y : Sgl := _; subst y)
    | (extract_lets +onlyGivenNames y; guard_hyp y : Sec := _; subst y)
    | (extract_lets +onlyGivenNames y; clear_value y)
    | extract_lets +onlyGivenNames y
    | with_reducible apply OnlyChanges.ite
    | split
    | (with_reducible apply OnlyChanges.upd32; (on_goal 1 => decide); (on_goal 1 => (first | exact Or.inr (by with_reducible rfl) | exact Or.inl (by decide) | exact Or.inr rfl)))

theorem releaseClamp_frame {a0} {a1} {x : State} : OnlyChanges [.mb, .cache, .portA, .portB, .clamps] x (releaseClamp a0 a1 x) := by
  unfold releaseClamp
  repeat' first
    | with_reducible assumption
    | with_reducible apply OnlyChanges.refl
    | (extract_lets +onlyGivenNames y; guard_hyp y : State := Prod.snd _; subst y)
    | (extract_lets +onlyGivenNames y; guard_hyp y : State := _; apply OnlyChanges.cut y; (on_goal 1 => (unfold y; clear y)); (on_goal 2 => (intro hx; clear_value y)))
    | (extract_lets +onlyGivenNames y; guard_hyp y : _ × State := _; apply OnlyChanges.cutP y; (on_goal 1 => (unfold y; clear y)); (on_goal 2 => (intro hx; clear_value y)))
    | (extract_lets +onlyGivenNames y; guard_hyp y : _ × _ × State := _; apply OnlyChanges.cutPP y; (on_goal 1 => (unfold y; clear y)); (on_goal 2 => (intro hx; clear_value y)))
    | (extract_lets +onlyGivenNames y; guard_hyp y : Boxes := _; subst y)
    | (extract_lets +onlyGivenNames y; guard_hyp y : Power := _; subst y)
    | (extract_lets +onlyGivenNames y; guard_hyp y : Trans := _; subst y)
    | (extract_lets +onlyGivenNames y; guard_hyp y : Prot := _; subst y)
    | (extract_lets +onlyGivenNames y; guard_hyp y : Persist := _; subst y)
    | (extract_lets +onlyGivenNames y; guard_hyp y : Sgl := _; subst y)
    | (extract_lets +onlyGivenNames y; guard_hyp y : Sec := _; subst y)
    | (extract_lets +onlyGivenNames y; clear_value y)
    | extract_lets +onlyGivenNames y
    | with_reducible apply OnlyChanges.ite
    | (with_reducible apply OnlyChanges.step discardStaged_frame; (on_goal 1 => decide))
    | (with_reducible apply OnlyChanges.step setClamp_frame; (on_goal 1 => decide))
    | split

theorem releaseAllIn_frame {a0} {a1} {x : State} : OnlyChanges [.mb, .cache, .portA, .portB, .clamps] x (releaseAllIn a0 a1 x) := by
  induction a1 generalizing x a0 with
  | nil =>
    unfold releaseAllIn
    repeat' first
      | with_reducible assumption
      | with_reducible apply OnlyChanges.refl
      | with_reducible apply OnlyChanges.ite
      | (with_reducible apply OnlyChanges.step releaseClamp_frame; (on_goal 1 => decide))
      | split
  | cons b l ih =>
    unfold releaseAllIn
    repeat' first
      | with_reducible assumption
      | with_reducible apply OnlyChanges.refl
      | with_reducible apply OnlyChanges.ite
      | (with_reducible apply OnlyChanges.step releaseClamp_frame; (on_goal 1 => decide))
      | (with_reducible apply OnlyChanges.step ih; (on_goal 1 => decide))
      | split

theorem emit_frame {a0} {x : State} : OnlyChanges [.outs] x (emit a0 x) := by
  unfold emit
  repeat' first
    | with_reducible assumption
    | with_reducible apply OnlyChanges.refl
    | with_reducible apply OnlyChanges.ite
    | split
    | (with_reducible apply OnlyChanges.upd67108864; (on_goal 1 => decide))

theorem vectorBoth_frame {a0} {x : State} : OnlyChanges [.outs] x (vectorBoth a0 x) := by
  unfold vectorBoth
  repeat' first
    | with_reducible assumption
    | with_reducible apply OnlyChanges.refl
    | with_reducible apply OnlyChanges.ite
    | (with_reducible apply OnlyChanges.step emit_frame; (on_goal 1 => decide))
    | split

theorem mergeRecord_frame {a0} {x : State} : OnlyChanges [.evr, .outs] x (mergeRecord a0 x) := by
  unfold mergeRecord
  repeat' first
    | with_reducible assumption
    | with_reducible apply OnlyChanges.refl
    | (extract_lets +onlyGivenNames y; guard_hyp y : State := Prod.snd _; subst y)
    | (extract_lets +onlyGivenNames y; guard_hyp y : State := _; apply OnlyChanges.cut y; (on_goal 1 => (unfold y; clear y)); (on_goal 2 => (intro hx; clear_value y)))
    | (extract_lets +onlyGivenNames y; guard_hyp y : _ × State := _; apply OnlyChanges.cutP y; (on_goal 1 => (unfold y; clear y)); (on_goal 2 => (intro hx; clear_value y)))
    | (extract_lets +onlyGivenNames y; guard_hyp y : _ × _ × State := _; apply OnlyChanges.cutPP y; (on_goal 1 => (unfold y; clear y)); (on_goal 2 => (intro hx; clear_value y)))
    | (extract_lets +onlyGivenNames y; guard_hyp y : Boxes := _; subst y)
    | (extract_lets +onlyGivenNames y; guard_hyp y : Power := _; subst y)
    | (extract_lets +onlyGivenNames y; guard_hyp y : Trans := _; subst y)
    | (extract_lets +onlyGivenNames y; guard_hyp y : Prot := _; subst y)
    | (extract_lets +onlyGivenNames y; guard_hyp y : Persist := _; subst y)
    | (extract_lets +onlyGivenNames y; guard_hyp y : Sgl := _; subst y)
    | (extract_lets +onlyGivenNames y; guard_hyp y : Sec := _; subst y)
    | (extract_lets +onlyGivenNames y; clear_value y)
    | extract_lets +onlyGivenNames y
    | with_reducible apply OnlyChanges.ite
    | (with_reducible apply OnlyChanges.step vectorBoth_frame; (on_goal 1 => decide))
    | split
    | (with_reducible apply OnlyChanges.upd2; (on_goal 1 => decide))

theorem dropEvent_frame  {x : State} : OnlyChanges [.evr] x (dropEvent x) := by
  unfold dropEvent
  repeat' first
    | with_reducible assumption
    | with_reducible apply OnlyChanges.refl
    | (extract_lets +onlyGivenNames y; guard_hyp y : State := Prod.snd _; subst y)
    | (extract_lets +onlyGivenNames y; guard_hyp y : State := _; apply OnlyChanges.cut y; (on_goal 1 => (unfold y; clear y)); (on_goal 2 => (intro hx; clear_value y)))
    | (extract_lets +onlyGivenNames y; guard_hyp y : _ × State := _; apply OnlyChanges.cutP y; (on_goal 1 => (unfold y; clear y)); (on_goal 2 => (intro hx; clear_value y)))
    | (extract_lets +onlyGivenNames y; guard_hyp y : _ × _ × State := _; apply OnlyChanges.cutPP y; (on_goal 1 => (unfold y; clear y)); (on_goal 2 => (intro hx; clear_value y)))
    | (extract_lets +onlyGivenNames y; guard_hyp y : Boxes := _; subst y)
    | (extract_lets +onlyGivenNames y; guard_hyp y : Power := _; subst y)
    | (extract_lets +onlyGivenNames y; guard_hyp y : Trans := _; subst y)
    | (extract_lets +onlyGivenNames y; guard_hyp y : Prot := _; subst y)
    | (extract_lets +onlyGivenNames y; guard_hyp y : Persist := _; subst y)
    | (extract_lets +onlyGivenNames y; guard_hyp y : Sgl := _; subst y)
    | (extract_lets +onlyGivenNames y; guard_hyp y : Sec := _; subst y)
    | (extract_lets +onlyGivenNames y; clear_value y)
    | extract_lets +onlyGivenNames y
    | with_reducible apply OnlyChanges.ite
    | split
    | (with_reducible apply OnlyChanges.upd2; (on_goal 1 => decide))

theorem deferEvent_frame {a0} {x : State} : OnlyChanges [.evr] x (deferEvent a0 x) := by
  unfold deferEvent
  repeat' first
    | with_reducible assumption
    | with_reducible apply OnlyChanges.refl
    | (extract_lets +onlyGivenNames y; guard_hyp y : State := Prod.snd _; subst y)
    | (extract_lets +onlyGivenNames y; guard_hyp y : State := _; apply OnlyChanges.cut y; (on_goal 1 => (unfold y; clear y)); (on_goal 2 => (intro hx; clear_value y)))
    | (extract_lets +onlyGivenNames y; guard_hyp y : _ × State := _; apply OnlyChanges.cutP y; (on_goal 1 => (unfold y; clear y)); (on_goal 2 => (intro hx; clear_value y)))
    | (extract_lets +onlyGivenNames y; guard_hyp y : _ × _ × State := _; apply OnlyChanges.cutPP y; (on_goal 1 => (unfold y; clear y)); (on_goal 2 => (intro hx; clear_value y)))
    | (extract_lets +onlyGivenNames y; guard_hyp y : Boxes := _; subst y)
    | (extract_lets +onlyGivenNames y; guard_hyp y : Power := _; subst y)
    | (extract_lets +onlyGivenNames y; guard_hyp y : Trans := _; subst y)
    | (extract_lets +onlyGivenNames y; guard_hyp y : Prot := _; subst y)
    | (extract_lets +onlyGivenNames y; guard_hyp y : Persist := _; subst y)
    | (extract_lets +onlyGivenNames y; guard_hyp y : Sgl := _; subst y)
    | (extract_lets +onlyGivenNames y; guard_hyp y : Sec := _; subst y)
    | (extract_lets +onlyGivenNames y; clear_value y)
    | extract_lets +onlyGivenNames y
    | with_reducible apply OnlyChanges.ite
    | (with_reducible apply OnlyChanges.step dropEvent_frame; (on_goal 1 => decide))
    | split
    | (with_reducible apply OnlyChanges.upd2; (on_goal 1 => decide))

theorem storeRepeat_frame  {x : State} : OnlyChanges [.evr] x (storeRepeat x) := by
  unfold storeRepeat
  repeat' first
    | with_reducible assumption
    | with_reducible apply OnlyChanges.refl
    | (extract_lets +onlyGivenNames y; guard_hyp y : State := Prod.snd _; subst y)
    | (extract_lets +onlyGivenNames y; guard_hyp y : State := _; apply OnlyChanges.cut y; (on_goal 1 => (unfold y; clear y)); (on_goal 2 => (intro hx; clear_value y)))
    | (extract_lets +onlyGivenNames y; guard_hyp y : _ × State := _; apply OnlyChanges.cutP y; (on_goal 1 => (unfold y; clear y)); (on_goal 2 => (intro hx; clear_value y)))
    | (extract_lets +onlyGivenNames y; guard_hyp y : _ × _ × State := _; apply OnlyChanges.cutPP y; (on_goal 1 => (unfold y; clear y)); (on_goal 2 => (intro hx; clear_value y)))
    | (extract_lets +onlyGivenNames y; guard_hyp y : Boxes := _; subst y)
    | (extract_lets +onlyGivenNames y; guard_hyp y : Power := _; subst y)
    | (extract_lets +onlyGivenNames y; guard_hyp y : Trans := _; subst y)
    | (extract_lets +onlyGivenNames y; guard_hyp y : Prot := _; subst y)
    | (extract_lets +onlyGivenNames y; guard_hyp y : Persist := _; subst y)
    | (extract_lets +onlyGivenNames y; guard_hyp y : Sgl := _; subst y)
    | (extract_lets +onlyGivenNames y; guard_hyp y : Sec := _; subst y)
    | (extract_lets +onlyGivenNames y; clear_value y)
    | extract_lets +onlyGivenNames y
    | with_reducible apply OnlyChanges.ite
    | split
    | (with_reducible apply OnlyChanges.upd2; (on_goal 1 => decide))

theorem writeRecord_frame {a0} {x : State} : OnlyChanges [.evr, .cxlA, .cxlB, .outs] x (writeRecord a0 x) := by
  unfold writeRecord
  repeat' first
    | with_reducible assumption
    | with_reducible apply OnlyChanges.refl
    | (extract_lets +onlyGivenNames y; guard_hyp y : State := Prod.snd _; subst y)
    | (extract_lets +onlyGivenNames y; guard_hyp y : State := _; apply OnlyChanges.cut y; (on_goal 1 => (unfold y; clear y)); (on_goal 2 => (intro hx; clear_value y)))
    | (extract_lets +onlyGivenNames y; guard_hyp y : _ × State := _; apply OnlyChanges.cutP y; (on_goal 1 => (unfold y; clear y)); (on_goal 2 => (intro hx; clear_value y)))
    | (extract_lets +onlyGivenNames y; guard_hyp y : _ × _ × State := _; apply OnlyChanges.cutPP y; (on_goal 1 => (unfold y; clear y)); (on_goal 2 => (intro hx; clear_value y)))
    | (extract_lets +onlyGivenNames y; guard_hyp y : Boxes := _; subst y)
    | (extract_lets +onlyGivenNames y; guard_hyp y : Power := _; subst y)
    | (extract_lets +onlyGivenNames y; guard_hyp y : Trans := _; subst y)
    | (extract_lets +onlyGivenNames y; guard_hyp y : Prot := _; subst y)
    | (extract_lets +onlyGivenNames y; guard_hyp y : Persist := _; subst y)
    | (extract_lets +onlyGivenNames y; guard_hyp y : Sgl := _; subst y)
    | (extract_lets +onlyGivenNames y; guard_hyp y : Sec := _; subst y)
    | (extract_lets +onlyGivenNames y; clear_value y)
    | extract_lets +onlyGivenNames y
    | with_reducible apply OnlyChanges.ite
    | (with_reducible apply OnlyChanges.step vectorBoth_frame; (on_goal 1 => decide))
    | (with_reducible apply OnlyChanges.step storeRepeat_frame; (on_goal 1 => decide))
    | split
    | (with_reducible apply OnlyChanges.upd1572866; (on_goal 1 => decide))

theorem writeOrDefer_frame {a0} {x : State} : OnlyChanges [.evr, .cxlA, .cxlB, .outs] x (writeOrDefer a0 x) := by
  unfold writeOrDefer
  repeat' first
    | with_reducible assumption
    | with_reducible apply OnlyChanges.refl
    | with_reducible apply OnlyChanges.ite
    | (with_reducible apply OnlyChanges.step deferEvent_frame; (on_goal 1 => decide))
    | (with_reducible apply OnlyChanges.step writeRecord_frame; (on_goal 1 => decide))
    | split

theorem recordEvent_frame {a0} {x : State} : OnlyChanges [.evr, .cxlA, .cxlB, .outs] x (recordEvent a0 x) := by
  unfold recordEvent
  repeat' first
    | with_reducible assumption
    | with_reducible apply OnlyChanges.refl
    | with_reducible apply OnlyChanges.ite
    | (with_reducible apply OnlyChanges.step mergeRecord_frame; (on_goal 1 => decide))
    | (with_reducible apply OnlyChanges.step deferEvent_frame; (on_goal 1 => decide))
    | (with_reducible apply OnlyChanges.step writeOrDefer_frame; (on_goal 1 => decide))
    | split

theorem event_frame {a0} {a1} {a2} {x : State} : OnlyChanges [.evr, .cxlA, .cxlB, .outs] x (event a0 a1 a2 x) := by
  unfold event
  repeat' first
    | with_reducible assumption
    | with_reducible apply OnlyChanges.refl
    | with_reducible apply OnlyChanges.ite
    | (with_reducible apply OnlyChanges.step recordEvent_frame; (on_goal 1 => decide))
    | split

theorem State.setPort_frame {a1} {a2} {x : State} : OnlyChanges [.portA, .portB] x (State.setPort x a1 a2) := by
  unfold State.setPort
  repeat' first
    | with_reducible assumption
    | with_reducible apply OnlyChanges.refl
    | with_reducible apply OnlyChanges.ite
    | split
    | (with_reducible apply OnlyChanges.upd131072; (on_goal 1 => decide))
    | (with_reducible apply OnlyChanges.upd262144; (on_goal 1 => decide))

theorem State.setCxl_frame {a1} {a2} {x : State} : OnlyChanges [.cxlA, .cxlB] x (State.setCxl x a1 a2) := by
  unfold State.setCxl
  repeat' first
    | with_reducible assumption
    | with_reducible apply OnlyChanges.refl
    | with_reducible apply OnlyChanges.ite
    | split
    | (with_reducible apply OnlyChanges.upd1048576; (on_goal 1 => decide))
    | (with_reducible apply OnlyChanges.upd524288; (on_goal 1 => decide))

theorem releaseAll_frame {a0} {x : State} : OnlyChanges [.mb, .cache, .portA, .portB, .clamps] x (releaseAll a0 x) := by
  unfold releaseAll
  repeat' first
    | with_reducible assumption
    | with_reducible apply OnlyChanges.refl
    | with_reducible apply OnlyChanges.ite
    | (with_reducible apply OnlyChanges.step releaseAllIn_frame; (on_goal 1 => decide))
    | split

theorem draw_frame  {x : State} : OnlyChangesP [.freeCtr] x (draw x) := by
  unfold draw
  repeat' first
    | with_reducible assumption
    | with_reducible apply OnlyChanges.refl
    | with_reducible apply OnlyChanges.ite
    | with_reducible apply OnlyChangesP.ite
    | split
    | with_reducible apply OnlyChangesP.mk
    | (with_reducible apply OnlyChanges.upd33554432; (on_goal 1 => decide))

theorem mpInterrupt_frame  {x : State} : OnlyChanges [.pmc, .freeCtr] x (mpInterrupt x) := by
  unfold mpInterrupt
  repeat' first
    | with_reducible assumption
    | with_reducible apply OnlyChanges.refl
    | (extract_lets +onlyGivenNames y; guard_hyp y : State := Prod.snd _; subst y)
    | (extract_lets +onlyGivenNames y; guard_hyp y : State := _; apply OnlyChanges.cut y; (on_goal 1 => (unfold y; clear y)); (on_goal 2 => (intro hx; clear_value y)))
    | (extract_lets +onlyGivenNames y; guard_hyp y : _ × State := _; apply OnlyChanges.cutP y; (on_goal 1 => (unfold y; clear y)); (on_goal 2 => (intro hx; clear_value y)))
    | (extract_lets +onlyGivenNames y; guard_hyp y : _ × _ × State := _; apply OnlyChanges.cutPP y; (on_goal 1 => (unfold y; clear y)); (on_goal 2 => (intro hx; clear_value y)))
    | (extract_lets +onlyGivenNames y; guard_hyp y : Boxes := _; subst y)
    | (extract_lets +onlyGivenNames y; guard_hyp y : Power := _; subst y)
    | (extract_lets +onlyGivenNames y; guard_hyp y : Trans := _; subst y)
    | (extract_lets +onlyGivenNames y; guard_hyp y : Prot := _; subst y)
    | (extract_lets +onlyGivenNames y; guard_hyp y : Persist := _; subst y)
    | (extract_lets +onlyGivenNames y; guard_hyp y : Sgl := _; subst y)
    | (extract_lets +onlyGivenNames y; guard_hyp y : Sec := _; subst y)
    | (extract_lets +onlyGivenNames y; clear_value y)
    | extract_lets +onlyGivenNames y
    | with_reducible apply OnlyChanges.ite
    | (with_reducible apply OnlyChangesP.step draw_frame; (on_goal 1 => decide))
    | (with_reducible apply OnlyChangesP.snd draw_frame; (on_goal 1 => decide))
    | (with_reducible apply OnlyChanges.ofPair; (on_goal 1 => assumption))
    | split
    | (with_reducible apply OnlyChanges.upd8; (on_goal 1 => decide))

theorem count_frame {a0} {a1} {a2} {a3} {x : State} : OnlyChanges [.pmc, .freeCtr, .outs] x (count a0 a1 a2 a3 x) := by
  unfold count
  repeat' first
    | with_reducible assumption
    | with_reducible apply OnlyChanges.refl
    | (extract_lets +onlyGivenNames y; guard_hyp y : State := Prod.snd _; subst y)
    | (extract_lets +onlyGivenNames y; guard_hyp y : State := _; apply OnlyChanges.cut y; (on_goal 1 => (unfold y; clear y)); (on_goal 2 => (intro hx; clear_value y)))
    | (extract_lets +onlyGivenNames y; guard_hyp y : _ × State := _; apply OnlyChanges.cutP y; (on_goal 1 => (unfold y; clear y)); (on_goal 2 => (intro hx; clear_value y)))
    | (extract_lets +onlyGivenNames y; guard_hyp y : _ × _ × State := _; apply OnlyChanges.cutPP y; (on_goal 1 => (unfold y; clear y)); (on_goal 2 => (intro hx; clear_value y)))
    | (extract_lets +onlyGivenNames y; guard_hyp y : Boxes := _; subst y)
    | (extract_lets +onlyGivenNames y; guard_hyp y : Power := _; subst y)
    | (extract_lets +onlyGivenNames y; guard_hyp y : Trans := _; subst y)
    | (extract_lets +onlyGivenNames y; guard_hyp y : Prot := _; subst y)
    | (extract_lets +onlyGivenNames y; guard_hyp y : Persist := _; subst y)
    | (extract_lets +onlyGivenNames y; guard_hyp y : Sgl := _; subst y)
    | (extract_lets +onlyGivenNames y; guard_hyp y : Sec := _; subst y)
    | (extract_lets +onlyGivenNames y; clear_value y)
    | extract_lets +onlyGivenNames y
    | with_reducible apply OnlyChanges.ite
    | (with_reducible apply OnlyChanges.step vectorBoth_frame; (on_goal 1 => decide))
    | (with_reducible apply OnlyChanges.step mpInterrupt_frame; (on_goal 1 => decide))
    | split
    | (with_reducible apply OnlyChanges.upd8; (on_goal 1 => decide))

theorem drawN_frame {a0} {x : State} : OnlyChangesP [.freeCtr] x (drawN a0 x) := by
  unfold drawN
  repeat' first
    | with_reducible assumption
    | with_reducible apply OnlyChanges.refl
    | with_reducible apply OnlyChanges.ite
    | with_reducible apply OnlyChangesP.ite
    | split
    | with_reducible apply OnlyChangesP.mk
    | (with_reducible apply OnlyChanges.upd33554432; (on_goal 1 => decide))

theorem wake_frame  {x : State} : OnlyChanges [.pw, .dram] x (wake x) := by
  unfold wake
  repeat' first
    | with_reducible assumption
    | with_reducible apply OnlyChanges.refl
    | (extract_lets +onlyGivenNames y; guard_hyp y : State := Prod.snd _; subst y)
    | (extract_lets +onlyGivenNames y; guard_hyp y : State := _; apply OnlyChanges.cut y; (on_goal 1 => (unfold y; clear y)); (on_goal 2 => (intro hx; clear_value y)))
    | (extract_lets +onlyGivenNames y; guard_hyp y : _ × State := _; apply OnlyChanges.cutP y; (on_goal 1 => (unfold y; clear y)); (on_goal 2 => (intro hx; clear_value y)))
    | (extract_lets +onlyGivenNames y; guard_hyp y : _ × _ × State := _; apply OnlyChanges.cutPP y; (on_goal 1 => (unfold y; clear y)); (on_goal 2 => (intro hx; clear_value y)))
    | (extract_lets +onlyGivenNames y; guard_hyp y : Boxes := _; subst y)
    | (extract_lets +onlyGivenNames y; guard_hyp y : Power := _; subst y)
    | (extract_lets +onlyGivenNames y; guard_hyp y : Trans := _; subst y)
    | (extract_lets +onlyGivenNames y; guard_hyp y : Prot := _; subst y)
    | (extract_lets +onlyGivenNames y; guard_hyp y : Persist := _; subst y)
    | (extract_lets +onlyGivenNames y; guard_hyp y : Sgl := _; subst y)
    | (extract_lets +onlyGivenNames y; guard_hyp y : Sec := _; subst y)
    | (extract_lets +onlyGivenNames y; clear_value y)
    | extract_lets +onlyGivenNames y
    | with_reducible apply OnlyChanges.ite
    | split
    | (with_reducible apply OnlyChanges.upd8193; (on_goal 1 => decide); (on_goal 1 => (first | exact Or.inr (by with_reducible rfl) | exact Or.inl (by decide) | exact Or.inr rfl)); (on_goal 1 => (first | exact Or.inr (by with_reducible rfl) | exact Or.inl (by decide) | exact Or.inr rfl)))

theorem updateMode_frame  {x : State} : OnlyChanges [.pw, .evr, .dram, .cxlA, .cxlB, .outs] x (updateMode x) := by
  unfold updateMode
  repeat' first
    | with_reducible assumption
    | with_reducible apply OnlyChanges.refl
    | (extract_lets +onlyGivenNames y; guard_hyp y : State := Prod.snd _; subst y)
    | (extract_lets +onlyGivenNames y; guard_hyp y : State := _; apply OnlyChanges.cut y; (on_goal 1 => (unfold y; clear y)); (on_goal 2 => (intro hx; clear_value y)))
    | (extract_lets +onlyGivenNames y; guard_hyp y : _ × State := _; apply OnlyChanges.cutP y; (on_goal 1 => (unfold y; clear y)); (on_goal 2 => (intro hx; clear_value y)))
    | (extract_lets +onlyGivenNames y; guard_hyp y : _ × _ × State := _; apply OnlyChanges.cutPP y; (on_goal 1 => (unfold y; clear y)); (on_goal 2 => (intro hx; clear_value y)))
    | (extract_lets +onlyGivenNames y; guard_hyp y : Boxes := _; subst y)
    | (extract_lets +onlyGivenNames y; guard_hyp y : Power := _; subst y)
    | (extract_lets +onlyGivenNames y; guard_hyp y : Trans := _; subst y)
    | (extract_lets +onlyGivenNames y; guard_hyp y : Prot := _; subst y)
    | (extract_lets +onlyGivenNames y; guard_hyp y : Persist := _; subst y)
    | (extract_lets +onlyGivenNames y; guard_hyp y : Sgl := _; subst y)
    | (extract_lets +onlyGivenNames y; guard_hyp y : Sec := _; subst y)
    | (extract_lets +onlyGivenNames y; clear_value y)
    | extract_lets +onlyGivenNames y
    | with_reducible apply OnlyChanges.ite
    | (with_reducible apply OnlyChanges.step event_frame; (on_goal 1 => decide))
    | (with_reducible apply OnlyChanges.step wake_frame; (on_goal 1 => decide))
    | split
    | (with_reducible apply OnlyChanges.upd1; (on_goal 1 => decide); (on_goal 1 => (first | exact Or.inr (by with_reducible rfl) | exact Or.inl (by decide) | exact Or.inr rfl)); (on_goal 1 => (first | exact Or.inr (by with_reducible rfl) | exact Or.inl (by decide) | exact Or.inr rfl)))

theorem incCounter_frame {a0} {x : State} : OnlyChanges [.pst] x (incCounter a0 x) := by
  unfold incCounter
  repeat' first
    | with_reducible assumption
    | with_reducible apply OnlyChanges.refl
    | (extract_lets +onlyGivenNames y; guard_hyp y : State := Prod.snd _; subst y)
    | (extract_lets +onlyGivenNames y; guard_hyp y : State := _; apply OnlyChanges.cut y; (on_goal 1 => (unfold y; clear y)); (on_goal 2 => (intro hx; clear_value y)))
    | (extract_lets +onlyGivenNames y; guard_hyp y : _ × State := _; apply OnlyChanges.cutP y; (on_goal 1 => (unfold y; clear y)); (on_goal 2 => (intro hx; clear_value y)))
    | (extract_lets +onlyGivenNames y; guard_hyp y : _ × _ × State := _; apply OnlyChanges.cutPP y; (on_goal 1 => (unfold y; clear y)); (on_goal 2 => (intro hx; clear_value y)))
    | (extract_lets +onlyGivenNames y; guard_hyp y : Boxes := _; subst y)
    | (extract_lets +onlyGivenNames y; guard_hyp y : Power := _; subst y)
    | (extract_lets +onlyGivenNames y; guard_hyp y : Trans := _; subst y)
    | (extract_lets +onlyGivenNames y; guard_hyp y : Prot := _; subst y)
    | (extract_lets +onlyGivenNames y; guard_hyp y : Persist := _; subst y)
    | (extract_lets +onlyGivenNames y; guard_hyp y : Sgl := _; subst y)
    | (extract_lets +onlyGivenNames y; guard_hyp y : Sec := _; subst y)
    | (extract_lets +onlyGivenNames y; clear_value y)
    | extract_lets +onlyGivenNames y
    | with_reducible apply OnlyChanges.ite
    | split
    | (with_reducible apply OnlyChanges.upd4; (on_goal 1 => decide))

theorem alarm_frame {a0} {x : State} : OnlyChanges [.sec, .outs] x (alarm a0 x) := by
  unfold alarm
  repeat' first
    | with_reducible assumption
    | with_reducible apply OnlyChanges.refl
    | (extract_lets +onlyGivenNames y; guard_hyp y : State := Prod.snd _; subst y)
    | (extract_lets +onlyGivenNames y; guard_hyp y : State := _; apply OnlyChanges.cut y; (on_goal 1 => (unfold y; clear y)); (on_goal 2 => (intro hx; clear_value y)))
    | (extract_lets +onlyGivenNames y; guard_hyp y : _ × State := _; apply OnlyChanges.cutP y; (on_goal 1 => (unfold y; clear y)); (on_goal 2 => (intro hx; clear_value y)))
    | (extract_lets +onlyGivenNames y; guard_hyp y : _ × _ × State := _; apply OnlyChanges.cutPP y; (on_goal 1 => (unfold y; clear y)); (on_goal 2 => (intro hx; clear_value y)))
    | (extract_lets +onlyGivenNames y; guard_hyp y : Boxes := _; subst y)
    | (extract_lets +onlyGivenNames y; guard_hyp y : Power := _; subst y)
    | (extract_lets +onlyGivenNames y; guard_hyp y : Trans := _; subst y)
    | (extract_lets +onlyGivenNames y; guard_hyp y : Prot := _; subst y)
    | (extract_lets +onlyGivenNames y; guard_hyp y : Persist := _; subst y)
    | (extract_lets +onlyGivenNames y; guard_hyp y : Sgl := _; subst y)
    | (extract_lets +onlyGivenNames y; guard_hyp y : Sec := _; subst y)
    | (extract_lets +onlyGivenNames y; clear_value y)
    | extract_lets +onlyGivenNames y
    | with_reducible apply OnlyChanges.ite
    | (with_reducible apply OnlyChanges.step vectorBoth_frame; (on_goal 1 => decide))
    | split
    | (with_reducible apply OnlyChanges.upd2097152; (on_goal 1 => decide); (on_goal 1 => (first | exact Or.inr (by with_reducible rfl) | exact Or.inl (by decide) | exact Or.inr rfl)); (on_goal 1 => (first | exact Or.inr (by with_reducible rfl) | exact Or.inl (by decide) | exact Or.inr rfl)); (on_goal 1 => (first | exact Or.inr (by with_reducible rfl) | exact Or.inl (by decide) | exact Or.inr rfl)))

theorem violate_frame {a0} {a1} {a2} {a3} {x : State} : OnlyChanges [.portA, .portB] x (violate a0 a1 a2 a3 x) := by
  unfold violate
  repeat' first
    | with_reducible assumption
    | with_reducible apply OnlyChanges.refl
    | (extract_lets +onlyGivenNames y; guard_hyp y : State := Prod.snd _; subst y)
    | (extract_lets +onlyGivenNames y; guard_hyp y : State := _; apply OnlyChanges.cut y; (on_goal 1 => (unfold y; clear y)); (on_goal 2 => (intro hx; clear_value y)))
    | (extract_lets +onlyGivenNames y; guard_hyp y : _ × State := _; apply OnlyChanges.cutP y; (on_goal 1 => (unfold y; clear y)); (on_goal 2 => (intro hx; clear_value y)))
    | (extract_lets +onlyGivenNames y; guard_hyp y : _ × _ × State := _; apply OnlyChanges.cutPP y; (on_goal 1 => (unfold y; clear y)); (on_goal 2 => (intro hx; clear_value y)))
    | (extract_lets +onlyGivenNames y; guard_hyp y : Boxes := _; subst y)
    | (extract_lets +onlyGivenNames y; guard_hyp y : Power := _; subst y)
    | (extract_lets +onlyGivenNames y; guard_hyp y : Trans := _; subst y)
    | (extract_lets +onlyGivenNames y; guard_hyp y : Prot := _; subst y)
    | (extract_lets +onlyGivenNames y; guard_hyp y : Persist := _; subst y)
    | (extract_lets +onlyGivenNames y; guard_hyp y : Sgl := _; subst y)
    | (extract_lets +onlyGivenNames y; guard_hyp y : Sec := _; subst y)
    | (extract_lets +onlyGivenNames y; clear_value y)
    | extract_lets +onlyGivenNames y
    | with_reducible apply OnlyChanges.ite
    | (with_reducible apply OnlyChanges.step State.setPort_frame; (on_goal 1 => decide))
    | split

theorem noRight_frame {a0} {a1} {a2} {x : State} : OnlyChanges [.portA, .portB] x (noRight a0 a1 a2 x) := by
  unfold noRight
  repeat' first
    | with_reducible assumption
    | with_reducible apply OnlyChanges.refl
    | with_reducible apply OnlyChanges.ite
    | (with_reducible apply OnlyChanges.step violate_frame; (on_goal 1 => decide))
    | split

end Sys2Proof.Machine
end

