-- ==== Sys2Proof/Laws/FrameBanks.lean ====
section
/-! SUPPORT. The parts of the state that each operation of Machine/Banks.lean may change; every other part it leaves
alone. -/

set_option linter.all false

namespace Sys2Proof.Machine

theorem dramWrites_frame {a0} {x : State} : OnlyChanges [.dram] x (dramWrites a0 x) := by
  unfold dramWrites
  repeat' first
    | with_reducible assumption
    | with_reducible apply OnlyChanges.refl
    | (extract_lets +onlyGivenNames y; guard_hyp y : State := Prod.snd _; subst y)
    | (extract_lets +onlyGivenNames y; guard_hyp y : State := _; apply OnlyChanges.cut y; (on_goal 1 => (unfold y; clear y)); (on_goal 2 => (intro hx; clear_value y)))
    | (extract_lets +onlyGivenNames y; guard_hyp y : _ × State := _; apply OnlyChanges.cutP y; (on_goal 1 => (unfold y; clear y)); (on_goal 2 => (intro hx; clear_value y)))
    | (extract_lets +onlyGivenNames y; guard_hyp y : _ × _ × State := _; apply OnlyChanges.cutPP y; (on_goal 1 => (unfold y; clear y)); (on_goal 2 => (intro hx; clear_value y)))
    | (extract_lets +onlyGivenNames y; guard_hyp y : Boxes := _; subst y)
    | (extract_lets +onlyGivenNames y; guard_hyp y : Power := _; subst y)
    | (extract_lets +onlyGivenNames y; guard_hyp y : Trans := _; subst y)
    | (extract_lets +onlyGivenNames y; guard_hyp y : Prot := _; subst y)
    | (extract_lets +onlyGivenNames y; guard_hyp y : Persist := _; subst y)
    | (extract_lets +onlyGivenNames y; guard_hyp y : Sgl := _; subst y)
    | (extract_lets +onlyGivenNames y; guard_hyp y : Sec := _; subst y)
    | (extract_lets +onlyGivenNames y; clear_value y)
    | extract_lets +onlyGivenNames y
    | with_reducible apply OnlyChanges.ite
    | split
    | (with_reducible apply OnlyChanges.upd8192; (on_goal 1 => decide))

theorem dramAsk_frame {a0} {x : State} : OnlyChanges [.dram] x (dramAsk a0 x) := by
  unfold dramAsk
  repeat' first
    | with_reducible assumption
    | with_reducible apply OnlyChanges.refl
    | (extract_lets +onlyGivenNames y; guard_hyp y : State := Prod.snd _; subst y)
    | (extract_lets +onlyGivenNames y; guard_hyp y : State := _; apply OnlyChanges.cut y; (on_goal 1 => (unfold y; clear y)); (on_goal 2 => (intro hx; clear_value y)))
    | (extract_lets +onlyGivenNames y; guard_hyp y : _ × State := _; apply OnlyChanges.cutP y; (on_goal 1 => (unfold y; clear y)); (on_goal 2 => (intro hx; clear_value y)))
    | (extract_lets +onlyGivenNames y; guard_hyp y : _ × _ × State := _; apply OnlyChanges.cutPP y; (on_goal 1 => (unfold y; clear y)); (on_goal 2 => (intro hx; clear_value y)))
    | (extract_lets +onlyGivenNames y; guard_hyp y : Boxes := _; subst y)
    | (extract_lets +onlyGivenNames y; guard_hyp y : Power := _; subst y)
    | (extract_lets +onlyGivenNames y; guard_hyp y : Trans := _; subst y)
    | (extract_lets +onlyGivenNames y; guard_hyp y : Prot := _; subst y)
    | (extract_lets +onlyGivenNames y; guard_hyp y : Persist := _; subst y)
    | (extract_lets +onlyGivenNames y; guard_hyp y : Sgl := _; subst y)
    | (extract_lets +onlyGivenNames y; guard_hyp y : Sec := _; subst y)
    | (extract_lets +onlyGivenNames y; clear_value y)
    | extract_lets +onlyGivenNames y
    | with_reducible apply OnlyChanges.ite
    | split
    | (with_reducible apply OnlyChanges.upd8192; (on_goal 1 => decide))

theorem askMaps_frame {a0} {a1} {x : State} : OnlyChanges [.dram] x (askMaps a0 a1 x) := by
  unfold askMaps
  repeat' first
    | with_reducible assumption
    | with_reducible apply OnlyChanges.refl
    | (extract_lets +onlyGivenNames y; guard_hyp y : State := Prod.snd _; subst y)
    | (extract_lets +onlyGivenNames y; guard_hyp y : State := _; apply OnlyChanges.cut y; (on_goal 1 => (unfold y; clear y)); (on_goal 2 => (intro hx; clear_value y)))
    | (extract_lets +onlyGivenNames y; guard_hyp y : _ × State := _; apply OnlyChanges.cutP y; (on_goal 1 => (unfold y; clear y)); (on_goal 2 => (intro hx; clear_value y)))
    | (extract_lets +onlyGivenNames y; guard_hyp y : _ × _ × State := _; apply OnlyChanges.cutPP y; (on_goal 1 => (unfold y; clear y)); (on_goal 2 => (intro hx; clear_value y)))
    | (extract_lets +onlyGivenNames y; guard_hyp y : Boxes := _; subst y)
    | (extract_lets +onlyGivenNames y; guard_hyp y : Power := _; subst y)
    | (extract_lets +onlyGivenNames y; guard_hyp y : Trans := _; subst y)
    | (extract_lets +onlyGivenNames y; guard_hyp y : Prot := _; subst y)
    | (extract_lets +onlyGivenNames y; guard_hyp y : Persist := _; subst y)
    | (extract_lets +onlyGivenNames y; guard_hyp y : Sgl := _; subst y)
    | (extract_lets +onlyGivenNames y; guard_hyp y : Sec := _; subst y)
    | (extract_lets +onlyGivenNames y; clear_value y)
    | extract_lets +onlyGivenNames y
    | with_reducible apply OnlyChanges.ite
    | (with_reducible apply OnlyChanges.step dramAsk_frame; (on_goal 1 => decide))
    | split

theorem putChan_frame {a0} {a1} {x : State} : OnlyChanges [.dram] x (putChan a0 a1 x) := by
  unfold putChan
  repeat' first
    | with_reducible assumption
    | with_reducible apply OnlyChanges.refl
    | (extract_lets +onlyGivenNames y; guard_hyp y : State := Prod.snd _; subst y)
    | (extract_lets +onlyGivenNames y; guard_hyp y : State := _; apply OnlyChanges.cut y; (on_goal 1 => (unfold y; clear y)); (on_goal 2 => (intro hx; clear_value y)))
    | (extract_lets +onlyGivenNames y; guard_hyp y : _ × State := _; apply OnlyChanges.cutP y; (on_goal 1 => (unfold y; clear y)); (on_goal 2 => (intro hx; clear_value y)))
    | (extract_lets +onlyGivenNames y; guard_hyp y : _ × _ × State := _; apply OnlyChanges.cutPP y; (on_goal 1 => (unfold y; clear y)); (on_goal 2 => (intro hx; clear_value y)))
    | (extract_lets +onlyGivenNames y; guard_hyp y : Boxes := _; subst y)
    | (extract_lets +onlyGivenNames y; guard_hyp y : Power := _; subst y)
    | (extract_lets +onlyGivenNames y; guard_hyp y : Trans := _; subst y)
    | (extract_lets +onlyGivenNames y; guard_hyp y : Prot := _; subst y)
    | (extract_lets +onlyGivenNames y; guard_hyp y : Persist := _; subst y)
    | (extract_lets +onlyGivenNames y; guard_hyp y : Sgl := _; subst y)
    | (extract_lets +onlyGivenNames y; guard_hyp y : Sec := _; subst y)
    | (extract_lets +onlyGivenNames y; clear_value y)
    | extract_lets +onlyGivenNames y
    | with_reducible apply OnlyChanges.ite
    | split
    | (with_reducible apply OnlyChanges.upd8192; (on_goal 1 => decide))

theorem dramTake_frame {a0} {x : State} : OnlyChanges [.dram] x (dramTake a0 x) := by
  unfold dramTake
  repeat' first
    | with_reducible assumption
    | with_reducible apply OnlyChanges.refl
    | (extract_lets +onlyGivenNames y; guard_hyp y : State := Prod.snd _; subst y)
    | (extract_lets +onlyGivenNames y; guard_hyp y : State := _; apply OnlyChanges.cut y; (on_goal 1 => (unfold y; clear y)); (on_goal 2 => (intro hx; clear_value y)))
    | (extract_lets +onlyGivenNames y; guard_hyp y : _ × State := _; apply OnlyChanges.cutP y; (on_goal 1 => (unfold y; clear y)); (on_goal 2 => (intro hx; clear_value y)))
    | (extract_lets +onlyGivenNames y; guard_hyp y : _ × _ × State := _; apply OnlyChanges.cutPP y; (on_goal 1 => (unfold y; clear y)); (on_goal 2 => (intro hx; clear_value y)))
    | (extract_lets +onlyGivenNames y; guard_hyp y : Boxes := _; subst y)
    | (extract_lets +onlyGivenNames y; guard_hyp y : Power := _; subst y)
    | (extract_lets +onlyGivenNames y; guard_hyp y : Trans := _; subst y)
    | (extract_lets +onlyGivenNames y; guard_hyp y : Prot := _; subst y)
    | (extract_lets +onlyGivenNames y; guard_hyp y : Persist := _; subst y)
    | (extract_lets +onlyGivenNames y; guard_hyp y : Sgl := _; subst y)
    | (extract_lets +onlyGivenNames y; guard_hyp y : Sec := _; subst y)
    | (extract_lets +onlyGivenNames y; clear_value y)
    | extract_lets +onlyGivenNames y
    | with_reducible apply OnlyChanges.ite
    | (with_reducible apply OnlyChanges.step putChan_frame; (on_goal 1 => decide))
    | split
    | (with_reducible apply OnlyChanges.upd8192; (on_goal 1 => decide))

theorem dramServe_frame {a0} {a1} {a2} {x : State} : OnlyChangesO [.dram] x (dramServe a0 a1 a2 x) := by
  unfold dramServe
  repeat' first
    | with_reducible assumption
    | with_reducible apply OnlyChanges.refl
    | with_reducible apply OnlyChanges.ite
    | with_reducible apply OnlyChangesO.none
    | with_reducible apply OnlyChangesO.some
    | with_reducible apply OnlyChangesO.ite
    | (with_reducible apply OnlyChanges.step dramTake_frame; (on_goal 1 => decide))
    | split

theorem serveMaps_frame {a0} {a1} {x : State} : OnlyChangesO [.dram] x (serveMaps a0 a1 x) := by
  have h (u v) : OnlyChangesO [.dram] x ((dramServe u a0 a1 x).bind (dramServe v a0 a1)) := fun t e => by
    obtain ⟨y, h1, h2⟩ := Option.bind_eq_some_iff.mp e
    exact (dramServe_frame y h1).trans (dramServe_frame t h2)
  unfold serveMaps
  split
  · rename_i e
    exact fun t k => h .dense .eaves t (e.trans k)
  · exact h _ _

theorem mapsServed_frame {a0} {a1} {a2} {x : State} : OnlyChangesO [.dram] x (mapsServed a0 a1 a2 x) := by
  unfold mapsServed
  repeat' first
    | with_reducible assumption
    | with_reducible apply OnlyChanges.refl
    | with_reducible apply OnlyChanges.ite
    | with_reducible apply OnlyChangesO.none
    | with_reducible apply OnlyChangesO.some
    | with_reducible apply OnlyChangesO.ite
    | with_reducible apply OnlyChangesO.getD
    | (with_reducible apply OnlyChangesO.step serveMaps_frame; (on_goal 1 => decide))
    | (apply OnlyChangesO.ofSome (h := serveMaps_frame); (on_goal 1 => assumption); (on_goal 1 => decide))
    | split

theorem drainWrite_frame {a0} {x : State} : OnlyChanges [.dram] x (drainWrite a0 x) := by
  unfold drainWrite
  repeat' first
    | with_reducible assumption
    | with_reducible apply OnlyChanges.refl
    | (extract_lets +onlyGivenNames y; guard_hyp y : State := Prod.snd _; subst y)
    | (extract_lets +onlyGivenNames y; guard_hyp y : State := _; apply OnlyChanges.cut y; (on_goal 1 => (unfold y; clear y)); (on_goal 2 => (intro hx; clear_value y)))
    | (extract_lets +onlyGivenNames y; guard_hyp y : _ × State := _; apply OnlyChanges.cutP y; (on_goal 1 => (unfold y; clear y)); (on_goal 2 => (intro hx; clear_value y)))
    | (extract_lets +onlyGivenNames y; guard_hyp y : _ × _ × State := _; apply OnlyChanges.cutPP y; (on_goal 1 => (unfold y; clear y)); (on_goal 2 => (intro hx; clear_value y)))
    | (extract_lets +onlyGivenNames y; guard_hyp y : Boxes := _; subst y)
    | (extract_lets +onlyGivenNames y; guard_hyp y : Power := _; subst y)
    | (extract_lets +onlyGivenNames y; guard_hyp y : Trans := _; subst y)
    | (extract_lets +onlyGivenNames y; guard_hyp y : Prot := _; subst y)
    | (extract_lets +onlyGivenNames y; guard_hyp y : Persist := _; subst y)
    | (extract_lets +onlyGivenNames y; guard_hyp y : Sgl := _; subst y)
    | (extract_lets +onlyGivenNames y; guard_hyp y : Sec := _; subst y)
    | (extract_lets +onlyGivenNames y; clear_value y)
    | extract_lets +onlyGivenNames y
    | with_reducible apply OnlyChanges.ite
    | split
    | (with_reducible apply OnlyChanges.upd8192; (on_goal 1 => decide))

theorem drainWrites_frame  {x : State} : OnlyChanges [.dram] x (drainWrites x) := by
  unfold drainWrites
  repeat' first
    | with_reducible assumption
    | with_reducible apply OnlyChanges.refl
    | with_reducible apply OnlyChanges.ite
    | (with_reducible apply OnlyChanges.step drainWrite_frame; (on_goal 1 => decide))
    | (with_reducible apply OnlyChanges.foldl; (on_goal 2 => intro z a))
    | (with_reducible apply OnlyChangesP.foldl; (on_goal 2 => intro z a))
    | split

theorem countActivate_frame {a0} {x : State} : OnlyChanges [.pmc, .freeCtr, .outs] x (countActivate a0 x) := by
  unfold countActivate
  repeat' first
    | with_reducible assumption
    | with_reducible apply OnlyChanges.refl
    | with_reducible apply OnlyChanges.ite
    | (with_reducible apply OnlyChanges.step count_frame; (on_goal 1 => decide))
    | split

theorem wakeRank_frame {a0} {x : State} : OnlyChanges [.pmc, .dram, .freeCtr, .outs] x (wakeRank a0 x) := by
  unfold wakeRank
  repeat' first
    | with_reducible assumption
    | with_reducible apply OnlyChanges.refl
    | (extract_lets +onlyGivenNames y; guard_hyp y : State := Prod.snd _; subst y)
    | (extract_lets +onlyGivenNames y; guard_hyp y : State := _; apply OnlyChanges.cut y; (on_goal 1 => (unfold y; clear y)); (on_goal 2 => (intro hx; clear_value y)))
    | (extract_lets +onlyGivenNames y; guard_hyp y : _ × State := _; apply OnlyChanges.cutP y; (on_goal 1 => (unfold y; clear y)); (on_goal 2 => (intro hx; clear_value y)))
    | (extract_lets +onlyGivenNames y; guard_hyp y : _ × _ × State := _; apply OnlyChanges.cutPP y; (on_goal 1 => (unfold y; clear y)); (on_goal 2 => (intro hx; clear_value y)))
    | (extract_lets +onlyGivenNames y; guard_hyp y : Boxes := _; subst y)
    | (extract_lets +onlyGivenNames y; guard_hyp y : Power := _; subst y)
    | (extract_lets +onlyGivenNames y; guard_hyp y : Trans := _; subst y)
    | (extract_lets +onlyGivenNames y; guard_hyp y : Prot := _; subst y)
    | (extract_lets +onlyGivenNames y; guard_hyp y : Persist := _; subst y)
    | (extract_lets +onlyGivenNames y; guard_hyp y : Sgl := _; subst y)
    | (extract_lets +onlyGivenNames y; guard_hyp y : Sec := _; subst y)
    | (extract_lets +onlyGivenNames y; clear_value y)
    | extract_lets +onlyGivenNames y
    | with_reducible apply OnlyChanges.ite
    | (with_reducible apply OnlyChanges.step countActivate_frame; (on_goal 1 => decide))
    | (with_reducible apply OnlyChanges.step putChan_frame; (on_goal 1 => decide))
    | split

end Sys2Proof.Machine
end

