-- ==== Sys2Proof/Laws/FrameMaps.lean ====
section
/-! SUPPORT. The parts of the state that each operation of Machine/Maps.lean may change; every other part it leaves
alone. -/

set_option linter.all false

namespace Sys2Proof.Machine

theorem growLog_frame {a0} {x : State} : OnlyChanges [.per, .ck] x (growLog a0 x) := by
  unfold growLog
  repeat' first
    | with_reducible assumption
    | with_reducible apply OnlyChanges.refl
    | (extract_lets +onlyGivenNames y; guard_hyp y : State := Prod.snd _; subst y)
    | (extract_lets +onlyGivenNames y; guard_hyp y : State := _; apply OnlyChanges.cut y; (on_goal 1 => (unfold y; clear y)); (on_goal 2 => (intro hx; clear_value y)))
    | (extract_lets +onlyGivenNames y; guard_hyp y : _ × State := _; apply OnlyChanges.cutP y; (on_goal 1 => (unfold y; clear y)); (on_goal 2 => (intro hx; clear_value y)))
    | (extract_lets +onlyGivenNames y; guard_hyp y : _ × _ × State := _; apply OnlyChanges.cutPP y; (on_goal 1 => (unfold y; clear y)); (on_goal 2 => (intro hx; clear_value y)))
    | (extract_lets +onlyGivenNames y; guard_hyp y : Boxes := _; subst y)
    | (extract_lets +onlyGivenNames y; guard_hyp y : Power := _; subst y)
    | (extract_lets +onlyGivenNames y; guard_hyp y : Trans := _; subst y)
    | (extract_lets +onlyGivenNames y; guard_hyp y : Prot := _; subst y)
    | (extract_lets +onlyGivenNames y; guard_hyp y : Persist := _; subst y)
    | (extract_lets +onlyGivenNames y; guard_hyp y : Sgl := _; subst y)
    | (extract_lets +onlyGivenNames y; guard_hyp y : Sec := _; subst y)
    | (extract_lets +onlyGivenNames y; clear_value y)
    | extract_lets +onlyGivenNames y
    | with_reducible apply OnlyChanges.ite
    | split
    | (with_reducible apply OnlyChanges.upd3072; (on_goal 1 => decide); (on_goal 1 => (first | exact Or.inr (by with_reducible rfl) | exact Or.inl (by decide) | exact Or.inr rfl)))

theorem logOnly_frame {a0} {a1} {x : State} : OnlyChanges [.tr, .per, .ck] x (logOnly a0 a1 x) := by
  unfold logOnly
  repeat' first
    | with_reducible assumption
    | with_reducible apply OnlyChanges.refl
    | (extract_lets +onlyGivenNames y; guard_hyp y : State := Prod.snd _; subst y)
    | (extract_lets +onlyGivenNames y; guard_hyp y : State := _; apply OnlyChanges.cut y; (on_goal 1 => (unfold y; clear y)); (on_goal 2 => (intro hx; clear_value y)))
    | (extract_lets +onlyGivenNames y; guard_hyp y : _ × State := _; apply OnlyChanges.cutP y; (on_goal 1 => (unfold y; clear y)); (on_goal 2 => (intro hx; clear_value y)))
    | (extract_lets +onlyGivenNames y; guard_hyp y : _ × _ × State := _; apply OnlyChanges.cutPP y; (on_goal 1 => (unfold y; clear y)); (on_goal 2 => (intro hx; clear_value y)))
    | (extract_lets +onlyGivenNames y; guard_hyp y : Boxes := _; subst y)
    | (extract_lets +onlyGivenNames y; guard_hyp y : Power := _; subst y)
    | (extract_lets +onlyGivenNames y; guard_hyp y : Trans := _; subst y)
    | (extract_lets +onlyGivenNames y; guard_hyp y : Prot := _; subst y)
    | (extract_lets +onlyGivenNames y; guard_hyp y : Persist := _; subst y)
    | (extract_lets +onlyGivenNames y; guard_hyp y : Sgl := _; subst y)
    | (extract_lets +onlyGivenNames y; guard_hyp y : Sec := _; subst y)
    | (extract_lets +onlyGivenNames y; clear_value y)
    | extract_lets +onlyGivenNames y
    | with_reducible apply OnlyChanges.ite
    | (with_reducible apply OnlyChanges.step growLog_frame; (on_goal 1 => decide))
    | split
    | (with_reducible apply OnlyChanges.upd128; (on_goal 1 => decide); (on_goal 1 => (first | exact Or.inr (by with_reducible rfl) | exact Or.inl (by decide) | exact Or.inr rfl)))

theorem closeDoves_frame {a0} {x : State} : OnlyChanges [.cache] x (closeDoves a0 x) := by
  unfold closeDoves
  repeat' first
    | with_reducible assumption
    | with_reducible apply OnlyChanges.refl
    | (extract_lets +onlyGivenNames y; guard_hyp y : State := Prod.snd _; subst y)
    | (extract_lets +onlyGivenNames y; guard_hyp y : State := _; apply OnlyChanges.cut y; (on_goal 1 => (unfold y; clear y)); (on_goal 2 => (intro hx; clear_value y)))
    | (extract_lets +onlyGivenNames y; guard_hyp y : _ × State := _; apply OnlyChanges.cutP y; (on_goal 1 => (unfold y; clear y)); (on_goal 2 => (intro hx; clear_value y)))
    | (extract_lets +onlyGivenNames y; guard_hyp y : _ × _ × State := _; apply OnlyChanges.cutPP y; (on_goal 1 => (unfold y; clear y)); (on_goal 2 => (intro hx; clear_value y)))
    | (extract_lets +onlyGivenNames y; guard_hyp y : Boxes := _; subst y)
    | (extract_lets +onlyGivenNames y; guard_hyp y : Power := _; subst y)
    | (extract_lets +onlyGivenNames y; guard_hyp y : Trans := _; subst y)
    | (extract_lets +onlyGivenNames y; guard_hyp y : Prot := _; subst y)
    | (extract_lets +onlyGivenNames y; guard_hyp y : Persist := _; subst y)
    | (extract_lets +onlyGivenNames y; guard_hyp y : Sgl := _; subst y)
    | (extract_lets +onlyGivenNames y; guard_hyp y : Sec := _; subst y)
    | (extract_lets +onlyGivenNames y; clear_value y)
    | extract_lets +onlyGivenNames y
    | with_reducible apply OnlyChanges.ite
    | split
    | (with_reducible apply OnlyChanges.upd4096; (on_goal 1 => decide))

theorem closeNow_frame  {x : State} : OnlyChanges [.tr, .per, .ck, .cache] x (closeNow x) := by
  unfold closeNow
  repeat' first
    | with_reducible assumption
    | with_reducible apply OnlyChanges.refl
    | (extract_lets +onlyGivenNames y; guard_hyp y : State := Prod.snd _; subst y)
    | (extract_lets +onlyGivenNames y; guard_hyp y : State := _; apply OnlyChanges.cut y; (on_goal 1 => (unfold y; clear y)); (on_goal 2 => (intro hx; clear_value y)))
    | (extract_lets +onlyGivenNames y; guard_hyp y : _ × State := _; apply OnlyChanges.cutP y; (on_goal 1 => (unfold y; clear y)); (on_goal 2 => (intro hx; clear_value y)))
    | (extract_lets +onlyGivenNames y; guard_hyp y : _ × _ × State := _; apply OnlyChanges.cutPP y; (on_goal 1 => (unfold y; clear y)); (on_goal 2 => (intro hx; clear_value y)))
    | (extract_lets +onlyGivenNames y; guard_hyp y : Boxes := _; subst y)
    | (extract_lets +onlyGivenNames y; guard_hyp y : Power := _; subst y)
    | (extract_lets +onlyGivenNames y; guard_hyp y : Trans := _; subst y)
    | (extract_lets +onlyGivenNames y; guard_hyp y : Prot := _; subst y)
    | (extract_lets +onlyGivenNames y; guard_hyp y : Persist := _; subst y)
    | (extract_lets +onlyGivenNames y; guard_hyp y : Sgl := _; subst y)
    | (extract_lets +onlyGivenNames y; guard_hyp y : Sec := _; subst y)
    | (extract_lets +onlyGivenNames y; clear_value y)
    | extract_lets +onlyGivenNames y
    | with_reducible apply OnlyChanges.ite
    | (with_reducible apply OnlyChanges.step logOnly_frame; (on_goal 1 => decide))
    | (with_reducible apply OnlyChanges.step closeDoves_frame; (on_goal 1 => decide))
    | split
    | (with_reducible apply OnlyChanges.upd3072; (on_goal 1 => decide); (on_goal 1 => (first | exact Or.inr (by with_reducible rfl) | exact Or.inl (by decide) | exact Or.inr rfl)))

theorem closeEpoch_frame  {x : State} : OnlyChanges [.tr, .per, .ck, .cache] x (closeEpoch x) := by
  unfold closeEpoch
  repeat' first
    | with_reducible assumption
    | with_reducible apply OnlyChanges.refl
    | (extract_lets +onlyGivenNames y; guard_hyp y : State := Prod.snd _; subst y)
    | (extract_lets +onlyGivenNames y; guard_hyp y : State := _; apply OnlyChanges.cut y; (on_goal 1 => (unfold y; clear y)); (on_goal 2 => (intro hx; clear_value y)))
    | (extract_lets +onlyGivenNames y; guard_hyp y : _ × State := _; apply OnlyChanges.cutP y; (on_goal 1 => (unfold y; clear y)); (on_goal 2 => (intro hx; clear_value y)))
    | (extract_lets +onlyGivenNames y; guard_hyp y : _ × _ × State := _; apply OnlyChanges.cutPP y; (on_goal 1 => (unfold y; clear y)); (on_goal 2 => (intro hx; clear_value y)))
    | (extract_lets +onlyGivenNames y; guard_hyp y : Boxes := _; subst y)
    | (extract_lets +onlyGivenNames y; guard_hyp y : Power := _; subst y)
    | (extract_lets +onlyGivenNames y; guard_hyp y : Trans := _; subst y)
    | (extract_lets +onlyGivenNames y; guard_hyp y : Prot := _; subst y)
    | (extract_lets +onlyGivenNames y; guard_hyp y : Persist := _; subst y)
    | (extract_lets +onlyGivenNames y; guard_hyp y : Sgl := _; subst y)
    | (extract_lets +onlyGivenNames y; guard_hyp y : Sec := _; subst y)
    | (extract_lets +onlyGivenNames y; clear_value y)
    | extract_lets +onlyGivenNames y
    | with_reducible apply OnlyChanges.ite
    | (with_reducible apply OnlyChanges.step closeNow_frame; (on_goal 1 => decide))
    | split
    | (with_reducible apply OnlyChanges.upd1024; (on_goal 1 => decide); (on_goal 1 => (first | exact Or.inr (by with_reducible rfl) | exact Or.inl (by decide) | exact Or.inr rfl)))

theorem closeIfHalf_frame  {x : State} : OnlyChanges [.tr, .per, .ck, .cache] x (closeIfHalf x) := by
  unfold closeIfHalf
  repeat' first
    | with_reducible assumption
    | with_reducible apply OnlyChanges.refl
    | with_reducible apply OnlyChanges.ite
    | (with_reducible apply OnlyChanges.step closeEpoch_frame; (on_goal 1 => decide))
    | split

theorem acceptLine_frame {a0} {x : State} : OnlyChanges [.tr, .per, .ck, .cache, .dram] x (acceptLine a0 x) := by
  unfold acceptLine
  repeat' first
    | with_reducible assumption
    | with_reducible apply OnlyChanges.refl
    | (extract_lets +onlyGivenNames y; guard_hyp y : State := Prod.snd _; subst y)
    | (extract_lets +onlyGivenNames y; guard_hyp y : State := _; apply OnlyChanges.cut y; (on_goal 1 => (unfold y; clear y)); (on_goal 2 => (intro hx; clear_value y)))
    | (extract_lets +onlyGivenNames y; guard_hyp y : _ × State := _; apply OnlyChanges.cutP y; (on_goal 1 => (unfold y; clear y)); (on_goal 2 => (intro hx; clear_value y)))
    | (extract_lets +onlyGivenNames y; guard_hyp y : _ × _ × State := _; apply OnlyChanges.cutPP y; (on_goal 1 => (unfold y; clear y)); (on_goal 2 => (intro hx; clear_value y)))
    | (extract_lets +onlyGivenNames y; guard_hyp y : Boxes := _; subst y)
    | (extract_lets +onlyGivenNames y; guard_hyp y : Power := _; subst y)
    | (extract_lets +onlyGivenNames y; guard_hyp y : Trans := _; subst y)
    | (extract_lets +onlyGivenNames y; guard_hyp y : Prot := _; subst y)
    | (extract_lets +onlyGivenNames y; guard_hyp y : Persist := _; subst y)
    | (extract_lets +onlyGivenNames y; guard_hyp y : Sgl := _; subst y)
    | (extract_lets +onlyGivenNames y; guard_hyp y : Sec := _; subst y)
    | (extract_lets +onlyGivenNames y; clear_value y)
    | extract_lets +onlyGivenNames y
    | with_reducible apply OnlyChanges.ite
    | (with_reducible apply OnlyChanges.step dramWrites_frame; (on_goal 1 => decide))
    | (with_reducible apply OnlyChanges.step closeIfHalf_frame; (on_goal 1 => decide))
    | split
    | (with_reducible apply OnlyChanges.upd1152; (on_goal 1 => decide); (on_goal 1 => (first | exact Or.inr (by with_reducible rfl) | exact Or.inl (by decide) | exact Or.inr rfl)); (on_goal 1 => (first | exact Or.inr (by with_reducible rfl) | exact Or.inl (by decide) | exact Or.inr rfl)))

theorem mapChange_frame {a0} {a1} {x : State} : OnlyChanges [.tr, .per, .ck] x (mapChange a0 a1 x) := by
  unfold mapChange
  repeat' first
    | with_reducible assumption
    | with_reducible apply OnlyChanges.refl
    | (extract_lets +onlyGivenNames y; guard_hyp y : State := Prod.snd _; subst y)
    | (extract_lets +onlyGivenNames y; guard_hyp y : State := _; apply OnlyChanges.cut y; (on_goal 1 => (unfold y; clear y)); (on_goal 2 => (intro hx; clear_value y)))
    | (extract_lets +onlyGivenNames y; guard_hyp y : _ × State := _; apply OnlyChanges.cutP y; (on_goal 1 => (unfold y; clear y)); (on_goal 2 => (intro hx; clear_value y)))
    | (extract_lets +onlyGivenNames y; guard_hyp y : _ × _ × State := _; apply OnlyChanges.cutPP y; (on_goal 1 => (unfold y; clear y)); (on_goal 2 => (intro hx; clear_value y)))
    | (extract_lets +onlyGivenNames y; guard_hyp y : Boxes := _; subst y)
    | (extract_lets +onlyGivenNames y; guard_hyp y : Power := _; subst y)
    | (extract_lets +onlyGivenNames y; guard_hyp y : Trans := _; subst y)
    | (extract_lets +onlyGivenNames y; guard_hyp y : Prot := _; subst y)
    | (extract_lets +onlyGivenNames y; guard_hyp y : Persist := _; subst y)
    | (extract_lets +onlyGivenNames y; guard_hyp y : Sgl := _; subst y)
    | (extract_lets +onlyGivenNames y; guard_hyp y : Sec := _; subst y)
    | (extract_lets +onlyGivenNames y; clear_value y)
    | extract_lets +onlyGivenNames y
    | with_reducible apply OnlyChanges.ite
    | (with_reducible apply OnlyChanges.step growLog_frame; (on_goal 1 => decide))
    | split
    | (with_reducible apply OnlyChanges.upd1152; (on_goal 1 => decide); (on_goal 1 => (first | exact Or.inr (by with_reducible rfl) | exact Or.inl (by decide) | exact Or.inr rfl)); (on_goal 1 => (first | exact Or.inr (by with_reducible rfl) | exact Or.inl (by decide) | exact Or.inr rfl)))

theorem mapOpen_frame {a0} {x : State} : OnlyChanges [.tr, .per, .ck] x (mapOpen a0 x) := by
  unfold mapOpen
  repeat' first
    | with_reducible assumption
    | with_reducible apply OnlyChanges.refl
    | with_reducible apply OnlyChanges.ite
    | (with_reducible apply OnlyChanges.step mapChange_frame; (on_goal 1 => decide))
    | split

theorem putCourse_frame {a0} {a1} {x : State} : OnlyChanges [.tr, .per, .ck] x (putCourse a0 a1 x) := by
  unfold putCourse
  repeat' first
    | with_reducible assumption
    | with_reducible apply OnlyChanges.refl
    | with_reducible apply OnlyChanges.ite
    | (with_reducible apply OnlyChanges.step mapOpen_frame; (on_goal 1 => decide))
    | split

theorem updateAccept_frame  {x : State} : OnlyChanges [.tr, .per, .ck, .cache] x (updateAccept x) := by
  unfold updateAccept
  repeat' first
    | with_reducible assumption
    | with_reducible apply OnlyChanges.refl
    | (extract_lets +onlyGivenNames y; guard_hyp y : State := Prod.snd _; subst y)
    | (extract_lets +onlyGivenNames y; guard_hyp y : State := _; apply OnlyChanges.cut y; (on_goal 1 => (unfold y; clear y)); (on_goal 2 => (intro hx; clear_value y)))
    | (extract_lets +onlyGivenNames y; guard_hyp y : _ × State := _; apply OnlyChanges.cutP y; (on_goal 1 => (unfold y; clear y)); (on_goal 2 => (intro hx; clear_value y)))
    | (extract_lets +onlyGivenNames y; guard_hyp y : _ × _ × State := _; apply OnlyChanges.cutPP y; (on_goal 1 => (unfold y; clear y)); (on_goal 2 => (intro hx; clear_value y)))
    | (extract_lets +onlyGivenNames y; guard_hyp y : Boxes := _; subst y)
    | (extract_lets +onlyGivenNames y; guard_hyp y : Power := _; subst y)
    | (extract_lets +onlyGivenNames y; guard_hyp y : Trans := _; subst y)
    | (extract_lets +onlyGivenNames y; guard_hyp y : Prot := _; subst y)
    | (extract_lets +onlyGivenNames y; guard_hyp y : Persist := _; subst y)
    | (extract_lets +onlyGivenNames y; guard_hyp y : Sgl := _; subst y)
    | (extract_lets +onlyGivenNames y; guard_hyp y : Sec := _; subst y)
    | (extract_lets +onlyGivenNames y; clear_value y)
    | extract_lets +onlyGivenNames y
    | with_reducible apply OnlyChanges.ite
    | (with_reducible apply OnlyChanges.step closeEpoch_frame; (on_goal 1 => decide))
    | split
    | (with_reducible apply OnlyChanges.upd1024; (on_goal 1 => decide); (on_goal 1 => (first | exact Or.inr (by with_reducible rfl) | exact Or.inl (by decide) | exact Or.inr rfl)))

theorem poisonEntry_frame {a0} {a1} {x : State} : OnlyChanges [.evr, .tr, .per, .ck, .cxlA, .cxlB, .outs] x (poisonEntry a0 a1 x) := by
  unfold poisonEntry
  repeat' first
    | with_reducible assumption
    | with_reducible apply OnlyChanges.refl
    | (extract_lets +onlyGivenNames y; guard_hyp y : State := Prod.snd _; subst y)
    | (extract_lets +onlyGivenNames y; guard_hyp y : State := _; apply OnlyChanges.cut y; (on_goal 1 => (unfold y; clear y)); (on_goal 2 => (intro hx; clear_value y)))
    | (extract_lets +onlyGivenNames y; guard_hyp y : _ × State := _; apply OnlyChanges.cutP y; (on_goal 1 => (unfold y; clear y)); (on_goal 2 => (intro hx; clear_value y)))
    | (extract_lets +onlyGivenNames y; guard_hyp y : _ × _ × State := _; apply OnlyChanges.cutPP y; (on_goal 1 => (unfold y; clear y)); (on_goal 2 => (intro hx; clear_value y)))
    | (extract_lets +onlyGivenNames y; guard_hyp y : Boxes := _; subst y)
    | (extract_lets +onlyGivenNames y; guard_hyp y : Power := _; subst y)
    | (extract_lets +onlyGivenNames y; guard_hyp y : Trans := _; subst y)
    | (extract_lets +onlyGivenNames y; guard_hyp y : Prot := _; subst y)
    | (extract_lets +onlyGivenNames y; guard_hyp y : Persist := _; subst y)
    | (extract_lets +onlyGivenNames y; guard_hyp y : Sgl := _; subst y)
    | (extract_lets +onlyGivenNames y; guard_hyp y : Sec := _; subst y)
    | (extract_lets +onlyGivenNames y; clear_value y)
    | extract_lets +onlyGivenNames y
    | with_reducible apply OnlyChanges.ite
    | (with_reducible apply OnlyChanges.step mapChange_frame; (on_goal 1 => decide))
    | (with_reducible apply OnlyChanges.step event_frame; (on_goal 1 => decide))
    | split

theorem countUe_frame {a0} {x : State} : OnlyChanges [.prot] x (countUe a0 x) := by
  unfold countUe
  repeat' first
    | with_reducible assumption
    | with_reducible apply OnlyChanges.refl
    | (extract_lets +onlyGivenNames y; guard_hyp y : State := Prod.snd _; subst y)
    | (extract_lets +onlyGivenNames y; guard_hyp y : State := _; apply OnlyChanges.cut y; (on_goal 1 => (unfold y; clear y)); (on_goal 2 => (intro hx; clear_value y)))
    | (extract_lets +onlyGivenNames y; guard_hyp y : _ × State := _; apply OnlyChanges.cutP y; (on_goal 1 => (unfold y; clear y)); (on_goal 2 => (intro hx; clear_value y)))
    | (extract_lets +onlyGivenNames y; guard_hyp y : _ × _ × State := _; apply OnlyChanges.cutPP y; (on_goal 1 => (unfold y; clear y)); (on_goal 2 => (intro hx; clear_value y)))
    | (extract_lets +onlyGivenNames y; guard_hyp y : Boxes := _; subst y)
    | (extract_lets +onlyGivenNames y; guard_hyp y : Power := _; subst y)
    | (extract_lets +onlyGivenNames y; guard_hyp y : Trans := _; subst y)
    | (extract_lets +onlyGivenNames y; guard_hyp y : Prot := _; subst y)
    | (extract_lets +onlyGivenNames y; guard_hyp y : Persist := _; subst y)
    | (extract_lets +onlyGivenNames y; guard_hyp y : Sgl := _; subst y)
    | (extract_lets +onlyGivenNames y; guard_hyp y : Sec := _; subst y)
    | (extract_lets +onlyGivenNames y; clear_value y)
    | extract_lets +onlyGivenNames y
    | with_reducible apply OnlyChanges.ite
    | split
    | (with_reducible apply OnlyChanges.upd512; (on_goal 1 => decide); (on_goal 1 => (first | exact Or.inr (by with_reducible rfl) | exact Or.inl (by decide) | exact Or.inr rfl)))

theorem poisonLine_frame {a0} {x : State} : OnlyChanges [.evr, .tr, .prot, .per, .ck, .cxlA, .cxlB, .outs] x (poisonLine a0 x) := by
  unfold poisonLine
  repeat' first
    | with_reducible assumption
    | with_reducible apply OnlyChanges.refl
    | with_reducible apply OnlyChanges.ite
    | (with_reducible apply OnlyChanges.step poisonEntry_frame; (on_goal 1 => decide))
    | (with_reducible apply OnlyChanges.step countUe_frame; (on_goal 1 => decide))
    | (with_reducible apply OnlyChanges.step event_frame; (on_goal 1 => decide))
    | split

theorem putDense_frame {a0} {a1} {x : State} : OnlyChanges [.tr, .per, .ck] x (putDense a0 a1 x) := by
  unfold putDense
  repeat' first
    | with_reducible assumption
    | with_reducible apply OnlyChanges.refl
    | with_reducible apply OnlyChanges.ite
    | (with_reducible apply OnlyChanges.step mapOpen_frame; (on_goal 1 => decide))
    | split

theorem dropCopies_frame {a0} {x : State} : OnlyChanges [.cache, .dram] x (dropCopies a0 x) := by
  unfold dropCopies
  repeat' first
    | with_reducible assumption
    | with_reducible apply OnlyChanges.refl
    | (extract_lets +onlyGivenNames y; guard_hyp y : State := Prod.snd _; subst y)
    | (extract_lets +onlyGivenNames y; guard_hyp y : State := _; apply OnlyChanges.cut y; (on_goal 1 => (unfold y; clear y)); (on_goal 2 => (intro hx; clear_value y)))
    | (extract_lets +onlyGivenNames y; guard_hyp y : _ × State := _; apply OnlyChanges.cutP y; (on_goal 1 => (unfold y; clear y)); (on_goal 2 => (intro hx; clear_value y)))
    | (extract_lets +onlyGivenNames y; guard_hyp y : _ × _ × State := _; apply OnlyChanges.cutPP y; (on_goal 1 => (unfold y; clear y)); (on_goal 2 => (intro hx; clear_value y)))
    | (extract_lets +onlyGivenNames y; guard_hyp y : Boxes := _; subst y)
    | (extract_lets +onlyGivenNames y; guard_hyp y : Power := _; subst y)
    | (extract_lets +onlyGivenNames y; guard_hyp y : Trans := _; subst y)
    | (extract_lets +onlyGivenNames y; guard_hyp y : Prot := _; subst y)
    | (extract_lets +onlyGivenNames y; guard_hyp y : Persist := _; subst y)
    | (extract_lets +onlyGivenNames y; guard_hyp y : Sgl := _; subst y)
    | (extract_lets +onlyGivenNames y; guard_hyp y : Sec := _; subst y)
    | (extract_lets +onlyGivenNames y; clear_value y)
    | extract_lets +onlyGivenNames y
    | with_reducible apply OnlyChanges.ite
    | split
    | (with_reducible apply OnlyChanges.upd12288; (on_goal 1 => decide))

theorem dropSlot_frame {a0} {a1} {x : State} : OnlyChanges [.tr] x (dropSlot a0 a1 x) := by
  unfold dropSlot
  repeat' first
    | with_reducible assumption
    | with_reducible apply OnlyChanges.refl
    | (extract_lets +onlyGivenNames y; guard_hyp y : State := Prod.snd _; subst y)
    | (extract_lets +onlyGivenNames y; guard_hyp y : State := _; apply OnlyChanges.cut y; (on_goal 1 => (unfold y; clear y)); (on_goal 2 => (intro hx; clear_value y)))
    | (extract_lets +onlyGivenNames y; guard_hyp y : _ × State := _; apply OnlyChanges.cutP y; (on_goal 1 => (unfold y; clear y)); (on_goal 2 => (intro hx; clear_value y)))
    | (extract_lets +onlyGivenNames y; guard_hyp y : _ × _ × State := _; apply OnlyChanges.cutPP y; (on_goal 1 => (unfold y; clear y)); (on_goal 2 => (intro hx; clear_value y)))
    | (extract_lets +onlyGivenNames y; guard_hyp y : Boxes := _; subst y)
    | (extract_lets +onlyGivenNames y; guard_hyp y : Power := _; subst y)
    | (extract_lets +onlyGivenNames y; guard_hyp y : Trans := _; subst y)
    | (extract_lets +onlyGivenNames y; guard_hyp y : Prot := _; subst y)
    | (extract_lets +onlyGivenNames y; guard_hyp y : Persist := _; subst y)
    | (extract_lets +onlyGivenNames y; guard_hyp y : Sgl := _; subst y)
    | (extract_lets +onlyGivenNames y; guard_hyp y : Sec := _; subst y)
    | (extract_lets +onlyGivenNames y; clear_value y)
    | extract_lets +onlyGivenNames y
    | with_reducible apply OnlyChanges.ite
    | split
    | (with_reducible apply OnlyChanges.upd128; (on_goal 1 => decide); (on_goal 1 => (first | exact Or.inr (by with_reducible rfl) | exact Or.inl (by decide) | exact Or.inr rfl)))

theorem closeRequest_frame {a0} {x : State} : OnlyChanges [.tr, .per, .ck, .cache] x (closeRequest a0 x) := by
  unfold closeRequest
  repeat' first
    | with_reducible assumption
    | with_reducible apply OnlyChanges.refl
    | (extract_lets +onlyGivenNames y; guard_hyp y : State := Prod.snd _; subst y)
    | (extract_lets +onlyGivenNames y; guard_hyp y : State := _; apply OnlyChanges.cut y; (on_goal 1 => (unfold y; clear y)); (on_goal 2 => (intro hx; clear_value y)))
    | (extract_lets +onlyGivenNames y; guard_hyp y : _ × State := _; apply OnlyChanges.cutP y; (on_goal 1 => (unfold y; clear y)); (on_goal 2 => (intro hx; clear_value y)))
    | (extract_lets +onlyGivenNames y; guard_hyp y : _ × _ × State := _; apply OnlyChanges.cutPP y; (on_goal 1 => (unfold y; clear y)); (on_goal 2 => (intro hx; clear_value y)))
    | (extract_lets +onlyGivenNames y; guard_hyp y : Boxes := _; subst y)
    | (extract_lets +onlyGivenNames y; guard_hyp y : Power := _; subst y)
    | (extract_lets +onlyGivenNames y; guard_hyp y : Trans := _; subst y)
    | (extract_lets +onlyGivenNames y; guard_hyp y : Prot := _; subst y)
    | (extract_lets +onlyGivenNames y; guard_hyp y : Persist := _; subst y)
    | (extract_lets +onlyGivenNames y; guard_hyp y : Sgl := _; subst y)
    | (extract_lets +onlyGivenNames y; guard_hyp y : Sec := _; subst y)
    | (extract_lets +onlyGivenNames y; clear_value y)
    | extract_lets +onlyGivenNames y
    | with_reducible apply OnlyChanges.ite
    | (with_reducible apply OnlyChanges.step closeEpoch_frame; (on_goal 1 => decide))
    | split
    | (with_reducible apply OnlyChanges.upd1024; (on_goal 1 => decide); (on_goal 1 => (first | exact Or.inr (by with_reducible rfl) | exact Or.inl (by decide) | exact Or.inr rfl)))

theorem imageCommit_frame {a0} {x : State} : OnlyChanges [.tr] x (imageCommit a0 x) := by
  unfold imageCommit
  repeat' first
    | with_reducible assumption
    | with_reducible apply OnlyChanges.refl
    | (extract_lets +onlyGivenNames y; guard_hyp y : State := Prod.snd _; subst y)
    | (extract_lets +onlyGivenNames y; guard_hyp y : State := _; apply OnlyChanges.cut y; (on_goal 1 => (unfold y; clear y)); (on_goal 2 => (intro hx; clear_value y)))
    | (extract_lets +onlyGivenNames y; guard_hyp y : _ × State := _; apply OnlyChanges.cutP y; (on_goal 1 => (unfold y; clear y)); (on_goal 2 => (intro hx; clear_value y)))
    | (extract_lets +onlyGivenNames y; guard_hyp y : _ × _ × State := _; apply OnlyChanges.cutPP y; (on_goal 1 => (unfold y; clear y)); (on_goal 2 => (intro hx; clear_value y)))
    | (extract_lets +onlyGivenNames y; guard_hyp y : Boxes := _; subst y)
    | (extract_lets +onlyGivenNames y; guard_hyp y : Power := _; subst y)
    | (extract_lets +onlyGivenNames y; guard_hyp y : Trans := _; subst y)
    | (extract_lets +onlyGivenNames y; guard_hyp y : Prot := _; subst y)
    | (extract_lets +onlyGivenNames y; guard_hyp y : Persist := _; subst y)
    | (extract_lets +onlyGivenNames y; guard_hyp y : Sgl := _; subst y)
    | (extract_lets +onlyGivenNames y; guard_hyp y : Sec := _; subst y)
    | (extract_lets +onlyGivenNames y; clear_value y)
    | extract_lets +onlyGivenNames y
    | with_reducible apply OnlyChanges.ite
    | (with_reducible apply OnlyChanges.foldl; (on_goal 2 => intro z a))
    | (with_reducible apply OnlyChangesP.foldl; (on_goal 2 => intro z a))
    | split
    | (with_reducible apply OnlyChanges.upd128; (on_goal 1 => decide); (on_goal 1 => (first | exact Or.inr (by with_reducible rfl) | exact Or.inl (by decide) | exact Or.inr rfl)))

theorem clearStaged_frame {a0} {x : State} : OnlyChanges [.tr] x (clearStaged a0 x) := by
  unfold clearStaged
  repeat' first
    | with_reducible assumption
    | with_reducible apply OnlyChanges.refl
    | (extract_lets +onlyGivenNames y; guard_hyp y : State := Prod.snd _; subst y)
    | (extract_lets +onlyGivenNames y; guard_hyp y : State := _; apply OnlyChanges.cut y; (on_goal 1 => (unfold y; clear y)); (on_goal 2 => (intro hx; clear_value y)))
    | (extract_lets +onlyGivenNames y; guard_hyp y : _ × State := _; apply OnlyChanges.cutP y; (on_goal 1 => (unfold y; clear y)); (on_goal 2 => (intro hx; clear_value y)))
    | (extract_lets +onlyGivenNames y; guard_hyp y : _ × _ × State := _; apply OnlyChanges.cutPP y; (on_goal 1 => (unfold y; clear y)); (on_goal 2 => (intro hx; clear_value y)))
    | (extract_lets +onlyGivenNames y; guard_hyp y : Boxes := _; subst y)
    | (extract_lets +onlyGivenNames y; guard_hyp y : Power := _; subst y)
    | (extract_lets +onlyGivenNames y; guard_hyp y : Trans := _; subst y)
    | (extract_lets +onlyGivenNames y; guard_hyp y : Prot := _; subst y)
    | (extract_lets +onlyGivenNames y; guard_hyp y : Persist := _; subst y)
    | (extract_lets +onlyGivenNames y; guard_hyp y : Sgl := _; subst y)
    | (extract_lets +onlyGivenNames y; guard_hyp y : Sec := _; subst y)
    | (extract_lets +onlyGivenNames y; clear_value y)
    | extract_lets +onlyGivenNames y
    | with_reducible apply OnlyChanges.ite
    | split
    | (with_reducible apply OnlyChanges.upd128; (on_goal 1 => decide); (on_goal 1 => (first | exact Or.inr (by with_reducible rfl) | exact Or.inl (by decide) | exact Or.inr rfl)))

end Sys2Proof.Machine
end

