-- ==== Sys2Proof/Laws/FrameCache.lean ====
section
/-! SUPPORT. The parts of the state that each operation of Machine/Cache.lean may change; every other part it leaves
alone. -/

set_option linter.all false

namespace Sys2Proof.Machine

theorem dropDram_frame {a0} {a1} {x : State} : OnlyChanges [.dram] x (dropDram a0 a1 x) := by
  unfold dropDram
  repeat' first
    | with_reducible assumption
    | with_reducible apply OnlyChanges.refl
    | (extract_lets +onlyGivenNames y; guard_hyp y : State := Prod.snd _; subst y)
    | (extract_lets +onlyGivenNames y; guard_hyp y : State := _; apply OnlyChanges.cut y; (on_goal 1 => (unfold y; clear y)); (on_goal 2 => (intro hx; clear_value y)))
    | (extract_lets +onlyGivenNames y; guard_hyp y : _ × State := _; apply OnlyChanges.cutP y; (on_goal 1 => (unfold y; clear y)); (on_goal 2 => (intro hx; clear_value y)))
    | (extract_lets +onlyGivenNames y; guard_hyp y : _ × _ × State := _; apply OnlyChanges.cutPP y; (on_goal 1 => (unfold y; clear y)); (on_goal 2 => (intro hx; clear_value y)))
    | (extract_lets +onlyGivenNames y; guard_hyp y : Boxes := _; subst y)
    | (extract_lets +onlyGivenNames y; guard_hyp y : Power := _; subst y)
    | (extract_lets +onlyGivenNames y; guard_hyp y : Trans := _; subst y)
    | (extract_lets +onlyGivenNames y; guard_hyp y : Prot := _; subst y)
    | (extract_lets +onlyGivenNames y; guard_hyp y : Persist := _; subst y)
    | (extract_lets +onlyGivenNames y; guard_hyp y : Sgl := _; subst y)
    | (extract_lets +onlyGivenNames y; guard_hyp y : Sec := _; subst y)
    | (extract_lets +onlyGivenNames y; clear_value y)
    | extract_lets +onlyGivenNames y
    | with_reducible apply OnlyChanges.ite
    | split
    | (with_reducible apply OnlyChanges.upd8192; (on_goal 1 => decide))

theorem delWay_frame {a0} {a1} {a2} {x : State} : OnlyChanges [.cache] x (delWay a0 a1 a2 x) := by
  unfold delWay
  repeat' first
    | with_reducible assumption
    | with_reducible apply OnlyChanges.refl
    | (extract_lets +onlyGivenNames y; guard_hyp y : State := Prod.snd _; subst y)
    | (extract_lets +onlyGivenNames y; guard_hyp y : State := _; apply OnlyChanges.cut y; (on_goal 1 => (unfold y; clear y)); (on_goal 2 => (intro hx; clear_value y)))
    | (extract_lets +onlyGivenNames y; guard_hyp y : _ × State := _; apply OnlyChanges.cutP y; (on_goal 1 => (unfold y; clear y)); (on_goal 2 => (intro hx; clear_value y)))
    | (extract_lets +onlyGivenNames y; guard_hyp y : _ × _ × State := _; apply OnlyChanges.cutPP y; (on_goal 1 => (unfold y; clear y)); (on_goal 2 => (intro hx; clear_value y)))
    | (extract_lets +onlyGivenNames y; guard_hyp y : Boxes := _; subst y)
    | (extract_lets +onlyGivenNames y; guard_hyp y : Power := _; subst y)
    | (extract_lets +onlyGivenNames y; guard_hyp y : Trans := _; subst y)
    | (extract_lets +onlyGivenNames y; guard_hyp y : Prot := _; subst y)
    | (extract_lets +onlyGivenNames y; guard_hyp y : Persist := _; subst y)
    | (extract_lets +onlyGivenNames y; guard_hyp y : Sgl := _; subst y)
    | (extract_lets +onlyGivenNames y; guard_hyp y : Sec := _; subst y)
    | (extract_lets +onlyGivenNames y; clear_value y)
    | extract_lets +onlyGivenNames y
    | with_reducible apply OnlyChanges.ite
    | split
    | (with_reducible apply OnlyChanges.upd4096; (on_goal 1 => decide))

theorem dropSram_frame {a0} {a1} {x : State} : OnlyChanges [.cache] x (dropSram a0 a1 x) := by
  unfold dropSram
  repeat' first
    | with_reducible assumption
    | with_reducible apply OnlyChanges.refl
    | with_reducible apply OnlyChanges.ite
    | (with_reducible apply OnlyChanges.step delWay_frame; (on_goal 1 => decide))
    | split

theorem touch_frame {a0} {a1} {a2} {x : State} : OnlyChanges [.cache] x (touch a0 a1 a2 x) := by
  unfold touch
  repeat' first
    | with_reducible assumption
    | with_reducible apply OnlyChanges.refl
    | (extract_lets +onlyGivenNames y; guard_hyp y : State := Prod.snd _; subst y)
    | (extract_lets +onlyGivenNames y; guard_hyp y : State := _; apply OnlyChanges.cut y; (on_goal 1 => (unfold y; clear y)); (on_goal 2 => (intro hx; clear_value y)))
    | (extract_lets +onlyGivenNames y; guard_hyp y : _ × State := _; apply OnlyChanges.cutP y; (on_goal 1 => (unfold y; clear y)); (on_goal 2 => (intro hx; clear_value y)))
    | (extract_lets +onlyGivenNames y; guard_hyp y : _ × _ × State := _; apply OnlyChanges.cutPP y; (on_goal 1 => (unfold y; clear y)); (on_goal 2 => (intro hx; clear_value y)))
    | (extract_lets +onlyGivenNames y; guard_hyp y : Boxes := _; subst y)
    | (extract_lets +onlyGivenNames y; guard_hyp y : Power := _; subst y)
    | (extract_lets +onlyGivenNames y; guard_hyp y : Trans := _; subst y)
    | (extract_lets +onlyGivenNames y; guard_hyp y : Prot := _; subst y)
    | (extract_lets +onlyGivenNames y; guard_hyp y : Persist := _; subst y)
    | (extract_lets +onlyGivenNames y; guard_hyp y : Sgl := _; subst y)
    | (extract_lets +onlyGivenNames y; guard_hyp y : Sec := _; subst y)
    | (extract_lets +onlyGivenNames y; clear_value y)
    | extract_lets +onlyGivenNames y
    | with_reducible apply OnlyChanges.ite
    | split
    | (with_reducible apply OnlyChanges.upd4096; (on_goal 1 => decide))

theorem putWay_frame {a0} {a1} {a2} {a3} {x : State} : OnlyChanges [.cache] x (putWay a0 a1 a2 a3 x) := by
  unfold putWay
  repeat' first
    | with_reducible assumption
    | with_reducible apply OnlyChanges.refl
    | (extract_lets +onlyGivenNames y; guard_hyp y : State := Prod.snd _; subst y)
    | (extract_lets +onlyGivenNames y; guard_hyp y : State := _; apply OnlyChanges.cut y; (on_goal 1 => (unfold y; clear y)); (on_goal 2 => (intro hx; clear_value y)))
    | (extract_lets +onlyGivenNames y; guard_hyp y : _ × State := _; apply OnlyChanges.cutP y; (on_goal 1 => (unfold y; clear y)); (on_goal 2 => (intro hx; clear_value y)))
    | (extract_lets +onlyGivenNames y; guard_hyp y : _ × _ × State := _; apply OnlyChanges.cutPP y; (on_goal 1 => (unfold y; clear y)); (on_goal 2 => (intro hx; clear_value y)))
    | (extract_lets +onlyGivenNames y; guard_hyp y : Boxes := _; subst y)
    | (extract_lets +onlyGivenNames y; guard_hyp y : Power := _; subst y)
    | (extract_lets +onlyGivenNames y; guard_hyp y : Trans := _; subst y)
    | (extract_lets +onlyGivenNames y; guard_hyp y : Prot := _; subst y)
    | (extract_lets +onlyGivenNames y; guard_hyp y : Persist := _; subst y)
    | (extract_lets +onlyGivenNames y; guard_hyp y : Sgl := _; subst y)
    | (extract_lets +onlyGivenNames y; guard_hyp y : Sec := _; subst y)
    | (extract_lets +onlyGivenNames y; clear_value y)
    | extract_lets +onlyGivenNames y
    | with_reducible apply OnlyChanges.ite
    | split
    | (with_reducible apply OnlyChanges.upd4096; (on_goal 1 => decide))

theorem countWasted_frame {a0} {x : State} : OnlyChanges [.pmc, .freeCtr, .outs] x (countWasted a0 x) := by
  unfold countWasted
  repeat' first
    | with_reducible assumption
    | with_reducible apply OnlyChanges.refl
    | with_reducible apply OnlyChanges.ite
    | (with_reducible apply OnlyChanges.step count_frame; (on_goal 1 => decide))
    | split

theorem dropAt_frame {a0} {x : State} : OnlyChanges [.dram] x (dropAt a0 x) := by
  unfold dropAt
  repeat' first
    | with_reducible assumption
    | with_reducible apply OnlyChanges.refl
    | (extract_lets +onlyGivenNames y; guard_hyp y : State := Prod.snd _; subst y)
    | (extract_lets +onlyGivenNames y; guard_hyp y : State := _; apply OnlyChanges.cut y; (on_goal 1 => (unfold y; clear y)); (on_goal 2 => (intro hx; clear_value y)))
    | (extract_lets +onlyGivenNames y; guard_hyp y : _ × State := _; apply OnlyChanges.cutP y; (on_goal 1 => (unfold y; clear y)); (on_goal 2 => (intro hx; clear_value y)))
    | (extract_lets +onlyGivenNames y; guard_hyp y : _ × _ × State := _; apply OnlyChanges.cutPP y; (on_goal 1 => (unfold y; clear y)); (on_goal 2 => (intro hx; clear_value y)))
    | (extract_lets +onlyGivenNames y; guard_hyp y : Boxes := _; subst y)
    | (extract_lets +onlyGivenNames y; guard_hyp y : Power := _; subst y)
    | (extract_lets +onlyGivenNames y; guard_hyp y : Trans := _; subst y)
    | (extract_lets +onlyGivenNames y; guard_hyp y : Prot := _; subst y)
    | (extract_lets +onlyGivenNames y; guard_hyp y : Persist := _; subst y)
    | (extract_lets +onlyGivenNames y; guard_hyp y : Sgl := _; subst y)
    | (extract_lets +onlyGivenNames y; guard_hyp y : Sec := _; subst y)
    | (extract_lets +onlyGivenNames y; clear_value y)
    | extract_lets +onlyGivenNames y
    | with_reducible apply OnlyChanges.ite
    | split
    | (with_reducible apply OnlyChanges.upd8192; (on_goal 1 => decide))

theorem installDram_frame {a0} {x : State} : OnlyChanges [.pmc, .dram, .freeCtr, .outs] x (installDram a0 x) := by
  unfold installDram
  repeat' first
    | with_reducible assumption
    | with_reducible apply OnlyChanges.refl
    | (extract_lets +onlyGivenNames y; guard_hyp y : State := Prod.snd _; subst y)
    | (extract_lets +onlyGivenNames y; guard_hyp y : State := _; apply OnlyChanges.cut y; (on_goal 1 => (unfold y; clear y)); (on_goal 2 => (intro hx; clear_value y)))
    | (extract_lets +onlyGivenNames y; guard_hyp y : _ × State := _; apply OnlyChanges.cutP y; (on_goal 1 => (unfold y; clear y)); (on_goal 2 => (intro hx; clear_value y)))
    | (extract_lets +onlyGivenNames y; guard_hyp y : _ × _ × State := _; apply OnlyChanges.cutPP y; (on_goal 1 => (unfold y; clear y)); (on_goal 2 => (intro hx; clear_value y)))
    | (extract_lets +onlyGivenNames y; guard_hyp y : Boxes := _; subst y)
    | (extract_lets +onlyGivenNames y; guard_hyp y : Power := _; subst y)
    | (extract_lets +onlyGivenNames y; guard_hyp y : Trans := _; subst y)
    | (extract_lets +onlyGivenNames y; guard_hyp y : Prot := _; subst y)
    | (extract_lets +onlyGivenNames y; guard_hyp y : Persist := _; subst y)
    | (extract_lets +onlyGivenNames y; guard_hyp y : Sgl := _; subst y)
    | (extract_lets +onlyGivenNames y; guard_hyp y : Sec := _; subst y)
    | (extract_lets +onlyGivenNames y; clear_value y)
    | extract_lets +onlyGivenNames y
    | with_reducible apply OnlyChanges.ite
    | (with_reducible apply OnlyChanges.step dramWrites_frame; (on_goal 1 => decide))
    | (with_reducible apply OnlyChanges.step dropAt_frame; (on_goal 1 => decide))
    | (with_reducible apply OnlyChanges.step count_frame; (on_goal 1 => decide))
    | split
    | (with_reducible apply OnlyChanges.upd8192; (on_goal 1 => decide))

theorem evictNow_frame {a0} {a1} {a2} {x : State} : OnlyChanges [.pmc, .cache, .dram, .freeCtr, .outs] x (evictNow a0 a1 a2 x) := by
  unfold evictNow
  repeat' first
    | with_reducible assumption
    | with_reducible apply OnlyChanges.refl
    | (extract_lets +onlyGivenNames y; guard_hyp y : State := Prod.snd _; subst y)
    | (extract_lets +onlyGivenNames y; guard_hyp y : State := _; apply OnlyChanges.cut y; (on_goal 1 => (unfold y; clear y)); (on_goal 2 => (intro hx; clear_value y)))
    | (extract_lets +onlyGivenNames y; guard_hyp y : _ × State := _; apply OnlyChanges.cutP y; (on_goal 1 => (unfold y; clear y)); (on_goal 2 => (intro hx; clear_value y)))
    | (extract_lets +onlyGivenNames y; guard_hyp y : _ × _ × State := _; apply OnlyChanges.cutPP y; (on_goal 1 => (unfold y; clear y)); (on_goal 2 => (intro hx; clear_value y)))
    | (extract_lets +onlyGivenNames y; guard_hyp y : Boxes := _; subst y)
    | (extract_lets +onlyGivenNames y; guard_hyp y : Power := _; subst y)
    | (extract_lets +onlyGivenNames y; guard_hyp y : Trans := _; subst y)
    | (extract_lets +onlyGivenNames y; guard_hyp y : Prot := _; subst y)
    | (extract_lets +onlyGivenNames y; guard_hyp y : Persist := _; subst y)
    | (extract_lets +onlyGivenNames y; guard_hyp y : Sgl := _; subst y)
    | (extract_lets +onlyGivenNames y; guard_hyp y : Sec := _; subst y)
    | (extract_lets +onlyGivenNames y; clear_value y)
    | extract_lets +onlyGivenNames y
    | with_reducible apply OnlyChanges.ite
    | (with_reducible apply OnlyChanges.step countWasted_frame; (on_goal 1 => decide))
    | (with_reducible apply OnlyChanges.step delWay_frame; (on_goal 1 => decide))
    | (with_reducible apply OnlyChanges.step installDram_frame; (on_goal 1 => decide))
    | split

theorem installLine_frame {a0} {a1} {x : State} : OnlyChanges [.pmc, .cache, .dram, .freeCtr, .outs] x (installLine a0 a1 x) := by
  unfold installLine
  repeat' first
    | with_reducible assumption
    | with_reducible apply OnlyChanges.refl
    | (extract_lets +onlyGivenNames y; guard_hyp y : State := Prod.snd _; subst y)
    | (extract_lets +onlyGivenNames y; guard_hyp y : State := _; apply OnlyChanges.cut y; (on_goal 1 => (unfold y; clear y)); (on_goal 2 => (intro hx; clear_value y)))
    | (extract_lets +onlyGivenNames y; guard_hyp y : _ × State := _; apply OnlyChanges.cutP y; (on_goal 1 => (unfold y; clear y)); (on_goal 2 => (intro hx; clear_value y)))
    | (extract_lets +onlyGivenNames y; guard_hyp y : _ × _ × State := _; apply OnlyChanges.cutPP y; (on_goal 1 => (unfold y; clear y)); (on_goal 2 => (intro hx; clear_value y)))
    | (extract_lets +onlyGivenNames y; guard_hyp y : Boxes := _; subst y)
    | (extract_lets +onlyGivenNames y; guard_hyp y : Power := _; subst y)
    | (extract_lets +onlyGivenNames y; guard_hyp y : Trans := _; subst y)
    | (extract_lets +onlyGivenNames y; guard_hyp y : Prot := _; subst y)
    | (extract_lets +onlyGivenNames y; guard_hyp y : Persist := _; subst y)
    | (extract_lets +onlyGivenNames y; guard_hyp y : Sgl := _; subst y)
    | (extract_lets +onlyGivenNames y; guard_hyp y : Sec := _; subst y)
    | (extract_lets +onlyGivenNames y; clear_value y)
    | extract_lets +onlyGivenNames y
    | with_reducible apply OnlyChanges.ite
    | (with_reducible apply OnlyChanges.step touch_frame; (on_goal 1 => decide))
    | (with_reducible apply OnlyChanges.step putWay_frame; (on_goal 1 => decide))
    | (with_reducible apply OnlyChanges.step evictNow_frame; (on_goal 1 => decide))
    | split

theorem beginEvict_frame {a0} {a1} {a2} {x : State} : OnlyChanges [.pmc, .cache, .dram, .freeCtr, .outs] x (beginEvict a0 a1 a2 x) := by
  unfold beginEvict
  repeat' first
    | with_reducible assumption
    | with_reducible apply OnlyChanges.refl
    | with_reducible apply OnlyChanges.ite
    | (with_reducible apply OnlyChanges.step putWay_frame; (on_goal 1 => decide))
    | (with_reducible apply OnlyChanges.step evictNow_frame; (on_goal 1 => decide))
    | split

theorem notePeak_frame {a0} {x : State} : OnlyChanges [.cache] x (notePeak a0 x) := by
  unfold notePeak
  repeat' first
    | with_reducible assumption
    | with_reducible apply OnlyChanges.refl
    | (extract_lets +onlyGivenNames y; guard_hyp y : State := Prod.snd _; subst y)
    | (extract_lets +onlyGivenNames y; guard_hyp y : State := _; apply OnlyChanges.cut y; (on_goal 1 => (unfold y; clear y)); (on_goal 2 => (intro hx; clear_value y)))
    | (extract_lets +onlyGivenNames y; guard_hyp y : _ × State := _; apply OnlyChanges.cutP y; (on_goal 1 => (unfold y; clear y)); (on_goal 2 => (intro hx; clear_value y)))
    | (extract_lets +onlyGivenNames y; guard_hyp y : _ × _ × State := _; apply OnlyChanges.cutPP y; (on_goal 1 => (unfold y; clear y)); (on_goal 2 => (intro hx; clear_value y)))
    | (extract_lets +onlyGivenNames y; guard_hyp y : Boxes := _; subst y)
    | (extract_lets +onlyGivenNames y; guard_hyp y : Power := _; subst y)
    | (extract_lets +onlyGivenNames y; guard_hyp y : Trans := _; subst y)
    | (extract_lets +onlyGivenNames y; guard_hyp y : Prot := _; subst y)
    | (extract_lets +onlyGivenNames y; guard_hyp y : Persist := _; subst y)
    | (extract_lets +onlyGivenNames y; guard_hyp y : Sgl := _; subst y)
    | (extract_lets +onlyGivenNames y; guard_hyp y : Sec := _; subst y)
    | (extract_lets +onlyGivenNames y; clear_value y)
    | extract_lets +onlyGivenNames y
    | with_reducible apply OnlyChanges.ite
    | split
    | (with_reducible apply OnlyChanges.upd4096; (on_goal 1 => decide))

theorem putMshr_frame {a0} {a1} {a2} {x : State} : OnlyChanges [.cache] x (putMshr a0 a1 a2 x) := by
  unfold putMshr
  repeat' first
    | with_reducible assumption
    | with_reducible apply OnlyChanges.refl
    | (extract_lets +onlyGivenNames y; guard_hyp y : State := Prod.snd _; subst y)
    | (extract_lets +onlyGivenNames y; guard_hyp y : State := _; apply OnlyChanges.cut y; (on_goal 1 => (unfold y; clear y)); (on_goal 2 => (intro hx; clear_value y)))
    | (extract_lets +onlyGivenNames y; guard_hyp y : _ × State := _; apply OnlyChanges.cutP y; (on_goal 1 => (unfold y; clear y)); (on_goal 2 => (intro hx; clear_value y)))
    | (extract_lets +onlyGivenNames y; guard_hyp y : _ × _ × State := _; apply OnlyChanges.cutPP y; (on_goal 1 => (unfold y; clear y)); (on_goal 2 => (intro hx; clear_value y)))
    | (extract_lets +onlyGivenNames y; guard_hyp y : Boxes := _; subst y)
    | (extract_lets +onlyGivenNames y; guard_hyp y : Power := _; subst y)
    | (extract_lets +onlyGivenNames y; guard_hyp y : Trans := _; subst y)
    | (extract_lets +onlyGivenNames y; guard_hyp y : Prot := _; subst y)
    | (extract_lets +onlyGivenNames y; guard_hyp y : Persist := _; subst y)
    | (extract_lets +onlyGivenNames y; guard_hyp y : Sgl := _; subst y)
    | (extract_lets +onlyGivenNames y; guard_hyp y : Sec := _; subst y)
    | (extract_lets +onlyGivenNames y; clear_value y)
    | extract_lets +onlyGivenNames y
    | with_reducible apply OnlyChanges.ite
    | (with_reducible apply OnlyChanges.step notePeak_frame; (on_goal 1 => decide))
    | split
    | (with_reducible apply OnlyChanges.upd4096; (on_goal 1 => decide))

theorem modMshr_frame {a0} {a1} {a2} {x : State} : OnlyChanges [.cache] x (modMshr a0 a1 a2 x) := by
  unfold modMshr
  repeat' first
    | with_reducible assumption
    | with_reducible apply OnlyChanges.refl
    | (extract_lets +onlyGivenNames y; guard_hyp y : State := Prod.snd _; subst y)
    | (extract_lets +onlyGivenNames y; guard_hyp y : State := _; apply OnlyChanges.cut y; (on_goal 1 => (unfold y; clear y)); (on_goal 2 => (intro hx; clear_value y)))
    | (extract_lets +onlyGivenNames y; guard_hyp y : _ × State := _; apply OnlyChanges.cutP y; (on_goal 1 => (unfold y; clear y)); (on_goal 2 => (intro hx; clear_value y)))
    | (extract_lets +onlyGivenNames y; guard_hyp y : _ × _ × State := _; apply OnlyChanges.cutPP y; (on_goal 1 => (unfold y; clear y)); (on_goal 2 => (intro hx; clear_value y)))
    | (extract_lets +onlyGivenNames y; guard_hyp y : Boxes := _; subst y)
    | (extract_lets +onlyGivenNames y; guard_hyp y : Power := _; subst y)
    | (extract_lets +onlyGivenNames y; guard_hyp y : Trans := _; subst y)
    | (extract_lets +onlyGivenNames y; guard_hyp y : Prot := _; subst y)
    | (extract_lets +onlyGivenNames y; guard_hyp y : Persist := _; subst y)
    | (extract_lets +onlyGivenNames y; guard_hyp y : Sgl := _; subst y)
    | (extract_lets +onlyGivenNames y; guard_hyp y : Sec := _; subst y)
    | (extract_lets +onlyGivenNames y; clear_value y)
    | extract_lets +onlyGivenNames y
    | with_reducible apply OnlyChanges.ite
    | split
    | (with_reducible apply OnlyChanges.upd4096; (on_goal 1 => decide))

theorem delMshr_frame {a0} {a1} {x : State} : OnlyChanges [.cache] x (delMshr a0 a1 x) := by
  unfold delMshr
  repeat' first
    | with_reducible assumption
    | with_reducible apply OnlyChanges.refl
    | (extract_lets +onlyGivenNames y; guard_hyp y : State := Prod.snd _; subst y)
    | (extract_lets +onlyGivenNames y; guard_hyp y : State := _; apply OnlyChanges.cut y; (on_goal 1 => (unfold y; clear y)); (on_goal 2 => (intro hx; clear_value y)))
    | (extract_lets +onlyGivenNames y; guard_hyp y : _ × State := _; apply OnlyChanges.cutP y; (on_goal 1 => (unfold y; clear y)); (on_goal 2 => (intro hx; clear_value y)))
    | (extract_lets +onlyGivenNames y; guard_hyp y : _ × _ × State := _; apply OnlyChanges.cutPP y; (on_goal 1 => (unfold y; clear y)); (on_goal 2 => (intro hx; clear_value y)))
    | (extract_lets +onlyGivenNames y; guard_hyp y : Boxes := _; subst y)
    | (extract_lets +onlyGivenNames y; guard_hyp y : Power := _; subst y)
    | (extract_lets +onlyGivenNames y; guard_hyp y : Trans := _; subst y)
    | (extract_lets +onlyGivenNames y; guard_hyp y : Prot := _; subst y)
    | (extract_lets +onlyGivenNames y; guard_hyp y : Persist := _; subst y)
    | (extract_lets +onlyGivenNames y; guard_hyp y : Sgl := _; subst y)
    | (extract_lets +onlyGivenNames y; guard_hyp y : Sec := _; subst y)
    | (extract_lets +onlyGivenNames y; clear_value y)
    | extract_lets +onlyGivenNames y
    | with_reducible apply OnlyChanges.ite
    | split
    | (with_reducible apply OnlyChanges.upd4096; (on_goal 1 => decide))

theorem poisonHome_frame {a0} {x : State} : OnlyChanges [.evr, .tr, .prot, .per, .ck, .cache, .dram, .cxlA, .cxlB, .outs] x (poisonHome a0 x) := by
  unfold poisonHome
  repeat' first
    | with_reducible assumption
    | with_reducible apply OnlyChanges.refl
    | (extract_lets +onlyGivenNames y; guard_hyp y : State := Prod.snd _; subst y)
    | (extract_lets +onlyGivenNames y; guard_hyp y : State := _; apply OnlyChanges.cut y; (on_goal 1 => (unfold y; clear y)); (on_goal 2 => (intro hx; clear_value y)))
    | (extract_lets +onlyGivenNames y; guard_hyp y : _ × State := _; apply OnlyChanges.cutP y; (on_goal 1 => (unfold y; clear y)); (on_goal 2 => (intro hx; clear_value y)))
    | (extract_lets +onlyGivenNames y; guard_hyp y : _ × _ × State := _; apply OnlyChanges.cutPP y; (on_goal 1 => (unfold y; clear y)); (on_goal 2 => (intro hx; clear_value y)))
    | (extract_lets +onlyGivenNames y; guard_hyp y : Boxes := _; subst y)
    | (extract_lets +onlyGivenNames y; guard_hyp y : Power := _; subst y)
    | (extract_lets +onlyGivenNames y; guard_hyp y : Trans := _; subst y)
    | (extract_lets +onlyGivenNames y; guard_hyp y : Prot := _; subst y)
    | (extract_lets +onlyGivenNames y; guard_hyp y : Persist := _; subst y)
    | (extract_lets +onlyGivenNames y; guard_hyp y : Sgl := _; subst y)
    | (extract_lets +onlyGivenNames y; guard_hyp y : Sec := _; subst y)
    | (extract_lets +onlyGivenNames y; clear_value y)
    | extract_lets +onlyGivenNames y
    | with_reducible apply OnlyChanges.ite
    | (with_reducible apply OnlyChanges.step poisonLine_frame; (on_goal 1 => decide))
    | (with_reducible apply OnlyChanges.step dropDram_frame; (on_goal 1 => decide))
    | (with_reducible apply OnlyChanges.step dropSram_frame; (on_goal 1 => decide))
    | split
    | (with_reducible apply OnlyChanges.upd128; (on_goal 1 => decide); (on_goal 1 => (first | exact Or.inr (by with_reducible rfl) | exact Or.inl (by decide) | exact Or.inr rfl)))

theorem putStream_frame {a0} {a1} {x : State} : OnlyChanges [.cache] x (putStream a0 a1 x) := by
  unfold putStream
  repeat' first
    | with_reducible assumption
    | with_reducible apply OnlyChanges.refl
    | (extract_lets +onlyGivenNames y; guard_hyp y : State := Prod.snd _; subst y)
    | (extract_lets +onlyGivenNames y; guard_hyp y : State := _; apply OnlyChanges.cut y; (on_goal 1 => (unfold y; clear y)); (on_goal 2 => (intro hx; clear_value y)))
    | (extract_lets +onlyGivenNames y; guard_hyp y : _ × State := _; apply OnlyChanges.cutP y; (on_goal 1 => (unfold y; clear y)); (on_goal 2 => (intro hx; clear_value y)))
    | (extract_lets +onlyGivenNames y; guard_hyp y : _ × _ × State := _; apply OnlyChanges.cutPP y; (on_goal 1 => (unfold y; clear y)); (on_goal 2 => (intro hx; clear_value y)))
    | (extract_lets +onlyGivenNames y; guard_hyp y : Boxes := _; subst y)
    | (extract_lets +onlyGivenNames y; guard_hyp y : Power := _; subst y)
    | (extract_lets +onlyGivenNames y; guard_hyp y : Trans := _; subst y)
    | (extract_lets +onlyGivenNames y; guard_hyp y : Prot := _; subst y)
    | (extract_lets +onlyGivenNames y; guard_hyp y : Persist := _; subst y)
    | (extract_lets +onlyGivenNames y; guard_hyp y : Sgl := _; subst y)
    | (extract_lets +onlyGivenNames y; guard_hyp y : Sec := _; subst y)
    | (extract_lets +onlyGivenNames y; clear_value y)
    | extract_lets +onlyGivenNames y
    | with_reducible apply OnlyChanges.ite
    | split
    | (with_reducible apply OnlyChanges.upd4096; (on_goal 1 => decide))

theorem flushWay_frame {a0} {a1} {a2} {x : State} : OnlyChanges [.cache, .dram] x (flushWay a0 a1 a2 x) := by
  unfold flushWay
  repeat' first
    | with_reducible assumption
    | with_reducible apply OnlyChanges.refl
    | with_reducible apply OnlyChanges.ite
    | (with_reducible apply OnlyChanges.step delWay_frame; (on_goal 1 => decide))
    | (with_reducible apply OnlyChanges.step dropDram_frame; (on_goal 1 => decide))
    | split

theorem endEvict_frame {a0} {a1} {a2} {x : State} : OnlyChanges [.pmc, .cache, .dram, .freeCtr, .outs] x (endEvict a0 a1 a2 x) := by
  unfold endEvict
  repeat' first
    | with_reducible assumption
    | with_reducible apply OnlyChanges.refl
    | (extract_lets +onlyGivenNames y; guard_hyp y : State := Prod.snd _; subst y)
    | (extract_lets +onlyGivenNames y; guard_hyp y : State := _; apply OnlyChanges.cut y; (on_goal 1 => (unfold y; clear y)); (on_goal 2 => (intro hx; clear_value y)))
    | (extract_lets +onlyGivenNames y; guard_hyp y : _ × State := _; apply OnlyChanges.cutP y; (on_goal 1 => (unfold y; clear y)); (on_goal 2 => (intro hx; clear_value y)))
    | (extract_lets +onlyGivenNames y; guard_hyp y : _ × _ × State := _; apply OnlyChanges.cutPP y; (on_goal 1 => (unfold y; clear y)); (on_goal 2 => (intro hx; clear_value y)))
    | (extract_lets +onlyGivenNames y; guard_hyp y : Boxes := _; subst y)
    | (extract_lets +onlyGivenNames y; guard_hyp y : Power := _; subst y)
    | (extract_lets +onlyGivenNames y; guard_hyp y : Trans := _; subst y)
    | (extract_lets +onlyGivenNames y; guard_hyp y : Prot := _; subst y)
    | (extract_lets +onlyGivenNames y; guard_hyp y : Persist := _; subst y)
    | (extract_lets +onlyGivenNames y; guard_hyp y : Sgl := _; subst y)
    | (extract_lets +onlyGivenNames y; guard_hyp y : Sec := _; subst y)
    | (extract_lets +onlyGivenNames y; clear_value y)
    | extract_lets +onlyGivenNames y
    | with_reducible apply OnlyChanges.ite
    | (with_reducible apply OnlyChanges.step evictNow_frame; (on_goal 1 => decide))
    | split

end Sys2Proof.Machine
end

