-- ==== Sys2Proof/Laws/FrameCipher.lean ====
section
/-! SUPPORT. The parts of the state that each operation of Machine/Cipher.lean may change; every other part it leaves
alone. -/

set_option linter.all false

namespace Sys2Proof.Machine

theorem logLease_frame {a0} {a1} {x : State} : OnlyChanges [.sec] x (logLease a0 a1 x) := by
  unfold logLease
  repeat' first
    | with_reducible assumption
    | with_reducible apply OnlyChanges.refl
    | (extract_lets +onlyGivenNames y; guard_hyp y : State := Prod.snd _; subst y)
    | (extract_lets +onlyGivenNames y; guard_hyp y : State := _; apply OnlyChanges.cut y; (on_goal 1 => (unfold y; clear y)); (on_goal 2 => (intro hx; clear_value y)))
    | (extract_lets +onlyGivenNames y; guard_hyp y : _ × State := _; apply OnlyChanges.cutP y; (on_goal 1 => (unfold y; clear y)); (on_goal 2 => (intro hx; clear_value y)))
    | (extract_lets +onlyGivenNames y; guard_hyp y : _ × _ × State := _; apply OnlyChanges.cutPP y; (on_goal 1 => (unfold y; clear y)); (on_goal 2 => (intro hx; clear_value y)))
    | (extract_lets +onlyGivenNames y; guard_hyp y : Boxes := _; subst y)
    | (extract_lets +onlyGivenNames y; guard_hyp y : Power := _; subst y)
    | (extract_lets +onlyGivenNames y; guard_hyp y : Trans := _; subst y)
    | (extract_lets +onlyGivenNames y; guard_hyp y : Prot := _; subst y)
    | (extract_lets +onlyGivenNames y; guard_hyp y : Persist := _; subst y)
    | (extract_lets +onlyGivenNames y; guard_hyp y : Sgl := _; subst y)
    | (extract_lets +onlyGivenNames y; guard_hyp y : Sec := _; subst y)
    | (extract_lets +onlyGivenNames y; clear_value y)
    | extract_lets +onlyGivenNames y
    | with_reducible apply OnlyChanges.ite
    | split
    | (with_reducible apply OnlyChanges.upd2097152; (on_goal 1 => decide); (on_goal 1 => (first | exact Or.inr (by with_reducible rfl) | exact Or.inl (by decide) | exact Or.inr rfl)); (on_goal 1 => (first | exact Or.inr (by with_reducible rfl) | exact Or.inl (by decide) | exact Or.inr rfl)); (on_goal 1 => (first | exact Or.inr (by with_reducible rfl) | exact Or.inl (by decide) | exact Or.inr rfl)))

theorem exhaust_frame {a0} {x : State} : OnlyChanges [.sec] x (exhaust a0 x) := by
  unfold exhaust
  repeat' first
    | with_reducible assumption
    | with_reducible apply OnlyChanges.refl
    | (extract_lets +onlyGivenNames y; guard_hyp y : State := Prod.snd _; subst y)
    | (extract_lets +onlyGivenNames y; guard_hyp y : State := _; apply OnlyChanges.cut y; (on_goal 1 => (unfold y; clear y)); (on_goal 2 => (intro hx; clear_value y)))
    | (extract_lets +onlyGivenNames y; guard_hyp y : _ × State := _; apply OnlyChanges.cutP y; (on_goal 1 => (unfold y; clear y)); (on_goal 2 => (intro hx; clear_value y)))
    | (extract_lets +onlyGivenNames y; guard_hyp y : _ × _ × State := _; apply OnlyChanges.cutPP y; (on_goal 1 => (unfold y; clear y)); (on_goal 2 => (intro hx; clear_value y)))
    | (extract_lets +onlyGivenNames y; guard_hyp y : Boxes := _; subst y)
    | (extract_lets +onlyGivenNames y; guard_hyp y : Power := _; subst y)
    | (extract_lets +onlyGivenNames y; guard_hyp y : Trans := _; subst y)
    | (extract_lets +onlyGivenNames y; guard_hyp y : Prot := _; subst y)
    | (extract_lets +onlyGivenNames y; guard_hyp y : Persist := _; subst y)
    | (extract_lets +onlyGivenNames y; guard_hyp y : Sgl := _; subst y)
    | (extract_lets +onlyGivenNames y; guard_hyp y : Sec := _; subst y)
    | (extract_lets +onlyGivenNames y; clear_value y)
    | extract_lets +onlyGivenNames y
    | with_reducible apply OnlyChanges.ite
    | (with_reducible apply OnlyChanges.step logLease_frame; (on_goal 1 => decide))
    | (with_reducible apply OnlyChanges.foldl; (on_goal 2 => intro z a))
    | (with_reducible apply OnlyChangesP.foldl; (on_goal 2 => intro z a))
    | split
    | (with_reducible apply OnlyChanges.upd2097152; (on_goal 1 => decide); (on_goal 1 => (first | exact Or.inr (by with_reducible rfl) | exact Or.inl (by decide) | exact Or.inr rfl)); (on_goal 1 => (first | exact Or.inr (by with_reducible rfl) | exact Or.inl (by decide) | exact Or.inr rfl)); (on_goal 1 => (first | exact Or.inr (by with_reducible rfl) | exact Or.inl (by decide) | exact Or.inr rfl)))

theorem renewLease_frame {a0} {a1} {x : State} : OnlyChanges [.sec] x (renewLease a0 a1 x) := by
  unfold renewLease
  repeat' first
    | with_reducible assumption
    | with_reducible apply OnlyChanges.refl
    | (extract_lets +onlyGivenNames y; guard_hyp y : State := Prod.snd _; subst y)
    | (extract_lets +onlyGivenNames y; guard_hyp y : State := _; apply OnlyChanges.cut y; (on_goal 1 => (unfold y; clear y)); (on_goal 2 => (intro hx; clear_value y)))
    | (extract_lets +onlyGivenNames y; guard_hyp y : _ × State := _; apply OnlyChanges.cutP y; (on_goal 1 => (unfold y; clear y)); (on_goal 2 => (intro hx; clear_value y)))
    | (extract_lets +onlyGivenNames y; guard_hyp y : _ × _ × State := _; apply OnlyChanges.cutPP y; (on_goal 1 => (unfold y; clear y)); (on_goal 2 => (intro hx; clear_value y)))
    | (extract_lets +onlyGivenNames y; guard_hyp y : Boxes := _; subst y)
    | (extract_lets +onlyGivenNames y; guard_hyp y : Power := _; subst y)
    | (extract_lets +onlyGivenNames y; guard_hyp y : Trans := _; subst y)
    | (extract_lets +onlyGivenNames y; guard_hyp y : Prot := _; subst y)
    | (extract_lets +onlyGivenNames y; guard_hyp y : Persist := _; subst y)
    | (extract_lets +onlyGivenNames y; guard_hyp y : Sgl := _; subst y)
    | (extract_lets +onlyGivenNames y; guard_hyp y : Sec := _; subst y)
    | (extract_lets +onlyGivenNames y; clear_value y)
    | extract_lets +onlyGivenNames y
    | with_reducible apply OnlyChanges.ite
    | (with_reducible apply OnlyChanges.step logLease_frame; (on_goal 1 => decide))
    | split
    | (with_reducible apply OnlyChanges.upd2097152; (on_goal 1 => decide); (on_goal 1 => (first | exact Or.inr (by with_reducible rfl) | exact Or.inl (by decide) | exact Or.inr rfl)); (on_goal 1 => (first | exact Or.inr (by with_reducible rfl) | exact Or.inl (by decide) | exact Or.inr rfl)); (on_goal 1 => (first | exact Or.inr (by with_reducible rfl) | exact Or.inl (by decide) | exact Or.inr rfl)))

theorem takeVer_frame {a0} {x : State} : OnlyChanges [.sec] x (takeVer a0 x).2.2 := by
  unfold takeVer
  repeat' first
    | with_reducible assumption
    | with_reducible apply OnlyChanges.refl
    | (extract_lets +onlyGivenNames y; guard_hyp y : State := Prod.snd _; subst y)
    | (extract_lets +onlyGivenNames y; guard_hyp y : State := _; apply OnlyChanges.cut y; (on_goal 1 => (unfold y; clear y)); (on_goal 2 => (intro hx; clear_value y)))
    | (extract_lets +onlyGivenNames y; guard_hyp y : _ × State := _; apply OnlyChanges.cutP y; (on_goal 1 => (unfold y; clear y)); (on_goal 2 => (intro hx; clear_value y)))
    | (extract_lets +onlyGivenNames y; guard_hyp y : _ × _ × State := _; apply OnlyChanges.cutPP y; (on_goal 1 => (unfold y; clear y)); (on_goal 2 => (intro hx; clear_value y)))
    | (extract_lets +onlyGivenNames y; guard_hyp y : Boxes := _; subst y)
    | (extract_lets +onlyGivenNames y; guard_hyp y : Power := _; subst y)
    | (extract_lets +onlyGivenNames y; guard_hyp y : Trans := _; subst y)
    | (extract_lets +onlyGivenNames y; guard_hyp y : Prot := _; subst y)
    | (extract_lets +onlyGivenNames y; guard_hyp y : Persist := _; subst y)
    | (extract_lets +onlyGivenNames y; guard_hyp y : Sgl := _; subst y)
    | (extract_lets +onlyGivenNames y; guard_hyp y : Sec := _; subst y)
    | (extract_lets +onlyGivenNames y; clear_value y)
    | extract_lets +onlyGivenNames y
    | with_reducible apply OnlyChanges.ite
    | with_reducible apply OnlyChangesP.ite
    | (with_reducible apply OnlyChanges.step renewLease_frame; (on_goal 1 => decide))
    | split
    | with_reducible apply OnlyChangesP.mk
    | (with_reducible apply OnlyChanges.upd2097152; (on_goal 1 => decide); (on_goal 1 => (first | exact Or.inr (by with_reducible rfl) | exact Or.inl (by decide) | exact Or.inr rfl)); (on_goal 1 => (first | exact Or.inr (by with_reducible rfl) | exact Or.inl (by decide) | exact Or.inr rfl)); (on_goal 1 => (first | exact Or.inr (by with_reducible rfl) | exact Or.inl (by decide) | exact Or.inr rfl)))

theorem reportOpen_frame {a0} {a1} {a2} {a3} {a4} {x : State} : OnlyChanges [.evr, .cxlA, .cxlB, .sec, .outs] x (reportOpen a0 a1 a2 a3 a4 x) := by
  unfold reportOpen
  repeat' first
    | with_reducible assumption
    | with_reducible apply OnlyChanges.refl
    | (extract_lets +onlyGivenNames y; guard_hyp y : State := Prod.snd _; subst y)
    | (extract_lets +onlyGivenNames y; guard_hyp y : State := _; apply OnlyChanges.cut y; (on_goal 1 => (unfold y; clear y)); (on_goal 2 => (intro hx; clear_value y)))
    | (extract_lets +onlyGivenNames y; guard_hyp y : _ × State := _; apply OnlyChanges.cutP y; (on_goal 1 => (unfold y; clear y)); (on_goal 2 => (intro hx; clear_value y)))
    | (extract_lets +onlyGivenNames y; guard_hyp y : _ × _ × State := _; apply OnlyChanges.cutPP y; (on_goal 1 => (unfold y; clear y)); (on_goal 2 => (intro hx; clear_value y)))
    | (extract_lets +onlyGivenNames y; guard_hyp y : Boxes := _; subst y)
    | (extract_lets +onlyGivenNames y; guard_hyp y : Power := _; subst y)
    | (extract_lets +onlyGivenNames y; guard_hyp y : Trans := _; subst y)
    | (extract_lets +onlyGivenNames y; guard_hyp y : Prot := _; subst y)
    | (extract_lets +onlyGivenNames y; guard_hyp y : Persist := _; subst y)
    | (extract_lets +onlyGivenNames y; guard_hyp y : Sgl := _; subst y)
    | (extract_lets +onlyGivenNames y; guard_hyp y : Sec := _; subst y)
    | (extract_lets +onlyGivenNames y; clear_value y)
    | extract_lets +onlyGivenNames y
    | with_reducible apply OnlyChanges.ite
    | (with_reducible apply OnlyChanges.step alarm_frame; (on_goal 1 => decide))
    | (with_reducible apply OnlyChanges.step event_frame; (on_goal 1 => decide))
    | split
    | (with_reducible apply OnlyChanges.upd2097152; (on_goal 1 => decide); (on_goal 1 => (first | exact Or.inr (by with_reducible rfl) | exact Or.inl (by decide) | exact Or.inr rfl)); (on_goal 1 => (first | exact Or.inr (by with_reducible rfl) | exact Or.inl (by decide) | exact Or.inr rfl)); (on_goal 1 => (first | exact Or.inr (by with_reducible rfl) | exact Or.inl (by decide) | exact Or.inr rfl)))

end Sys2Proof.Machine
end

