-- ==== Sys2Proof/Laws/FramePlace.lean ====
section
/-! SUPPORT. The parts of the state that each operation of Machine/Place.lean may change; every other part it leaves
alone. -/

set_option linter.all false

namespace Sys2Proof.Machine

theorem modStripe_frame {a0} {a1} {x : State} : OnlyChanges [.tr] x (modStripe a0 a1 x) := by
  unfold modStripe
  repeat' first
    | with_reducible assumption
    | with_reducible apply OnlyChanges.refl
    | (extract_lets +onlyGivenNames y; guard_hyp y : State := Prod.snd _; subst y)
    | (extract_lets +onlyGivenNames y; guard_hyp y : State := _; apply OnlyChanges.cut y; (on_goal 1 => (unfold y; clear y)); (on_goal 2 => (intro hx; clear_value y)))
    | (extract_lets +onlyGivenNames y; guard_hyp y : _ × State := _; apply OnlyChanges.cutP y; (on_goal 1 => (unfold y; clear y)); (on_goal 2 => (intro hx; clear_value y)))
    | (extract_lets +onlyGivenNames y; guard_hyp y : _ × _ × State := _; apply OnlyChanges.cutPP y; (on_goal 1 => (unfold y; clear y)); (on_goal 2 => (intro hx; clear_value y)))
    | (extract_lets +onlyGivenNames y; guard_hyp y : Boxes := _; subst y)
    | (extract_lets +onlyGivenNames y; guard_hyp y : Power := _; subst y)
    | (extract_lets +onlyGivenNames y; guard_hyp y : Trans := _; subst y)
    | (extract_lets +onlyGivenNames y; guard_hyp y : Prot := _; subst y)
    | (extract_lets +onlyGivenNames y; guard_hyp y : Persist := _; subst y)
    | (extract_lets +onlyGivenNames y; guard_hyp y : Sgl := _; subst y)
    | (extract_lets +onlyGivenNames y; guard_hyp y : Sec := _; subst y)
    | (extract_lets +onlyGivenNames y; clear_value y)
    | extract_lets +onlyGivenNames y
    | with_reducible apply OnlyChanges.ite
    | split
    | (with_reducible apply OnlyChanges.upd128; (on_goal 1 => decide); (on_goal 1 => (first | exact Or.inr (by with_reducible rfl) | exact Or.inl (by decide) | exact Or.inr rfl)))

theorem padTo_frame {a0} {a1} {x : State} : OnlyChanges [.tr] x (padTo a0 a1 x) := by
  unfold padTo
  repeat' first
    | with_reducible assumption
    | with_reducible apply OnlyChanges.refl
    | (extract_lets +onlyGivenNames y; guard_hyp y : State := Prod.snd _; subst y)
    | (extract_lets +onlyGivenNames y; guard_hyp y : State := _; apply OnlyChanges.cut y; (on_goal 1 => (unfold y; clear y)); (on_goal 2 => (intro hx; clear_value y)))
    | (extract_lets +onlyGivenNames y; guard_hyp y : _ × State := _; apply OnlyChanges.cutP y; (on_goal 1 => (unfold y; clear y)); (on_goal 2 => (intro hx; clear_value y)))
    | (extract_lets +onlyGivenNames y; guard_hyp y : _ × _ × State := _; apply OnlyChanges.cutPP y; (on_goal 1 => (unfold y; clear y)); (on_goal 2 => (intro hx; clear_value y)))
    | (extract_lets +onlyGivenNames y; guard_hyp y : Boxes := _; subst y)
    | (extract_lets +onlyGivenNames y; guard_hyp y : Power := _; subst y)
    | (extract_lets +onlyGivenNames y; guard_hyp y : Trans := _; subst y)
    | (extract_lets +onlyGivenNames y; guard_hyp y : Prot := _; subst y)
    | (extract_lets +onlyGivenNames y; guard_hyp y : Persist := _; subst y)
    | (extract_lets +onlyGivenNames y; guard_hyp y : Sgl := _; subst y)
    | (extract_lets +onlyGivenNames y; guard_hyp y : Sec := _; subst y)
    | (extract_lets +onlyGivenNames y; clear_value y)
    | extract_lets +onlyGivenNames y
    | with_reducible apply OnlyChanges.ite
    | (with_reducible apply OnlyChanges.step modStripe_frame; (on_goal 1 => decide))
    | split

theorem openStripe_frame {a0} {a1} {x : State} : OnlyChanges [.tr, .per, .ck] x (openStripe a0 a1 x) := by
  unfold openStripe
  repeat' first
    | with_reducible assumption
    | with_reducible apply OnlyChanges.refl
    | (extract_lets +onlyGivenNames y; guard_hyp y : State := Prod.snd _; subst y)
    | (extract_lets +onlyGivenNames y; guard_hyp y : State := _; apply OnlyChanges.cut y; (on_goal 1 => (unfold y; clear y)); (on_goal 2 => (intro hx; clear_value y)))
    | (extract_lets +onlyGivenNames y; guard_hyp y : _ × State := _; apply OnlyChanges.cutP y; (on_goal 1 => (unfold y; clear y)); (on_goal 2 => (intro hx; clear_value y)))
    | (extract_lets +onlyGivenNames y; guard_hyp y : _ × _ × State := _; apply OnlyChanges.cutPP y; (on_goal 1 => (unfold y; clear y)); (on_goal 2 => (intro hx; clear_value y)))
    | (extract_lets +onlyGivenNames y; guard_hyp y : Boxes := _; subst y)
    | (extract_lets +onlyGivenNames y; guard_hyp y : Power := _; subst y)
    | (extract_lets +onlyGivenNames y; guard_hyp y : Trans := _; subst y)
    | (extract_lets +onlyGivenNames y; guard_hyp y : Prot := _; subst y)
    | (extract_lets +onlyGivenNames y; guard_hyp y : Persist := _; subst y)
    | (extract_lets +onlyGivenNames y; guard_hyp y : Sgl := _; subst y)
    | (extract_lets +onlyGivenNames y; guard_hyp y : Sec := _; subst y)
    | (extract_lets +onlyGivenNames y; clear_value y)
    | extract_lets +onlyGivenNames y
    | with_reducible apply OnlyChanges.ite
    | (with_reducible apply OnlyChanges.step putCourse_frame; (on_goal 1 => decide))
    | (with_reducible apply OnlyChanges.foldl; (on_goal 2 => intro z a))
    | (with_reducible apply OnlyChangesP.foldl; (on_goal 2 => intro z a))
    | split
    | (with_reducible apply OnlyChanges.upd128; (on_goal 1 => decide); (on_goal 1 => (first | exact Or.inr (by with_reducible rfl) | exact Or.inl (by decide) | exact Or.inr rfl)))

theorem qStripe_frame {a0} {a1} {x : State} : OnlyChangesP [.tr, .per, .ck] x (qStripe a0 a1 x) := by
  unfold qStripe
  repeat' first
    | with_reducible assumption
    | with_reducible apply OnlyChanges.refl
    | (extract_lets +onlyGivenNames y; guard_hyp y : State := Prod.snd _; subst y)
    | (extract_lets +onlyGivenNames y; guard_hyp y : State := _; apply OnlyChangesP.cut y; (on_goal 1 => (unfold y; clear y)); (on_goal 2 => (intro hx; clear_value y)))
    | (extract_lets +onlyGivenNames y; guard_hyp y : _ × State := _; apply OnlyChangesP.cutP y; (on_goal 1 => (unfold y; clear y)); (on_goal 2 => (intro hx; clear_value y)))
    | (extract_lets +onlyGivenNames y; guard_hyp y : _ × _ × State := _; apply OnlyChangesP.cutPP y; (on_goal 1 => (unfold y; clear y)); (on_goal 2 => (intro hx; clear_value y)))
    | (extract_lets +onlyGivenNames y; guard_hyp y : Boxes := _; subst y)
    | (extract_lets +onlyGivenNames y; guard_hyp y : Power := _; subst y)
    | (extract_lets +onlyGivenNames y; guard_hyp y : Trans := _; subst y)
    | (extract_lets +onlyGivenNames y; guard_hyp y : Prot := _; subst y)
    | (extract_lets +onlyGivenNames y; guard_hyp y : Persist := _; subst y)
    | (extract_lets +onlyGivenNames y; guard_hyp y : Sgl := _; subst y)
    | (extract_lets +onlyGivenNames y; guard_hyp y : Sec := _; subst y)
    | (extract_lets +onlyGivenNames y; clear_value y)
    | extract_lets +onlyGivenNames y
    | with_reducible apply OnlyChanges.ite
    | with_reducible apply OnlyChangesP.ite
    | (with_reducible apply OnlyChanges.step openStripe_frame; (on_goal 1 => decide))
    | split
    | with_reducible apply OnlyChangesP.mk

theorem placeSector_frame {a0} {a1} {a2} {a3} {x : State} : OnlyChangesP [.tr] x (placeSector a0 a1 a2 a3 x) := by
  unfold placeSector
  repeat' first
    | with_reducible assumption
    | with_reducible apply OnlyChanges.refl
    | (extract_lets +onlyGivenNames y; guard_hyp y : State := Prod.snd _; subst y)
    | (extract_lets +onlyGivenNames y; guard_hyp y : State := _; apply OnlyChangesP.cut y; (on_goal 1 => (unfold y; clear y)); (on_goal 2 => (intro hx; clear_value y)))
    | (extract_lets +onlyGivenNames y; guard_hyp y : _ × State := _; apply OnlyChangesP.cutP y; (on_goal 1 => (unfold y; clear y)); (on_goal 2 => (intro hx; clear_value y)))
    | (extract_lets +onlyGivenNames y; guard_hyp y : _ × _ × State := _; apply OnlyChangesP.cutPP y; (on_goal 1 => (unfold y; clear y)); (on_goal 2 => (intro hx; clear_value y)))
    | (extract_lets +onlyGivenNames y; guard_hyp y : Boxes := _; subst y)
    | (extract_lets +onlyGivenNames y; guard_hyp y : Power := _; subst y)
    | (extract_lets +onlyGivenNames y; guard_hyp y : Trans := _; subst y)
    | (extract_lets +onlyGivenNames y; guard_hyp y : Prot := _; subst y)
    | (extract_lets +onlyGivenNames y; guard_hyp y : Persist := _; subst y)
    | (extract_lets +onlyGivenNames y; guard_hyp y : Sgl := _; subst y)
    | (extract_lets +onlyGivenNames y; guard_hyp y : Sec := _; subst y)
    | (extract_lets +onlyGivenNames y; clear_value y)
    | extract_lets +onlyGivenNames y
    | with_reducible apply OnlyChanges.ite
    | with_reducible apply OnlyChangesP.ite
    | split
    | with_reducible apply OnlyChangesP.mk
    | (with_reducible apply OnlyChanges.upd128; (on_goal 1 => decide); (on_goal 1 => (first | exact Or.inr (by with_reducible rfl) | exact Or.inl (by decide) | exact Or.inr rfl)))

theorem placeQ_frame {a0} {a1} {a2} {a3} {a4} {a5} {x : State} : OnlyChanges [.tr] x (placeQ a0 a1 a2 a3 a4 a5 x) := by
  induction a5 generalizing x a0 a1 a2 a3 a4 with
  | zero =>
    unfold placeQ
    repeat' first
      | with_reducible assumption
      | with_reducible apply OnlyChanges.refl
      | with_reducible apply OnlyChanges.ite
      | (with_reducible apply OnlyChangesP.step placeSector_frame; (on_goal 1 => decide))
      | (with_reducible apply OnlyChangesP.snd placeSector_frame; (on_goal 1 => decide))
      | (with_reducible apply OnlyChanges.ofPair; (on_goal 1 => assumption))
      | split
  | succ k ih =>
    unfold placeQ
    repeat' first
      | with_reducible assumption
      | with_reducible apply OnlyChanges.refl
      | with_reducible apply OnlyChanges.ite
      | (with_reducible apply OnlyChangesP.step placeSector_frame; (on_goal 1 => decide))
      | (with_reducible apply OnlyChangesP.snd placeSector_frame; (on_goal 1 => decide))
      | (with_reducible apply OnlyChanges.ofPair; (on_goal 1 => assumption))
      | (with_reducible apply OnlyChanges.step ih; (on_goal 1 => decide))
      | split

theorem formQ_frame {a0} {a1} {x : State} : OnlyChangesP [.tr, .per, .ck] x (formQ a0 a1 x) := by
  unfold formQ
  repeat' first
    | with_reducible assumption
    | with_reducible apply OnlyChanges.refl
    | (extract_lets +onlyGivenNames y; guard_hyp y : State := Prod.snd _; subst y)
    | (extract_lets +onlyGivenNames y; guard_hyp y : State := _; apply OnlyChangesP.cut y; (on_goal 1 => (unfold y; clear y)); (on_goal 2 => (intro hx; clear_value y)))
    | (extract_lets +onlyGivenNames y; guard_hyp y : _ × State := _; apply OnlyChangesP.cutP y; (on_goal 1 => (unfold y; clear y)); (on_goal 2 => (intro hx; clear_value y)))
    | (extract_lets +onlyGivenNames y; guard_hyp y : _ × _ × State := _; apply OnlyChangesP.cutPP y; (on_goal 1 => (unfold y; clear y)); (on_goal 2 => (intro hx; clear_value y)))
    | (extract_lets +onlyGivenNames y; guard_hyp y : Boxes := _; subst y)
    | (extract_lets +onlyGivenNames y; guard_hyp y : Power := _; subst y)
    | (extract_lets +onlyGivenNames y; guard_hyp y : Trans := _; subst y)
    | (extract_lets +onlyGivenNames y; guard_hyp y : Prot := _; subst y)
    | (extract_lets +onlyGivenNames y; guard_hyp y : Persist := _; subst y)
    | (extract_lets +onlyGivenNames y; guard_hyp y : Sgl := _; subst y)
    | (extract_lets +onlyGivenNames y; guard_hyp y : Sec := _; subst y)
    | (extract_lets +onlyGivenNames y; clear_value y)
    | extract_lets +onlyGivenNames y
    | with_reducible apply OnlyChanges.ite
    | with_reducible apply OnlyChangesP.ite
    | (with_reducible apply OnlyChangesP.step qStripe_frame; (on_goal 1 => decide))
    | (with_reducible apply OnlyChangesP.snd qStripe_frame; (on_goal 1 => decide))
    | (with_reducible apply OnlyChanges.step placeQ_frame; (on_goal 1 => decide))
    | (with_reducible apply OnlyChanges.step logOnly_frame; (on_goal 1 => decide))
    | (with_reducible apply OnlyChanges.step modStripe_frame; (on_goal 1 => decide))
    | (with_reducible apply OnlyChanges.ofPair; (on_goal 1 => assumption))
    | split
    | with_reducible apply OnlyChangesP.mk

theorem putCell_frame {a0} {a1} {a2} {x : State} : OnlyChanges [.tr] x (putCell a0 a1 a2 x) := by
  unfold putCell
  repeat' first
    | with_reducible assumption
    | with_reducible apply OnlyChanges.refl
    | (extract_lets +onlyGivenNames y; guard_hyp y : State := Prod.snd _; subst y)
    | (extract_lets +onlyGivenNames y; guard_hyp y : State := _; apply OnlyChanges.cut y; (on_goal 1 => (unfold y; clear y)); (on_goal 2 => (intro hx; clear_value y)))
    | (extract_lets +onlyGivenNames y; guard_hyp y : _ × State := _; apply OnlyChanges.cutP y; (on_goal 1 => (unfold y; clear y)); (on_goal 2 => (intro hx; clear_value y)))
    | (extract_lets +onlyGivenNames y; guard_hyp y : _ × _ × State := _; apply OnlyChanges.cutPP y; (on_goal 1 => (unfold y; clear y)); (on_goal 2 => (intro hx; clear_value y)))
    | (extract_lets +onlyGivenNames y; guard_hyp y : Boxes := _; subst y)
    | (extract_lets +onlyGivenNames y; guard_hyp y : Power := _; subst y)
    | (extract_lets +onlyGivenNames y; guard_hyp y : Trans := _; subst y)
    | (extract_lets +onlyGivenNames y; guard_hyp y : Prot := _; subst y)
    | (extract_lets +onlyGivenNames y; guard_hyp y : Persist := _; subst y)
    | (extract_lets +onlyGivenNames y; guard_hyp y : Sgl := _; subst y)
    | (extract_lets +onlyGivenNames y; guard_hyp y : Sec := _; subst y)
    | (extract_lets +onlyGivenNames y; clear_value y)
    | extract_lets +onlyGivenNames y
    | with_reducible apply OnlyChanges.ite
    | split
    | (with_reducible apply OnlyChanges.upd128; (on_goal 1 => decide); (on_goal 1 => (first | exact Or.inr (by with_reducible rfl) | exact Or.inl (by decide) | exact Or.inr rfl)))

theorem formParity_frame {a0} {a1} {a2} {x : State} : OnlyChanges [.tr] x (formParity a0 a1 a2 x) := by
  unfold formParity
  repeat' first
    | with_reducible assumption
    | with_reducible apply OnlyChanges.refl
    | (extract_lets +onlyGivenNames y; guard_hyp y : State := Prod.snd _; subst y)
    | (extract_lets +onlyGivenNames y; guard_hyp y : State := _; apply OnlyChanges.cut y; (on_goal 1 => (unfold y; clear y)); (on_goal 2 => (intro hx; clear_value y)))
    | (extract_lets +onlyGivenNames y; guard_hyp y : _ × State := _; apply OnlyChanges.cutP y; (on_goal 1 => (unfold y; clear y)); (on_goal 2 => (intro hx; clear_value y)))
    | (extract_lets +onlyGivenNames y; guard_hyp y : _ × _ × State := _; apply OnlyChanges.cutPP y; (on_goal 1 => (unfold y; clear y)); (on_goal 2 => (intro hx; clear_value y)))
    | (extract_lets +onlyGivenNames y; guard_hyp y : Boxes := _; subst y)
    | (extract_lets +onlyGivenNames y; guard_hyp y : Power := _; subst y)
    | (extract_lets +onlyGivenNames y; guard_hyp y : Trans := _; subst y)
    | (extract_lets +onlyGivenNames y; guard_hyp y : Prot := _; subst y)
    | (extract_lets +onlyGivenNames y; guard_hyp y : Persist := _; subst y)
    | (extract_lets +onlyGivenNames y; guard_hyp y : Sgl := _; subst y)
    | (extract_lets +onlyGivenNames y; guard_hyp y : Sec := _; subst y)
    | (extract_lets +onlyGivenNames y; clear_value y)
    | extract_lets +onlyGivenNames y
    | with_reducible apply OnlyChanges.ite
    | (with_reducible apply OnlyChanges.step putCell_frame; (on_goal 1 => decide))
    | (with_reducible apply OnlyChanges.foldl; (on_goal 2 => intro z a))
    | (with_reducible apply OnlyChangesP.foldl; (on_goal 2 => intro z a))
    | split

theorem putLedger_frame {a0} {a1} {a2} {a3} {x : State} : OnlyChanges [.tr] x (putLedger a0 a1 a2 a3 x) := by
  unfold putLedger
  repeat' first
    | with_reducible assumption
    | with_reducible apply OnlyChanges.refl
    | (extract_lets +onlyGivenNames y; guard_hyp y : State := Prod.snd _; subst y)
    | (extract_lets +onlyGivenNames y; guard_hyp y : State := _; apply OnlyChanges.cut y; (on_goal 1 => (unfold y; clear y)); (on_goal 2 => (intro hx; clear_value y)))
    | (extract_lets +onlyGivenNames y; guard_hyp y : _ × State := _; apply OnlyChanges.cutP y; (on_goal 1 => (unfold y; clear y)); (on_goal 2 => (intro hx; clear_value y)))
    | (extract_lets +onlyGivenNames y; guard_hyp y : _ × _ × State := _; apply OnlyChanges.cutPP y; (on_goal 1 => (unfold y; clear y)); (on_goal 2 => (intro hx; clear_value y)))
    | (extract_lets +onlyGivenNames y; guard_hyp y : Boxes := _; subst y)
    | (extract_lets +onlyGivenNames y; guard_hyp y : Power := _; subst y)
    | (extract_lets +onlyGivenNames y; guard_hyp y : Trans := _; subst y)
    | (extract_lets +onlyGivenNames y; guard_hyp y : Prot := _; subst y)
    | (extract_lets +onlyGivenNames y; guard_hyp y : Persist := _; subst y)
    | (extract_lets +onlyGivenNames y; guard_hyp y : Sgl := _; subst y)
    | (extract_lets +onlyGivenNames y; guard_hyp y : Sec := _; subst y)
    | (extract_lets +onlyGivenNames y; clear_value y)
    | extract_lets +onlyGivenNames y
    | with_reducible apply OnlyChanges.ite
    | (with_reducible apply OnlyChanges.step putCell_frame; (on_goal 1 => decide))
    | (with_reducible apply OnlyChanges.foldl; (on_goal 2 => intro z a))
    | (with_reducible apply OnlyChangesP.foldl; (on_goal 2 => intro z a))
    | split

theorem putPage_frame {a0} {a1} {a2} {a3} {a4} {x : State} : OnlyChanges [.tr] x (putPage a0 a1 a2 a3 a4 x) := by
  unfold putPage
  repeat' first
    | with_reducible assumption
    | with_reducible apply OnlyChanges.refl
    | (extract_lets +onlyGivenNames y; guard_hyp y : State := Prod.snd _; subst y)
    | (extract_lets +onlyGivenNames y; guard_hyp y : State := _; apply OnlyChanges.cut y; (on_goal 1 => (unfold y; clear y)); (on_goal 2 => (intro hx; clear_value y)))
    | (extract_lets +onlyGivenNames y; guard_hyp y : _ × State := _; apply OnlyChanges.cutP y; (on_goal 1 => (unfold y; clear y)); (on_goal 2 => (intro hx; clear_value y)))
    | (extract_lets +onlyGivenNames y; guard_hyp y : _ × _ × State := _; apply OnlyChanges.cutPP y; (on_goal 1 => (unfold y; clear y)); (on_goal 2 => (intro hx; clear_value y)))
    | (extract_lets +onlyGivenNames y; guard_hyp y : Boxes := _; subst y)
    | (extract_lets +onlyGivenNames y; guard_hyp y : Power := _; subst y)
    | (extract_lets +onlyGivenNames y; guard_hyp y : Trans := _; subst y)
    | (extract_lets +onlyGivenNames y; guard_hyp y : Prot := _; subst y)
    | (extract_lets +onlyGivenNames y; guard_hyp y : Persist := _; subst y)
    | (extract_lets +onlyGivenNames y; guard_hyp y : Sgl := _; subst y)
    | (extract_lets +onlyGivenNames y; guard_hyp y : Sec := _; subst y)
    | (extract_lets +onlyGivenNames y; clear_value y)
    | extract_lets +onlyGivenNames y
    | with_reducible apply OnlyChanges.ite
    | (with_reducible apply OnlyChanges.step putCell_frame; (on_goal 1 => decide))
    | (with_reducible apply OnlyChanges.foldl; (on_goal 2 => intro z a))
    | (with_reducible apply OnlyChangesP.foldl; (on_goal 2 => intro z a))
    | split

theorem metaPage_frame {a0} {x : State} : OnlyChangesP [.tr, .per, .ck, .freeCtr] x (metaPage a0 x) := by
  unfold metaPage
  repeat' first
    | with_reducible assumption
    | with_reducible apply OnlyChanges.refl
    | (extract_lets +onlyGivenNames y; guard_hyp y : State := Prod.snd _; subst y)
    | (extract_lets +onlyGivenNames y; guard_hyp y : State := _; apply OnlyChangesP.cut y; (on_goal 1 => (unfold y; clear y)); (on_goal 2 => (intro hx; clear_value y)))
    | (extract_lets +onlyGivenNames y; guard_hyp y : _ × State := _; apply OnlyChangesP.cutP y; (on_goal 1 => (unfold y; clear y)); (on_goal 2 => (intro hx; clear_value y)))
    | (extract_lets +onlyGivenNames y; guard_hyp y : _ × _ × State := _; apply OnlyChangesP.cutPP y; (on_goal 1 => (unfold y; clear y)); (on_goal 2 => (intro hx; clear_value y)))
    | (extract_lets +onlyGivenNames y; guard_hyp y : Boxes := _; subst y)
    | (extract_lets +onlyGivenNames y; guard_hyp y : Power := _; subst y)
    | (extract_lets +onlyGivenNames y; guard_hyp y : Trans := _; subst y)
    | (extract_lets +onlyGivenNames y; guard_hyp y : Prot := _; subst y)
    | (extract_lets +onlyGivenNames y; guard_hyp y : Persist := _; subst y)
    | (extract_lets +onlyGivenNames y; guard_hyp y : Sgl := _; subst y)
    | (extract_lets +onlyGivenNames y; guard_hyp y : Sec := _; subst y)
    | (extract_lets +onlyGivenNames y; clear_value y)
    | extract_lets +onlyGivenNames y
    | with_reducible apply OnlyChanges.ite
    | with_reducible apply OnlyChangesP.ite
    | (with_reducible apply OnlyChanges.step openStripe_frame; (on_goal 1 => decide))
    | (with_reducible apply OnlyChanges.step putPage_frame; (on_goal 1 => decide))
    | (with_reducible apply OnlyChanges.step modStripe_frame; (on_goal 1 => decide))
    | split
    | with_reducible apply OnlyChangesP.mk
    | (with_reducible apply OnlyChanges.upd33554432; (on_goal 1 => decide))

theorem metaPages_frame {a0} {a1} {x : State} : OnlyChanges [.tr, .per, .ck, .freeCtr] x (metaPages a0 a1 x) := by
  induction a1 generalizing x a0 with
  | zero =>
    unfold metaPages
    repeat' first
      | with_reducible assumption
      | with_reducible apply OnlyChanges.refl
      | with_reducible apply OnlyChanges.ite
      | (with_reducible apply OnlyChangesP.step metaPage_frame; (on_goal 1 => decide))
      | (with_reducible apply OnlyChangesP.snd metaPage_frame; (on_goal 1 => decide))
      | (with_reducible apply OnlyChanges.ofPair; (on_goal 1 => assumption))
      | split
  | succ k ih =>
    unfold metaPages
    repeat' first
      | with_reducible assumption
      | with_reducible apply OnlyChanges.refl
      | with_reducible apply OnlyChanges.ite
      | (with_reducible apply OnlyChangesP.step metaPage_frame; (on_goal 1 => decide))
      | (with_reducible apply OnlyChangesP.snd metaPage_frame; (on_goal 1 => decide))
      | (with_reducible apply OnlyChanges.ofPair; (on_goal 1 => assumption))
      | (with_reducible apply OnlyChanges.step ih; (on_goal 1 => decide))
      | split

theorem formLedgers_frame {a0} {a1} {x : State} : OnlyChanges [.tr, .per, .ck, .freeCtr] x (formLedgers a0 a1 x) := by
  unfold formLedgers
  repeat' first
    | with_reducible assumption
    | with_reducible apply OnlyChanges.refl
    | (extract_lets +onlyGivenNames y; guard_hyp y : State := Prod.snd _; subst y)
    | (extract_lets +onlyGivenNames y; guard_hyp y : State := _; apply OnlyChanges.cut y; (on_goal 1 => (unfold y; clear y)); (on_goal 2 => (intro hx; clear_value y)))
    | (extract_lets +onlyGivenNames y; guard_hyp y : _ × State := _; apply OnlyChanges.cutP y; (on_goal 1 => (unfold y; clear y)); (on_goal 2 => (intro hx; clear_value y)))
    | (extract_lets +onlyGivenNames y; guard_hyp y : _ × _ × State := _; apply OnlyChanges.cutPP y; (on_goal 1 => (unfold y; clear y)); (on_goal 2 => (intro hx; clear_value y)))
    | (extract_lets +onlyGivenNames y; guard_hyp y : Boxes := _; subst y)
    | (extract_lets +onlyGivenNames y; guard_hyp y : Power := _; subst y)
    | (extract_lets +onlyGivenNames y; guard_hyp y : Trans := _; subst y)
    | (extract_lets +onlyGivenNames y; guard_hyp y : Prot := _; subst y)
    | (extract_lets +onlyGivenNames y; guard_hyp y : Persist := _; subst y)
    | (extract_lets +onlyGivenNames y; guard_hyp y : Sgl := _; subst y)
    | (extract_lets +onlyGivenNames y; guard_hyp y : Sec := _; subst y)
    | (extract_lets +onlyGivenNames y; clear_value y)
    | extract_lets +onlyGivenNames y
    | with_reducible apply OnlyChanges.ite
    | (with_reducible apply OnlyChanges.step putLedger_frame; (on_goal 1 => decide))
    | (with_reducible apply OnlyChangesP.step metaPage_frame; (on_goal 1 => decide))
    | (with_reducible apply OnlyChangesP.snd metaPage_frame; (on_goal 1 => decide))
    | (with_reducible apply OnlyChanges.step metaPages_frame; (on_goal 1 => decide))
    | (with_reducible apply OnlyChanges.foldl; (on_goal 2 => intro z a))
    | (with_reducible apply OnlyChangesP.foldl; (on_goal 2 => intro z a))
    | (with_reducible apply OnlyChanges.ofPair; (on_goal 1 => assumption))
    | split

theorem startRound_frame {a0} {x : State} : OnlyChanges [.tr, .per, .ck, .freeCtr] x (startRound a0 x) := by
  unfold startRound
  repeat' first
    | with_reducible assumption
    | with_reducible apply OnlyChanges.refl
    | (extract_lets +onlyGivenNames y; guard_hyp y : State := Prod.snd _; subst y)
    | (extract_lets +onlyGivenNames y; guard_hyp y : State := _; apply OnlyChanges.cut y; (on_goal 1 => (unfold y; clear y)); (on_goal 2 => (intro hx; clear_value y)))
    | (extract_lets +onlyGivenNames y; guard_hyp y : _ × State := _; apply OnlyChanges.cutP y; (on_goal 1 => (unfold y; clear y)); (on_goal 2 => (intro hx; clear_value y)))
    | (extract_lets +onlyGivenNames y; guard_hyp y : _ × _ × State := _; apply OnlyChanges.cutPP y; (on_goal 1 => (unfold y; clear y)); (on_goal 2 => (intro hx; clear_value y)))
    | (extract_lets +onlyGivenNames y; guard_hyp y : Boxes := _; subst y)
    | (extract_lets +onlyGivenNames y; guard_hyp y : Power := _; subst y)
    | (extract_lets +onlyGivenNames y; guard_hyp y : Trans := _; subst y)
    | (extract_lets +onlyGivenNames y; guard_hyp y : Prot := _; subst y)
    | (extract_lets +onlyGivenNames y; guard_hyp y : Persist := _; subst y)
    | (extract_lets +onlyGivenNames y; guard_hyp y : Sgl := _; subst y)
    | (extract_lets +onlyGivenNames y; guard_hyp y : Sec := _; subst y)
    | (extract_lets +onlyGivenNames y; clear_value y)
    | extract_lets +onlyGivenNames y
    | with_reducible apply OnlyChanges.ite
    | (with_reducible apply OnlyChangesP.step formQ_frame; (on_goal 1 => decide))
    | (with_reducible apply OnlyChangesP.snd formQ_frame; (on_goal 1 => decide))
    | (with_reducible apply OnlyChanges.step formParity_frame; (on_goal 1 => decide))
    | (with_reducible apply OnlyChanges.step formLedgers_frame; (on_goal 1 => decide))
    | (with_reducible apply OnlyChanges.step modStripe_frame; (on_goal 1 => decide))
    | (with_reducible apply OnlyChanges.ofPair; (on_goal 1 => assumption))
    | split

theorem startRounds_frame {a0} {a1} {x : State} : OnlyChanges [.tr, .per, .ck, .freeCtr] x (startRounds a0 a1 x) := by
  induction a1 generalizing x a0 with
  | zero =>
    unfold startRounds
    repeat' first
      | with_reducible assumption
      | with_reducible apply OnlyChanges.refl
      | with_reducible apply OnlyChanges.ite
      | (with_reducible apply OnlyChanges.step startRound_frame; (on_goal 1 => decide))
      | split
  | succ k ih =>
    unfold startRounds
    repeat' first
      | with_reducible assumption
      | with_reducible apply OnlyChanges.refl
      | with_reducible apply OnlyChanges.ite
      | (with_reducible apply OnlyChanges.step startRound_frame; (on_goal 1 => decide))
      | (with_reducible apply OnlyChanges.step ih; (on_goal 1 => decide))
      | split

theorem padAndStart_frame {a0} {x : State} : OnlyChanges [.tr, .per, .ck, .freeCtr] x (padAndStart a0 x) := by
  unfold padAndStart
  repeat' first
    | with_reducible assumption
    | with_reducible apply OnlyChanges.refl
    | with_reducible apply OnlyChanges.ite
    | (with_reducible apply OnlyChanges.step padTo_frame; (on_goal 1 => decide))
    | (with_reducible apply OnlyChanges.step startRounds_frame; (on_goal 1 => decide))
    | split

theorem setCourses_frame {a0} {a1} {a2} {x : State} : OnlyChanges [.tr, .per, .ck] x (setCourses a0 a1 a2 x) := by
  induction a2 generalizing x a0 a1 with
  | nil =>
    unfold setCourses
    repeat' first
      | with_reducible assumption
      | with_reducible apply OnlyChanges.refl
      | (extract_lets +onlyGivenNames y; guard_hyp y : State := Prod.snd _; subst y)
      | (extract_lets +onlyGivenNames y; guard_hyp y : State := _; apply OnlyChanges.cut y; (on_goal 1 => (unfold y; clear y)); (on_goal 2 => (intro hx; clear_value y)))
      | (extract_lets +onlyGivenNames y; guard_hyp y : _ × State := _; apply OnlyChanges.cutP y; (on_goal 1 => (unfold y; clear y)); (on_goal 2 => (intro hx; clear_value y)))
      | (extract_lets +onlyGivenNames y; guard_hyp y : _ × _ × State := _; apply OnlyChanges.cutPP y; (on_goal 1 => (unfold y; clear y)); (on_goal 2 => (intro hx; clear_value y)))
      | (extract_lets +onlyGivenNames y; guard_hyp y : Boxes := _; subst y)
      | (extract_lets +onlyGivenNames y; guard_hyp y : Power := _; subst y)
      | (extract_lets +onlyGivenNames y; guard_hyp y : Trans := _; subst y)
      | (extract_lets +onlyGivenNames y; guard_hyp y : Prot := _; subst y)
      | (extract_lets +onlyGivenNames y; guard_hyp y : Persist := _; subst y)
      | (extract_lets +onlyGivenNames y; guard_hyp y : Sgl := _; subst y)
      | (extract_lets +onlyGivenNames y; guard_hyp y : Sec := _; subst y)
      | (extract_lets +onlyGivenNames y; clear_value y)
      | extract_lets +onlyGivenNames y
      | with_reducible apply OnlyChanges.ite
      | (with_reducible apply OnlyChanges.step putCourse_frame; (on_goal 1 => decide))
      | split
  | cons b l ih =>
    unfold setCourses
    repeat' first
      | with_reducible assumption
      | with_reducible apply OnlyChanges.refl
      | (extract_lets +onlyGivenNames y; guard_hyp y : State := Prod.snd _; subst y)
      | (extract_lets +onlyGivenNames y; guard_hyp y : State := _; apply OnlyChanges.cut y; (on_goal 1 => (unfold y; clear y)); (on_goal 2 => (intro hx; clear_value y)))
      | (extract_lets +onlyGivenNames y; guard_hyp y : _ × State := _; apply OnlyChanges.cutP y; (on_goal 1 => (unfold y; clear y)); (on_goal 2 => (intro hx; clear_value y)))
      | (extract_lets +onlyGivenNames y; guard_hyp y : _ × _ × State := _; apply OnlyChanges.cutPP y; (on_goal 1 => (unfold y; clear y)); (on_goal 2 => (intro hx; clear_value y)))
      | (extract_lets +onlyGivenNames y; guard_hyp y : Boxes := _; subst y)
      | (extract_lets +onlyGivenNames y; guard_hyp y : Power := _; subst y)
      | (extract_lets +onlyGivenNames y; guard_hyp y : Trans := _; subst y)
      | (extract_lets +onlyGivenNames y; guard_hyp y : Prot := _; subst y)
      | (extract_lets +onlyGivenNames y; guard_hyp y : Persist := _; subst y)
      | (extract_lets +onlyGivenNames y; guard_hyp y : Sgl := _; subst y)
      | (extract_lets +onlyGivenNames y; guard_hyp y : Sec := _; subst y)
      | (extract_lets +onlyGivenNames y; clear_value y)
      | extract_lets +onlyGivenNames y
      | with_reducible apply OnlyChanges.ite
      | (with_reducible apply OnlyChanges.step putCourse_frame; (on_goal 1 => decide))
      | (with_reducible apply OnlyChanges.step ih; (on_goal 1 => decide))
      | split

theorem updateDegraded_frame  {x : State} : OnlyChanges [.pw, .evr, .prot, .dram, .cxlA, .cxlB, .outs] x (updateDegraded x) := by
  unfold updateDegraded
  repeat' first
    | with_reducible assumption
    | with_reducible apply OnlyChanges.refl
    | (extract_lets +onlyGivenNames y; guard_hyp y : State := Prod.snd _; subst y)
    | (extract_lets +onlyGivenNames y; guard_hyp y : State := _; apply OnlyChanges.cut y; (on_goal 1 => (unfold y; clear y)); (on_goal 2 => (intro hx; clear_value y)))
    | (extract_lets +onlyGivenNames y; guard_hyp y : _ × State := _; apply OnlyChanges.cutP y; (on_goal 1 => (unfold y; clear y)); (on_goal 2 => (intro hx; clear_value y)))
    | (extract_lets +onlyGivenNames y; guard_hyp y : _ × _ × State := _; apply OnlyChanges.cutPP y; (on_goal 1 => (unfold y; clear y)); (on_goal 2 => (intro hx; clear_value y)))
    | (extract_lets +onlyGivenNames y; guard_hyp y : Boxes := _; subst y)
    | (extract_lets +onlyGivenNames y; guard_hyp y : Power := _; subst y)
    | (extract_lets +onlyGivenNames y; guard_hyp y : Trans := _; subst y)
    | (extract_lets +onlyGivenNames y; guard_hyp y : Prot := _; subst y)
    | (extract_lets +onlyGivenNames y; guard_hyp y : Persist := _; subst y)
    | (extract_lets +onlyGivenNames y; guard_hyp y : Sgl := _; subst y)
    | (extract_lets +onlyGivenNames y; guard_hyp y : Sec := _; subst y)
    | (extract_lets +onlyGivenNames y; clear_value y)
    | extract_lets +onlyGivenNames y
    | with_reducible apply OnlyChanges.ite
    | (with_reducible apply OnlyChanges.step updateMode_frame; (on_goal 1 => decide))
    | split
    | (with_reducible apply OnlyChanges.upd512; (on_goal 1 => decide); (on_goal 1 => (first | exact Or.inr (by with_reducible rfl) | exact Or.inl (by decide) | exact Or.inr rfl)))

theorem endSurvey_frame  {x : State} : OnlyChanges [.dr] x (endSurvey x) := by
  unfold endSurvey
  repeat' first
    | with_reducible assumption
    | with_reducible apply OnlyChanges.refl
    | (extract_lets +onlyGivenNames y; guard_hyp y : State := Prod.snd _; subst y)
    | (extract_lets +onlyGivenNames y; guard_hyp y : State := _; apply OnlyChanges.cut y; (on_goal 1 => (unfold y; clear y)); (on_goal 2 => (intro hx; clear_value y)))
    | (extract_lets +onlyGivenNames y; guard_hyp y : _ × State := _; apply OnlyChanges.cutP y; (on_goal 1 => (unfold y; clear y)); (on_goal 2 => (intro hx; clear_value y)))
    | (extract_lets +onlyGivenNames y; guard_hyp y : _ × _ × State := _; apply OnlyChanges.cutPP y; (on_goal 1 => (unfold y; clear y)); (on_goal 2 => (intro hx; clear_value y)))
    | (extract_lets +onlyGivenNames y; guard_hyp y : Boxes := _; subst y)
    | (extract_lets +onlyGivenNames y; guard_hyp y : Power := _; subst y)
    | (extract_lets +onlyGivenNames y; guard_hyp y : Trans := _; subst y)
    | (extract_lets +onlyGivenNames y; guard_hyp y : Prot := _; subst y)
    | (extract_lets +onlyGivenNames y; guard_hyp y : Persist := _; subst y)
    | (extract_lets +onlyGivenNames y; guard_hyp y : Sgl := _; subst y)
    | (extract_lets +onlyGivenNames y; guard_hyp y : Sec := _; subst y)
    | (extract_lets +onlyGivenNames y; clear_value y)
    | extract_lets +onlyGivenNames y
    | with_reducible apply OnlyChanges.ite
    | split
    | (with_reducible apply OnlyChanges.upd256; (on_goal 1 => decide))

theorem toReclaim_frame {a0} {x : State} : OnlyChanges [.tr, .dr, .per, .ck] x (toReclaim a0 x) := by
  unfold toReclaim
  repeat' first
    | with_reducible assumption
    | with_reducible apply OnlyChanges.refl
    | (extract_lets +onlyGivenNames y; guard_hyp y : State := Prod.snd _; subst y)
    | (extract_lets +onlyGivenNames y; guard_hyp y : State := _; apply OnlyChanges.cut y; (on_goal 1 => (unfold y; clear y)); (on_goal 2 => (intro hx; clear_value y)))
    | (extract_lets +onlyGivenNames y; guard_hyp y : _ × State := _; apply OnlyChanges.cutP y; (on_goal 1 => (unfold y; clear y)); (on_goal 2 => (intro hx; clear_value y)))
    | (extract_lets +onlyGivenNames y; guard_hyp y : _ × _ × State := _; apply OnlyChanges.cutPP y; (on_goal 1 => (unfold y; clear y)); (on_goal 2 => (intro hx; clear_value y)))
    | (extract_lets +onlyGivenNames y; guard_hyp y : Boxes := _; subst y)
    | (extract_lets +onlyGivenNames y; guard_hyp y : Power := _; subst y)
    | (extract_lets +onlyGivenNames y; guard_hyp y : Trans := _; subst y)
    | (extract_lets +onlyGivenNames y; guard_hyp y : Prot := _; subst y)
    | (extract_lets +onlyGivenNames y; guard_hyp y : Persist := _; subst y)
    | (extract_lets +onlyGivenNames y; guard_hyp y : Sgl := _; subst y)
    | (extract_lets +onlyGivenNames y; guard_hyp y : Sec := _; subst y)
    | (extract_lets +onlyGivenNames y; clear_value y)
    | extract_lets +onlyGivenNames y
    | with_reducible apply OnlyChanges.ite
    | (with_reducible apply OnlyChanges.step setCourses_frame; (on_goal 1 => decide))
    | (with_reducible apply OnlyChanges.step endSurvey_frame; (on_goal 1 => decide))
    | (with_reducible apply OnlyChanges.step modStripe_frame; (on_goal 1 => decide))
    | split
    | (with_reducible apply OnlyChanges.upd256; (on_goal 1 => decide))

theorem updateTop_frame  {x : State} : OnlyChanges [.evr, .dr, .cxlA, .cxlB, .outs] x (updateTop x) := by
  unfold updateTop
  repeat' first
    | with_reducible assumption
    | with_reducible apply OnlyChanges.refl
    | (extract_lets +onlyGivenNames y; guard_hyp y : State := Prod.snd _; subst y)
    | (extract_lets +onlyGivenNames y; guard_hyp y : State := _; apply OnlyChanges.cut y; (on_goal 1 => (unfold y; clear y)); (on_goal 2 => (intro hx; clear_value y)))
    | (extract_lets +onlyGivenNames y; guard_hyp y : _ × State := _; apply OnlyChanges.cutP y; (on_goal 1 => (unfold y; clear y)); (on_goal 2 => (intro hx; clear_value y)))
    | (extract_lets +onlyGivenNames y; guard_hyp y : _ × _ × State := _; apply OnlyChanges.cutPP y; (on_goal 1 => (unfold y; clear y)); (on_goal 2 => (intro hx; clear_value y)))
    | (extract_lets +onlyGivenNames y; guard_hyp y : Boxes := _; subst y)
    | (extract_lets +onlyGivenNames y; guard_hyp y : Power := _; subst y)
    | (extract_lets +onlyGivenNames y; guard_hyp y : Trans := _; subst y)
    | (extract_lets +onlyGivenNames y; guard_hyp y : Prot := _; subst y)
    | (extract_lets +onlyGivenNames y; guard_hyp y : Persist := _; subst y)
    | (extract_lets +onlyGivenNames y; guard_hyp y : Sgl := _; subst y)
    | (extract_lets +onlyGivenNames y; guard_hyp y : Sec := _; subst y)
    | (extract_lets +onlyGivenNames y; clear_value y)
    | extract_lets +onlyGivenNames y
    | with_reducible apply OnlyChanges.ite
    | (with_reducible apply OnlyChanges.step event_frame; (on_goal 1 => decide))
    | split
    | (with_reducible apply OnlyChanges.upd256; (on_goal 1 => decide))

theorem invalidate_frame {a0} {a1} {x : State} : OnlyChanges [.tr] x (invalidate a0 a1 x) := by
  unfold invalidate
  repeat' first
    | with_reducible assumption
    | with_reducible apply OnlyChanges.refl
    | with_reducible apply OnlyChanges.ite
    | (with_reducible apply OnlyChanges.step modStripe_frame; (on_goal 1 => decide))
    | split

theorem releaseQ_frame {a0} {x : State} : OnlyChanges [.tr, .per, .ck] x (releaseQ a0 x) := by
  unfold releaseQ
  repeat' first
    | with_reducible assumption
    | with_reducible apply OnlyChanges.refl
    | with_reducible apply OnlyChanges.ite
    | (with_reducible apply OnlyChanges.step modStripe_frame; (on_goal 1 => decide))
    | (with_reducible apply OnlyChanges.step logOnly_frame; (on_goal 1 => decide))
    | (with_reducible apply OnlyChanges.foldl; (on_goal 2 => intro z a))
    | split

theorem discardWrite_frame {a0} {a1} {x : State} : OnlyChanges [.evr, .tr, .per, .ck, .cache, .dram, .cxlA, .cxlB, .outs] x (discardWrite a0 a1 x) := by
  unfold discardWrite
  repeat' first
    | with_reducible assumption
    | with_reducible apply OnlyChanges.refl
    | (extract_lets +onlyGivenNames y; guard_hyp y : State := Prod.snd _; subst y)
    | (extract_lets +onlyGivenNames y; guard_hyp y : State := _; apply OnlyChanges.cut y; (on_goal 1 => (unfold y; clear y)); (on_goal 2 => (intro hx; clear_value y)))
    | (extract_lets +onlyGivenNames y; guard_hyp y : _ × State := _; apply OnlyChanges.cutP y; (on_goal 1 => (unfold y; clear y)); (on_goal 2 => (intro hx; clear_value y)))
    | (extract_lets +onlyGivenNames y; guard_hyp y : _ × _ × State := _; apply OnlyChanges.cutPP y; (on_goal 1 => (unfold y; clear y)); (on_goal 2 => (intro hx; clear_value y)))
    | (extract_lets +onlyGivenNames y; guard_hyp y : Boxes := _; subst y)
    | (extract_lets +onlyGivenNames y; guard_hyp y : Power := _; subst y)
    | (extract_lets +onlyGivenNames y; guard_hyp y : Trans := _; subst y)
    | (extract_lets +onlyGivenNames y; guard_hyp y : Prot := _; subst y)
    | (extract_lets +onlyGivenNames y; guard_hyp y : Persist := _; subst y)
    | (extract_lets +onlyGivenNames y; guard_hyp y : Sgl := _; subst y)
    | (extract_lets +onlyGivenNames y; guard_hyp y : Sec := _; subst y)
    | (extract_lets +onlyGivenNames y; clear_value y)
    | extract_lets +onlyGivenNames y
    | with_reducible apply OnlyChanges.ite
    | (with_reducible apply OnlyChanges.step dropCopies_frame; (on_goal 1 => decide))
    | (with_reducible apply OnlyChanges.step poisonEntry_frame; (on_goal 1 => decide))
    | (with_reducible apply OnlyChanges.step dropSlot_frame; (on_goal 1 => decide))
    | split

theorem checkSpare_frame  {x : State} : OnlyChanges [.evr, .tr, .cxlA, .cxlB, .outs] x (checkSpare x) := by
  unfold checkSpare
  repeat' first
    | with_reducible assumption
    | with_reducible apply OnlyChanges.refl
    | (extract_lets +onlyGivenNames y; guard_hyp y : State := Prod.snd _; subst y)
    | (extract_lets +onlyGivenNames y; guard_hyp y : State := _; apply OnlyChanges.cut y; (on_goal 1 => (unfold y; clear y)); (on_goal 2 => (intro hx; clear_value y)))
    | (extract_lets +onlyGivenNames y; guard_hyp y : _ × State := _; apply OnlyChanges.cutP y; (on_goal 1 => (unfold y; clear y)); (on_goal 2 => (intro hx; clear_value y)))
    | (extract_lets +onlyGivenNames y; guard_hyp y : _ × _ × State := _; apply OnlyChanges.cutPP y; (on_goal 1 => (unfold y; clear y)); (on_goal 2 => (intro hx; clear_value y)))
    | (extract_lets +onlyGivenNames y; guard_hyp y : Boxes := _; subst y)
    | (extract_lets +onlyGivenNames y; guard_hyp y : Power := _; subst y)
    | (extract_lets +onlyGivenNames y; guard_hyp y : Trans := _; subst y)
    | (extract_lets +onlyGivenNames y; guard_hyp y : Prot := _; subst y)
    | (extract_lets +onlyGivenNames y; guard_hyp y : Persist := _; subst y)
    | (extract_lets +onlyGivenNames y; guard_hyp y : Sgl := _; subst y)
    | (extract_lets +onlyGivenNames y; guard_hyp y : Sec := _; subst y)
    | (extract_lets +onlyGivenNames y; clear_value y)
    | extract_lets +onlyGivenNames y
    | with_reducible apply OnlyChanges.ite
    | (with_reducible apply OnlyChanges.step event_frame; (on_goal 1 => decide))
    | split
    | (with_reducible apply OnlyChanges.upd128; (on_goal 1 => decide); (on_goal 1 => (first | exact Or.inr (by with_reducible rfl) | exact Or.inl (by decide) | exact Or.inr rfl)))

theorem padOut_frame {a0} {x : State} : OnlyChanges [.tr, .per, .ck, .freeCtr] x (padOut a0 x) := by
  unfold padOut
  repeat' first
    | with_reducible assumption
    | with_reducible apply OnlyChanges.refl
    | with_reducible apply OnlyChanges.ite
    | (with_reducible apply OnlyChanges.step padTo_frame; (on_goal 1 => decide))
    | (with_reducible apply OnlyChanges.step startRounds_frame; (on_goal 1 => decide))
    | split

theorem findRoom_frame {a0} {a1} {a2} {a3} {x : State} : OnlyChangesP [.tr, .per, .ck] x (findRoom a0 a1 a2 a3 x) := by
  induction a3 generalizing x a0 a1 a2 with
  | nil =>
    unfold findRoom
    repeat' first
      | with_reducible assumption
      | with_reducible apply OnlyChanges.refl
      | (extract_lets +onlyGivenNames y; guard_hyp y : State := Prod.snd _; subst y)
      | (extract_lets +onlyGivenNames y; guard_hyp y : State := _; apply OnlyChangesP.cut y; (on_goal 1 => (unfold y; clear y)); (on_goal 2 => (intro hx; clear_value y)))
      | (extract_lets +onlyGivenNames y; guard_hyp y : _ × State := _; apply OnlyChangesP.cutP y; (on_goal 1 => (unfold y; clear y)); (on_goal 2 => (intro hx; clear_value y)))
      | (extract_lets +onlyGivenNames y; guard_hyp y : _ × _ × State := _; apply OnlyChangesP.cutPP y; (on_goal 1 => (unfold y; clear y)); (on_goal 2 => (intro hx; clear_value y)))
      | (extract_lets +onlyGivenNames y; guard_hyp y : Boxes := _; subst y)
      | (extract_lets +onlyGivenNames y; guard_hyp y : Power := _; subst y)
      | (extract_lets +onlyGivenNames y; guard_hyp y : Trans := _; subst y)
      | (extract_lets +onlyGivenNames y; guard_hyp y : Prot := _; subst y)
      | (extract_lets +onlyGivenNames y; guard_hyp y : Persist := _; subst y)
      | (extract_lets +onlyGivenNames y; guard_hyp y : Sgl := _; subst y)
      | (extract_lets +onlyGivenNames y; guard_hyp y : Sec := _; subst y)
      | (extract_lets +onlyGivenNames y; clear_value y)
      | extract_lets +onlyGivenNames y
      | with_reducible apply OnlyChanges.ite
      | with_reducible apply OnlyChangesP.ite
      | (with_reducible apply OnlyChanges.step openStripe_frame; (on_goal 1 => decide))
      | split
      | with_reducible apply OnlyChangesP.mk
  | cons b l ih =>
    unfold findRoom
    repeat' first
      | with_reducible assumption
      | with_reducible apply OnlyChanges.refl
      | (extract_lets +onlyGivenNames y; guard_hyp y : State := Prod.snd _; subst y)
      | (extract_lets +onlyGivenNames y; guard_hyp y : State := _; apply OnlyChangesP.cut y; (on_goal 1 => (unfold y; clear y)); (on_goal 2 => (intro hx; clear_value y)))
      | (extract_lets +onlyGivenNames y; guard_hyp y : _ × State := _; apply OnlyChangesP.cutP y; (on_goal 1 => (unfold y; clear y)); (on_goal 2 => (intro hx; clear_value y)))
      | (extract_lets +onlyGivenNames y; guard_hyp y : _ × _ × State := _; apply OnlyChangesP.cutPP y; (on_goal 1 => (unfold y; clear y)); (on_goal 2 => (intro hx; clear_value y)))
      | (extract_lets +onlyGivenNames y; guard_hyp y : Boxes := _; subst y)
      | (extract_lets +onlyGivenNames y; guard_hyp y : Power := _; subst y)
      | (extract_lets +onlyGivenNames y; guard_hyp y : Trans := _; subst y)
      | (extract_lets +onlyGivenNames y; guard_hyp y : Prot := _; subst y)
      | (extract_lets +onlyGivenNames y; guard_hyp y : Persist := _; subst y)
      | (extract_lets +onlyGivenNames y; guard_hyp y : Sgl := _; subst y)
      | (extract_lets +onlyGivenNames y; guard_hyp y : Sec := _; subst y)
      | (extract_lets +onlyGivenNames y; clear_value y)
      | extract_lets +onlyGivenNames y
      | with_reducible apply OnlyChanges.ite
      | with_reducible apply OnlyChangesP.ite
      | (with_reducible apply OnlyChanges.step openStripe_frame; (on_goal 1 => decide))
      | (with_reducible apply OnlyChangesP.step ih; (on_goal 1 => decide))
      | (with_reducible apply OnlyChangesP.snd ih; (on_goal 1 => decide))
      | split
      | with_reducible apply OnlyChangesP.mk

theorem chooseDrain_frame {a0} {x : State} : OnlyChangesP [.tr, .per, .ck, .freeCtr] x (chooseDrain a0 x) := by
  unfold chooseDrain
  repeat' first
    | with_reducible assumption
    | with_reducible apply OnlyChanges.refl
    | (extract_lets +onlyGivenNames y; guard_hyp y : State := Prod.snd _; subst y)
    | (extract_lets +onlyGivenNames y; guard_hyp y : State := _; apply OnlyChangesP.cut y; (on_goal 1 => (unfold y; clear y)); (on_goal 2 => (intro hx; clear_value y)))
    | (extract_lets +onlyGivenNames y; guard_hyp y : _ × State := _; apply OnlyChangesP.cutP y; (on_goal 1 => (unfold y; clear y)); (on_goal 2 => (intro hx; clear_value y)))
    | (extract_lets +onlyGivenNames y; guard_hyp y : _ × _ × State := _; apply OnlyChangesP.cutPP y; (on_goal 1 => (unfold y; clear y)); (on_goal 2 => (intro hx; clear_value y)))
    | (extract_lets +onlyGivenNames y; guard_hyp y : Boxes := _; subst y)
    | (extract_lets +onlyGivenNames y; guard_hyp y : Power := _; subst y)
    | (extract_lets +onlyGivenNames y; guard_hyp y : Trans := _; subst y)
    | (extract_lets +onlyGivenNames y; guard_hyp y : Prot := _; subst y)
    | (extract_lets +onlyGivenNames y; guard_hyp y : Persist := _; subst y)
    | (extract_lets +onlyGivenNames y; guard_hyp y : Sgl := _; subst y)
    | (extract_lets +onlyGivenNames y; guard_hyp y : Sec := _; subst y)
    | (extract_lets +onlyGivenNames y; clear_value y)
    | extract_lets +onlyGivenNames y
    | with_reducible apply OnlyChanges.ite
    | with_reducible apply OnlyChangesP.ite
    | (with_reducible apply OnlyChanges.step padOut_frame; (on_goal 1 => decide))
    | (with_reducible apply OnlyChanges.step openStripe_frame; (on_goal 1 => decide))
    | (with_reducible apply OnlyChangesP.step findRoom_frame; (on_goal 1 => decide))
    | (with_reducible apply OnlyChangesP.snd findRoom_frame; (on_goal 1 => decide))
    | (with_reducible apply OnlyChanges.step modStripe_frame; (on_goal 1 => decide))
    | (with_reducible apply OnlyChanges.ofPair; (on_goal 1 => assumption))
    | split
    | with_reducible apply OnlyChangesP.mk

theorem stageSlot_frame {a0} {a1} {x : State} : OnlyChanges [.tr, .per, .ck, .freeCtr] x (stageSlot a0 a1 x) := by
  unfold stageSlot
  repeat' first
    | with_reducible assumption
    | with_reducible apply OnlyChanges.refl
    | (extract_lets +onlyGivenNames y; guard_hyp y : State := Prod.snd _; subst y)
    | (extract_lets +onlyGivenNames y; guard_hyp y : State := _; apply OnlyChanges.cut y; (on_goal 1 => (unfold y; clear y)); (on_goal 2 => (intro hx; clear_value y)))
    | (extract_lets +onlyGivenNames y; guard_hyp y : _ × State := _; apply OnlyChanges.cutP y; (on_goal 1 => (unfold y; clear y)); (on_goal 2 => (intro hx; clear_value y)))
    | (extract_lets +onlyGivenNames y; guard_hyp y : _ × _ × State := _; apply OnlyChanges.cutPP y; (on_goal 1 => (unfold y; clear y)); (on_goal 2 => (intro hx; clear_value y)))
    | (extract_lets +onlyGivenNames y; guard_hyp y : Boxes := _; subst y)
    | (extract_lets +onlyGivenNames y; guard_hyp y : Power := _; subst y)
    | (extract_lets +onlyGivenNames y; guard_hyp y : Trans := _; subst y)
    | (extract_lets +onlyGivenNames y; guard_hyp y : Prot := _; subst y)
    | (extract_lets +onlyGivenNames y; guard_hyp y : Persist := _; subst y)
    | (extract_lets +onlyGivenNames y; guard_hyp y : Sgl := _; subst y)
    | (extract_lets +onlyGivenNames y; guard_hyp y : Sec := _; subst y)
    | (extract_lets +onlyGivenNames y; clear_value y)
    | extract_lets +onlyGivenNames y
    | with_reducible apply OnlyChanges.ite
    | (with_reducible apply OnlyChangesP.step chooseDrain_frame; (on_goal 1 => decide))
    | (with_reducible apply OnlyChangesP.snd chooseDrain_frame; (on_goal 1 => decide))
    | (with_reducible apply OnlyChanges.step mapChange_frame; (on_goal 1 => decide))
    | (with_reducible apply OnlyChanges.step invalidate_frame; (on_goal 1 => decide))
    | (with_reducible apply OnlyChangesP.step placeSector_frame; (on_goal 1 => decide))
    | (with_reducible apply OnlyChangesP.snd placeSector_frame; (on_goal 1 => decide))
    | (with_reducible apply OnlyChanges.ofPair; (on_goal 1 => assumption))
    | split
    | (with_reducible apply OnlyChanges.upd128; (on_goal 1 => decide); (on_goal 1 => (first | exact Or.inr (by with_reducible rfl) | exact Or.inl (by decide) | exact Or.inr rfl)))

theorem restageLines_frame {a0} {x : State} : OnlyChanges [.tr, .per, .ck, .freeCtr] x (restageLines a0 x) := by
  unfold restageLines
  repeat' first
    | with_reducible assumption
    | with_reducible apply OnlyChanges.refl
    | (extract_lets +onlyGivenNames y; guard_hyp y : State := Prod.snd _; subst y)
    | (extract_lets +onlyGivenNames y; guard_hyp y : State := _; apply OnlyChanges.cut y; (on_goal 1 => (unfold y; clear y)); (on_goal 2 => (intro hx; clear_value y)))
    | (extract_lets +onlyGivenNames y; guard_hyp y : _ × State := _; apply OnlyChanges.cutP y; (on_goal 1 => (unfold y; clear y)); (on_goal 2 => (intro hx; clear_value y)))
    | (extract_lets +onlyGivenNames y; guard_hyp y : _ × _ × State := _; apply OnlyChanges.cutPP y; (on_goal 1 => (unfold y; clear y)); (on_goal 2 => (intro hx; clear_value y)))
    | (extract_lets +onlyGivenNames y; guard_hyp y : Boxes := _; subst y)
    | (extract_lets +onlyGivenNames y; guard_hyp y : Power := _; subst y)
    | (extract_lets +onlyGivenNames y; guard_hyp y : Trans := _; subst y)
    | (extract_lets +onlyGivenNames y; guard_hyp y : Prot := _; subst y)
    | (extract_lets +onlyGivenNames y; guard_hyp y : Persist := _; subst y)
    | (extract_lets +onlyGivenNames y; guard_hyp y : Sgl := _; subst y)
    | (extract_lets +onlyGivenNames y; guard_hyp y : Sec := _; subst y)
    | (extract_lets +onlyGivenNames y; clear_value y)
    | extract_lets +onlyGivenNames y
    | with_reducible apply OnlyChanges.ite
    | (with_reducible apply OnlyChanges.step stageSlot_frame; (on_goal 1 => decide))
    | (with_reducible apply OnlyChanges.foldl; (on_goal 2 => intro z a))
    | (with_reducible apply OnlyChangesP.foldl; (on_goal 2 => intro z a))
    | split
    | (with_reducible apply OnlyChanges.upd128; (on_goal 1 => decide); (on_goal 1 => (first | exact Or.inr (by with_reducible rfl) | exact Or.inl (by decide) | exact Or.inr rfl)))

theorem restageMeta_frame {a0} {x : State} : OnlyChanges [.tr, .per, .ck, .freeCtr] x (restageMeta a0 x) := by
  unfold restageMeta
  repeat' first
    | with_reducible assumption
    | with_reducible apply OnlyChanges.refl
    | with_reducible apply OnlyChanges.ite
    | (with_reducible apply OnlyChanges.step metaPages_frame; (on_goal 1 => decide))
    | (with_reducible apply OnlyChanges.foldl; (on_goal 2 => intro z a))
    | (with_reducible apply OnlyChangesP.foldl; (on_goal 2 => intro z a))
    | split

theorem placeBack_frame {a0} {x : State} : OnlyChanges [.tr, .per, .ck, .freeCtr] x (placeBack a0 x) := by
  unfold placeBack
  repeat' first
    | with_reducible assumption
    | with_reducible apply OnlyChanges.refl
    | (extract_lets +onlyGivenNames y; guard_hyp y : State := Prod.snd _; subst y)
    | (extract_lets +onlyGivenNames y; guard_hyp y : State := _; apply OnlyChanges.cut y; (on_goal 1 => (unfold y; clear y)); (on_goal 2 => (intro hx; clear_value y)))
    | (extract_lets +onlyGivenNames y; guard_hyp y : _ × State := _; apply OnlyChanges.cutP y; (on_goal 1 => (unfold y; clear y)); (on_goal 2 => (intro hx; clear_value y)))
    | (extract_lets +onlyGivenNames y; guard_hyp y : _ × _ × State := _; apply OnlyChanges.cutPP y; (on_goal 1 => (unfold y; clear y)); (on_goal 2 => (intro hx; clear_value y)))
    | (extract_lets +onlyGivenNames y; guard_hyp y : Boxes := _; subst y)
    | (extract_lets +onlyGivenNames y; guard_hyp y : Power := _; subst y)
    | (extract_lets +onlyGivenNames y; guard_hyp y : Trans := _; subst y)
    | (extract_lets +onlyGivenNames y; guard_hyp y : Prot := _; subst y)
    | (extract_lets +onlyGivenNames y; guard_hyp y : Persist := _; subst y)
    | (extract_lets +onlyGivenNames y; guard_hyp y : Sgl := _; subst y)
    | (extract_lets +onlyGivenNames y; guard_hyp y : Sec := _; subst y)
    | (extract_lets +onlyGivenNames y; clear_value y)
    | extract_lets +onlyGivenNames y
    | with_reducible apply OnlyChanges.ite
    | (with_reducible apply OnlyChangesP.step chooseDrain_frame; (on_goal 1 => decide))
    | (with_reducible apply OnlyChangesP.snd chooseDrain_frame; (on_goal 1 => decide))
    | (with_reducible apply OnlyChangesP.step placeSector_frame; (on_goal 1 => decide))
    | (with_reducible apply OnlyChangesP.snd placeSector_frame; (on_goal 1 => decide))
    | (with_reducible apply OnlyChanges.ofPair; (on_goal 1 => assumption))
    | split
    | (with_reducible apply OnlyChanges.upd128; (on_goal 1 => decide); (on_goal 1 => (first | exact Or.inr (by with_reducible rfl) | exact Or.inl (by decide) | exact Or.inr rfl)))

theorem placeBacks_frame  {x : State} : OnlyChanges [.tr, .per, .ck, .freeCtr] x (placeBacks x) := by
  unfold placeBacks
  repeat' first
    | with_reducible assumption
    | with_reducible apply OnlyChanges.refl
    | with_reducible apply OnlyChanges.ite
    | (with_reducible apply OnlyChanges.step placeBack_frame; (on_goal 1 => decide))
    | (with_reducible apply OnlyChanges.foldl; (on_goal 2 => intro z a))
    | (with_reducible apply OnlyChangesP.foldl; (on_goal 2 => intro z a))
    | split

theorem restageBacks_frame {a0} {x : State} : OnlyChanges [.tr, .per, .ck, .freeCtr] x (restageBacks a0 x) := by
  unfold restageBacks
  repeat' first
    | with_reducible assumption
    | with_reducible apply OnlyChanges.refl
    | (extract_lets +onlyGivenNames y; guard_hyp y : State := Prod.snd _; subst y)
    | (extract_lets +onlyGivenNames y; guard_hyp y : State := _; apply OnlyChanges.cut y; (on_goal 1 => (unfold y; clear y)); (on_goal 2 => (intro hx; clear_value y)))
    | (extract_lets +onlyGivenNames y; guard_hyp y : _ × State := _; apply OnlyChanges.cutP y; (on_goal 1 => (unfold y; clear y)); (on_goal 2 => (intro hx; clear_value y)))
    | (extract_lets +onlyGivenNames y; guard_hyp y : _ × _ × State := _; apply OnlyChanges.cutPP y; (on_goal 1 => (unfold y; clear y)); (on_goal 2 => (intro hx; clear_value y)))
    | (extract_lets +onlyGivenNames y; guard_hyp y : Boxes := _; subst y)
    | (extract_lets +onlyGivenNames y; guard_hyp y : Power := _; subst y)
    | (extract_lets +onlyGivenNames y; guard_hyp y : Trans := _; subst y)
    | (extract_lets +onlyGivenNames y; guard_hyp y : Prot := _; subst y)
    | (extract_lets +onlyGivenNames y; guard_hyp y : Persist := _; subst y)
    | (extract_lets +onlyGivenNames y; guard_hyp y : Sgl := _; subst y)
    | (extract_lets +onlyGivenNames y; guard_hyp y : Sec := _; subst y)
    | (extract_lets +onlyGivenNames y; clear_value y)
    | extract_lets +onlyGivenNames y
    | with_reducible apply OnlyChanges.ite
    | (with_reducible apply OnlyChanges.step placeBacks_frame; (on_goal 1 => decide))
    | split
    | (with_reducible apply OnlyChanges.upd128; (on_goal 1 => decide); (on_goal 1 => (first | exact Or.inr (by with_reducible rfl) | exact Or.inl (by decide) | exact Or.inr rfl)))

theorem restageQ_frame {a0} {x : State} : OnlyChanges [.tr, .per, .ck] x (restageQ a0 x) := by
  unfold restageQ
  repeat' first
    | with_reducible assumption
    | with_reducible apply OnlyChanges.refl
    | with_reducible apply OnlyChanges.ite
    | (with_reducible apply OnlyChangesP.step formQ_frame; (on_goal 1 => decide))
    | (with_reducible apply OnlyChangesP.snd formQ_frame; (on_goal 1 => decide))
    | (with_reducible apply OnlyChanges.foldl; (on_goal 2 => intro z a))
    | (with_reducible apply OnlyChangesP.foldl; (on_goal 2 => intro z a))
    | (with_reducible apply OnlyChanges.ofPair; (on_goal 1 => assumption))
    | split

theorem restage_frame {a0} {x : State} : OnlyChanges [.tr, .per, .ck, .freeCtr] x (restage a0 x) := by
  unfold restage
  repeat' first
    | with_reducible assumption
    | with_reducible apply OnlyChanges.refl
    | with_reducible apply OnlyChanges.ite
    | (with_reducible apply OnlyChanges.step restageLines_frame; (on_goal 1 => decide))
    | (with_reducible apply OnlyChanges.step restageMeta_frame; (on_goal 1 => decide))
    | (with_reducible apply OnlyChanges.step restageBacks_frame; (on_goal 1 => decide))
    | (with_reducible apply OnlyChanges.step restageQ_frame; (on_goal 1 => decide))
    | split

theorem loseMember_frame {a0} {a1} {x : State} : OnlyChanges [.tr, .per, .ck, .freeCtr] x (loseMember a0 a1 x) := by
  unfold loseMember
  repeat' first
    | with_reducible assumption
    | with_reducible apply OnlyChanges.refl
    | (extract_lets +onlyGivenNames y; guard_hyp y : State := Prod.snd _; subst y)
    | (extract_lets +onlyGivenNames y; guard_hyp y : State := _; apply OnlyChanges.cut y; (on_goal 1 => (unfold y; clear y)); (on_goal 2 => (intro hx; clear_value y)))
    | (extract_lets +onlyGivenNames y; guard_hyp y : _ × State := _; apply OnlyChanges.cutP y; (on_goal 1 => (unfold y; clear y)); (on_goal 2 => (intro hx; clear_value y)))
    | (extract_lets +onlyGivenNames y; guard_hyp y : _ × _ × State := _; apply OnlyChanges.cutPP y; (on_goal 1 => (unfold y; clear y)); (on_goal 2 => (intro hx; clear_value y)))
    | (extract_lets +onlyGivenNames y; guard_hyp y : Boxes := _; subst y)
    | (extract_lets +onlyGivenNames y; guard_hyp y : Power := _; subst y)
    | (extract_lets +onlyGivenNames y; guard_hyp y : Trans := _; subst y)
    | (extract_lets +onlyGivenNames y; guard_hyp y : Prot := _; subst y)
    | (extract_lets +onlyGivenNames y; guard_hyp y : Persist := _; subst y)
    | (extract_lets +onlyGivenNames y; guard_hyp y : Sgl := _; subst y)
    | (extract_lets +onlyGivenNames y; guard_hyp y : Sec := _; subst y)
    | (extract_lets +onlyGivenNames y; clear_value y)
    | extract_lets +onlyGivenNames y
    | with_reducible apply OnlyChanges.ite
    | (with_reducible apply OnlyChanges.step restage_frame; (on_goal 1 => decide))
    | (with_reducible apply OnlyChanges.step modStripe_frame; (on_goal 1 => decide))
    | split
    | (with_reducible apply OnlyChanges.upd128; (on_goal 1 => decide); (on_goal 1 => (first | exact Or.inr (by with_reducible rfl) | exact Or.inl (by decide) | exact Or.inr rfl)))

theorem consumeSpare_frame {a0} {x : State} : OnlyChanges [.evr, .tr, .cxlA, .cxlB, .outs] x (consumeSpare a0 x) := by
  unfold consumeSpare
  repeat' first
    | with_reducible assumption
    | with_reducible apply OnlyChanges.refl
    | (extract_lets +onlyGivenNames y; guard_hyp y : State := Prod.snd _; subst y)
    | (extract_lets +onlyGivenNames y; guard_hyp y : State := _; apply OnlyChanges.cut y; (on_goal 1 => (unfold y; clear y)); (on_goal 2 => (intro hx; clear_value y)))
    | (extract_lets +onlyGivenNames y; guard_hyp y : _ × State := _; apply OnlyChanges.cutP y; (on_goal 1 => (unfold y; clear y)); (on_goal 2 => (intro hx; clear_value y)))
    | (extract_lets +onlyGivenNames y; guard_hyp y : _ × _ × State := _; apply OnlyChanges.cutPP y; (on_goal 1 => (unfold y; clear y)); (on_goal 2 => (intro hx; clear_value y)))
    | (extract_lets +onlyGivenNames y; guard_hyp y : Boxes := _; subst y)
    | (extract_lets +onlyGivenNames y; guard_hyp y : Power := _; subst y)
    | (extract_lets +onlyGivenNames y; guard_hyp y : Trans := _; subst y)
    | (extract_lets +onlyGivenNames y; guard_hyp y : Prot := _; subst y)
    | (extract_lets +onlyGivenNames y; guard_hyp y : Persist := _; subst y)
    | (extract_lets +onlyGivenNames y; guard_hyp y : Sgl := _; subst y)
    | (extract_lets +onlyGivenNames y; guard_hyp y : Sec := _; subst y)
    | (extract_lets +onlyGivenNames y; clear_value y)
    | extract_lets +onlyGivenNames y
    | with_reducible apply OnlyChanges.ite
    | (with_reducible apply OnlyChanges.step checkSpare_frame; (on_goal 1 => decide))
    | split
    | (with_reducible apply OnlyChanges.upd128; (on_goal 1 => decide); (on_goal 1 => (first | exact Or.inr (by with_reducible rfl) | exact Or.inl (by decide) | exact Or.inr rfl)))

theorem dropClaims_frame {a0} {a1} {x : State} : OnlyChanges [.sched] x (dropClaims a0 a1 x) := by
  unfold dropClaims
  repeat' first
    | with_reducible assumption
    | with_reducible apply OnlyChanges.refl
    | (extract_lets +onlyGivenNames y; guard_hyp y : State := Prod.snd _; subst y)
    | (extract_lets +onlyGivenNames y; guard_hyp y : State := _; apply OnlyChanges.cut y; (on_goal 1 => (unfold y; clear y)); (on_goal 2 => (intro hx; clear_value y)))
    | (extract_lets +onlyGivenNames y; guard_hyp y : _ × State := _; apply OnlyChanges.cutP y; (on_goal 1 => (unfold y; clear y)); (on_goal 2 => (intro hx; clear_value y)))
    | (extract_lets +onlyGivenNames y; guard_hyp y : _ × _ × State := _; apply OnlyChanges.cutPP y; (on_goal 1 => (unfold y; clear y)); (on_goal 2 => (intro hx; clear_value y)))
    | (extract_lets +onlyGivenNames y; guard_hyp y : Boxes := _; subst y)
    | (extract_lets +onlyGivenNames y; guard_hyp y : Power := _; subst y)
    | (extract_lets +onlyGivenNames y; guard_hyp y : Trans := _; subst y)
    | (extract_lets +onlyGivenNames y; guard_hyp y : Prot := _; subst y)
    | (extract_lets +onlyGivenNames y; guard_hyp y : Persist := _; subst y)
    | (extract_lets +onlyGivenNames y; guard_hyp y : Sgl := _; subst y)
    | (extract_lets +onlyGivenNames y; guard_hyp y : Sec := _; subst y)
    | (extract_lets +onlyGivenNames y; clear_value y)
    | extract_lets +onlyGivenNames y
    | with_reducible apply OnlyChanges.ite
    | split
    | (with_reducible apply OnlyChanges.upd64; (on_goal 1 => decide))

theorem loseDie_frame {a0} {a1} {x : State} : OnlyChanges [.evr, .sched, .tr, .prot, .per, .ck, .cxlA, .cxlB, .freeCtr, .outs, .lostDie] x (loseDie a0 a1 x) := by
  unfold loseDie
  repeat' first
    | with_reducible assumption
    | with_reducible apply OnlyChanges.refl
    | (extract_lets +onlyGivenNames y; guard_hyp y : State := Prod.snd _; subst y)
    | (extract_lets +onlyGivenNames y; guard_hyp y : State := _; apply OnlyChanges.cut y; (on_goal 1 => (unfold y; clear y)); (on_goal 2 => (intro hx; clear_value y)))
    | (extract_lets +onlyGivenNames y; guard_hyp y : _ × State := _; apply OnlyChanges.cutP y; (on_goal 1 => (unfold y; clear y)); (on_goal 2 => (intro hx; clear_value y)))
    | (extract_lets +onlyGivenNames y; guard_hyp y : _ × _ × State := _; apply OnlyChanges.cutPP y; (on_goal 1 => (unfold y; clear y)); (on_goal 2 => (intro hx; clear_value y)))
    | (extract_lets +onlyGivenNames y; guard_hyp y : Boxes := _; subst y)
    | (extract_lets +onlyGivenNames y; guard_hyp y : Power := _; subst y)
    | (extract_lets +onlyGivenNames y; guard_hyp y : Trans := _; subst y)
    | (extract_lets +onlyGivenNames y; guard_hyp y : Prot := _; subst y)
    | (extract_lets +onlyGivenNames y; guard_hyp y : Persist := _; subst y)
    | (extract_lets +onlyGivenNames y; guard_hyp y : Sgl := _; subst y)
    | (extract_lets +onlyGivenNames y; guard_hyp y : Sec := _; subst y)
    | (extract_lets +onlyGivenNames y; clear_value y)
    | extract_lets +onlyGivenNames y
    | with_reducible apply OnlyChanges.ite
    | (with_reducible apply OnlyChanges.step loseMember_frame; (on_goal 1 => decide))
    | (with_reducible apply OnlyChanges.step consumeSpare_frame; (on_goal 1 => decide))
    | (with_reducible apply OnlyChanges.step dropClaims_frame; (on_goal 1 => decide))
    | (with_reducible apply OnlyChanges.foldl; (on_goal 2 => intro z a))
    | (with_reducible apply OnlyChangesP.foldl; (on_goal 2 => intro z a))
    | split
    | (with_reducible apply OnlyChanges.upd512; (on_goal 1 => decide); (on_goal 1 => (first | exact Or.inr (by with_reducible rfl) | exact Or.inl (by decide) | exact Or.inr rfl)))

theorem padClosing_frame  {x : State} : OnlyChanges [.tr, .per, .ck, .freeCtr] x (padClosing x) := by
  unfold padClosing
  repeat' first
    | with_reducible assumption
    | with_reducible apply OnlyChanges.refl
    | (extract_lets +onlyGivenNames y; guard_hyp y : State := Prod.snd _; subst y)
    | (extract_lets +onlyGivenNames y; guard_hyp y : State := _; apply OnlyChanges.cut y; (on_goal 1 => (unfold y; clear y)); (on_goal 2 => (intro hx; clear_value y)))
    | (extract_lets +onlyGivenNames y; guard_hyp y : _ × State := _; apply OnlyChanges.cutP y; (on_goal 1 => (unfold y; clear y)); (on_goal 2 => (intro hx; clear_value y)))
    | (extract_lets +onlyGivenNames y; guard_hyp y : _ × _ × State := _; apply OnlyChanges.cutPP y; (on_goal 1 => (unfold y; clear y)); (on_goal 2 => (intro hx; clear_value y)))
    | (extract_lets +onlyGivenNames y; guard_hyp y : Boxes := _; subst y)
    | (extract_lets +onlyGivenNames y; guard_hyp y : Power := _; subst y)
    | (extract_lets +onlyGivenNames y; guard_hyp y : Trans := _; subst y)
    | (extract_lets +onlyGivenNames y; guard_hyp y : Prot := _; subst y)
    | (extract_lets +onlyGivenNames y; guard_hyp y : Persist := _; subst y)
    | (extract_lets +onlyGivenNames y; guard_hyp y : Sgl := _; subst y)
    | (extract_lets +onlyGivenNames y; guard_hyp y : Sec := _; subst y)
    | (extract_lets +onlyGivenNames y; clear_value y)
    | extract_lets +onlyGivenNames y
    | with_reducible apply OnlyChanges.ite
    | (with_reducible apply OnlyChanges.step padAndStart_frame; (on_goal 1 => decide))
    | (with_reducible apply OnlyChanges.foldl; (on_goal 2 => intro z a))
    | (with_reducible apply OnlyChangesP.foldl; (on_goal 2 => intro z a))
    | split

theorem drainFail_frame {a0} {a1} {x : State} : OnlyChanges [.evr, .tr, .per, .ck, .cxlA, .cxlB, .freeCtr, .outs] x (drainFail a0 a1 x) := by
  unfold drainFail
  repeat' first
    | with_reducible assumption
    | with_reducible apply OnlyChanges.refl
    | (extract_lets +onlyGivenNames y; guard_hyp y : State := Prod.snd _; subst y)
    | (extract_lets +onlyGivenNames y; guard_hyp y : State := _; apply OnlyChanges.cut y; (on_goal 1 => (unfold y; clear y)); (on_goal 2 => (intro hx; clear_value y)))
    | (extract_lets +onlyGivenNames y; guard_hyp y : _ × State := _; apply OnlyChanges.cutP y; (on_goal 1 => (unfold y; clear y)); (on_goal 2 => (intro hx; clear_value y)))
    | (extract_lets +onlyGivenNames y; guard_hyp y : _ × _ × State := _; apply OnlyChanges.cutPP y; (on_goal 1 => (unfold y; clear y)); (on_goal 2 => (intro hx; clear_value y)))
    | (extract_lets +onlyGivenNames y; guard_hyp y : Boxes := _; subst y)
    | (extract_lets +onlyGivenNames y; guard_hyp y : Power := _; subst y)
    | (extract_lets +onlyGivenNames y; guard_hyp y : Trans := _; subst y)
    | (extract_lets +onlyGivenNames y; guard_hyp y : Prot := _; subst y)
    | (extract_lets +onlyGivenNames y; guard_hyp y : Persist := _; subst y)
    | (extract_lets +onlyGivenNames y; guard_hyp y : Sgl := _; subst y)
    | (extract_lets +onlyGivenNames y; guard_hyp y : Sec := _; subst y)
    | (extract_lets +onlyGivenNames y; clear_value y)
    | extract_lets +onlyGivenNames y
    | with_reducible apply OnlyChanges.ite
    | (with_reducible apply OnlyChanges.step padClosing_frame; (on_goal 1 => decide))
    | (with_reducible apply OnlyChanges.step restage_frame; (on_goal 1 => decide))
    | (with_reducible apply OnlyChanges.step event_frame; (on_goal 1 => decide))
    | (with_reducible apply OnlyChanges.step modStripe_frame; (on_goal 1 => decide))
    | (with_reducible apply OnlyChanges.step putCourse_frame; (on_goal 1 => decide))
    | split

theorem retirePartition_frame {a0} {a1} {a2} {x : State} : OnlyChanges [.pw, .evr, .sched, .tr, .prot, .per, .ck, .dram, .cxlA, .cxlB, .freeCtr, .outs, .lostDie] x (retirePartition a0 a1 a2 x) := by
  unfold retirePartition
  repeat' first
    | with_reducible assumption
    | with_reducible apply OnlyChanges.refl
    | (extract_lets +onlyGivenNames y; guard_hyp y : State := Prod.snd _; subst y)
    | (extract_lets +onlyGivenNames y; guard_hyp y : State := _; apply OnlyChanges.cut y; (on_goal 1 => (unfold y; clear y)); (on_goal 2 => (intro hx; clear_value y)))
    | (extract_lets +onlyGivenNames y; guard_hyp y : _ × State := _; apply OnlyChanges.cutP y; (on_goal 1 => (unfold y; clear y)); (on_goal 2 => (intro hx; clear_value y)))
    | (extract_lets +onlyGivenNames y; guard_hyp y : _ × _ × State := _; apply OnlyChanges.cutPP y; (on_goal 1 => (unfold y; clear y)); (on_goal 2 => (intro hx; clear_value y)))
    | (extract_lets +onlyGivenNames y; guard_hyp y : Boxes := _; subst y)
    | (extract_lets +onlyGivenNames y; guard_hyp y : Power := _; subst y)
    | (extract_lets +onlyGivenNames y; guard_hyp y : Trans := _; subst y)
    | (extract_lets +onlyGivenNames y; guard_hyp y : Prot := _; subst y)
    | (extract_lets +onlyGivenNames y; guard_hyp y : Persist := _; subst y)
    | (extract_lets +onlyGivenNames y; guard_hyp y : Sgl := _; subst y)
    | (extract_lets +onlyGivenNames y; guard_hyp y : Sec := _; subst y)
    | (extract_lets +onlyGivenNames y; clear_value y)
    | extract_lets +onlyGivenNames y
    | with_reducible apply OnlyChanges.ite
    | (with_reducible apply OnlyChanges.step updateDegraded_frame; (on_goal 1 => decide))
    | (with_reducible apply OnlyChanges.step loseDie_frame; (on_goal 1 => decide))
    | split
    | (with_reducible apply OnlyChanges.upd128; (on_goal 1 => decide); (on_goal 1 => (first | exact Or.inr (by with_reducible rfl) | exact Or.inl (by decide) | exact Or.inr rfl)))

theorem copyFail_frame {a0} {a1} {x : State} : OnlyChanges [.evr, .tr, .dr, .per, .ck, .cxlA, .cxlB, .outs] x (copyFail a0 a1 x) := by
  unfold copyFail
  repeat' first
    | with_reducible assumption
    | with_reducible apply OnlyChanges.refl
    | (extract_lets +onlyGivenNames y; guard_hyp y : State := Prod.snd _; subst y)
    | (extract_lets +onlyGivenNames y; guard_hyp y : State := _; apply OnlyChanges.cut y; (on_goal 1 => (unfold y; clear y)); (on_goal 2 => (intro hx; clear_value y)))
    | (extract_lets +onlyGivenNames y; guard_hyp y : _ × State := _; apply OnlyChanges.cutP y; (on_goal 1 => (unfold y; clear y)); (on_goal 2 => (intro hx; clear_value y)))
    | (extract_lets +onlyGivenNames y; guard_hyp y : _ × _ × State := _; apply OnlyChanges.cutPP y; (on_goal 1 => (unfold y; clear y)); (on_goal 2 => (intro hx; clear_value y)))
    | (extract_lets +onlyGivenNames y; guard_hyp y : Boxes := _; subst y)
    | (extract_lets +onlyGivenNames y; guard_hyp y : Power := _; subst y)
    | (extract_lets +onlyGivenNames y; guard_hyp y : Trans := _; subst y)
    | (extract_lets +onlyGivenNames y; guard_hyp y : Prot := _; subst y)
    | (extract_lets +onlyGivenNames y; guard_hyp y : Persist := _; subst y)
    | (extract_lets +onlyGivenNames y; guard_hyp y : Sgl := _; subst y)
    | (extract_lets +onlyGivenNames y; guard_hyp y : Sec := _; subst y)
    | (extract_lets +onlyGivenNames y; clear_value y)
    | extract_lets +onlyGivenNames y
    | with_reducible apply OnlyChanges.ite
    | (with_reducible apply OnlyChanges.step toReclaim_frame; (on_goal 1 => decide))
    | (with_reducible apply OnlyChanges.step updateTop_frame; (on_goal 1 => decide))
    | (with_reducible apply OnlyChanges.step modStripe_frame; (on_goal 1 => decide))
    | (with_reducible apply OnlyChanges.step releaseQ_frame; (on_goal 1 => decide))
    | (with_reducible apply OnlyChanges.step putCourse_frame; (on_goal 1 => decide))
    | split
    | (with_reducible apply OnlyChanges.upd128; (on_goal 1 => decide); (on_goal 1 => (first | exact Or.inr (by with_reducible rfl) | exact Or.inl (by decide) | exact Or.inr rfl)))

theorem courseFail_frame {a0} {a1} {x : State} : OnlyChanges [.evr, .tr, .dr, .per, .ck, .cxlA, .cxlB, .freeCtr, .outs] x (courseFail a0 a1 x) := by
  unfold courseFail
  repeat' first
    | with_reducible assumption
    | with_reducible apply OnlyChanges.refl
    | with_reducible apply OnlyChanges.ite
    | (with_reducible apply OnlyChanges.step drainFail_frame; (on_goal 1 => decide))
    | (with_reducible apply OnlyChanges.step copyFail_frame; (on_goal 1 => decide))
    | split

theorem stageOrDiscard_frame {a0} {x : State} : OnlyChanges [.evr, .tr, .per, .ck, .cache, .dram, .cxlA, .cxlB, .freeCtr, .outs] x (stageOrDiscard a0 x) := by
  unfold stageOrDiscard
  repeat' first
    | with_reducible assumption
    | with_reducible apply OnlyChanges.refl
    | (extract_lets +onlyGivenNames y; guard_hyp y : State := Prod.snd _; subst y)
    | (extract_lets +onlyGivenNames y; guard_hyp y : State := _; apply OnlyChanges.cut y; (on_goal 1 => (unfold y; clear y)); (on_goal 2 => (intro hx; clear_value y)))
    | (extract_lets +onlyGivenNames y; guard_hyp y : _ × State := _; apply OnlyChanges.cutP y; (on_goal 1 => (unfold y; clear y)); (on_goal 2 => (intro hx; clear_value y)))
    | (extract_lets +onlyGivenNames y; guard_hyp y : _ × _ × State := _; apply OnlyChanges.cutPP y; (on_goal 1 => (unfold y; clear y)); (on_goal 2 => (intro hx; clear_value y)))
    | (extract_lets +onlyGivenNames y; guard_hyp y : Boxes := _; subst y)
    | (extract_lets +onlyGivenNames y; guard_hyp y : Power := _; subst y)
    | (extract_lets +onlyGivenNames y; guard_hyp y : Trans := _; subst y)
    | (extract_lets +onlyGivenNames y; guard_hyp y : Prot := _; subst y)
    | (extract_lets +onlyGivenNames y; guard_hyp y : Persist := _; subst y)
    | (extract_lets +onlyGivenNames y; guard_hyp y : Sgl := _; subst y)
    | (extract_lets +onlyGivenNames y; guard_hyp y : Sec := _; subst y)
    | (extract_lets +onlyGivenNames y; clear_value y)
    | extract_lets +onlyGivenNames y
    | with_reducible apply OnlyChanges.ite
    | (with_reducible apply OnlyChangesP.step chooseDrain_frame; (on_goal 1 => decide))
    | (with_reducible apply OnlyChangesP.snd chooseDrain_frame; (on_goal 1 => decide))
    | (with_reducible apply OnlyChanges.step discardWrite_frame; (on_goal 1 => decide))
    | (with_reducible apply OnlyChanges.step stageSlot_frame; (on_goal 1 => decide))
    | (with_reducible apply OnlyChanges.ofPair; (on_goal 1 => assumption))
    | split

end Sys2Proof.Machine
end

