-- ==== Sys2Proof/Laws/FrameMedium.lean ====
section
/-! SUPPORT. The parts of the state that each operation of Machine/Medium.lean may change; every other part it leaves
alone. -/

set_option linter.all false

namespace Sys2Proof.Machine

theorem addReader_frame {a0} {a1} {x : State} : OnlyChanges [.sched] x (addReader a0 a1 x) := by
  unfold addReader
  repeat' first
    | with_reducible assumption
    | with_reducible apply OnlyChanges.refl
    | (extract_lets +onlyGivenNames y; guard_hyp y : State := Prod.snd _; subst y)
    | (extract_lets +onlyGivenNames y; guard_hyp y : State := _; apply OnlyChanges.cut y; (on_goal 1 => (unfold y; clear y)); (on_goal 2 => (intro hx; clear_value y)))
    | (extract_lets +onlyGivenNames y; guard_hyp y : _ × State := _; apply OnlyChanges.cutP y; (on_goal 1 => (unfold y; clear y)); (on_goal 2 => (intro hx; clear_value y)))
    | (extract_lets +onlyGivenNames y; guard_hyp y : _ × _ × State := _; apply OnlyChanges.cutPP y; (on_goal 1 => (unfold y; clear y)); (on_goal 2 => (intro hx; clear_value y)))
    | (extract_lets +onlyGivenNames y; guard_hyp y : Boxes := _; subst y)
    | (extract_lets +onlyGivenNames y; guard_hyp y : Power := _; subst y)
    | (extract_lets +onlyGivenNames y; guard_hyp y : Trans := _; subst y)
    | (extract_lets +onlyGivenNames y; guard_hyp y : Prot := _; subst y)
    | (extract_lets +onlyGivenNames y; guard_hyp y : Persist := _; subst y)
    | (extract_lets +onlyGivenNames y; guard_hyp y : Sgl := _; subst y)
    | (extract_lets +onlyGivenNames y; guard_hyp y : Sec := _; subst y)
    | (extract_lets +onlyGivenNames y; clear_value y)
    | extract_lets +onlyGivenNames y
    | with_reducible apply OnlyChanges.ite
    | split
    | (with_reducible apply OnlyChanges.upd64; (on_goal 1 => decide))

theorem queueReadAt_frame {a0} {a1} {a2} {a3} {x : State} : OnlyChangesP [.sched] x (queueReadAt a0 a1 a2 a3 x) := by
  unfold queueReadAt
  repeat' first
    | with_reducible assumption
    | with_reducible apply OnlyChanges.refl
    | (extract_lets +onlyGivenNames y; guard_hyp y : State := Prod.snd _; subst y)
    | (extract_lets +onlyGivenNames y; guard_hyp y : State := _; apply OnlyChangesP.cut y; (on_goal 1 => (unfold y; clear y)); (on_goal 2 => (intro hx; clear_value y)))
    | (extract_lets +onlyGivenNames y; guard_hyp y : _ × State := _; apply OnlyChangesP.cutP y; (on_goal 1 => (unfold y; clear y)); (on_goal 2 => (intro hx; clear_value y)))
    | (extract_lets +onlyGivenNames y; guard_hyp y : _ × _ × State := _; apply OnlyChangesP.cutPP y; (on_goal 1 => (unfold y; clear y)); (on_goal 2 => (intro hx; clear_value y)))
    | (extract_lets +onlyGivenNames y; guard_hyp y : Boxes := _; subst y)
    | (extract_lets +onlyGivenNames y; guard_hyp y : Power := _; subst y)
    | (extract_lets +onlyGivenNames y; guard_hyp y : Trans := _; subst y)
    | (extract_lets +onlyGivenNames y; guard_hyp y : Prot := _; subst y)
    | (extract_lets +onlyGivenNames y; guard_hyp y : Persist := _; subst y)
    | (extract_lets +onlyGivenNames y; guard_hyp y : Sgl := _; subst y)
    | (extract_lets +onlyGivenNames y; guard_hyp y : Sec := _; subst y)
    | (extract_lets +onlyGivenNames y; clear_value y)
    | extract_lets +onlyGivenNames y
    | with_reducible apply OnlyChanges.ite
    | with_reducible apply OnlyChangesP.ite
    | (with_reducible apply OnlyChanges.step addReader_frame; (on_goal 1 => decide))
    | split
    | with_reducible apply OnlyChangesP.mk
    | (with_reducible apply OnlyChanges.upd64; (on_goal 1 => decide))

theorem queueRead_frame {a0} {a1} {a2} {x : State} : OnlyChangesP [.sched] x (queueRead a0 a1 a2 x) := by
  unfold queueRead
  repeat' first
    | with_reducible assumption
    | with_reducible apply OnlyChanges.refl
    | with_reducible apply OnlyChanges.ite
    | with_reducible apply OnlyChangesP.ite
    | (with_reducible apply OnlyChangesP.step queueReadAt_frame; (on_goal 1 => decide))
    | (with_reducible apply OnlyChangesP.snd queueReadAt_frame; (on_goal 1 => decide))
    | (with_reducible apply OnlyChanges.ofPair; (on_goal 1 => assumption))
    | split
    | with_reducible apply OnlyChangesP.mk

theorem countSlice_frame {a0} {a1} {x : State} : OnlyChanges [.pmc, .freeCtr, .outs] x (countSlice a0 a1 x) := by
  unfold countSlice
  repeat' first
    | with_reducible assumption
    | with_reducible apply OnlyChanges.refl
    | with_reducible apply OnlyChanges.ite
    | (with_reducible apply OnlyChanges.step count_frame; (on_goal 1 => decide))
    | split

theorem dropReader_frame {a0} {a1} {x : State} : OnlyChanges [.sched] x (dropReader a0 a1 x) := by
  unfold dropReader
  repeat' first
    | with_reducible assumption
    | with_reducible apply OnlyChanges.refl
    | (extract_lets +onlyGivenNames y; guard_hyp y : State := Prod.snd _; subst y)
    | (extract_lets +onlyGivenNames y; guard_hyp y : State := _; apply OnlyChanges.cut y; (on_goal 1 => (unfold y; clear y)); (on_goal 2 => (intro hx; clear_value y)))
    | (extract_lets +onlyGivenNames y; guard_hyp y : _ × State := _; apply OnlyChanges.cutP y; (on_goal 1 => (unfold y; clear y)); (on_goal 2 => (intro hx; clear_value y)))
    | (extract_lets +onlyGivenNames y; guard_hyp y : _ × _ × State := _; apply OnlyChanges.cutPP y; (on_goal 1 => (unfold y; clear y)); (on_goal 2 => (intro hx; clear_value y)))
    | (extract_lets +onlyGivenNames y; guard_hyp y : Boxes := _; subst y)
    | (extract_lets +onlyGivenNames y; guard_hyp y : Power := _; subst y)
    | (extract_lets +onlyGivenNames y; guard_hyp y : Trans := _; subst y)
    | (extract_lets +onlyGivenNames y; guard_hyp y : Prot := _; subst y)
    | (extract_lets +onlyGivenNames y; guard_hyp y : Persist := _; subst y)
    | (extract_lets +onlyGivenNames y; guard_hyp y : Sgl := _; subst y)
    | (extract_lets +onlyGivenNames y; guard_hyp y : Sec := _; subst y)
    | (extract_lets +onlyGivenNames y; clear_value y)
    | extract_lets +onlyGivenNames y
    | with_reducible apply OnlyChanges.ite
    | split
    | (with_reducible apply OnlyChanges.upd64; (on_goal 1 => decide))

theorem retireRead_frame {a0} {x : State} : OnlyChanges [.sched] x (retireRead a0 x) := by
  unfold retireRead
  repeat' first
    | with_reducible assumption
    | with_reducible apply OnlyChanges.refl
    | (extract_lets +onlyGivenNames y; guard_hyp y : State := Prod.snd _; subst y)
    | (extract_lets +onlyGivenNames y; guard_hyp y : State := _; apply OnlyChanges.cut y; (on_goal 1 => (unfold y; clear y)); (on_goal 2 => (intro hx; clear_value y)))
    | (extract_lets +onlyGivenNames y; guard_hyp y : _ × State := _; apply OnlyChanges.cutP y; (on_goal 1 => (unfold y; clear y)); (on_goal 2 => (intro hx; clear_value y)))
    | (extract_lets +onlyGivenNames y; guard_hyp y : _ × _ × State := _; apply OnlyChanges.cutPP y; (on_goal 1 => (unfold y; clear y)); (on_goal 2 => (intro hx; clear_value y)))
    | (extract_lets +onlyGivenNames y; guard_hyp y : Boxes := _; subst y)
    | (extract_lets +onlyGivenNames y; guard_hyp y : Power := _; subst y)
    | (extract_lets +onlyGivenNames y; guard_hyp y : Trans := _; subst y)
    | (extract_lets +onlyGivenNames y; guard_hyp y : Prot := _; subst y)
    | (extract_lets +onlyGivenNames y; guard_hyp y : Persist := _; subst y)
    | (extract_lets +onlyGivenNames y; guard_hyp y : Sgl := _; subst y)
    | (extract_lets +onlyGivenNames y; guard_hyp y : Sec := _; subst y)
    | (extract_lets +onlyGivenNames y; clear_value y)
    | extract_lets +onlyGivenNames y
    | with_reducible apply OnlyChanges.ite
    | (with_reducible apply OnlyChanges.step dropReader_frame; (on_goal 1 => decide))
    | split
    | (with_reducible apply OnlyChanges.upd64; (on_goal 1 => decide))

theorem modRead_frame {a0} {a1} {x : State} : OnlyChanges [.sched] x (modRead a0 a1 x) := by
  unfold modRead
  repeat' first
    | with_reducible assumption
    | with_reducible apply OnlyChanges.refl
    | (extract_lets +onlyGivenNames y; guard_hyp y : State := Prod.snd _; subst y)
    | (extract_lets +onlyGivenNames y; guard_hyp y : State := _; apply OnlyChanges.cut y; (on_goal 1 => (unfold y; clear y)); (on_goal 2 => (intro hx; clear_value y)))
    | (extract_lets +onlyGivenNames y; guard_hyp y : _ × State := _; apply OnlyChanges.cutP y; (on_goal 1 => (unfold y; clear y)); (on_goal 2 => (intro hx; clear_value y)))
    | (extract_lets +onlyGivenNames y; guard_hyp y : _ × _ × State := _; apply OnlyChanges.cutPP y; (on_goal 1 => (unfold y; clear y)); (on_goal 2 => (intro hx; clear_value y)))
    | (extract_lets +onlyGivenNames y; guard_hyp y : Boxes := _; subst y)
    | (extract_lets +onlyGivenNames y; guard_hyp y : Power := _; subst y)
    | (extract_lets +onlyGivenNames y; guard_hyp y : Trans := _; subst y)
    | (extract_lets +onlyGivenNames y; guard_hyp y : Prot := _; subst y)
    | (extract_lets +onlyGivenNames y; guard_hyp y : Persist := _; subst y)
    | (extract_lets +onlyGivenNames y; guard_hyp y : Sgl := _; subst y)
    | (extract_lets +onlyGivenNames y; guard_hyp y : Sec := _; subst y)
    | (extract_lets +onlyGivenNames y; clear_value y)
    | extract_lets +onlyGivenNames y
    | with_reducible apply OnlyChanges.ite
    | split
    | (with_reducible apply OnlyChanges.upd64; (on_goal 1 => decide))

theorem finishWriteBack_frame {a0} {a1} {x : State} : OnlyChanges [.tr, .per, .ck] x (finishWriteBack a0 a1 x) := by
  unfold finishWriteBack
  repeat' first
    | with_reducible assumption
    | with_reducible apply OnlyChanges.refl
    | (extract_lets +onlyGivenNames y; guard_hyp y : State := Prod.snd _; subst y)
    | (extract_lets +onlyGivenNames y; guard_hyp y : State := _; apply OnlyChanges.cut y; (on_goal 1 => (unfold y; clear y)); (on_goal 2 => (intro hx; clear_value y)))
    | (extract_lets +onlyGivenNames y; guard_hyp y : _ × State := _; apply OnlyChanges.cutP y; (on_goal 1 => (unfold y; clear y)); (on_goal 2 => (intro hx; clear_value y)))
    | (extract_lets +onlyGivenNames y; guard_hyp y : _ × _ × State := _; apply OnlyChanges.cutPP y; (on_goal 1 => (unfold y; clear y)); (on_goal 2 => (intro hx; clear_value y)))
    | (extract_lets +onlyGivenNames y; guard_hyp y : Boxes := _; subst y)
    | (extract_lets +onlyGivenNames y; guard_hyp y : Power := _; subst y)
    | (extract_lets +onlyGivenNames y; guard_hyp y : Trans := _; subst y)
    | (extract_lets +onlyGivenNames y; guard_hyp y : Prot := _; subst y)
    | (extract_lets +onlyGivenNames y; guard_hyp y : Persist := _; subst y)
    | (extract_lets +onlyGivenNames y; guard_hyp y : Sgl := _; subst y)
    | (extract_lets +onlyGivenNames y; guard_hyp y : Sec := _; subst y)
    | (extract_lets +onlyGivenNames y; clear_value y)
    | extract_lets +onlyGivenNames y
    | with_reducible apply OnlyChanges.ite
    | (with_reducible apply OnlyChanges.step invalidate_frame; (on_goal 1 => decide))
    | (with_reducible apply OnlyChanges.step mapOpen_frame; (on_goal 1 => decide))
    | split
    | (with_reducible apply OnlyChanges.upd128; (on_goal 1 => decide); (on_goal 1 => (first | exact Or.inr (by with_reducible rfl) | exact Or.inl (by decide) | exact Or.inr rfl)))

theorem finishBacks_frame  {x : State} : OnlyChanges [.tr, .per, .ck] x (finishBacks x) := by
  unfold finishBacks
  repeat' first
    | with_reducible assumption
    | with_reducible apply OnlyChanges.refl
    | with_reducible apply OnlyChanges.ite
    | (with_reducible apply OnlyChanges.step finishWriteBack_frame; (on_goal 1 => decide))
    | (with_reducible apply OnlyChanges.foldl; (on_goal 2 => intro z a))
    | (with_reducible apply OnlyChangesP.foldl; (on_goal 2 => intro z a))
    | split

theorem endSlot_frame {a1} {x : State} : OnlyChanges [.sched] x (endSlot x a1) := by
  unfold endSlot
  repeat' first
    | with_reducible assumption
    | with_reducible apply OnlyChanges.refl
    | (extract_lets +onlyGivenNames y; guard_hyp y : State := Prod.snd _; subst y)
    | (extract_lets +onlyGivenNames y; guard_hyp y : State := _; apply OnlyChanges.cut y; (on_goal 1 => (unfold y; clear y)); (on_goal 2 => (intro hx; clear_value y)))
    | (extract_lets +onlyGivenNames y; guard_hyp y : _ × State := _; apply OnlyChanges.cutP y; (on_goal 1 => (unfold y; clear y)); (on_goal 2 => (intro hx; clear_value y)))
    | (extract_lets +onlyGivenNames y; guard_hyp y : _ × _ × State := _; apply OnlyChanges.cutPP y; (on_goal 1 => (unfold y; clear y)); (on_goal 2 => (intro hx; clear_value y)))
    | (extract_lets +onlyGivenNames y; guard_hyp y : Boxes := _; subst y)
    | (extract_lets +onlyGivenNames y; guard_hyp y : Power := _; subst y)
    | (extract_lets +onlyGivenNames y; guard_hyp y : Trans := _; subst y)
    | (extract_lets +onlyGivenNames y; guard_hyp y : Prot := _; subst y)
    | (extract_lets +onlyGivenNames y; guard_hyp y : Persist := _; subst y)
    | (extract_lets +onlyGivenNames y; guard_hyp y : Sgl := _; subst y)
    | (extract_lets +onlyGivenNames y; guard_hyp y : Sec := _; subst y)
    | (extract_lets +onlyGivenNames y; clear_value y)
    | extract_lets +onlyGivenNames y
    | with_reducible apply OnlyChanges.ite
    | split
    | (with_reducible apply OnlyChanges.upd64; (on_goal 1 => decide))

theorem passSlots_frame  {x : State} : OnlyChanges [.sched] x (passSlots x) := by
  unfold passSlots
  repeat' first
    | with_reducible assumption
    | with_reducible apply OnlyChanges.refl
    | with_reducible apply OnlyChanges.ite
    | (with_reducible apply OnlyChanges.step endSlot_frame; (on_goal 1 => decide))
    | (with_reducible apply OnlyChanges.foldl; (on_goal 2 => intro z a))
    | (with_reducible apply OnlyChangesP.foldl; (on_goal 2 => intro z a))
    | split

theorem releaseSpare_frame {a0} {a1} {x : State} : OnlyChanges [.tr] x (releaseSpare a0 a1 x) := by
  unfold releaseSpare
  repeat' first
    | with_reducible assumption
    | with_reducible apply OnlyChanges.refl
    | (extract_lets +onlyGivenNames y; guard_hyp y : State := Prod.snd _; subst y)
    | (extract_lets +onlyGivenNames y; guard_hyp y : State := _; apply OnlyChanges.cut y; (on_goal 1 => (unfold y; clear y)); (on_goal 2 => (intro hx; clear_value y)))
    | (extract_lets +onlyGivenNames y; guard_hyp y : _ × State := _; apply OnlyChanges.cutP y; (on_goal 1 => (unfold y; clear y)); (on_goal 2 => (intro hx; clear_value y)))
    | (extract_lets +onlyGivenNames y; guard_hyp y : _ × _ × State := _; apply OnlyChanges.cutPP y; (on_goal 1 => (unfold y; clear y)); (on_goal 2 => (intro hx; clear_value y)))
    | (extract_lets +onlyGivenNames y; guard_hyp y : Boxes := _; subst y)
    | (extract_lets +onlyGivenNames y; guard_hyp y : Power := _; subst y)
    | (extract_lets +onlyGivenNames y; guard_hyp y : Trans := _; subst y)
    | (extract_lets +onlyGivenNames y; guard_hyp y : Prot := _; subst y)
    | (extract_lets +onlyGivenNames y; guard_hyp y : Persist := _; subst y)
    | (extract_lets +onlyGivenNames y; guard_hyp y : Sgl := _; subst y)
    | (extract_lets +onlyGivenNames y; guard_hyp y : Sec := _; subst y)
    | (extract_lets +onlyGivenNames y; clear_value y)
    | extract_lets +onlyGivenNames y
    | with_reducible apply OnlyChanges.ite
    | split
    | (with_reducible apply OnlyChanges.upd128; (on_goal 1 => decide); (on_goal 1 => (first | exact Or.inr (by with_reducible rfl) | exact Or.inl (by decide) | exact Or.inr rfl)))

theorem setBusy_frame {a0} {a1} {a2} {x : State} : OnlyChanges [.sched] x (setBusy a0 a1 a2 x) := by
  unfold setBusy
  repeat' first
    | with_reducible assumption
    | with_reducible apply OnlyChanges.refl
    | (extract_lets +onlyGivenNames y; guard_hyp y : State := Prod.snd _; subst y)
    | (extract_lets +onlyGivenNames y; guard_hyp y : State := _; apply OnlyChanges.cut y; (on_goal 1 => (unfold y; clear y)); (on_goal 2 => (intro hx; clear_value y)))
    | (extract_lets +onlyGivenNames y; guard_hyp y : _ × State := _; apply OnlyChanges.cutP y; (on_goal 1 => (unfold y; clear y)); (on_goal 2 => (intro hx; clear_value y)))
    | (extract_lets +onlyGivenNames y; guard_hyp y : _ × _ × State := _; apply OnlyChanges.cutPP y; (on_goal 1 => (unfold y; clear y)); (on_goal 2 => (intro hx; clear_value y)))
    | (extract_lets +onlyGivenNames y; guard_hyp y : Boxes := _; subst y)
    | (extract_lets +onlyGivenNames y; guard_hyp y : Power := _; subst y)
    | (extract_lets +onlyGivenNames y; guard_hyp y : Trans := _; subst y)
    | (extract_lets +onlyGivenNames y; guard_hyp y : Prot := _; subst y)
    | (extract_lets +onlyGivenNames y; guard_hyp y : Persist := _; subst y)
    | (extract_lets +onlyGivenNames y; guard_hyp y : Sgl := _; subst y)
    | (extract_lets +onlyGivenNames y; guard_hyp y : Sec := _; subst y)
    | (extract_lets +onlyGivenNames y; clear_value y)
    | extract_lets +onlyGivenNames y
    | with_reducible apply OnlyChanges.ite
    | split
    | (with_reducible apply OnlyChanges.upd64; (on_goal 1 => decide))

theorem suspendFor_frame {a0} {a1} {a2} {x : State} : OnlyChanges [.sched, .outs] x (suspendFor a0 a1 a2 x) := by
  unfold suspendFor
  repeat' first
    | with_reducible assumption
    | with_reducible apply OnlyChanges.refl
    | (extract_lets +onlyGivenNames y; guard_hyp y : State := Prod.snd _; subst y)
    | (extract_lets +onlyGivenNames y; guard_hyp y : State := _; apply OnlyChanges.cut y; (on_goal 1 => (unfold y; clear y)); (on_goal 2 => (intro hx; clear_value y)))
    | (extract_lets +onlyGivenNames y; guard_hyp y : _ × State := _; apply OnlyChanges.cutP y; (on_goal 1 => (unfold y; clear y)); (on_goal 2 => (intro hx; clear_value y)))
    | (extract_lets +onlyGivenNames y; guard_hyp y : _ × _ × State := _; apply OnlyChanges.cutPP y; (on_goal 1 => (unfold y; clear y)); (on_goal 2 => (intro hx; clear_value y)))
    | (extract_lets +onlyGivenNames y; guard_hyp y : Boxes := _; subst y)
    | (extract_lets +onlyGivenNames y; guard_hyp y : Power := _; subst y)
    | (extract_lets +onlyGivenNames y; guard_hyp y : Trans := _; subst y)
    | (extract_lets +onlyGivenNames y; guard_hyp y : Prot := _; subst y)
    | (extract_lets +onlyGivenNames y; guard_hyp y : Persist := _; subst y)
    | (extract_lets +onlyGivenNames y; guard_hyp y : Sgl := _; subst y)
    | (extract_lets +onlyGivenNames y; guard_hyp y : Sec := _; subst y)
    | (extract_lets +onlyGivenNames y; clear_value y)
    | extract_lets +onlyGivenNames y
    | with_reducible apply OnlyChanges.ite
    | (with_reducible apply OnlyChanges.step setBusy_frame; (on_goal 1 => decide))
    | (with_reducible apply OnlyChanges.step emit_frame; (on_goal 1 => decide))
    | split

theorem countConfirmed_frame {a0} {a1} {x : State} : OnlyChanges [.pmc, .freeCtr, .outs] x (countConfirmed a0 a1 x) := by
  unfold countConfirmed
  repeat' first
    | with_reducible assumption
    | with_reducible apply OnlyChanges.refl
    | with_reducible apply OnlyChanges.ite
    | (with_reducible apply OnlyChanges.step countSlice_frame; (on_goal 1 => decide))
    | split

theorem reserveSlot_frame {a0} {a1} {a2} {x : State} : OnlyChanges [.sched] x (reserveSlot a0 a1 a2 x) := by
  unfold reserveSlot
  repeat' first
    | with_reducible assumption
    | with_reducible apply OnlyChanges.refl
    | (extract_lets +onlyGivenNames y; guard_hyp y : State := Prod.snd _; subst y)
    | (extract_lets +onlyGivenNames y; guard_hyp y : State := _; apply OnlyChanges.cut y; (on_goal 1 => (unfold y; clear y)); (on_goal 2 => (intro hx; clear_value y)))
    | (extract_lets +onlyGivenNames y; guard_hyp y : _ × State := _; apply OnlyChanges.cutP y; (on_goal 1 => (unfold y; clear y)); (on_goal 2 => (intro hx; clear_value y)))
    | (extract_lets +onlyGivenNames y; guard_hyp y : _ × _ × State := _; apply OnlyChanges.cutPP y; (on_goal 1 => (unfold y; clear y)); (on_goal 2 => (intro hx; clear_value y)))
    | (extract_lets +onlyGivenNames y; guard_hyp y : Boxes := _; subst y)
    | (extract_lets +onlyGivenNames y; guard_hyp y : Power := _; subst y)
    | (extract_lets +onlyGivenNames y; guard_hyp y : Trans := _; subst y)
    | (extract_lets +onlyGivenNames y; guard_hyp y : Prot := _; subst y)
    | (extract_lets +onlyGivenNames y; guard_hyp y : Persist := _; subst y)
    | (extract_lets +onlyGivenNames y; guard_hyp y : Sgl := _; subst y)
    | (extract_lets +onlyGivenNames y; guard_hyp y : Sec := _; subst y)
    | (extract_lets +onlyGivenNames y; clear_value y)
    | extract_lets +onlyGivenNames y
    | with_reducible apply OnlyChanges.ite
    | split
    | (with_reducible apply OnlyChanges.upd64; (on_goal 1 => decide))

theorem reserveSlots_frame {a0} {a1} {a2} {a3} {x : State} : OnlyChanges [.sched] x (reserveSlots a0 a1 a2 a3 x) := by
  induction a3 generalizing x a0 a1 a2 with
  | nil =>
    unfold reserveSlots
    repeat' first
      | with_reducible assumption
      | with_reducible apply OnlyChanges.refl
      | with_reducible apply OnlyChanges.ite
      | (with_reducible apply OnlyChanges.step reserveSlot_frame; (on_goal 1 => decide))
      | split
  | cons b l ih =>
    unfold reserveSlots
    repeat' first
      | with_reducible assumption
      | with_reducible apply OnlyChanges.refl
      | with_reducible apply OnlyChanges.ite
      | (with_reducible apply OnlyChanges.step reserveSlot_frame; (on_goal 1 => decide))
      | (with_reducible apply OnlyChanges.step ih; (on_goal 1 => decide))
      | split

theorem bumpReads_frame {a0} {a1} {a2} {a3} {x : State} : OnlyChanges [.sched] x (bumpReads a0 a1 a2 a3 x) := by
  unfold bumpReads
  repeat' first
    | with_reducible assumption
    | with_reducible apply OnlyChanges.refl
    | (extract_lets +onlyGivenNames y; guard_hyp y : State := Prod.snd _; subst y)
    | (extract_lets +onlyGivenNames y; guard_hyp y : State := _; apply OnlyChanges.cut y; (on_goal 1 => (unfold y; clear y)); (on_goal 2 => (intro hx; clear_value y)))
    | (extract_lets +onlyGivenNames y; guard_hyp y : _ × State := _; apply OnlyChanges.cutP y; (on_goal 1 => (unfold y; clear y)); (on_goal 2 => (intro hx; clear_value y)))
    | (extract_lets +onlyGivenNames y; guard_hyp y : _ × _ × State := _; apply OnlyChanges.cutPP y; (on_goal 1 => (unfold y; clear y)); (on_goal 2 => (intro hx; clear_value y)))
    | (extract_lets +onlyGivenNames y; guard_hyp y : Boxes := _; subst y)
    | (extract_lets +onlyGivenNames y; guard_hyp y : Power := _; subst y)
    | (extract_lets +onlyGivenNames y; guard_hyp y : Trans := _; subst y)
    | (extract_lets +onlyGivenNames y; guard_hyp y : Prot := _; subst y)
    | (extract_lets +onlyGivenNames y; guard_hyp y : Persist := _; subst y)
    | (extract_lets +onlyGivenNames y; guard_hyp y : Sgl := _; subst y)
    | (extract_lets +onlyGivenNames y; guard_hyp y : Sec := _; subst y)
    | (extract_lets +onlyGivenNames y; clear_value y)
    | extract_lets +onlyGivenNames y
    | with_reducible apply OnlyChanges.ite
    | split
    | (with_reducible apply OnlyChanges.upd64; (on_goal 1 => decide))

theorem startSenses_frame {a0} {a1} {x : State} : OnlyChanges [.sched, .outs] x (startSenses a0 a1 x) := by
  induction a1 generalizing x a0 with
  | nil =>
    unfold startSenses
    repeat' first
      | with_reducible assumption
      | with_reducible apply OnlyChanges.refl
      | with_reducible apply OnlyChanges.ite
      | (with_reducible apply OnlyChanges.step emit_frame; (on_goal 1 => decide))
      | (with_reducible apply OnlyChanges.step bumpReads_frame; (on_goal 1 => decide))
      | (with_reducible apply OnlyChanges.foldl; (on_goal 2 => intro z a))
      | (with_reducible apply OnlyChangesP.foldl; (on_goal 2 => intro z a))
      | split
  | cons b l ih =>
    unfold startSenses
    repeat' first
      | with_reducible assumption
      | with_reducible apply OnlyChanges.refl
      | with_reducible apply OnlyChanges.ite
      | (with_reducible apply OnlyChanges.step emit_frame; (on_goal 1 => decide))
      | (with_reducible apply OnlyChanges.step bumpReads_frame; (on_goal 1 => decide))
      | (with_reducible apply OnlyChanges.foldl; (on_goal 2 => intro z a))
      | (with_reducible apply OnlyChangesP.foldl; (on_goal 2 => intro z a))
      | (with_reducible apply OnlyChanges.step ih; (on_goal 1 => decide))
      | split

theorem clearCourse_frame {a0} {a1} {x : State} : OnlyChanges [.tr, .dr] x (clearCourse a0 a1 x) := by
  unfold clearCourse
  repeat' first
    | with_reducible assumption
    | with_reducible apply OnlyChanges.refl
    | (extract_lets +onlyGivenNames y; guard_hyp y : State := Prod.snd _; subst y)
    | (extract_lets +onlyGivenNames y; guard_hyp y : State := _; apply OnlyChanges.cut y; (on_goal 1 => (unfold y; clear y)); (on_goal 2 => (intro hx; clear_value y)))
    | (extract_lets +onlyGivenNames y; guard_hyp y : _ × State := _; apply OnlyChanges.cutP y; (on_goal 1 => (unfold y; clear y)); (on_goal 2 => (intro hx; clear_value y)))
    | (extract_lets +onlyGivenNames y; guard_hyp y : _ × _ × State := _; apply OnlyChanges.cutPP y; (on_goal 1 => (unfold y; clear y)); (on_goal 2 => (intro hx; clear_value y)))
    | (extract_lets +onlyGivenNames y; guard_hyp y : Boxes := _; subst y)
    | (extract_lets +onlyGivenNames y; guard_hyp y : Power := _; subst y)
    | (extract_lets +onlyGivenNames y; guard_hyp y : Trans := _; subst y)
    | (extract_lets +onlyGivenNames y; guard_hyp y : Prot := _; subst y)
    | (extract_lets +onlyGivenNames y; guard_hyp y : Persist := _; subst y)
    | (extract_lets +onlyGivenNames y; guard_hyp y : Sgl := _; subst y)
    | (extract_lets +onlyGivenNames y; guard_hyp y : Sec := _; subst y)
    | (extract_lets +onlyGivenNames y; clear_value y)
    | extract_lets +onlyGivenNames y
    | with_reducible apply OnlyChanges.ite
    | split
    | (with_reducible apply OnlyChanges.upd384; (on_goal 1 => decide); (on_goal 1 => (first | exact Or.inr (by with_reducible rfl) | exact Or.inl (by decide) | exact Or.inr rfl)))

theorem fieldRemap_frame {a0} {a1} {x : State} : OnlyChangesP [.tr, .freeCtr] x (fieldRemap a0 a1 x) := by
  induction a1 generalizing x a0 with
  | nil =>
    unfold fieldRemap
    repeat' first
      | with_reducible assumption
      | with_reducible apply OnlyChanges.refl
      | (extract_lets +onlyGivenNames y; guard_hyp y : State := Prod.snd _; subst y)
      | (extract_lets +onlyGivenNames y; guard_hyp y : State := _; apply OnlyChangesP.cut y; (on_goal 1 => (unfold y; clear y)); (on_goal 2 => (intro hx; clear_value y)))
      | (extract_lets +onlyGivenNames y; guard_hyp y : _ × State := _; apply OnlyChangesP.cutP y; (on_goal 1 => (unfold y; clear y)); (on_goal 2 => (intro hx; clear_value y)))
      | (extract_lets +onlyGivenNames y; guard_hyp y : _ × _ × State := _; apply OnlyChangesP.cutPP y; (on_goal 1 => (unfold y; clear y)); (on_goal 2 => (intro hx; clear_value y)))
      | (extract_lets +onlyGivenNames y; guard_hyp y : Boxes := _; subst y)
      | (extract_lets +onlyGivenNames y; guard_hyp y : Power := _; subst y)
      | (extract_lets +onlyGivenNames y; guard_hyp y : Trans := _; subst y)
      | (extract_lets +onlyGivenNames y; guard_hyp y : Prot := _; subst y)
      | (extract_lets +onlyGivenNames y; guard_hyp y : Persist := _; subst y)
      | (extract_lets +onlyGivenNames y; guard_hyp y : Sgl := _; subst y)
      | (extract_lets +onlyGivenNames y; guard_hyp y : Sec := _; subst y)
      | (extract_lets +onlyGivenNames y; clear_value y)
      | extract_lets +onlyGivenNames y
      | with_reducible apply OnlyChanges.ite
      | with_reducible apply OnlyChangesP.ite
      | (with_reducible apply OnlyChangesP.step draw_frame; (on_goal 1 => decide))
      | (with_reducible apply OnlyChangesP.snd draw_frame; (on_goal 1 => decide))
      | (with_reducible apply OnlyChanges.ofPair; (on_goal 1 => assumption))
      | split
      | with_reducible apply OnlyChangesP.mk
      | (with_reducible apply OnlyChanges.upd128; (on_goal 1 => decide); (on_goal 1 => (first | exact Or.inr (by with_reducible rfl) | exact Or.inl (by decide) | exact Or.inr rfl)))
  | cons b l ih =>
    unfold fieldRemap
    repeat' first
      | with_reducible assumption
      | with_reducible apply OnlyChanges.refl
      | (extract_lets +onlyGivenNames y; guard_hyp y : State := Prod.snd _; subst y)
      | (extract_lets +onlyGivenNames y; guard_hyp y : State := _; apply OnlyChangesP.cut y; (on_goal 1 => (unfold y; clear y)); (on_goal 2 => (intro hx; clear_value y)))
      | (extract_lets +onlyGivenNames y; guard_hyp y : _ × State := _; apply OnlyChangesP.cutP y; (on_goal 1 => (unfold y; clear y)); (on_goal 2 => (intro hx; clear_value y)))
      | (extract_lets +onlyGivenNames y; guard_hyp y : _ × _ × State := _; apply OnlyChangesP.cutPP y; (on_goal 1 => (unfold y; clear y)); (on_goal 2 => (intro hx; clear_value y)))
      | (extract_lets +onlyGivenNames y; guard_hyp y : Boxes := _; subst y)
      | (extract_lets +onlyGivenNames y; guard_hyp y : Power := _; subst y)
      | (extract_lets +onlyGivenNames y; guard_hyp y : Trans := _; subst y)
      | (extract_lets +onlyGivenNames y; guard_hyp y : Prot := _; subst y)
      | (extract_lets +onlyGivenNames y; guard_hyp y : Persist := _; subst y)
      | (extract_lets +onlyGivenNames y; guard_hyp y : Sgl := _; subst y)
      | (extract_lets +onlyGivenNames y; guard_hyp y : Sec := _; subst y)
      | (extract_lets +onlyGivenNames y; clear_value y)
      | extract_lets +onlyGivenNames y
      | with_reducible apply OnlyChanges.ite
      | with_reducible apply OnlyChangesP.ite
      | (with_reducible apply OnlyChangesP.step draw_frame; (on_goal 1 => decide))
      | (with_reducible apply OnlyChangesP.snd draw_frame; (on_goal 1 => decide))
      | (with_reducible apply OnlyChanges.ofPair; (on_goal 1 => assumption))
      | (with_reducible apply OnlyChangesP.step ih; (on_goal 1 => decide))
      | (with_reducible apply OnlyChangesP.snd ih; (on_goal 1 => decide))
      | split
      | with_reducible apply OnlyChangesP.mk
      | (with_reducible apply OnlyChanges.upd128; (on_goal 1 => decide); (on_goal 1 => (first | exact Or.inr (by with_reducible rfl) | exact Or.inl (by decide) | exact Or.inr rfl)))

theorem clearAge_frame {a0} {x : State} : OnlyChanges [.tr, .per, .ck] x (clearAge a0 x) := by
  unfold clearAge
  repeat' first
    | with_reducible assumption
    | with_reducible apply OnlyChanges.refl
    | with_reducible apply OnlyChanges.ite
    | (with_reducible apply OnlyChanges.step mapOpen_frame; (on_goal 1 => decide))
    | split

theorem finishReset_frame {a0} {a1} {a2} {x : State} : OnlyChanges [.pw, .evr, .sched, .tr, .dr, .prot, .per, .ck, .dram, .cxlA, .cxlB, .freeCtr, .outs, .lostDie] x (finishReset a0 a1 a2 x) := by
  unfold finishReset
  repeat' first
    | with_reducible assumption
    | with_reducible apply OnlyChanges.refl
    | (extract_lets +onlyGivenNames y; guard_hyp y : State := Prod.snd _; subst y)
    | (extract_lets +onlyGivenNames y; guard_hyp y : State := _; apply OnlyChanges.cut y; (on_goal 1 => (unfold y; clear y)); (on_goal 2 => (intro hx; clear_value y)))
    | (extract_lets +onlyGivenNames y; guard_hyp y : _ × State := _; apply OnlyChanges.cutP y; (on_goal 1 => (unfold y; clear y)); (on_goal 2 => (intro hx; clear_value y)))
    | (extract_lets +onlyGivenNames y; guard_hyp y : _ × _ × State := _; apply OnlyChanges.cutPP y; (on_goal 1 => (unfold y; clear y)); (on_goal 2 => (intro hx; clear_value y)))
    | (extract_lets +onlyGivenNames y; guard_hyp y : Boxes := _; subst y)
    | (extract_lets +onlyGivenNames y; guard_hyp y : Power := _; subst y)
    | (extract_lets +onlyGivenNames y; guard_hyp y : Trans := _; subst y)
    | (extract_lets +onlyGivenNames y; guard_hyp y : Prot := _; subst y)
    | (extract_lets +onlyGivenNames y; guard_hyp y : Persist := _; subst y)
    | (extract_lets +onlyGivenNames y; guard_hyp y : Sgl := _; subst y)
    | (extract_lets +onlyGivenNames y; guard_hyp y : Sec := _; subst y)
    | (extract_lets +onlyGivenNames y; clear_value y)
    | extract_lets +onlyGivenNames y
    | with_reducible apply OnlyChanges.ite
    | (with_reducible apply OnlyChanges.step releaseSpare_frame; (on_goal 1 => decide))
    | (with_reducible apply OnlyChanges.step clearCourse_frame; (on_goal 1 => decide))
    | (with_reducible apply OnlyChanges.step consumeSpare_frame; (on_goal 1 => decide))
    | (with_reducible apply OnlyChangesP.step fieldRemap_frame; (on_goal 1 => decide))
    | (with_reducible apply OnlyChangesP.snd fieldRemap_frame; (on_goal 1 => decide))
    | (with_reducible apply OnlyChanges.step modStripe_frame; (on_goal 1 => decide))
    | (with_reducible apply OnlyChanges.step retirePartition_frame; (on_goal 1 => decide))
    | (with_reducible apply OnlyChanges.step putCourse_frame; (on_goal 1 => decide))
    | (with_reducible apply OnlyChanges.step clearAge_frame; (on_goal 1 => decide))
    | (with_reducible apply OnlyChanges.foldl; (on_goal 2 => intro z a))
    | (with_reducible apply OnlyChangesP.foldl; (on_goal 2 => intro z a))
    | (with_reducible apply OnlyChanges.ofPair; (on_goal 1 => assumption))
    | split
    | (with_reducible apply OnlyChanges.upd128; (on_goal 1 => decide); (on_goal 1 => (first | exact Or.inr (by with_reducible rfl) | exact Or.inl (by decide) | exact Or.inr rfl)))

theorem execResetDone_frame {a0} {a1} {a2} {x t : State} (h : execResetDone a0 a1 a2 x = .next t) :
    OnlyChanges [.pw, .evr, .sched, .tr, .dr, .prot, .per, .ck, .dram, .cxlA, .cxlB, .freeCtr, .outs, .lostDie] x t := by
  unfold execResetDone at h
  first
    | (injection h with h; subst h)
    | (split at h <;> (first | (injection h with h; subst h) | cases h))
  all_goals
    repeat' first
      | with_reducible assumption
      | with_reducible apply OnlyChanges.refl
      | (extract_lets +onlyGivenNames y; guard_hyp y : State := Prod.snd _; subst y)
      | (extract_lets +onlyGivenNames y; guard_hyp y : State := _; apply OnlyChanges.cut y; (on_goal 1 => (unfold y; clear y)); (on_goal 2 => (intro hx; clear_value y)))
      | (extract_lets +onlyGivenNames y; guard_hyp y : _ × State := _; apply OnlyChanges.cutP y; (on_goal 1 => (unfold y; clear y)); (on_goal 2 => (intro hx; clear_value y)))
      | (extract_lets +onlyGivenNames y; guard_hyp y : _ × _ × State := _; apply OnlyChanges.cutPP y; (on_goal 1 => (unfold y; clear y)); (on_goal 2 => (intro hx; clear_value y)))
      | (extract_lets +onlyGivenNames y; guard_hyp y : Boxes := _; subst y)
      | (extract_lets +onlyGivenNames y; guard_hyp y : Power := _; subst y)
      | (extract_lets +onlyGivenNames y; guard_hyp y : Trans := _; subst y)
      | (extract_lets +onlyGivenNames y; guard_hyp y : Prot := _; subst y)
      | (extract_lets +onlyGivenNames y; guard_hyp y : Persist := _; subst y)
      | (extract_lets +onlyGivenNames y; guard_hyp y : Sgl := _; subst y)
      | (extract_lets +onlyGivenNames y; guard_hyp y : Sec := _; subst y)
      | (extract_lets +onlyGivenNames y; clear_value y)
      | extract_lets +onlyGivenNames y
      | with_reducible apply OnlyChanges.ite
      | (with_reducible apply OnlyChanges.step updateDegraded_frame; (on_goal 1 => decide))
      | (with_reducible apply OnlyChanges.step setBusy_frame; (on_goal 1 => decide))
      | (with_reducible apply OnlyChanges.step finishReset_frame; (on_goal 1 => decide))
      | split

theorem execRgenAdvance_frame  {x t : State} (h : execRgenAdvance x = .next t) :
    OnlyChanges [.sched] x t := by
  unfold execRgenAdvance at h
  first
    | (injection h with h; subst h)
    | (split at h <;> (first | (injection h with h; subst h) | cases h))
  all_goals
    repeat' first
      | with_reducible assumption
      | with_reducible apply OnlyChanges.refl
      | (extract_lets +onlyGivenNames y; guard_hyp y : State := Prod.snd _; subst y)
      | (extract_lets +onlyGivenNames y; guard_hyp y : State := _; apply OnlyChanges.cut y; (on_goal 1 => (unfold y; clear y)); (on_goal 2 => (intro hx; clear_value y)))
      | (extract_lets +onlyGivenNames y; guard_hyp y : _ × State := _; apply OnlyChanges.cutP y; (on_goal 1 => (unfold y; clear y)); (on_goal 2 => (intro hx; clear_value y)))
      | (extract_lets +onlyGivenNames y; guard_hyp y : _ × _ × State := _; apply OnlyChanges.cutPP y; (on_goal 1 => (unfold y; clear y)); (on_goal 2 => (intro hx; clear_value y)))
      | (extract_lets +onlyGivenNames y; guard_hyp y : Boxes := _; subst y)
      | (extract_lets +onlyGivenNames y; guard_hyp y : Power := _; subst y)
      | (extract_lets +onlyGivenNames y; guard_hyp y : Trans := _; subst y)
      | (extract_lets +onlyGivenNames y; guard_hyp y : Prot := _; subst y)
      | (extract_lets +onlyGivenNames y; guard_hyp y : Persist := _; subst y)
      | (extract_lets +onlyGivenNames y; guard_hyp y : Sgl := _; subst y)
      | (extract_lets +onlyGivenNames y; guard_hyp y : Sec := _; subst y)
      | (extract_lets +onlyGivenNames y; clear_value y)
      | extract_lets +onlyGivenNames y
      | with_reducible apply OnlyChanges.ite
      | split
      | (with_reducible apply OnlyChanges.upd64; (on_goal 1 => decide))

theorem tryOperate_frame {a0} {a1} {x : State} : OnlyChanges [.sched, .outs] x (tryOperate a0 a1 x) := by
  unfold tryOperate
  repeat' first
    | with_reducible assumption
    | with_reducible apply OnlyChanges.refl
    | (extract_lets +onlyGivenNames y; guard_hyp y : State := Prod.snd _; subst y)
    | (extract_lets +onlyGivenNames y; guard_hyp y : State := _; apply OnlyChanges.cut y; (on_goal 1 => (unfold y; clear y)); (on_goal 2 => (intro hx; clear_value y)))
    | (extract_lets +onlyGivenNames y; guard_hyp y : _ × State := _; apply OnlyChanges.cutP y; (on_goal 1 => (unfold y; clear y)); (on_goal 2 => (intro hx; clear_value y)))
    | (extract_lets +onlyGivenNames y; guard_hyp y : _ × _ × State := _; apply OnlyChanges.cutPP y; (on_goal 1 => (unfold y; clear y)); (on_goal 2 => (intro hx; clear_value y)))
    | (extract_lets +onlyGivenNames y; guard_hyp y : Boxes := _; subst y)
    | (extract_lets +onlyGivenNames y; guard_hyp y : Power := _; subst y)
    | (extract_lets +onlyGivenNames y; guard_hyp y : Trans := _; subst y)
    | (extract_lets +onlyGivenNames y; guard_hyp y : Prot := _; subst y)
    | (extract_lets +onlyGivenNames y; guard_hyp y : Persist := _; subst y)
    | (extract_lets +onlyGivenNames y; guard_hyp y : Sgl := _; subst y)
    | (extract_lets +onlyGivenNames y; guard_hyp y : Sec := _; subst y)
    | (extract_lets +onlyGivenNames y; clear_value y)
    | extract_lets +onlyGivenNames y
    | with_reducible apply OnlyChanges.ite
    | (with_reducible apply OnlyChanges.step setBusy_frame; (on_goal 1 => decide))
    | (with_reducible apply OnlyChanges.step emit_frame; (on_goal 1 => decide))
    | split

theorem claim_frame {a0} {a1} {x : State} : OnlyChanges [.pmc, .sched, .tr, .per, .ck, .freeCtr, .outs] x (claim a0 a1 x) := by
  unfold claim
  repeat' first
    | with_reducible assumption
    | with_reducible apply OnlyChanges.refl
    | (extract_lets +onlyGivenNames y; guard_hyp y : State := Prod.snd _; subst y)
    | (extract_lets +onlyGivenNames y; guard_hyp y : State := _; apply OnlyChanges.cut y; (on_goal 1 => (unfold y; clear y)); (on_goal 2 => (intro hx; clear_value y)))
    | (extract_lets +onlyGivenNames y; guard_hyp y : _ × State := _; apply OnlyChanges.cutP y; (on_goal 1 => (unfold y; clear y)); (on_goal 2 => (intro hx; clear_value y)))
    | (extract_lets +onlyGivenNames y; guard_hyp y : _ × _ × State := _; apply OnlyChanges.cutPP y; (on_goal 1 => (unfold y; clear y)); (on_goal 2 => (intro hx; clear_value y)))
    | (extract_lets +onlyGivenNames y; guard_hyp y : Boxes := _; subst y)
    | (extract_lets +onlyGivenNames y; guard_hyp y : Power := _; subst y)
    | (extract_lets +onlyGivenNames y; guard_hyp y : Trans := _; subst y)
    | (extract_lets +onlyGivenNames y; guard_hyp y : Prot := _; subst y)
    | (extract_lets +onlyGivenNames y; guard_hyp y : Persist := _; subst y)
    | (extract_lets +onlyGivenNames y; guard_hyp y : Sgl := _; subst y)
    | (extract_lets +onlyGivenNames y; guard_hyp y : Sec := _; subst y)
    | (extract_lets +onlyGivenNames y; clear_value y)
    | extract_lets +onlyGivenNames y
    | with_reducible apply OnlyChanges.ite
    | (with_reducible apply OnlyChanges.step setCourses_frame; (on_goal 1 => decide))
    | (with_reducible apply OnlyChanges.step setBusy_frame; (on_goal 1 => decide))
    | (with_reducible apply OnlyChanges.step tryOperate_frame; (on_goal 1 => decide))
    | (with_reducible apply OnlyChanges.step count_frame; (on_goal 1 => decide))
    | split
    | (with_reducible apply OnlyChanges.upd64; (on_goal 1 => decide))

theorem execSlotGrant_frame  {x t : State} (h : execSlotGrant x = .next t) :
    OnlyChanges [.pmc, .sched, .tr, .per, .ck, .freeCtr, .outs] x t := by
  unfold execSlotGrant at h
  first
    | (injection h with h; subst h)
    | (split at h <;> (first | (injection h with h; subst h) | cases h))
  all_goals
    repeat' first
      | with_reducible assumption
      | with_reducible apply OnlyChanges.refl
      | (extract_lets +onlyGivenNames y; guard_hyp y : State := Prod.snd _; subst y)
      | (extract_lets +onlyGivenNames y; guard_hyp y : State := _; apply OnlyChanges.cut y; (on_goal 1 => (unfold y; clear y)); (on_goal 2 => (intro hx; clear_value y)))
      | (extract_lets +onlyGivenNames y; guard_hyp y : _ × State := _; apply OnlyChanges.cutP y; (on_goal 1 => (unfold y; clear y)); (on_goal 2 => (intro hx; clear_value y)))
      | (extract_lets +onlyGivenNames y; guard_hyp y : _ × _ × State := _; apply OnlyChanges.cutPP y; (on_goal 1 => (unfold y; clear y)); (on_goal 2 => (intro hx; clear_value y)))
      | (extract_lets +onlyGivenNames y; guard_hyp y : Boxes := _; subst y)
      | (extract_lets +onlyGivenNames y; guard_hyp y : Power := _; subst y)
      | (extract_lets +onlyGivenNames y; guard_hyp y : Trans := _; subst y)
      | (extract_lets +onlyGivenNames y; guard_hyp y : Prot := _; subst y)
      | (extract_lets +onlyGivenNames y; guard_hyp y : Persist := _; subst y)
      | (extract_lets +onlyGivenNames y; guard_hyp y : Sgl := _; subst y)
      | (extract_lets +onlyGivenNames y; guard_hyp y : Sec := _; subst y)
      | (extract_lets +onlyGivenNames y; clear_value y)
      | extract_lets +onlyGivenNames y
      | with_reducible apply OnlyChanges.ite
      | (with_reducible apply OnlyChanges.step claim_frame; (on_goal 1 => decide))
      | split
      | (with_reducible apply OnlyChanges.upd64; (on_goal 1 => decide))

theorem checkRow_frame {a0} {a1} {a2} {x : State} : OnlyChanges [.tr, .per, .ck] x (checkRow a0 a1 a2 x) := by
  unfold checkRow
  repeat' first
    | with_reducible assumption
    | with_reducible apply OnlyChanges.refl
    | (extract_lets +onlyGivenNames y; guard_hyp y : State := Prod.snd _; subst y)
    | (extract_lets +onlyGivenNames y; guard_hyp y : State := _; apply OnlyChanges.cut y; (on_goal 1 => (unfold y; clear y)); (on_goal 2 => (intro hx; clear_value y)))
    | (extract_lets +onlyGivenNames y; guard_hyp y : _ × State := _; apply OnlyChanges.cutP y; (on_goal 1 => (unfold y; clear y)); (on_goal 2 => (intro hx; clear_value y)))
    | (extract_lets +onlyGivenNames y; guard_hyp y : _ × _ × State := _; apply OnlyChanges.cutPP y; (on_goal 1 => (unfold y; clear y)); (on_goal 2 => (intro hx; clear_value y)))
    | (extract_lets +onlyGivenNames y; guard_hyp y : Boxes := _; subst y)
    | (extract_lets +onlyGivenNames y; guard_hyp y : Power := _; subst y)
    | (extract_lets +onlyGivenNames y; guard_hyp y : Trans := _; subst y)
    | (extract_lets +onlyGivenNames y; guard_hyp y : Prot := _; subst y)
    | (extract_lets +onlyGivenNames y; guard_hyp y : Persist := _; subst y)
    | (extract_lets +onlyGivenNames y; guard_hyp y : Sgl := _; subst y)
    | (extract_lets +onlyGivenNames y; guard_hyp y : Sec := _; subst y)
    | (extract_lets +onlyGivenNames y; clear_value y)
    | extract_lets +onlyGivenNames y
    | with_reducible apply OnlyChanges.ite
    | (with_reducible apply OnlyChanges.step setCourses_frame; (on_goal 1 => decide))
    | (with_reducible apply OnlyChanges.step modStripe_frame; (on_goal 1 => decide))
    | (with_reducible apply OnlyChanges.step releaseQ_frame; (on_goal 1 => decide))
    | split

theorem execVerifyReadDue_frame {a0} {a1} {a2} {a3} {x t : State} (h : execVerifyReadDue a0 a1 a2 a3 x = .next t) :
    OnlyChanges [.evr, .tr, .dr, .per, .ck, .cxlA, .cxlB, .freeCtr, .outs] x t := by
  unfold execVerifyReadDue at h
  first
    | (injection h with h; subst h)
    | (split at h <;> (first | (injection h with h; subst h) | cases h))
  all_goals
    repeat' first
      | with_reducible assumption
      | with_reducible apply OnlyChanges.refl
      | with_reducible apply OnlyChanges.ite
      | (with_reducible apply OnlyChanges.step checkRow_frame; (on_goal 1 => decide))
      | (with_reducible apply OnlyChanges.step courseFail_frame; (on_goal 1 => decide))
      | split

theorem execReclaimGrant_frame {a0} {x t : State} (h : execReclaimGrant a0 x = .next t) :
    OnlyChanges [.tr] x t := by
  unfold execReclaimGrant at h
  first
    | (injection h with h; subst h)
    | (split at h <;> (first | (injection h with h; subst h) | cases h))
  all_goals
    repeat' first
      | with_reducible assumption
      | with_reducible apply OnlyChanges.refl
      | with_reducible apply OnlyChanges.ite
      | (with_reducible apply OnlyChanges.step modStripe_frame; (on_goal 1 => decide))
      | split

theorem driftLatch_frame {a0} {a1} {a2} {x : State} : OnlyChanges [.tr, .dr, .per, .ck] x (driftLatch a0 a1 a2 x) := by
  unfold driftLatch
  repeat' first
    | with_reducible assumption
    | with_reducible apply OnlyChanges.refl
    | (extract_lets +onlyGivenNames y; guard_hyp y : State := Prod.snd _; subst y)
    | (extract_lets +onlyGivenNames y; guard_hyp y : State := _; apply OnlyChanges.cut y; (on_goal 1 => (unfold y; clear y)); (on_goal 2 => (intro hx; clear_value y)))
    | (extract_lets +onlyGivenNames y; guard_hyp y : _ × State := _; apply OnlyChanges.cutP y; (on_goal 1 => (unfold y; clear y)); (on_goal 2 => (intro hx; clear_value y)))
    | (extract_lets +onlyGivenNames y; guard_hyp y : _ × _ × State := _; apply OnlyChanges.cutPP y; (on_goal 1 => (unfold y; clear y)); (on_goal 2 => (intro hx; clear_value y)))
    | (extract_lets +onlyGivenNames y; guard_hyp y : Boxes := _; subst y)
    | (extract_lets +onlyGivenNames y; guard_hyp y : Power := _; subst y)
    | (extract_lets +onlyGivenNames y; guard_hyp y : Trans := _; subst y)
    | (extract_lets +onlyGivenNames y; guard_hyp y : Prot := _; subst y)
    | (extract_lets +onlyGivenNames y; guard_hyp y : Persist := _; subst y)
    | (extract_lets +onlyGivenNames y; guard_hyp y : Sgl := _; subst y)
    | (extract_lets +onlyGivenNames y; guard_hyp y : Sec := _; subst y)
    | (extract_lets +onlyGivenNames y; clear_value y)
    | extract_lets +onlyGivenNames y
    | with_reducible apply OnlyChanges.ite
    | (with_reducible apply OnlyChanges.step modStripe_frame; (on_goal 1 => decide))
    | (with_reducible apply OnlyChanges.step mapOpen_frame; (on_goal 1 => decide))
    | split
    | (with_reducible apply OnlyChanges.upd256; (on_goal 1 => decide))

theorem rowPass_frame {a0} {a1} {a2} {x : State} : OnlyChanges [.tr, .dr, .per, .ck] x (rowPass a0 a1 a2 x) := by
  unfold rowPass
  repeat' first
    | with_reducible assumption
    | with_reducible apply OnlyChanges.refl
    | (extract_lets +onlyGivenNames y; guard_hyp y : State := Prod.snd _; subst y)
    | (extract_lets +onlyGivenNames y; guard_hyp y : State := _; apply OnlyChanges.cut y; (on_goal 1 => (unfold y; clear y)); (on_goal 2 => (intro hx; clear_value y)))
    | (extract_lets +onlyGivenNames y; guard_hyp y : _ × State := _; apply OnlyChanges.cutP y; (on_goal 1 => (unfold y; clear y)); (on_goal 2 => (intro hx; clear_value y)))
    | (extract_lets +onlyGivenNames y; guard_hyp y : _ × _ × State := _; apply OnlyChanges.cutPP y; (on_goal 1 => (unfold y; clear y)); (on_goal 2 => (intro hx; clear_value y)))
    | (extract_lets +onlyGivenNames y; guard_hyp y : Boxes := _; subst y)
    | (extract_lets +onlyGivenNames y; guard_hyp y : Power := _; subst y)
    | (extract_lets +onlyGivenNames y; guard_hyp y : Trans := _; subst y)
    | (extract_lets +onlyGivenNames y; guard_hyp y : Prot := _; subst y)
    | (extract_lets +onlyGivenNames y; guard_hyp y : Persist := _; subst y)
    | (extract_lets +onlyGivenNames y; guard_hyp y : Sgl := _; subst y)
    | (extract_lets +onlyGivenNames y; guard_hyp y : Sec := _; subst y)
    | (extract_lets +onlyGivenNames y; clear_value y)
    | extract_lets +onlyGivenNames y
    | with_reducible apply OnlyChanges.ite
    | (with_reducible apply OnlyChanges.step driftLatch_frame; (on_goal 1 => decide))
    | (with_reducible apply OnlyChanges.step modStripe_frame; (on_goal 1 => decide))
    | (with_reducible apply OnlyChanges.step putCourse_frame; (on_goal 1 => decide))
    | (with_reducible apply OnlyChanges.foldl; (on_goal 2 => intro z a))
    | (with_reducible apply OnlyChangesP.foldl; (on_goal 2 => intro z a))
    | split

theorem releaseStaged_frame {a0} {x : State} : OnlyChanges [.tr, .per, .ck] x (releaseStaged a0 x) := by
  unfold releaseStaged
  repeat' first
    | with_reducible assumption
    | with_reducible apply OnlyChanges.refl
    | (extract_lets +onlyGivenNames y; guard_hyp y : State := Prod.snd _; subst y)
    | (extract_lets +onlyGivenNames y; guard_hyp y : State := _; apply OnlyChanges.cut y; (on_goal 1 => (unfold y; clear y)); (on_goal 2 => (intro hx; clear_value y)))
    | (extract_lets +onlyGivenNames y; guard_hyp y : _ × State := _; apply OnlyChanges.cutP y; (on_goal 1 => (unfold y; clear y)); (on_goal 2 => (intro hx; clear_value y)))
    | (extract_lets +onlyGivenNames y; guard_hyp y : _ × _ × State := _; apply OnlyChanges.cutPP y; (on_goal 1 => (unfold y; clear y)); (on_goal 2 => (intro hx; clear_value y)))
    | (extract_lets +onlyGivenNames y; guard_hyp y : Boxes := _; subst y)
    | (extract_lets +onlyGivenNames y; guard_hyp y : Power := _; subst y)
    | (extract_lets +onlyGivenNames y; guard_hyp y : Trans := _; subst y)
    | (extract_lets +onlyGivenNames y; guard_hyp y : Prot := _; subst y)
    | (extract_lets +onlyGivenNames y; guard_hyp y : Persist := _; subst y)
    | (extract_lets +onlyGivenNames y; guard_hyp y : Sgl := _; subst y)
    | (extract_lets +onlyGivenNames y; guard_hyp y : Sec := _; subst y)
    | (extract_lets +onlyGivenNames y; clear_value y)
    | extract_lets +onlyGivenNames y
    | with_reducible apply OnlyChanges.ite
    | (with_reducible apply OnlyChanges.step finishWriteBack_frame; (on_goal 1 => decide))
    | (with_reducible apply OnlyChanges.step clearStaged_frame; (on_goal 1 => decide))
    | (with_reducible apply OnlyChanges.step dropSlot_frame; (on_goal 1 => decide))
    | split

theorem execRoundDeadline_frame {a0} {a1} {x t : State} (h : execRoundDeadline a0 a1 x = .next t) :
    OnlyChanges [.tr, .per, .ck, .freeCtr] x t := by
  unfold execRoundDeadline at h
  first
    | (injection h with h; subst h)
    | (split at h <;> (first | (injection h with h; subst h) | cases h))
  all_goals
    repeat' first
      | with_reducible assumption
      | with_reducible apply OnlyChanges.refl
      | with_reducible apply OnlyChanges.ite
      | (with_reducible apply OnlyChanges.step padTo_frame; (on_goal 1 => decide))
      | (with_reducible apply OnlyChanges.step startRound_frame; (on_goal 1 => decide))
      | split

theorem startRead_frame {a0} {a1} {x : State} : OnlyChanges [.pmc, .sched, .freeCtr, .outs] x (startRead a0 a1 x) := by
  unfold startRead
  dsimp -proj only
  repeat' first
    | with_reducible assumption
    | with_reducible apply OnlyChanges.refl
    | with_reducible apply OnlyChanges.ite
    | (with_reducible apply OnlyChanges.step suspendFor_frame; (on_goal 1 => decide))
    | (with_reducible apply OnlyChanges.step reserveSlots_frame; (on_goal 1 => decide))
    | (with_reducible apply OnlyChanges.step startSenses_frame; (on_goal 1 => decide))
    | (with_reducible apply OnlyChanges.step countConfirmed_frame; (on_goal 1 => decide))
    | (with_reducible apply OnlyChanges.step modRead_frame; (on_goal 1 => decide))
    | split

theorem execMediumReadStart_frame {a0} {x t : State} (h : execMediumReadStart a0 x = .next t) :
    OnlyChanges [.pmc, .sched, .freeCtr, .outs] x t := by
  unfold execMediumReadStart at h
  first
    | (injection h with h; subst h)
    | (split at h <;> (first | (injection h with h; subst h) | cases h))
  all_goals
    repeat' first
      | with_reducible assumption
      | with_reducible apply OnlyChanges.refl
      | with_reducible apply OnlyChanges.ite
      | (with_reducible apply OnlyChanges.step startRead_frame; (on_goal 1 => decide))
      | split

theorem execRowProgramDone_frame {a0} {a1} {a2} {x t : State} (h : execRowProgramDone a0 a1 a2 x = .next t) :
    OnlyChanges [.evr, .sched, .tr, .dr, .per, .ck, .cxlA, .cxlB, .freeCtr, .outs] x t := by
  unfold execRowProgramDone at h
  first
    | (injection h with h; subst h)
    | (split at h <;> (first | (injection h with h; subst h) | cases h))
  all_goals
    repeat' first
      | with_reducible assumption
      | with_reducible apply OnlyChanges.refl
      | (extract_lets +onlyGivenNames y; guard_hyp y : State := Prod.snd _; subst y)
      | (extract_lets +onlyGivenNames y; guard_hyp y : State := _; apply OnlyChanges.cut y; (on_goal 1 => (unfold y; clear y)); (on_goal 2 => (intro hx; clear_value y)))
      | (extract_lets +onlyGivenNames y; guard_hyp y : _ × State := _; apply OnlyChanges.cutP y; (on_goal 1 => (unfold y; clear y)); (on_goal 2 => (intro hx; clear_value y)))
      | (extract_lets +onlyGivenNames y; guard_hyp y : _ × _ × State := _; apply OnlyChanges.cutPP y; (on_goal 1 => (unfold y; clear y)); (on_goal 2 => (intro hx; clear_value y)))
      | (extract_lets +onlyGivenNames y; guard_hyp y : Boxes := _; subst y)
      | (extract_lets +onlyGivenNames y; guard_hyp y : Power := _; subst y)
      | (extract_lets +onlyGivenNames y; guard_hyp y : Trans := _; subst y)
      | (extract_lets +onlyGivenNames y; guard_hyp y : Prot := _; subst y)
      | (extract_lets +onlyGivenNames y; guard_hyp y : Persist := _; subst y)
      | (extract_lets +onlyGivenNames y; guard_hyp y : Sgl := _; subst y)
      | (extract_lets +onlyGivenNames y; guard_hyp y : Sec := _; subst y)
      | (extract_lets +onlyGivenNames y; clear_value y)
      | extract_lets +onlyGivenNames y
      | with_reducible apply OnlyChanges.ite
      | (with_reducible apply OnlyChanges.step setBusy_frame; (on_goal 1 => decide))
      | (with_reducible apply OnlyChanges.step rowPass_frame; (on_goal 1 => decide))
      | (with_reducible apply OnlyChanges.step courseFail_frame; (on_goal 1 => decide))
      | split
      | (with_reducible apply OnlyChanges.upd64; (on_goal 1 => decide))

theorem execDrainRowReadback_frame {a0} {a1} {a2} {a3} {x t : State} (h : execDrainRowReadback a0 a1 a2 a3 x = .next t) :
    OnlyChanges [.evr, .tr, .dr, .per, .ck, .cxlA, .cxlB, .freeCtr, .outs] x t := by
  unfold execDrainRowReadback at h
  first
    | (injection h with h; subst h)
    | (split at h <;> (first | (injection h with h; subst h) | cases h))
  all_goals
    repeat' first
      | with_reducible assumption
      | with_reducible apply OnlyChanges.refl
      | (extract_lets +onlyGivenNames y; guard_hyp y : State := Prod.snd _; subst y)
      | (extract_lets +onlyGivenNames y; guard_hyp y : State := _; apply OnlyChanges.cut y; (on_goal 1 => (unfold y; clear y)); (on_goal 2 => (intro hx; clear_value y)))
      | (extract_lets +onlyGivenNames y; guard_hyp y : _ × State := _; apply OnlyChanges.cutP y; (on_goal 1 => (unfold y; clear y)); (on_goal 2 => (intro hx; clear_value y)))
      | (extract_lets +onlyGivenNames y; guard_hyp y : _ × _ × State := _; apply OnlyChanges.cutPP y; (on_goal 1 => (unfold y; clear y)); (on_goal 2 => (intro hx; clear_value y)))
      | (extract_lets +onlyGivenNames y; guard_hyp y : Boxes := _; subst y)
      | (extract_lets +onlyGivenNames y; guard_hyp y : Power := _; subst y)
      | (extract_lets +onlyGivenNames y; guard_hyp y : Trans := _; subst y)
      | (extract_lets +onlyGivenNames y; guard_hyp y : Prot := _; subst y)
      | (extract_lets +onlyGivenNames y; guard_hyp y : Persist := _; subst y)
      | (extract_lets +onlyGivenNames y; guard_hyp y : Sgl := _; subst y)
      | (extract_lets +onlyGivenNames y; guard_hyp y : Sec := _; subst y)
      | (extract_lets +onlyGivenNames y; clear_value y)
      | extract_lets +onlyGivenNames y
      | with_reducible apply OnlyChanges.ite
      | (with_reducible apply OnlyChanges.step checkRow_frame; (on_goal 1 => decide))
      | (with_reducible apply OnlyChanges.step courseFail_frame; (on_goal 1 => decide))
      | (with_reducible apply OnlyChanges.step releaseStaged_frame; (on_goal 1 => decide))
      | (with_reducible apply OnlyChanges.foldl; (on_goal 2 => intro z a))
      | (with_reducible apply OnlyChangesP.foldl; (on_goal 2 => intro z a))
      | split

theorem execReadTransferred_frame {a0} {a1} {a2} {x t : State} (h : execReadTransferred a0 a1 a2 x = .next t) :
    OnlyChanges [.sched, .outs] x t := by
  unfold execReadTransferred at h
  first
    | (injection h with h; subst h)
    | (split at h <;> (first | (injection h with h; subst h) | cases h))
  all_goals
    repeat' first
      | with_reducible assumption
      | with_reducible apply OnlyChanges.refl
      | (extract_lets +onlyGivenNames y; guard_hyp y : State := Prod.snd _; subst y)
      | (extract_lets +onlyGivenNames y; guard_hyp y : State := _; apply OnlyChanges.cut y; (on_goal 1 => (unfold y; clear y)); (on_goal 2 => (intro hx; clear_value y)))
      | (extract_lets +onlyGivenNames y; guard_hyp y : _ × State := _; apply OnlyChanges.cutP y; (on_goal 1 => (unfold y; clear y)); (on_goal 2 => (intro hx; clear_value y)))
      | (extract_lets +onlyGivenNames y; guard_hyp y : _ × _ × State := _; apply OnlyChanges.cutPP y; (on_goal 1 => (unfold y; clear y)); (on_goal 2 => (intro hx; clear_value y)))
      | (extract_lets +onlyGivenNames y; guard_hyp y : Boxes := _; subst y)
      | (extract_lets +onlyGivenNames y; guard_hyp y : Power := _; subst y)
      | (extract_lets +onlyGivenNames y; guard_hyp y : Trans := _; subst y)
      | (extract_lets +onlyGivenNames y; guard_hyp y : Prot := _; subst y)
      | (extract_lets +onlyGivenNames y; guard_hyp y : Persist := _; subst y)
      | (extract_lets +onlyGivenNames y; guard_hyp y : Sgl := _; subst y)
      | (extract_lets +onlyGivenNames y; guard_hyp y : Sec := _; subst y)
      | (extract_lets +onlyGivenNames y; clear_value y)
      | extract_lets +onlyGivenNames y
      | with_reducible apply OnlyChanges.ite
      | (with_reducible apply OnlyChanges.step bumpReads_frame; (on_goal 1 => decide))
      | (with_reducible apply OnlyChanges.step tryOperate_frame; (on_goal 1 => decide))
      | split

theorem execRoundStart_frame {a0} {a1} {x t : State} (h : execRoundStart a0 a1 x = .next t) :
    OnlyChanges [.tr, .per, .ck, .freeCtr] x t := by
  unfold execRoundStart at h
  first
    | (injection h with h; subst h)
    | (split at h <;> (first | (injection h with h; subst h) | cases h))
  all_goals
    repeat' first
      | with_reducible assumption
      | with_reducible apply OnlyChanges.refl
      | with_reducible apply OnlyChanges.ite
      | (with_reducible apply OnlyChanges.step startRound_frame; (on_goal 1 => decide))
      | split

end Sys2Proof.Machine
end

