-- ==== Sys2Proof/Laws/FrameObserve.lean ====
section
/-! SUPPORT. The parts of the state that each operation of Machine/Observe.lean may change; every other part it leaves
alone. -/

set_option linter.all false

namespace Sys2Proof.Machine

theorem traceDone_frame {a0} {a1} {a2} {a3} {a4} {a5} {a6} {a7} {a8} {a9} {a10} {x : State} : OnlyChanges [.trb, .freeCtr, .outs] x (traceDone a0 a1 a2 a3 a4 a5 a6 a7 a8 a9 a10 x) := by
  unfold traceDone
  repeat' first
    | with_reducible assumption
    | with_reducible apply OnlyChanges.refl
    | (extract_lets +onlyGivenNames y; guard_hyp y : State := Prod.snd _; subst y)
    | (extract_lets +onlyGivenNames y; guard_hyp y : State := _; apply OnlyChanges.cut y; (on_goal 1 => (unfold y; clear y)); (on_goal 2 => (intro hx; clear_value y)))
    | (extract_lets +onlyGivenNames y; guard_hyp y : _ × State := _; apply OnlyChanges.cutP y; (on_goal 1 => (unfold y; clear y)); (on_goal 2 => (intro hx; clear_value y)))
    | (extract_lets +onlyGivenNames y; guard_hyp y : _ × _ × State := _; apply OnlyChanges.cutPP y; (on_goal 1 => (unfold y; clear y)); (on_goal 2 => (intro hx; clear_value y)))
    | (extract_lets +onlyGivenNames y; guard_hyp y : Boxes := _; subst y)
    | (extract_lets +onlyGivenNames y; guard_hyp y : Power := _; subst y)
    | (extract_lets +onlyGivenNames y; guard_hyp y : Trans := _; subst y)
    | (extract_lets +onlyGivenNames y; guard_hyp y : Prot := _; subst y)
    | (extract_lets +onlyGivenNames y; guard_hyp y : Persist := _; subst y)
    | (extract_lets +onlyGivenNames y; guard_hyp y : Sgl := _; subst y)
    | (extract_lets +onlyGivenNames y; guard_hyp y : Sec := _; subst y)
    | (extract_lets +onlyGivenNames y; clear_value y)
    | extract_lets +onlyGivenNames y
    | with_reducible apply OnlyChanges.ite
    | (with_reducible apply OnlyChanges.step emit_frame; (on_goal 1 => decide))
    | (with_reducible apply OnlyChangesP.step drawN_frame; (on_goal 1 => decide))
    | (with_reducible apply OnlyChangesP.snd drawN_frame; (on_goal 1 => decide))
    | (with_reducible apply OnlyChanges.ofPair; (on_goal 1 => assumption))
    | split
    | (with_reducible apply OnlyChanges.upd16; (on_goal 1 => decide))

theorem setCursor_frame {a0} {a1} {x : State} : OnlyChanges [.evr] x (setCursor a0 a1 x) := by
  unfold setCursor
  repeat' first
    | with_reducible assumption
    | with_reducible apply OnlyChanges.refl
    | (extract_lets +onlyGivenNames y; guard_hyp y : State := Prod.snd _; subst y)
    | (extract_lets +onlyGivenNames y; guard_hyp y : State := _; apply OnlyChanges.cut y; (on_goal 1 => (unfold y; clear y)); (on_goal 2 => (intro hx; clear_value y)))
    | (extract_lets +onlyGivenNames y; guard_hyp y : _ × State := _; apply OnlyChanges.cutP y; (on_goal 1 => (unfold y; clear y)); (on_goal 2 => (intro hx; clear_value y)))
    | (extract_lets +onlyGivenNames y; guard_hyp y : _ × _ × State := _; apply OnlyChanges.cutPP y; (on_goal 1 => (unfold y; clear y)); (on_goal 2 => (intro hx; clear_value y)))
    | (extract_lets +onlyGivenNames y; guard_hyp y : Boxes := _; subst y)
    | (extract_lets +onlyGivenNames y; guard_hyp y : Power := _; subst y)
    | (extract_lets +onlyGivenNames y; guard_hyp y : Trans := _; subst y)
    | (extract_lets +onlyGivenNames y; guard_hyp y : Prot := _; subst y)
    | (extract_lets +onlyGivenNames y; guard_hyp y : Persist := _; subst y)
    | (extract_lets +onlyGivenNames y; guard_hyp y : Sgl := _; subst y)
    | (extract_lets +onlyGivenNames y; guard_hyp y : Sec := _; subst y)
    | (extract_lets +onlyGivenNames y; clear_value y)
    | extract_lets +onlyGivenNames y
    | with_reducible apply OnlyChanges.ite
    | split
    | (with_reducible apply OnlyChanges.upd2; (on_goal 1 => decide))

theorem setPstPort_frame {a0} {a1} {x : State} : OnlyChanges [.pst] x (setPstPort a0 a1 x) := by
  unfold setPstPort
  repeat' first
    | with_reducible assumption
    | with_reducible apply OnlyChanges.refl
    | (extract_lets +onlyGivenNames y; guard_hyp y : State := Prod.snd _; subst y)
    | (extract_lets +onlyGivenNames y; guard_hyp y : State := _; apply OnlyChanges.cut y; (on_goal 1 => (unfold y; clear y)); (on_goal 2 => (intro hx; clear_value y)))
    | (extract_lets +onlyGivenNames y; guard_hyp y : _ × State := _; apply OnlyChanges.cutP y; (on_goal 1 => (unfold y; clear y)); (on_goal 2 => (intro hx; clear_value y)))
    | (extract_lets +onlyGivenNames y; guard_hyp y : _ × _ × State := _; apply OnlyChanges.cutPP y; (on_goal 1 => (unfold y; clear y)); (on_goal 2 => (intro hx; clear_value y)))
    | (extract_lets +onlyGivenNames y; guard_hyp y : Boxes := _; subst y)
    | (extract_lets +onlyGivenNames y; guard_hyp y : Power := _; subst y)
    | (extract_lets +onlyGivenNames y; guard_hyp y : Trans := _; subst y)
    | (extract_lets +onlyGivenNames y; guard_hyp y : Prot := _; subst y)
    | (extract_lets +onlyGivenNames y; guard_hyp y : Persist := _; subst y)
    | (extract_lets +onlyGivenNames y; guard_hyp y : Sgl := _; subst y)
    | (extract_lets +onlyGivenNames y; guard_hyp y : Sec := _; subst y)
    | (extract_lets +onlyGivenNames y; clear_value y)
    | extract_lets +onlyGivenNames y
    | with_reducible apply OnlyChanges.ite
    | split
    | (with_reducible apply OnlyChanges.upd4; (on_goal 1 => decide))

theorem execPstWdataWrite_frame {a0} {a1} {x t : State} (h : execPstWdataWrite a0 a1 x = .next t) :
    OnlyChanges [.pst] x t := by
  unfold execPstWdataWrite at h
  first
    | (injection h with h; subst h)
    | (split at h <;> (first | (injection h with h; subst h) | cases h))
  all_goals
    repeat' first
      | with_reducible assumption
      | with_reducible apply OnlyChanges.refl
      | (extract_lets +onlyGivenNames y; guard_hyp y : State := Prod.snd _; subst y)
      | (extract_lets +onlyGivenNames y; guard_hyp y : State := _; apply OnlyChanges.cut y; (on_goal 1 => (unfold y; clear y)); (on_goal 2 => (intro hx; clear_value y)))
      | (extract_lets +onlyGivenNames y; guard_hyp y : _ × State := _; apply OnlyChanges.cutP y; (on_goal 1 => (unfold y; clear y)); (on_goal 2 => (intro hx; clear_value y)))
      | (extract_lets +onlyGivenNames y; guard_hyp y : _ × _ × State := _; apply OnlyChanges.cutPP y; (on_goal 1 => (unfold y; clear y)); (on_goal 2 => (intro hx; clear_value y)))
      | (extract_lets +onlyGivenNames y; guard_hyp y : Boxes := _; subst y)
      | (extract_lets +onlyGivenNames y; guard_hyp y : Power := _; subst y)
      | (extract_lets +onlyGivenNames y; guard_hyp y : Trans := _; subst y)
      | (extract_lets +onlyGivenNames y; guard_hyp y : Prot := _; subst y)
      | (extract_lets +onlyGivenNames y; guard_hyp y : Persist := _; subst y)
      | (extract_lets +onlyGivenNames y; guard_hyp y : Sgl := _; subst y)
      | (extract_lets +onlyGivenNames y; guard_hyp y : Sec := _; subst y)
      | (extract_lets +onlyGivenNames y; clear_value y)
      | extract_lets +onlyGivenNames y
      | with_reducible apply OnlyChanges.ite
      | (with_reducible apply OnlyChanges.step setPstPort_frame; (on_goal 1 => decide))
      | split

theorem pstCutJob_frame {a0} {x : State} : OnlyChanges [.pst, .freeCtr] x (pstCutJob a0 x) := by
  unfold pstCutJob
  repeat' first
    | with_reducible assumption
    | with_reducible apply OnlyChanges.refl
    | (extract_lets +onlyGivenNames y; guard_hyp y : State := Prod.snd _; subst y)
    | (extract_lets +onlyGivenNames y; guard_hyp y : State := _; apply OnlyChanges.cut y; (on_goal 1 => (unfold y; clear y)); (on_goal 2 => (intro hx; clear_value y)))
    | (extract_lets +onlyGivenNames y; guard_hyp y : _ × State := _; apply OnlyChanges.cutP y; (on_goal 1 => (unfold y; clear y)); (on_goal 2 => (intro hx; clear_value y)))
    | (extract_lets +onlyGivenNames y; guard_hyp y : _ × _ × State := _; apply OnlyChanges.cutPP y; (on_goal 1 => (unfold y; clear y)); (on_goal 2 => (intro hx; clear_value y)))
    | (extract_lets +onlyGivenNames y; guard_hyp y : Boxes := _; subst y)
    | (extract_lets +onlyGivenNames y; guard_hyp y : Power := _; subst y)
    | (extract_lets +onlyGivenNames y; guard_hyp y : Trans := _; subst y)
    | (extract_lets +onlyGivenNames y; guard_hyp y : Prot := _; subst y)
    | (extract_lets +onlyGivenNames y; guard_hyp y : Persist := _; subst y)
    | (extract_lets +onlyGivenNames y; guard_hyp y : Sgl := _; subst y)
    | (extract_lets +onlyGivenNames y; guard_hyp y : Sec := _; subst y)
    | (extract_lets +onlyGivenNames y; clear_value y)
    | extract_lets +onlyGivenNames y
    | with_reducible apply OnlyChanges.ite
    | (with_reducible apply OnlyChangesP.step drawN_frame; (on_goal 1 => decide))
    | (with_reducible apply OnlyChangesP.snd drawN_frame; (on_goal 1 => decide))
    | (with_reducible apply OnlyChanges.ofPair; (on_goal 1 => assumption))
    | split
    | (with_reducible apply OnlyChanges.upd4; (on_goal 1 => decide))

theorem pstCut_frame  {x : State} : OnlyChanges [.pst, .freeCtr] x (pstCut x) := by
  unfold pstCut
  repeat' first
    | with_reducible assumption
    | with_reducible apply OnlyChanges.refl
    | (extract_lets +onlyGivenNames y; guard_hyp y : State := Prod.snd _; subst y)
    | (extract_lets +onlyGivenNames y; guard_hyp y : State := _; apply OnlyChanges.cut y; (on_goal 1 => (unfold y; clear y)); (on_goal 2 => (intro hx; clear_value y)))
    | (extract_lets +onlyGivenNames y; guard_hyp y : _ × State := _; apply OnlyChanges.cutP y; (on_goal 1 => (unfold y; clear y)); (on_goal 2 => (intro hx; clear_value y)))
    | (extract_lets +onlyGivenNames y; guard_hyp y : _ × _ × State := _; apply OnlyChanges.cutPP y; (on_goal 1 => (unfold y; clear y)); (on_goal 2 => (intro hx; clear_value y)))
    | (extract_lets +onlyGivenNames y; guard_hyp y : Boxes := _; subst y)
    | (extract_lets +onlyGivenNames y; guard_hyp y : Power := _; subst y)
    | (extract_lets +onlyGivenNames y; guard_hyp y : Trans := _; subst y)
    | (extract_lets +onlyGivenNames y; guard_hyp y : Prot := _; subst y)
    | (extract_lets +onlyGivenNames y; guard_hyp y : Persist := _; subst y)
    | (extract_lets +onlyGivenNames y; guard_hyp y : Sgl := _; subst y)
    | (extract_lets +onlyGivenNames y; guard_hyp y : Sec := _; subst y)
    | (extract_lets +onlyGivenNames y; clear_value y)
    | extract_lets +onlyGivenNames y
    | with_reducible apply OnlyChanges.ite
    | (with_reducible apply OnlyChanges.step pstCutJob_frame; (on_goal 1 => decide))
    | (with_reducible apply OnlyChanges.foldl; (on_goal 2 => intro z a))
    | (with_reducible apply OnlyChangesP.foldl; (on_goal 2 => intro z a))
    | split
    | (with_reducible apply OnlyChanges.upd4; (on_goal 1 => decide))

theorem drainOne_frame  {x : State} : OnlyChanges [.evr, .cxlA, .cxlB, .outs] x (drainOne x) := by
  unfold drainOne
  repeat' first
    | with_reducible assumption
    | with_reducible apply OnlyChanges.refl
    | (extract_lets +onlyGivenNames y; guard_hyp y : State := Prod.snd _; subst y)
    | (extract_lets +onlyGivenNames y; guard_hyp y : State := _; apply OnlyChanges.cut y; (on_goal 1 => (unfold y; clear y)); (on_goal 2 => (intro hx; clear_value y)))
    | (extract_lets +onlyGivenNames y; guard_hyp y : _ × State := _; apply OnlyChanges.cutP y; (on_goal 1 => (unfold y; clear y)); (on_goal 2 => (intro hx; clear_value y)))
    | (extract_lets +onlyGivenNames y; guard_hyp y : _ × _ × State := _; apply OnlyChanges.cutPP y; (on_goal 1 => (unfold y; clear y)); (on_goal 2 => (intro hx; clear_value y)))
    | (extract_lets +onlyGivenNames y; guard_hyp y : Boxes := _; subst y)
    | (extract_lets +onlyGivenNames y; guard_hyp y : Power := _; subst y)
    | (extract_lets +onlyGivenNames y; guard_hyp y : Trans := _; subst y)
    | (extract_lets +onlyGivenNames y; guard_hyp y : Prot := _; subst y)
    | (extract_lets +onlyGivenNames y; guard_hyp y : Persist := _; subst y)
    | (extract_lets +onlyGivenNames y; guard_hyp y : Sgl := _; subst y)
    | (extract_lets +onlyGivenNames y; guard_hyp y : Sec := _; subst y)
    | (extract_lets +onlyGivenNames y; clear_value y)
    | extract_lets +onlyGivenNames y
    | with_reducible apply OnlyChanges.ite
    | (with_reducible apply OnlyChanges.step mergeRecord_frame; (on_goal 1 => decide))
    | (with_reducible apply OnlyChanges.step writeRecord_frame; (on_goal 1 => decide))
    | split
    | (with_reducible apply OnlyChanges.upd2; (on_goal 1 => decide))

theorem drainUpTo_frame {a0} {x : State} : OnlyChanges [.evr, .cxlA, .cxlB, .outs] x (drainUpTo a0 x) := by
  induction a0 generalizing x with
  | zero =>
    unfold drainUpTo
    repeat' first
      | with_reducible assumption
      | with_reducible apply OnlyChanges.refl
      | with_reducible apply OnlyChanges.ite
      | (with_reducible apply OnlyChanges.step drainOne_frame; (on_goal 1 => decide))
      | split
  | succ k ih =>
    unfold drainUpTo
    repeat' first
      | with_reducible assumption
      | with_reducible apply OnlyChanges.refl
      | with_reducible apply OnlyChanges.ite
      | (with_reducible apply OnlyChanges.step drainOne_frame; (on_goal 1 => decide))
      | (with_reducible apply OnlyChanges.step ih; (on_goal 1 => decide))
      | split

theorem execEventQueueDrain_frame  {x t : State} (h : execEventQueueDrain x = .next t) :
    OnlyChanges [.evr, .cxlA, .cxlB, .outs] x t := by
  unfold execEventQueueDrain at h
  first
    | (injection h with h; subst h)
    | (split at h <;> (first | (injection h with h; subst h) | cases h))
  all_goals
    repeat' first
      | with_reducible assumption
      | with_reducible apply OnlyChanges.refl
      | with_reducible apply OnlyChanges.ite
      | (with_reducible apply OnlyChanges.step drainUpTo_frame; (on_goal 1 => decide))
      | split

theorem execEvrAdvance_frame {a0} {x t : State} (h : execEvrAdvance a0 x = .next t) :
    OnlyChanges [.evr, .outs] x t := by
  unfold execEvrAdvance at h
  first
    | (injection h with h; subst h)
    | (split at h <;> (first | (injection h with h; subst h) | cases h))
  all_goals
    repeat' first
      | with_reducible assumption
      | with_reducible apply OnlyChanges.refl
      | (extract_lets +onlyGivenNames y; guard_hyp y : State := Prod.snd _; subst y)
      | (extract_lets +onlyGivenNames y; guard_hyp y : State := _; apply OnlyChanges.cut y; (on_goal 1 => (unfold y; clear y)); (on_goal 2 => (intro hx; clear_value y)))
      | (extract_lets +onlyGivenNames y; guard_hyp y : _ × State := _; apply OnlyChanges.cutP y; (on_goal 1 => (unfold y; clear y)); (on_goal 2 => (intro hx; clear_value y)))
      | (extract_lets +onlyGivenNames y; guard_hyp y : _ × _ × State := _; apply OnlyChanges.cutPP y; (on_goal 1 => (unfold y; clear y)); (on_goal 2 => (intro hx; clear_value y)))
      | (extract_lets +onlyGivenNames y; guard_hyp y : Boxes := _; subst y)
      | (extract_lets +onlyGivenNames y; guard_hyp y : Power := _; subst y)
      | (extract_lets +onlyGivenNames y; guard_hyp y : Trans := _; subst y)
      | (extract_lets +onlyGivenNames y; guard_hyp y : Prot := _; subst y)
      | (extract_lets +onlyGivenNames y; guard_hyp y : Persist := _; subst y)
      | (extract_lets +onlyGivenNames y; guard_hyp y : Sgl := _; subst y)
      | (extract_lets +onlyGivenNames y; guard_hyp y : Sec := _; subst y)
      | (extract_lets +onlyGivenNames y; clear_value y)
      | extract_lets +onlyGivenNames y
      | with_reducible apply OnlyChanges.ite
      | (with_reducible apply OnlyChanges.step emit_frame; (on_goal 1 => decide))
      | (with_reducible apply OnlyChanges.step setCursor_frame; (on_goal 1 => decide))
      | split

theorem pstStartNext_frame {a0} {x : State} : OnlyChanges [.pst] x (pstStartNext a0 x) := by
  unfold pstStartNext
  repeat' first
    | with_reducible assumption
    | with_reducible apply OnlyChanges.refl
    | (extract_lets +onlyGivenNames y; guard_hyp y : State := Prod.snd _; subst y)
    | (extract_lets +onlyGivenNames y; guard_hyp y : State := _; apply OnlyChanges.cut y; (on_goal 1 => (unfold y; clear y)); (on_goal 2 => (intro hx; clear_value y)))
    | (extract_lets +onlyGivenNames y; guard_hyp y : _ × State := _; apply OnlyChanges.cutP y; (on_goal 1 => (unfold y; clear y)); (on_goal 2 => (intro hx; clear_value y)))
    | (extract_lets +onlyGivenNames y; guard_hyp y : _ × _ × State := _; apply OnlyChanges.cutPP y; (on_goal 1 => (unfold y; clear y)); (on_goal 2 => (intro hx; clear_value y)))
    | (extract_lets +onlyGivenNames y; guard_hyp y : Boxes := _; subst y)
    | (extract_lets +onlyGivenNames y; guard_hyp y : Power := _; subst y)
    | (extract_lets +onlyGivenNames y; guard_hyp y : Trans := _; subst y)
    | (extract_lets +onlyGivenNames y; guard_hyp y : Prot := _; subst y)
    | (extract_lets +onlyGivenNames y; guard_hyp y : Persist := _; subst y)
    | (extract_lets +onlyGivenNames y; guard_hyp y : Sgl := _; subst y)
    | (extract_lets +onlyGivenNames y; guard_hyp y : Sec := _; subst y)
    | (extract_lets +onlyGivenNames y; clear_value y)
    | extract_lets +onlyGivenNames y
    | with_reducible apply OnlyChanges.ite
    | split
    | (with_reducible apply OnlyChanges.upd4; (on_goal 1 => decide))

theorem pstFinish_frame {a0} {x : State} : OnlyChanges [.pst] x (pstFinish a0 x) := by
  unfold pstFinish
  repeat' first
    | with_reducible assumption
    | with_reducible apply OnlyChanges.refl
    | (extract_lets +onlyGivenNames y; guard_hyp y : State := Prod.snd _; subst y)
    | (extract_lets +onlyGivenNames y; guard_hyp y : State := _; apply OnlyChanges.cut y; (on_goal 1 => (unfold y; clear y)); (on_goal 2 => (intro hx; clear_value y)))
    | (extract_lets +onlyGivenNames y; guard_hyp y : _ × State := _; apply OnlyChanges.cutP y; (on_goal 1 => (unfold y; clear y)); (on_goal 2 => (intro hx; clear_value y)))
    | (extract_lets +onlyGivenNames y; guard_hyp y : _ × _ × State := _; apply OnlyChanges.cutPP y; (on_goal 1 => (unfold y; clear y)); (on_goal 2 => (intro hx; clear_value y)))
    | (extract_lets +onlyGivenNames y; guard_hyp y : Boxes := _; subst y)
    | (extract_lets +onlyGivenNames y; guard_hyp y : Power := _; subst y)
    | (extract_lets +onlyGivenNames y; guard_hyp y : Trans := _; subst y)
    | (extract_lets +onlyGivenNames y; guard_hyp y : Prot := _; subst y)
    | (extract_lets +onlyGivenNames y; guard_hyp y : Persist := _; subst y)
    | (extract_lets +onlyGivenNames y; guard_hyp y : Sgl := _; subst y)
    | (extract_lets +onlyGivenNames y; guard_hyp y : Sec := _; subst y)
    | (extract_lets +onlyGivenNames y; clear_value y)
    | extract_lets +onlyGivenNames y
    | with_reducible apply OnlyChanges.ite
    | (with_reducible apply OnlyChanges.foldl; (on_goal 2 => intro z a))
    | (with_reducible apply OnlyChangesP.foldl; (on_goal 2 => intro z a))
    | split
    | (with_reducible apply OnlyChanges.upd4; (on_goal 1 => decide))

theorem execPstWriteDone_frame {a0} {x t : State} (h : execPstWriteDone a0 x = .next t) :
    OnlyChanges [.pst] x t := by
  unfold execPstWriteDone at h
  first
    | (injection h with h; subst h)
    | (split at h <;> (first | (injection h with h; subst h) | cases h))
  all_goals
    repeat' first
      | with_reducible assumption
      | with_reducible apply OnlyChanges.refl
      | (extract_lets +onlyGivenNames y; guard_hyp y : State := Prod.snd _; subst y)
      | (extract_lets +onlyGivenNames y; guard_hyp y : State := _; apply OnlyChanges.cut y; (on_goal 1 => (unfold y; clear y)); (on_goal 2 => (intro hx; clear_value y)))
      | (extract_lets +onlyGivenNames y; guard_hyp y : _ × State := _; apply OnlyChanges.cutP y; (on_goal 1 => (unfold y; clear y)); (on_goal 2 => (intro hx; clear_value y)))
      | (extract_lets +onlyGivenNames y; guard_hyp y : _ × _ × State := _; apply OnlyChanges.cutPP y; (on_goal 1 => (unfold y; clear y)); (on_goal 2 => (intro hx; clear_value y)))
      | (extract_lets +onlyGivenNames y; guard_hyp y : Boxes := _; subst y)
      | (extract_lets +onlyGivenNames y; guard_hyp y : Power := _; subst y)
      | (extract_lets +onlyGivenNames y; guard_hyp y : Trans := _; subst y)
      | (extract_lets +onlyGivenNames y; guard_hyp y : Prot := _; subst y)
      | (extract_lets +onlyGivenNames y; guard_hyp y : Persist := _; subst y)
      | (extract_lets +onlyGivenNames y; guard_hyp y : Sgl := _; subst y)
      | (extract_lets +onlyGivenNames y; guard_hyp y : Sec := _; subst y)
      | (extract_lets +onlyGivenNames y; clear_value y)
      | extract_lets +onlyGivenNames y
      | with_reducible apply OnlyChanges.ite
      | (with_reducible apply OnlyChanges.step pstStartNext_frame; (on_goal 1 => decide))
      | (with_reducible apply OnlyChanges.step pstFinish_frame; (on_goal 1 => decide))
      | split
      | (with_reducible apply OnlyChanges.upd4; (on_goal 1 => decide))

theorem traceSeen_frame {a0} {a1} {x : State} : OnlyChanges [.trb] x (traceSeen a0 a1 x) := by
  unfold traceSeen
  repeat' first
    | with_reducible assumption
    | with_reducible apply OnlyChanges.refl
    | (extract_lets +onlyGivenNames y; guard_hyp y : State := Prod.snd _; subst y)
    | (extract_lets +onlyGivenNames y; guard_hyp y : State := _; apply OnlyChanges.cut y; (on_goal 1 => (unfold y; clear y)); (on_goal 2 => (intro hx; clear_value y)))
    | (extract_lets +onlyGivenNames y; guard_hyp y : _ × State := _; apply OnlyChanges.cutP y; (on_goal 1 => (unfold y; clear y)); (on_goal 2 => (intro hx; clear_value y)))
    | (extract_lets +onlyGivenNames y; guard_hyp y : _ × _ × State := _; apply OnlyChanges.cutPP y; (on_goal 1 => (unfold y; clear y)); (on_goal 2 => (intro hx; clear_value y)))
    | (extract_lets +onlyGivenNames y; guard_hyp y : Boxes := _; subst y)
    | (extract_lets +onlyGivenNames y; guard_hyp y : Power := _; subst y)
    | (extract_lets +onlyGivenNames y; guard_hyp y : Trans := _; subst y)
    | (extract_lets +onlyGivenNames y; guard_hyp y : Prot := _; subst y)
    | (extract_lets +onlyGivenNames y; guard_hyp y : Persist := _; subst y)
    | (extract_lets +onlyGivenNames y; guard_hyp y : Sgl := _; subst y)
    | (extract_lets +onlyGivenNames y; guard_hyp y : Sec := _; subst y)
    | (extract_lets +onlyGivenNames y; clear_value y)
    | extract_lets +onlyGivenNames y
    | with_reducible apply OnlyChanges.ite
    | split
    | (with_reducible apply OnlyChanges.upd16; (on_goal 1 => decide))

theorem execPstRead_frame {a0} {a1} {x t : State} (h : execPstRead a0 a1 x = .next t) :
    OnlyChanges [.pst, .portA, .portB, .outs] x t := by
  unfold execPstRead at h
  first
    | (injection h with h; subst h)
    | (split at h <;> (first | (injection h with h; subst h) | cases h))
  all_goals
    repeat' first
      | with_reducible assumption
      | with_reducible apply OnlyChanges.refl
      | (extract_lets +onlyGivenNames y; guard_hyp y : State := Prod.snd _; subst y)
      | (extract_lets +onlyGivenNames y; guard_hyp y : State := _; apply OnlyChanges.cut y; (on_goal 1 => (unfold y; clear y)); (on_goal 2 => (intro hx; clear_value y)))
      | (extract_lets +onlyGivenNames y; guard_hyp y : _ × State := _; apply OnlyChanges.cutP y; (on_goal 1 => (unfold y; clear y)); (on_goal 2 => (intro hx; clear_value y)))
      | (extract_lets +onlyGivenNames y; guard_hyp y : _ × _ × State := _; apply OnlyChanges.cutPP y; (on_goal 1 => (unfold y; clear y)); (on_goal 2 => (intro hx; clear_value y)))
      | (extract_lets +onlyGivenNames y; guard_hyp y : Boxes := _; subst y)
      | (extract_lets +onlyGivenNames y; guard_hyp y : Power := _; subst y)
      | (extract_lets +onlyGivenNames y; guard_hyp y : Trans := _; subst y)
      | (extract_lets +onlyGivenNames y; guard_hyp y : Prot := _; subst y)
      | (extract_lets +onlyGivenNames y; guard_hyp y : Persist := _; subst y)
      | (extract_lets +onlyGivenNames y; guard_hyp y : Sgl := _; subst y)
      | (extract_lets +onlyGivenNames y; guard_hyp y : Sec := _; subst y)
      | (extract_lets +onlyGivenNames y; clear_value y)
      | extract_lets +onlyGivenNames y
      | with_reducible apply OnlyChanges.ite
      | (with_reducible apply OnlyChanges.step emit_frame; (on_goal 1 => decide))
      | (with_reducible apply OnlyChanges.step setPstPort_frame; (on_goal 1 => decide))
      | (with_reducible apply OnlyChanges.step noRight_frame; (on_goal 1 => decide))
      | split

theorem setTrbCursor_frame {a0} {a1} {x : State} : OnlyChanges [.trb] x (setTrbCursor a0 a1 x) := by
  unfold setTrbCursor
  repeat' first
    | with_reducible assumption
    | with_reducible apply OnlyChanges.refl
    | (extract_lets +onlyGivenNames y; guard_hyp y : State := Prod.snd _; subst y)
    | (extract_lets +onlyGivenNames y; guard_hyp y : State := _; apply OnlyChanges.cut y; (on_goal 1 => (unfold y; clear y)); (on_goal 2 => (intro hx; clear_value y)))
    | (extract_lets +onlyGivenNames y; guard_hyp y : _ × State := _; apply OnlyChanges.cutP y; (on_goal 1 => (unfold y; clear y)); (on_goal 2 => (intro hx; clear_value y)))
    | (extract_lets +onlyGivenNames y; guard_hyp y : _ × _ × State := _; apply OnlyChanges.cutPP y; (on_goal 1 => (unfold y; clear y)); (on_goal 2 => (intro hx; clear_value y)))
    | (extract_lets +onlyGivenNames y; guard_hyp y : Boxes := _; subst y)
    | (extract_lets +onlyGivenNames y; guard_hyp y : Power := _; subst y)
    | (extract_lets +onlyGivenNames y; guard_hyp y : Trans := _; subst y)
    | (extract_lets +onlyGivenNames y; guard_hyp y : Prot := _; subst y)
    | (extract_lets +onlyGivenNames y; guard_hyp y : Persist := _; subst y)
    | (extract_lets +onlyGivenNames y; guard_hyp y : Sgl := _; subst y)
    | (extract_lets +onlyGivenNames y; guard_hyp y : Sec := _; subst y)
    | (extract_lets +onlyGivenNames y; clear_value y)
    | extract_lets +onlyGivenNames y
    | with_reducible apply OnlyChanges.ite
    | split
    | (with_reducible apply OnlyChanges.upd16; (on_goal 1 => decide))

theorem pmcCnt_frame {a0} {a1} {x : State} : OnlyChangesP [.freeCtr] x (pmcCnt a0 a1 x) := by
  unfold pmcCnt
  repeat' first
    | with_reducible assumption
    | with_reducible apply OnlyChanges.refl
    | (extract_lets +onlyGivenNames y; guard_hyp y : State := Prod.snd _; subst y)
    | (extract_lets +onlyGivenNames y; guard_hyp y : State := _; apply OnlyChangesP.cut y; (on_goal 1 => (unfold y; clear y)); (on_goal 2 => (intro hx; clear_value y)))
    | (extract_lets +onlyGivenNames y; guard_hyp y : _ × State := _; apply OnlyChangesP.cutP y; (on_goal 1 => (unfold y; clear y)); (on_goal 2 => (intro hx; clear_value y)))
    | (extract_lets +onlyGivenNames y; guard_hyp y : _ × _ × State := _; apply OnlyChangesP.cutPP y; (on_goal 1 => (unfold y; clear y)); (on_goal 2 => (intro hx; clear_value y)))
    | (extract_lets +onlyGivenNames y; guard_hyp y : Boxes := _; subst y)
    | (extract_lets +onlyGivenNames y; guard_hyp y : Power := _; subst y)
    | (extract_lets +onlyGivenNames y; guard_hyp y : Trans := _; subst y)
    | (extract_lets +onlyGivenNames y; guard_hyp y : Prot := _; subst y)
    | (extract_lets +onlyGivenNames y; guard_hyp y : Persist := _; subst y)
    | (extract_lets +onlyGivenNames y; guard_hyp y : Sgl := _; subst y)
    | (extract_lets +onlyGivenNames y; guard_hyp y : Sec := _; subst y)
    | (extract_lets +onlyGivenNames y; clear_value y)
    | extract_lets +onlyGivenNames y
    | with_reducible apply OnlyChanges.ite
    | with_reducible apply OnlyChangesP.ite
    | (with_reducible apply OnlyChangesP.step draw_frame; (on_goal 1 => decide))
    | (with_reducible apply OnlyChangesP.snd draw_frame; (on_goal 1 => decide))
    | (with_reducible apply OnlyChanges.ofPair; (on_goal 1 => assumption))
    | split
    | with_reducible apply OnlyChangesP.mk

theorem execPstProgram_frame {a0} {a1} {x t : State} (h : execPstProgram a0 a1 x = .next t) :
    OnlyChanges [.pst, .portA, .portB] x t := by
  unfold execPstProgram at h
  first
    | (injection h with h; subst h)
    | (split at h <;> (first | (injection h with h; subst h) | cases h))
  all_goals
    repeat' first
      | with_reducible assumption
      | with_reducible apply OnlyChanges.refl
      | (extract_lets +onlyGivenNames y; guard_hyp y : State := Prod.snd _; subst y)
      | (extract_lets +onlyGivenNames y; guard_hyp y : State := _; apply OnlyChanges.cut y; (on_goal 1 => (unfold y; clear y)); (on_goal 2 => (intro hx; clear_value y)))
      | (extract_lets +onlyGivenNames y; guard_hyp y : _ × State := _; apply OnlyChanges.cutP y; (on_goal 1 => (unfold y; clear y)); (on_goal 2 => (intro hx; clear_value y)))
      | (extract_lets +onlyGivenNames y; guard_hyp y : _ × _ × State := _; apply OnlyChanges.cutPP y; (on_goal 1 => (unfold y; clear y)); (on_goal 2 => (intro hx; clear_value y)))
      | (extract_lets +onlyGivenNames y; guard_hyp y : Boxes := _; subst y)
      | (extract_lets +onlyGivenNames y; guard_hyp y : Power := _; subst y)
      | (extract_lets +onlyGivenNames y; guard_hyp y : Trans := _; subst y)
      | (extract_lets +onlyGivenNames y; guard_hyp y : Prot := _; subst y)
      | (extract_lets +onlyGivenNames y; guard_hyp y : Persist := _; subst y)
      | (extract_lets +onlyGivenNames y; guard_hyp y : Sgl := _; subst y)
      | (extract_lets +onlyGivenNames y; guard_hyp y : Sec := _; subst y)
      | (extract_lets +onlyGivenNames y; clear_value y)
      | extract_lets +onlyGivenNames y
      | with_reducible apply OnlyChanges.ite
      | (with_reducible apply OnlyChanges.step setPstPort_frame; (on_goal 1 => decide))
      | (with_reducible apply OnlyChanges.step noRight_frame; (on_goal 1 => decide))
      | split
      | (with_reducible apply OnlyChanges.upd4; (on_goal 1 => decide))

theorem execPmcFreeze_frame {a0} {a1} {x t : State} (h : execPmcFreeze a0 a1 x = .next t) :
    OnlyChanges [.pmc, .portA, .portB] x t := by
  unfold execPmcFreeze at h
  first
    | (injection h with h; subst h)
    | (split at h <;> (first | (injection h with h; subst h) | cases h))
  all_goals
    repeat' first
      | with_reducible assumption
      | with_reducible apply OnlyChanges.refl
      | (extract_lets +onlyGivenNames y; guard_hyp y : State := Prod.snd _; subst y)
      | (extract_lets +onlyGivenNames y; guard_hyp y : State := _; apply OnlyChanges.cut y; (on_goal 1 => (unfold y; clear y)); (on_goal 2 => (intro hx; clear_value y)))
      | (extract_lets +onlyGivenNames y; guard_hyp y : _ × State := _; apply OnlyChanges.cutP y; (on_goal 1 => (unfold y; clear y)); (on_goal 2 => (intro hx; clear_value y)))
      | (extract_lets +onlyGivenNames y; guard_hyp y : _ × _ × State := _; apply OnlyChanges.cutPP y; (on_goal 1 => (unfold y; clear y)); (on_goal 2 => (intro hx; clear_value y)))
      | (extract_lets +onlyGivenNames y; guard_hyp y : Boxes := _; subst y)
      | (extract_lets +onlyGivenNames y; guard_hyp y : Power := _; subst y)
      | (extract_lets +onlyGivenNames y; guard_hyp y : Trans := _; subst y)
      | (extract_lets +onlyGivenNames y; guard_hyp y : Prot := _; subst y)
      | (extract_lets +onlyGivenNames y; guard_hyp y : Persist := _; subst y)
      | (extract_lets +onlyGivenNames y; guard_hyp y : Sgl := _; subst y)
      | (extract_lets +onlyGivenNames y; guard_hyp y : Sec := _; subst y)
      | (extract_lets +onlyGivenNames y; clear_value y)
      | extract_lets +onlyGivenNames y
      | with_reducible apply OnlyChanges.ite
      | (with_reducible apply OnlyChanges.step noRight_frame; (on_goal 1 => decide))
      | split
      | (with_reducible apply OnlyChanges.upd8; (on_goal 1 => decide))

theorem execTrbSnapshot_frame {a0} {x t : State} (h : execTrbSnapshot a0 x = .next t) :
    OnlyChanges [.trb, .outs] x t := by
  unfold execTrbSnapshot at h
  first
    | (injection h with h; subst h)
    | (split at h <;> (first | (injection h with h; subst h) | cases h))
  all_goals
    repeat' first
      | with_reducible assumption
      | with_reducible apply OnlyChanges.refl
      | (extract_lets +onlyGivenNames y; guard_hyp y : State := Prod.snd _; subst y)
      | (extract_lets +onlyGivenNames y; guard_hyp y : State := _; apply OnlyChanges.cut y; (on_goal 1 => (unfold y; clear y)); (on_goal 2 => (intro hx; clear_value y)))
      | (extract_lets +onlyGivenNames y; guard_hyp y : _ × State := _; apply OnlyChanges.cutP y; (on_goal 1 => (unfold y; clear y)); (on_goal 2 => (intro hx; clear_value y)))
      | (extract_lets +onlyGivenNames y; guard_hyp y : _ × _ × State := _; apply OnlyChanges.cutPP y; (on_goal 1 => (unfold y; clear y)); (on_goal 2 => (intro hx; clear_value y)))
      | (extract_lets +onlyGivenNames y; guard_hyp y : Boxes := _; subst y)
      | (extract_lets +onlyGivenNames y; guard_hyp y : Power := _; subst y)
      | (extract_lets +onlyGivenNames y; guard_hyp y : Trans := _; subst y)
      | (extract_lets +onlyGivenNames y; guard_hyp y : Prot := _; subst y)
      | (extract_lets +onlyGivenNames y; guard_hyp y : Persist := _; subst y)
      | (extract_lets +onlyGivenNames y; guard_hyp y : Sgl := _; subst y)
      | (extract_lets +onlyGivenNames y; guard_hyp y : Sec := _; subst y)
      | (extract_lets +onlyGivenNames y; clear_value y)
      | extract_lets +onlyGivenNames y
      | with_reducible apply OnlyChanges.ite
      | (with_reducible apply OnlyChanges.step setTrbCursor_frame; (on_goal 1 => decide))
      | (with_reducible apply OnlyChanges.step emit_frame; (on_goal 1 => decide))
      | split

theorem execEvrSnapshot_frame {a0} {x t : State} (h : execEvrSnapshot a0 x = .next t) :
    OnlyChanges [.evr, .outs] x t := by
  unfold execEvrSnapshot at h
  first
    | (injection h with h; subst h)
    | (split at h <;> (first | (injection h with h; subst h) | cases h))
  all_goals
    repeat' first
      | with_reducible assumption
      | with_reducible apply OnlyChanges.refl
      | (extract_lets +onlyGivenNames y; guard_hyp y : State := Prod.snd _; subst y)
      | (extract_lets +onlyGivenNames y; guard_hyp y : State := _; apply OnlyChanges.cut y; (on_goal 1 => (unfold y; clear y)); (on_goal 2 => (intro hx; clear_value y)))
      | (extract_lets +onlyGivenNames y; guard_hyp y : _ × State := _; apply OnlyChanges.cutP y; (on_goal 1 => (unfold y; clear y)); (on_goal 2 => (intro hx; clear_value y)))
      | (extract_lets +onlyGivenNames y; guard_hyp y : _ × _ × State := _; apply OnlyChanges.cutPP y; (on_goal 1 => (unfold y; clear y)); (on_goal 2 => (intro hx; clear_value y)))
      | (extract_lets +onlyGivenNames y; guard_hyp y : Boxes := _; subst y)
      | (extract_lets +onlyGivenNames y; guard_hyp y : Power := _; subst y)
      | (extract_lets +onlyGivenNames y; guard_hyp y : Trans := _; subst y)
      | (extract_lets +onlyGivenNames y; guard_hyp y : Prot := _; subst y)
      | (extract_lets +onlyGivenNames y; guard_hyp y : Persist := _; subst y)
      | (extract_lets +onlyGivenNames y; guard_hyp y : Sgl := _; subst y)
      | (extract_lets +onlyGivenNames y; guard_hyp y : Sec := _; subst y)
      | (extract_lets +onlyGivenNames y; clear_value y)
      | extract_lets +onlyGivenNames y
      | with_reducible apply OnlyChanges.ite
      | (with_reducible apply OnlyChanges.step emit_frame; (on_goal 1 => decide))
      | (with_reducible apply OnlyChanges.step setCursor_frame; (on_goal 1 => decide))
      | split

theorem execTrbAdvance_frame {a0} {x t : State} (h : execTrbAdvance a0 x = .next t) :
    OnlyChanges [.trb, .outs] x t := by
  unfold execTrbAdvance at h
  first
    | (injection h with h; subst h)
    | (split at h <;> (first | (injection h with h; subst h) | cases h))
  all_goals
    repeat' first
      | with_reducible assumption
      | with_reducible apply OnlyChanges.refl
      | (extract_lets +onlyGivenNames y; guard_hyp y : State := Prod.snd _; subst y)
      | (extract_lets +onlyGivenNames y; guard_hyp y : State := _; apply OnlyChanges.cut y; (on_goal 1 => (unfold y; clear y)); (on_goal 2 => (intro hx; clear_value y)))
      | (extract_lets +onlyGivenNames y; guard_hyp y : _ × State := _; apply OnlyChanges.cutP y; (on_goal 1 => (unfold y; clear y)); (on_goal 2 => (intro hx; clear_value y)))
      | (extract_lets +onlyGivenNames y; guard_hyp y : _ × _ × State := _; apply OnlyChanges.cutPP y; (on_goal 1 => (unfold y; clear y)); (on_goal 2 => (intro hx; clear_value y)))
      | (extract_lets +onlyGivenNames y; guard_hyp y : Boxes := _; subst y)
      | (extract_lets +onlyGivenNames y; guard_hyp y : Power := _; subst y)
      | (extract_lets +onlyGivenNames y; guard_hyp y : Trans := _; subst y)
      | (extract_lets +onlyGivenNames y; guard_hyp y : Prot := _; subst y)
      | (extract_lets +onlyGivenNames y; guard_hyp y : Persist := _; subst y)
      | (extract_lets +onlyGivenNames y; guard_hyp y : Sgl := _; subst y)
      | (extract_lets +onlyGivenNames y; guard_hyp y : Sec := _; subst y)
      | (extract_lets +onlyGivenNames y; clear_value y)
      | extract_lets +onlyGivenNames y
      | with_reducible apply OnlyChanges.ite
      | (with_reducible apply OnlyChanges.step setTrbCursor_frame; (on_goal 1 => decide))
      | (with_reducible apply OnlyChanges.step emit_frame; (on_goal 1 => decide))
      | split

theorem execFreezeExpire_frame  {x t : State} (h : execFreezeExpire x = .next t) :
    OnlyChanges [.evr] x t := by
  unfold execFreezeExpire at h
  first
    | (injection h with h; subst h)
    | (split at h <;> (first | (injection h with h; subst h) | cases h))
  all_goals
    repeat' first
      | with_reducible assumption
      | with_reducible apply OnlyChanges.refl
      | (extract_lets +onlyGivenNames y; guard_hyp y : State := Prod.snd _; subst y)
      | (extract_lets +onlyGivenNames y; guard_hyp y : State := _; apply OnlyChanges.cut y; (on_goal 1 => (unfold y; clear y)); (on_goal 2 => (intro hx; clear_value y)))
      | (extract_lets +onlyGivenNames y; guard_hyp y : _ × State := _; apply OnlyChanges.cutP y; (on_goal 1 => (unfold y; clear y)); (on_goal 2 => (intro hx; clear_value y)))
      | (extract_lets +onlyGivenNames y; guard_hyp y : _ × _ × State := _; apply OnlyChanges.cutPP y; (on_goal 1 => (unfold y; clear y)); (on_goal 2 => (intro hx; clear_value y)))
      | (extract_lets +onlyGivenNames y; guard_hyp y : Boxes := _; subst y)
      | (extract_lets +onlyGivenNames y; guard_hyp y : Power := _; subst y)
      | (extract_lets +onlyGivenNames y; guard_hyp y : Trans := _; subst y)
      | (extract_lets +onlyGivenNames y; guard_hyp y : Prot := _; subst y)
      | (extract_lets +onlyGivenNames y; guard_hyp y : Persist := _; subst y)
      | (extract_lets +onlyGivenNames y; guard_hyp y : Sgl := _; subst y)
      | (extract_lets +onlyGivenNames y; guard_hyp y : Sec := _; subst y)
      | (extract_lets +onlyGivenNames y; clear_value y)
      | extract_lets +onlyGivenNames y
      | with_reducible apply OnlyChanges.ite
      | split
      | (with_reducible apply OnlyChanges.upd2; (on_goal 1 => decide))

theorem execOpMinuteTick_frame  {x t : State} (h : execOpMinuteTick x = .next t) :
    OnlyChanges [.pst] x t := by
  unfold execOpMinuteTick at h
  first
    | (injection h with h; subst h)
    | (split at h <;> (first | (injection h with h; subst h) | cases h))
  all_goals
    repeat' first
      | with_reducible assumption
      | with_reducible apply OnlyChanges.refl
      | with_reducible apply OnlyChanges.ite
      | (with_reducible apply OnlyChanges.step incCounter_frame; (on_goal 1 => decide))
      | split

end Sys2Proof.Machine
end

