-- ==== Sys2Proof/Laws/FrameHome.lean ====
section
/-! SUPPORT. The parts of the state that each operation of Machine/Home.lean may change; every other part it leaves
alone. -/

set_option linter.all false

namespace Sys2Proof.Machine

theorem sendMsg_frame {a0} {x : State} : OnlyChanges [.fab, .outs] x (sendMsg a0 x) := by
  unfold sendMsg
  repeat' first
    | with_reducible assumption
    | with_reducible apply OnlyChanges.refl
    | (extract_lets +onlyGivenNames y; guard_hyp y : State := Prod.snd _; subst y)
    | (extract_lets +onlyGivenNames y; guard_hyp y : State := _; apply OnlyChanges.cut y; (on_goal 1 => (unfold y; clear y)); (on_goal 2 => (intro hx; clear_value y)))
    | (extract_lets +onlyGivenNames y; guard_hyp y : _ × State := _; apply OnlyChanges.cutP y; (on_goal 1 => (unfold y; clear y)); (on_goal 2 => (intro hx; clear_value y)))
    | (extract_lets +onlyGivenNames y; guard_hyp y : _ × _ × State := _; apply OnlyChanges.cutPP y; (on_goal 1 => (unfold y; clear y)); (on_goal 2 => (intro hx; clear_value y)))
    | (extract_lets +onlyGivenNames y; guard_hyp y : Boxes := _; subst y)
    | (extract_lets +onlyGivenNames y; guard_hyp y : Power := _; subst y)
    | (extract_lets +onlyGivenNames y; guard_hyp y : Trans := _; subst y)
    | (extract_lets +onlyGivenNames y; guard_hyp y : Prot := _; subst y)
    | (extract_lets +onlyGivenNames y; guard_hyp y : Persist := _; subst y)
    | (extract_lets +onlyGivenNames y; guard_hyp y : Sgl := _; subst y)
    | (extract_lets +onlyGivenNames y; guard_hyp y : Sec := _; subst y)
    | (extract_lets +onlyGivenNames y; clear_value y)
    | extract_lets +onlyGivenNames y
    | with_reducible apply OnlyChanges.ite
    | (with_reducible apply OnlyChanges.step emit_frame; (on_goal 1 => decide))
    | split
    | (with_reducible apply OnlyChanges.upd65536; (on_goal 1 => decide))

theorem sendBi_frame {a0} {a1} {a2} {a3} {x : State} : OnlyChanges [.pmc, .coh, .freeCtr, .outs] x (sendBi a0 a1 a2 a3 x) := by
  unfold sendBi
  repeat' first
    | with_reducible assumption
    | with_reducible apply OnlyChanges.refl
    | (extract_lets +onlyGivenNames y; guard_hyp y : State := Prod.snd _; subst y)
    | (extract_lets +onlyGivenNames y; guard_hyp y : State := _; apply OnlyChanges.cut y; (on_goal 1 => (unfold y; clear y)); (on_goal 2 => (intro hx; clear_value y)))
    | (extract_lets +onlyGivenNames y; guard_hyp y : _ × State := _; apply OnlyChanges.cutP y; (on_goal 1 => (unfold y; clear y)); (on_goal 2 => (intro hx; clear_value y)))
    | (extract_lets +onlyGivenNames y; guard_hyp y : _ × _ × State := _; apply OnlyChanges.cutPP y; (on_goal 1 => (unfold y; clear y)); (on_goal 2 => (intro hx; clear_value y)))
    | (extract_lets +onlyGivenNames y; guard_hyp y : Boxes := _; subst y)
    | (extract_lets +onlyGivenNames y; guard_hyp y : Power := _; subst y)
    | (extract_lets +onlyGivenNames y; guard_hyp y : Trans := _; subst y)
    | (extract_lets +onlyGivenNames y; guard_hyp y : Prot := _; subst y)
    | (extract_lets +onlyGivenNames y; guard_hyp y : Persist := _; subst y)
    | (extract_lets +onlyGivenNames y; guard_hyp y : Sgl := _; subst y)
    | (extract_lets +onlyGivenNames y; guard_hyp y : Sec := _; subst y)
    | (extract_lets +onlyGivenNames y; clear_value y)
    | extract_lets +onlyGivenNames y
    | with_reducible apply OnlyChanges.ite
    | (with_reducible apply OnlyChanges.step emit_frame; (on_goal 1 => decide))
    | (with_reducible apply OnlyChanges.step count_frame; (on_goal 1 => decide))
    | split
    | (with_reducible apply OnlyChanges.upd16384; (on_goal 1 => decide))

theorem sendBis_frame {a0} {a1} {a2} {x : State} : OnlyChanges [.pmc, .coh, .freeCtr, .outs] x (sendBis a0 a1 a2 x) := by
  induction a2 generalizing x a0 a1 with
  | nil =>
    unfold sendBis
    repeat' first
      | with_reducible assumption
      | with_reducible apply OnlyChanges.refl
      | with_reducible apply OnlyChanges.ite
      | (with_reducible apply OnlyChanges.step sendBi_frame; (on_goal 1 => decide))
      | split
  | cons b l ih =>
    unfold sendBis
    repeat' first
      | with_reducible assumption
      | with_reducible apply OnlyChanges.refl
      | with_reducible apply OnlyChanges.ite
      | (with_reducible apply OnlyChanges.step sendBi_frame; (on_goal 1 => decide))
      | (with_reducible apply OnlyChanges.step ih; (on_goal 1 => decide))
      | split

theorem usage_frame {a0} {a1} {a2} {x : State} : OnlyChanges [.portA, .portB] x (usage a0 a1 a2 x) := by
  unfold usage
  repeat' first
    | with_reducible assumption
    | with_reducible apply OnlyChanges.refl
    | (extract_lets +onlyGivenNames y; guard_hyp y : State := Prod.snd _; subst y)
    | (extract_lets +onlyGivenNames y; guard_hyp y : State := _; apply OnlyChanges.cut y; (on_goal 1 => (unfold y; clear y)); (on_goal 2 => (intro hx; clear_value y)))
    | (extract_lets +onlyGivenNames y; guard_hyp y : _ × State := _; apply OnlyChanges.cutP y; (on_goal 1 => (unfold y; clear y)); (on_goal 2 => (intro hx; clear_value y)))
    | (extract_lets +onlyGivenNames y; guard_hyp y : _ × _ × State := _; apply OnlyChanges.cutPP y; (on_goal 1 => (unfold y; clear y)); (on_goal 2 => (intro hx; clear_value y)))
    | (extract_lets +onlyGivenNames y; guard_hyp y : Boxes := _; subst y)
    | (extract_lets +onlyGivenNames y; guard_hyp y : Power := _; subst y)
    | (extract_lets +onlyGivenNames y; guard_hyp y : Trans := _; subst y)
    | (extract_lets +onlyGivenNames y; guard_hyp y : Prot := _; subst y)
    | (extract_lets +onlyGivenNames y; guard_hyp y : Persist := _; subst y)
    | (extract_lets +onlyGivenNames y; guard_hyp y : Sgl := _; subst y)
    | (extract_lets +onlyGivenNames y; guard_hyp y : Sec := _; subst y)
    | (extract_lets +onlyGivenNames y; clear_value y)
    | extract_lets +onlyGivenNames y
    | with_reducible apply OnlyChanges.ite
    | (with_reducible apply OnlyChanges.step State.setPort_frame; (on_goal 1 => decide))
    | split

theorem hsfRoom_frame {a0} {a1} {x : State} : OnlyChanges [.pmc, .coh, .freeCtr, .outs] x (hsfRoom a0 a1 x) := by
  unfold hsfRoom
  repeat' first
    | with_reducible assumption
    | with_reducible apply OnlyChanges.refl
    | (extract_lets +onlyGivenNames y; guard_hyp y : State := Prod.snd _; subst y)
    | (extract_lets +onlyGivenNames y; guard_hyp y : State := _; apply OnlyChanges.cut y; (on_goal 1 => (unfold y; clear y)); (on_goal 2 => (intro hx; clear_value y)))
    | (extract_lets +onlyGivenNames y; guard_hyp y : _ × State := _; apply OnlyChanges.cutP y; (on_goal 1 => (unfold y; clear y)); (on_goal 2 => (intro hx; clear_value y)))
    | (extract_lets +onlyGivenNames y; guard_hyp y : _ × _ × State := _; apply OnlyChanges.cutPP y; (on_goal 1 => (unfold y; clear y)); (on_goal 2 => (intro hx; clear_value y)))
    | (extract_lets +onlyGivenNames y; guard_hyp y : Boxes := _; subst y)
    | (extract_lets +onlyGivenNames y; guard_hyp y : Power := _; subst y)
    | (extract_lets +onlyGivenNames y; guard_hyp y : Trans := _; subst y)
    | (extract_lets +onlyGivenNames y; guard_hyp y : Prot := _; subst y)
    | (extract_lets +onlyGivenNames y; guard_hyp y : Persist := _; subst y)
    | (extract_lets +onlyGivenNames y; guard_hyp y : Sgl := _; subst y)
    | (extract_lets +onlyGivenNames y; guard_hyp y : Sec := _; subst y)
    | (extract_lets +onlyGivenNames y; clear_value y)
    | extract_lets +onlyGivenNames y
    | with_reducible apply OnlyChanges.ite
    | (with_reducible apply OnlyChanges.step sendBis_frame; (on_goal 1 => decide))
    | split
    | (with_reducible apply OnlyChanges.upd16384; (on_goal 1 => decide))

theorem setHolding_frame {a0} {a1} {a2} {a3} {x : State} : OnlyChanges [.coh] x (setHolding a0 a1 a2 a3 x) := by
  unfold setHolding
  repeat' first
    | with_reducible assumption
    | with_reducible apply OnlyChanges.refl
    | (extract_lets +onlyGivenNames y; guard_hyp y : State := Prod.snd _; subst y)
    | (extract_lets +onlyGivenNames y; guard_hyp y : State := _; apply OnlyChanges.cut y; (on_goal 1 => (unfold y; clear y)); (on_goal 2 => (intro hx; clear_value y)))
    | (extract_lets +onlyGivenNames y; guard_hyp y : _ × State := _; apply OnlyChanges.cutP y; (on_goal 1 => (unfold y; clear y)); (on_goal 2 => (intro hx; clear_value y)))
    | (extract_lets +onlyGivenNames y; guard_hyp y : _ × _ × State := _; apply OnlyChanges.cutPP y; (on_goal 1 => (unfold y; clear y)); (on_goal 2 => (intro hx; clear_value y)))
    | (extract_lets +onlyGivenNames y; guard_hyp y : Boxes := _; subst y)
    | (extract_lets +onlyGivenNames y; guard_hyp y : Power := _; subst y)
    | (extract_lets +onlyGivenNames y; guard_hyp y : Trans := _; subst y)
    | (extract_lets +onlyGivenNames y; guard_hyp y : Prot := _; subst y)
    | (extract_lets +onlyGivenNames y; guard_hyp y : Persist := _; subst y)
    | (extract_lets +onlyGivenNames y; guard_hyp y : Sgl := _; subst y)
    | (extract_lets +onlyGivenNames y; guard_hyp y : Sec := _; subst y)
    | (extract_lets +onlyGivenNames y; clear_value y)
    | extract_lets +onlyGivenNames y
    | with_reducible apply OnlyChanges.ite
    | split
    | (with_reducible apply OnlyChanges.upd16384; (on_goal 1 => decide))

theorem grantHost_frame {a0} {a1} {a2} {a3} {x : State} : OnlyChanges [.pmc, .coh, .freeCtr, .outs] x (grantHost a0 a1 a2 a3 x) := by
  unfold grantHost
  repeat' first
    | with_reducible assumption
    | with_reducible apply OnlyChanges.refl
    | (extract_lets +onlyGivenNames y; guard_hyp y : State := Prod.snd _; subst y)
    | (extract_lets +onlyGivenNames y; guard_hyp y : State := _; apply OnlyChanges.cut y; (on_goal 1 => (unfold y; clear y)); (on_goal 2 => (intro hx; clear_value y)))
    | (extract_lets +onlyGivenNames y; guard_hyp y : _ × State := _; apply OnlyChanges.cutP y; (on_goal 1 => (unfold y; clear y)); (on_goal 2 => (intro hx; clear_value y)))
    | (extract_lets +onlyGivenNames y; guard_hyp y : _ × _ × State := _; apply OnlyChanges.cutPP y; (on_goal 1 => (unfold y; clear y)); (on_goal 2 => (intro hx; clear_value y)))
    | (extract_lets +onlyGivenNames y; guard_hyp y : Boxes := _; subst y)
    | (extract_lets +onlyGivenNames y; guard_hyp y : Power := _; subst y)
    | (extract_lets +onlyGivenNames y; guard_hyp y : Trans := _; subst y)
    | (extract_lets +onlyGivenNames y; guard_hyp y : Prot := _; subst y)
    | (extract_lets +onlyGivenNames y; guard_hyp y : Persist := _; subst y)
    | (extract_lets +onlyGivenNames y; guard_hyp y : Sgl := _; subst y)
    | (extract_lets +onlyGivenNames y; guard_hyp y : Sec := _; subst y)
    | (extract_lets +onlyGivenNames y; clear_value y)
    | extract_lets +onlyGivenNames y
    | with_reducible apply OnlyChanges.ite
    | (with_reducible apply OnlyChanges.step hsfRoom_frame; (on_goal 1 => decide))
    | (with_reducible apply OnlyChanges.step setHolding_frame; (on_goal 1 => decide))
    | split

theorem doveOld_frame {a0} {a1} {a2} {x : State} : OnlyChanges [.cache] x (doveOld a0 a1 a2 x) := by
  unfold doveOld
  repeat' first
    | with_reducible assumption
    | with_reducible apply OnlyChanges.refl
    | (extract_lets +onlyGivenNames y; guard_hyp y : State := Prod.snd _; subst y)
    | (extract_lets +onlyGivenNames y; guard_hyp y : State := _; apply OnlyChanges.cut y; (on_goal 1 => (unfold y; clear y)); (on_goal 2 => (intro hx; clear_value y)))
    | (extract_lets +onlyGivenNames y; guard_hyp y : _ × State := _; apply OnlyChanges.cutP y; (on_goal 1 => (unfold y; clear y)); (on_goal 2 => (intro hx; clear_value y)))
    | (extract_lets +onlyGivenNames y; guard_hyp y : _ × _ × State := _; apply OnlyChanges.cutPP y; (on_goal 1 => (unfold y; clear y)); (on_goal 2 => (intro hx; clear_value y)))
    | (extract_lets +onlyGivenNames y; guard_hyp y : Boxes := _; subst y)
    | (extract_lets +onlyGivenNames y; guard_hyp y : Power := _; subst y)
    | (extract_lets +onlyGivenNames y; guard_hyp y : Trans := _; subst y)
    | (extract_lets +onlyGivenNames y; guard_hyp y : Prot := _; subst y)
    | (extract_lets +onlyGivenNames y; guard_hyp y : Persist := _; subst y)
    | (extract_lets +onlyGivenNames y; guard_hyp y : Sgl := _; subst y)
    | (extract_lets +onlyGivenNames y; guard_hyp y : Sec := _; subst y)
    | (extract_lets +onlyGivenNames y; clear_value y)
    | extract_lets +onlyGivenNames y
    | with_reducible apply OnlyChanges.ite
    | split
    | (with_reducible apply OnlyChanges.upd4096; (on_goal 1 => decide))

theorem answer_frame {a0} {a1} {a2} {a3} {a4} {x : State} : OnlyChanges [.pmc, .trb, .cache, .coh, .fab, .portA, .portB, .freeCtr, .outs] x (answer a0 a1 a2 a3 a4 x) := by
  unfold answer
  repeat' first
    | with_reducible assumption
    | with_reducible apply OnlyChanges.refl
    | (extract_lets +onlyGivenNames y; guard_hyp y : State := Prod.snd _; subst y)
    | (extract_lets +onlyGivenNames y; guard_hyp y : State := _; apply OnlyChanges.cut y; (on_goal 1 => (unfold y; clear y)); (on_goal 2 => (intro hx; clear_value y)))
    | (extract_lets +onlyGivenNames y; guard_hyp y : _ × State := _; apply OnlyChanges.cutP y; (on_goal 1 => (unfold y; clear y)); (on_goal 2 => (intro hx; clear_value y)))
    | (extract_lets +onlyGivenNames y; guard_hyp y : _ × _ × State := _; apply OnlyChanges.cutPP y; (on_goal 1 => (unfold y; clear y)); (on_goal 2 => (intro hx; clear_value y)))
    | (extract_lets +onlyGivenNames y; guard_hyp y : Boxes := _; subst y)
    | (extract_lets +onlyGivenNames y; guard_hyp y : Power := _; subst y)
    | (extract_lets +onlyGivenNames y; guard_hyp y : Trans := _; subst y)
    | (extract_lets +onlyGivenNames y; guard_hyp y : Prot := _; subst y)
    | (extract_lets +onlyGivenNames y; guard_hyp y : Persist := _; subst y)
    | (extract_lets +onlyGivenNames y; guard_hyp y : Sgl := _; subst y)
    | (extract_lets +onlyGivenNames y; guard_hyp y : Sec := _; subst y)
    | (extract_lets +onlyGivenNames y; clear_value y)
    | extract_lets +onlyGivenNames y
    | with_reducible apply OnlyChanges.ite
    | (with_reducible apply OnlyChanges.step traceDone_frame; (on_goal 1 => decide))
    | (with_reducible apply OnlyChanges.step usage_frame; (on_goal 1 => decide))
    | (with_reducible apply OnlyChanges.step sendMsg_frame; (on_goal 1 => decide))
    | (with_reducible apply OnlyChanges.step grantHost_frame; (on_goal 1 => decide))
    | (with_reducible apply OnlyChanges.step doveOld_frame; (on_goal 1 => decide))
    | (with_reducible apply OnlyChanges.step emit_frame; (on_goal 1 => decide))
    | (with_reducible apply OnlyChanges.step count_frame; (on_goal 1 => decide))
    | split

theorem issueSpec_frame {a0} {x : State} : OnlyChanges [.pmc, .sched, .cache, .freeCtr, .outs] x (issueSpec a0 x) := by
  unfold issueSpec
  repeat' first
    | with_reducible assumption
    | with_reducible apply OnlyChanges.refl
    | (extract_lets +onlyGivenNames y; guard_hyp y : State := Prod.snd _; subst y)
    | (extract_lets +onlyGivenNames y; guard_hyp y : State := _; apply OnlyChanges.cut y; (on_goal 1 => (unfold y; clear y)); (on_goal 2 => (intro hx; clear_value y)))
    | (extract_lets +onlyGivenNames y; guard_hyp y : _ × State := _; apply OnlyChanges.cutP y; (on_goal 1 => (unfold y; clear y)); (on_goal 2 => (intro hx; clear_value y)))
    | (extract_lets +onlyGivenNames y; guard_hyp y : _ × _ × State := _; apply OnlyChanges.cutPP y; (on_goal 1 => (unfold y; clear y)); (on_goal 2 => (intro hx; clear_value y)))
    | (extract_lets +onlyGivenNames y; guard_hyp y : Boxes := _; subst y)
    | (extract_lets +onlyGivenNames y; guard_hyp y : Power := _; subst y)
    | (extract_lets +onlyGivenNames y; guard_hyp y : Trans := _; subst y)
    | (extract_lets +onlyGivenNames y; guard_hyp y : Prot := _; subst y)
    | (extract_lets +onlyGivenNames y; guard_hyp y : Persist := _; subst y)
    | (extract_lets +onlyGivenNames y; guard_hyp y : Sgl := _; subst y)
    | (extract_lets +onlyGivenNames y; guard_hyp y : Sec := _; subst y)
    | (extract_lets +onlyGivenNames y; clear_value y)
    | extract_lets +onlyGivenNames y
    | with_reducible apply OnlyChanges.ite
    | (with_reducible apply OnlyChangesP.step queueRead_frame; (on_goal 1 => decide))
    | (with_reducible apply OnlyChangesP.snd queueRead_frame; (on_goal 1 => decide))
    | (with_reducible apply OnlyChanges.step modMshr_frame; (on_goal 1 => decide))
    | (with_reducible apply OnlyChanges.step countSlice_frame; (on_goal 1 => decide))
    | (with_reducible apply OnlyChanges.ofPair; (on_goal 1 => assumption))
    | split

theorem startOld_frame {a0} {a1} {x : State} : OnlyChanges [.pmc, .sched, .cache, .freeCtr, .outs] x (startOld a0 a1 x) := by
  unfold startOld
  repeat' first
    | with_reducible assumption
    | with_reducible apply OnlyChanges.refl
    | with_reducible apply OnlyChanges.ite
    | (with_reducible apply OnlyChanges.step issueSpec_frame; (on_goal 1 => decide))
    | (with_reducible apply OnlyChanges.step modMshr_frame; (on_goal 1 => decide))
    | split

theorem readOld_frame {a0} {a1} {x : State} : OnlyChanges [.pmc, .sched, .cache, .dram, .freeCtr, .outs] x (readOld a0 a1 x) := by
  unfold readOld
  repeat' first
    | with_reducible assumption
    | with_reducible apply OnlyChanges.refl
    | with_reducible apply OnlyChanges.ite
    | (with_reducible apply OnlyChanges.step startOld_frame; (on_goal 1 => decide))
    | (with_reducible apply OnlyChanges.step doveOld_frame; (on_goal 1 => decide))
    | (with_reducible apply OnlyChanges.step evictNow_frame; (on_goal 1 => decide))
    | split

theorem protocolError_frame {a0} {a1} {a2} {x : State} : OnlyChanges [.evr, .cxlA, .cxlB, .outs] x (protocolError a0 a1 a2 x) := by
  unfold protocolError
  repeat' first
    | with_reducible assumption
    | with_reducible apply OnlyChanges.refl
    | with_reducible apply OnlyChanges.ite
    | (with_reducible apply OnlyChanges.step event_frame; (on_goal 1 => decide))
    | split

theorem sendSnp_frame {a0} {a1} {a2} {a3} {a4} {a5} {x : State} : OnlyChanges [.pmc, .fab, .freeCtr, .outs] x (sendSnp a0 a1 a2 a3 a4 a5 x) := by
  unfold sendSnp
  repeat' first
    | with_reducible assumption
    | with_reducible apply OnlyChanges.refl
    | (extract_lets +onlyGivenNames y; guard_hyp y : State := Prod.snd _; subst y)
    | (extract_lets +onlyGivenNames y; guard_hyp y : State := _; apply OnlyChanges.cut y; (on_goal 1 => (unfold y; clear y)); (on_goal 2 => (intro hx; clear_value y)))
    | (extract_lets +onlyGivenNames y; guard_hyp y : _ × State := _; apply OnlyChanges.cutP y; (on_goal 1 => (unfold y; clear y)); (on_goal 2 => (intro hx; clear_value y)))
    | (extract_lets +onlyGivenNames y; guard_hyp y : _ × _ × State := _; apply OnlyChanges.cutPP y; (on_goal 1 => (unfold y; clear y)); (on_goal 2 => (intro hx; clear_value y)))
    | (extract_lets +onlyGivenNames y; guard_hyp y : Boxes := _; subst y)
    | (extract_lets +onlyGivenNames y; guard_hyp y : Power := _; subst y)
    | (extract_lets +onlyGivenNames y; guard_hyp y : Trans := _; subst y)
    | (extract_lets +onlyGivenNames y; guard_hyp y : Prot := _; subst y)
    | (extract_lets +onlyGivenNames y; guard_hyp y : Persist := _; subst y)
    | (extract_lets +onlyGivenNames y; guard_hyp y : Sgl := _; subst y)
    | (extract_lets +onlyGivenNames y; guard_hyp y : Sec := _; subst y)
    | (extract_lets +onlyGivenNames y; clear_value y)
    | extract_lets +onlyGivenNames y
    | with_reducible apply OnlyChanges.ite
    | (with_reducible apply OnlyChanges.step sendMsg_frame; (on_goal 1 => decide))
    | (with_reducible apply OnlyChanges.step count_frame; (on_goal 1 => decide))
    | split

theorem startMiss_frame {a0} {a1} {x : State} : OnlyChanges [.pmc, .sched, .cache, .dram, .freeCtr, .outs] x (startMiss a0 a1 x) := by
  unfold startMiss
  repeat' first
    | with_reducible assumption
    | with_reducible apply OnlyChanges.refl
    | (extract_lets +onlyGivenNames y; guard_hyp y : State := Prod.snd _; subst y)
    | (extract_lets +onlyGivenNames y; guard_hyp y : State := _; apply OnlyChanges.cut y; (on_goal 1 => (unfold y; clear y)); (on_goal 2 => (intro hx; clear_value y)))
    | (extract_lets +onlyGivenNames y; guard_hyp y : _ × State := _; apply OnlyChanges.cutP y; (on_goal 1 => (unfold y; clear y)); (on_goal 2 => (intro hx; clear_value y)))
    | (extract_lets +onlyGivenNames y; guard_hyp y : _ × _ × State := _; apply OnlyChanges.cutPP y; (on_goal 1 => (unfold y; clear y)); (on_goal 2 => (intro hx; clear_value y)))
    | (extract_lets +onlyGivenNames y; guard_hyp y : Boxes := _; subst y)
    | (extract_lets +onlyGivenNames y; guard_hyp y : Power := _; subst y)
    | (extract_lets +onlyGivenNames y; guard_hyp y : Trans := _; subst y)
    | (extract_lets +onlyGivenNames y; guard_hyp y : Prot := _; subst y)
    | (extract_lets +onlyGivenNames y; guard_hyp y : Persist := _; subst y)
    | (extract_lets +onlyGivenNames y; guard_hyp y : Sgl := _; subst y)
    | (extract_lets +onlyGivenNames y; guard_hyp y : Sec := _; subst y)
    | (extract_lets +onlyGivenNames y; clear_value y)
    | extract_lets +onlyGivenNames y
    | with_reducible apply OnlyChanges.ite
    | (with_reducible apply OnlyChanges.step beginEvict_frame; (on_goal 1 => decide))
    | (with_reducible apply OnlyChanges.step askMaps_frame; (on_goal 1 => decide))
    | (with_reducible apply OnlyChanges.step issueSpec_frame; (on_goal 1 => decide))
    | (with_reducible apply OnlyChanges.step modMshr_frame; (on_goal 1 => decide))
    | split

theorem startEarly_frame {a0} {a1} {x : State} : OnlyChanges [.pmc, .sched, .cache, .dram, .freeCtr, .outs] x (startEarly a0 a1 x) := by
  unfold startEarly
  repeat' first
    | with_reducible assumption
    | with_reducible apply OnlyChanges.refl
    | (extract_lets +onlyGivenNames y; guard_hyp y : State := Prod.snd _; subst y)
    | (extract_lets +onlyGivenNames y; guard_hyp y : State := _; apply OnlyChanges.cut y; (on_goal 1 => (unfold y; clear y)); (on_goal 2 => (intro hx; clear_value y)))
    | (extract_lets +onlyGivenNames y; guard_hyp y : _ × State := _; apply OnlyChanges.cutP y; (on_goal 1 => (unfold y; clear y)); (on_goal 2 => (intro hx; clear_value y)))
    | (extract_lets +onlyGivenNames y; guard_hyp y : _ × _ × State := _; apply OnlyChanges.cutPP y; (on_goal 1 => (unfold y; clear y)); (on_goal 2 => (intro hx; clear_value y)))
    | (extract_lets +onlyGivenNames y; guard_hyp y : Boxes := _; subst y)
    | (extract_lets +onlyGivenNames y; guard_hyp y : Power := _; subst y)
    | (extract_lets +onlyGivenNames y; guard_hyp y : Trans := _; subst y)
    | (extract_lets +onlyGivenNames y; guard_hyp y : Prot := _; subst y)
    | (extract_lets +onlyGivenNames y; guard_hyp y : Persist := _; subst y)
    | (extract_lets +onlyGivenNames y; guard_hyp y : Sgl := _; subst y)
    | (extract_lets +onlyGivenNames y; guard_hyp y : Sec := _; subst y)
    | (extract_lets +onlyGivenNames y; clear_value y)
    | extract_lets +onlyGivenNames y
    | with_reducible apply OnlyChanges.ite
    | (with_reducible apply OnlyChanges.step startMiss_frame; (on_goal 1 => decide))
    | split

theorem nextSnp_frame  {x : State} : OnlyChangesP [.coh] x (nextSnp x) := by
  unfold nextSnp
  repeat' first
    | with_reducible assumption
    | with_reducible apply OnlyChanges.refl
    | (extract_lets +onlyGivenNames y; guard_hyp y : State := Prod.snd _; subst y)
    | (extract_lets +onlyGivenNames y; guard_hyp y : State := _; apply OnlyChangesP.cut y; (on_goal 1 => (unfold y; clear y)); (on_goal 2 => (intro hx; clear_value y)))
    | (extract_lets +onlyGivenNames y; guard_hyp y : _ × State := _; apply OnlyChangesP.cutP y; (on_goal 1 => (unfold y; clear y)); (on_goal 2 => (intro hx; clear_value y)))
    | (extract_lets +onlyGivenNames y; guard_hyp y : _ × _ × State := _; apply OnlyChangesP.cutPP y; (on_goal 1 => (unfold y; clear y)); (on_goal 2 => (intro hx; clear_value y)))
    | (extract_lets +onlyGivenNames y; guard_hyp y : Boxes := _; subst y)
    | (extract_lets +onlyGivenNames y; guard_hyp y : Power := _; subst y)
    | (extract_lets +onlyGivenNames y; guard_hyp y : Trans := _; subst y)
    | (extract_lets +onlyGivenNames y; guard_hyp y : Prot := _; subst y)
    | (extract_lets +onlyGivenNames y; guard_hyp y : Persist := _; subst y)
    | (extract_lets +onlyGivenNames y; guard_hyp y : Sgl := _; subst y)
    | (extract_lets +onlyGivenNames y; guard_hyp y : Sec := _; subst y)
    | (extract_lets +onlyGivenNames y; clear_value y)
    | extract_lets +onlyGivenNames y
    | with_reducible apply OnlyChanges.ite
    | with_reducible apply OnlyChangesP.ite
    | split
    | with_reducible apply OnlyChangesP.mk
    | (with_reducible apply OnlyChanges.upd16384; (on_goal 1 => decide))

theorem holdWay_frame {a0} {x : State} : OnlyChanges [.coh] x (holdWay a0 x) := by
  unfold holdWay
  repeat' first
    | with_reducible assumption
    | with_reducible apply OnlyChanges.refl
    | (extract_lets +onlyGivenNames y; guard_hyp y : State := Prod.snd _; subst y)
    | (extract_lets +onlyGivenNames y; guard_hyp y : State := _; apply OnlyChanges.cut y; (on_goal 1 => (unfold y; clear y)); (on_goal 2 => (intro hx; clear_value y)))
    | (extract_lets +onlyGivenNames y; guard_hyp y : _ × State := _; apply OnlyChanges.cutP y; (on_goal 1 => (unfold y; clear y)); (on_goal 2 => (intro hx; clear_value y)))
    | (extract_lets +onlyGivenNames y; guard_hyp y : _ × _ × State := _; apply OnlyChanges.cutPP y; (on_goal 1 => (unfold y; clear y)); (on_goal 2 => (intro hx; clear_value y)))
    | (extract_lets +onlyGivenNames y; guard_hyp y : Boxes := _; subst y)
    | (extract_lets +onlyGivenNames y; guard_hyp y : Power := _; subst y)
    | (extract_lets +onlyGivenNames y; guard_hyp y : Trans := _; subst y)
    | (extract_lets +onlyGivenNames y; guard_hyp y : Prot := _; subst y)
    | (extract_lets +onlyGivenNames y; guard_hyp y : Persist := _; subst y)
    | (extract_lets +onlyGivenNames y; guard_hyp y : Sgl := _; subst y)
    | (extract_lets +onlyGivenNames y; guard_hyp y : Sec := _; subst y)
    | (extract_lets +onlyGivenNames y; clear_value y)
    | extract_lets +onlyGivenNames y
    | with_reducible apply OnlyChanges.ite
    | split
    | (with_reducible apply OnlyChanges.upd16384; (on_goal 1 => decide))

theorem setDir_frame {a0} {a1} {x : State} : OnlyChanges [.coh] x (setDir a0 a1 x) := by
  unfold setDir
  repeat' first
    | with_reducible assumption
    | with_reducible apply OnlyChanges.refl
    | (extract_lets +onlyGivenNames y; guard_hyp y : State := Prod.snd _; subst y)
    | (extract_lets +onlyGivenNames y; guard_hyp y : State := _; apply OnlyChanges.cut y; (on_goal 1 => (unfold y; clear y)); (on_goal 2 => (intro hx; clear_value y)))
    | (extract_lets +onlyGivenNames y; guard_hyp y : _ × State := _; apply OnlyChanges.cutP y; (on_goal 1 => (unfold y; clear y)); (on_goal 2 => (intro hx; clear_value y)))
    | (extract_lets +onlyGivenNames y; guard_hyp y : _ × _ × State := _; apply OnlyChanges.cutPP y; (on_goal 1 => (unfold y; clear y)); (on_goal 2 => (intro hx; clear_value y)))
    | (extract_lets +onlyGivenNames y; guard_hyp y : Boxes := _; subst y)
    | (extract_lets +onlyGivenNames y; guard_hyp y : Power := _; subst y)
    | (extract_lets +onlyGivenNames y; guard_hyp y : Trans := _; subst y)
    | (extract_lets +onlyGivenNames y; guard_hyp y : Prot := _; subst y)
    | (extract_lets +onlyGivenNames y; guard_hyp y : Persist := _; subst y)
    | (extract_lets +onlyGivenNames y; guard_hyp y : Sgl := _; subst y)
    | (extract_lets +onlyGivenNames y; guard_hyp y : Sec := _; subst y)
    | (extract_lets +onlyGivenNames y; clear_value y)
    | extract_lets +onlyGivenNames y
    | with_reducible apply OnlyChanges.ite
    | (with_reducible apply OnlyChanges.step holdWay_frame; (on_goal 1 => decide))
    | split
    | (with_reducible apply OnlyChanges.upd16384; (on_goal 1 => decide))

theorem snoopOwner_frame {a0} {a1} {a2} {a3} {x : State} : OnlyChangesP [.pmc, .sched, .cache, .dram, .coh, .fab, .freeCtr, .outs] x (snoopOwner a0 a1 a2 a3 x) := by
  unfold snoopOwner
  repeat' first
    | with_reducible assumption
    | with_reducible apply OnlyChanges.refl
    | (extract_lets +onlyGivenNames y; guard_hyp y : State := Prod.snd _; subst y)
    | (extract_lets +onlyGivenNames y; guard_hyp y : State := _; apply OnlyChangesP.cut y; (on_goal 1 => (unfold y; clear y)); (on_goal 2 => (intro hx; clear_value y)))
    | (extract_lets +onlyGivenNames y; guard_hyp y : _ × State := _; apply OnlyChangesP.cutP y; (on_goal 1 => (unfold y; clear y)); (on_goal 2 => (intro hx; clear_value y)))
    | (extract_lets +onlyGivenNames y; guard_hyp y : _ × _ × State := _; apply OnlyChangesP.cutPP y; (on_goal 1 => (unfold y; clear y)); (on_goal 2 => (intro hx; clear_value y)))
    | (extract_lets +onlyGivenNames y; guard_hyp y : Boxes := _; subst y)
    | (extract_lets +onlyGivenNames y; guard_hyp y : Power := _; subst y)
    | (extract_lets +onlyGivenNames y; guard_hyp y : Trans := _; subst y)
    | (extract_lets +onlyGivenNames y; guard_hyp y : Prot := _; subst y)
    | (extract_lets +onlyGivenNames y; guard_hyp y : Persist := _; subst y)
    | (extract_lets +onlyGivenNames y; guard_hyp y : Sgl := _; subst y)
    | (extract_lets +onlyGivenNames y; guard_hyp y : Sec := _; subst y)
    | (extract_lets +onlyGivenNames y; clear_value y)
    | extract_lets +onlyGivenNames y
    | with_reducible apply OnlyChanges.ite
    | with_reducible apply OnlyChangesP.ite
    | (with_reducible apply OnlyChanges.step sendSnp_frame; (on_goal 1 => decide))
    | (with_reducible apply OnlyChanges.step startEarly_frame; (on_goal 1 => decide))
    | (with_reducible apply OnlyChangesP.step nextSnp_frame; (on_goal 1 => decide))
    | (with_reducible apply OnlyChangesP.snd nextSnp_frame; (on_goal 1 => decide))
    | (with_reducible apply OnlyChanges.step setDir_frame; (on_goal 1 => decide))
    | (with_reducible apply OnlyChanges.step modMshr_frame; (on_goal 1 => decide))
    | (with_reducible apply OnlyChanges.ofPair; (on_goal 1 => assumption))
    | split
    | with_reducible apply OnlyChangesP.mk

theorem dropDove_frame {a0} {x : State} : OnlyChanges [.cache] x (dropDove a0 x) := by
  unfold dropDove
  repeat' first
    | with_reducible assumption
    | with_reducible apply OnlyChanges.refl
    | (extract_lets +onlyGivenNames y; guard_hyp y : State := Prod.snd _; subst y)
    | (extract_lets +onlyGivenNames y; guard_hyp y : State := _; apply OnlyChanges.cut y; (on_goal 1 => (unfold y; clear y)); (on_goal 2 => (intro hx; clear_value y)))
    | (extract_lets +onlyGivenNames y; guard_hyp y : _ × State := _; apply OnlyChanges.cutP y; (on_goal 1 => (unfold y; clear y)); (on_goal 2 => (intro hx; clear_value y)))
    | (extract_lets +onlyGivenNames y; guard_hyp y : _ × _ × State := _; apply OnlyChanges.cutPP y; (on_goal 1 => (unfold y; clear y)); (on_goal 2 => (intro hx; clear_value y)))
    | (extract_lets +onlyGivenNames y; guard_hyp y : Boxes := _; subst y)
    | (extract_lets +onlyGivenNames y; guard_hyp y : Power := _; subst y)
    | (extract_lets +onlyGivenNames y; guard_hyp y : Trans := _; subst y)
    | (extract_lets +onlyGivenNames y; guard_hyp y : Prot := _; subst y)
    | (extract_lets +onlyGivenNames y; guard_hyp y : Persist := _; subst y)
    | (extract_lets +onlyGivenNames y; guard_hyp y : Sgl := _; subst y)
    | (extract_lets +onlyGivenNames y; guard_hyp y : Sec := _; subst y)
    | (extract_lets +onlyGivenNames y; clear_value y)
    | extract_lets +onlyGivenNames y
    | with_reducible apply OnlyChanges.ite
    | split
    | (with_reducible apply OnlyChanges.upd4096; (on_goal 1 => decide))

theorem squashRead_frame {a0} {x : State} : OnlyChanges [.sched] x (squashRead a0 x) := by
  unfold squashRead
  repeat' first
    | with_reducible assumption
    | with_reducible apply OnlyChanges.refl
    | with_reducible apply OnlyChanges.ite
    | (with_reducible apply OnlyChanges.step retireRead_frame; (on_goal 1 => decide))
    | (with_reducible apply OnlyChanges.step modRead_frame; (on_goal 1 => decide))
    | split

theorem squashSpec_frame {a0} {x : State} : OnlyChanges [.pmc, .sched, .cache, .freeCtr, .outs] x (squashSpec a0 x) := by
  unfold squashSpec
  repeat' first
    | with_reducible assumption
    | with_reducible apply OnlyChanges.refl
    | (extract_lets +onlyGivenNames y; guard_hyp y : State := Prod.snd _; subst y)
    | (extract_lets +onlyGivenNames y; guard_hyp y : State := _; apply OnlyChanges.cut y; (on_goal 1 => (unfold y; clear y)); (on_goal 2 => (intro hx; clear_value y)))
    | (extract_lets +onlyGivenNames y; guard_hyp y : _ × State := _; apply OnlyChanges.cutP y; (on_goal 1 => (unfold y; clear y)); (on_goal 2 => (intro hx; clear_value y)))
    | (extract_lets +onlyGivenNames y; guard_hyp y : _ × _ × State := _; apply OnlyChanges.cutPP y; (on_goal 1 => (unfold y; clear y)); (on_goal 2 => (intro hx; clear_value y)))
    | (extract_lets +onlyGivenNames y; guard_hyp y : Boxes := _; subst y)
    | (extract_lets +onlyGivenNames y; guard_hyp y : Power := _; subst y)
    | (extract_lets +onlyGivenNames y; guard_hyp y : Trans := _; subst y)
    | (extract_lets +onlyGivenNames y; guard_hyp y : Prot := _; subst y)
    | (extract_lets +onlyGivenNames y; guard_hyp y : Persist := _; subst y)
    | (extract_lets +onlyGivenNames y; guard_hyp y : Sgl := _; subst y)
    | (extract_lets +onlyGivenNames y; guard_hyp y : Sec := _; subst y)
    | (extract_lets +onlyGivenNames y; clear_value y)
    | extract_lets +onlyGivenNames y
    | with_reducible apply OnlyChanges.ite
    | (with_reducible apply OnlyChanges.step retireRead_frame; (on_goal 1 => decide))
    | (with_reducible apply OnlyChanges.step modRead_frame; (on_goal 1 => decide))
    | (with_reducible apply OnlyChanges.step modMshr_frame; (on_goal 1 => decide))
    | (with_reducible apply OnlyChanges.step countSlice_frame; (on_goal 1 => decide))
    | split

theorem dropMiss_frame {a0} {x : State} : OnlyChanges [.pmc, .sched, .cache, .freeCtr, .outs] x (dropMiss a0 x) := by
  unfold dropMiss
  repeat' first
    | with_reducible assumption
    | with_reducible apply OnlyChanges.refl
    | (extract_lets +onlyGivenNames y; guard_hyp y : State := Prod.snd _; subst y)
    | (extract_lets +onlyGivenNames y; guard_hyp y : State := _; apply OnlyChanges.cut y; (on_goal 1 => (unfold y; clear y)); (on_goal 2 => (intro hx; clear_value y)))
    | (extract_lets +onlyGivenNames y; guard_hyp y : _ × State := _; apply OnlyChanges.cutP y; (on_goal 1 => (unfold y; clear y)); (on_goal 2 => (intro hx; clear_value y)))
    | (extract_lets +onlyGivenNames y; guard_hyp y : _ × _ × State := _; apply OnlyChanges.cutPP y; (on_goal 1 => (unfold y; clear y)); (on_goal 2 => (intro hx; clear_value y)))
    | (extract_lets +onlyGivenNames y; guard_hyp y : Boxes := _; subst y)
    | (extract_lets +onlyGivenNames y; guard_hyp y : Power := _; subst y)
    | (extract_lets +onlyGivenNames y; guard_hyp y : Trans := _; subst y)
    | (extract_lets +onlyGivenNames y; guard_hyp y : Prot := _; subst y)
    | (extract_lets +onlyGivenNames y; guard_hyp y : Persist := _; subst y)
    | (extract_lets +onlyGivenNames y; guard_hyp y : Sgl := _; subst y)
    | (extract_lets +onlyGivenNames y; guard_hyp y : Sec := _; subst y)
    | (extract_lets +onlyGivenNames y; clear_value y)
    | extract_lets +onlyGivenNames y
    | with_reducible apply OnlyChanges.ite
    | (with_reducible apply OnlyChanges.step squashRead_frame; (on_goal 1 => decide))
    | (with_reducible apply OnlyChanges.step squashSpec_frame; (on_goal 1 => decide))
    | (with_reducible apply OnlyChanges.step modMshr_frame; (on_goal 1 => decide))
    | split

theorem writeFull_frame {a0} {a1} {a2} {a3} {a4} {a5} {x : State} : OnlyChangesP [.pmc, .sched, .tr, .per, .ck, .cache, .dram, .sec, .freeCtr, .outs] x (writeFull a0 a1 a2 a3 a4 a5 x) := by
  unfold writeFull
  repeat' first
    | with_reducible assumption
    | with_reducible apply OnlyChanges.refl
    | (extract_lets +onlyGivenNames y; guard_hyp y : State := Prod.snd _; subst y)
    | (extract_lets +onlyGivenNames y; guard_hyp y : State := _; apply OnlyChangesP.cut y; (on_goal 1 => (unfold y; clear y)); (on_goal 2 => (intro hx; clear_value y)))
    | (extract_lets +onlyGivenNames y; guard_hyp y : _ × State := _; apply OnlyChangesP.cutP y; (on_goal 1 => (unfold y; clear y)); (on_goal 2 => (intro hx; clear_value y)))
    | (extract_lets +onlyGivenNames y; guard_hyp y : _ × _ × State := _; apply OnlyChangesP.cutPP y; (on_goal 1 => (unfold y; clear y)); (on_goal 2 => (intro hx; clear_value y)))
    | (extract_lets +onlyGivenNames y; guard_hyp y : Boxes := _; subst y)
    | (extract_lets +onlyGivenNames y; guard_hyp y : Power := _; subst y)
    | (extract_lets +onlyGivenNames y; guard_hyp y : Trans := _; subst y)
    | (extract_lets +onlyGivenNames y; guard_hyp y : Prot := _; subst y)
    | (extract_lets +onlyGivenNames y; guard_hyp y : Persist := _; subst y)
    | (extract_lets +onlyGivenNames y; guard_hyp y : Sgl := _; subst y)
    | (extract_lets +onlyGivenNames y; guard_hyp y : Sec := _; subst y)
    | (extract_lets +onlyGivenNames y; clear_value y)
    | extract_lets +onlyGivenNames y
    | with_reducible apply OnlyChanges.ite
    | with_reducible apply OnlyChangesP.ite
    | (with_reducible apply OnlyChanges.step dropDove_frame; (on_goal 1 => decide))
    | (with_reducible apply OnlyChanges.step dropDram_frame; (on_goal 1 => decide))
    | (with_reducible apply OnlyChanges.step exhaust_frame; (on_goal 1 => decide))
    | (with_reducible apply OnlyChanges.step modMshr_frame; (on_goal 1 => decide))
    | (with_reducible apply OnlyChanges.step installLine_frame; (on_goal 1 => decide))
    | (with_reducible apply OnlyChanges.step takeVer_frame; (on_goal 1 => decide))
    | (with_reducible apply OnlyChanges.step acceptLine_frame; (on_goal 1 => decide))
    | (with_reducible apply OnlyChanges.step dropMiss_frame; (on_goal 1 => decide))
    | (with_reducible apply OnlyChanges.ofPair; (on_goal 1 => assumption))
    | split
    | with_reducible apply OnlyChangesP.mk

theorem closeDove_frame {a0} {x : State} : OnlyChanges [.cache] x (closeDove a0 x) := by
  unfold closeDove
  repeat' first
    | with_reducible assumption
    | with_reducible apply OnlyChanges.refl
    | (extract_lets +onlyGivenNames y; guard_hyp y : State := Prod.snd _; subst y)
    | (extract_lets +onlyGivenNames y; guard_hyp y : State := _; apply OnlyChanges.cut y; (on_goal 1 => (unfold y; clear y)); (on_goal 2 => (intro hx; clear_value y)))
    | (extract_lets +onlyGivenNames y; guard_hyp y : _ × State := _; apply OnlyChanges.cutP y; (on_goal 1 => (unfold y; clear y)); (on_goal 2 => (intro hx; clear_value y)))
    | (extract_lets +onlyGivenNames y; guard_hyp y : _ × _ × State := _; apply OnlyChanges.cutPP y; (on_goal 1 => (unfold y; clear y)); (on_goal 2 => (intro hx; clear_value y)))
    | (extract_lets +onlyGivenNames y; guard_hyp y : Boxes := _; subst y)
    | (extract_lets +onlyGivenNames y; guard_hyp y : Power := _; subst y)
    | (extract_lets +onlyGivenNames y; guard_hyp y : Trans := _; subst y)
    | (extract_lets +onlyGivenNames y; guard_hyp y : Prot := _; subst y)
    | (extract_lets +onlyGivenNames y; guard_hyp y : Persist := _; subst y)
    | (extract_lets +onlyGivenNames y; guard_hyp y : Sgl := _; subst y)
    | (extract_lets +onlyGivenNames y; guard_hyp y : Sec := _; subst y)
    | (extract_lets +onlyGivenNames y; clear_value y)
    | extract_lets +onlyGivenNames y
    | with_reducible apply OnlyChanges.ite
    | split
    | (with_reducible apply OnlyChanges.upd4096; (on_goal 1 => decide))

theorem applySeq_frame {a0} {x : State} : OnlyChangesP [.evr, .pmc, .sched, .tr, .per, .ck, .cache, .dram, .cxlA, .cxlB, .sec, .freeCtr, .outs] x (applySeq a0 x) := by
  unfold applySeq
  repeat' first
    | with_reducible assumption
    | with_reducible apply OnlyChanges.refl
    | with_reducible apply OnlyChanges.ite
    | with_reducible apply OnlyChangesP.ite
    | (with_reducible apply OnlyChanges.step noteWrite_frame; (on_goal 1 => decide))
    | (with_reducible apply OnlyChanges.step event_frame; (on_goal 1 => decide))
    | (with_reducible apply OnlyChanges.step modMshr_frame; (on_goal 1 => decide))
    | (with_reducible apply OnlyChangesP.step writeFull_frame; (on_goal 1 => decide))
    | (with_reducible apply OnlyChangesP.snd writeFull_frame; (on_goal 1 => decide))
    | (with_reducible apply OnlyChanges.step closeDove_frame; (on_goal 1 => decide))
    | (with_reducible apply OnlyChanges.ofPair; (on_goal 1 => assumption))
    | split
    | with_reducible apply OnlyChangesP.mk

theorem evictWait_frame {a0} {a1} {x : State} : OnlyChangesP [.pmc, .cache, .dram, .freeCtr, .outs] x (evictWait a0 a1 x) := by
  unfold evictWait
  repeat' first
    | with_reducible assumption
    | with_reducible apply OnlyChanges.refl
    | (extract_lets +onlyGivenNames y; guard_hyp y : State := Prod.snd _; subst y)
    | (extract_lets +onlyGivenNames y; guard_hyp y : State := _; apply OnlyChangesP.cut y; (on_goal 1 => (unfold y; clear y)); (on_goal 2 => (intro hx; clear_value y)))
    | (extract_lets +onlyGivenNames y; guard_hyp y : _ × State := _; apply OnlyChangesP.cutP y; (on_goal 1 => (unfold y; clear y)); (on_goal 2 => (intro hx; clear_value y)))
    | (extract_lets +onlyGivenNames y; guard_hyp y : _ × _ × State := _; apply OnlyChangesP.cutPP y; (on_goal 1 => (unfold y; clear y)); (on_goal 2 => (intro hx; clear_value y)))
    | (extract_lets +onlyGivenNames y; guard_hyp y : Boxes := _; subst y)
    | (extract_lets +onlyGivenNames y; guard_hyp y : Power := _; subst y)
    | (extract_lets +onlyGivenNames y; guard_hyp y : Trans := _; subst y)
    | (extract_lets +onlyGivenNames y; guard_hyp y : Prot := _; subst y)
    | (extract_lets +onlyGivenNames y; guard_hyp y : Persist := _; subst y)
    | (extract_lets +onlyGivenNames y; guard_hyp y : Sgl := _; subst y)
    | (extract_lets +onlyGivenNames y; guard_hyp y : Sec := _; subst y)
    | (extract_lets +onlyGivenNames y; clear_value y)
    | extract_lets +onlyGivenNames y
    | with_reducible apply OnlyChanges.ite
    | with_reducible apply OnlyChangesP.ite
    | (with_reducible apply OnlyChanges.step beginEvict_frame; (on_goal 1 => decide))
    | (with_reducible apply OnlyChanges.step modMshr_frame; (on_goal 1 => decide))
    | split
    | with_reducible apply OnlyChangesP.mk

theorem cmpWrt_frame {a0} {a1} {a2} {a3} {x : State} : OnlyChanges [.coh, .fab, .outs] x (cmpWrt a0 a1 a2 a3 x) := by
  unfold cmpWrt
  repeat' first
    | with_reducible assumption
    | with_reducible apply OnlyChanges.refl
    | (extract_lets +onlyGivenNames y; guard_hyp y : State := Prod.snd _; subst y)
    | (extract_lets +onlyGivenNames y; guard_hyp y : State := _; apply OnlyChanges.cut y; (on_goal 1 => (unfold y; clear y)); (on_goal 2 => (intro hx; clear_value y)))
    | (extract_lets +onlyGivenNames y; guard_hyp y : _ × State := _; apply OnlyChanges.cutP y; (on_goal 1 => (unfold y; clear y)); (on_goal 2 => (intro hx; clear_value y)))
    | (extract_lets +onlyGivenNames y; guard_hyp y : _ × _ × State := _; apply OnlyChanges.cutPP y; (on_goal 1 => (unfold y; clear y)); (on_goal 2 => (intro hx; clear_value y)))
    | (extract_lets +onlyGivenNames y; guard_hyp y : Boxes := _; subst y)
    | (extract_lets +onlyGivenNames y; guard_hyp y : Power := _; subst y)
    | (extract_lets +onlyGivenNames y; guard_hyp y : Trans := _; subst y)
    | (extract_lets +onlyGivenNames y; guard_hyp y : Prot := _; subst y)
    | (extract_lets +onlyGivenNames y; guard_hyp y : Persist := _; subst y)
    | (extract_lets +onlyGivenNames y; guard_hyp y : Sgl := _; subst y)
    | (extract_lets +onlyGivenNames y; guard_hyp y : Sec := _; subst y)
    | (extract_lets +onlyGivenNames y; clear_value y)
    | extract_lets +onlyGivenNames y
    | with_reducible apply OnlyChanges.ite
    | (with_reducible apply OnlyChanges.step sendMsg_frame; (on_goal 1 => decide))
    | split
    | (with_reducible apply OnlyChanges.upd16384; (on_goal 1 => decide))

theorem completeWrite_frame {a0} {a1} {a2} {x : State} : OnlyChanges [.trb, .coh, .fab, .portA, .portB, .freeCtr, .outs] x (completeWrite a0 a1 a2 x) := by
  unfold completeWrite
  repeat' first
    | with_reducible assumption
    | with_reducible apply OnlyChanges.refl
    | (extract_lets +onlyGivenNames y; guard_hyp y : State := Prod.snd _; subst y)
    | (extract_lets +onlyGivenNames y; guard_hyp y : State := _; apply OnlyChanges.cut y; (on_goal 1 => (unfold y; clear y)); (on_goal 2 => (intro hx; clear_value y)))
    | (extract_lets +onlyGivenNames y; guard_hyp y : _ × State := _; apply OnlyChanges.cutP y; (on_goal 1 => (unfold y; clear y)); (on_goal 2 => (intro hx; clear_value y)))
    | (extract_lets +onlyGivenNames y; guard_hyp y : _ × _ × State := _; apply OnlyChanges.cutPP y; (on_goal 1 => (unfold y; clear y)); (on_goal 2 => (intro hx; clear_value y)))
    | (extract_lets +onlyGivenNames y; guard_hyp y : Boxes := _; subst y)
    | (extract_lets +onlyGivenNames y; guard_hyp y : Power := _; subst y)
    | (extract_lets +onlyGivenNames y; guard_hyp y : Trans := _; subst y)
    | (extract_lets +onlyGivenNames y; guard_hyp y : Prot := _; subst y)
    | (extract_lets +onlyGivenNames y; guard_hyp y : Persist := _; subst y)
    | (extract_lets +onlyGivenNames y; guard_hyp y : Sgl := _; subst y)
    | (extract_lets +onlyGivenNames y; guard_hyp y : Sec := _; subst y)
    | (extract_lets +onlyGivenNames y; clear_value y)
    | extract_lets +onlyGivenNames y
    | with_reducible apply OnlyChanges.ite
    | (with_reducible apply OnlyChanges.step traceDone_frame; (on_goal 1 => decide))
    | (with_reducible apply OnlyChanges.step usage_frame; (on_goal 1 => decide))
    | (with_reducible apply OnlyChanges.step emit_frame; (on_goal 1 => decide))
    | (with_reducible apply OnlyChanges.step setHolding_frame; (on_goal 1 => decide))
    | (with_reducible apply OnlyChanges.step cmpWrt_frame; (on_goal 1 => decide))
    | split

theorem putDove_frame {a0} {a1} {x : State} : OnlyChanges [.cache, .dram] x (putDove a0 a1 x) := by
  unfold putDove
  repeat' first
    | with_reducible assumption
    | with_reducible apply OnlyChanges.refl
    | (extract_lets +onlyGivenNames y; guard_hyp y : State := Prod.snd _; subst y)
    | (extract_lets +onlyGivenNames y; guard_hyp y : State := _; apply OnlyChanges.cut y; (on_goal 1 => (unfold y; clear y)); (on_goal 2 => (intro hx; clear_value y)))
    | (extract_lets +onlyGivenNames y; guard_hyp y : _ × State := _; apply OnlyChanges.cutP y; (on_goal 1 => (unfold y; clear y)); (on_goal 2 => (intro hx; clear_value y)))
    | (extract_lets +onlyGivenNames y; guard_hyp y : _ × _ × State := _; apply OnlyChanges.cutPP y; (on_goal 1 => (unfold y; clear y)); (on_goal 2 => (intro hx; clear_value y)))
    | (extract_lets +onlyGivenNames y; guard_hyp y : Boxes := _; subst y)
    | (extract_lets +onlyGivenNames y; guard_hyp y : Power := _; subst y)
    | (extract_lets +onlyGivenNames y; guard_hyp y : Trans := _; subst y)
    | (extract_lets +onlyGivenNames y; guard_hyp y : Prot := _; subst y)
    | (extract_lets +onlyGivenNames y; guard_hyp y : Persist := _; subst y)
    | (extract_lets +onlyGivenNames y; guard_hyp y : Sgl := _; subst y)
    | (extract_lets +onlyGivenNames y; guard_hyp y : Sec := _; subst y)
    | (extract_lets +onlyGivenNames y; clear_value y)
    | extract_lets +onlyGivenNames y
    | with_reducible apply OnlyChanges.ite
    | (with_reducible apply OnlyChanges.step dramWrites_frame; (on_goal 1 => decide))
    | split
    | (with_reducible apply OnlyChanges.upd4096; (on_goal 1 => decide))

theorem applyWriteIn_frame {a0} {a1} {a2} {x : State} : OnlyChangesP [.evr, .pmc, .trb, .sched, .tr, .per, .ck, .cache, .dram, .coh, .fab, .portA, .portB, .cxlA, .cxlB, .sec, .freeCtr, .outs] x (applyWriteIn a0 a1 a2 x) := by
  unfold applyWriteIn
  repeat' first
    | with_reducible assumption
    | with_reducible apply OnlyChanges.refl
    | (extract_lets +onlyGivenNames y; guard_hyp y : State := Prod.snd _; subst y)
    | (extract_lets +onlyGivenNames y; guard_hyp y : State := _; apply OnlyChangesP.cut y; (on_goal 1 => (unfold y; clear y)); (on_goal 2 => (intro hx; clear_value y)))
    | (extract_lets +onlyGivenNames y; guard_hyp y : _ × State := _; apply OnlyChangesP.cutP y; (on_goal 1 => (unfold y; clear y)); (on_goal 2 => (intro hx; clear_value y)))
    | (extract_lets +onlyGivenNames y; guard_hyp y : _ × _ × State := _; apply OnlyChangesP.cutPP y; (on_goal 1 => (unfold y; clear y)); (on_goal 2 => (intro hx; clear_value y)))
    | (extract_lets +onlyGivenNames y; guard_hyp y : Boxes := _; subst y)
    | (extract_lets +onlyGivenNames y; guard_hyp y : Power := _; subst y)
    | (extract_lets +onlyGivenNames y; guard_hyp y : Trans := _; subst y)
    | (extract_lets +onlyGivenNames y; guard_hyp y : Prot := _; subst y)
    | (extract_lets +onlyGivenNames y; guard_hyp y : Persist := _; subst y)
    | (extract_lets +onlyGivenNames y; guard_hyp y : Sgl := _; subst y)
    | (extract_lets +onlyGivenNames y; guard_hyp y : Sec := _; subst y)
    | (extract_lets +onlyGivenNames y; clear_value y)
    | extract_lets +onlyGivenNames y
    | with_reducible apply OnlyChanges.ite
    | with_reducible apply OnlyChangesP.ite
    | (with_reducible apply OnlyChangesP.step applySeq_frame; (on_goal 1 => decide))
    | (with_reducible apply OnlyChangesP.snd applySeq_frame; (on_goal 1 => decide))
    | (with_reducible apply OnlyChanges.step closeIfHalf_frame; (on_goal 1 => decide))
    | (with_reducible apply OnlyChangesP.step evictWait_frame; (on_goal 1 => decide))
    | (with_reducible apply OnlyChangesP.snd evictWait_frame; (on_goal 1 => decide))
    | (with_reducible apply OnlyChanges.step modMshr_frame; (on_goal 1 => decide))
    | (with_reducible apply OnlyChanges.step completeWrite_frame; (on_goal 1 => decide))
    | (with_reducible apply OnlyChangesP.step writeFull_frame; (on_goal 1 => decide))
    | (with_reducible apply OnlyChangesP.snd writeFull_frame; (on_goal 1 => decide))
    | (with_reducible apply OnlyChanges.step closeDove_frame; (on_goal 1 => decide))
    | (with_reducible apply OnlyChanges.step putDove_frame; (on_goal 1 => decide))
    | (with_reducible apply OnlyChanges.ofPair; (on_goal 1 => assumption))
    | split
    | with_reducible apply OnlyChangesP.mk
    | (with_reducible apply OnlyChanges.upd1024; (on_goal 1 => decide); (on_goal 1 => (first | exact Or.inr (by with_reducible rfl) | exact Or.inl (by decide) | exact Or.inr rfl)))

theorem applyWrite_frame {a0} {a1} {x : State} : OnlyChangesP [.evr, .pmc, .trb, .sched, .tr, .per, .ck, .cache, .dram, .coh, .fab, .portA, .portB, .cxlA, .cxlB, .sec, .freeCtr, .outs] x (applyWrite a0 a1 x) := by
  unfold applyWrite
  repeat' first
    | with_reducible assumption
    | with_reducible apply OnlyChanges.refl
    | with_reducible apply OnlyChanges.ite
    | with_reducible apply OnlyChangesP.ite
    | (with_reducible apply OnlyChangesP.step applyWriteIn_frame; (on_goal 1 => decide))
    | (with_reducible apply OnlyChangesP.snd applyWriteIn_frame; (on_goal 1 => decide))
    | (with_reducible apply OnlyChanges.ofPair; (on_goal 1 => assumption))
    | split
    | with_reducible apply OnlyChangesP.mk

theorem sramCorrected_frame  {x : State} : OnlyChanges [.prot] x (sramCorrected x) := by
  unfold sramCorrected
  repeat' first
    | with_reducible assumption
    | with_reducible apply OnlyChanges.refl
    | (extract_lets +onlyGivenNames y; guard_hyp y : State := Prod.snd _; subst y)
    | (extract_lets +onlyGivenNames y; guard_hyp y : State := _; apply OnlyChanges.cut y; (on_goal 1 => (unfold y; clear y)); (on_goal 2 => (intro hx; clear_value y)))
    | (extract_lets +onlyGivenNames y; guard_hyp y : _ × State := _; apply OnlyChanges.cutP y; (on_goal 1 => (unfold y; clear y)); (on_goal 2 => (intro hx; clear_value y)))
    | (extract_lets +onlyGivenNames y; guard_hyp y : _ × _ × State := _; apply OnlyChanges.cutPP y; (on_goal 1 => (unfold y; clear y)); (on_goal 2 => (intro hx; clear_value y)))
    | (extract_lets +onlyGivenNames y; guard_hyp y : Boxes := _; subst y)
    | (extract_lets +onlyGivenNames y; guard_hyp y : Power := _; subst y)
    | (extract_lets +onlyGivenNames y; guard_hyp y : Trans := _; subst y)
    | (extract_lets +onlyGivenNames y; guard_hyp y : Prot := _; subst y)
    | (extract_lets +onlyGivenNames y; guard_hyp y : Persist := _; subst y)
    | (extract_lets +onlyGivenNames y; guard_hyp y : Sgl := _; subst y)
    | (extract_lets +onlyGivenNames y; guard_hyp y : Sec := _; subst y)
    | (extract_lets +onlyGivenNames y; clear_value y)
    | extract_lets +onlyGivenNames y
    | with_reducible apply OnlyChanges.ite
    | split
    | (with_reducible apply OnlyChanges.upd512; (on_goal 1 => decide); (on_goal 1 => (first | exact Or.inr (by with_reducible rfl) | exact Or.inl (by decide) | exact Or.inr rfl)))

theorem sramHit_frame {a0} {a1} {a2} {a3} {x : State} : OnlyChanges [.pmc, .trb, .prot, .cache, .coh, .fab, .portA, .portB, .freeCtr, .outs] x (sramHit a0 a1 a2 a3 x) := by
  unfold sramHit
  repeat' first
    | with_reducible assumption
    | with_reducible apply OnlyChanges.refl
    | (extract_lets +onlyGivenNames y; guard_hyp y : State := Prod.snd _; subst y)
    | (extract_lets +onlyGivenNames y; guard_hyp y : State := _; apply OnlyChanges.cut y; (on_goal 1 => (unfold y; clear y)); (on_goal 2 => (intro hx; clear_value y)))
    | (extract_lets +onlyGivenNames y; guard_hyp y : _ × State := _; apply OnlyChanges.cutP y; (on_goal 1 => (unfold y; clear y)); (on_goal 2 => (intro hx; clear_value y)))
    | (extract_lets +onlyGivenNames y; guard_hyp y : _ × _ × State := _; apply OnlyChanges.cutPP y; (on_goal 1 => (unfold y; clear y)); (on_goal 2 => (intro hx; clear_value y)))
    | (extract_lets +onlyGivenNames y; guard_hyp y : Boxes := _; subst y)
    | (extract_lets +onlyGivenNames y; guard_hyp y : Power := _; subst y)
    | (extract_lets +onlyGivenNames y; guard_hyp y : Trans := _; subst y)
    | (extract_lets +onlyGivenNames y; guard_hyp y : Prot := _; subst y)
    | (extract_lets +onlyGivenNames y; guard_hyp y : Persist := _; subst y)
    | (extract_lets +onlyGivenNames y; guard_hyp y : Sgl := _; subst y)
    | (extract_lets +onlyGivenNames y; guard_hyp y : Sec := _; subst y)
    | (extract_lets +onlyGivenNames y; clear_value y)
    | extract_lets +onlyGivenNames y
    | with_reducible apply OnlyChanges.ite
    | (with_reducible apply OnlyChanges.step touch_frame; (on_goal 1 => decide))
    | (with_reducible apply OnlyChanges.step answer_frame; (on_goal 1 => decide))
    | (with_reducible apply OnlyChanges.step putWay_frame; (on_goal 1 => decide))
    | (with_reducible apply OnlyChanges.step sramCorrected_frame; (on_goal 1 => decide))
    | (with_reducible apply OnlyChanges.step count_frame; (on_goal 1 => decide))
    | split

theorem dataPhase_frame {a0} {a1} {x : State} : OnlyChangesP [.pmc, .trb, .sched, .prot, .cache, .dram, .coh, .fab, .portA, .portB, .freeCtr, .outs] x (dataPhase a0 a1 x) := by
  unfold dataPhase
  repeat' first
    | with_reducible assumption
    | with_reducible apply OnlyChanges.refl
    | (extract_lets +onlyGivenNames y; guard_hyp y : State := Prod.snd _; subst y)
    | (extract_lets +onlyGivenNames y; guard_hyp y : State := _; apply OnlyChangesP.cut y; (on_goal 1 => (unfold y; clear y)); (on_goal 2 => (intro hx; clear_value y)))
    | (extract_lets +onlyGivenNames y; guard_hyp y : _ × State := _; apply OnlyChangesP.cutP y; (on_goal 1 => (unfold y; clear y)); (on_goal 2 => (intro hx; clear_value y)))
    | (extract_lets +onlyGivenNames y; guard_hyp y : _ × _ × State := _; apply OnlyChangesP.cutPP y; (on_goal 1 => (unfold y; clear y)); (on_goal 2 => (intro hx; clear_value y)))
    | (extract_lets +onlyGivenNames y; guard_hyp y : Boxes := _; subst y)
    | (extract_lets +onlyGivenNames y; guard_hyp y : Power := _; subst y)
    | (extract_lets +onlyGivenNames y; guard_hyp y : Trans := _; subst y)
    | (extract_lets +onlyGivenNames y; guard_hyp y : Prot := _; subst y)
    | (extract_lets +onlyGivenNames y; guard_hyp y : Persist := _; subst y)
    | (extract_lets +onlyGivenNames y; guard_hyp y : Sgl := _; subst y)
    | (extract_lets +onlyGivenNames y; guard_hyp y : Sec := _; subst y)
    | (extract_lets +onlyGivenNames y; clear_value y)
    | extract_lets +onlyGivenNames y
    | with_reducible apply OnlyChanges.ite
    | with_reducible apply OnlyChangesP.ite
    | (with_reducible apply OnlyChanges.step readOld_frame; (on_goal 1 => decide))
    | (with_reducible apply OnlyChanges.step startMiss_frame; (on_goal 1 => decide))
    | (with_reducible apply OnlyChanges.step answer_frame; (on_goal 1 => decide))
    | (with_reducible apply OnlyChanges.step modMshr_frame; (on_goal 1 => decide))
    | (with_reducible apply OnlyChanges.step evictNow_frame; (on_goal 1 => decide))
    | (with_reducible apply OnlyChanges.step closeDove_frame; (on_goal 1 => decide))
    | (with_reducible apply OnlyChanges.step sramHit_frame; (on_goal 1 => decide))
    | (with_reducible apply OnlyChanges.step dropMiss_frame; (on_goal 1 => decide))
    | (with_reducible apply OnlyChanges.step count_frame; (on_goal 1 => decide))
    | split
    | with_reducible apply OnlyChangesP.mk

theorem finishCoh_frame {a0} {a1} {a2} {a3} {x : State} : OnlyChangesP [.evr, .pmc, .trb, .sched, .tr, .prot, .per, .ck, .cache, .dram, .coh, .fab, .portA, .portB, .cxlA, .cxlB, .sec, .freeCtr, .outs] x (finishCoh a0 a1 a2 a3 x) := by
  unfold finishCoh
  repeat' first
    | with_reducible assumption
    | with_reducible apply OnlyChanges.refl
    | (extract_lets +onlyGivenNames y; guard_hyp y : State := Prod.snd _; subst y)
    | (extract_lets +onlyGivenNames y; guard_hyp y : State := _; apply OnlyChangesP.cut y; (on_goal 1 => (unfold y; clear y)); (on_goal 2 => (intro hx; clear_value y)))
    | (extract_lets +onlyGivenNames y; guard_hyp y : _ × State := _; apply OnlyChangesP.cutP y; (on_goal 1 => (unfold y; clear y)); (on_goal 2 => (intro hx; clear_value y)))
    | (extract_lets +onlyGivenNames y; guard_hyp y : _ × _ × State := _; apply OnlyChangesP.cutPP y; (on_goal 1 => (unfold y; clear y)); (on_goal 2 => (intro hx; clear_value y)))
    | (extract_lets +onlyGivenNames y; guard_hyp y : Boxes := _; subst y)
    | (extract_lets +onlyGivenNames y; guard_hyp y : Power := _; subst y)
    | (extract_lets +onlyGivenNames y; guard_hyp y : Trans := _; subst y)
    | (extract_lets +onlyGivenNames y; guard_hyp y : Prot := _; subst y)
    | (extract_lets +onlyGivenNames y; guard_hyp y : Persist := _; subst y)
    | (extract_lets +onlyGivenNames y; guard_hyp y : Sgl := _; subst y)
    | (extract_lets +onlyGivenNames y; guard_hyp y : Sec := _; subst y)
    | (extract_lets +onlyGivenNames y; clear_value y)
    | extract_lets +onlyGivenNames y
    | with_reducible apply OnlyChanges.ite
    | with_reducible apply OnlyChangesP.ite
    | (with_reducible apply OnlyChanges.step sendMsg_frame; (on_goal 1 => decide))
    | (with_reducible apply OnlyChangesP.step applyWrite_frame; (on_goal 1 => decide))
    | (with_reducible apply OnlyChangesP.snd applyWrite_frame; (on_goal 1 => decide))
    | (with_reducible apply OnlyChanges.step setDir_frame; (on_goal 1 => decide))
    | (with_reducible apply OnlyChanges.step modMshr_frame; (on_goal 1 => decide))
    | (with_reducible apply OnlyChanges.step dropMiss_frame; (on_goal 1 => decide))
    | (with_reducible apply OnlyChangesP.step dataPhase_frame; (on_goal 1 => decide))
    | (with_reducible apply OnlyChangesP.snd dataPhase_frame; (on_goal 1 => decide))
    | (with_reducible apply OnlyChanges.ofPair; (on_goal 1 => assumption))
    | split
    | with_reducible apply OnlyChangesP.mk

theorem invalidateSharers_frame {a0} {a1} {a2} {x : State} : OnlyChanges [.pmc, .coh, .fab, .freeCtr, .outs] x (invalidateSharers a0 a1 a2 x) := by
  induction a2 generalizing x a0 a1 with
  | nil =>
    unfold invalidateSharers
    repeat' first
      | with_reducible assumption
      | with_reducible apply OnlyChanges.refl
      | (extract_lets +onlyGivenNames y; guard_hyp y : State := Prod.snd _; subst y)
      | (extract_lets +onlyGivenNames y; guard_hyp y : State := _; apply OnlyChanges.cut y; (on_goal 1 => (unfold y; clear y)); (on_goal 2 => (intro hx; clear_value y)))
      | (extract_lets +onlyGivenNames y; guard_hyp y : _ × State := _; apply OnlyChanges.cutP y; (on_goal 1 => (unfold y; clear y)); (on_goal 2 => (intro hx; clear_value y)))
      | (extract_lets +onlyGivenNames y; guard_hyp y : _ × _ × State := _; apply OnlyChanges.cutPP y; (on_goal 1 => (unfold y; clear y)); (on_goal 2 => (intro hx; clear_value y)))
      | (extract_lets +onlyGivenNames y; guard_hyp y : Boxes := _; subst y)
      | (extract_lets +onlyGivenNames y; guard_hyp y : Power := _; subst y)
      | (extract_lets +onlyGivenNames y; guard_hyp y : Trans := _; subst y)
      | (extract_lets +onlyGivenNames y; guard_hyp y : Prot := _; subst y)
      | (extract_lets +onlyGivenNames y; guard_hyp y : Persist := _; subst y)
      | (extract_lets +onlyGivenNames y; guard_hyp y : Sgl := _; subst y)
      | (extract_lets +onlyGivenNames y; guard_hyp y : Sec := _; subst y)
      | (extract_lets +onlyGivenNames y; clear_value y)
      | extract_lets +onlyGivenNames y
      | with_reducible apply OnlyChanges.ite
      | (with_reducible apply OnlyChanges.step sendSnp_frame; (on_goal 1 => decide))
      | (with_reducible apply OnlyChangesP.step nextSnp_frame; (on_goal 1 => decide))
      | (with_reducible apply OnlyChangesP.snd nextSnp_frame; (on_goal 1 => decide))
      | (with_reducible apply OnlyChanges.ofPair; (on_goal 1 => assumption))
      | split
  | cons b l ih =>
    unfold invalidateSharers
    repeat' first
      | with_reducible assumption
      | with_reducible apply OnlyChanges.refl
      | (extract_lets +onlyGivenNames y; guard_hyp y : State := Prod.snd _; subst y)
      | (extract_lets +onlyGivenNames y; guard_hyp y : State := _; apply OnlyChanges.cut y; (on_goal 1 => (unfold y; clear y)); (on_goal 2 => (intro hx; clear_value y)))
      | (extract_lets +onlyGivenNames y; guard_hyp y : _ × State := _; apply OnlyChanges.cutP y; (on_goal 1 => (unfold y; clear y)); (on_goal 2 => (intro hx; clear_value y)))
      | (extract_lets +onlyGivenNames y; guard_hyp y : _ × _ × State := _; apply OnlyChanges.cutPP y; (on_goal 1 => (unfold y; clear y)); (on_goal 2 => (intro hx; clear_value y)))
      | (extract_lets +onlyGivenNames y; guard_hyp y : Boxes := _; subst y)
      | (extract_lets +onlyGivenNames y; guard_hyp y : Power := _; subst y)
      | (extract_lets +onlyGivenNames y; guard_hyp y : Trans := _; subst y)
      | (extract_lets +onlyGivenNames y; guard_hyp y : Prot := _; subst y)
      | (extract_lets +onlyGivenNames y; guard_hyp y : Persist := _; subst y)
      | (extract_lets +onlyGivenNames y; guard_hyp y : Sgl := _; subst y)
      | (extract_lets +onlyGivenNames y; guard_hyp y : Sec := _; subst y)
      | (extract_lets +onlyGivenNames y; clear_value y)
      | extract_lets +onlyGivenNames y
      | with_reducible apply OnlyChanges.ite
      | (with_reducible apply OnlyChanges.step sendSnp_frame; (on_goal 1 => decide))
      | (with_reducible apply OnlyChangesP.step nextSnp_frame; (on_goal 1 => decide))
      | (with_reducible apply OnlyChangesP.snd nextSnp_frame; (on_goal 1 => decide))
      | (with_reducible apply OnlyChanges.ofPair; (on_goal 1 => assumption))
      | (with_reducible apply OnlyChanges.step ih; (on_goal 1 => decide))
      | split

theorem beginTrans_frame {a0} {a1} {a2} {a3} {a4} {x : State} : OnlyChangesP [.evr, .pmc, .trb, .sched, .tr, .prot, .per, .ck, .cache, .dram, .coh, .fab, .portA, .portB, .cxlA, .cxlB, .sec, .freeCtr, .outs] x (beginTrans a0 a1 a2 a3 a4 x) := by
  unfold beginTrans
  repeat' first
    | with_reducible assumption
    | with_reducible apply OnlyChanges.refl
    | (extract_lets +onlyGivenNames y; guard_hyp y : State := Prod.snd _; subst y)
    | (extract_lets +onlyGivenNames y; guard_hyp y : State := _; apply OnlyChangesP.cut y; (on_goal 1 => (unfold y; clear y)); (on_goal 2 => (intro hx; clear_value y)))
    | (extract_lets +onlyGivenNames y; guard_hyp y : _ × State := _; apply OnlyChangesP.cutP y; (on_goal 1 => (unfold y; clear y)); (on_goal 2 => (intro hx; clear_value y)))
    | (extract_lets +onlyGivenNames y; guard_hyp y : _ × _ × State := _; apply OnlyChangesP.cutPP y; (on_goal 1 => (unfold y; clear y)); (on_goal 2 => (intro hx; clear_value y)))
    | (extract_lets +onlyGivenNames y; guard_hyp y : Boxes := _; subst y)
    | (extract_lets +onlyGivenNames y; guard_hyp y : Power := _; subst y)
    | (extract_lets +onlyGivenNames y; guard_hyp y : Trans := _; subst y)
    | (extract_lets +onlyGivenNames y; guard_hyp y : Prot := _; subst y)
    | (extract_lets +onlyGivenNames y; guard_hyp y : Persist := _; subst y)
    | (extract_lets +onlyGivenNames y; guard_hyp y : Sgl := _; subst y)
    | (extract_lets +onlyGivenNames y; guard_hyp y : Sec := _; subst y)
    | (extract_lets +onlyGivenNames y; clear_value y)
    | extract_lets +onlyGivenNames y
    | with_reducible apply OnlyChanges.ite
    | with_reducible apply OnlyChangesP.ite
    | (with_reducible apply OnlyChanges.step sendBis_frame; (on_goal 1 => decide))
    | (with_reducible apply OnlyChangesP.step finishCoh_frame; (on_goal 1 => decide))
    | (with_reducible apply OnlyChangesP.snd finishCoh_frame; (on_goal 1 => decide))
    | (with_reducible apply OnlyChanges.step startEarly_frame; (on_goal 1 => decide))
    | (with_reducible apply OnlyChanges.step setDir_frame; (on_goal 1 => decide))
    | (with_reducible apply OnlyChanges.step modMshr_frame; (on_goal 1 => decide))
    | (with_reducible apply OnlyChanges.step invalidateSharers_frame; (on_goal 1 => decide))
    | (with_reducible apply OnlyChanges.ofPair; (on_goal 1 => assumption))
    | split
    | with_reducible apply OnlyChangesP.mk

theorem startStable_frame {a0} {a1} {x : State} : OnlyChangesP [.evr, .pmc, .trb, .sched, .tr, .prot, .per, .ck, .cache, .dram, .coh, .fab, .portA, .portB, .cxlA, .cxlB, .sec, .freeCtr, .outs] x (startStable a0 a1 x) := by
  unfold startStable
  repeat' first
    | with_reducible assumption
    | with_reducible apply OnlyChanges.refl
    | (extract_lets +onlyGivenNames y; guard_hyp y : State := Prod.snd _; subst y)
    | (extract_lets +onlyGivenNames y; guard_hyp y : State := _; apply OnlyChangesP.cut y; (on_goal 1 => (unfold y; clear y)); (on_goal 2 => (intro hx; clear_value y)))
    | (extract_lets +onlyGivenNames y; guard_hyp y : _ × State := _; apply OnlyChangesP.cutP y; (on_goal 1 => (unfold y; clear y)); (on_goal 2 => (intro hx; clear_value y)))
    | (extract_lets +onlyGivenNames y; guard_hyp y : _ × _ × State := _; apply OnlyChangesP.cutPP y; (on_goal 1 => (unfold y; clear y)); (on_goal 2 => (intro hx; clear_value y)))
    | (extract_lets +onlyGivenNames y; guard_hyp y : Boxes := _; subst y)
    | (extract_lets +onlyGivenNames y; guard_hyp y : Power := _; subst y)
    | (extract_lets +onlyGivenNames y; guard_hyp y : Trans := _; subst y)
    | (extract_lets +onlyGivenNames y; guard_hyp y : Prot := _; subst y)
    | (extract_lets +onlyGivenNames y; guard_hyp y : Persist := _; subst y)
    | (extract_lets +onlyGivenNames y; guard_hyp y : Sgl := _; subst y)
    | (extract_lets +onlyGivenNames y; guard_hyp y : Sec := _; subst y)
    | (extract_lets +onlyGivenNames y; clear_value y)
    | extract_lets +onlyGivenNames y
    | with_reducible apply OnlyChanges.ite
    | with_reducible apply OnlyChangesP.ite
    | (with_reducible apply OnlyChanges.step protocolError_frame; (on_goal 1 => decide))
    | (with_reducible apply OnlyChangesP.step snoopOwner_frame; (on_goal 1 => decide))
    | (with_reducible apply OnlyChangesP.snd snoopOwner_frame; (on_goal 1 => decide))
    | (with_reducible apply OnlyChangesP.step applyWrite_frame; (on_goal 1 => decide))
    | (with_reducible apply OnlyChangesP.snd applyWrite_frame; (on_goal 1 => decide))
    | (with_reducible apply OnlyChangesP.step beginTrans_frame; (on_goal 1 => decide))
    | (with_reducible apply OnlyChangesP.snd beginTrans_frame; (on_goal 1 => decide))
    | (with_reducible apply OnlyChangesP.step dataPhase_frame; (on_goal 1 => decide))
    | (with_reducible apply OnlyChangesP.snd dataPhase_frame; (on_goal 1 => decide))
    | (with_reducible apply OnlyChanges.ofPair; (on_goal 1 => assumption))
    | split
    | with_reducible apply OnlyChangesP.mk

theorem refuse_frame {a0} {a1} {a2} {a3} {x : State} : OnlyChanges [.pmc, .coh, .fab, .freeCtr, .outs] x (refuse a0 a1 a2 a3 x) := by
  unfold refuse
  repeat' first
    | with_reducible assumption
    | with_reducible apply OnlyChanges.refl
    | (extract_lets +onlyGivenNames y; guard_hyp y : State := Prod.snd _; subst y)
    | (extract_lets +onlyGivenNames y; guard_hyp y : State := _; apply OnlyChanges.cut y; (on_goal 1 => (unfold y; clear y)); (on_goal 2 => (intro hx; clear_value y)))
    | (extract_lets +onlyGivenNames y; guard_hyp y : _ × State := _; apply OnlyChanges.cutP y; (on_goal 1 => (unfold y; clear y)); (on_goal 2 => (intro hx; clear_value y)))
    | (extract_lets +onlyGivenNames y; guard_hyp y : _ × _ × State := _; apply OnlyChanges.cutPP y; (on_goal 1 => (unfold y; clear y)); (on_goal 2 => (intro hx; clear_value y)))
    | (extract_lets +onlyGivenNames y; guard_hyp y : Boxes := _; subst y)
    | (extract_lets +onlyGivenNames y; guard_hyp y : Power := _; subst y)
    | (extract_lets +onlyGivenNames y; guard_hyp y : Trans := _; subst y)
    | (extract_lets +onlyGivenNames y; guard_hyp y : Prot := _; subst y)
    | (extract_lets +onlyGivenNames y; guard_hyp y : Persist := _; subst y)
    | (extract_lets +onlyGivenNames y; guard_hyp y : Sgl := _; subst y)
    | (extract_lets +onlyGivenNames y; guard_hyp y : Sec := _; subst y)
    | (extract_lets +onlyGivenNames y; clear_value y)
    | extract_lets +onlyGivenNames y
    | with_reducible apply OnlyChanges.ite
    | (with_reducible apply OnlyChanges.step sendMsg_frame; (on_goal 1 => decide))
    | (with_reducible apply OnlyChanges.step count_frame; (on_goal 1 => decide))
    | split
    | (with_reducible apply OnlyChanges.upd16384; (on_goal 1 => decide))

theorem startCur_frame {a0} {a1} {x : State} : OnlyChangesP [.evr, .pmc, .trb, .sched, .tr, .prot, .per, .ck, .cache, .dram, .coh, .fab, .portA, .portB, .cxlA, .cxlB, .sec, .freeCtr, .outs] x (startCur a0 a1 x) := by
  unfold startCur
  repeat' first
    | with_reducible assumption
    | with_reducible apply OnlyChanges.refl
    | (extract_lets +onlyGivenNames y; guard_hyp y : State := Prod.snd _; subst y)
    | (extract_lets +onlyGivenNames y; guard_hyp y : State := _; apply OnlyChangesP.cut y; (on_goal 1 => (unfold y; clear y)); (on_goal 2 => (intro hx; clear_value y)))
    | (extract_lets +onlyGivenNames y; guard_hyp y : _ × State := _; apply OnlyChangesP.cutP y; (on_goal 1 => (unfold y; clear y)); (on_goal 2 => (intro hx; clear_value y)))
    | (extract_lets +onlyGivenNames y; guard_hyp y : _ × _ × State := _; apply OnlyChangesP.cutPP y; (on_goal 1 => (unfold y; clear y)); (on_goal 2 => (intro hx; clear_value y)))
    | (extract_lets +onlyGivenNames y; guard_hyp y : Boxes := _; subst y)
    | (extract_lets +onlyGivenNames y; guard_hyp y : Power := _; subst y)
    | (extract_lets +onlyGivenNames y; guard_hyp y : Trans := _; subst y)
    | (extract_lets +onlyGivenNames y; guard_hyp y : Prot := _; subst y)
    | (extract_lets +onlyGivenNames y; guard_hyp y : Persist := _; subst y)
    | (extract_lets +onlyGivenNames y; guard_hyp y : Sgl := _; subst y)
    | (extract_lets +onlyGivenNames y; guard_hyp y : Sec := _; subst y)
    | (extract_lets +onlyGivenNames y; clear_value y)
    | extract_lets +onlyGivenNames y
    | with_reducible apply OnlyChanges.ite
    | with_reducible apply OnlyChangesP.ite
    | (with_reducible apply OnlyChangesP.step startStable_frame; (on_goal 1 => decide))
    | (with_reducible apply OnlyChangesP.snd startStable_frame; (on_goal 1 => decide))
    | (with_reducible apply OnlyChanges.step putMshr_frame; (on_goal 1 => decide))
    | (with_reducible apply OnlyChanges.step modMshr_frame; (on_goal 1 => decide))
    | (with_reducible apply OnlyChanges.step refuse_frame; (on_goal 1 => decide))
    | (with_reducible apply OnlyChanges.ofPair; (on_goal 1 => assumption))
    | split
    | with_reducible apply OnlyChangesP.mk
    | (with_reducible apply OnlyChanges.upd16384; (on_goal 1 => decide))

theorem maintLine_frame {a0} {a1} {a2} {x : State} : OnlyChanges [.pmc, .cache, .dram, .freeCtr, .outs] x (maintLine a0 a1 a2 x) := by
  unfold maintLine
  dsimp -proj only
  repeat' first
    | with_reducible assumption
    | with_reducible apply OnlyChanges.refl
    | with_reducible apply OnlyChanges.ite
    | (with_reducible apply OnlyChanges.step countWasted_frame; (on_goal 1 => decide))
    | (with_reducible apply OnlyChanges.step delWay_frame; (on_goal 1 => decide))
    | (with_reducible apply OnlyChanges.step dropDram_frame; (on_goal 1 => decide))
    | (with_reducible apply OnlyChanges.step putWay_frame; (on_goal 1 => decide))
    | (with_reducible apply OnlyChanges.step installDram_frame; (on_goal 1 => decide))
    | split

theorem maintApplied_frame {a0} {x : State} : OnlyChanges [.cache] x (maintApplied a0 x) := by
  unfold maintApplied
  repeat' first
    | with_reducible assumption
    | with_reducible apply OnlyChanges.refl
    | (extract_lets +onlyGivenNames y; guard_hyp y : State := Prod.snd _; subst y)
    | (extract_lets +onlyGivenNames y; guard_hyp y : State := _; apply OnlyChanges.cut y; (on_goal 1 => (unfold y; clear y)); (on_goal 2 => (intro hx; clear_value y)))
    | (extract_lets +onlyGivenNames y; guard_hyp y : _ × State := _; apply OnlyChanges.cutP y; (on_goal 1 => (unfold y; clear y)); (on_goal 2 => (intro hx; clear_value y)))
    | (extract_lets +onlyGivenNames y; guard_hyp y : _ × _ × State := _; apply OnlyChanges.cutPP y; (on_goal 1 => (unfold y; clear y)); (on_goal 2 => (intro hx; clear_value y)))
    | (extract_lets +onlyGivenNames y; guard_hyp y : Boxes := _; subst y)
    | (extract_lets +onlyGivenNames y; guard_hyp y : Power := _; subst y)
    | (extract_lets +onlyGivenNames y; guard_hyp y : Trans := _; subst y)
    | (extract_lets +onlyGivenNames y; guard_hyp y : Prot := _; subst y)
    | (extract_lets +onlyGivenNames y; guard_hyp y : Persist := _; subst y)
    | (extract_lets +onlyGivenNames y; guard_hyp y : Sgl := _; subst y)
    | (extract_lets +onlyGivenNames y; guard_hyp y : Sec := _; subst y)
    | (extract_lets +onlyGivenNames y; clear_value y)
    | extract_lets +onlyGivenNames y
    | with_reducible apply OnlyChanges.ite
    | split
    | (with_reducible apply OnlyChanges.upd4096; (on_goal 1 => decide))

theorem drive_frame {a0} {a1} {x : State} : OnlyChanges [.evr, .pmc, .trb, .sched, .tr, .prot, .per, .ck, .cache, .dram, .coh, .fab, .portA, .portB, .cxlA, .cxlB, .sec, .freeCtr, .outs] x (drive a0 a1 x) := by
  induction a0 generalizing x a1 with
  | zero =>
    unfold drive
    repeat' first
      | with_reducible assumption
      | with_reducible apply OnlyChanges.refl
      | (extract_lets +onlyGivenNames y; guard_hyp y : State := Prod.snd _; subst y)
      | (extract_lets +onlyGivenNames y; guard_hyp y : State := _; apply OnlyChanges.cut y; (on_goal 1 => (unfold y; clear y)); (on_goal 2 => (intro hx; clear_value y)))
      | (extract_lets +onlyGivenNames y; guard_hyp y : _ × State := _; apply OnlyChanges.cutP y; (on_goal 1 => (unfold y; clear y)); (on_goal 2 => (intro hx; clear_value y)))
      | (extract_lets +onlyGivenNames y; guard_hyp y : _ × _ × State := _; apply OnlyChanges.cutPP y; (on_goal 1 => (unfold y; clear y)); (on_goal 2 => (intro hx; clear_value y)))
      | (extract_lets +onlyGivenNames y; guard_hyp y : Boxes := _; subst y)
      | (extract_lets +onlyGivenNames y; guard_hyp y : Power := _; subst y)
      | (extract_lets +onlyGivenNames y; guard_hyp y : Trans := _; subst y)
      | (extract_lets +onlyGivenNames y; guard_hyp y : Prot := _; subst y)
      | (extract_lets +onlyGivenNames y; guard_hyp y : Persist := _; subst y)
      | (extract_lets +onlyGivenNames y; guard_hyp y : Sgl := _; subst y)
      | (extract_lets +onlyGivenNames y; guard_hyp y : Sec := _; subst y)
      | (extract_lets +onlyGivenNames y; clear_value y)
      | extract_lets +onlyGivenNames y
      | with_reducible apply OnlyChanges.ite
      | (with_reducible apply OnlyChanges.step readOld_frame; (on_goal 1 => decide))
      | (with_reducible apply OnlyChangesP.step startCur_frame; (on_goal 1 => decide))
      | (with_reducible apply OnlyChangesP.snd startCur_frame; (on_goal 1 => decide))
      | (with_reducible apply OnlyChanges.step delMshr_frame; (on_goal 1 => decide))
      | (with_reducible apply OnlyChanges.step modMshr_frame; (on_goal 1 => decide))
      | (with_reducible apply OnlyChanges.step maintLine_frame; (on_goal 1 => decide))
      | (with_reducible apply OnlyChanges.step closeDove_frame; (on_goal 1 => decide))
      | (with_reducible apply OnlyChanges.step maintApplied_frame; (on_goal 1 => decide))
      | (with_reducible apply OnlyChangesP.step dataPhase_frame; (on_goal 1 => decide))
      | (with_reducible apply OnlyChangesP.snd dataPhase_frame; (on_goal 1 => decide))
      | (with_reducible apply OnlyChanges.ofPair; (on_goal 1 => assumption))
      | split
  | succ k ih =>
    unfold drive
    repeat' first
      | with_reducible assumption
      | with_reducible apply OnlyChanges.refl
      | (extract_lets +onlyGivenNames y; guard_hyp y : State := Prod.snd _; subst y)
      | (extract_lets +onlyGivenNames y; guard_hyp y : State := _; apply OnlyChanges.cut y; (on_goal 1 => (unfold y; clear y)); (on_goal 2 => (intro hx; clear_value y)))
      | (extract_lets +onlyGivenNames y; guard_hyp y : _ × State := _; apply OnlyChanges.cutP y; (on_goal 1 => (unfold y; clear y)); (on_goal 2 => (intro hx; clear_value y)))
      | (extract_lets +onlyGivenNames y; guard_hyp y : _ × _ × State := _; apply OnlyChanges.cutPP y; (on_goal 1 => (unfold y; clear y)); (on_goal 2 => (intro hx; clear_value y)))
      | (extract_lets +onlyGivenNames y; guard_hyp y : Boxes := _; subst y)
      | (extract_lets +onlyGivenNames y; guard_hyp y : Power := _; subst y)
      | (extract_lets +onlyGivenNames y; guard_hyp y : Trans := _; subst y)
      | (extract_lets +onlyGivenNames y; guard_hyp y : Prot := _; subst y)
      | (extract_lets +onlyGivenNames y; guard_hyp y : Persist := _; subst y)
      | (extract_lets +onlyGivenNames y; guard_hyp y : Sgl := _; subst y)
      | (extract_lets +onlyGivenNames y; guard_hyp y : Sec := _; subst y)
      | (extract_lets +onlyGivenNames y; clear_value y)
      | extract_lets +onlyGivenNames y
      | with_reducible apply OnlyChanges.ite
      | (with_reducible apply OnlyChanges.step readOld_frame; (on_goal 1 => decide))
      | (with_reducible apply OnlyChangesP.step startCur_frame; (on_goal 1 => decide))
      | (with_reducible apply OnlyChangesP.snd startCur_frame; (on_goal 1 => decide))
      | (with_reducible apply OnlyChanges.step delMshr_frame; (on_goal 1 => decide))
      | (with_reducible apply OnlyChanges.step modMshr_frame; (on_goal 1 => decide))
      | (with_reducible apply OnlyChanges.step maintLine_frame; (on_goal 1 => decide))
      | (with_reducible apply OnlyChanges.step closeDove_frame; (on_goal 1 => decide))
      | (with_reducible apply OnlyChanges.step maintApplied_frame; (on_goal 1 => decide))
      | (with_reducible apply OnlyChangesP.step dataPhase_frame; (on_goal 1 => decide))
      | (with_reducible apply OnlyChangesP.snd dataPhase_frame; (on_goal 1 => decide))
      | (with_reducible apply OnlyChanges.ofPair; (on_goal 1 => assumption))
      | (with_reducible apply OnlyChanges.step ih; (on_goal 1 => decide))
      | split

theorem wakeDove_frame {a0} {x : State} : OnlyChanges [.evr, .pmc, .trb, .sched, .tr, .prot, .per, .ck, .cache, .dram, .coh, .fab, .portA, .portB, .cxlA, .cxlB, .sec, .freeCtr, .outs] x (wakeDove a0 x) := by
  unfold wakeDove
  repeat' first
    | with_reducible assumption
    | with_reducible apply OnlyChanges.refl
    | (extract_lets +onlyGivenNames y; guard_hyp y : State := Prod.snd _; subst y)
    | (extract_lets +onlyGivenNames y; guard_hyp y : State := _; apply OnlyChanges.cut y; (on_goal 1 => (unfold y; clear y)); (on_goal 2 => (intro hx; clear_value y)))
    | (extract_lets +onlyGivenNames y; guard_hyp y : _ × State := _; apply OnlyChanges.cutP y; (on_goal 1 => (unfold y; clear y)); (on_goal 2 => (intro hx; clear_value y)))
    | (extract_lets +onlyGivenNames y; guard_hyp y : _ × _ × State := _; apply OnlyChanges.cutPP y; (on_goal 1 => (unfold y; clear y)); (on_goal 2 => (intro hx; clear_value y)))
    | (extract_lets +onlyGivenNames y; guard_hyp y : Boxes := _; subst y)
    | (extract_lets +onlyGivenNames y; guard_hyp y : Power := _; subst y)
    | (extract_lets +onlyGivenNames y; guard_hyp y : Trans := _; subst y)
    | (extract_lets +onlyGivenNames y; guard_hyp y : Prot := _; subst y)
    | (extract_lets +onlyGivenNames y; guard_hyp y : Persist := _; subst y)
    | (extract_lets +onlyGivenNames y; guard_hyp y : Sgl := _; subst y)
    | (extract_lets +onlyGivenNames y; guard_hyp y : Sec := _; subst y)
    | (extract_lets +onlyGivenNames y; clear_value y)
    | extract_lets +onlyGivenNames y
    | with_reducible apply OnlyChanges.ite
    | (with_reducible apply OnlyChanges.step drive_frame; (on_goal 1 => decide))
    | (with_reducible apply OnlyChangesP.step applyWrite_frame; (on_goal 1 => decide))
    | (with_reducible apply OnlyChangesP.snd applyWrite_frame; (on_goal 1 => decide))
    | (with_reducible apply OnlyChanges.step modMshr_frame; (on_goal 1 => decide))
    | (with_reducible apply OnlyChangesP.step dataPhase_frame; (on_goal 1 => decide))
    | (with_reducible apply OnlyChangesP.snd dataPhase_frame; (on_goal 1 => decide))
    | (with_reducible apply OnlyChanges.ofPair; (on_goal 1 => assumption))
    | split

theorem finishCur_frame {a0} {x : State} : OnlyChanges [.evr, .pmc, .trb, .sched, .tr, .prot, .per, .ck, .cache, .dram, .coh, .fab, .portA, .portB, .cxlA, .cxlB, .sec, .freeCtr, .outs] x (finishCur a0 x) := by
  unfold finishCur
  repeat' first
    | with_reducible assumption
    | with_reducible apply OnlyChanges.refl
    | (extract_lets +onlyGivenNames y; guard_hyp y : State := Prod.snd _; subst y)
    | (extract_lets +onlyGivenNames y; guard_hyp y : State := _; apply OnlyChanges.cut y; (on_goal 1 => (unfold y; clear y)); (on_goal 2 => (intro hx; clear_value y)))
    | (extract_lets +onlyGivenNames y; guard_hyp y : _ × State := _; apply OnlyChanges.cutP y; (on_goal 1 => (unfold y; clear y)); (on_goal 2 => (intro hx; clear_value y)))
    | (extract_lets +onlyGivenNames y; guard_hyp y : _ × _ × State := _; apply OnlyChanges.cutPP y; (on_goal 1 => (unfold y; clear y)); (on_goal 2 => (intro hx; clear_value y)))
    | (extract_lets +onlyGivenNames y; guard_hyp y : Boxes := _; subst y)
    | (extract_lets +onlyGivenNames y; guard_hyp y : Power := _; subst y)
    | (extract_lets +onlyGivenNames y; guard_hyp y : Trans := _; subst y)
    | (extract_lets +onlyGivenNames y; guard_hyp y : Prot := _; subst y)
    | (extract_lets +onlyGivenNames y; guard_hyp y : Persist := _; subst y)
    | (extract_lets +onlyGivenNames y; guard_hyp y : Sgl := _; subst y)
    | (extract_lets +onlyGivenNames y; guard_hyp y : Sec := _; subst y)
    | (extract_lets +onlyGivenNames y; clear_value y)
    | extract_lets +onlyGivenNames y
    | with_reducible apply OnlyChanges.ite
    | (with_reducible apply OnlyChanges.step drive_frame; (on_goal 1 => decide))
    | (with_reducible apply OnlyChangesP.step startCur_frame; (on_goal 1 => decide))
    | (with_reducible apply OnlyChangesP.snd startCur_frame; (on_goal 1 => decide))
    | (with_reducible apply OnlyChanges.step wakeDove_frame; (on_goal 1 => decide))
    | (with_reducible apply OnlyChanges.step modMshr_frame; (on_goal 1 => decide))
    | (with_reducible apply OnlyChanges.ofPair; (on_goal 1 => assumption))
    | split

theorem settle_frame {L : List Part} {a0} {s : State} {p : Prog × State} (hs : partsWithin [.evr, .pmc, .trb, .sched, .tr, .prot, .per, .ck, .cache, .dram, .coh, .fab, .portA, .portB, .cxlA, .cxlB, .sec, .freeCtr, .outs] L = true)
    (h : OnlyChangesP L s p) : OnlyChanges L s (settle a0 p) := by
  unfold settle
  split
  · exact h
  · exact OnlyChanges.step finishCur_frame hs h

theorem resumeDove_frame {a0} {a1} {a2} {x : State} : OnlyChanges [.evr, .pmc, .trb, .sched, .tr, .prot, .per, .ck, .cache, .dram, .coh, .fab, .portA, .portB, .cxlA, .cxlB, .sec, .freeCtr, .outs] x (resumeDove a0 a1 a2 x) := by
  unfold resumeDove
  repeat' first
    | with_reducible assumption
    | with_reducible apply OnlyChanges.refl
    | (extract_lets +onlyGivenNames y; guard_hyp y : State := Prod.snd _; subst y)
    | (extract_lets +onlyGivenNames y; guard_hyp y : State := _; apply OnlyChanges.cut y; (on_goal 1 => (unfold y; clear y)); (on_goal 2 => (intro hx; clear_value y)))
    | (extract_lets +onlyGivenNames y; guard_hyp y : _ × State := _; apply OnlyChanges.cutP y; (on_goal 1 => (unfold y; clear y)); (on_goal 2 => (intro hx; clear_value y)))
    | (extract_lets +onlyGivenNames y; guard_hyp y : _ × _ × State := _; apply OnlyChanges.cutPP y; (on_goal 1 => (unfold y; clear y)); (on_goal 2 => (intro hx; clear_value y)))
    | (extract_lets +onlyGivenNames y; guard_hyp y : Boxes := _; subst y)
    | (extract_lets +onlyGivenNames y; guard_hyp y : Power := _; subst y)
    | (extract_lets +onlyGivenNames y; guard_hyp y : Trans := _; subst y)
    | (extract_lets +onlyGivenNames y; guard_hyp y : Prot := _; subst y)
    | (extract_lets +onlyGivenNames y; guard_hyp y : Persist := _; subst y)
    | (extract_lets +onlyGivenNames y; guard_hyp y : Sgl := _; subst y)
    | (extract_lets +onlyGivenNames y; guard_hyp y : Sec := _; subst y)
    | (extract_lets +onlyGivenNames y; clear_value y)
    | extract_lets +onlyGivenNames y
    | with_reducible apply OnlyChanges.ite
    | (with_reducible apply OnlyChanges.step drive_frame; (on_goal 1 => decide))
    | (with_reducible apply OnlyChangesP.step applyWrite_frame; (on_goal 1 => decide))
    | (with_reducible apply OnlyChangesP.snd applyWrite_frame; (on_goal 1 => decide))
    | (with_reducible apply OnlyChanges.step answer_frame; (on_goal 1 => decide))
    | (with_reducible apply OnlyChanges.step finishCur_frame; (on_goal 1 => decide))
    | (with_reducible apply OnlyChanges.step modMshr_frame; (on_goal 1 => decide))
    | (with_reducible apply OnlyChangesP.step dataPhase_frame; (on_goal 1 => decide))
    | (with_reducible apply OnlyChangesP.snd dataPhase_frame; (on_goal 1 => decide))
    | (with_reducible apply settle_frame; (on_goal 1 => decide))
    | (with_reducible apply OnlyChanges.ofPair; (on_goal 1 => assumption))
    | split

theorem abandonMerge_frame {a0} {x : State} : OnlyChanges [.evr, .pmc, .trb, .sched, .tr, .prot, .per, .ck, .cache, .dram, .coh, .fab, .portA, .portB, .cxlA, .cxlB, .sec, .freeCtr, .outs] x (abandonMerge a0 x) := by
  unfold abandonMerge
  repeat' first
    | with_reducible assumption
    | with_reducible apply OnlyChanges.refl
    | (extract_lets +onlyGivenNames y; guard_hyp y : State := Prod.snd _; subst y)
    | (extract_lets +onlyGivenNames y; guard_hyp y : State := _; apply OnlyChanges.cut y; (on_goal 1 => (unfold y; clear y)); (on_goal 2 => (intro hx; clear_value y)))
    | (extract_lets +onlyGivenNames y; guard_hyp y : _ × State := _; apply OnlyChanges.cutP y; (on_goal 1 => (unfold y; clear y)); (on_goal 2 => (intro hx; clear_value y)))
    | (extract_lets +onlyGivenNames y; guard_hyp y : _ × _ × State := _; apply OnlyChanges.cutPP y; (on_goal 1 => (unfold y; clear y)); (on_goal 2 => (intro hx; clear_value y)))
    | (extract_lets +onlyGivenNames y; guard_hyp y : Boxes := _; subst y)
    | (extract_lets +onlyGivenNames y; guard_hyp y : Power := _; subst y)
    | (extract_lets +onlyGivenNames y; guard_hyp y : Trans := _; subst y)
    | (extract_lets +onlyGivenNames y; guard_hyp y : Prot := _; subst y)
    | (extract_lets +onlyGivenNames y; guard_hyp y : Persist := _; subst y)
    | (extract_lets +onlyGivenNames y; guard_hyp y : Sgl := _; subst y)
    | (extract_lets +onlyGivenNames y; guard_hyp y : Sec := _; subst y)
    | (extract_lets +onlyGivenNames y; clear_value y)
    | extract_lets +onlyGivenNames y
    | with_reducible apply OnlyChanges.ite
    | (with_reducible apply OnlyChanges.step squashRead_frame; (on_goal 1 => decide))
    | (with_reducible apply OnlyChanges.step squashSpec_frame; (on_goal 1 => decide))
    | (with_reducible apply OnlyChanges.step wakeDove_frame; (on_goal 1 => decide))
    | (with_reducible apply OnlyChanges.step finishCur_frame; (on_goal 1 => decide))
    | (with_reducible apply OnlyChanges.step modMshr_frame; (on_goal 1 => decide))
    | (with_reducible apply OnlyChanges.step resumeDove_frame; (on_goal 1 => decide))
    | split

theorem applyAtOnce_frame {a0} {a1} {x : State} : OnlyChangesO [.evr, .pmc, .trb, .sched, .tr, .prot, .per, .ck, .cache, .dram, .coh, .fab, .portA, .portB, .cxlA, .cxlB, .sec, .freeCtr, .outs] x (applyAtOnce a0 a1 x) := by
  unfold applyAtOnce
  repeat' first
    | with_reducible assumption
    | with_reducible apply OnlyChanges.refl
    | (extract_lets +onlyGivenNames y; guard_hyp y : State := Prod.snd _; subst y)
    | (extract_lets +onlyGivenNames y; guard_hyp y : State := _; apply OnlyChangesO.cut y; (on_goal 1 => (unfold y; clear y)); (on_goal 2 => (intro hx; clear_value y)))
    | (extract_lets +onlyGivenNames y; guard_hyp y : _ × State := _; apply OnlyChangesO.cutP y; (on_goal 1 => (unfold y; clear y)); (on_goal 2 => (intro hx; clear_value y)))
    | (extract_lets +onlyGivenNames y; guard_hyp y : _ × _ × State := _; apply OnlyChangesO.cutPP y; (on_goal 1 => (unfold y; clear y)); (on_goal 2 => (intro hx; clear_value y)))
    | (extract_lets +onlyGivenNames y; guard_hyp y : Boxes := _; subst y)
    | (extract_lets +onlyGivenNames y; guard_hyp y : Power := _; subst y)
    | (extract_lets +onlyGivenNames y; guard_hyp y : Trans := _; subst y)
    | (extract_lets +onlyGivenNames y; guard_hyp y : Prot := _; subst y)
    | (extract_lets +onlyGivenNames y; guard_hyp y : Persist := _; subst y)
    | (extract_lets +onlyGivenNames y; guard_hyp y : Sgl := _; subst y)
    | (extract_lets +onlyGivenNames y; guard_hyp y : Sec := _; subst y)
    | (extract_lets +onlyGivenNames y; clear_value y)
    | extract_lets +onlyGivenNames y
    | with_reducible apply OnlyChanges.ite
    | with_reducible apply OnlyChangesO.none
    | with_reducible apply OnlyChangesO.some
    | with_reducible apply OnlyChangesO.ite
    | (with_reducible apply OnlyChanges.step closeIfHalf_frame; (on_goal 1 => decide))
    | (with_reducible apply OnlyChanges.step completeWrite_frame; (on_goal 1 => decide))
    | (with_reducible apply OnlyChangesP.step writeFull_frame; (on_goal 1 => decide))
    | (with_reducible apply OnlyChangesP.snd writeFull_frame; (on_goal 1 => decide))
    | (with_reducible apply OnlyChanges.step abandonMerge_frame; (on_goal 1 => decide))
    | (with_reducible apply OnlyChanges.step putDove_frame; (on_goal 1 => decide))
    | (with_reducible apply OnlyChanges.ofPair; (on_goal 1 => assumption))
    | split
    | (with_reducible apply OnlyChanges.upd1024; (on_goal 1 => decide); (on_goal 1 => (first | exact Or.inr (by with_reducible rfl) | exact Or.inl (by decide) | exact Or.inr rfl)))

theorem homeRequest_frame {a0} {a1} {x : State} : OnlyChanges [.evr, .pmc, .trb, .sched, .tr, .prot, .per, .ck, .cache, .dram, .coh, .fab, .portA, .portB, .cxlA, .cxlB, .sec, .freeCtr, .outs] x (homeRequest a0 a1 x) := by
  unfold homeRequest
  repeat' first
    | with_reducible assumption
    | with_reducible apply OnlyChanges.refl
    | (extract_lets +onlyGivenNames y; guard_hyp y : State := Prod.snd _; subst y)
    | (extract_lets +onlyGivenNames y; guard_hyp y : State := _; apply OnlyChanges.cut y; (on_goal 1 => (unfold y; clear y)); (on_goal 2 => (intro hx; clear_value y)))
    | (extract_lets +onlyGivenNames y; guard_hyp y : _ × State := _; apply OnlyChanges.cutP y; (on_goal 1 => (unfold y; clear y)); (on_goal 2 => (intro hx; clear_value y)))
    | (extract_lets +onlyGivenNames y; guard_hyp y : _ × _ × State := _; apply OnlyChanges.cutPP y; (on_goal 1 => (unfold y; clear y)); (on_goal 2 => (intro hx; clear_value y)))
    | (extract_lets +onlyGivenNames y; guard_hyp y : Boxes := _; subst y)
    | (extract_lets +onlyGivenNames y; guard_hyp y : Power := _; subst y)
    | (extract_lets +onlyGivenNames y; guard_hyp y : Trans := _; subst y)
    | (extract_lets +onlyGivenNames y; guard_hyp y : Prot := _; subst y)
    | (extract_lets +onlyGivenNames y; guard_hyp y : Persist := _; subst y)
    | (extract_lets +onlyGivenNames y; guard_hyp y : Sgl := _; subst y)
    | (extract_lets +onlyGivenNames y; guard_hyp y : Sec := _; subst y)
    | (extract_lets +onlyGivenNames y; clear_value y)
    | extract_lets +onlyGivenNames y
    | with_reducible apply OnlyChanges.ite
    | (with_reducible apply OnlyChangesP.step startCur_frame; (on_goal 1 => decide))
    | (with_reducible apply OnlyChangesP.snd startCur_frame; (on_goal 1 => decide))
    | (with_reducible apply OnlyChanges.step putMshr_frame; (on_goal 1 => decide))
    | (with_reducible apply OnlyChanges.step modMshr_frame; (on_goal 1 => decide))
    | (with_reducible apply OnlyChanges.step closeDove_frame; (on_goal 1 => decide))
    | (with_reducible apply OnlyChanges.step refuse_frame; (on_goal 1 => decide))
    | (with_reducible apply OnlyChanges.step count_frame; (on_goal 1 => decide))
    | (with_reducible apply settle_frame; (on_goal 1 => decide))
    | (with_reducible apply OnlyChanges.ofPair; (on_goal 1 => assumption))
    | split

theorem learnPred_frame {a0} {x : State} : OnlyChanges [.tr] x (learnPred a0 x) := by
  unfold learnPred
  repeat' first
    | with_reducible assumption
    | with_reducible apply OnlyChanges.refl
    | (extract_lets +onlyGivenNames y; guard_hyp y : State := Prod.snd _; subst y)
    | (extract_lets +onlyGivenNames y; guard_hyp y : State := _; apply OnlyChanges.cut y; (on_goal 1 => (unfold y; clear y)); (on_goal 2 => (intro hx; clear_value y)))
    | (extract_lets +onlyGivenNames y; guard_hyp y : _ × State := _; apply OnlyChanges.cutP y; (on_goal 1 => (unfold y; clear y)); (on_goal 2 => (intro hx; clear_value y)))
    | (extract_lets +onlyGivenNames y; guard_hyp y : _ × _ × State := _; apply OnlyChanges.cutPP y; (on_goal 1 => (unfold y; clear y)); (on_goal 2 => (intro hx; clear_value y)))
    | (extract_lets +onlyGivenNames y; guard_hyp y : Boxes := _; subst y)
    | (extract_lets +onlyGivenNames y; guard_hyp y : Power := _; subst y)
    | (extract_lets +onlyGivenNames y; guard_hyp y : Trans := _; subst y)
    | (extract_lets +onlyGivenNames y; guard_hyp y : Prot := _; subst y)
    | (extract_lets +onlyGivenNames y; guard_hyp y : Persist := _; subst y)
    | (extract_lets +onlyGivenNames y; guard_hyp y : Sgl := _; subst y)
    | (extract_lets +onlyGivenNames y; guard_hyp y : Sec := _; subst y)
    | (extract_lets +onlyGivenNames y; clear_value y)
    | extract_lets +onlyGivenNames y
    | with_reducible apply OnlyChanges.ite
    | split
    | (with_reducible apply OnlyChanges.upd128; (on_goal 1 => decide); (on_goal 1 => (first | exact Or.inr (by with_reducible rfl) | exact Or.inl (by decide) | exact Or.inr rfl)))

theorem localRequest_frame {a0} {a1} {x : State} : OnlyChanges [.evr, .pmc, .trb, .sched, .tr, .prot, .per, .ck, .cache, .dram, .coh, .fab, .portA, .portB, .cxlA, .cxlB, .sec, .freeCtr, .outs] x (localRequest a0 a1 x) := by
  unfold localRequest
  repeat' first
    | with_reducible assumption
    | with_reducible apply OnlyChanges.refl
    | (extract_lets +onlyGivenNames y; guard_hyp y : State := Prod.snd _; subst y)
    | (extract_lets +onlyGivenNames y; guard_hyp y : State := _; apply OnlyChanges.cut y; (on_goal 1 => (unfold y; clear y)); (on_goal 2 => (intro hx; clear_value y)))
    | (extract_lets +onlyGivenNames y; guard_hyp y : _ × State := _; apply OnlyChanges.cutP y; (on_goal 1 => (unfold y; clear y)); (on_goal 2 => (intro hx; clear_value y)))
    | (extract_lets +onlyGivenNames y; guard_hyp y : _ × _ × State := _; apply OnlyChanges.cutPP y; (on_goal 1 => (unfold y; clear y)); (on_goal 2 => (intro hx; clear_value y)))
    | (extract_lets +onlyGivenNames y; guard_hyp y : Boxes := _; subst y)
    | (extract_lets +onlyGivenNames y; guard_hyp y : Power := _; subst y)
    | (extract_lets +onlyGivenNames y; guard_hyp y : Trans := _; subst y)
    | (extract_lets +onlyGivenNames y; guard_hyp y : Prot := _; subst y)
    | (extract_lets +onlyGivenNames y; guard_hyp y : Persist := _; subst y)
    | (extract_lets +onlyGivenNames y; guard_hyp y : Sgl := _; subst y)
    | (extract_lets +onlyGivenNames y; guard_hyp y : Sec := _; subst y)
    | (extract_lets +onlyGivenNames y; clear_value y)
    | extract_lets +onlyGivenNames y
    | with_reducible apply OnlyChanges.ite
    | with_reducible apply OnlyChangesO.getD
    | (with_reducible apply OnlyChangesO.step applyAtOnce_frame; (on_goal 1 => decide))
    | (apply OnlyChangesO.ofSome (h := applyAtOnce_frame); (on_goal 1 => assumption); (on_goal 1 => decide))
    | (with_reducible apply OnlyChangesP.step applyWrite_frame; (on_goal 1 => decide))
    | (with_reducible apply OnlyChangesP.snd applyWrite_frame; (on_goal 1 => decide))
    | (with_reducible apply OnlyChanges.step homeRequest_frame; (on_goal 1 => decide))
    | (with_reducible apply OnlyChanges.step abandonMerge_frame; (on_goal 1 => decide))
    | (with_reducible apply OnlyChanges.step count_frame; (on_goal 1 => decide))
    | (with_reducible apply OnlyChanges.ofPair; (on_goal 1 => assumption))
    | split

end Sys2Proof.Machine
end

