-- ==== Sys2Proof/Laws/FrameMailbox.lean ====
section
/-! SUPPORT. The parts of the state that each operation of Machine/Mailbox.lean may change; every other part it leaves
alone. -/

set_option linter.all false

namespace Sys2Proof.Machine

theorem modBox_frame {a0} {a1} {x : State} : OnlyChanges [.mb] x (modBox a0 a1 x) := by
  unfold modBox
  repeat' first
    | with_reducible assumption
    | with_reducible apply OnlyChanges.refl
    | (extract_lets +onlyGivenNames y; guard_hyp y : State := Prod.snd _; subst y)
    | (extract_lets +onlyGivenNames y; guard_hyp y : State := _; apply OnlyChanges.cut y; (on_goal 1 => (unfold y; clear y)); (on_goal 2 => (intro hx; clear_value y)))
    | (extract_lets +onlyGivenNames y; guard_hyp y : _ × State := _; apply OnlyChanges.cutP y; (on_goal 1 => (unfold y; clear y)); (on_goal 2 => (intro hx; clear_value y)))
    | (extract_lets +onlyGivenNames y; guard_hyp y : _ × _ × State := _; apply OnlyChanges.cutPP y; (on_goal 1 => (unfold y; clear y)); (on_goal 2 => (intro hx; clear_value y)))
    | (extract_lets +onlyGivenNames y; guard_hyp y : Boxes := _; subst y)
    | (extract_lets +onlyGivenNames y; guard_hyp y : Power := _; subst y)
    | (extract_lets +onlyGivenNames y; guard_hyp y : Trans := _; subst y)
    | (extract_lets +onlyGivenNames y; guard_hyp y : Prot := _; subst y)
    | (extract_lets +onlyGivenNames y; guard_hyp y : Persist := _; subst y)
    | (extract_lets +onlyGivenNames y; guard_hyp y : Sgl := _; subst y)
    | (extract_lets +onlyGivenNames y; guard_hyp y : Sec := _; subst y)
    | (extract_lets +onlyGivenNames y; clear_value y)
    | extract_lets +onlyGivenNames y
    | with_reducible apply OnlyChanges.ite
    | split
    | (with_reducible apply OnlyChanges.upd32; (on_goal 1 => decide); (on_goal 1 => (first | exact Or.inr (by with_reducible rfl) | exact Or.inl (by decide) | exact Or.inr rfl)))

theorem queueOut_frame {a0} {a1} {x : State} : OnlyChanges [.mb] x (queueOut a0 a1 x) := by
  unfold queueOut
  repeat' first
    | with_reducible assumption
    | with_reducible apply OnlyChanges.refl
    | with_reducible apply OnlyChanges.ite
    | (with_reducible apply OnlyChanges.step modBox_frame; (on_goal 1 => decide))
    | split

theorem postDone_frame {a0} {a1} {x : State} : OnlyChanges [.mb] x (postDone a0 a1 x) := by
  unfold postDone
  repeat' first
    | with_reducible assumption
    | with_reducible apply OnlyChanges.refl
    | (extract_lets +onlyGivenNames y; guard_hyp y : State := Prod.snd _; subst y)
    | (extract_lets +onlyGivenNames y; guard_hyp y : State := _; apply OnlyChanges.cut y; (on_goal 1 => (unfold y; clear y)); (on_goal 2 => (intro hx; clear_value y)))
    | (extract_lets +onlyGivenNames y; guard_hyp y : _ × State := _; apply OnlyChanges.cutP y; (on_goal 1 => (unfold y; clear y)); (on_goal 2 => (intro hx; clear_value y)))
    | (extract_lets +onlyGivenNames y; guard_hyp y : _ × _ × State := _; apply OnlyChanges.cutPP y; (on_goal 1 => (unfold y; clear y)); (on_goal 2 => (intro hx; clear_value y)))
    | (extract_lets +onlyGivenNames y; guard_hyp y : Boxes := _; subst y)
    | (extract_lets +onlyGivenNames y; guard_hyp y : Power := _; subst y)
    | (extract_lets +onlyGivenNames y; guard_hyp y : Trans := _; subst y)
    | (extract_lets +onlyGivenNames y; guard_hyp y : Prot := _; subst y)
    | (extract_lets +onlyGivenNames y; guard_hyp y : Persist := _; subst y)
    | (extract_lets +onlyGivenNames y; guard_hyp y : Sgl := _; subst y)
    | (extract_lets +onlyGivenNames y; guard_hyp y : Sec := _; subst y)
    | (extract_lets +onlyGivenNames y; clear_value y)
    | extract_lets +onlyGivenNames y
    | with_reducible apply OnlyChanges.ite
    | (with_reducible apply OnlyChanges.step queueOut_frame; (on_goal 1 => decide))
    | split
    | (with_reducible apply OnlyChanges.upd32; (on_goal 1 => decide); (on_goal 1 => (first | exact Or.inr (by with_reducible rfl) | exact Or.inl (by decide) | exact Or.inr rfl)))

theorem sendMpmsg_frame {a0} {a1} {x : State} : OnlyChanges [.fab, .outs] x (sendMpmsg a0 a1 x) := by
  unfold sendMpmsg
  repeat' first
    | with_reducible assumption
    | with_reducible apply OnlyChanges.refl
    | with_reducible apply OnlyChanges.ite
    | (with_reducible apply OnlyChanges.step sendMsg_frame; (on_goal 1 => decide))
    | split

theorem ackHead_frame {a0} {a1} {x : State} : OnlyChanges [.mb, .fab, .outs] x (ackHead a0 a1 x) := by
  unfold ackHead
  repeat' first
    | with_reducible assumption
    | with_reducible apply OnlyChanges.refl
    | (extract_lets +onlyGivenNames y; guard_hyp y : State := Prod.snd _; subst y)
    | (extract_lets +onlyGivenNames y; guard_hyp y : State := _; apply OnlyChanges.cut y; (on_goal 1 => (unfold y; clear y)); (on_goal 2 => (intro hx; clear_value y)))
    | (extract_lets +onlyGivenNames y; guard_hyp y : _ × State := _; apply OnlyChanges.cutP y; (on_goal 1 => (unfold y; clear y)); (on_goal 2 => (intro hx; clear_value y)))
    | (extract_lets +onlyGivenNames y; guard_hyp y : _ × _ × State := _; apply OnlyChanges.cutPP y; (on_goal 1 => (unfold y; clear y)); (on_goal 2 => (intro hx; clear_value y)))
    | (extract_lets +onlyGivenNames y; guard_hyp y : Boxes := _; subst y)
    | (extract_lets +onlyGivenNames y; guard_hyp y : Power := _; subst y)
    | (extract_lets +onlyGivenNames y; guard_hyp y : Trans := _; subst y)
    | (extract_lets +onlyGivenNames y; guard_hyp y : Prot := _; subst y)
    | (extract_lets +onlyGivenNames y; guard_hyp y : Persist := _; subst y)
    | (extract_lets +onlyGivenNames y; guard_hyp y : Sgl := _; subst y)
    | (extract_lets +onlyGivenNames y; guard_hyp y : Sec := _; subst y)
    | (extract_lets +onlyGivenNames y; clear_value y)
    | extract_lets +onlyGivenNames y
    | with_reducible apply OnlyChanges.ite
    | (with_reducible apply OnlyChanges.step modBox_frame; (on_goal 1 => decide))
    | (with_reducible apply OnlyChanges.step sendMpmsg_frame; (on_goal 1 => decide))
    | (with_reducible apply OnlyChanges.step emit_frame; (on_goal 1 => decide))
    | split

theorem endOp_frame {a0} {a1} {x : State} : OnlyChanges [.mb, .fab, .outs] x (endOp a0 a1 x) := by
  unfold endOp
  repeat' first
    | with_reducible assumption
    | with_reducible apply OnlyChanges.refl
    | (extract_lets +onlyGivenNames y; guard_hyp y : State := Prod.snd _; subst y)
    | (extract_lets +onlyGivenNames y; guard_hyp y : State := _; apply OnlyChanges.cut y; (on_goal 1 => (unfold y; clear y)); (on_goal 2 => (intro hx; clear_value y)))
    | (extract_lets +onlyGivenNames y; guard_hyp y : _ × State := _; apply OnlyChanges.cutP y; (on_goal 1 => (unfold y; clear y)); (on_goal 2 => (intro hx; clear_value y)))
    | (extract_lets +onlyGivenNames y; guard_hyp y : _ × _ × State := _; apply OnlyChanges.cutPP y; (on_goal 1 => (unfold y; clear y)); (on_goal 2 => (intro hx; clear_value y)))
    | (extract_lets +onlyGivenNames y; guard_hyp y : Boxes := _; subst y)
    | (extract_lets +onlyGivenNames y; guard_hyp y : Power := _; subst y)
    | (extract_lets +onlyGivenNames y; guard_hyp y : Trans := _; subst y)
    | (extract_lets +onlyGivenNames y; guard_hyp y : Prot := _; subst y)
    | (extract_lets +onlyGivenNames y; guard_hyp y : Persist := _; subst y)
    | (extract_lets +onlyGivenNames y; guard_hyp y : Sgl := _; subst y)
    | (extract_lets +onlyGivenNames y; guard_hyp y : Sec := _; subst y)
    | (extract_lets +onlyGivenNames y; clear_value y)
    | extract_lets +onlyGivenNames y
    | with_reducible apply OnlyChanges.ite
    | (with_reducible apply OnlyChanges.step postDone_frame; (on_goal 1 => decide))
    | (with_reducible apply OnlyChanges.step ackHead_frame; (on_goal 1 => decide))
    | split
    | (with_reducible apply OnlyChanges.upd32; (on_goal 1 => decide); (on_goal 1 => (first | exact Or.inr (by with_reducible rfl) | exact Or.inl (by decide) | exact Or.inr rfl)))

theorem endOps_frame {a0} {a1} {a2} {x : State} : OnlyChanges [.mb, .fab, .outs] x (endOps a0 a1 a2 x) := by
  unfold endOps
  repeat' first
    | with_reducible assumption
    | with_reducible apply OnlyChanges.refl
    | with_reducible apply OnlyChanges.ite
    | (with_reducible apply OnlyChanges.step endOp_frame; (on_goal 1 => decide))
    | (with_reducible apply OnlyChanges.foldl; (on_goal 2 => intro z a))
    | (with_reducible apply OnlyChangesP.foldl; (on_goal 2 => intro z a))
    | split

theorem advanceInc_frame {a0} {x : State} : OnlyChanges [.mb] x (advanceInc a0 x) := by
  unfold advanceInc
  repeat' first
    | with_reducible assumption
    | with_reducible apply OnlyChanges.refl
    | with_reducible apply OnlyChanges.ite
    | (with_reducible apply OnlyChanges.step modBox_frame; (on_goal 1 => decide))
    | split

theorem reply_frame {a0} {a1} {x : State} : OnlyChanges [.mb] x (reply a0 a1 x) := by
  unfold reply
  repeat' first
    | with_reducible assumption
    | with_reducible apply OnlyChanges.refl
    | with_reducible apply OnlyChanges.ite
    | (with_reducible apply OnlyChanges.step modBox_frame; (on_goal 1 => decide))
    | split

theorem withBox_frame {L : List Part} {a0 f} {s x : State} (_ : partsWithin [] L = true) (hf : ∀ b y, OnlyChanges L y (f b y))
    (h0 : OnlyChanges L s x) : OnlyChanges L s (withBox a0 f x) := by
  refine h0.trans ?_
  unfold withBox
  split
  · exact hf _ _
  · exact OnlyChanges.refl _ _

theorem execOutboxFree_frame {a0} {x t : State} (h : execOutboxFree a0 x = .next t) :
    OnlyChanges [.mb] x t := by
  unfold execOutboxFree at h
  first
    | (injection h with h; subst h)
    | (split at h <;> (first | (injection h with h; subst h) | cases h))
  all_goals
    repeat' first
      | with_reducible assumption
      | with_reducible apply OnlyChanges.refl
      | with_reducible apply OnlyChanges.ite
      | (with_reducible apply OnlyChanges.step modBox_frame; (on_goal 1 => decide))
      | (with_reducible apply withBox_frame; (on_goal 1 => decide))
      | with_reducible intro _
      | split

theorem execOutboxPost_frame {a0} {x t : State} (h : execOutboxPost a0 x = .next t) :
    OnlyChanges [.mb, .outs] x t := by
  unfold execOutboxPost at h
  first
    | (injection h with h; subst h)
    | (split at h <;> (first | (injection h with h; subst h) | cases h))
  all_goals
    repeat' first
      | with_reducible assumption
      | with_reducible apply OnlyChanges.refl
      | (extract_lets +onlyGivenNames y; guard_hyp y : State := Prod.snd _; subst y)
      | (extract_lets +onlyGivenNames y; guard_hyp y : State := _; apply OnlyChanges.cut y; (on_goal 1 => (unfold y; clear y)); (on_goal 2 => (intro hx; clear_value y)))
      | (extract_lets +onlyGivenNames y; guard_hyp y : _ × State := _; apply OnlyChanges.cutP y; (on_goal 1 => (unfold y; clear y)); (on_goal 2 => (intro hx; clear_value y)))
      | (extract_lets +onlyGivenNames y; guard_hyp y : _ × _ × State := _; apply OnlyChanges.cutPP y; (on_goal 1 => (unfold y; clear y)); (on_goal 2 => (intro hx; clear_value y)))
      | (extract_lets +onlyGivenNames y; guard_hyp y : Boxes := _; subst y)
      | (extract_lets +onlyGivenNames y; guard_hyp y : Power := _; subst y)
      | (extract_lets +onlyGivenNames y; guard_hyp y : Trans := _; subst y)
      | (extract_lets +onlyGivenNames y; guard_hyp y : Prot := _; subst y)
      | (extract_lets +onlyGivenNames y; guard_hyp y : Persist := _; subst y)
      | (extract_lets +onlyGivenNames y; guard_hyp y : Sgl := _; subst y)
      | (extract_lets +onlyGivenNames y; guard_hyp y : Sec := _; subst y)
      | (extract_lets +onlyGivenNames y; clear_value y)
      | extract_lets +onlyGivenNames y
      | with_reducible apply OnlyChanges.ite
      | (with_reducible apply OnlyChanges.step modBox_frame; (on_goal 1 => decide))
      | (with_reducible apply OnlyChanges.step queueOut_frame; (on_goal 1 => decide))
      | (with_reducible apply OnlyChanges.step emit_frame; (on_goal 1 => decide))
      | split
      | (with_reducible apply OnlyChanges.upd32; (on_goal 1 => decide); (on_goal 1 => (first | exact Or.inr (by with_reducible rfl) | exact Or.inl (by decide) | exact Or.inr rfl)))

theorem execAcknowledge_frame {a0} {a1} {x t : State} (h : execAcknowledge a0 a1 x = .next t) :
    OnlyChanges [.mb, .fab, .outs] x t := by
  unfold execAcknowledge at h
  first
    | (injection h with h; subst h)
    | (split at h <;> (first | (injection h with h; subst h) | cases h))
  all_goals
    repeat' first
      | with_reducible assumption
      | with_reducible apply OnlyChanges.refl
      | with_reducible apply OnlyChanges.ite
      | (with_reducible apply OnlyChanges.step endOp_frame; (on_goal 1 => decide))
      | (with_reducible apply OnlyChanges.step ackHead_frame; (on_goal 1 => decide))
      | split

theorem closeIn_frame {a0} {x : State} : OnlyChanges [.mb] x (closeIn a0 x) := by
  unfold closeIn
  repeat' first
    | with_reducible assumption
    | with_reducible apply OnlyChanges.refl
    | with_reducible apply OnlyChanges.ite
    | (with_reducible apply OnlyChanges.step modBox_frame; (on_goal 1 => decide))
    | split

theorem execDrawerClose_frame {a0} {x t : State} (h : execDrawerClose a0 x = .next t) :
    OnlyChanges [.mb] x t := by
  unfold execDrawerClose at h
  first
    | (injection h with h; subst h)
    | (split at h <;> (first | (injection h with h; subst h) | cases h))
  all_goals
    repeat' first
      | with_reducible assumption
      | with_reducible apply OnlyChanges.refl
      | with_reducible apply OnlyChanges.ite
      | (with_reducible apply withBox_frame; (on_goal 1 => decide))
      | (with_reducible apply OnlyChanges.step closeIn_frame; (on_goal 1 => decide))
      | with_reducible intro _
      | split

theorem openIn_frame {a0} {x : State} : OnlyChanges [.mb] x (openIn a0 x) := by
  unfold openIn
  repeat' first
    | with_reducible assumption
    | with_reducible apply OnlyChanges.refl
    | (extract_lets +onlyGivenNames y; guard_hyp y : State := Prod.snd _; subst y)
    | (extract_lets +onlyGivenNames y; guard_hyp y : State := _; apply OnlyChanges.cut y; (on_goal 1 => (unfold y; clear y)); (on_goal 2 => (intro hx; clear_value y)))
    | (extract_lets +onlyGivenNames y; guard_hyp y : _ × State := _; apply OnlyChanges.cutP y; (on_goal 1 => (unfold y; clear y)); (on_goal 2 => (intro hx; clear_value y)))
    | (extract_lets +onlyGivenNames y; guard_hyp y : _ × _ × State := _; apply OnlyChanges.cutPP y; (on_goal 1 => (unfold y; clear y)); (on_goal 2 => (intro hx; clear_value y)))
    | (extract_lets +onlyGivenNames y; guard_hyp y : Boxes := _; subst y)
    | (extract_lets +onlyGivenNames y; guard_hyp y : Power := _; subst y)
    | (extract_lets +onlyGivenNames y; guard_hyp y : Trans := _; subst y)
    | (extract_lets +onlyGivenNames y; guard_hyp y : Prot := _; subst y)
    | (extract_lets +onlyGivenNames y; guard_hyp y : Persist := _; subst y)
    | (extract_lets +onlyGivenNames y; guard_hyp y : Sgl := _; subst y)
    | (extract_lets +onlyGivenNames y; guard_hyp y : Sec := _; subst y)
    | (extract_lets +onlyGivenNames y; clear_value y)
    | extract_lets +onlyGivenNames y
    | with_reducible apply OnlyChanges.ite
    | (with_reducible apply OnlyChanges.step modBox_frame; (on_goal 1 => decide))
    | split

theorem execMbxPost_frame {a0} {a1} {x t : State} (h : execMbxPost a0 a1 x = .next t) :
    OnlyChanges [.mb] x t := by
  unfold execMbxPost at h
  first
    | (injection h with h; subst h)
    | (split at h <;> (first | (injection h with h; subst h) | cases h))
  all_goals
    repeat' first
      | with_reducible assumption
      | with_reducible apply OnlyChanges.refl
      | (extract_lets +onlyGivenNames y; guard_hyp y : State := Prod.snd _; subst y)
      | (extract_lets +onlyGivenNames y; guard_hyp y : State := _; apply OnlyChanges.cut y; (on_goal 1 => (unfold y; clear y)); (on_goal 2 => (intro hx; clear_value y)))
      | (extract_lets +onlyGivenNames y; guard_hyp y : _ × State := _; apply OnlyChanges.cutP y; (on_goal 1 => (unfold y; clear y)); (on_goal 2 => (intro hx; clear_value y)))
      | (extract_lets +onlyGivenNames y; guard_hyp y : _ × _ × State := _; apply OnlyChanges.cutPP y; (on_goal 1 => (unfold y; clear y)); (on_goal 2 => (intro hx; clear_value y)))
      | (extract_lets +onlyGivenNames y; guard_hyp y : Boxes := _; subst y)
      | (extract_lets +onlyGivenNames y; guard_hyp y : Power := _; subst y)
      | (extract_lets +onlyGivenNames y; guard_hyp y : Trans := _; subst y)
      | (extract_lets +onlyGivenNames y; guard_hyp y : Prot := _; subst y)
      | (extract_lets +onlyGivenNames y; guard_hyp y : Persist := _; subst y)
      | (extract_lets +onlyGivenNames y; guard_hyp y : Sgl := _; subst y)
      | (extract_lets +onlyGivenNames y; guard_hyp y : Sec := _; subst y)
      | (extract_lets +onlyGivenNames y; clear_value y)
      | extract_lets +onlyGivenNames y
      | with_reducible apply OnlyChanges.ite
      | (with_reducible apply OnlyChanges.step modBox_frame; (on_goal 1 => decide))
      | (with_reducible apply withBox_frame; (on_goal 1 => decide))
      | with_reducible intro _
      | split

theorem popOut_frame {a0} {x : State} : OnlyChanges [.mb] x (popOut a0 x) := by
  unfold popOut
  repeat' first
    | with_reducible assumption
    | with_reducible apply OnlyChanges.refl
    | with_reducible apply OnlyChanges.ite
    | (with_reducible apply OnlyChanges.step modBox_frame; (on_goal 1 => decide))
    | split

theorem execDrawerWrite_frame {a0} {a1} {x t : State} (h : execDrawerWrite a0 a1 x = .next t) :
    OnlyChanges [.mb] x t := by
  unfold execDrawerWrite at h
  first
    | (injection h with h; subst h)
    | (split at h <;> (first | (injection h with h; subst h) | cases h))
  all_goals
    repeat' first
      | with_reducible assumption
      | with_reducible apply OnlyChanges.refl
      | with_reducible apply OnlyChanges.ite
      | (with_reducible apply OnlyChanges.step modBox_frame; (on_goal 1 => decide))
      | (with_reducible apply withBox_frame; (on_goal 1 => decide))
      | with_reducible intro _
      | split

theorem execDrawerPop_frame {a0} {x t : State} (h : execDrawerPop a0 x = .next t) :
    OnlyChanges [.mb] x t := by
  unfold execDrawerPop at h
  first
    | (injection h with h; subst h)
    | (split at h <;> (first | (injection h with h; subst h) | cases h))
  all_goals
    repeat' first
      | with_reducible assumption
      | with_reducible apply OnlyChanges.refl
      | with_reducible apply OnlyChanges.ite
      | (with_reducible apply OnlyChanges.step popOut_frame; (on_goal 1 => decide))
      | (with_reducible apply withBox_frame; (on_goal 1 => decide))
      | with_reducible intro _
      | split

theorem execDrawerOpen_frame {a0} {x t : State} (h : execDrawerOpen a0 x = .next t) :
    OnlyChanges [.mb] x t := by
  unfold execDrawerOpen at h
  first
    | (injection h with h; subst h)
    | (split at h <;> (first | (injection h with h; subst h) | cases h))
  all_goals
    repeat' first
      | with_reducible assumption
      | with_reducible apply OnlyChanges.refl
      | with_reducible apply OnlyChanges.ite
      | (with_reducible apply withBox_frame; (on_goal 1 => decide))
      | (with_reducible apply OnlyChanges.step openIn_frame; (on_goal 1 => decide))
      | with_reducible intro _
      | split

end Sys2Proof.Machine
end

