-- ==== Sys2Proof/Laws/FrameAnswers.lean ====
section
/-! SUPPORT. The parts of the state that each operation of Machine/Answers.lean may change; every other part it leaves
alone. -/

set_option linter.all false

namespace Sys2Proof.Machine

theorem endTrans_frame {a0} {a1} {a2} {x : State} : OnlyChanges [.evr, .pmc, .trb, .sched, .tr, .prot, .per, .ck, .cache, .dram, .coh, .fab, .portA, .portB, .cxlA, .cxlB, .sec, .freeCtr, .outs] x (endTrans a0 a1 a2 x) := by
  unfold endTrans
  repeat' first
    | with_reducible assumption
    | with_reducible apply OnlyChanges.refl
    | with_reducible apply OnlyChanges.ite
    | (with_reducible apply OnlyChangesP.step finishCoh_frame; (on_goal 1 => decide))
    | (with_reducible apply OnlyChangesP.snd finishCoh_frame; (on_goal 1 => decide))
    | (with_reducible apply OnlyChanges.step setDir_frame; (on_goal 1 => decide))
    | (with_reducible apply OnlyChanges.step modMshr_frame; (on_goal 1 => decide))
    | (with_reducible apply settle_frame; (on_goal 1 => decide))
    | (with_reducible apply OnlyChanges.ofPair; (on_goal 1 => assumption))
    | split

theorem endIfDone_frame {a0} {x : State} : OnlyChanges [.evr, .pmc, .trb, .sched, .tr, .prot, .per, .ck, .cache, .dram, .coh, .fab, .portA, .portB, .cxlA, .cxlB, .sec, .freeCtr, .outs] x (endIfDone a0 x) := by
  unfold endIfDone
  repeat' first
    | with_reducible assumption
    | with_reducible apply OnlyChanges.refl
    | with_reducible apply OnlyChanges.ite
    | (with_reducible apply OnlyChanges.step endTrans_frame; (on_goal 1 => decide))
    | split

theorem modTrans_frame {a0} {a1} {x : State} : OnlyChanges [.cache] x (modTrans a0 a1 x) := by
  unfold modTrans
  repeat' first
    | with_reducible assumption
    | with_reducible apply OnlyChanges.refl
    | with_reducible apply OnlyChanges.ite
    | (with_reducible apply OnlyChanges.step modMshr_frame; (on_goal 1 => decide))
    | split

theorem pendLess_frame {a0} {a1} {x : State} : OnlyChanges [.evr, .pmc, .trb, .sched, .tr, .prot, .per, .ck, .cache, .dram, .coh, .fab, .portA, .portB, .cxlA, .cxlB, .sec, .freeCtr, .outs] x (pendLess a0 a1 x) := by
  unfold pendLess
  repeat' first
    | with_reducible assumption
    | with_reducible apply OnlyChanges.refl
    | with_reducible apply OnlyChanges.ite
    | (with_reducible apply OnlyChanges.step endIfDone_frame; (on_goal 1 => decide))
    | (with_reducible apply OnlyChanges.step modTrans_frame; (on_goal 1 => decide))
    | split

theorem complete_frame {a0} {x : State} : OnlyChanges [.evr, .pmc, .trb, .sched, .tr, .prot, .per, .ck, .cache, .dram, .coh, .fab, .portA, .portB, .cxlA, .cxlB, .sec, .freeCtr, .outs] x (complete a0 x) := by
  unfold complete
  repeat' first
    | with_reducible assumption
    | with_reducible apply OnlyChanges.refl
    | with_reducible apply OnlyChanges.ite
    | (with_reducible apply OnlyChanges.step endTrans_frame; (on_goal 1 => decide))
    | split

theorem asI_frame {a0} {a1} {x : State} : OnlyChanges [.evr, .pmc, .trb, .sched, .tr, .prot, .per, .ck, .cache, .dram, .coh, .fab, .portA, .portB, .cxlA, .cxlB, .sec, .freeCtr, .outs] x (asI a0 a1 x) := by
  unfold asI
  repeat' first
    | with_reducible assumption
    | with_reducible apply OnlyChanges.refl
    | with_reducible apply OnlyChanges.ite
    | (with_reducible apply OnlyChanges.step endTrans_frame; (on_goal 1 => decide))
    | (with_reducible apply OnlyChanges.step complete_frame; (on_goal 1 => decide))
    | split

theorem giveUp_frame {a0} {a1} {x : State} : OnlyChanges [.evr, .pmc, .trb, .sched, .tr, .prot, .per, .ck, .cache, .dram, .coh, .fab, .portA, .portB, .cxlA, .cxlB, .sec, .freeCtr, .outs] x (giveUp a0 a1 x) := by
  unfold giveUp
  repeat' first
    | with_reducible assumption
    | with_reducible apply OnlyChanges.refl
    | (extract_lets +onlyGivenNames y; guard_hyp y : State := Prod.snd _; subst y)
    | (extract_lets +onlyGivenNames y; guard_hyp y : State := _; apply OnlyChanges.cut y; (on_goal 1 => (unfold y; clear y)); (on_goal 2 => (intro hx; clear_value y)))
    | (extract_lets +onlyGivenNames y; guard_hyp y : _ × State := _; apply OnlyChanges.cutP y; (on_goal 1 => (unfold y; clear y)); (on_goal 2 => (intro hx; clear_value y)))
    | (extract_lets +onlyGivenNames y; guard_hyp y : _ × _ × State := _; apply OnlyChanges.cutPP y; (on_goal 1 => (unfold y; clear y)); (on_goal 2 => (intro hx; clear_value y)))
    | (extract_lets +onlyGivenNames y; guard_hyp y : Boxes := _; subst y)
    | (extract_lets +onlyGivenNames y; guard_hyp y : Power := _; subst y)
    | (extract_lets +onlyGivenNames y; guard_hyp y : Trans := _; subst y)
    | (extract_lets +onlyGivenNames y; guard_hyp y : Prot := _; subst y)
    | (extract_lets +onlyGivenNames y; guard_hyp y : Persist := _; subst y)
    | (extract_lets +onlyGivenNames y; guard_hyp y : Sgl := _; subst y)
    | (extract_lets +onlyGivenNames y; guard_hyp y : Sec := _; subst y)
    | (extract_lets +onlyGivenNames y; clear_value y)
    | extract_lets +onlyGivenNames y
    | with_reducible apply OnlyChanges.ite
    | (with_reducible apply OnlyChanges.step pendLess_frame; (on_goal 1 => decide))
    | (with_reducible apply OnlyChanges.step endTrans_frame; (on_goal 1 => decide))
    | (with_reducible apply OnlyChanges.step asI_frame; (on_goal 1 => decide))
    | (with_reducible apply OnlyChanges.step complete_frame; (on_goal 1 => decide))
    | (with_reducible apply OnlyChanges.step poisonHome_frame; (on_goal 1 => decide))
    | (with_reducible apply OnlyChanges.step modTrans_frame; (on_goal 1 => decide))
    | split

theorem killNode_frame {a0} {x : State} : OnlyChanges [.evr, .pmc, .trb, .sched, .tr, .prot, .per, .ck, .cache, .dram, .coh, .fab, .portA, .portB, .cxlA, .cxlB, .sec, .freeCtr, .outs] x (killNode a0 x) := by
  unfold killNode
  repeat' first
    | with_reducible assumption
    | with_reducible apply OnlyChanges.refl
    | (extract_lets +onlyGivenNames y; guard_hyp y : State := Prod.snd _; subst y)
    | (extract_lets +onlyGivenNames y; guard_hyp y : State := _; apply OnlyChanges.cut y; (on_goal 1 => (unfold y; clear y)); (on_goal 2 => (intro hx; clear_value y)))
    | (extract_lets +onlyGivenNames y; guard_hyp y : _ × State := _; apply OnlyChanges.cutP y; (on_goal 1 => (unfold y; clear y)); (on_goal 2 => (intro hx; clear_value y)))
    | (extract_lets +onlyGivenNames y; guard_hyp y : _ × _ × State := _; apply OnlyChanges.cutPP y; (on_goal 1 => (unfold y; clear y)); (on_goal 2 => (intro hx; clear_value y)))
    | (extract_lets +onlyGivenNames y; guard_hyp y : Boxes := _; subst y)
    | (extract_lets +onlyGivenNames y; guard_hyp y : Power := _; subst y)
    | (extract_lets +onlyGivenNames y; guard_hyp y : Trans := _; subst y)
    | (extract_lets +onlyGivenNames y; guard_hyp y : Prot := _; subst y)
    | (extract_lets +onlyGivenNames y; guard_hyp y : Persist := _; subst y)
    | (extract_lets +onlyGivenNames y; guard_hyp y : Sgl := _; subst y)
    | (extract_lets +onlyGivenNames y; guard_hyp y : Sec := _; subst y)
    | (extract_lets +onlyGivenNames y; clear_value y)
    | extract_lets +onlyGivenNames y
    | with_reducible apply OnlyChanges.ite
    | (with_reducible apply OnlyChanges.step setDir_frame; (on_goal 1 => decide))
    | (with_reducible apply OnlyChanges.step giveUp_frame; (on_goal 1 => decide))
    | (with_reducible apply OnlyChanges.step poisonHome_frame; (on_goal 1 => decide))
    | (with_reducible apply OnlyChanges.foldl; (on_goal 2 => intro z a))
    | (with_reducible apply OnlyChangesP.foldl; (on_goal 2 => intro z a))
    | split
    | (with_reducible apply OnlyChanges.upd16384; (on_goal 1 => decide))
    | (with_reducible apply OnlyChanges.upd65536; (on_goal 1 => decide))

theorem asS_frame {a0} {a1} {a2} {x : State} : OnlyChanges [.evr, .pmc, .trb, .sched, .tr, .prot, .per, .ck, .cache, .dram, .coh, .fab, .portA, .portB, .cxlA, .cxlB, .sec, .freeCtr, .outs] x (asS a0 a1 a2 x) := by
  unfold asS
  repeat' first
    | with_reducible assumption
    | with_reducible apply OnlyChanges.refl
    | with_reducible apply OnlyChanges.ite
    | (with_reducible apply OnlyChanges.step protocolError_frame; (on_goal 1 => decide))
    | (with_reducible apply OnlyChanges.step endTrans_frame; (on_goal 1 => decide))
    | split

theorem asFwd_frame {a0} {a1} {a2} {x : State} : OnlyChanges [.evr, .pmc, .trb, .sched, .tr, .prot, .per, .ck, .cache, .dram, .coh, .fab, .portA, .portB, .cxlA, .cxlB, .sec, .freeCtr, .outs] x (asFwd a0 a1 a2 x) := by
  unfold asFwd
  repeat' first
    | with_reducible assumption
    | with_reducible apply OnlyChanges.refl
    | with_reducible apply OnlyChanges.ite
    | (with_reducible apply OnlyChanges.step endTrans_frame; (on_goal 1 => decide))
    | split

theorem asWb_frame {a0} {a1} {a2} {a3} {a4} {x : State} : OnlyChanges [.evr, .pmc, .trb, .sched, .tr, .prot, .per, .ck, .cache, .dram, .coh, .fab, .portA, .portB, .cxlA, .cxlB, .sec, .freeCtr, .outs] x (asWb a0 a1 a2 a3 a4 x) := by
  unfold asWb
  repeat' first
    | with_reducible assumption
    | with_reducible apply OnlyChanges.refl
    | with_reducible apply OnlyChanges.ite
    | (with_reducible apply OnlyChanges.step asS_frame; (on_goal 1 => decide))
    | (with_reducible apply OnlyChanges.step asFwd_frame; (on_goal 1 => decide))
    | (with_reducible apply OnlyChanges.step asI_frame; (on_goal 1 => decide))
    | (with_reducible apply OnlyChanges.step complete_frame; (on_goal 1 => decide))
    | split

theorem ownerRsp_frame {a0} {a1} {a2} {a3} {x : State} : OnlyChanges [.evr, .pmc, .trb, .sched, .tr, .prot, .per, .ck, .cache, .dram, .coh, .fab, .portA, .portB, .cxlA, .cxlB, .sec, .freeCtr, .outs] x (ownerRsp a0 a1 a2 a3 x) := by
  unfold ownerRsp
  repeat' first
    | with_reducible assumption
    | with_reducible apply OnlyChanges.refl
    | (extract_lets +onlyGivenNames y; guard_hyp y : State := Prod.snd _; subst y)
    | (extract_lets +onlyGivenNames y; guard_hyp y : State := _; apply OnlyChanges.cut y; (on_goal 1 => (unfold y; clear y)); (on_goal 2 => (intro hx; clear_value y)))
    | (extract_lets +onlyGivenNames y; guard_hyp y : _ × State := _; apply OnlyChanges.cutP y; (on_goal 1 => (unfold y; clear y)); (on_goal 2 => (intro hx; clear_value y)))
    | (extract_lets +onlyGivenNames y; guard_hyp y : _ × _ × State := _; apply OnlyChanges.cutPP y; (on_goal 1 => (unfold y; clear y)); (on_goal 2 => (intro hx; clear_value y)))
    | (extract_lets +onlyGivenNames y; guard_hyp y : Boxes := _; subst y)
    | (extract_lets +onlyGivenNames y; guard_hyp y : Power := _; subst y)
    | (extract_lets +onlyGivenNames y; guard_hyp y : Trans := _; subst y)
    | (extract_lets +onlyGivenNames y; guard_hyp y : Prot := _; subst y)
    | (extract_lets +onlyGivenNames y; guard_hyp y : Persist := _; subst y)
    | (extract_lets +onlyGivenNames y; guard_hyp y : Sgl := _; subst y)
    | (extract_lets +onlyGivenNames y; guard_hyp y : Sec := _; subst y)
    | (extract_lets +onlyGivenNames y; clear_value y)
    | extract_lets +onlyGivenNames y
    | with_reducible apply OnlyChanges.ite
    | (with_reducible apply OnlyChanges.step protocolError_frame; (on_goal 1 => decide))
    | (with_reducible apply OnlyChanges.step asS_frame; (on_goal 1 => decide))
    | (with_reducible apply OnlyChanges.step asFwd_frame; (on_goal 1 => decide))
    | (with_reducible apply OnlyChanges.step asI_frame; (on_goal 1 => decide))
    | (with_reducible apply OnlyChanges.step asWb_frame; (on_goal 1 => decide))
    | (with_reducible apply OnlyChanges.step setDir_frame; (on_goal 1 => decide))
    | (with_reducible apply OnlyChanges.step modTrans_frame; (on_goal 1 => decide))
    | split

theorem recvRsp_frame {a0} {a1} {a2} {x : State} : OnlyChanges [.evr, .pmc, .trb, .sched, .tr, .prot, .per, .ck, .cache, .dram, .coh, .fab, .portA, .portB, .cxlA, .cxlB, .sec, .freeCtr, .outs] x (recvRsp a0 a1 a2 x) := by
  unfold recvRsp
  repeat' first
    | with_reducible assumption
    | with_reducible apply OnlyChanges.refl
    | with_reducible apply OnlyChanges.ite
    | (with_reducible apply OnlyChanges.step protocolError_frame; (on_goal 1 => decide))
    | (with_reducible apply OnlyChanges.step pendLess_frame; (on_goal 1 => decide))
    | (with_reducible apply OnlyChanges.step ownerRsp_frame; (on_goal 1 => decide))
    | split

theorem kickOld_frame {a0} {x : State} : OnlyChanges [.evr, .pmc, .trb, .sched, .tr, .prot, .per, .ck, .cache, .dram, .coh, .fab, .portA, .portB, .cxlA, .cxlB, .sec, .freeCtr, .outs] x (kickOld a0 x) := by
  unfold kickOld
  repeat' first
    | with_reducible assumption
    | with_reducible apply OnlyChanges.refl
    | with_reducible apply OnlyChanges.ite
    | (with_reducible apply OnlyChanges.step drive_frame; (on_goal 1 => decide))
    | (with_reducible apply OnlyChanges.step putMshr_frame; (on_goal 1 => decide))
    | split

theorem announced_frame {a0} {a1} {a2} {x : State} : OnlyChanges [.evr, .pmc, .trb, .sched, .tr, .prot, .per, .ck, .cache, .dram, .coh, .fab, .portA, .portB, .cxlA, .cxlB, .sec, .freeCtr, .outs] x (announced a0 a1 a2 x) := by
  unfold announced
  repeat' first
    | with_reducible assumption
    | with_reducible apply OnlyChanges.refl
    | (extract_lets +onlyGivenNames y; guard_hyp y : State := Prod.snd _; subst y)
    | (extract_lets +onlyGivenNames y; guard_hyp y : State := _; apply OnlyChanges.cut y; (on_goal 1 => (unfold y; clear y)); (on_goal 2 => (intro hx; clear_value y)))
    | (extract_lets +onlyGivenNames y; guard_hyp y : _ × State := _; apply OnlyChanges.cutP y; (on_goal 1 => (unfold y; clear y)); (on_goal 2 => (intro hx; clear_value y)))
    | (extract_lets +onlyGivenNames y; guard_hyp y : _ × _ × State := _; apply OnlyChanges.cutPP y; (on_goal 1 => (unfold y; clear y)); (on_goal 2 => (intro hx; clear_value y)))
    | (extract_lets +onlyGivenNames y; guard_hyp y : Boxes := _; subst y)
    | (extract_lets +onlyGivenNames y; guard_hyp y : Power := _; subst y)
    | (extract_lets +onlyGivenNames y; guard_hyp y : Trans := _; subst y)
    | (extract_lets +onlyGivenNames y; guard_hyp y : Prot := _; subst y)
    | (extract_lets +onlyGivenNames y; guard_hyp y : Persist := _; subst y)
    | (extract_lets +onlyGivenNames y; guard_hyp y : Sgl := _; subst y)
    | (extract_lets +onlyGivenNames y; guard_hyp y : Sec := _; subst y)
    | (extract_lets +onlyGivenNames y; clear_value y)
    | extract_lets +onlyGivenNames y
    | with_reducible apply OnlyChanges.ite
    | (with_reducible apply OnlyChanges.step asWb_frame; (on_goal 1 => decide))
    | (with_reducible apply OnlyChanges.step modTrans_frame; (on_goal 1 => decide))
    | split

theorem acceptWrt_frame {a0} {x : State} : OnlyChanges [.evr, .pmc, .trb, .sched, .tr, .prot, .per, .ck, .cache, .dram, .coh, .fab, .portA, .portB, .cxlA, .cxlB, .sec, .freeCtr, .outs] x (acceptWrt a0 x) := by
  unfold acceptWrt
  repeat' first
    | with_reducible assumption
    | with_reducible apply OnlyChanges.refl
    | (extract_lets +onlyGivenNames y; guard_hyp y : State := Prod.snd _; subst y)
    | (extract_lets +onlyGivenNames y; guard_hyp y : State := _; apply OnlyChanges.cut y; (on_goal 1 => (unfold y; clear y)); (on_goal 2 => (intro hx; clear_value y)))
    | (extract_lets +onlyGivenNames y; guard_hyp y : _ × State := _; apply OnlyChanges.cutP y; (on_goal 1 => (unfold y; clear y)); (on_goal 2 => (intro hx; clear_value y)))
    | (extract_lets +onlyGivenNames y; guard_hyp y : _ × _ × State := _; apply OnlyChanges.cutPP y; (on_goal 1 => (unfold y; clear y)); (on_goal 2 => (intro hx; clear_value y)))
    | (extract_lets +onlyGivenNames y; guard_hyp y : Boxes := _; subst y)
    | (extract_lets +onlyGivenNames y; guard_hyp y : Power := _; subst y)
    | (extract_lets +onlyGivenNames y; guard_hyp y : Trans := _; subst y)
    | (extract_lets +onlyGivenNames y; guard_hyp y : Prot := _; subst y)
    | (extract_lets +onlyGivenNames y; guard_hyp y : Persist := _; subst y)
    | (extract_lets +onlyGivenNames y; guard_hyp y : Sgl := _; subst y)
    | (extract_lets +onlyGivenNames y; guard_hyp y : Sec := _; subst y)
    | (extract_lets +onlyGivenNames y; clear_value y)
    | extract_lets +onlyGivenNames y
    | with_reducible apply OnlyChanges.ite
    | (with_reducible apply OnlyChanges.step kickOld_frame; (on_goal 1 => decide))
    | with_reducible apply OnlyChangesO.getD
    | (with_reducible apply OnlyChangesO.step applyAtOnce_frame; (on_goal 1 => decide))
    | (apply OnlyChangesO.ofSome (h := applyAtOnce_frame); (on_goal 1 => assumption); (on_goal 1 => decide))
    | (with_reducible apply OnlyChanges.step announced_frame; (on_goal 1 => decide))
    | (with_reducible apply OnlyChanges.step homeRequest_frame; (on_goal 1 => decide))
    | (with_reducible apply OnlyChanges.step count_frame; (on_goal 1 => decide))
    | split

theorem acceptEvx_frame {a0} {x : State} : OnlyChanges [.evr, .pmc, .trb, .sched, .tr, .prot, .per, .ck, .cache, .dram, .coh, .fab, .portA, .portB, .cxlA, .cxlB, .sec, .freeCtr, .outs] x (acceptEvx a0 x) := by
  unfold acceptEvx
  repeat' first
    | with_reducible assumption
    | with_reducible apply OnlyChanges.refl
    | (extract_lets +onlyGivenNames y; guard_hyp y : State := Prod.snd _; subst y)
    | (extract_lets +onlyGivenNames y; guard_hyp y : State := _; apply OnlyChanges.cut y; (on_goal 1 => (unfold y; clear y)); (on_goal 2 => (intro hx; clear_value y)))
    | (extract_lets +onlyGivenNames y; guard_hyp y : _ × State := _; apply OnlyChanges.cutP y; (on_goal 1 => (unfold y; clear y)); (on_goal 2 => (intro hx; clear_value y)))
    | (extract_lets +onlyGivenNames y; guard_hyp y : _ × _ × State := _; apply OnlyChanges.cutPP y; (on_goal 1 => (unfold y; clear y)); (on_goal 2 => (intro hx; clear_value y)))
    | (extract_lets +onlyGivenNames y; guard_hyp y : Boxes := _; subst y)
    | (extract_lets +onlyGivenNames y; guard_hyp y : Power := _; subst y)
    | (extract_lets +onlyGivenNames y; guard_hyp y : Trans := _; subst y)
    | (extract_lets +onlyGivenNames y; guard_hyp y : Prot := _; subst y)
    | (extract_lets +onlyGivenNames y; guard_hyp y : Persist := _; subst y)
    | (extract_lets +onlyGivenNames y; guard_hyp y : Sgl := _; subst y)
    | (extract_lets +onlyGivenNames y; guard_hyp y : Sec := _; subst y)
    | (extract_lets +onlyGivenNames y; clear_value y)
    | extract_lets +onlyGivenNames y
    | with_reducible apply OnlyChanges.ite
    | (with_reducible apply OnlyChanges.step announced_frame; (on_goal 1 => decide))
    | (with_reducible apply OnlyChanges.step setDir_frame; (on_goal 1 => decide))
    | (with_reducible apply OnlyChanges.step cmpWrt_frame; (on_goal 1 => decide))
    | split

theorem acceptMsg_frame {a0} {x : State} : OnlyChanges [.evr, .pmc, .trb, .sched, .tr, .prot, .per, .ck, .cache, .dram, .coh, .fab, .portA, .portB, .cxlA, .cxlB, .sec, .freeCtr, .outs] x (acceptMsg a0 x) := by
  unfold acceptMsg
  repeat' first
    | with_reducible assumption
    | with_reducible apply OnlyChanges.refl
    | with_reducible apply OnlyChanges.ite
    | (with_reducible apply OnlyChanges.step acceptWrt_frame; (on_goal 1 => decide))
    | (with_reducible apply OnlyChanges.step acceptEvx_frame; (on_goal 1 => decide))
    | split

theorem drainWrt_frame {a0} {a1} {x : State} : OnlyChanges [.evr, .pmc, .trb, .sched, .tr, .prot, .per, .ck, .cache, .dram, .coh, .fab, .portA, .portB, .cxlA, .cxlB, .sec, .freeCtr, .outs] x (drainWrt a0 a1 x) := by
  induction a1 generalizing x a0 with
  | zero =>
    unfold drainWrt
    repeat' first
      | with_reducible assumption
      | with_reducible apply OnlyChanges.refl
      | (extract_lets +onlyGivenNames y; guard_hyp y : State := Prod.snd _; subst y)
      | (extract_lets +onlyGivenNames y; guard_hyp y : State := _; apply OnlyChanges.cut y; (on_goal 1 => (unfold y; clear y)); (on_goal 2 => (intro hx; clear_value y)))
      | (extract_lets +onlyGivenNames y; guard_hyp y : _ × State := _; apply OnlyChanges.cutP y; (on_goal 1 => (unfold y; clear y)); (on_goal 2 => (intro hx; clear_value y)))
      | (extract_lets +onlyGivenNames y; guard_hyp y : _ × _ × State := _; apply OnlyChanges.cutPP y; (on_goal 1 => (unfold y; clear y)); (on_goal 2 => (intro hx; clear_value y)))
      | (extract_lets +onlyGivenNames y; guard_hyp y : Boxes := _; subst y)
      | (extract_lets +onlyGivenNames y; guard_hyp y : Power := _; subst y)
      | (extract_lets +onlyGivenNames y; guard_hyp y : Trans := _; subst y)
      | (extract_lets +onlyGivenNames y; guard_hyp y : Prot := _; subst y)
      | (extract_lets +onlyGivenNames y; guard_hyp y : Persist := _; subst y)
      | (extract_lets +onlyGivenNames y; guard_hyp y : Sgl := _; subst y)
      | (extract_lets +onlyGivenNames y; guard_hyp y : Sec := _; subst y)
      | (extract_lets +onlyGivenNames y; clear_value y)
      | extract_lets +onlyGivenNames y
      | with_reducible apply OnlyChanges.ite
      | (with_reducible apply OnlyChanges.step acceptMsg_frame; (on_goal 1 => decide))
      | split
      | (with_reducible apply OnlyChanges.upd65536; (on_goal 1 => decide))
  | succ k ih =>
    unfold drainWrt
    repeat' first
      | with_reducible assumption
      | with_reducible apply OnlyChanges.refl
      | (extract_lets +onlyGivenNames y; guard_hyp y : State := Prod.snd _; subst y)
      | (extract_lets +onlyGivenNames y; guard_hyp y : State := _; apply OnlyChanges.cut y; (on_goal 1 => (unfold y; clear y)); (on_goal 2 => (intro hx; clear_value y)))
      | (extract_lets +onlyGivenNames y; guard_hyp y : _ × State := _; apply OnlyChanges.cutP y; (on_goal 1 => (unfold y; clear y)); (on_goal 2 => (intro hx; clear_value y)))
      | (extract_lets +onlyGivenNames y; guard_hyp y : _ × _ × State := _; apply OnlyChanges.cutPP y; (on_goal 1 => (unfold y; clear y)); (on_goal 2 => (intro hx; clear_value y)))
      | (extract_lets +onlyGivenNames y; guard_hyp y : Boxes := _; subst y)
      | (extract_lets +onlyGivenNames y; guard_hyp y : Power := _; subst y)
      | (extract_lets +onlyGivenNames y; guard_hyp y : Trans := _; subst y)
      | (extract_lets +onlyGivenNames y; guard_hyp y : Prot := _; subst y)
      | (extract_lets +onlyGivenNames y; guard_hyp y : Persist := _; subst y)
      | (extract_lets +onlyGivenNames y; guard_hyp y : Sgl := _; subst y)
      | (extract_lets +onlyGivenNames y; guard_hyp y : Sec := _; subst y)
      | (extract_lets +onlyGivenNames y; clear_value y)
      | extract_lets +onlyGivenNames y
      | with_reducible apply OnlyChanges.ite
      | (with_reducible apply OnlyChanges.step acceptMsg_frame; (on_goal 1 => decide))
      | (with_reducible apply OnlyChanges.step ih; (on_goal 1 => decide))
      | split
      | (with_reducible apply OnlyChanges.upd65536; (on_goal 1 => decide))

theorem recvWrt_frame {a0} {x : State} : OnlyChanges [.evr, .pmc, .trb, .sched, .tr, .prot, .per, .ck, .cache, .dram, .coh, .fab, .portA, .portB, .cxlA, .cxlB, .sec, .freeCtr, .outs] x (recvWrt a0 x) := by
  unfold recvWrt
  repeat' first
    | with_reducible assumption
    | with_reducible apply OnlyChanges.refl
    | (extract_lets +onlyGivenNames y; guard_hyp y : State := Prod.snd _; subst y)
    | (extract_lets +onlyGivenNames y; guard_hyp y : State := _; apply OnlyChanges.cut y; (on_goal 1 => (unfold y; clear y)); (on_goal 2 => (intro hx; clear_value y)))
    | (extract_lets +onlyGivenNames y; guard_hyp y : _ × State := _; apply OnlyChanges.cutP y; (on_goal 1 => (unfold y; clear y)); (on_goal 2 => (intro hx; clear_value y)))
    | (extract_lets +onlyGivenNames y; guard_hyp y : _ × _ × State := _; apply OnlyChanges.cutPP y; (on_goal 1 => (unfold y; clear y)); (on_goal 2 => (intro hx; clear_value y)))
    | (extract_lets +onlyGivenNames y; guard_hyp y : Boxes := _; subst y)
    | (extract_lets +onlyGivenNames y; guard_hyp y : Power := _; subst y)
    | (extract_lets +onlyGivenNames y; guard_hyp y : Trans := _; subst y)
    | (extract_lets +onlyGivenNames y; guard_hyp y : Prot := _; subst y)
    | (extract_lets +onlyGivenNames y; guard_hyp y : Persist := _; subst y)
    | (extract_lets +onlyGivenNames y; guard_hyp y : Sgl := _; subst y)
    | (extract_lets +onlyGivenNames y; guard_hyp y : Sec := _; subst y)
    | (extract_lets +onlyGivenNames y; clear_value y)
    | extract_lets +onlyGivenNames y
    | with_reducible apply OnlyChanges.ite
    | (with_reducible apply OnlyChanges.step drainWrt_frame; (on_goal 1 => decide))
    | split
    | (with_reducible apply OnlyChanges.upd65536; (on_goal 1 => decide))

theorem noteInput_frame {a0} {a1} {x : State} : OnlyChanges [.coh] x (noteInput a0 a1 x) := by
  unfold noteInput
  repeat' first
    | with_reducible assumption
    | with_reducible apply OnlyChanges.refl
    | (extract_lets +onlyGivenNames y; guard_hyp y : State := Prod.snd _; subst y)
    | (extract_lets +onlyGivenNames y; guard_hyp y : State := _; apply OnlyChanges.cut y; (on_goal 1 => (unfold y; clear y)); (on_goal 2 => (intro hx; clear_value y)))
    | (extract_lets +onlyGivenNames y; guard_hyp y : _ × State := _; apply OnlyChanges.cutP y; (on_goal 1 => (unfold y; clear y)); (on_goal 2 => (intro hx; clear_value y)))
    | (extract_lets +onlyGivenNames y; guard_hyp y : _ × _ × State := _; apply OnlyChanges.cutPP y; (on_goal 1 => (unfold y; clear y)); (on_goal 2 => (intro hx; clear_value y)))
    | (extract_lets +onlyGivenNames y; guard_hyp y : Boxes := _; subst y)
    | (extract_lets +onlyGivenNames y; guard_hyp y : Power := _; subst y)
    | (extract_lets +onlyGivenNames y; guard_hyp y : Trans := _; subst y)
    | (extract_lets +onlyGivenNames y; guard_hyp y : Prot := _; subst y)
    | (extract_lets +onlyGivenNames y; guard_hyp y : Persist := _; subst y)
    | (extract_lets +onlyGivenNames y; guard_hyp y : Sgl := _; subst y)
    | (extract_lets +onlyGivenNames y; guard_hyp y : Sec := _; subst y)
    | (extract_lets +onlyGivenNames y; clear_value y)
    | extract_lets +onlyGivenNames y
    | with_reducible apply OnlyChanges.ite
    | split
    | (with_reducible apply OnlyChanges.upd16384; (on_goal 1 => decide))

theorem prefetchLine_frame {a0} {a1} {x : State} : OnlyChanges [.evr, .pmc, .trb, .sched, .tr, .prot, .per, .ck, .cache, .dram, .coh, .fab, .portA, .portB, .cxlA, .cxlB, .sec, .freeCtr, .outs] x (prefetchLine a0 a1 x) := by
  unfold prefetchLine
  repeat' first
    | with_reducible assumption
    | with_reducible apply OnlyChanges.refl
    | (extract_lets +onlyGivenNames y; guard_hyp y : State := Prod.snd _; subst y)
    | (extract_lets +onlyGivenNames y; guard_hyp y : State := _; apply OnlyChanges.cut y; (on_goal 1 => (unfold y; clear y)); (on_goal 2 => (intro hx; clear_value y)))
    | (extract_lets +onlyGivenNames y; guard_hyp y : _ × State := _; apply OnlyChanges.cutP y; (on_goal 1 => (unfold y; clear y)); (on_goal 2 => (intro hx; clear_value y)))
    | (extract_lets +onlyGivenNames y; guard_hyp y : _ × _ × State := _; apply OnlyChanges.cutPP y; (on_goal 1 => (unfold y; clear y)); (on_goal 2 => (intro hx; clear_value y)))
    | (extract_lets +onlyGivenNames y; guard_hyp y : Boxes := _; subst y)
    | (extract_lets +onlyGivenNames y; guard_hyp y : Power := _; subst y)
    | (extract_lets +onlyGivenNames y; guard_hyp y : Trans := _; subst y)
    | (extract_lets +onlyGivenNames y; guard_hyp y : Prot := _; subst y)
    | (extract_lets +onlyGivenNames y; guard_hyp y : Persist := _; subst y)
    | (extract_lets +onlyGivenNames y; guard_hyp y : Sgl := _; subst y)
    | (extract_lets +onlyGivenNames y; guard_hyp y : Sec := _; subst y)
    | (extract_lets +onlyGivenNames y; clear_value y)
    | extract_lets +onlyGivenNames y
    | with_reducible apply OnlyChanges.ite
    | (with_reducible apply OnlyChangesP.step startCur_frame; (on_goal 1 => decide))
    | (with_reducible apply OnlyChangesP.snd startCur_frame; (on_goal 1 => decide))
    | (with_reducible apply OnlyChanges.step putMshr_frame; (on_goal 1 => decide))
    | (with_reducible apply OnlyChanges.step count_frame; (on_goal 1 => decide))
    | (with_reducible apply settle_frame; (on_goal 1 => decide))
    | (with_reducible apply OnlyChanges.ofPair; (on_goal 1 => assumption))
    | split

theorem streamRead_frame {a0} {a1} {a2} {x : State} : OnlyChanges [.evr, .pmc, .trb, .sched, .tr, .prot, .per, .ck, .cache, .dram, .coh, .fab, .portA, .portB, .cxlA, .cxlB, .sec, .freeCtr, .outs] x (streamRead a0 a1 a2 x) := by
  unfold streamRead
  repeat' first
    | with_reducible assumption
    | with_reducible apply OnlyChanges.refl
    | (extract_lets +onlyGivenNames y; guard_hyp y : State := Prod.snd _; subst y)
    | (extract_lets +onlyGivenNames y; guard_hyp y : State := _; apply OnlyChanges.cut y; (on_goal 1 => (unfold y; clear y)); (on_goal 2 => (intro hx; clear_value y)))
    | (extract_lets +onlyGivenNames y; guard_hyp y : _ × State := _; apply OnlyChanges.cutP y; (on_goal 1 => (unfold y; clear y)); (on_goal 2 => (intro hx; clear_value y)))
    | (extract_lets +onlyGivenNames y; guard_hyp y : _ × _ × State := _; apply OnlyChanges.cutPP y; (on_goal 1 => (unfold y; clear y)); (on_goal 2 => (intro hx; clear_value y)))
    | (extract_lets +onlyGivenNames y; guard_hyp y : Boxes := _; subst y)
    | (extract_lets +onlyGivenNames y; guard_hyp y : Power := _; subst y)
    | (extract_lets +onlyGivenNames y; guard_hyp y : Trans := _; subst y)
    | (extract_lets +onlyGivenNames y; guard_hyp y : Prot := _; subst y)
    | (extract_lets +onlyGivenNames y; guard_hyp y : Persist := _; subst y)
    | (extract_lets +onlyGivenNames y; guard_hyp y : Sgl := _; subst y)
    | (extract_lets +onlyGivenNames y; guard_hyp y : Sec := _; subst y)
    | (extract_lets +onlyGivenNames y; clear_value y)
    | extract_lets +onlyGivenNames y
    | with_reducible apply OnlyChanges.ite
    | (with_reducible apply OnlyChanges.step putStream_frame; (on_goal 1 => decide))
    | (with_reducible apply OnlyChanges.step prefetchLine_frame; (on_goal 1 => decide))
    | (with_reducible apply OnlyChanges.foldl; (on_goal 2 => intro z a))
    | (with_reducible apply OnlyChangesP.foldl; (on_goal 2 => intro z a))
    | split

theorem recvReq_frame {a0} {a1} {a2} {a3} {a4} {a5} {a6} {x : State} : OnlyChanges [.evr, .pmc, .trb, .sched, .tr, .prot, .per, .ck, .cache, .dram, .coh, .fab, .portA, .portB, .cxlA, .cxlB, .sec, .freeCtr, .outs] x (recvReq a0 a1 a2 a3 a4 a5 a6 x) := by
  unfold recvReq
  repeat' first
    | with_reducible assumption
    | with_reducible apply OnlyChanges.refl
    | (extract_lets +onlyGivenNames y; guard_hyp y : State := Prod.snd _; subst y)
    | (extract_lets +onlyGivenNames y; guard_hyp y : State := _; apply OnlyChanges.cut y; (on_goal 1 => (unfold y; clear y)); (on_goal 2 => (intro hx; clear_value y)))
    | (extract_lets +onlyGivenNames y; guard_hyp y : _ × State := _; apply OnlyChanges.cutP y; (on_goal 1 => (unfold y; clear y)); (on_goal 2 => (intro hx; clear_value y)))
    | (extract_lets +onlyGivenNames y; guard_hyp y : _ × _ × State := _; apply OnlyChanges.cutPP y; (on_goal 1 => (unfold y; clear y)); (on_goal 2 => (intro hx; clear_value y)))
    | (extract_lets +onlyGivenNames y; guard_hyp y : Boxes := _; subst y)
    | (extract_lets +onlyGivenNames y; guard_hyp y : Power := _; subst y)
    | (extract_lets +onlyGivenNames y; guard_hyp y : Trans := _; subst y)
    | (extract_lets +onlyGivenNames y; guard_hyp y : Prot := _; subst y)
    | (extract_lets +onlyGivenNames y; guard_hyp y : Persist := _; subst y)
    | (extract_lets +onlyGivenNames y; guard_hyp y : Sgl := _; subst y)
    | (extract_lets +onlyGivenNames y; guard_hyp y : Sec := _; subst y)
    | (extract_lets +onlyGivenNames y; clear_value y)
    | extract_lets +onlyGivenNames y
    | with_reducible apply OnlyChanges.ite
    | (with_reducible apply OnlyChanges.step noteInput_frame; (on_goal 1 => decide))
    | (with_reducible apply OnlyChanges.step streamRead_frame; (on_goal 1 => decide))
    | (with_reducible apply OnlyChanges.step homeRequest_frame; (on_goal 1 => decide))
    | split

theorem recvEvc_frame {a0} {a1} {x : State} : OnlyChanges [.coh] x (recvEvc a0 a1 x) := by
  unfold recvEvc
  repeat' first
    | with_reducible assumption
    | with_reducible apply OnlyChanges.refl
    | (extract_lets +onlyGivenNames y; guard_hyp y : State := Prod.snd _; subst y)
    | (extract_lets +onlyGivenNames y; guard_hyp y : State := _; apply OnlyChanges.cut y; (on_goal 1 => (unfold y; clear y)); (on_goal 2 => (intro hx; clear_value y)))
    | (extract_lets +onlyGivenNames y; guard_hyp y : _ × State := _; apply OnlyChanges.cutP y; (on_goal 1 => (unfold y; clear y)); (on_goal 2 => (intro hx; clear_value y)))
    | (extract_lets +onlyGivenNames y; guard_hyp y : _ × _ × State := _; apply OnlyChanges.cutPP y; (on_goal 1 => (unfold y; clear y)); (on_goal 2 => (intro hx; clear_value y)))
    | (extract_lets +onlyGivenNames y; guard_hyp y : Boxes := _; subst y)
    | (extract_lets +onlyGivenNames y; guard_hyp y : Power := _; subst y)
    | (extract_lets +onlyGivenNames y; guard_hyp y : Trans := _; subst y)
    | (extract_lets +onlyGivenNames y; guard_hyp y : Prot := _; subst y)
    | (extract_lets +onlyGivenNames y; guard_hyp y : Persist := _; subst y)
    | (extract_lets +onlyGivenNames y; guard_hyp y : Sgl := _; subst y)
    | (extract_lets +onlyGivenNames y; guard_hyp y : Sec := _; subst y)
    | (extract_lets +onlyGivenNames y; clear_value y)
    | extract_lets +onlyGivenNames y
    | with_reducible apply OnlyChanges.ite
    | (with_reducible apply OnlyChanges.step setDir_frame; (on_goal 1 => decide))
    | split

theorem execRspWb_frame {a0} {a1} {a2} {a3} {x t : State} (h : execRspWb a0 a1 a2 a3 x = .next t) :
    OnlyChanges [.evr, .pmc, .trb, .sched, .tr, .prot, .per, .ck, .cache, .dram, .coh, .fab, .portA, .portB, .cxlA, .cxlB, .sec, .freeCtr, .outs] x t := by
  unfold execRspWb at h
  first
    | (injection h with h; subst h)
    | (split at h <;> (first | (injection h with h; subst h) | cases h))
  all_goals
    repeat' first
      | with_reducible assumption
      | with_reducible apply OnlyChanges.refl
      | with_reducible apply OnlyChanges.ite
      | (with_reducible apply OnlyChanges.step recvRsp_frame; (on_goal 1 => decide))
      | split

theorem execRdS_frame {a0} {a1} {a2} {a3} {a4} {a5} {x t : State} (h : execRdS a0 a1 a2 a3 a4 a5 x = .next t) :
    OnlyChanges [.evr, .pmc, .trb, .sched, .tr, .prot, .per, .ck, .cache, .dram, .coh, .fab, .portA, .portB, .cxlA, .cxlB, .sec, .freeCtr, .outs] x t := by
  unfold execRdS at h
  first
    | (injection h with h; subst h)
    | (split at h <;> (first | (injection h with h; subst h) | cases h))
  all_goals
    repeat' first
      | with_reducible assumption
      | with_reducible apply OnlyChanges.refl
      | with_reducible apply OnlyChanges.ite
      | (with_reducible apply OnlyChanges.step recvReq_frame; (on_goal 1 => decide))
      | split

theorem execRdC_frame {a0} {a1} {a2} {a3} {a4} {a5} {x t : State} (h : execRdC a0 a1 a2 a3 a4 a5 x = .next t) :
    OnlyChanges [.evr, .pmc, .trb, .sched, .tr, .prot, .per, .ck, .cache, .dram, .coh, .fab, .portA, .portB, .cxlA, .cxlB, .sec, .freeCtr, .outs] x t := by
  unfold execRdC at h
  first
    | (injection h with h; subst h)
    | (split at h <;> (first | (injection h with h; subst h) | cases h))
  all_goals
    repeat' first
      | with_reducible assumption
      | with_reducible apply OnlyChanges.refl
      | with_reducible apply OnlyChanges.ite
      | (with_reducible apply OnlyChanges.step recvReq_frame; (on_goal 1 => decide))
      | split

theorem execRspFwd_frame {a0} {a1} {a2} {x t : State} (h : execRspFwd a0 a1 a2 x = .next t) :
    OnlyChanges [.evr, .pmc, .trb, .sched, .tr, .prot, .per, .ck, .cache, .dram, .coh, .fab, .portA, .portB, .cxlA, .cxlB, .sec, .freeCtr, .outs] x t := by
  unfold execRspFwd at h
  first
    | (injection h with h; subst h)
    | (split at h <;> (first | (injection h with h; subst h) | cases h))
  all_goals
    repeat' first
      | with_reducible assumption
      | with_reducible apply OnlyChanges.refl
      | with_reducible apply OnlyChanges.ite
      | (with_reducible apply OnlyChanges.step recvRsp_frame; (on_goal 1 => decide))
      | split

theorem execUpg_frame {a0} {a1} {a2} {a3} {a4} {a5} {x t : State} (h : execUpg a0 a1 a2 a3 a4 a5 x = .next t) :
    OnlyChanges [.evr, .pmc, .trb, .sched, .tr, .prot, .per, .ck, .cache, .dram, .coh, .fab, .portA, .portB, .cxlA, .cxlB, .sec, .freeCtr, .outs] x t := by
  unfold execUpg at h
  first
    | (injection h with h; subst h)
    | (split at h <;> (first | (injection h with h; subst h) | cases h))
  all_goals
    repeat' first
      | with_reducible assumption
      | with_reducible apply OnlyChanges.refl
      | with_reducible apply OnlyChanges.ite
      | (with_reducible apply OnlyChanges.step recvReq_frame; (on_goal 1 => decide))
      | split

theorem reportDead_frame {a0} {a1} {x : State} : OnlyChanges [.fab, .outs] x (reportDead a0 a1 x) := by
  unfold reportDead
  repeat' first
    | with_reducible assumption
    | with_reducible apply OnlyChanges.refl
    | with_reducible apply OnlyChanges.ite
    | (with_reducible apply OnlyChanges.step sendMsg_frame; (on_goal 1 => decide))
    | split

theorem declareDead_frame {a0} {a1} {x : State} : OnlyChanges [.evr, .pmc, .trb, .sched, .tr, .prot, .per, .ck, .cache, .dram, .coh, .fab, .portA, .portB, .cxlA, .cxlB, .sec, .freeCtr, .outs] x (declareDead a0 a1 x) := by
  unfold declareDead
  repeat' first
    | with_reducible assumption
    | with_reducible apply OnlyChanges.refl
    | with_reducible apply OnlyChanges.ite
    | (with_reducible apply OnlyChanges.step event_frame; (on_goal 1 => decide))
    | (with_reducible apply OnlyChanges.step killNode_frame; (on_goal 1 => decide))
    | (with_reducible apply OnlyChanges.step reportDead_frame; (on_goal 1 => decide))
    | split

theorem fence_frame {a0} {a1} {x : State} : OnlyChanges [.evr, .pmc, .trb, .sched, .tr, .prot, .per, .ck, .cache, .dram, .coh, .fab, .portA, .portB, .cxlA, .cxlB, .sec, .freeCtr, .outs] x (fence a0 a1 x) := by
  unfold fence
  repeat' first
    | with_reducible assumption
    | with_reducible apply OnlyChanges.refl
    | (extract_lets +onlyGivenNames y; guard_hyp y : State := Prod.snd _; subst y)
    | (extract_lets +onlyGivenNames y; guard_hyp y : State := _; apply OnlyChanges.cut y; (on_goal 1 => (unfold y; clear y)); (on_goal 2 => (intro hx; clear_value y)))
    | (extract_lets +onlyGivenNames y; guard_hyp y : _ × State := _; apply OnlyChanges.cutP y; (on_goal 1 => (unfold y; clear y)); (on_goal 2 => (intro hx; clear_value y)))
    | (extract_lets +onlyGivenNames y; guard_hyp y : _ × _ × State := _; apply OnlyChanges.cutPP y; (on_goal 1 => (unfold y; clear y)); (on_goal 2 => (intro hx; clear_value y)))
    | (extract_lets +onlyGivenNames y; guard_hyp y : Boxes := _; subst y)
    | (extract_lets +onlyGivenNames y; guard_hyp y : Power := _; subst y)
    | (extract_lets +onlyGivenNames y; guard_hyp y : Trans := _; subst y)
    | (extract_lets +onlyGivenNames y; guard_hyp y : Prot := _; subst y)
    | (extract_lets +onlyGivenNames y; guard_hyp y : Persist := _; subst y)
    | (extract_lets +onlyGivenNames y; guard_hyp y : Sgl := _; subst y)
    | (extract_lets +onlyGivenNames y; guard_hyp y : Sec := _; subst y)
    | (extract_lets +onlyGivenNames y; clear_value y)
    | extract_lets +onlyGivenNames y
    | with_reducible apply OnlyChanges.ite
    | (with_reducible apply OnlyChanges.step declareDead_frame; (on_goal 1 => decide))
    | split
    | (with_reducible apply OnlyChanges.upd16384; (on_goal 1 => decide))

theorem suspect_frame {a0} {x : State} : OnlyChanges [.evr, .pmc, .trb, .sched, .tr, .prot, .per, .ck, .cache, .dram, .coh, .fab, .portA, .portB, .cxlA, .cxlB, .sec, .freeCtr, .outs] x (suspect a0 x) := by
  unfold suspect
  repeat' first
    | with_reducible assumption
    | with_reducible apply OnlyChanges.refl
    | (extract_lets +onlyGivenNames y; guard_hyp y : State := Prod.snd _; subst y)
    | (extract_lets +onlyGivenNames y; guard_hyp y : State := _; apply OnlyChanges.cut y; (on_goal 1 => (unfold y; clear y)); (on_goal 2 => (intro hx; clear_value y)))
    | (extract_lets +onlyGivenNames y; guard_hyp y : _ × State := _; apply OnlyChanges.cutP y; (on_goal 1 => (unfold y; clear y)); (on_goal 2 => (intro hx; clear_value y)))
    | (extract_lets +onlyGivenNames y; guard_hyp y : _ × _ × State := _; apply OnlyChanges.cutPP y; (on_goal 1 => (unfold y; clear y)); (on_goal 2 => (intro hx; clear_value y)))
    | (extract_lets +onlyGivenNames y; guard_hyp y : Boxes := _; subst y)
    | (extract_lets +onlyGivenNames y; guard_hyp y : Power := _; subst y)
    | (extract_lets +onlyGivenNames y; guard_hyp y : Trans := _; subst y)
    | (extract_lets +onlyGivenNames y; guard_hyp y : Prot := _; subst y)
    | (extract_lets +onlyGivenNames y; guard_hyp y : Persist := _; subst y)
    | (extract_lets +onlyGivenNames y; guard_hyp y : Sgl := _; subst y)
    | (extract_lets +onlyGivenNames y; guard_hyp y : Sec := _; subst y)
    | (extract_lets +onlyGivenNames y; clear_value y)
    | extract_lets +onlyGivenNames y
    | with_reducible apply OnlyChanges.ite
    | (with_reducible apply OnlyChanges.step declareDead_frame; (on_goal 1 => decide))
    | split
    | (with_reducible apply OnlyChanges.upd16384; (on_goal 1 => decide))

theorem execSnoopTimeout_frame {a0} {a1} {x t : State} (h : execSnoopTimeout a0 a1 x = .next t) :
    OnlyChanges [.evr, .pmc, .trb, .sched, .tr, .prot, .per, .ck, .cache, .dram, .coh, .fab, .portA, .portB, .cxlA, .cxlB, .sec, .freeCtr, .outs] x t := by
  unfold execSnoopTimeout at h
  first
    | (injection h with h; subst h)
    | (split at h <;> (first | (injection h with h; subst h) | cases h))
  all_goals
    repeat' first
      | with_reducible assumption
      | with_reducible apply OnlyChanges.refl
      | with_reducible apply OnlyChanges.ite
      | (with_reducible apply OnlyChanges.step fence_frame; (on_goal 1 => decide))
      | (with_reducible apply OnlyChanges.step giveUp_frame; (on_goal 1 => decide))
      | (with_reducible apply OnlyChanges.step suspect_frame; (on_goal 1 => decide))
      | split

theorem execEvX_frame {a0} {a1} {a2} {a3} {x t : State} (h : execEvX a0 a1 a2 a3 x = .next t) :
    OnlyChanges [.evr, .pmc, .trb, .sched, .tr, .prot, .per, .ck, .cache, .dram, .coh, .fab, .portA, .portB, .cxlA, .cxlB, .sec, .freeCtr, .outs] x t := by
  unfold execEvX at h
  first
    | (injection h with h; subst h)
    | (split at h <;> (first | (injection h with h; subst h) | cases h))
  all_goals
    repeat' first
      | with_reducible assumption
      | with_reducible apply OnlyChanges.refl
      | with_reducible apply OnlyChanges.ite
      | (with_reducible apply OnlyChanges.step recvWrt_frame; (on_goal 1 => decide))
      | split

theorem execWayHoldExpire_frame {a0} {a1} {x t : State} (h : execWayHoldExpire a0 a1 x = .next t) :
    OnlyChanges [.coh] x t := by
  unfold execWayHoldExpire at h
  first
    | (injection h with h; subst h)
    | (split at h <;> (first | (injection h with h; subst h) | cases h))
  all_goals
    repeat' first
      | with_reducible assumption
      | with_reducible apply OnlyChanges.refl
      | (extract_lets +onlyGivenNames y; guard_hyp y : State := Prod.snd _; subst y)
      | (extract_lets +onlyGivenNames y; guard_hyp y : State := _; apply OnlyChanges.cut y; (on_goal 1 => (unfold y; clear y)); (on_goal 2 => (intro hx; clear_value y)))
      | (extract_lets +onlyGivenNames y; guard_hyp y : _ × State := _; apply OnlyChanges.cutP y; (on_goal 1 => (unfold y; clear y)); (on_goal 2 => (intro hx; clear_value y)))
      | (extract_lets +onlyGivenNames y; guard_hyp y : _ × _ × State := _; apply OnlyChanges.cutPP y; (on_goal 1 => (unfold y; clear y)); (on_goal 2 => (intro hx; clear_value y)))
      | (extract_lets +onlyGivenNames y; guard_hyp y : Boxes := _; subst y)
      | (extract_lets +onlyGivenNames y; guard_hyp y : Power := _; subst y)
      | (extract_lets +onlyGivenNames y; guard_hyp y : Trans := _; subst y)
      | (extract_lets +onlyGivenNames y; guard_hyp y : Prot := _; subst y)
      | (extract_lets +onlyGivenNames y; guard_hyp y : Persist := _; subst y)
      | (extract_lets +onlyGivenNames y; guard_hyp y : Sgl := _; subst y)
      | (extract_lets +onlyGivenNames y; guard_hyp y : Sec := _; subst y)
      | (extract_lets +onlyGivenNames y; clear_value y)
      | extract_lets +onlyGivenNames y
      | with_reducible apply OnlyChanges.ite
      | split
      | (with_reducible apply OnlyChanges.upd16384; (on_goal 1 => decide))

theorem execSuspectExpire_frame {a0} {x t : State} (h : execSuspectExpire a0 x = .next t) :
    OnlyChanges [.coh] x t := by
  unfold execSuspectExpire at h
  first
    | (injection h with h; subst h)
    | (split at h <;> (first | (injection h with h; subst h) | cases h))
  all_goals
    repeat' first
      | with_reducible assumption
      | with_reducible apply OnlyChanges.refl
      | (extract_lets +onlyGivenNames y; guard_hyp y : State := Prod.snd _; subst y)
      | (extract_lets +onlyGivenNames y; guard_hyp y : State := _; apply OnlyChanges.cut y; (on_goal 1 => (unfold y; clear y)); (on_goal 2 => (intro hx; clear_value y)))
      | (extract_lets +onlyGivenNames y; guard_hyp y : _ × State := _; apply OnlyChanges.cutP y; (on_goal 1 => (unfold y; clear y)); (on_goal 2 => (intro hx; clear_value y)))
      | (extract_lets +onlyGivenNames y; guard_hyp y : _ × _ × State := _; apply OnlyChanges.cutPP y; (on_goal 1 => (unfold y; clear y)); (on_goal 2 => (intro hx; clear_value y)))
      | (extract_lets +onlyGivenNames y; guard_hyp y : Boxes := _; subst y)
      | (extract_lets +onlyGivenNames y; guard_hyp y : Power := _; subst y)
      | (extract_lets +onlyGivenNames y; guard_hyp y : Trans := _; subst y)
      | (extract_lets +onlyGivenNames y; guard_hyp y : Prot := _; subst y)
      | (extract_lets +onlyGivenNames y; guard_hyp y : Persist := _; subst y)
      | (extract_lets +onlyGivenNames y; guard_hyp y : Sgl := _; subst y)
      | (extract_lets +onlyGivenNames y; guard_hyp y : Sec := _; subst y)
      | (extract_lets +onlyGivenNames y; clear_value y)
      | extract_lets +onlyGivenNames y
      | with_reducible apply OnlyChanges.ite
      | split
      | (with_reducible apply OnlyChanges.upd16384; (on_goal 1 => decide))

theorem execFencedAnswer_frame {a0} {a1} {x t : State} (h : execFencedAnswer a0 a1 x = .next t) :
    OnlyChanges [.coh] x t := by
  unfold execFencedAnswer at h
  first
    | (injection h with h; subst h)
    | (split at h <;> (first | (injection h with h; subst h) | cases h))
  all_goals
    repeat' first
      | with_reducible assumption
      | with_reducible apply OnlyChanges.refl
      | (extract_lets +onlyGivenNames y; guard_hyp y : State := Prod.snd _; subst y)
      | (extract_lets +onlyGivenNames y; guard_hyp y : State := _; apply OnlyChanges.cut y; (on_goal 1 => (unfold y; clear y)); (on_goal 2 => (intro hx; clear_value y)))
      | (extract_lets +onlyGivenNames y; guard_hyp y : _ × State := _; apply OnlyChanges.cutP y; (on_goal 1 => (unfold y; clear y)); (on_goal 2 => (intro hx; clear_value y)))
      | (extract_lets +onlyGivenNames y; guard_hyp y : _ × _ × State := _; apply OnlyChanges.cutPP y; (on_goal 1 => (unfold y; clear y)); (on_goal 2 => (intro hx; clear_value y)))
      | (extract_lets +onlyGivenNames y; guard_hyp y : Boxes := _; subst y)
      | (extract_lets +onlyGivenNames y; guard_hyp y : Power := _; subst y)
      | (extract_lets +onlyGivenNames y; guard_hyp y : Trans := _; subst y)
      | (extract_lets +onlyGivenNames y; guard_hyp y : Prot := _; subst y)
      | (extract_lets +onlyGivenNames y; guard_hyp y : Persist := _; subst y)
      | (extract_lets +onlyGivenNames y; guard_hyp y : Sgl := _; subst y)
      | (extract_lets +onlyGivenNames y; guard_hyp y : Sec := _; subst y)
      | (extract_lets +onlyGivenNames y; clear_value y)
      | extract_lets +onlyGivenNames y
      | with_reducible apply OnlyChanges.ite
      | split
      | (with_reducible apply OnlyChanges.upd16384; (on_goal 1 => decide))

theorem execRspS_frame {a0} {a1} {a2} {x t : State} (h : execRspS a0 a1 a2 x = .next t) :
    OnlyChanges [.evr, .pmc, .trb, .sched, .tr, .prot, .per, .ck, .cache, .dram, .coh, .fab, .portA, .portB, .cxlA, .cxlB, .sec, .freeCtr, .outs] x t := by
  unfold execRspS at h
  first
    | (injection h with h; subst h)
    | (split at h <;> (first | (injection h with h; subst h) | cases h))
  all_goals
    repeat' first
      | with_reducible assumption
      | with_reducible apply OnlyChanges.refl
      | with_reducible apply OnlyChanges.ite
      | (with_reducible apply OnlyChanges.step recvRsp_frame; (on_goal 1 => decide))
      | split

theorem execRspI_frame {a0} {a1} {a2} {x t : State} (h : execRspI a0 a1 a2 x = .next t) :
    OnlyChanges [.evr, .pmc, .trb, .sched, .tr, .prot, .per, .ck, .cache, .dram, .coh, .fab, .portA, .portB, .cxlA, .cxlB, .sec, .freeCtr, .outs] x t := by
  unfold execRspI at h
  first
    | (injection h with h; subst h)
    | (split at h <;> (first | (injection h with h; subst h) | cases h))
  all_goals
    repeat' first
      | with_reducible assumption
      | with_reducible apply OnlyChanges.refl
      | with_reducible apply OnlyChanges.ite
      | (with_reducible apply OnlyChanges.step recvRsp_frame; (on_goal 1 => decide))
      | split

theorem execRdX_frame {a0} {a1} {a2} {a3} {a4} {a5} {x t : State} (h : execRdX a0 a1 a2 a3 a4 a5 x = .next t) :
    OnlyChanges [.evr, .pmc, .trb, .sched, .tr, .prot, .per, .ck, .cache, .dram, .coh, .fab, .portA, .portB, .cxlA, .cxlB, .sec, .freeCtr, .outs] x t := by
  unfold execRdX at h
  first
    | (injection h with h; subst h)
    | (split at h <;> (first | (injection h with h; subst h) | cases h))
  all_goals
    repeat' first
      | with_reducible assumption
      | with_reducible apply OnlyChanges.refl
      | with_reducible apply OnlyChanges.ite
      | (with_reducible apply OnlyChanges.step recvReq_frame; (on_goal 1 => decide))
      | split

theorem execWrT_frame {a0} {a1} {a2} {a3} {a4} {a5} {a6} {a7} {x t : State} (h : execWrT a0 a1 a2 a3 a4 a5 a6 a7 x = .next t) :
    OnlyChanges [.evr, .pmc, .trb, .sched, .tr, .prot, .per, .ck, .cache, .dram, .coh, .fab, .portA, .portB, .cxlA, .cxlB, .sec, .freeCtr, .outs] x t := by
  unfold execWrT at h
  first
    | (injection h with h; subst h)
    | (split at h <;> (first | (injection h with h; subst h) | cases h))
  all_goals
    repeat' first
      | with_reducible assumption
      | with_reducible apply OnlyChanges.refl
      | with_reducible apply OnlyChanges.ite
      | (with_reducible apply OnlyChanges.step recvWrt_frame; (on_goal 1 => decide))
      | split

theorem execEvc_frame {a0} {a1} {a2} {x t : State} (h : execEvc a0 a1 a2 x = .next t) :
    OnlyChanges [.coh] x t := by
  unfold execEvc at h
  first
    | (injection h with h; subst h)
    | (split at h <;> (first | (injection h with h; subst h) | cases h))
  all_goals
    repeat' first
      | with_reducible assumption
      | with_reducible apply OnlyChanges.refl
      | with_reducible apply OnlyChanges.ite
      | (with_reducible apply OnlyChanges.step recvEvc_frame; (on_goal 1 => decide))
      | split

end Sys2Proof.Machine
end

