-- ==== Sys2Proof/Laws/FrameMiss.lean ====
section
/-! SUPPORT. The parts of the state that each operation of Machine/Miss.lean may change; every other part it leaves
alone. -/

set_option linter.all false

namespace Sys2Proof.Machine

theorem deliver_frame {a0} {a1} {a2} {x : State} : OnlyChanges [.evr, .pmc, .trb, .sched, .tr, .prot, .per, .ck, .cache, .dram, .coh, .fab, .portA, .portB, .cxlA, .cxlB, .sec, .freeCtr, .outs] x (deliver a0 a1 a2 x) := by
  unfold deliver
  repeat' first
    | with_reducible assumption
    | with_reducible apply OnlyChanges.refl
    | (extract_lets +onlyGivenNames y; guard_hyp y : State := Prod.snd _; subst y)
    | (extract_lets +onlyGivenNames y; guard_hyp y : State := _; apply OnlyChanges.cut y; (on_goal 1 => (unfold y; clear y)); (on_goal 2 => (intro hx; clear_value y)))
    | (extract_lets +onlyGivenNames y; guard_hyp y : _ × State := _; apply OnlyChanges.cutP y; (on_goal 1 => (unfold y; clear y)); (on_goal 2 => (intro hx; clear_value y)))
    | (extract_lets +onlyGivenNames y; guard_hyp y : _ × _ × State := _; apply OnlyChanges.cutPP y; (on_goal 1 => (unfold y; clear y)); (on_goal 2 => (intro hx; clear_value y)))
    | (extract_lets +onlyGivenNames y; guard_hyp y : Boxes := _; subst y)
    | (extract_lets +onlyGivenNames y; guard_hyp y : Power := _; subst y)
    | (extract_lets +onlyGivenNames y; guard_hyp y : Trans := _; subst y)
    | (extract_lets +onlyGivenNames y; guard_hyp y : Prot := _; subst y)
    | (extract_lets +onlyGivenNames y; guard_hyp y : Persist := _; subst y)
    | (extract_lets +onlyGivenNames y; guard_hyp y : Sgl := _; subst y)
    | (extract_lets +onlyGivenNames y; guard_hyp y : Sec := _; subst y)
    | (extract_lets +onlyGivenNames y; clear_value y)
    | extract_lets +onlyGivenNames y
    | with_reducible apply OnlyChanges.ite
    | (with_reducible apply OnlyChanges.step answer_frame; (on_goal 1 => decide))
    | (with_reducible apply OnlyChanges.step doveOld_frame; (on_goal 1 => decide))
    | (with_reducible apply OnlyChanges.step finishCur_frame; (on_goal 1 => decide))
    | (with_reducible apply OnlyChanges.step modMshr_frame; (on_goal 1 => decide))
    | (with_reducible apply OnlyChanges.step dropMiss_frame; (on_goal 1 => decide))
    | split

theorem proceed_frame {a0} {x : State} : OnlyChangesP [.evr, .pmc, .trb, .sched, .tr, .prot, .per, .ck, .cache, .dram, .coh, .fab, .portA, .portB, .cxlA, .cxlB, .sec, .freeCtr, .outs] x (proceed a0 x) := by
  unfold proceed
  repeat' first
    | with_reducible assumption
    | with_reducible apply OnlyChanges.refl
    | (extract_lets +onlyGivenNames y; guard_hyp y : State := Prod.snd _; subst y)
    | (extract_lets +onlyGivenNames y; guard_hyp y : State := _; apply OnlyChangesP.cut y; (on_goal 1 => (unfold y; clear y)); (on_goal 2 => (intro hx; clear_value y)))
    | (extract_lets +onlyGivenNames y; guard_hyp y : _ × State := _; apply OnlyChangesP.cutP y; (on_goal 1 => (unfold y; clear y)); (on_goal 2 => (intro hx; clear_value y)))
    | (extract_lets +onlyGivenNames y; guard_hyp y : _ × _ × State := _; apply OnlyChangesP.cutPP y; (on_goal 1 => (unfold y; clear y)); (on_goal 2 => (intro hx; clear_value y)))
    | (extract_lets +onlyGivenNames y; guard_hyp y : Boxes := _; subst y)
    | (extract_lets +onlyGivenNames y; guard_hyp y : Power := _; subst y)
    | (extract_lets +onlyGivenNames y; guard_hyp y : Trans := _; subst y)
    | (extract_lets +onlyGivenNames y; guard_hyp y : Prot := _; subst y)
    | (extract_lets +onlyGivenNames y; guard_hyp y : Persist := _; subst y)
    | (extract_lets +onlyGivenNames y; guard_hyp y : Sgl := _; subst y)
    | (extract_lets +onlyGivenNames y; guard_hyp y : Sec := _; subst y)
    | (extract_lets +onlyGivenNames y; clear_value y)
    | extract_lets +onlyGivenNames y
    | with_reducible apply OnlyChanges.ite
    | with_reducible apply OnlyChangesP.ite
    | (with_reducible apply OnlyChanges.step retireRead_frame; (on_goal 1 => decide))
    | (with_reducible apply OnlyChanges.step dramAsk_frame; (on_goal 1 => decide))
    | (with_reducible apply OnlyChanges.step squashSpec_frame; (on_goal 1 => decide))
    | (with_reducible apply OnlyChangesP.step queueReadAt_frame; (on_goal 1 => decide))
    | (with_reducible apply OnlyChangesP.snd queueReadAt_frame; (on_goal 1 => decide))
    | (with_reducible apply OnlyChanges.step countConfirmed_frame; (on_goal 1 => decide))
    | (with_reducible apply OnlyChanges.step modRead_frame; (on_goal 1 => decide))
    | (with_reducible apply OnlyChanges.step finishCur_frame; (on_goal 1 => decide))
    | (with_reducible apply OnlyChanges.step modMshr_frame; (on_goal 1 => decide))
    | (with_reducible apply OnlyChanges.step countSlice_frame; (on_goal 1 => decide))
    | (with_reducible apply OnlyChanges.step deliver_frame; (on_goal 1 => decide))
    | (with_reducible apply OnlyChanges.ofPair; (on_goal 1 => assumption))
    | split
    | with_reducible apply OnlyChangesP.mk

theorem countMedium_frame {a0} {a1} {a2} {x : State} : OnlyChanges [.pmc, .freeCtr, .outs] x (countMedium a0 a1 a2 x) := by
  unfold countMedium
  repeat' first
    | with_reducible assumption
    | with_reducible apply OnlyChanges.refl
    | with_reducible apply OnlyChanges.ite
    | (with_reducible apply OnlyChanges.step count_frame; (on_goal 1 => decide))
    | split

theorem countLate_frame {a0} {a1} {x : State} : OnlyChanges [.pmc, .freeCtr, .outs] x (countLate a0 a1 x) := by
  unfold countLate
  repeat' first
    | with_reducible assumption
    | with_reducible apply OnlyChanges.refl
    | with_reducible apply OnlyChanges.ite
    | (with_reducible apply OnlyChanges.step count_frame; (on_goal 1 => decide))
    | split

theorem reportFor_frame {a0} {a1} {a2} {x : State} : OnlyChanges [.evr, .cxlA, .cxlB, .sec, .outs] x (reportFor a0 a1 a2 x) := by
  unfold reportFor
  repeat' first
    | with_reducible assumption
    | with_reducible apply OnlyChanges.refl
    | with_reducible apply OnlyChanges.ite
    | (with_reducible apply OnlyChanges.step reportOpen_frame; (on_goal 1 => decide))
    | split

theorem deliverSector_frame {a0} {a1} {a2} {x : State} : OnlyChanges [.evr, .pmc, .trb, .sched, .tr, .prot, .per, .ck, .cache, .dram, .coh, .fab, .portA, .portB, .cxlA, .cxlB, .sec, .freeCtr, .outs] x (deliverSector a0 a1 a2 x) := by
  unfold deliverSector
  repeat' first
    | with_reducible assumption
    | with_reducible apply OnlyChanges.refl
    | (extract_lets +onlyGivenNames y; guard_hyp y : State := Prod.snd _; subst y)
    | (extract_lets +onlyGivenNames y; guard_hyp y : State := _; apply OnlyChanges.cut y; (on_goal 1 => (unfold y; clear y)); (on_goal 2 => (intro hx; clear_value y)))
    | (extract_lets +onlyGivenNames y; guard_hyp y : _ × State := _; apply OnlyChanges.cutP y; (on_goal 1 => (unfold y; clear y)); (on_goal 2 => (intro hx; clear_value y)))
    | (extract_lets +onlyGivenNames y; guard_hyp y : _ × _ × State := _; apply OnlyChanges.cutPP y; (on_goal 1 => (unfold y; clear y)); (on_goal 2 => (intro hx; clear_value y)))
    | (extract_lets +onlyGivenNames y; guard_hyp y : Boxes := _; subst y)
    | (extract_lets +onlyGivenNames y; guard_hyp y : Power := _; subst y)
    | (extract_lets +onlyGivenNames y; guard_hyp y : Trans := _; subst y)
    | (extract_lets +onlyGivenNames y; guard_hyp y : Prot := _; subst y)
    | (extract_lets +onlyGivenNames y; guard_hyp y : Persist := _; subst y)
    | (extract_lets +onlyGivenNames y; guard_hyp y : Sgl := _; subst y)
    | (extract_lets +onlyGivenNames y; guard_hyp y : Sec := _; subst y)
    | (extract_lets +onlyGivenNames y; clear_value y)
    | extract_lets +onlyGivenNames y
    | with_reducible apply OnlyChanges.ite
    | (with_reducible apply OnlyChanges.step reportFor_frame; (on_goal 1 => decide))
    | (with_reducible apply OnlyChanges.step deliver_frame; (on_goal 1 => decide))
    | split

theorem medDone_frame {a0} {a1} {a2} {a3} {x : State} : OnlyChanges [.evr, .pmc, .trb, .sched, .tr, .dr, .prot, .per, .ck, .cache, .dram, .coh, .fab, .portA, .portB, .cxlA, .cxlB, .sec, .freeCtr, .outs] x (medDone a0 a1 a2 a3 x) := by
  unfold medDone
  repeat' first
    | with_reducible assumption
    | with_reducible apply OnlyChanges.refl
    | (extract_lets +onlyGivenNames y; guard_hyp y : State := Prod.snd _; subst y)
    | (extract_lets +onlyGivenNames y; guard_hyp y : State := _; apply OnlyChanges.cut y; (on_goal 1 => (unfold y; clear y)); (on_goal 2 => (intro hx; clear_value y)))
    | (extract_lets +onlyGivenNames y; guard_hyp y : _ × State := _; apply OnlyChanges.cutP y; (on_goal 1 => (unfold y; clear y)); (on_goal 2 => (intro hx; clear_value y)))
    | (extract_lets +onlyGivenNames y; guard_hyp y : _ × _ × State := _; apply OnlyChanges.cutPP y; (on_goal 1 => (unfold y; clear y)); (on_goal 2 => (intro hx; clear_value y)))
    | (extract_lets +onlyGivenNames y; guard_hyp y : Boxes := _; subst y)
    | (extract_lets +onlyGivenNames y; guard_hyp y : Power := _; subst y)
    | (extract_lets +onlyGivenNames y; guard_hyp y : Trans := _; subst y)
    | (extract_lets +onlyGivenNames y; guard_hyp y : Prot := _; subst y)
    | (extract_lets +onlyGivenNames y; guard_hyp y : Persist := _; subst y)
    | (extract_lets +onlyGivenNames y; guard_hyp y : Sgl := _; subst y)
    | (extract_lets +onlyGivenNames y; guard_hyp y : Sec := _; subst y)
    | (extract_lets +onlyGivenNames y; clear_value y)
    | extract_lets +onlyGivenNames y
    | with_reducible apply OnlyChanges.ite
    | (with_reducible apply OnlyChanges.step countMedium_frame; (on_goal 1 => decide))
    | (with_reducible apply OnlyChanges.step countLate_frame; (on_goal 1 => decide))
    | (with_reducible apply OnlyChanges.step deliverSector_frame; (on_goal 1 => decide))
    | (with_reducible apply OnlyChanges.step judgeRead_frame; (on_goal 1 => decide))
    | (with_reducible apply OnlyChanges.step clearCheck_frame; (on_goal 1 => decide))
    | (with_reducible apply OnlyChanges.step queueBack_frame; (on_goal 1 => decide))
    | (with_reducible apply OnlyChanges.step modMshr_frame; (on_goal 1 => decide))
    | (with_reducible apply OnlyChanges.step poisonHome_frame; (on_goal 1 => decide))
    | (with_reducible apply OnlyChanges.step deliver_frame; (on_goal 1 => decide))
    | (with_reducible apply OnlyChanges.step count_frame; (on_goal 1 => decide))
    | split

theorem proceedAll_frame {a0} {x : State} : OnlyChanges [.evr, .pmc, .trb, .sched, .tr, .dr, .prot, .per, .ck, .cache, .dram, .coh, .fab, .portA, .portB, .cxlA, .cxlB, .sec, .freeCtr, .outs] x (proceedAll a0 x) := by
  unfold proceedAll
  repeat' first
    | with_reducible assumption
    | with_reducible apply OnlyChanges.refl
    | with_reducible apply OnlyChanges.ite
    | (with_reducible apply OnlyChangesP.step proceed_frame; (on_goal 1 => decide))
    | (with_reducible apply OnlyChangesP.snd proceed_frame; (on_goal 1 => decide))
    | (with_reducible apply OnlyChanges.step medDone_frame; (on_goal 1 => decide))
    | (with_reducible apply OnlyChanges.ofPair; (on_goal 1 => assumption))
    | split

theorem removeEaves_frame {a0} {x : State} : OnlyChanges [.tr, .per, .ck] x (removeEaves a0 x) := by
  induction a0 generalizing x with
  | nil =>
    unfold removeEaves
    repeat' first
      | with_reducible assumption
      | with_reducible apply OnlyChanges.refl
      | with_reducible apply OnlyChanges.ite
      | (with_reducible apply OnlyChanges.step invalidate_frame; (on_goal 1 => decide))
      | (with_reducible apply OnlyChanges.step mapOpen_frame; (on_goal 1 => decide))
      | split
  | cons b l ih =>
    unfold removeEaves
    repeat' first
      | with_reducible assumption
      | with_reducible apply OnlyChanges.refl
      | with_reducible apply OnlyChanges.ite
      | (with_reducible apply OnlyChanges.step invalidate_frame; (on_goal 1 => decide))
      | (with_reducible apply OnlyChanges.step mapOpen_frame; (on_goal 1 => decide))
      | (with_reducible apply OnlyChanges.step ih; (on_goal 1 => decide))
      | split

theorem loseEaves_frame {a0} {x : State} : OnlyChanges [.tr, .per, .ck] x (loseEaves a0 x) := by
  unfold loseEaves
  repeat' first
    | with_reducible assumption
    | with_reducible apply OnlyChanges.refl
    | (extract_lets +onlyGivenNames y; guard_hyp y : State := Prod.snd _; subst y)
    | (extract_lets +onlyGivenNames y; guard_hyp y : State := _; apply OnlyChanges.cut y; (on_goal 1 => (unfold y; clear y)); (on_goal 2 => (intro hx; clear_value y)))
    | (extract_lets +onlyGivenNames y; guard_hyp y : _ × State := _; apply OnlyChanges.cutP y; (on_goal 1 => (unfold y; clear y)); (on_goal 2 => (intro hx; clear_value y)))
    | (extract_lets +onlyGivenNames y; guard_hyp y : _ × _ × State := _; apply OnlyChanges.cutPP y; (on_goal 1 => (unfold y; clear y)); (on_goal 2 => (intro hx; clear_value y)))
    | (extract_lets +onlyGivenNames y; guard_hyp y : Boxes := _; subst y)
    | (extract_lets +onlyGivenNames y; guard_hyp y : Power := _; subst y)
    | (extract_lets +onlyGivenNames y; guard_hyp y : Trans := _; subst y)
    | (extract_lets +onlyGivenNames y; guard_hyp y : Prot := _; subst y)
    | (extract_lets +onlyGivenNames y; guard_hyp y : Persist := _; subst y)
    | (extract_lets +onlyGivenNames y; guard_hyp y : Sgl := _; subst y)
    | (extract_lets +onlyGivenNames y; guard_hyp y : Sec := _; subst y)
    | (extract_lets +onlyGivenNames y; clear_value y)
    | extract_lets +onlyGivenNames y
    | with_reducible apply OnlyChanges.ite
    | (with_reducible apply OnlyChanges.step removeEaves_frame; (on_goal 1 => decide))
    | split
    | (with_reducible apply OnlyChanges.upd128; (on_goal 1 => decide); (on_goal 1 => (first | exact Or.inr (by with_reducible rfl) | exact Or.inl (by decide) | exact Or.inr rfl)))

theorem fetchMaps_frame {a0} {a1} {a2} {x : State} : OnlyChanges [.evr, .tr, .prot, .per, .ck, .cache, .dram, .cxlA, .cxlB, .outs] x (fetchMaps a0 a1 a2 x) := by
  unfold fetchMaps
  repeat' first
    | with_reducible assumption
    | with_reducible apply OnlyChanges.refl
    | (extract_lets +onlyGivenNames y; guard_hyp y : State := Prod.snd _; subst y)
    | (extract_lets +onlyGivenNames y; guard_hyp y : State := _; apply OnlyChanges.cut y; (on_goal 1 => (unfold y; clear y)); (on_goal 2 => (intro hx; clear_value y)))
    | (extract_lets +onlyGivenNames y; guard_hyp y : _ × State := _; apply OnlyChanges.cutP y; (on_goal 1 => (unfold y; clear y)); (on_goal 2 => (intro hx; clear_value y)))
    | (extract_lets +onlyGivenNames y; guard_hyp y : _ × _ × State := _; apply OnlyChanges.cutPP y; (on_goal 1 => (unfold y; clear y)); (on_goal 2 => (intro hx; clear_value y)))
    | (extract_lets +onlyGivenNames y; guard_hyp y : Boxes := _; subst y)
    | (extract_lets +onlyGivenNames y; guard_hyp y : Power := _; subst y)
    | (extract_lets +onlyGivenNames y; guard_hyp y : Trans := _; subst y)
    | (extract_lets +onlyGivenNames y; guard_hyp y : Prot := _; subst y)
    | (extract_lets +onlyGivenNames y; guard_hyp y : Persist := _; subst y)
    | (extract_lets +onlyGivenNames y; guard_hyp y : Sgl := _; subst y)
    | (extract_lets +onlyGivenNames y; guard_hyp y : Sec := _; subst y)
    | (extract_lets +onlyGivenNames y; clear_value y)
    | extract_lets +onlyGivenNames y
    | with_reducible apply OnlyChanges.ite
    | (with_reducible apply OnlyChangesP.step readMirror_frame; (on_goal 1 => decide))
    | (with_reducible apply OnlyChangesP.snd readMirror_frame; (on_goal 1 => decide))
    | (with_reducible apply OnlyChanges.step loseEaves_frame; (on_goal 1 => decide))
    | (with_reducible apply OnlyChanges.step modMshr_frame; (on_goal 1 => decide))
    | (with_reducible apply OnlyChanges.step loseDense_frame; (on_goal 1 => decide))
    | (with_reducible apply OnlyChanges.ofPair; (on_goal 1 => assumption))
    | split

theorem lookasideFill_frame {a0} {x : State} : OnlyChanges [.tr] x (lookasideFill a0 x) := by
  unfold lookasideFill
  repeat' first
    | with_reducible assumption
    | with_reducible apply OnlyChanges.refl
    | (extract_lets +onlyGivenNames y; guard_hyp y : State := Prod.snd _; subst y)
    | (extract_lets +onlyGivenNames y; guard_hyp y : State := _; apply OnlyChanges.cut y; (on_goal 1 => (unfold y; clear y)); (on_goal 2 => (intro hx; clear_value y)))
    | (extract_lets +onlyGivenNames y; guard_hyp y : _ × State := _; apply OnlyChanges.cutP y; (on_goal 1 => (unfold y; clear y)); (on_goal 2 => (intro hx; clear_value y)))
    | (extract_lets +onlyGivenNames y; guard_hyp y : _ × _ × State := _; apply OnlyChanges.cutPP y; (on_goal 1 => (unfold y; clear y)); (on_goal 2 => (intro hx; clear_value y)))
    | (extract_lets +onlyGivenNames y; guard_hyp y : Boxes := _; subst y)
    | (extract_lets +onlyGivenNames y; guard_hyp y : Power := _; subst y)
    | (extract_lets +onlyGivenNames y; guard_hyp y : Trans := _; subst y)
    | (extract_lets +onlyGivenNames y; guard_hyp y : Prot := _; subst y)
    | (extract_lets +onlyGivenNames y; guard_hyp y : Persist := _; subst y)
    | (extract_lets +onlyGivenNames y; guard_hyp y : Sgl := _; subst y)
    | (extract_lets +onlyGivenNames y; guard_hyp y : Sec := _; subst y)
    | (extract_lets +onlyGivenNames y; clear_value y)
    | extract_lets +onlyGivenNames y
    | with_reducible apply OnlyChanges.ite
    | split
    | (with_reducible apply OnlyChanges.upd128; (on_goal 1 => decide); (on_goal 1 => (first | exact Or.inr (by with_reducible rfl) | exact Or.inl (by decide) | exact Or.inr rfl)))

theorem execLookasideResult_frame {a0} {a1} {x t : State} (h : execLookasideResult a0 a1 x = .next t) :
    OnlyChanges [.evr, .pmc, .trb, .sched, .tr, .dr, .prot, .per, .ck, .cache, .dram, .coh, .fab, .portA, .portB, .cxlA, .cxlB, .sec, .freeCtr, .outs] x t := by
  unfold execLookasideResult at h
  first
    | (injection h with h; subst h)
    | (split at h <;> (first | (injection h with h; subst h) | cases h))
  all_goals
    repeat' first
      | with_reducible assumption
      | with_reducible apply OnlyChanges.refl
      | (extract_lets +onlyGivenNames y; guard_hyp y : State := Prod.snd _; subst y)
      | (extract_lets +onlyGivenNames y; guard_hyp y : State := _; apply OnlyChanges.cut y; (on_goal 1 => (unfold y; clear y)); (on_goal 2 => (intro hx; clear_value y)))
      | (extract_lets +onlyGivenNames y; guard_hyp y : _ × State := _; apply OnlyChanges.cutP y; (on_goal 1 => (unfold y; clear y)); (on_goal 2 => (intro hx; clear_value y)))
      | (extract_lets +onlyGivenNames y; guard_hyp y : _ × _ × State := _; apply OnlyChanges.cutPP y; (on_goal 1 => (unfold y; clear y)); (on_goal 2 => (intro hx; clear_value y)))
      | (extract_lets +onlyGivenNames y; guard_hyp y : Boxes := _; subst y)
      | (extract_lets +onlyGivenNames y; guard_hyp y : Power := _; subst y)
      | (extract_lets +onlyGivenNames y; guard_hyp y : Trans := _; subst y)
      | (extract_lets +onlyGivenNames y; guard_hyp y : Prot := _; subst y)
      | (extract_lets +onlyGivenNames y; guard_hyp y : Persist := _; subst y)
      | (extract_lets +onlyGivenNames y; guard_hyp y : Sgl := _; subst y)
      | (extract_lets +onlyGivenNames y; guard_hyp y : Sec := _; subst y)
      | (extract_lets +onlyGivenNames y; clear_value y)
      | extract_lets +onlyGivenNames y
      | with_reducible apply OnlyChanges.ite
      | (with_reducible apply OnlyChanges.step learnPred_frame; (on_goal 1 => decide))
      | with_reducible apply OnlyChangesO.getD
      | (with_reducible apply OnlyChangesO.step mapsServed_frame; (on_goal 1 => decide))
      | (apply OnlyChangesO.ofSome (h := mapsServed_frame); (on_goal 1 => assumption); (on_goal 1 => decide))
      | (with_reducible apply OnlyChanges.step checkDense_frame; (on_goal 1 => decide))
      | (with_reducible apply OnlyChanges.step proceedAll_frame; (on_goal 1 => decide))
      | (with_reducible apply OnlyChanges.step modMshr_frame; (on_goal 1 => decide))
      | (with_reducible apply OnlyChanges.step countSlice_frame; (on_goal 1 => decide))
      | (with_reducible apply OnlyChanges.step poisonHome_frame; (on_goal 1 => decide))
      | (with_reducible apply OnlyChanges.step fetchMaps_frame; (on_goal 1 => decide))
      | (with_reducible apply OnlyChanges.step lookasideFill_frame; (on_goal 1 => decide))
      | split

theorem poisonSlot_frame {a0} {a1} {x : State} : OnlyChanges [.evr, .tr, .prot, .cxlA, .cxlB, .outs] x (poisonSlot a0 a1 x) := by
  unfold poisonSlot
  repeat' first
    | with_reducible assumption
    | with_reducible apply OnlyChanges.refl
    | (extract_lets +onlyGivenNames y; guard_hyp y : State := Prod.snd _; subst y)
    | (extract_lets +onlyGivenNames y; guard_hyp y : State := _; apply OnlyChanges.cut y; (on_goal 1 => (unfold y; clear y)); (on_goal 2 => (intro hx; clear_value y)))
    | (extract_lets +onlyGivenNames y; guard_hyp y : _ × State := _; apply OnlyChanges.cutP y; (on_goal 1 => (unfold y; clear y)); (on_goal 2 => (intro hx; clear_value y)))
    | (extract_lets +onlyGivenNames y; guard_hyp y : _ × _ × State := _; apply OnlyChanges.cutPP y; (on_goal 1 => (unfold y; clear y)); (on_goal 2 => (intro hx; clear_value y)))
    | (extract_lets +onlyGivenNames y; guard_hyp y : Boxes := _; subst y)
    | (extract_lets +onlyGivenNames y; guard_hyp y : Power := _; subst y)
    | (extract_lets +onlyGivenNames y; guard_hyp y : Trans := _; subst y)
    | (extract_lets +onlyGivenNames y; guard_hyp y : Prot := _; subst y)
    | (extract_lets +onlyGivenNames y; guard_hyp y : Persist := _; subst y)
    | (extract_lets +onlyGivenNames y; guard_hyp y : Sgl := _; subst y)
    | (extract_lets +onlyGivenNames y; guard_hyp y : Sec := _; subst y)
    | (extract_lets +onlyGivenNames y; clear_value y)
    | extract_lets +onlyGivenNames y
    | with_reducible apply OnlyChanges.ite
    | (with_reducible apply OnlyChanges.step putCell_frame; (on_goal 1 => decide))
    | (with_reducible apply OnlyChanges.step countUe_frame; (on_goal 1 => decide))
    | (with_reducible apply OnlyChanges.step event_frame; (on_goal 1 => decide))
    | (with_reducible apply OnlyChanges.foldl; (on_goal 2 => intro z a))
    | (with_reducible apply OnlyChangesP.foldl; (on_goal 2 => intro z a))
    | split
    | (with_reducible apply OnlyChanges.upd128; (on_goal 1 => decide); (on_goal 1 => (first | exact Or.inr (by with_reducible rfl) | exact Or.inl (by decide) | exact Or.inr rfl)))

theorem poisonAll_frame {a0} {x : State} : OnlyChanges [.evr, .tr, .prot, .cxlA, .cxlB, .outs] x (poisonAll a0 x) := by
  unfold poisonAll
  repeat' first
    | with_reducible assumption
    | with_reducible apply OnlyChanges.refl
    | with_reducible apply OnlyChanges.ite
    | (with_reducible apply OnlyChanges.step poisonSlot_frame; (on_goal 1 => decide))
    | (with_reducible apply OnlyChanges.foldl; (on_goal 2 => intro z a))
    | (with_reducible apply OnlyChangesP.foldl; (on_goal 2 => intro z a))
    | split

theorem writeFailed_frame {a0} {a1} {x : State} : OnlyChanges [.evr, .pmc, .tr, .prot, .per, .ck, .cache, .dram, .cxlA, .cxlB, .sec, .freeCtr, .outs] x (writeFailed a0 a1 x) := by
  unfold writeFailed
  repeat' first
    | with_reducible assumption
    | with_reducible apply OnlyChanges.refl
    | (extract_lets +onlyGivenNames y; guard_hyp y : State := Prod.snd _; subst y)
    | (extract_lets +onlyGivenNames y; guard_hyp y : State := _; apply OnlyChanges.cut y; (on_goal 1 => (unfold y; clear y)); (on_goal 2 => (intro hx; clear_value y)))
    | (extract_lets +onlyGivenNames y; guard_hyp y : _ × State := _; apply OnlyChanges.cutP y; (on_goal 1 => (unfold y; clear y)); (on_goal 2 => (intro hx; clear_value y)))
    | (extract_lets +onlyGivenNames y; guard_hyp y : _ × _ × State := _; apply OnlyChanges.cutPP y; (on_goal 1 => (unfold y; clear y)); (on_goal 2 => (intro hx; clear_value y)))
    | (extract_lets +onlyGivenNames y; guard_hyp y : Boxes := _; subst y)
    | (extract_lets +onlyGivenNames y; guard_hyp y : Power := _; subst y)
    | (extract_lets +onlyGivenNames y; guard_hyp y : Trans := _; subst y)
    | (extract_lets +onlyGivenNames y; guard_hyp y : Prot := _; subst y)
    | (extract_lets +onlyGivenNames y; guard_hyp y : Persist := _; subst y)
    | (extract_lets +onlyGivenNames y; guard_hyp y : Sgl := _; subst y)
    | (extract_lets +onlyGivenNames y; guard_hyp y : Sec := _; subst y)
    | (extract_lets +onlyGivenNames y; clear_value y)
    | extract_lets +onlyGivenNames y
    | with_reducible apply OnlyChanges.ite
    | (with_reducible apply OnlyChanges.step dropDove_frame; (on_goal 1 => decide))
    | (with_reducible apply OnlyChangesP.step draw_frame; (on_goal 1 => decide))
    | (with_reducible apply OnlyChangesP.snd draw_frame; (on_goal 1 => decide))
    | (with_reducible apply OnlyChanges.step countUe_frame; (on_goal 1 => decide))
    | (with_reducible apply OnlyChanges.step dropDram_frame; (on_goal 1 => decide))
    | (with_reducible apply OnlyChanges.step event_frame; (on_goal 1 => decide))
    | (with_reducible apply OnlyChanges.step exhaust_frame; (on_goal 1 => decide))
    | (with_reducible apply OnlyChanges.step modMshr_frame; (on_goal 1 => decide))
    | (with_reducible apply OnlyChanges.step installLine_frame; (on_goal 1 => decide))
    | (with_reducible apply OnlyChanges.step takeVer_frame; (on_goal 1 => decide))
    | (with_reducible apply OnlyChanges.step acceptLine_frame; (on_goal 1 => decide))
    | (with_reducible apply OnlyChanges.ofPair; (on_goal 1 => assumption))
    | split

theorem mergeNow_frame {a0} {x : State} : OnlyChanges [.evr, .pmc, .trb, .sched, .tr, .prot, .per, .ck, .cache, .dram, .coh, .fab, .portA, .portB, .cxlA, .cxlB, .sec, .freeCtr, .outs] x (mergeNow a0 x) := by
  unfold mergeNow
  repeat' first
    | with_reducible assumption
    | with_reducible apply OnlyChanges.refl
    | (extract_lets +onlyGivenNames y; guard_hyp y : State := Prod.snd _; subst y)
    | (extract_lets +onlyGivenNames y; guard_hyp y : State := _; apply OnlyChanges.cut y; (on_goal 1 => (unfold y; clear y)); (on_goal 2 => (intro hx; clear_value y)))
    | (extract_lets +onlyGivenNames y; guard_hyp y : _ × State := _; apply OnlyChanges.cutP y; (on_goal 1 => (unfold y; clear y)); (on_goal 2 => (intro hx; clear_value y)))
    | (extract_lets +onlyGivenNames y; guard_hyp y : _ × _ × State := _; apply OnlyChanges.cutPP y; (on_goal 1 => (unfold y; clear y)); (on_goal 2 => (intro hx; clear_value y)))
    | (extract_lets +onlyGivenNames y; guard_hyp y : Boxes := _; subst y)
    | (extract_lets +onlyGivenNames y; guard_hyp y : Power := _; subst y)
    | (extract_lets +onlyGivenNames y; guard_hyp y : Trans := _; subst y)
    | (extract_lets +onlyGivenNames y; guard_hyp y : Prot := _; subst y)
    | (extract_lets +onlyGivenNames y; guard_hyp y : Persist := _; subst y)
    | (extract_lets +onlyGivenNames y; guard_hyp y : Sgl := _; subst y)
    | (extract_lets +onlyGivenNames y; guard_hyp y : Sec := _; subst y)
    | (extract_lets +onlyGivenNames y; clear_value y)
    | extract_lets +onlyGivenNames y
    | with_reducible apply OnlyChanges.ite
    | (with_reducible apply OnlyChanges.step writeFailed_frame; (on_goal 1 => decide))
    | (with_reducible apply OnlyChanges.step wakeDove_frame; (on_goal 1 => decide))
    | (with_reducible apply OnlyChangesP.step writeFull_frame; (on_goal 1 => decide))
    | (with_reducible apply OnlyChangesP.snd writeFull_frame; (on_goal 1 => decide))
    | (with_reducible apply OnlyChanges.step resumeDove_frame; (on_goal 1 => decide))
    | (with_reducible apply OnlyChanges.step count_frame; (on_goal 1 => decide))
    | (with_reducible apply OnlyChanges.ofPair; (on_goal 1 => assumption))
    | split

theorem leftDram_frame {a0} {x : State} : OnlyChanges [.evr, .pmc, .trb, .sched, .tr, .dr, .prot, .per, .ck, .cache, .dram, .coh, .fab, .portA, .portB, .cxlA, .cxlB, .sec, .freeCtr, .outs] x (leftDram a0 x) := by
  unfold leftDram
  repeat' first
    | with_reducible assumption
    | with_reducible apply OnlyChanges.refl
    | (extract_lets +onlyGivenNames y; guard_hyp y : State := Prod.snd _; subst y)
    | (extract_lets +onlyGivenNames y; guard_hyp y : State := _; apply OnlyChanges.cut y; (on_goal 1 => (unfold y; clear y)); (on_goal 2 => (intro hx; clear_value y)))
    | (extract_lets +onlyGivenNames y; guard_hyp y : _ × State := _; apply OnlyChanges.cutP y; (on_goal 1 => (unfold y; clear y)); (on_goal 2 => (intro hx; clear_value y)))
    | (extract_lets +onlyGivenNames y; guard_hyp y : _ × _ × State := _; apply OnlyChanges.cutPP y; (on_goal 1 => (unfold y; clear y)); (on_goal 2 => (intro hx; clear_value y)))
    | (extract_lets +onlyGivenNames y; guard_hyp y : Boxes := _; subst y)
    | (extract_lets +onlyGivenNames y; guard_hyp y : Power := _; subst y)
    | (extract_lets +onlyGivenNames y; guard_hyp y : Trans := _; subst y)
    | (extract_lets +onlyGivenNames y; guard_hyp y : Prot := _; subst y)
    | (extract_lets +onlyGivenNames y; guard_hyp y : Persist := _; subst y)
    | (extract_lets +onlyGivenNames y; guard_hyp y : Sgl := _; subst y)
    | (extract_lets +onlyGivenNames y; guard_hyp y : Sec := _; subst y)
    | (extract_lets +onlyGivenNames y; clear_value y)
    | extract_lets +onlyGivenNames y
    | with_reducible apply OnlyChanges.ite
    | (with_reducible apply OnlyChanges.step proceedAll_frame; (on_goal 1 => decide))
    | (with_reducible apply OnlyChanges.step modMshr_frame; (on_goal 1 => decide))
    | split

theorem abandoned_frame {a0} {x : State} : OnlyChanges [.evr, .pmc, .trb, .sched, .tr, .dr, .prot, .per, .ck, .cache, .dram, .coh, .fab, .portA, .portB, .cxlA, .cxlB, .sec, .freeCtr, .outs] x (abandoned a0 x) := by
  unfold abandoned
  repeat' first
    | with_reducible assumption
    | with_reducible apply OnlyChanges.refl
    | with_reducible apply OnlyChanges.ite
    | (with_reducible apply OnlyChanges.step leftDram_frame; (on_goal 1 => decide))
    | (with_reducible apply OnlyChanges.foldl; (on_goal 2 => intro z a))
    | (with_reducible apply OnlyChangesP.foldl; (on_goal 2 => intro z a))
    | split

theorem releaseWrite_frame {a0} {x : State} : OnlyChanges [.evr, .pmc, .trb, .sched, .tr, .prot, .per, .ck, .cache, .dram, .coh, .fab, .portA, .portB, .cxlA, .cxlB, .sec, .freeCtr, .outs] x (releaseWrite a0 x) := by
  unfold releaseWrite
  repeat' first
    | with_reducible assumption
    | with_reducible apply OnlyChanges.refl
    | with_reducible apply OnlyChanges.ite
    | (with_reducible apply OnlyChanges.step modMshr_frame; (on_goal 1 => decide))
    | (with_reducible apply OnlyChangesP.step applyWriteIn_frame; (on_goal 1 => decide))
    | (with_reducible apply OnlyChangesP.snd applyWriteIn_frame; (on_goal 1 => decide))
    | (with_reducible apply settle_frame; (on_goal 1 => decide))
    | (with_reducible apply OnlyChanges.ofPair; (on_goal 1 => assumption))
    | split

theorem releaseWrites_frame  {x : State} : OnlyChanges [.evr, .pmc, .trb, .sched, .tr, .prot, .per, .ck, .cache, .dram, .coh, .fab, .portA, .portB, .cxlA, .cxlB, .sec, .freeCtr, .outs] x (releaseWrites x) := by
  unfold releaseWrites
  repeat' first
    | with_reducible assumption
    | with_reducible apply OnlyChanges.refl
    | with_reducible apply OnlyChanges.ite
    | (with_reducible apply OnlyChanges.step releaseWrite_frame; (on_goal 1 => decide))
    | (with_reducible apply OnlyChanges.foldl; (on_goal 2 => intro z a))
    | (with_reducible apply OnlyChangesP.foldl; (on_goal 2 => intro z a))
    | split

theorem execFaultRelease_frame {a0} {x t : State} (h : execFaultRelease a0 x = .next t) :
    OnlyChanges [.pw, .evr, .pmc, .trb, .sched, .tr, .dr, .prot, .per, .ck, .cache, .dram, .coh, .fab, .portA, .portB, .cxlA, .cxlB, .sec, .freeCtr, .outs] x t := by
  unfold execFaultRelease at h
  first
    | (injection h with h; subst h)
    | (split at h <;> (first | (injection h with h; subst h) | cases h))
  all_goals
    repeat' first
      | with_reducible assumption
      | with_reducible apply OnlyChanges.refl
      | (extract_lets +onlyGivenNames y; guard_hyp y : State := Prod.snd _; subst y)
      | (extract_lets +onlyGivenNames y; guard_hyp y : State := _; apply OnlyChanges.cut y; (on_goal 1 => (unfold y; clear y)); (on_goal 2 => (intro hx; clear_value y)))
      | (extract_lets +onlyGivenNames y; guard_hyp y : _ × State := _; apply OnlyChanges.cutP y; (on_goal 1 => (unfold y; clear y)); (on_goal 2 => (intro hx; clear_value y)))
      | (extract_lets +onlyGivenNames y; guard_hyp y : _ × _ × State := _; apply OnlyChanges.cutPP y; (on_goal 1 => (unfold y; clear y)); (on_goal 2 => (intro hx; clear_value y)))
      | (extract_lets +onlyGivenNames y; guard_hyp y : Boxes := _; subst y)
      | (extract_lets +onlyGivenNames y; guard_hyp y : Power := _; subst y)
      | (extract_lets +onlyGivenNames y; guard_hyp y : Trans := _; subst y)
      | (extract_lets +onlyGivenNames y; guard_hyp y : Prot := _; subst y)
      | (extract_lets +onlyGivenNames y; guard_hyp y : Persist := _; subst y)
      | (extract_lets +onlyGivenNames y; guard_hyp y : Sgl := _; subst y)
      | (extract_lets +onlyGivenNames y; guard_hyp y : Sec := _; subst y)
      | (extract_lets +onlyGivenNames y; clear_value y)
      | extract_lets +onlyGivenNames y
      | with_reducible apply OnlyChanges.ite
      | (with_reducible apply OnlyChanges.step updateDegraded_frame; (on_goal 1 => decide))
      | (with_reducible apply OnlyChanges.step event_frame; (on_goal 1 => decide))
      | (with_reducible apply OnlyChanges.step abandoned_frame; (on_goal 1 => decide))
      | (with_reducible apply OnlyChanges.step releaseWrites_frame; (on_goal 1 => decide))
      | split
      | (with_reducible apply OnlyChanges.upd64; (on_goal 1 => decide))
      | (with_reducible apply OnlyChanges.upd512; (on_goal 1 => decide); (on_goal 1 => (first | exact Or.inr (by with_reducible rfl) | exact Or.inl (by decide) | exact Or.inr rfl)))

theorem execMediumReadDone_frame {a0} {a1} {x t : State} (h : execMediumReadDone a0 a1 x = .next t) :
    OnlyChanges [.evr, .pmc, .trb, .sched, .tr, .dr, .prot, .per, .ck, .cache, .dram, .coh, .fab, .portA, .portB, .cxlA, .cxlB, .sec, .freeCtr, .outs] x t := by
  unfold execMediumReadDone at h
  first
    | (injection h with h; subst h)
    | (split at h <;> (first | (injection h with h; subst h) | cases h))
  all_goals
    repeat' first
      | with_reducible assumption
      | with_reducible apply OnlyChanges.refl
      | with_reducible apply OnlyChanges.ite
      | (with_reducible apply OnlyChanges.step redrainDone_frame; (on_goal 1 => decide))
      | (with_reducible apply OnlyChanges.step medDone_frame; (on_goal 1 => decide))
      | (with_reducible apply OnlyChanges.step retireRead_frame; (on_goal 1 => decide))
      | (with_reducible apply OnlyChanges.step modRead_frame; (on_goal 1 => decide))
      | (with_reducible apply OnlyChanges.step copyDone_frame; (on_goal 1 => decide))
      | split

theorem cacheLost_frame {a0} {x : State} : OnlyChanges [.evr, .pmc, .trb, .sched, .tr, .dr, .prot, .per, .ck, .cache, .dram, .coh, .fab, .portA, .portB, .cxlA, .cxlB, .sec, .freeCtr, .outs] x (cacheLost a0 x) := by
  unfold cacheLost
  repeat' first
    | with_reducible assumption
    | with_reducible apply OnlyChanges.refl
    | (extract_lets +onlyGivenNames y; guard_hyp y : State := Prod.snd _; subst y)
    | (extract_lets +onlyGivenNames y; guard_hyp y : State := _; apply OnlyChanges.cut y; (on_goal 1 => (unfold y; clear y)); (on_goal 2 => (intro hx; clear_value y)))
    | (extract_lets +onlyGivenNames y; guard_hyp y : _ × State := _; apply OnlyChanges.cutP y; (on_goal 1 => (unfold y; clear y)); (on_goal 2 => (intro hx; clear_value y)))
    | (extract_lets +onlyGivenNames y; guard_hyp y : _ × _ × State := _; apply OnlyChanges.cutPP y; (on_goal 1 => (unfold y; clear y)); (on_goal 2 => (intro hx; clear_value y)))
    | (extract_lets +onlyGivenNames y; guard_hyp y : Boxes := _; subst y)
    | (extract_lets +onlyGivenNames y; guard_hyp y : Power := _; subst y)
    | (extract_lets +onlyGivenNames y; guard_hyp y : Trans := _; subst y)
    | (extract_lets +onlyGivenNames y; guard_hyp y : Prot := _; subst y)
    | (extract_lets +onlyGivenNames y; guard_hyp y : Persist := _; subst y)
    | (extract_lets +onlyGivenNames y; guard_hyp y : Sgl := _; subst y)
    | (extract_lets +onlyGivenNames y; guard_hyp y : Sec := _; subst y)
    | (extract_lets +onlyGivenNames y; clear_value y)
    | extract_lets +onlyGivenNames y
    | with_reducible apply OnlyChanges.ite
    | (with_reducible apply OnlyChanges.step proceedAll_frame; (on_goal 1 => decide))
    | (with_reducible apply OnlyChanges.step dropDram_frame; (on_goal 1 => decide))
    | (with_reducible apply OnlyChanges.step modMshr_frame; (on_goal 1 => decide))
    | split

theorem homeFill_frame {a0} {x : State} : OnlyChanges [.evr, .pmc, .trb, .sched, .tr, .prot, .per, .ck, .cache, .dram, .coh, .fab, .portA, .portB, .cxlA, .cxlB, .sec, .freeCtr, .outs] x (homeFill a0 x) := by
  unfold homeFill
  repeat' first
    | with_reducible assumption
    | with_reducible apply OnlyChanges.refl
    | (extract_lets +onlyGivenNames y; guard_hyp y : State := Prod.snd _; subst y)
    | (extract_lets +onlyGivenNames y; guard_hyp y : State := _; apply OnlyChanges.cut y; (on_goal 1 => (unfold y; clear y)); (on_goal 2 => (intro hx; clear_value y)))
    | (extract_lets +onlyGivenNames y; guard_hyp y : _ × State := _; apply OnlyChanges.cutP y; (on_goal 1 => (unfold y; clear y)); (on_goal 2 => (intro hx; clear_value y)))
    | (extract_lets +onlyGivenNames y; guard_hyp y : _ × _ × State := _; apply OnlyChanges.cutPP y; (on_goal 1 => (unfold y; clear y)); (on_goal 2 => (intro hx; clear_value y)))
    | (extract_lets +onlyGivenNames y; guard_hyp y : Boxes := _; subst y)
    | (extract_lets +onlyGivenNames y; guard_hyp y : Power := _; subst y)
    | (extract_lets +onlyGivenNames y; guard_hyp y : Trans := _; subst y)
    | (extract_lets +onlyGivenNames y; guard_hyp y : Prot := _; subst y)
    | (extract_lets +onlyGivenNames y; guard_hyp y : Persist := _; subst y)
    | (extract_lets +onlyGivenNames y; guard_hyp y : Sgl := _; subst y)
    | (extract_lets +onlyGivenNames y; guard_hyp y : Sec := _; subst y)
    | (extract_lets +onlyGivenNames y; clear_value y)
    | extract_lets +onlyGivenNames y
    | with_reducible apply OnlyChanges.ite
    | (with_reducible apply OnlyChanges.step drive_frame; (on_goal 1 => decide))
    | (with_reducible apply OnlyChanges.step touch_frame; (on_goal 1 => decide))
    | (with_reducible apply OnlyChanges.step modMshr_frame; (on_goal 1 => decide))
    | (with_reducible apply OnlyChanges.step putWay_frame; (on_goal 1 => decide))
    | (with_reducible apply OnlyChanges.step evictNow_frame; (on_goal 1 => decide))
    | split

theorem afterEvict_frame {a0} {x : State} : OnlyChanges [.evr, .pmc, .trb, .sched, .tr, .prot, .per, .ck, .cache, .dram, .coh, .fab, .portA, .portB, .cxlA, .cxlB, .sec, .freeCtr, .outs] x (afterEvict a0 x) := by
  unfold afterEvict
  repeat' first
    | with_reducible assumption
    | with_reducible apply OnlyChanges.refl
    | with_reducible apply OnlyChanges.ite
    | (with_reducible apply OnlyChanges.step drive_frame; (on_goal 1 => decide))
    | (with_reducible apply OnlyChanges.step homeFill_frame; (on_goal 1 => decide))
    | (with_reducible apply OnlyChanges.step releaseWrite_frame; (on_goal 1 => decide))
    | split

theorem execDovetailMerge_frame {a0} {x t : State} (h : execDovetailMerge a0 x = .next t) :
    OnlyChanges [.evr, .pmc, .trb, .sched, .tr, .prot, .per, .ck, .cache, .dram, .coh, .fab, .portA, .portB, .cxlA, .cxlB, .sec, .freeCtr, .outs] x t := by
  unfold execDovetailMerge at h
  first
    | (injection h with h; subst h)
    | (split at h <;> (first | (injection h with h; subst h) | cases h))
  all_goals
    repeat' first
      | with_reducible assumption
      | with_reducible apply OnlyChanges.refl
      | with_reducible apply OnlyChanges.ite
      | (with_reducible apply OnlyChanges.step mergeNow_frame; (on_goal 1 => decide))
      | split

theorem execLeaseProgrammed_frame {a0} {x t : State} (h : execLeaseProgrammed a0 x = .next t) :
    OnlyChanges [.evr, .pmc, .trb, .sched, .tr, .prot, .per, .ck, .cache, .dram, .coh, .fab, .portA, .portB, .cxlA, .cxlB, .sec, .freeCtr, .outs] x t := by
  unfold execLeaseProgrammed at h
  first
    | (injection h with h; subst h)
    | (split at h <;> (first | (injection h with h; subst h) | cases h))
  all_goals
    repeat' first
      | with_reducible assumption
      | with_reducible apply OnlyChanges.refl
      | (extract_lets +onlyGivenNames y; guard_hyp y : State := Prod.snd _; subst y)
      | (extract_lets +onlyGivenNames y; guard_hyp y : State := _; apply OnlyChanges.cut y; (on_goal 1 => (unfold y; clear y)); (on_goal 2 => (intro hx; clear_value y)))
      | (extract_lets +onlyGivenNames y; guard_hyp y : _ × State := _; apply OnlyChanges.cutP y; (on_goal 1 => (unfold y; clear y)); (on_goal 2 => (intro hx; clear_value y)))
      | (extract_lets +onlyGivenNames y; guard_hyp y : _ × _ × State := _; apply OnlyChanges.cutPP y; (on_goal 1 => (unfold y; clear y)); (on_goal 2 => (intro hx; clear_value y)))
      | (extract_lets +onlyGivenNames y; guard_hyp y : Boxes := _; subst y)
      | (extract_lets +onlyGivenNames y; guard_hyp y : Power := _; subst y)
      | (extract_lets +onlyGivenNames y; guard_hyp y : Trans := _; subst y)
      | (extract_lets +onlyGivenNames y; guard_hyp y : Prot := _; subst y)
      | (extract_lets +onlyGivenNames y; guard_hyp y : Persist := _; subst y)
      | (extract_lets +onlyGivenNames y; guard_hyp y : Sgl := _; subst y)
      | (extract_lets +onlyGivenNames y; guard_hyp y : Sec := _; subst y)
      | (extract_lets +onlyGivenNames y; clear_value y)
      | extract_lets +onlyGivenNames y
      | with_reducible apply OnlyChanges.ite
      | (with_reducible apply OnlyChangesP.step applyWrite_frame; (on_goal 1 => decide))
      | (with_reducible apply OnlyChangesP.snd applyWrite_frame; (on_goal 1 => decide))
      | (with_reducible apply OnlyChanges.step modMshr_frame; (on_goal 1 => decide))
      | (with_reducible apply settle_frame; (on_goal 1 => decide))
      | (with_reducible apply OnlyChanges.foldl; (on_goal 2 => intro z a))
      | (with_reducible apply OnlyChangesP.foldl; (on_goal 2 => intro z a))
      | (with_reducible apply OnlyChanges.ofPair; (on_goal 1 => assumption))
      | split
      | (with_reducible apply OnlyChanges.upd2097152; (on_goal 1 => decide); (on_goal 1 => (first | exact Or.inr (by with_reducible rfl) | exact Or.inl (by decide) | exact Or.inr rfl)); (on_goal 1 => (first | exact Or.inr (by with_reducible rfl) | exact Or.inl (by decide) | exact Or.inr rfl)); (on_goal 1 => (first | exact Or.inr (by with_reducible rfl) | exact Or.inl (by decide) | exact Or.inr rfl)))

theorem slotRead_frame {a0} {a1} {a2} {a3} {a4} {x : State} : OnlyChanges [.evr, .pmc, .trb, .sched, .tr, .prot, .per, .ck, .cache, .dram, .coh, .fab, .portA, .portB, .cxlA, .cxlB, .sec, .freeCtr, .outs] x (slotRead a0 a1 a2 a3 a4 x) := by
  unfold slotRead
  repeat' first
    | with_reducible assumption
    | with_reducible apply OnlyChanges.refl
    | (extract_lets +onlyGivenNames y; guard_hyp y : State := Prod.snd _; subst y)
    | (extract_lets +onlyGivenNames y; guard_hyp y : State := _; apply OnlyChanges.cut y; (on_goal 1 => (unfold y; clear y)); (on_goal 2 => (intro hx; clear_value y)))
    | (extract_lets +onlyGivenNames y; guard_hyp y : _ × State := _; apply OnlyChanges.cutP y; (on_goal 1 => (unfold y; clear y)); (on_goal 2 => (intro hx; clear_value y)))
    | (extract_lets +onlyGivenNames y; guard_hyp y : _ × _ × State := _; apply OnlyChanges.cutPP y; (on_goal 1 => (unfold y; clear y)); (on_goal 2 => (intro hx; clear_value y)))
    | (extract_lets +onlyGivenNames y; guard_hyp y : Boxes := _; subst y)
    | (extract_lets +onlyGivenNames y; guard_hyp y : Power := _; subst y)
    | (extract_lets +onlyGivenNames y; guard_hyp y : Trans := _; subst y)
    | (extract_lets +onlyGivenNames y; guard_hyp y : Prot := _; subst y)
    | (extract_lets +onlyGivenNames y; guard_hyp y : Persist := _; subst y)
    | (extract_lets +onlyGivenNames y; guard_hyp y : Sgl := _; subst y)
    | (extract_lets +onlyGivenNames y; guard_hyp y : Sec := _; subst y)
    | (extract_lets +onlyGivenNames y; clear_value y)
    | extract_lets +onlyGivenNames y
    | with_reducible apply OnlyChanges.ite
    | (with_reducible apply OnlyChanges.step dramWrites_frame; (on_goal 1 => decide))
    | (with_reducible apply OnlyChanges.step poisonAll_frame; (on_goal 1 => decide))
    | (with_reducible apply OnlyChanges.step dramCorrected_frame; (on_goal 1 => decide))
    | (with_reducible apply OnlyChanges.step deliverSector_frame; (on_goal 1 => decide))
    | (with_reducible apply OnlyChanges.step deliver_frame; (on_goal 1 => decide))
    | (with_reducible apply OnlyChanges.step dramUncorrectable_frame; (on_goal 1 => decide))
    | split

theorem homeTag_frame {a0} {a1} {x : State} : OnlyChangesP [.dram] x (homeTag a0 a1 x) := by
  unfold homeTag
  repeat' first
    | with_reducible assumption
    | with_reducible apply OnlyChanges.refl
    | with_reducible apply OnlyChanges.ite
    | with_reducible apply OnlyChangesP.ite
    | (with_reducible apply OnlyChanges.step dropDram_frame; (on_goal 1 => decide))
    | split
    | with_reducible apply OnlyChangesP.mk

theorem homeTagResult_frame {a0} {x : State} : OnlyChanges [.evr, .pmc, .trb, .sched, .tr, .dr, .prot, .per, .ck, .cache, .dram, .coh, .fab, .portA, .portB, .cxlA, .cxlB, .sec, .freeCtr, .outs] x (homeTagResult a0 x) := by
  unfold homeTagResult
  repeat' first
    | with_reducible assumption
    | with_reducible apply OnlyChanges.refl
    | (extract_lets +onlyGivenNames y; guard_hyp y : State := Prod.snd _; subst y)
    | (extract_lets +onlyGivenNames y; guard_hyp y : State := _; apply OnlyChanges.cut y; (on_goal 1 => (unfold y; clear y)); (on_goal 2 => (intro hx; clear_value y)))
    | (extract_lets +onlyGivenNames y; guard_hyp y : _ × State := _; apply OnlyChanges.cutP y; (on_goal 1 => (unfold y; clear y)); (on_goal 2 => (intro hx; clear_value y)))
    | (extract_lets +onlyGivenNames y; guard_hyp y : _ × _ × State := _; apply OnlyChanges.cutPP y; (on_goal 1 => (unfold y; clear y)); (on_goal 2 => (intro hx; clear_value y)))
    | (extract_lets +onlyGivenNames y; guard_hyp y : Boxes := _; subst y)
    | (extract_lets +onlyGivenNames y; guard_hyp y : Power := _; subst y)
    | (extract_lets +onlyGivenNames y; guard_hyp y : Trans := _; subst y)
    | (extract_lets +onlyGivenNames y; guard_hyp y : Prot := _; subst y)
    | (extract_lets +onlyGivenNames y; guard_hyp y : Persist := _; subst y)
    | (extract_lets +onlyGivenNames y; guard_hyp y : Sgl := _; subst y)
    | (extract_lets +onlyGivenNames y; guard_hyp y : Sec := _; subst y)
    | (extract_lets +onlyGivenNames y; clear_value y)
    | extract_lets +onlyGivenNames y
    | with_reducible apply OnlyChanges.ite
    | (with_reducible apply OnlyChanges.step dramAsk_frame; (on_goal 1 => decide))
    | (with_reducible apply OnlyChanges.step squashSpec_frame; (on_goal 1 => decide))
    | (with_reducible apply OnlyChanges.step proceedAll_frame; (on_goal 1 => decide))
    | (with_reducible apply OnlyChanges.step modMshr_frame; (on_goal 1 => decide))
    | (with_reducible apply OnlyChangesP.step homeTag_frame; (on_goal 1 => decide))
    | (with_reducible apply OnlyChangesP.snd homeTag_frame; (on_goal 1 => decide))
    | (with_reducible apply OnlyChanges.step wakeRank_frame; (on_goal 1 => decide))
    | (with_reducible apply OnlyChanges.step count_frame; (on_goal 1 => decide))
    | (with_reducible apply OnlyChanges.ofPair; (on_goal 1 => assumption))
    | split

theorem execRunAheadHint_frame {a0} {x t : State} (h : execRunAheadHint a0 x = .next t) :
    OnlyChanges [.tr] x t := by
  unfold execRunAheadHint at h
  first
    | (injection h with h; subst h)
    | (split at h <;> (first | (injection h with h; subst h) | cases h))
  all_goals
    repeat' first
      | with_reducible assumption
      | with_reducible apply OnlyChanges.refl
      | (extract_lets +onlyGivenNames y; guard_hyp y : State := Prod.snd _; subst y)
      | (extract_lets +onlyGivenNames y; guard_hyp y : State := _; apply OnlyChanges.cut y; (on_goal 1 => (unfold y; clear y)); (on_goal 2 => (intro hx; clear_value y)))
      | (extract_lets +onlyGivenNames y; guard_hyp y : _ × State := _; apply OnlyChanges.cutP y; (on_goal 1 => (unfold y; clear y)); (on_goal 2 => (intro hx; clear_value y)))
      | (extract_lets +onlyGivenNames y; guard_hyp y : _ × _ × State := _; apply OnlyChanges.cutPP y; (on_goal 1 => (unfold y; clear y)); (on_goal 2 => (intro hx; clear_value y)))
      | (extract_lets +onlyGivenNames y; guard_hyp y : Boxes := _; subst y)
      | (extract_lets +onlyGivenNames y; guard_hyp y : Power := _; subst y)
      | (extract_lets +onlyGivenNames y; guard_hyp y : Trans := _; subst y)
      | (extract_lets +onlyGivenNames y; guard_hyp y : Prot := _; subst y)
      | (extract_lets +onlyGivenNames y; guard_hyp y : Persist := _; subst y)
      | (extract_lets +onlyGivenNames y; guard_hyp y : Sgl := _; subst y)
      | (extract_lets +onlyGivenNames y; guard_hyp y : Sec := _; subst y)
      | (extract_lets +onlyGivenNames y; clear_value y)
      | extract_lets +onlyGivenNames y
      | with_reducible apply OnlyChanges.ite
      | split
      | (with_reducible apply OnlyChanges.upd128; (on_goal 1 => decide); (on_goal 1 => (first | exact Or.inr (by with_reducible rfl) | exact Or.inl (by decide) | exact Or.inr rfl)))

theorem homeDramRead_frame {a0} {a1} {a2} {x : State} : OnlyChanges [.evr, .pmc, .trb, .sched, .tr, .dr, .prot, .per, .ck, .cache, .dram, .coh, .fab, .portA, .portB, .cxlA, .cxlB, .sec, .freeCtr, .outs] x (homeDramRead a0 a1 a2 x) := by
  unfold homeDramRead
  repeat' first
    | with_reducible assumption
    | with_reducible apply OnlyChanges.refl
    | (extract_lets +onlyGivenNames y; guard_hyp y : State := Prod.snd _; subst y)
    | (extract_lets +onlyGivenNames y; guard_hyp y : State := _; apply OnlyChanges.cut y; (on_goal 1 => (unfold y; clear y)); (on_goal 2 => (intro hx; clear_value y)))
    | (extract_lets +onlyGivenNames y; guard_hyp y : _ × State := _; apply OnlyChanges.cutP y; (on_goal 1 => (unfold y; clear y)); (on_goal 2 => (intro hx; clear_value y)))
    | (extract_lets +onlyGivenNames y; guard_hyp y : _ × _ × State := _; apply OnlyChanges.cutPP y; (on_goal 1 => (unfold y; clear y)); (on_goal 2 => (intro hx; clear_value y)))
    | (extract_lets +onlyGivenNames y; guard_hyp y : Boxes := _; subst y)
    | (extract_lets +onlyGivenNames y; guard_hyp y : Power := _; subst y)
    | (extract_lets +onlyGivenNames y; guard_hyp y : Trans := _; subst y)
    | (extract_lets +onlyGivenNames y; guard_hyp y : Prot := _; subst y)
    | (extract_lets +onlyGivenNames y; guard_hyp y : Persist := _; subst y)
    | (extract_lets +onlyGivenNames y; guard_hyp y : Sgl := _; subst y)
    | (extract_lets +onlyGivenNames y; guard_hyp y : Sec := _; subst y)
    | (extract_lets +onlyGivenNames y; clear_value y)
    | extract_lets +onlyGivenNames y
    | with_reducible apply OnlyChanges.ite
    | (with_reducible apply OnlyChanges.step leftDram_frame; (on_goal 1 => decide))
    | (with_reducible apply OnlyChanges.step dramCorrected_frame; (on_goal 1 => decide))
    | (with_reducible apply OnlyChanges.step deliverSector_frame; (on_goal 1 => decide))
    | with_reducible apply OnlyChangesO.getD
    | (with_reducible apply OnlyChangesO.step dramServe_frame; (on_goal 1 => decide))
    | (apply OnlyChangesO.ofSome (h := dramServe_frame); (on_goal 1 => assumption); (on_goal 1 => decide))
    | (with_reducible apply OnlyChanges.step cacheLost_frame; (on_goal 1 => decide))
    | (with_reducible apply OnlyChanges.step dramUncorrectable_frame; (on_goal 1 => decide))
    | (with_reducible apply OnlyChanges.step slotRead_frame; (on_goal 1 => decide))
    | split

theorem execDovetailTimeout_frame {a0} {x t : State} (h : execDovetailTimeout a0 x = .next t) :
    OnlyChanges [.cache] x t := by
  unfold execDovetailTimeout at h
  first
    | (injection h with h; subst h)
    | (split at h <;> (first | (injection h with h; subst h) | cases h))
  all_goals
    repeat' first
      | with_reducible assumption
      | with_reducible apply OnlyChanges.refl
      | with_reducible apply OnlyChanges.ite
      | (with_reducible apply OnlyChanges.step closeDove_frame; (on_goal 1 => decide))
      | split

theorem execDramWriteback_frame {a0} {x t : State} (h : execDramWriteback a0 x = .next t) :
    OnlyChanges [.pmc, .dram, .freeCtr, .outs] x t := by
  unfold execDramWriteback at h
  first
    | (injection h with h; subst h)
    | (split at h <;> (first | (injection h with h; subst h) | cases h))
  all_goals
    repeat' first
      | with_reducible assumption
      | with_reducible apply OnlyChanges.refl
      | (extract_lets +onlyGivenNames y; guard_hyp y : State := Prod.snd _; subst y)
      | (extract_lets +onlyGivenNames y; guard_hyp y : State := _; apply OnlyChanges.cut y; (on_goal 1 => (unfold y; clear y)); (on_goal 2 => (intro hx; clear_value y)))
      | (extract_lets +onlyGivenNames y; guard_hyp y : _ × State := _; apply OnlyChanges.cutP y; (on_goal 1 => (unfold y; clear y)); (on_goal 2 => (intro hx; clear_value y)))
      | (extract_lets +onlyGivenNames y; guard_hyp y : _ × _ × State := _; apply OnlyChanges.cutPP y; (on_goal 1 => (unfold y; clear y)); (on_goal 2 => (intro hx; clear_value y)))
      | (extract_lets +onlyGivenNames y; guard_hyp y : Boxes := _; subst y)
      | (extract_lets +onlyGivenNames y; guard_hyp y : Power := _; subst y)
      | (extract_lets +onlyGivenNames y; guard_hyp y : Trans := _; subst y)
      | (extract_lets +onlyGivenNames y; guard_hyp y : Prot := _; subst y)
      | (extract_lets +onlyGivenNames y; guard_hyp y : Persist := _; subst y)
      | (extract_lets +onlyGivenNames y; guard_hyp y : Sgl := _; subst y)
      | (extract_lets +onlyGivenNames y; guard_hyp y : Sec := _; subst y)
      | (extract_lets +onlyGivenNames y; clear_value y)
      | extract_lets +onlyGivenNames y
      | with_reducible apply OnlyChanges.ite
      | (with_reducible apply OnlyChanges.step wakeRank_frame; (on_goal 1 => decide))
      | split
      | (with_reducible apply OnlyChanges.upd8192; (on_goal 1 => decide))

end Sys2Proof.Machine
end

