-- ==== Sys2Proof/Laws/FrameProxy.lean ====
section
/-! SUPPORT. The parts of the state that each operation of Machine/Proxy.lean may change; every other part it leaves
alone. -/

set_option linter.all false

namespace Sys2Proof.Machine

theorem recvRty_frame {a0} {a1} {a2} {x : State} : OnlyChanges [.coh] x (recvRty a0 a1 a2 x) := by
  unfold recvRty
  repeat' first
    | with_reducible assumption
    | with_reducible apply OnlyChanges.refl
    | (extract_lets +onlyGivenNames y; guard_hyp y : State := Prod.snd _; subst y)
    | (extract_lets +onlyGivenNames y; guard_hyp y : State := _; apply OnlyChanges.cut y; (on_goal 1 => (unfold y; clear y)); (on_goal 2 => (intro hx; clear_value y)))
    | (extract_lets +onlyGivenNames y; guard_hyp y : _ × State := _; apply OnlyChanges.cutP y; (on_goal 1 => (unfold y; clear y)); (on_goal 2 => (intro hx; clear_value y)))
    | (extract_lets +onlyGivenNames y; guard_hyp y : _ × _ × State := _; apply OnlyChanges.cutPP y; (on_goal 1 => (unfold y; clear y)); (on_goal 2 => (intro hx; clear_value y)))
    | (extract_lets +onlyGivenNames y; guard_hyp y : Boxes := _; subst y)
    | (extract_lets +onlyGivenNames y; guard_hyp y : Power := _; subst y)
    | (extract_lets +onlyGivenNames y; guard_hyp y : Trans := _; subst y)
    | (extract_lets +onlyGivenNames y; guard_hyp y : Prot := _; subst y)
    | (extract_lets +onlyGivenNames y; guard_hyp y : Persist := _; subst y)
    | (extract_lets +onlyGivenNames y; guard_hyp y : Sgl := _; subst y)
    | (extract_lets +onlyGivenNames y; guard_hyp y : Sec := _; subst y)
    | (extract_lets +onlyGivenNames y; clear_value y)
    | extract_lets +onlyGivenNames y
    | with_reducible apply OnlyChanges.ite
    | split
    | (with_reducible apply OnlyChanges.upd16384; (on_goal 1 => decide))

theorem execRtyH_frame {a0} {a1} {a2} {a3} {x t : State} (h : execRtyH a0 a1 a2 a3 x = .next t) :
    OnlyChanges [.coh] x t := by
  unfold execRtyH at h
  first
    | (injection h with h; subst h)
    | (split at h <;> (first | (injection h with h; subst h) | cases h))
  all_goals
    repeat' first
      | with_reducible assumption
      | with_reducible apply OnlyChanges.refl
      | with_reducible apply OnlyChanges.ite
      | (with_reducible apply OnlyChanges.step recvRty_frame; (on_goal 1 => decide))
      | split

theorem biAll_frame {a0} {a1} {x : State} : OnlyChanges [.pmc, .coh, .freeCtr, .outs] x (biAll a0 a1 x) := by
  unfold biAll
  repeat' first
    | with_reducible assumption
    | with_reducible apply OnlyChanges.refl
    | with_reducible apply OnlyChanges.ite
    | (with_reducible apply OnlyChanges.step sendBis_frame; (on_goal 1 => decide))
    | split

theorem putPx_frame {a0} {a1} {a2} {x : State} : OnlyChanges [.coh] x (putPx a0 a1 a2 x) := by
  unfold putPx
  repeat' first
    | with_reducible assumption
    | with_reducible apply OnlyChanges.refl
    | (extract_lets +onlyGivenNames y; guard_hyp y : State := Prod.snd _; subst y)
    | (extract_lets +onlyGivenNames y; guard_hyp y : State := _; apply OnlyChanges.cut y; (on_goal 1 => (unfold y; clear y)); (on_goal 2 => (intro hx; clear_value y)))
    | (extract_lets +onlyGivenNames y; guard_hyp y : _ × State := _; apply OnlyChanges.cutP y; (on_goal 1 => (unfold y; clear y)); (on_goal 2 => (intro hx; clear_value y)))
    | (extract_lets +onlyGivenNames y; guard_hyp y : _ × _ × State := _; apply OnlyChanges.cutPP y; (on_goal 1 => (unfold y; clear y)); (on_goal 2 => (intro hx; clear_value y)))
    | (extract_lets +onlyGivenNames y; guard_hyp y : Boxes := _; subst y)
    | (extract_lets +onlyGivenNames y; guard_hyp y : Power := _; subst y)
    | (extract_lets +onlyGivenNames y; guard_hyp y : Trans := _; subst y)
    | (extract_lets +onlyGivenNames y; guard_hyp y : Prot := _; subst y)
    | (extract_lets +onlyGivenNames y; guard_hyp y : Persist := _; subst y)
    | (extract_lets +onlyGivenNames y; guard_hyp y : Sgl := _; subst y)
    | (extract_lets +onlyGivenNames y; guard_hyp y : Sec := _; subst y)
    | (extract_lets +onlyGivenNames y; clear_value y)
    | extract_lets +onlyGivenNames y
    | with_reducible apply OnlyChanges.ite
    | split
    | (with_reducible apply OnlyChanges.upd16384; (on_goal 1 => decide))

theorem modPx_frame {a0} {a1} {a2} {x : State} : OnlyChanges [.coh] x (modPx a0 a1 a2 x) := by
  unfold modPx
  repeat' first
    | with_reducible assumption
    | with_reducible apply OnlyChanges.refl
    | with_reducible apply OnlyChanges.ite
    | (with_reducible apply OnlyChanges.step putPx_frame; (on_goal 1 => decide))
    | split

theorem nextTx_frame  {x : State} : OnlyChangesP [.coh] x (nextTx x) := by
  unfold nextTx
  repeat' first
    | with_reducible assumption
    | with_reducible apply OnlyChanges.refl
    | (extract_lets +onlyGivenNames y; guard_hyp y : State := Prod.snd _; subst y)
    | (extract_lets +onlyGivenNames y; guard_hyp y : State := _; apply OnlyChangesP.cut y; (on_goal 1 => (unfold y; clear y)); (on_goal 2 => (intro hx; clear_value y)))
    | (extract_lets +onlyGivenNames y; guard_hyp y : _ × State := _; apply OnlyChangesP.cutP y; (on_goal 1 => (unfold y; clear y)); (on_goal 2 => (intro hx; clear_value y)))
    | (extract_lets +onlyGivenNames y; guard_hyp y : _ × _ × State := _; apply OnlyChangesP.cutPP y; (on_goal 1 => (unfold y; clear y)); (on_goal 2 => (intro hx; clear_value y)))
    | (extract_lets +onlyGivenNames y; guard_hyp y : Boxes := _; subst y)
    | (extract_lets +onlyGivenNames y; guard_hyp y : Power := _; subst y)
    | (extract_lets +onlyGivenNames y; guard_hyp y : Trans := _; subst y)
    | (extract_lets +onlyGivenNames y; guard_hyp y : Prot := _; subst y)
    | (extract_lets +onlyGivenNames y; guard_hyp y : Persist := _; subst y)
    | (extract_lets +onlyGivenNames y; guard_hyp y : Sgl := _; subst y)
    | (extract_lets +onlyGivenNames y; guard_hyp y : Sec := _; subst y)
    | (extract_lets +onlyGivenNames y; clear_value y)
    | extract_lets +onlyGivenNames y
    | with_reducible apply OnlyChanges.ite
    | with_reducible apply OnlyChangesP.ite
    | split
    | with_reducible apply OnlyChangesP.mk
    | (with_reducible apply OnlyChanges.upd16384; (on_goal 1 => decide))

theorem dropCopy_frame {a0} {a1} {x : State} : OnlyChanges [.cache, .dram] x (dropCopy a0 a1 x) := by
  unfold dropCopy
  repeat' first
    | with_reducible assumption
    | with_reducible apply OnlyChanges.refl
    | with_reducible apply OnlyChanges.ite
    | (with_reducible apply OnlyChanges.step dropDram_frame; (on_goal 1 => decide))
    | (with_reducible apply OnlyChanges.step dropSram_frame; (on_goal 1 => decide))
    | split

theorem takeCredit_frame {a0} {x : State} : OnlyChangesP [.coh, .fab] x (takeCredit a0 x) := by
  unfold takeCredit
  repeat' first
    | with_reducible assumption
    | with_reducible apply OnlyChanges.refl
    | (extract_lets +onlyGivenNames y; guard_hyp y : State := Prod.snd _; subst y)
    | (extract_lets +onlyGivenNames y; guard_hyp y : State := _; apply OnlyChangesP.cut y; (on_goal 1 => (unfold y; clear y)); (on_goal 2 => (intro hx; clear_value y)))
    | (extract_lets +onlyGivenNames y; guard_hyp y : _ × State := _; apply OnlyChangesP.cutP y; (on_goal 1 => (unfold y; clear y)); (on_goal 2 => (intro hx; clear_value y)))
    | (extract_lets +onlyGivenNames y; guard_hyp y : _ × _ × State := _; apply OnlyChangesP.cutPP y; (on_goal 1 => (unfold y; clear y)); (on_goal 2 => (intro hx; clear_value y)))
    | (extract_lets +onlyGivenNames y; guard_hyp y : Boxes := _; subst y)
    | (extract_lets +onlyGivenNames y; guard_hyp y : Power := _; subst y)
    | (extract_lets +onlyGivenNames y; guard_hyp y : Trans := _; subst y)
    | (extract_lets +onlyGivenNames y; guard_hyp y : Prot := _; subst y)
    | (extract_lets +onlyGivenNames y; guard_hyp y : Persist := _; subst y)
    | (extract_lets +onlyGivenNames y; guard_hyp y : Sgl := _; subst y)
    | (extract_lets +onlyGivenNames y; guard_hyp y : Sec := _; subst y)
    | (extract_lets +onlyGivenNames y; clear_value y)
    | extract_lets +onlyGivenNames y
    | with_reducible apply OnlyChanges.ite
    | with_reducible apply OnlyChangesP.ite
    | split
    | with_reducible apply OnlyChangesP.mk
    | (with_reducible apply OnlyChanges.upd81920; (on_goal 1 => decide))

theorem sendEvx_frame {a0} {a1} {a2} {x : State} : OnlyChangesP [.cache, .dram, .coh, .fab, .outs] x (sendEvx a0 a1 a2 x) := by
  unfold sendEvx
  repeat' first
    | with_reducible assumption
    | with_reducible apply OnlyChanges.refl
    | (extract_lets +onlyGivenNames y; guard_hyp y : State := Prod.snd _; subst y)
    | (extract_lets +onlyGivenNames y; guard_hyp y : State := _; apply OnlyChangesP.cut y; (on_goal 1 => (unfold y; clear y)); (on_goal 2 => (intro hx; clear_value y)))
    | (extract_lets +onlyGivenNames y; guard_hyp y : _ × State := _; apply OnlyChangesP.cutP y; (on_goal 1 => (unfold y; clear y)); (on_goal 2 => (intro hx; clear_value y)))
    | (extract_lets +onlyGivenNames y; guard_hyp y : _ × _ × State := _; apply OnlyChangesP.cutPP y; (on_goal 1 => (unfold y; clear y)); (on_goal 2 => (intro hx; clear_value y)))
    | (extract_lets +onlyGivenNames y; guard_hyp y : Boxes := _; subst y)
    | (extract_lets +onlyGivenNames y; guard_hyp y : Power := _; subst y)
    | (extract_lets +onlyGivenNames y; guard_hyp y : Trans := _; subst y)
    | (extract_lets +onlyGivenNames y; guard_hyp y : Prot := _; subst y)
    | (extract_lets +onlyGivenNames y; guard_hyp y : Persist := _; subst y)
    | (extract_lets +onlyGivenNames y; guard_hyp y : Sgl := _; subst y)
    | (extract_lets +onlyGivenNames y; guard_hyp y : Sec := _; subst y)
    | (extract_lets +onlyGivenNames y; clear_value y)
    | extract_lets +onlyGivenNames y
    | with_reducible apply OnlyChanges.ite
    | with_reducible apply OnlyChangesP.ite
    | (with_reducible apply OnlyChanges.step sendMsg_frame; (on_goal 1 => decide))
    | (with_reducible apply OnlyChanges.step modPx_frame; (on_goal 1 => decide))
    | (with_reducible apply OnlyChangesP.step nextTx_frame; (on_goal 1 => decide))
    | (with_reducible apply OnlyChangesP.snd nextTx_frame; (on_goal 1 => decide))
    | (with_reducible apply OnlyChanges.step dropCopy_frame; (on_goal 1 => decide))
    | (with_reducible apply OnlyChangesP.step takeCredit_frame; (on_goal 1 => decide))
    | (with_reducible apply OnlyChangesP.snd takeCredit_frame; (on_goal 1 => decide))
    | (with_reducible apply OnlyChanges.ofPair; (on_goal 1 => assumption))
    | split
    | with_reducible apply OnlyChangesP.mk

theorem stepLeave_frame {a0} {a1} {x : State} : OnlyChangesN [.pmc, .cache, .dram, .coh, .fab, .freeCtr, .outs] x (stepLeave a0 a1 x) := by
  unfold stepLeave
  repeat' first
    | with_reducible assumption
    | with_reducible apply OnlyChanges.refl
    | (extract_lets +onlyGivenNames y; guard_hyp y : State := Prod.snd _; subst y)
    | (extract_lets +onlyGivenNames y; guard_hyp y : State := _; apply OnlyChangesN.cut y; (on_goal 1 => (unfold y; clear y)); (on_goal 2 => (intro hx; clear_value y)))
    | (extract_lets +onlyGivenNames y; guard_hyp y : _ × State := _; apply OnlyChangesN.cutP y; (on_goal 1 => (unfold y; clear y)); (on_goal 2 => (intro hx; clear_value y)))
    | (extract_lets +onlyGivenNames y; guard_hyp y : _ × _ × State := _; apply OnlyChangesN.cutPP y; (on_goal 1 => (unfold y; clear y)); (on_goal 2 => (intro hx; clear_value y)))
    | (extract_lets +onlyGivenNames y; guard_hyp y : Boxes := _; subst y)
    | (extract_lets +onlyGivenNames y; guard_hyp y : Power := _; subst y)
    | (extract_lets +onlyGivenNames y; guard_hyp y : Trans := _; subst y)
    | (extract_lets +onlyGivenNames y; guard_hyp y : Prot := _; subst y)
    | (extract_lets +onlyGivenNames y; guard_hyp y : Persist := _; subst y)
    | (extract_lets +onlyGivenNames y; guard_hyp y : Sgl := _; subst y)
    | (extract_lets +onlyGivenNames y; guard_hyp y : Sec := _; subst y)
    | (extract_lets +onlyGivenNames y; clear_value y)
    | extract_lets +onlyGivenNames y
    | with_reducible apply OnlyChanges.ite
    | with_reducible apply OnlyChangesN.none
    | with_reducible apply OnlyChangesN.some
    | with_reducible apply OnlyChangesN.ite
    | with_reducible apply OnlyChangesN.orElse
    | with_reducible apply OnlyChangesP.ite
    | (with_reducible apply OnlyChanges.step biAll_frame; (on_goal 1 => decide))
    | (with_reducible apply OnlyChanges.step sendMsg_frame; (on_goal 1 => decide))
    | (with_reducible apply OnlyChanges.step modPx_frame; (on_goal 1 => decide))
    | (with_reducible apply OnlyChangesP.step nextTx_frame; (on_goal 1 => decide))
    | (with_reducible apply OnlyChangesP.snd nextTx_frame; (on_goal 1 => decide))
    | (with_reducible apply OnlyChangesP.step sendEvx_frame; (on_goal 1 => decide))
    | (with_reducible apply OnlyChangesP.snd sendEvx_frame; (on_goal 1 => decide))
    | (with_reducible apply OnlyChanges.step dropCopy_frame; (on_goal 1 => decide))
    | (with_reducible apply OnlyChanges.ofPair; (on_goal 1 => assumption))
    | split
    | with_reducible apply OnlyChangesP.mk

theorem sendWrt_frame {a0} {a1} {a2} {a3} {a4} {x : State} : OnlyChanges [.coh, .fab, .outs] x (sendWrt a0 a1 a2 a3 a4 x) := by
  unfold sendWrt
  repeat' first
    | with_reducible assumption
    | with_reducible apply OnlyChanges.refl
    | (extract_lets +onlyGivenNames y; guard_hyp y : State := Prod.snd _; subst y)
    | (extract_lets +onlyGivenNames y; guard_hyp y : State := _; apply OnlyChanges.cut y; (on_goal 1 => (unfold y; clear y)); (on_goal 2 => (intro hx; clear_value y)))
    | (extract_lets +onlyGivenNames y; guard_hyp y : _ × State := _; apply OnlyChanges.cutP y; (on_goal 1 => (unfold y; clear y)); (on_goal 2 => (intro hx; clear_value y)))
    | (extract_lets +onlyGivenNames y; guard_hyp y : _ × _ × State := _; apply OnlyChanges.cutPP y; (on_goal 1 => (unfold y; clear y)); (on_goal 2 => (intro hx; clear_value y)))
    | (extract_lets +onlyGivenNames y; guard_hyp y : Boxes := _; subst y)
    | (extract_lets +onlyGivenNames y; guard_hyp y : Power := _; subst y)
    | (extract_lets +onlyGivenNames y; guard_hyp y : Trans := _; subst y)
    | (extract_lets +onlyGivenNames y; guard_hyp y : Prot := _; subst y)
    | (extract_lets +onlyGivenNames y; guard_hyp y : Persist := _; subst y)
    | (extract_lets +onlyGivenNames y; guard_hyp y : Sgl := _; subst y)
    | (extract_lets +onlyGivenNames y; guard_hyp y : Sec := _; subst y)
    | (extract_lets +onlyGivenNames y; clear_value y)
    | extract_lets +onlyGivenNames y
    | with_reducible apply OnlyChanges.ite
    | (with_reducible apply OnlyChanges.step sendMsg_frame; (on_goal 1 => decide))
    | (with_reducible apply OnlyChanges.step modPx_frame; (on_goal 1 => decide))
    | (with_reducible apply OnlyChangesP.step takeCredit_frame; (on_goal 1 => decide))
    | (with_reducible apply OnlyChangesP.snd takeCredit_frame; (on_goal 1 => decide))
    | (with_reducible apply OnlyChanges.ofPair; (on_goal 1 => assumption))
    | split

theorem storeCopy_frame {a0} {a1} {a2} {a3} {x : State} : OnlyChanges [.pmc, .cache, .dram, .freeCtr, .outs] x (storeCopy a0 a1 a2 a3 x) := by
  unfold storeCopy
  repeat' first
    | with_reducible assumption
    | with_reducible apply OnlyChanges.refl
    | (extract_lets +onlyGivenNames y; guard_hyp y : State := Prod.snd _; subst y)
    | (extract_lets +onlyGivenNames y; guard_hyp y : State := _; apply OnlyChanges.cut y; (on_goal 1 => (unfold y; clear y)); (on_goal 2 => (intro hx; clear_value y)))
    | (extract_lets +onlyGivenNames y; guard_hyp y : _ × State := _; apply OnlyChanges.cutP y; (on_goal 1 => (unfold y; clear y)); (on_goal 2 => (intro hx; clear_value y)))
    | (extract_lets +onlyGivenNames y; guard_hyp y : _ × _ × State := _; apply OnlyChanges.cutPP y; (on_goal 1 => (unfold y; clear y)); (on_goal 2 => (intro hx; clear_value y)))
    | (extract_lets +onlyGivenNames y; guard_hyp y : Boxes := _; subst y)
    | (extract_lets +onlyGivenNames y; guard_hyp y : Power := _; subst y)
    | (extract_lets +onlyGivenNames y; guard_hyp y : Trans := _; subst y)
    | (extract_lets +onlyGivenNames y; guard_hyp y : Prot := _; subst y)
    | (extract_lets +onlyGivenNames y; guard_hyp y : Persist := _; subst y)
    | (extract_lets +onlyGivenNames y; guard_hyp y : Sgl := _; subst y)
    | (extract_lets +onlyGivenNames y; guard_hyp y : Sec := _; subst y)
    | (extract_lets +onlyGivenNames y; clear_value y)
    | extract_lets +onlyGivenNames y
    | with_reducible apply OnlyChanges.ite
    | (with_reducible apply OnlyChanges.step dropDram_frame; (on_goal 1 => decide))
    | (with_reducible apply OnlyChanges.step installLine_frame; (on_goal 1 => decide))
    | (with_reducible apply OnlyChanges.step installDram_frame; (on_goal 1 => decide))
    | split

theorem mergeCopy_frame {a0} {a1} {a2} {x : State} : OnlyChanges [.pmc, .cache, .dram, .freeCtr, .outs] x (mergeCopy a0 a1 a2 x) := by
  unfold mergeCopy
  repeat' first
    | with_reducible assumption
    | with_reducible apply OnlyChanges.refl
    | with_reducible apply OnlyChanges.ite
    | (with_reducible apply OnlyChanges.step storeCopy_frame; (on_goal 1 => decide))
    | split

theorem stepPull_frame {a0} {a1} {x : State} : OnlyChangesN [.pmc, .cache, .dram, .coh, .fab, .freeCtr, .outs] x (stepPull a0 a1 x) := by
  unfold stepPull
  repeat' first
    | with_reducible assumption
    | with_reducible apply OnlyChanges.refl
    | (extract_lets +onlyGivenNames y; guard_hyp y : State := Prod.snd _; subst y)
    | (extract_lets +onlyGivenNames y; guard_hyp y : State := _; apply OnlyChangesN.cut y; (on_goal 1 => (unfold y; clear y)); (on_goal 2 => (intro hx; clear_value y)))
    | (extract_lets +onlyGivenNames y; guard_hyp y : _ × State := _; apply OnlyChangesN.cutP y; (on_goal 1 => (unfold y; clear y)); (on_goal 2 => (intro hx; clear_value y)))
    | (extract_lets +onlyGivenNames y; guard_hyp y : _ × _ × State := _; apply OnlyChangesN.cutPP y; (on_goal 1 => (unfold y; clear y)); (on_goal 2 => (intro hx; clear_value y)))
    | (extract_lets +onlyGivenNames y; guard_hyp y : Boxes := _; subst y)
    | (extract_lets +onlyGivenNames y; guard_hyp y : Power := _; subst y)
    | (extract_lets +onlyGivenNames y; guard_hyp y : Trans := _; subst y)
    | (extract_lets +onlyGivenNames y; guard_hyp y : Prot := _; subst y)
    | (extract_lets +onlyGivenNames y; guard_hyp y : Persist := _; subst y)
    | (extract_lets +onlyGivenNames y; guard_hyp y : Sgl := _; subst y)
    | (extract_lets +onlyGivenNames y; guard_hyp y : Sec := _; subst y)
    | (extract_lets +onlyGivenNames y; clear_value y)
    | extract_lets +onlyGivenNames y
    | with_reducible apply OnlyChanges.ite
    | with_reducible apply OnlyChangesN.none
    | with_reducible apply OnlyChangesN.some
    | with_reducible apply OnlyChangesN.ite
    | with_reducible apply OnlyChangesN.orElse
    | with_reducible apply OnlyChangesP.ite
    | (with_reducible apply OnlyChanges.step modPx_frame; (on_goal 1 => decide))
    | (with_reducible apply OnlyChangesP.step nextTx_frame; (on_goal 1 => decide))
    | (with_reducible apply OnlyChangesP.snd nextTx_frame; (on_goal 1 => decide))
    | (with_reducible apply OnlyChanges.step sendWrt_frame; (on_goal 1 => decide))
    | (with_reducible apply OnlyChanges.step mergeCopy_frame; (on_goal 1 => decide))
    | (with_reducible apply OnlyChanges.ofPair; (on_goal 1 => assumption))
    | split
    | with_reducible apply OnlyChangesP.mk

theorem sendRsp_frame {a0} {a1} {a2} {a3} {a4} {x : State} : OnlyChanges [.fab, .outs] x (sendRsp a0 a1 a2 a3 a4 x) := by
  unfold sendRsp
  repeat' first
    | with_reducible assumption
    | with_reducible apply OnlyChanges.refl
    | (extract_lets +onlyGivenNames y; guard_hyp y : State := Prod.snd _; subst y)
    | (extract_lets +onlyGivenNames y; guard_hyp y : State := _; apply OnlyChanges.cut y; (on_goal 1 => (unfold y; clear y)); (on_goal 2 => (intro hx; clear_value y)))
    | (extract_lets +onlyGivenNames y; guard_hyp y : _ × State := _; apply OnlyChanges.cutP y; (on_goal 1 => (unfold y; clear y)); (on_goal 2 => (intro hx; clear_value y)))
    | (extract_lets +onlyGivenNames y; guard_hyp y : _ × _ × State := _; apply OnlyChanges.cutPP y; (on_goal 1 => (unfold y; clear y)); (on_goal 2 => (intro hx; clear_value y)))
    | (extract_lets +onlyGivenNames y; guard_hyp y : Boxes := _; subst y)
    | (extract_lets +onlyGivenNames y; guard_hyp y : Power := _; subst y)
    | (extract_lets +onlyGivenNames y; guard_hyp y : Trans := _; subst y)
    | (extract_lets +onlyGivenNames y; guard_hyp y : Prot := _; subst y)
    | (extract_lets +onlyGivenNames y; guard_hyp y : Persist := _; subst y)
    | (extract_lets +onlyGivenNames y; guard_hyp y : Sgl := _; subst y)
    | (extract_lets +onlyGivenNames y; guard_hyp y : Sec := _; subst y)
    | (extract_lets +onlyGivenNames y; clear_value y)
    | extract_lets +onlyGivenNames y
    | with_reducible apply OnlyChanges.ite
    | (with_reducible apply OnlyChanges.step sendMsg_frame; (on_goal 1 => decide))
    | split

theorem stepInv_frame {a0} {a1} {x : State} : OnlyChangesN [.pmc, .cache, .dram, .coh, .fab, .freeCtr, .outs] x (stepInv a0 a1 x) := by
  unfold stepInv
  repeat' first
    | with_reducible assumption
    | with_reducible apply OnlyChanges.refl
    | (extract_lets +onlyGivenNames y; guard_hyp y : State := Prod.snd _; subst y)
    | (extract_lets +onlyGivenNames y; guard_hyp y : State := _; apply OnlyChangesN.cut y; (on_goal 1 => (unfold y; clear y)); (on_goal 2 => (intro hx; clear_value y)))
    | (extract_lets +onlyGivenNames y; guard_hyp y : _ × State := _; apply OnlyChangesN.cutP y; (on_goal 1 => (unfold y; clear y)); (on_goal 2 => (intro hx; clear_value y)))
    | (extract_lets +onlyGivenNames y; guard_hyp y : _ × _ × State := _; apply OnlyChangesN.cutPP y; (on_goal 1 => (unfold y; clear y)); (on_goal 2 => (intro hx; clear_value y)))
    | (extract_lets +onlyGivenNames y; guard_hyp y : Boxes := _; subst y)
    | (extract_lets +onlyGivenNames y; guard_hyp y : Power := _; subst y)
    | (extract_lets +onlyGivenNames y; guard_hyp y : Trans := _; subst y)
    | (extract_lets +onlyGivenNames y; guard_hyp y : Prot := _; subst y)
    | (extract_lets +onlyGivenNames y; guard_hyp y : Persist := _; subst y)
    | (extract_lets +onlyGivenNames y; guard_hyp y : Sgl := _; subst y)
    | (extract_lets +onlyGivenNames y; guard_hyp y : Sec := _; subst y)
    | (extract_lets +onlyGivenNames y; clear_value y)
    | extract_lets +onlyGivenNames y
    | with_reducible apply OnlyChanges.ite
    | with_reducible apply OnlyChangesN.none
    | with_reducible apply OnlyChangesN.some
    | with_reducible apply OnlyChangesN.ite
    | with_reducible apply OnlyChangesN.orElse
    | with_reducible apply OnlyChangesP.ite
    | (with_reducible apply OnlyChanges.step biAll_frame; (on_goal 1 => decide))
    | (with_reducible apply OnlyChanges.step modPx_frame; (on_goal 1 => decide))
    | (with_reducible apply OnlyChanges.step sendRsp_frame; (on_goal 1 => decide))
    | (with_reducible apply OnlyChanges.step dropCopy_frame; (on_goal 1 => decide))
    | split
    | with_reducible apply OnlyChangesP.mk

theorem readCopy_frame {a0} {a1} {a2} {x : State} : OnlyChangesP [.pmc, .trb, .cache, .dram, .coh, .fab, .portA, .portB, .freeCtr, .outs] x (readCopy a0 a1 a2 x) := by
  unfold readCopy
  repeat' first
    | with_reducible assumption
    | with_reducible apply OnlyChanges.refl
    | (extract_lets +onlyGivenNames y; guard_hyp y : State := Prod.snd _; subst y)
    | (extract_lets +onlyGivenNames y; guard_hyp y : State := _; apply OnlyChangesP.cut y; (on_goal 1 => (unfold y; clear y)); (on_goal 2 => (intro hx; clear_value y)))
    | (extract_lets +onlyGivenNames y; guard_hyp y : _ × State := _; apply OnlyChangesP.cutP y; (on_goal 1 => (unfold y; clear y)); (on_goal 2 => (intro hx; clear_value y)))
    | (extract_lets +onlyGivenNames y; guard_hyp y : _ × _ × State := _; apply OnlyChangesP.cutPP y; (on_goal 1 => (unfold y; clear y)); (on_goal 2 => (intro hx; clear_value y)))
    | (extract_lets +onlyGivenNames y; guard_hyp y : Boxes := _; subst y)
    | (extract_lets +onlyGivenNames y; guard_hyp y : Power := _; subst y)
    | (extract_lets +onlyGivenNames y; guard_hyp y : Trans := _; subst y)
    | (extract_lets +onlyGivenNames y; guard_hyp y : Prot := _; subst y)
    | (extract_lets +onlyGivenNames y; guard_hyp y : Persist := _; subst y)
    | (extract_lets +onlyGivenNames y; guard_hyp y : Sgl := _; subst y)
    | (extract_lets +onlyGivenNames y; guard_hyp y : Sec := _; subst y)
    | (extract_lets +onlyGivenNames y; clear_value y)
    | extract_lets +onlyGivenNames y
    | with_reducible apply OnlyChanges.ite
    | with_reducible apply OnlyChangesP.ite
    | (with_reducible apply OnlyChanges.step beginEvict_frame; (on_goal 1 => decide))
    | (with_reducible apply OnlyChanges.step touch_frame; (on_goal 1 => decide))
    | (with_reducible apply OnlyChanges.step answer_frame; (on_goal 1 => decide))
    | (with_reducible apply OnlyChanges.step putMshr_frame; (on_goal 1 => decide))
    | (with_reducible apply OnlyChanges.step count_frame; (on_goal 1 => decide))
    | split
    | with_reducible apply OnlyChangesP.mk

theorem hostWrt_frame {a0} {a1} {a2} {a3} {x : State} : OnlyChangesP [.pmc, .cache, .dram, .coh, .fab, .freeCtr, .outs] x (hostWrt a0 a1 a2 a3 x) := by
  unfold hostWrt
  repeat' first
    | with_reducible assumption
    | with_reducible apply OnlyChanges.refl
    | (extract_lets +onlyGivenNames y; guard_hyp y : State := Prod.snd _; subst y)
    | (extract_lets +onlyGivenNames y; guard_hyp y : State := _; apply OnlyChangesP.cut y; (on_goal 1 => (unfold y; clear y)); (on_goal 2 => (intro hx; clear_value y)))
    | (extract_lets +onlyGivenNames y; guard_hyp y : _ × State := _; apply OnlyChangesP.cutP y; (on_goal 1 => (unfold y; clear y)); (on_goal 2 => (intro hx; clear_value y)))
    | (extract_lets +onlyGivenNames y; guard_hyp y : _ × _ × State := _; apply OnlyChangesP.cutPP y; (on_goal 1 => (unfold y; clear y)); (on_goal 2 => (intro hx; clear_value y)))
    | (extract_lets +onlyGivenNames y; guard_hyp y : Boxes := _; subst y)
    | (extract_lets +onlyGivenNames y; guard_hyp y : Power := _; subst y)
    | (extract_lets +onlyGivenNames y; guard_hyp y : Trans := _; subst y)
    | (extract_lets +onlyGivenNames y; guard_hyp y : Prot := _; subst y)
    | (extract_lets +onlyGivenNames y; guard_hyp y : Persist := _; subst y)
    | (extract_lets +onlyGivenNames y; guard_hyp y : Sgl := _; subst y)
    | (extract_lets +onlyGivenNames y; guard_hyp y : Sec := _; subst y)
    | (extract_lets +onlyGivenNames y; clear_value y)
    | extract_lets +onlyGivenNames y
    | with_reducible apply OnlyChanges.ite
    | with_reducible apply OnlyChangesP.ite
    | (with_reducible apply OnlyChanges.step modPx_frame; (on_goal 1 => decide))
    | (with_reducible apply OnlyChangesP.step nextTx_frame; (on_goal 1 => decide))
    | (with_reducible apply OnlyChangesP.snd nextTx_frame; (on_goal 1 => decide))
    | (with_reducible apply OnlyChanges.step sendWrt_frame; (on_goal 1 => decide))
    | (with_reducible apply OnlyChanges.step setHolding_frame; (on_goal 1 => decide))
    | (with_reducible apply OnlyChanges.step mergeCopy_frame; (on_goal 1 => decide))
    | (with_reducible apply OnlyChanges.step dropCopy_frame; (on_goal 1 => decide))
    | (with_reducible apply OnlyChanges.ofPair; (on_goal 1 => assumption))
    | split
    | with_reducible apply OnlyChangesP.mk
    | (with_reducible apply OnlyChanges.upd65536; (on_goal 1 => decide))

theorem sendReq_frame {a0} {a1} {a2} {a3} {a4} {x : State} : OnlyChanges [.cache, .coh, .fab, .outs] x (sendReq a0 a1 a2 a3 a4 x) := by
  unfold sendReq
  repeat' first
    | with_reducible assumption
    | with_reducible apply OnlyChanges.refl
    | (extract_lets +onlyGivenNames y; guard_hyp y : State := Prod.snd _; subst y)
    | (extract_lets +onlyGivenNames y; guard_hyp y : State := _; apply OnlyChanges.cut y; (on_goal 1 => (unfold y; clear y)); (on_goal 2 => (intro hx; clear_value y)))
    | (extract_lets +onlyGivenNames y; guard_hyp y : _ × State := _; apply OnlyChanges.cutP y; (on_goal 1 => (unfold y; clear y)); (on_goal 2 => (intro hx; clear_value y)))
    | (extract_lets +onlyGivenNames y; guard_hyp y : _ × _ × State := _; apply OnlyChanges.cutPP y; (on_goal 1 => (unfold y; clear y)); (on_goal 2 => (intro hx; clear_value y)))
    | (extract_lets +onlyGivenNames y; guard_hyp y : Boxes := _; subst y)
    | (extract_lets +onlyGivenNames y; guard_hyp y : Power := _; subst y)
    | (extract_lets +onlyGivenNames y; guard_hyp y : Trans := _; subst y)
    | (extract_lets +onlyGivenNames y; guard_hyp y : Prot := _; subst y)
    | (extract_lets +onlyGivenNames y; guard_hyp y : Persist := _; subst y)
    | (extract_lets +onlyGivenNames y; guard_hyp y : Sgl := _; subst y)
    | (extract_lets +onlyGivenNames y; guard_hyp y : Sec := _; subst y)
    | (extract_lets +onlyGivenNames y; clear_value y)
    | extract_lets +onlyGivenNames y
    | with_reducible apply OnlyChanges.ite
    | (with_reducible apply OnlyChanges.step sendMsg_frame; (on_goal 1 => decide))
    | (with_reducible apply OnlyChanges.step modPx_frame; (on_goal 1 => decide))
    | (with_reducible apply OnlyChangesP.step nextTx_frame; (on_goal 1 => decide))
    | (with_reducible apply OnlyChangesP.snd nextTx_frame; (on_goal 1 => decide))
    | (with_reducible apply OnlyChanges.step notePeak_frame; (on_goal 1 => decide))
    | (with_reducible apply OnlyChanges.ofPair; (on_goal 1 => assumption))
    | split

theorem serveInvalid_frame {a0} {a1} {a2} {x : State} : OnlyChangesP [.pmc, .cache, .dram, .coh, .fab, .freeCtr, .outs] x (serveInvalid a0 a1 a2 x) := by
  unfold serveInvalid
  repeat' first
    | with_reducible assumption
    | with_reducible apply OnlyChanges.refl
    | with_reducible apply OnlyChanges.ite
    | with_reducible apply OnlyChangesP.ite
    | (with_reducible apply OnlyChangesP.step hostWrt_frame; (on_goal 1 => decide))
    | (with_reducible apply OnlyChangesP.snd hostWrt_frame; (on_goal 1 => decide))
    | (with_reducible apply OnlyChanges.step sendReq_frame; (on_goal 1 => decide))
    | (with_reducible apply OnlyChanges.ofPair; (on_goal 1 => assumption))
    | split
    | with_reducible apply OnlyChangesP.mk

theorem leaveFirst_frame {a0} {a1} {x : State} : OnlyChangesP [.coh] x (leaveFirst a0 a1 x) := by
  unfold leaveFirst
  repeat' first
    | with_reducible assumption
    | with_reducible apply OnlyChanges.refl
    | with_reducible apply OnlyChanges.ite
    | with_reducible apply OnlyChangesP.ite
    | (with_reducible apply OnlyChanges.step modPx_frame; (on_goal 1 => decide))
    | split
    | with_reducible apply OnlyChangesP.mk

theorem askBi_frame {a0} {a1} {a2} {x : State} : OnlyChangesP [.pmc, .coh, .freeCtr, .outs] x (askBi a0 a1 a2 x) := by
  unfold askBi
  repeat' first
    | with_reducible assumption
    | with_reducible apply OnlyChanges.refl
    | with_reducible apply OnlyChanges.ite
    | with_reducible apply OnlyChangesP.ite
    | (with_reducible apply OnlyChanges.step sendBis_frame; (on_goal 1 => decide))
    | (with_reducible apply OnlyChanges.step modPx_frame; (on_goal 1 => decide))
    | split
    | with_reducible apply OnlyChangesP.mk

theorem serveShared_frame {a0} {a1} {a2} {x : State} : OnlyChangesP [.pmc, .trb, .cache, .dram, .coh, .fab, .portA, .portB, .freeCtr, .outs] x (serveShared a0 a1 a2 x) := by
  unfold serveShared
  repeat' first
    | with_reducible assumption
    | with_reducible apply OnlyChanges.refl
    | with_reducible apply OnlyChanges.ite
    | with_reducible apply OnlyChangesP.ite
    | (with_reducible apply OnlyChangesP.step askBi_frame; (on_goal 1 => decide))
    | (with_reducible apply OnlyChangesP.snd askBi_frame; (on_goal 1 => decide))
    | (with_reducible apply OnlyChangesP.step hostWrt_frame; (on_goal 1 => decide))
    | (with_reducible apply OnlyChangesP.snd hostWrt_frame; (on_goal 1 => decide))
    | (with_reducible apply OnlyChangesP.step readCopy_frame; (on_goal 1 => decide))
    | (with_reducible apply OnlyChangesP.snd readCopy_frame; (on_goal 1 => decide))
    | (with_reducible apply OnlyChanges.step sendReq_frame; (on_goal 1 => decide))
    | (with_reducible apply OnlyChanges.ofPair; (on_goal 1 => assumption))
    | split
    | with_reducible apply OnlyChangesP.mk

theorem serveOwner_frame {a0} {a1} {a2} {x : State} : OnlyChangesP [.pmc, .trb, .cache, .dram, .coh, .fab, .portA, .portB, .freeCtr, .outs] x (serveOwner a0 a1 a2 x) := by
  unfold serveOwner
  repeat' first
    | with_reducible assumption
    | with_reducible apply OnlyChanges.refl
    | (extract_lets +onlyGivenNames y; guard_hyp y : State := Prod.snd _; subst y)
    | (extract_lets +onlyGivenNames y; guard_hyp y : State := _; apply OnlyChangesP.cut y; (on_goal 1 => (unfold y; clear y)); (on_goal 2 => (intro hx; clear_value y)))
    | (extract_lets +onlyGivenNames y; guard_hyp y : _ × State := _; apply OnlyChangesP.cutP y; (on_goal 1 => (unfold y; clear y)); (on_goal 2 => (intro hx; clear_value y)))
    | (extract_lets +onlyGivenNames y; guard_hyp y : _ × _ × State := _; apply OnlyChangesP.cutPP y; (on_goal 1 => (unfold y; clear y)); (on_goal 2 => (intro hx; clear_value y)))
    | (extract_lets +onlyGivenNames y; guard_hyp y : Boxes := _; subst y)
    | (extract_lets +onlyGivenNames y; guard_hyp y : Power := _; subst y)
    | (extract_lets +onlyGivenNames y; guard_hyp y : Trans := _; subst y)
    | (extract_lets +onlyGivenNames y; guard_hyp y : Prot := _; subst y)
    | (extract_lets +onlyGivenNames y; guard_hyp y : Persist := _; subst y)
    | (extract_lets +onlyGivenNames y; guard_hyp y : Sgl := _; subst y)
    | (extract_lets +onlyGivenNames y; guard_hyp y : Sec := _; subst y)
    | (extract_lets +onlyGivenNames y; clear_value y)
    | extract_lets +onlyGivenNames y
    | with_reducible apply OnlyChanges.ite
    | with_reducible apply OnlyChangesP.ite
    | (with_reducible apply OnlyChangesP.step askBi_frame; (on_goal 1 => decide))
    | (with_reducible apply OnlyChangesP.snd askBi_frame; (on_goal 1 => decide))
    | (with_reducible apply OnlyChangesP.step hostWrt_frame; (on_goal 1 => decide))
    | (with_reducible apply OnlyChangesP.snd hostWrt_frame; (on_goal 1 => decide))
    | (with_reducible apply OnlyChangesP.step readCopy_frame; (on_goal 1 => decide))
    | (with_reducible apply OnlyChangesP.snd readCopy_frame; (on_goal 1 => decide))
    | (with_reducible apply OnlyChanges.ofPair; (on_goal 1 => assumption))
    | split
    | with_reducible apply OnlyChangesP.mk

theorem serveFirst_frame {a0} {a1} {a2} {x : State} : OnlyChangesP [.pmc, .trb, .cache, .dram, .coh, .fab, .portA, .portB, .freeCtr, .outs] x (serveFirst a0 a1 a2 x) := by
  unfold serveFirst
  repeat' first
    | with_reducible assumption
    | with_reducible apply OnlyChanges.refl
    | with_reducible apply OnlyChanges.ite
    | with_reducible apply OnlyChangesP.ite
    | (with_reducible apply OnlyChangesP.step readCopy_frame; (on_goal 1 => decide))
    | (with_reducible apply OnlyChangesP.snd readCopy_frame; (on_goal 1 => decide))
    | (with_reducible apply OnlyChanges.step modPx_frame; (on_goal 1 => decide))
    | (with_reducible apply OnlyChangesP.step serveInvalid_frame; (on_goal 1 => decide))
    | (with_reducible apply OnlyChangesP.snd serveInvalid_frame; (on_goal 1 => decide))
    | (with_reducible apply OnlyChangesP.step leaveFirst_frame; (on_goal 1 => decide))
    | (with_reducible apply OnlyChangesP.snd leaveFirst_frame; (on_goal 1 => decide))
    | (with_reducible apply OnlyChangesP.step serveShared_frame; (on_goal 1 => decide))
    | (with_reducible apply OnlyChangesP.snd serveShared_frame; (on_goal 1 => decide))
    | (with_reducible apply OnlyChangesP.step serveOwner_frame; (on_goal 1 => decide))
    | (with_reducible apply OnlyChangesP.snd serveOwner_frame; (on_goal 1 => decide))
    | (with_reducible apply OnlyChanges.ofPair; (on_goal 1 => assumption))
    | split
    | with_reducible apply OnlyChangesP.mk

theorem popFirst_frame {a0} {a1} {a2} {x : State} : OnlyChanges [.coh] x (popFirst a0 a1 a2 x) := by
  unfold popFirst
  repeat' first
    | with_reducible assumption
    | with_reducible apply OnlyChanges.refl
    | with_reducible apply OnlyChanges.ite
    | (with_reducible apply OnlyChanges.step modPx_frame; (on_goal 1 => decide))
    | split

theorem stepHost_frame {a0} {a1} {x : State} : OnlyChangesN [.pmc, .trb, .cache, .dram, .coh, .fab, .portA, .portB, .freeCtr, .outs] x (stepHost a0 a1 x) := by
  unfold stepHost
  repeat' first
    | with_reducible assumption
    | with_reducible apply OnlyChanges.refl
    | (extract_lets +onlyGivenNames y; guard_hyp y : State := Prod.snd _; subst y)
    | (extract_lets +onlyGivenNames y; guard_hyp y : State := _; apply OnlyChangesN.cut y; (on_goal 1 => (unfold y; clear y)); (on_goal 2 => (intro hx; clear_value y)))
    | (extract_lets +onlyGivenNames y; guard_hyp y : _ × State := _; apply OnlyChangesN.cutP y; (on_goal 1 => (unfold y; clear y)); (on_goal 2 => (intro hx; clear_value y)))
    | (extract_lets +onlyGivenNames y; guard_hyp y : _ × _ × State := _; apply OnlyChangesN.cutPP y; (on_goal 1 => (unfold y; clear y)); (on_goal 2 => (intro hx; clear_value y)))
    | (extract_lets +onlyGivenNames y; guard_hyp y : Boxes := _; subst y)
    | (extract_lets +onlyGivenNames y; guard_hyp y : Power := _; subst y)
    | (extract_lets +onlyGivenNames y; guard_hyp y : Trans := _; subst y)
    | (extract_lets +onlyGivenNames y; guard_hyp y : Prot := _; subst y)
    | (extract_lets +onlyGivenNames y; guard_hyp y : Persist := _; subst y)
    | (extract_lets +onlyGivenNames y; guard_hyp y : Sgl := _; subst y)
    | (extract_lets +onlyGivenNames y; guard_hyp y : Sec := _; subst y)
    | (extract_lets +onlyGivenNames y; clear_value y)
    | extract_lets +onlyGivenNames y
    | with_reducible apply OnlyChanges.ite
    | with_reducible apply OnlyChangesN.none
    | with_reducible apply OnlyChangesN.some
    | with_reducible apply OnlyChangesN.ite
    | with_reducible apply OnlyChangesN.orElse
    | with_reducible apply OnlyChangesP.ite
    | (with_reducible apply OnlyChangesP.step serveFirst_frame; (on_goal 1 => decide))
    | (with_reducible apply OnlyChangesP.snd serveFirst_frame; (on_goal 1 => decide))
    | (with_reducible apply OnlyChanges.step popFirst_frame; (on_goal 1 => decide))
    | (with_reducible apply OnlyChanges.ofPair; (on_goal 1 => assumption))
    | split
    | with_reducible apply OnlyChangesP.mk

theorem normPx_frame {a0} {a1} {x : State} : OnlyChanges [.coh] x (normPx a0 a1 x) := by
  unfold normPx
  repeat' first
    | with_reducible assumption
    | with_reducible apply OnlyChanges.refl
    | with_reducible apply OnlyChanges.ite
    | (with_reducible apply OnlyChanges.step modPx_frame; (on_goal 1 => decide))
    | split

theorem afterSnoop_frame {a0} {a1} {a2} {x : State} : OnlyChanges [.cache, .dram, .coh] x (afterSnoop a0 a1 a2 x) := by
  unfold afterSnoop
  repeat' first
    | with_reducible assumption
    | with_reducible apply OnlyChanges.refl
    | (extract_lets +onlyGivenNames y; guard_hyp y : State := Prod.snd _; subst y)
    | (extract_lets +onlyGivenNames y; guard_hyp y : State := _; apply OnlyChanges.cut y; (on_goal 1 => (unfold y; clear y)); (on_goal 2 => (intro hx; clear_value y)))
    | (extract_lets +onlyGivenNames y; guard_hyp y : _ × State := _; apply OnlyChanges.cutP y; (on_goal 1 => (unfold y; clear y)); (on_goal 2 => (intro hx; clear_value y)))
    | (extract_lets +onlyGivenNames y; guard_hyp y : _ × _ × State := _; apply OnlyChanges.cutPP y; (on_goal 1 => (unfold y; clear y)); (on_goal 2 => (intro hx; clear_value y)))
    | (extract_lets +onlyGivenNames y; guard_hyp y : Boxes := _; subst y)
    | (extract_lets +onlyGivenNames y; guard_hyp y : Power := _; subst y)
    | (extract_lets +onlyGivenNames y; guard_hyp y : Trans := _; subst y)
    | (extract_lets +onlyGivenNames y; guard_hyp y : Prot := _; subst y)
    | (extract_lets +onlyGivenNames y; guard_hyp y : Persist := _; subst y)
    | (extract_lets +onlyGivenNames y; guard_hyp y : Sgl := _; subst y)
    | (extract_lets +onlyGivenNames y; guard_hyp y : Sec := _; subst y)
    | (extract_lets +onlyGivenNames y; clear_value y)
    | extract_lets +onlyGivenNames y
    | with_reducible apply OnlyChanges.ite
    | (with_reducible apply OnlyChanges.step modPx_frame; (on_goal 1 => decide))
    | (with_reducible apply OnlyChanges.step dropCopy_frame; (on_goal 1 => decide))
    | split

theorem answerSnoop_frame {a0} {a1} {a2} {x : State} : OnlyChangesP [.pmc, .cache, .dram, .coh, .fab, .freeCtr, .outs] x (answerSnoop a0 a1 a2 x) := by
  unfold answerSnoop
  repeat' first
    | with_reducible assumption
    | with_reducible apply OnlyChanges.refl
    | (extract_lets +onlyGivenNames y; guard_hyp y : State := Prod.snd _; subst y)
    | (extract_lets +onlyGivenNames y; guard_hyp y : State := _; apply OnlyChangesP.cut y; (on_goal 1 => (unfold y; clear y)); (on_goal 2 => (intro hx; clear_value y)))
    | (extract_lets +onlyGivenNames y; guard_hyp y : _ × State := _; apply OnlyChangesP.cutP y; (on_goal 1 => (unfold y; clear y)); (on_goal 2 => (intro hx; clear_value y)))
    | (extract_lets +onlyGivenNames y; guard_hyp y : _ × _ × State := _; apply OnlyChangesP.cutPP y; (on_goal 1 => (unfold y; clear y)); (on_goal 2 => (intro hx; clear_value y)))
    | (extract_lets +onlyGivenNames y; guard_hyp y : Boxes := _; subst y)
    | (extract_lets +onlyGivenNames y; guard_hyp y : Power := _; subst y)
    | (extract_lets +onlyGivenNames y; guard_hyp y : Trans := _; subst y)
    | (extract_lets +onlyGivenNames y; guard_hyp y : Prot := _; subst y)
    | (extract_lets +onlyGivenNames y; guard_hyp y : Persist := _; subst y)
    | (extract_lets +onlyGivenNames y; guard_hyp y : Sgl := _; subst y)
    | (extract_lets +onlyGivenNames y; guard_hyp y : Sec := _; subst y)
    | (extract_lets +onlyGivenNames y; clear_value y)
    | extract_lets +onlyGivenNames y
    | with_reducible apply OnlyChanges.ite
    | with_reducible apply OnlyChangesP.ite
    | (with_reducible apply OnlyChanges.step sendMsg_frame; (on_goal 1 => decide))
    | (with_reducible apply OnlyChanges.step sendRsp_frame; (on_goal 1 => decide))
    | (with_reducible apply OnlyChanges.step sendWrt_frame; (on_goal 1 => decide))
    | (with_reducible apply OnlyChanges.step mergeCopy_frame; (on_goal 1 => decide))
    | (with_reducible apply OnlyChanges.step afterSnoop_frame; (on_goal 1 => decide))
    | split
    | with_reducible apply OnlyChangesP.mk

theorem stepSnoop_frame {a0} {a1} {x : State} : OnlyChangesN [.pmc, .cache, .dram, .coh, .fab, .freeCtr, .outs] x (stepSnoop a0 a1 x) := by
  unfold stepSnoop
  dsimp -proj only
  repeat' first
    | with_reducible assumption
    | with_reducible apply OnlyChanges.refl
    | with_reducible apply OnlyChanges.ite
    | with_reducible apply OnlyChangesN.none
    | with_reducible apply OnlyChangesN.some
    | with_reducible apply OnlyChangesN.ite
    | with_reducible apply OnlyChangesN.orElse
    | with_reducible apply OnlyChangesP.ite
    | (with_reducible apply OnlyChanges.step sendBis_frame; (on_goal 1 => decide))
    | (with_reducible apply OnlyChangesP.step answerSnoop_frame; (on_goal 1 => decide))
    | (with_reducible apply OnlyChangesP.snd answerSnoop_frame; (on_goal 1 => decide))
    | (with_reducible apply OnlyChanges.step modPx_frame; (on_goal 1 => decide))
    | (with_reducible apply OnlyChanges.step sendRsp_frame; (on_goal 1 => decide))
    | (with_reducible apply OnlyChanges.ofPair; (on_goal 1 => assumption))
    | split
    | with_reducible apply OnlyChangesP.mk

theorem pxGo_frame {a0} {a1} {a2} {x : State} : OnlyChanges [.pmc, .trb, .cache, .dram, .coh, .fab, .portA, .portB, .freeCtr, .outs] x (pxGo a0 a1 a2 x) := by
  induction a0 generalizing x a1 a2 with
  | zero => exact OnlyChanges.refl _ _
  | succ k ih =>
    unfold pxGo
    split
    · exact OnlyChanges.refl _ _
    · extract_lets +onlyGivenNames y
      have hy : OnlyChanges [.pmc, .trb, .cache, .dram, .coh, .fab, .portA, .portB, .freeCtr, .outs] x y := normPx_frame.widen (by decide)
      clear_value y
      extract_lets +onlyGivenNames r
      have hr : OnlyChangesN [.pmc, .trb, .cache, .dram, .coh, .fab, .portA, .portB, .freeCtr, .outs] y r :=
        OnlyChangesN.orElse (OnlyChangesN.step stepPull_frame (by decide) (OnlyChanges.refl _ _)) (OnlyChangesN.orElse (OnlyChangesN.step stepInv_frame (by decide) (OnlyChanges.refl _ _))
          (OnlyChangesN.orElse (OnlyChangesN.step stepLeave_frame (by decide) (OnlyChanges.refl _ _)) (OnlyChangesN.orElse (OnlyChangesN.step stepSnoop_frame (by decide) (OnlyChanges.refl _ _)) (OnlyChangesN.step stepHost_frame (by decide) (OnlyChanges.refl _ _)))))
      clear_value r
      split
      · exact hy
      · exact hy.trans (hr _ rfl)
      · exact (hy.trans (hr _ rfl)).trans ih

theorem biAnswer_frame {a0} {a1} {a2} {a3} {x : State} : OnlyChanges [.coh] x (biAnswer a0 a1 a2 a3 x) := by
  unfold biAnswer
  repeat' first
    | with_reducible assumption
    | with_reducible apply OnlyChanges.refl
    | (extract_lets +onlyGivenNames y; guard_hyp y : State := Prod.snd _; subst y)
    | (extract_lets +onlyGivenNames y; guard_hyp y : State := _; apply OnlyChanges.cut y; (on_goal 1 => (unfold y; clear y)); (on_goal 2 => (intro hx; clear_value y)))
    | (extract_lets +onlyGivenNames y; guard_hyp y : _ × State := _; apply OnlyChanges.cutP y; (on_goal 1 => (unfold y; clear y)); (on_goal 2 => (intro hx; clear_value y)))
    | (extract_lets +onlyGivenNames y; guard_hyp y : _ × _ × State := _; apply OnlyChanges.cutPP y; (on_goal 1 => (unfold y; clear y)); (on_goal 2 => (intro hx; clear_value y)))
    | (extract_lets +onlyGivenNames y; guard_hyp y : Boxes := _; subst y)
    | (extract_lets +onlyGivenNames y; guard_hyp y : Power := _; subst y)
    | (extract_lets +onlyGivenNames y; guard_hyp y : Trans := _; subst y)
    | (extract_lets +onlyGivenNames y; guard_hyp y : Prot := _; subst y)
    | (extract_lets +onlyGivenNames y; guard_hyp y : Persist := _; subst y)
    | (extract_lets +onlyGivenNames y; guard_hyp y : Sgl := _; subst y)
    | (extract_lets +onlyGivenNames y; guard_hyp y : Sec := _; subst y)
    | (extract_lets +onlyGivenNames y; clear_value y)
    | extract_lets +onlyGivenNames y
    | with_reducible apply OnlyChanges.ite
    | (with_reducible apply OnlyChanges.step setHolding_frame; (on_goal 1 => decide))
    | split
    | (with_reducible apply OnlyChanges.upd16384; (on_goal 1 => decide))

theorem completeRemote_frame {a0} {a1} {x : State} : OnlyChanges [.trb, .portA, .portB, .freeCtr, .outs] x (completeRemote a0 a1 x) := by
  unfold completeRemote
  repeat' first
    | with_reducible assumption
    | with_reducible apply OnlyChanges.refl
    | with_reducible apply OnlyChanges.ite
    | (with_reducible apply OnlyChanges.step traceDone_frame; (on_goal 1 => decide))
    | (with_reducible apply OnlyChanges.step usage_frame; (on_goal 1 => decide))
    | (with_reducible apply OnlyChanges.step emit_frame; (on_goal 1 => decide))
    | split

theorem answerLost_frame {a0} {a1} {a2} {x : State} : OnlyChanges [.pmc, .trb, .cache, .coh, .fab, .portA, .portB, .freeCtr, .outs] x (answerLost a0 a1 a2 x) := by
  unfold answerLost
  repeat' first
    | with_reducible assumption
    | with_reducible apply OnlyChanges.refl
    | with_reducible apply OnlyChanges.ite
    | (with_reducible apply OnlyChanges.step answer_frame; (on_goal 1 => decide))
    | (with_reducible apply OnlyChanges.step completeRemote_frame; (on_goal 1 => decide))
    | split

theorem endPx_frame {a0} {a1} {x : State} : OnlyChanges [.pmc, .trb, .cache, .dram, .coh, .fab, .portA, .portB, .freeCtr, .outs] x (endPx a0 a1 x) := by
  unfold endPx
  repeat' first
    | with_reducible assumption
    | with_reducible apply OnlyChanges.refl
    | (extract_lets +onlyGivenNames y; guard_hyp y : State := Prod.snd _; subst y)
    | (extract_lets +onlyGivenNames y; guard_hyp y : State := _; apply OnlyChanges.cut y; (on_goal 1 => (unfold y; clear y)); (on_goal 2 => (intro hx; clear_value y)))
    | (extract_lets +onlyGivenNames y; guard_hyp y : _ × State := _; apply OnlyChanges.cutP y; (on_goal 1 => (unfold y; clear y)); (on_goal 2 => (intro hx; clear_value y)))
    | (extract_lets +onlyGivenNames y; guard_hyp y : _ × _ × State := _; apply OnlyChanges.cutPP y; (on_goal 1 => (unfold y; clear y)); (on_goal 2 => (intro hx; clear_value y)))
    | (extract_lets +onlyGivenNames y; guard_hyp y : Boxes := _; subst y)
    | (extract_lets +onlyGivenNames y; guard_hyp y : Power := _; subst y)
    | (extract_lets +onlyGivenNames y; guard_hyp y : Trans := _; subst y)
    | (extract_lets +onlyGivenNames y; guard_hyp y : Prot := _; subst y)
    | (extract_lets +onlyGivenNames y; guard_hyp y : Persist := _; subst y)
    | (extract_lets +onlyGivenNames y; guard_hyp y : Sgl := _; subst y)
    | (extract_lets +onlyGivenNames y; guard_hyp y : Sec := _; subst y)
    | (extract_lets +onlyGivenNames y; clear_value y)
    | extract_lets +onlyGivenNames y
    | with_reducible apply OnlyChanges.ite
    | (with_reducible apply OnlyChanges.step biAll_frame; (on_goal 1 => decide))
    | (with_reducible apply OnlyChanges.step putPx_frame; (on_goal 1 => decide))
    | (with_reducible apply OnlyChanges.step sendRsp_frame; (on_goal 1 => decide))
    | (with_reducible apply OnlyChanges.step delMshr_frame; (on_goal 1 => decide))
    | (with_reducible apply OnlyChanges.step answerLost_frame; (on_goal 1 => decide))
    | (with_reducible apply OnlyChanges.step dropCopy_frame; (on_goal 1 => decide))
    | (with_reducible apply OnlyChanges.foldl; (on_goal 2 => intro z a))
    | (with_reducible apply OnlyChangesP.foldl; (on_goal 2 => intro z a))
    | split
    | (with_reducible apply OnlyChanges.upd81920; (on_goal 1 => decide))

theorem pxRequest_frame {a0} {a1} {a2} {x : State} : OnlyChanges [.pmc, .trb, .cache, .dram, .coh, .fab, .portA, .portB, .freeCtr, .outs] x (pxRequest a0 a1 a2 x) := by
  unfold pxRequest
  repeat' first
    | with_reducible assumption
    | with_reducible apply OnlyChanges.refl
    | (extract_lets +onlyGivenNames y; guard_hyp y : State := Prod.snd _; subst y)
    | (extract_lets +onlyGivenNames y; guard_hyp y : State := _; apply OnlyChanges.cut y; (on_goal 1 => (unfold y; clear y)); (on_goal 2 => (intro hx; clear_value y)))
    | (extract_lets +onlyGivenNames y; guard_hyp y : _ × State := _; apply OnlyChanges.cutP y; (on_goal 1 => (unfold y; clear y)); (on_goal 2 => (intro hx; clear_value y)))
    | (extract_lets +onlyGivenNames y; guard_hyp y : _ × _ × State := _; apply OnlyChanges.cutPP y; (on_goal 1 => (unfold y; clear y)); (on_goal 2 => (intro hx; clear_value y)))
    | (extract_lets +onlyGivenNames y; guard_hyp y : Boxes := _; subst y)
    | (extract_lets +onlyGivenNames y; guard_hyp y : Power := _; subst y)
    | (extract_lets +onlyGivenNames y; guard_hyp y : Trans := _; subst y)
    | (extract_lets +onlyGivenNames y; guard_hyp y : Prot := _; subst y)
    | (extract_lets +onlyGivenNames y; guard_hyp y : Persist := _; subst y)
    | (extract_lets +onlyGivenNames y; guard_hyp y : Sgl := _; subst y)
    | (extract_lets +onlyGivenNames y; guard_hyp y : Sec := _; subst y)
    | (extract_lets +onlyGivenNames y; clear_value y)
    | extract_lets +onlyGivenNames y
    | with_reducible apply OnlyChanges.ite
    | (with_reducible apply OnlyChanges.step pxGo_frame; (on_goal 1 => decide))
    | (with_reducible apply OnlyChanges.step modPx_frame; (on_goal 1 => decide))
    | (with_reducible apply OnlyChanges.step count_frame; (on_goal 1 => decide))
    | split

theorem recvSnp_frame {a0} {a1} {a2} {a3} {a4} {a5} {a6} {x : State} : OnlyChanges [.evr, .pmc, .trb, .cache, .dram, .coh, .fab, .portA, .portB, .cxlA, .cxlB, .freeCtr, .outs] x (recvSnp a0 a1 a2 a3 a4 a5 a6 x) := by
  unfold recvSnp
  repeat' first
    | with_reducible assumption
    | with_reducible apply OnlyChanges.refl
    | (extract_lets +onlyGivenNames y; guard_hyp y : State := Prod.snd _; subst y)
    | (extract_lets +onlyGivenNames y; guard_hyp y : State := _; apply OnlyChanges.cut y; (on_goal 1 => (unfold y; clear y)); (on_goal 2 => (intro hx; clear_value y)))
    | (extract_lets +onlyGivenNames y; guard_hyp y : _ × State := _; apply OnlyChanges.cutP y; (on_goal 1 => (unfold y; clear y)); (on_goal 2 => (intro hx; clear_value y)))
    | (extract_lets +onlyGivenNames y; guard_hyp y : _ × _ × State := _; apply OnlyChanges.cutPP y; (on_goal 1 => (unfold y; clear y)); (on_goal 2 => (intro hx; clear_value y)))
    | (extract_lets +onlyGivenNames y; guard_hyp y : Boxes := _; subst y)
    | (extract_lets +onlyGivenNames y; guard_hyp y : Power := _; subst y)
    | (extract_lets +onlyGivenNames y; guard_hyp y : Trans := _; subst y)
    | (extract_lets +onlyGivenNames y; guard_hyp y : Prot := _; subst y)
    | (extract_lets +onlyGivenNames y; guard_hyp y : Persist := _; subst y)
    | (extract_lets +onlyGivenNames y; guard_hyp y : Sgl := _; subst y)
    | (extract_lets +onlyGivenNames y; guard_hyp y : Sec := _; subst y)
    | (extract_lets +onlyGivenNames y; clear_value y)
    | extract_lets +onlyGivenNames y
    | with_reducible apply OnlyChanges.ite
    | (with_reducible apply OnlyChanges.step protocolError_frame; (on_goal 1 => decide))
    | (with_reducible apply OnlyChanges.step pxGo_frame; (on_goal 1 => decide))
    | (with_reducible apply OnlyChanges.step modPx_frame; (on_goal 1 => decide))
    | (with_reducible apply OnlyChanges.step sendRsp_frame; (on_goal 1 => decide))
    | split

theorem kickCredits_frame {a0} {x : State} : OnlyChanges [.pmc, .trb, .cache, .dram, .coh, .fab, .portA, .portB, .freeCtr, .outs] x (kickCredits a0 x) := by
  unfold kickCredits
  repeat' first
    | with_reducible assumption
    | with_reducible apply OnlyChanges.refl
    | (extract_lets +onlyGivenNames y; guard_hyp y : State := Prod.snd _; subst y)
    | (extract_lets +onlyGivenNames y; guard_hyp y : State := _; apply OnlyChanges.cut y; (on_goal 1 => (unfold y; clear y)); (on_goal 2 => (intro hx; clear_value y)))
    | (extract_lets +onlyGivenNames y; guard_hyp y : _ × State := _; apply OnlyChanges.cutP y; (on_goal 1 => (unfold y; clear y)); (on_goal 2 => (intro hx; clear_value y)))
    | (extract_lets +onlyGivenNames y; guard_hyp y : _ × _ × State := _; apply OnlyChanges.cutPP y; (on_goal 1 => (unfold y; clear y)); (on_goal 2 => (intro hx; clear_value y)))
    | (extract_lets +onlyGivenNames y; guard_hyp y : Boxes := _; subst y)
    | (extract_lets +onlyGivenNames y; guard_hyp y : Power := _; subst y)
    | (extract_lets +onlyGivenNames y; guard_hyp y : Trans := _; subst y)
    | (extract_lets +onlyGivenNames y; guard_hyp y : Prot := _; subst y)
    | (extract_lets +onlyGivenNames y; guard_hyp y : Persist := _; subst y)
    | (extract_lets +onlyGivenNames y; guard_hyp y : Sgl := _; subst y)
    | (extract_lets +onlyGivenNames y; guard_hyp y : Sec := _; subst y)
    | (extract_lets +onlyGivenNames y; clear_value y)
    | extract_lets +onlyGivenNames y
    | with_reducible apply OnlyChanges.ite
    | (with_reducible apply OnlyChanges.step pxGo_frame; (on_goal 1 => decide))
    | (with_reducible apply OnlyChanges.foldl; (on_goal 2 => intro z a))
    | (with_reducible apply OnlyChangesP.foldl; (on_goal 2 => intro z a))
    | split

theorem creditIn_frame {a0} {x : State} : OnlyChanges [.pmc, .trb, .cache, .dram, .coh, .fab, .portA, .portB, .freeCtr, .outs] x (creditIn a0 x) := by
  unfold creditIn
  repeat' first
    | with_reducible assumption
    | with_reducible apply OnlyChanges.refl
    | (extract_lets +onlyGivenNames y; guard_hyp y : State := Prod.snd _; subst y)
    | (extract_lets +onlyGivenNames y; guard_hyp y : State := _; apply OnlyChanges.cut y; (on_goal 1 => (unfold y; clear y)); (on_goal 2 => (intro hx; clear_value y)))
    | (extract_lets +onlyGivenNames y; guard_hyp y : _ × State := _; apply OnlyChanges.cutP y; (on_goal 1 => (unfold y; clear y)); (on_goal 2 => (intro hx; clear_value y)))
    | (extract_lets +onlyGivenNames y; guard_hyp y : _ × _ × State := _; apply OnlyChanges.cutPP y; (on_goal 1 => (unfold y; clear y)); (on_goal 2 => (intro hx; clear_value y)))
    | (extract_lets +onlyGivenNames y; guard_hyp y : Boxes := _; subst y)
    | (extract_lets +onlyGivenNames y; guard_hyp y : Power := _; subst y)
    | (extract_lets +onlyGivenNames y; guard_hyp y : Trans := _; subst y)
    | (extract_lets +onlyGivenNames y; guard_hyp y : Prot := _; subst y)
    | (extract_lets +onlyGivenNames y; guard_hyp y : Persist := _; subst y)
    | (extract_lets +onlyGivenNames y; guard_hyp y : Sgl := _; subst y)
    | (extract_lets +onlyGivenNames y; guard_hyp y : Sec := _; subst y)
    | (extract_lets +onlyGivenNames y; clear_value y)
    | extract_lets +onlyGivenNames y
    | with_reducible apply OnlyChanges.ite
    | (with_reducible apply OnlyChanges.step kickCredits_frame; (on_goal 1 => decide))
    | split
    | (with_reducible apply OnlyChanges.upd16384; (on_goal 1 => decide))

theorem copyVer_frame {a0} {a1} {a2} {x : State} : OnlyChanges [.cache] x (copyVer a0 a1 a2 x) := by
  unfold copyVer
  repeat' first
    | with_reducible assumption
    | with_reducible apply OnlyChanges.refl
    | with_reducible apply OnlyChanges.ite
    | (with_reducible apply OnlyChanges.step putWay_frame; (on_goal 1 => decide))
    | split

theorem grantDone_frame {a0} {a1} {a2} {a3} {x : State} : OnlyChanges [.pmc, .trb, .cache, .dram, .coh, .fab, .portA, .portB, .freeCtr, .outs] x (grantDone a0 a1 a2 a3 x) := by
  unfold grantDone
  repeat' first
    | with_reducible assumption
    | with_reducible apply OnlyChanges.refl
    | (extract_lets +onlyGivenNames y; guard_hyp y : State := Prod.snd _; subst y)
    | (extract_lets +onlyGivenNames y; guard_hyp y : State := _; apply OnlyChanges.cut y; (on_goal 1 => (unfold y; clear y)); (on_goal 2 => (intro hx; clear_value y)))
    | (extract_lets +onlyGivenNames y; guard_hyp y : _ × State := _; apply OnlyChanges.cutP y; (on_goal 1 => (unfold y; clear y)); (on_goal 2 => (intro hx; clear_value y)))
    | (extract_lets +onlyGivenNames y; guard_hyp y : _ × _ × State := _; apply OnlyChanges.cutPP y; (on_goal 1 => (unfold y; clear y)); (on_goal 2 => (intro hx; clear_value y)))
    | (extract_lets +onlyGivenNames y; guard_hyp y : Boxes := _; subst y)
    | (extract_lets +onlyGivenNames y; guard_hyp y : Power := _; subst y)
    | (extract_lets +onlyGivenNames y; guard_hyp y : Trans := _; subst y)
    | (extract_lets +onlyGivenNames y; guard_hyp y : Prot := _; subst y)
    | (extract_lets +onlyGivenNames y; guard_hyp y : Persist := _; subst y)
    | (extract_lets +onlyGivenNames y; guard_hyp y : Sgl := _; subst y)
    | (extract_lets +onlyGivenNames y; guard_hyp y : Sec := _; subst y)
    | (extract_lets +onlyGivenNames y; clear_value y)
    | extract_lets +onlyGivenNames y
    | with_reducible apply OnlyChanges.ite
    | (with_reducible apply OnlyChanges.step pxGo_frame; (on_goal 1 => decide))
    | (with_reducible apply OnlyChanges.step modPx_frame; (on_goal 1 => decide))
    | (with_reducible apply OnlyChanges.step storeCopy_frame; (on_goal 1 => decide))
    | (with_reducible apply OnlyChanges.step answer_frame; (on_goal 1 => decide))
    | (with_reducible apply OnlyChanges.step popFirst_frame; (on_goal 1 => decide))
    | split
    | (with_reducible apply OnlyChanges.upd16384; (on_goal 1 => decide))

theorem grantIfBoth_frame {a0} {a1} {x : State} : OnlyChanges [.pmc, .trb, .cache, .dram, .coh, .fab, .portA, .portB, .freeCtr, .outs] x (grantIfBoth a0 a1 x) := by
  unfold grantIfBoth
  repeat' first
    | with_reducible assumption
    | with_reducible apply OnlyChanges.refl
    | (extract_lets +onlyGivenNames y; guard_hyp y : State := Prod.snd _; subst y)
    | (extract_lets +onlyGivenNames y; guard_hyp y : State := _; apply OnlyChanges.cut y; (on_goal 1 => (unfold y; clear y)); (on_goal 2 => (intro hx; clear_value y)))
    | (extract_lets +onlyGivenNames y; guard_hyp y : _ × State := _; apply OnlyChanges.cutP y; (on_goal 1 => (unfold y; clear y)); (on_goal 2 => (intro hx; clear_value y)))
    | (extract_lets +onlyGivenNames y; guard_hyp y : _ × _ × State := _; apply OnlyChanges.cutPP y; (on_goal 1 => (unfold y; clear y)); (on_goal 2 => (intro hx; clear_value y)))
    | (extract_lets +onlyGivenNames y; guard_hyp y : Boxes := _; subst y)
    | (extract_lets +onlyGivenNames y; guard_hyp y : Power := _; subst y)
    | (extract_lets +onlyGivenNames y; guard_hyp y : Trans := _; subst y)
    | (extract_lets +onlyGivenNames y; guard_hyp y : Prot := _; subst y)
    | (extract_lets +onlyGivenNames y; guard_hyp y : Persist := _; subst y)
    | (extract_lets +onlyGivenNames y; guard_hyp y : Sgl := _; subst y)
    | (extract_lets +onlyGivenNames y; guard_hyp y : Sec := _; subst y)
    | (extract_lets +onlyGivenNames y; clear_value y)
    | extract_lets +onlyGivenNames y
    | with_reducible apply OnlyChanges.ite
    | (with_reducible apply OnlyChanges.step grantDone_frame; (on_goal 1 => decide))
    | split

theorem recvCmp_frame {a0} {a1} {a2} {a3} {a4} {x : State} : OnlyChanges [.pmc, .trb, .cache, .dram, .coh, .fab, .portA, .portB, .freeCtr, .outs] x (recvCmp a0 a1 a2 a3 a4 x) := by
  unfold recvCmp
  repeat' first
    | with_reducible assumption
    | with_reducible apply OnlyChanges.refl
    | (extract_lets +onlyGivenNames y; guard_hyp y : State := Prod.snd _; subst y)
    | (extract_lets +onlyGivenNames y; guard_hyp y : State := _; apply OnlyChanges.cut y; (on_goal 1 => (unfold y; clear y)); (on_goal 2 => (intro hx; clear_value y)))
    | (extract_lets +onlyGivenNames y; guard_hyp y : _ × State := _; apply OnlyChanges.cutP y; (on_goal 1 => (unfold y; clear y)); (on_goal 2 => (intro hx; clear_value y)))
    | (extract_lets +onlyGivenNames y; guard_hyp y : _ × _ × State := _; apply OnlyChanges.cutPP y; (on_goal 1 => (unfold y; clear y)); (on_goal 2 => (intro hx; clear_value y)))
    | (extract_lets +onlyGivenNames y; guard_hyp y : Boxes := _; subst y)
    | (extract_lets +onlyGivenNames y; guard_hyp y : Power := _; subst y)
    | (extract_lets +onlyGivenNames y; guard_hyp y : Trans := _; subst y)
    | (extract_lets +onlyGivenNames y; guard_hyp y : Prot := _; subst y)
    | (extract_lets +onlyGivenNames y; guard_hyp y : Persist := _; subst y)
    | (extract_lets +onlyGivenNames y; guard_hyp y : Sgl := _; subst y)
    | (extract_lets +onlyGivenNames y; guard_hyp y : Sec := _; subst y)
    | (extract_lets +onlyGivenNames y; clear_value y)
    | extract_lets +onlyGivenNames y
    | with_reducible apply OnlyChanges.ite
    | (with_reducible apply OnlyChanges.step pxGo_frame; (on_goal 1 => decide))
    | (with_reducible apply OnlyChanges.step modPx_frame; (on_goal 1 => decide))
    | (with_reducible apply OnlyChanges.step creditIn_frame; (on_goal 1 => decide))
    | (with_reducible apply OnlyChanges.step copyVer_frame; (on_goal 1 => decide))
    | (with_reducible apply OnlyChanges.step grantIfBoth_frame; (on_goal 1 => decide))
    | (with_reducible apply OnlyChanges.step completeRemote_frame; (on_goal 1 => decide))
    | split

theorem recvCmpX_frame {a0} {a1} {a2} {x : State} : OnlyChanges [.pmc, .trb, .cache, .dram, .coh, .fab, .portA, .portB, .freeCtr, .outs] x (recvCmpX a0 a1 a2 x) := by
  unfold recvCmpX
  repeat' first
    | with_reducible assumption
    | with_reducible apply OnlyChanges.refl
    | (extract_lets +onlyGivenNames y; guard_hyp y : State := Prod.snd _; subst y)
    | (extract_lets +onlyGivenNames y; guard_hyp y : State := _; apply OnlyChanges.cut y; (on_goal 1 => (unfold y; clear y)); (on_goal 2 => (intro hx; clear_value y)))
    | (extract_lets +onlyGivenNames y; guard_hyp y : _ × State := _; apply OnlyChanges.cutP y; (on_goal 1 => (unfold y; clear y)); (on_goal 2 => (intro hx; clear_value y)))
    | (extract_lets +onlyGivenNames y; guard_hyp y : _ × _ × State := _; apply OnlyChanges.cutPP y; (on_goal 1 => (unfold y; clear y)); (on_goal 2 => (intro hx; clear_value y)))
    | (extract_lets +onlyGivenNames y; guard_hyp y : Boxes := _; subst y)
    | (extract_lets +onlyGivenNames y; guard_hyp y : Power := _; subst y)
    | (extract_lets +onlyGivenNames y; guard_hyp y : Trans := _; subst y)
    | (extract_lets +onlyGivenNames y; guard_hyp y : Prot := _; subst y)
    | (extract_lets +onlyGivenNames y; guard_hyp y : Persist := _; subst y)
    | (extract_lets +onlyGivenNames y; guard_hyp y : Sgl := _; subst y)
    | (extract_lets +onlyGivenNames y; guard_hyp y : Sec := _; subst y)
    | (extract_lets +onlyGivenNames y; clear_value y)
    | extract_lets +onlyGivenNames y
    | with_reducible apply OnlyChanges.ite
    | (with_reducible apply OnlyChanges.step modPx_frame; (on_goal 1 => decide))
    | (with_reducible apply OnlyChanges.step grantIfBoth_frame; (on_goal 1 => decide))
    | (with_reducible apply OnlyChanges.step grantDone_frame; (on_goal 1 => decide))
    | split

theorem recvDat_frame {a0} {a1} {a2} {a3} {a4} {a5} {x : State} : OnlyChanges [.pmc, .trb, .cache, .dram, .coh, .fab, .portA, .portB, .freeCtr, .outs] x (recvDat a0 a1 a2 a3 a4 a5 x) := by
  unfold recvDat
  repeat' first
    | with_reducible assumption
    | with_reducible apply OnlyChanges.refl
    | (extract_lets +onlyGivenNames y; guard_hyp y : State := Prod.snd _; subst y)
    | (extract_lets +onlyGivenNames y; guard_hyp y : State := _; apply OnlyChanges.cut y; (on_goal 1 => (unfold y; clear y)); (on_goal 2 => (intro hx; clear_value y)))
    | (extract_lets +onlyGivenNames y; guard_hyp y : _ × State := _; apply OnlyChanges.cutP y; (on_goal 1 => (unfold y; clear y)); (on_goal 2 => (intro hx; clear_value y)))
    | (extract_lets +onlyGivenNames y; guard_hyp y : _ × _ × State := _; apply OnlyChanges.cutPP y; (on_goal 1 => (unfold y; clear y)); (on_goal 2 => (intro hx; clear_value y)))
    | (extract_lets +onlyGivenNames y; guard_hyp y : Boxes := _; subst y)
    | (extract_lets +onlyGivenNames y; guard_hyp y : Power := _; subst y)
    | (extract_lets +onlyGivenNames y; guard_hyp y : Trans := _; subst y)
    | (extract_lets +onlyGivenNames y; guard_hyp y : Prot := _; subst y)
    | (extract_lets +onlyGivenNames y; guard_hyp y : Persist := _; subst y)
    | (extract_lets +onlyGivenNames y; guard_hyp y : Sgl := _; subst y)
    | (extract_lets +onlyGivenNames y; guard_hyp y : Sec := _; subst y)
    | (extract_lets +onlyGivenNames y; clear_value y)
    | extract_lets +onlyGivenNames y
    | with_reducible apply OnlyChanges.ite
    | (with_reducible apply OnlyChanges.step modPx_frame; (on_goal 1 => decide))
    | (with_reducible apply OnlyChanges.step grantIfBoth_frame; (on_goal 1 => decide))
    | (with_reducible apply OnlyChanges.step grantDone_frame; (on_goal 1 => decide))
    | split

theorem execSnpI_frame {a0} {a1} {a2} {a3} {a4} {a5} {x t : State} (h : execSnpI a0 a1 a2 a3 a4 a5 x = .next t) :
    OnlyChanges [.evr, .pmc, .trb, .cache, .dram, .coh, .fab, .portA, .portB, .cxlA, .cxlB, .freeCtr, .outs] x t := by
  unfold execSnpI at h
  first
    | (injection h with h; subst h)
    | (split at h <;> (first | (injection h with h; subst h) | cases h))
  all_goals
    repeat' first
      | with_reducible assumption
      | with_reducible apply OnlyChanges.refl
      | with_reducible apply OnlyChanges.ite
      | (with_reducible apply OnlyChanges.step recvSnp_frame; (on_goal 1 => decide))
      | split

theorem execCmpX_frame {a0} {a1} {a2} {x t : State} (h : execCmpX a0 a1 a2 x = .next t) :
    OnlyChanges [.pmc, .trb, .cache, .dram, .coh, .fab, .portA, .portB, .freeCtr, .outs] x t := by
  unfold execCmpX at h
  first
    | (injection h with h; subst h)
    | (split at h <;> (first | (injection h with h; subst h) | cases h))
  all_goals
    repeat' first
      | with_reducible assumption
      | with_reducible apply OnlyChanges.refl
      | with_reducible apply OnlyChanges.ite
      | (with_reducible apply OnlyChanges.step recvCmpX_frame; (on_goal 1 => decide))
      | split

theorem execCmp_frame {a0} {a1} {a2} {a3} {a4} {x t : State} (h : execCmp a0 a1 a2 a3 a4 x = .next t) :
    OnlyChanges [.pmc, .trb, .cache, .dram, .coh, .fab, .portA, .portB, .freeCtr, .outs] x t := by
  unfold execCmp at h
  first
    | (injection h with h; subst h)
    | (split at h <;> (first | (injection h with h; subst h) | cases h))
  all_goals
    repeat' first
      | with_reducible assumption
      | with_reducible apply OnlyChanges.refl
      | with_reducible apply OnlyChanges.ite
      | (with_reducible apply OnlyChanges.step recvCmp_frame; (on_goal 1 => decide))
      | split

theorem execSnpS_frame {a0} {a1} {a2} {a3} {a4} {a5} {x t : State} (h : execSnpS a0 a1 a2 a3 a4 a5 x = .next t) :
    OnlyChanges [.evr, .pmc, .trb, .cache, .dram, .coh, .fab, .portA, .portB, .cxlA, .cxlB, .freeCtr, .outs] x t := by
  unfold execSnpS at h
  first
    | (injection h with h; subst h)
    | (split at h <;> (first | (injection h with h; subst h) | cases h))
  all_goals
    repeat' first
      | with_reducible assumption
      | with_reducible apply OnlyChanges.refl
      | with_reducible apply OnlyChanges.ite
      | (with_reducible apply OnlyChanges.step recvSnp_frame; (on_goal 1 => decide))
      | split

theorem execRetryBackoffExpire_frame {a0} {a1} {x t : State} (h : execRetryBackoffExpire a0 a1 x = .next t) :
    OnlyChanges [.coh, .fab, .outs] x t := by
  unfold execRetryBackoffExpire at h
  first
    | (injection h with h; subst h)
    | (split at h <;> (first | (injection h with h; subst h) | cases h))
  all_goals
    repeat' first
      | with_reducible assumption
      | with_reducible apply OnlyChanges.refl
      | (extract_lets +onlyGivenNames y; guard_hyp y : State := Prod.snd _; subst y)
      | (extract_lets +onlyGivenNames y; guard_hyp y : State := _; apply OnlyChanges.cut y; (on_goal 1 => (unfold y; clear y)); (on_goal 2 => (intro hx; clear_value y)))
      | (extract_lets +onlyGivenNames y; guard_hyp y : _ × State := _; apply OnlyChanges.cutP y; (on_goal 1 => (unfold y; clear y)); (on_goal 2 => (intro hx; clear_value y)))
      | (extract_lets +onlyGivenNames y; guard_hyp y : _ × _ × State := _; apply OnlyChanges.cutPP y; (on_goal 1 => (unfold y; clear y)); (on_goal 2 => (intro hx; clear_value y)))
      | (extract_lets +onlyGivenNames y; guard_hyp y : Boxes := _; subst y)
      | (extract_lets +onlyGivenNames y; guard_hyp y : Power := _; subst y)
      | (extract_lets +onlyGivenNames y; guard_hyp y : Trans := _; subst y)
      | (extract_lets +onlyGivenNames y; guard_hyp y : Prot := _; subst y)
      | (extract_lets +onlyGivenNames y; guard_hyp y : Persist := _; subst y)
      | (extract_lets +onlyGivenNames y; guard_hyp y : Sgl := _; subst y)
      | (extract_lets +onlyGivenNames y; guard_hyp y : Sec := _; subst y)
      | (extract_lets +onlyGivenNames y; clear_value y)
      | extract_lets +onlyGivenNames y
      | with_reducible apply OnlyChanges.ite
      | (with_reducible apply OnlyChanges.step sendMsg_frame; (on_goal 1 => decide))
      | split
      | (with_reducible apply OnlyChanges.upd16384; (on_goal 1 => decide))

theorem execSnpC_frame {a0} {a1} {a2} {a3} {a4} {a5} {x t : State} (h : execSnpC a0 a1 a2 a3 a4 a5 x = .next t) :
    OnlyChanges [.evr, .pmc, .trb, .cache, .dram, .coh, .fab, .portA, .portB, .cxlA, .cxlB, .freeCtr, .outs] x t := by
  unfold execSnpC at h
  first
    | (injection h with h; subst h)
    | (split at h <;> (first | (injection h with h; subst h) | cases h))
  all_goals
    repeat' first
      | with_reducible assumption
      | with_reducible apply OnlyChanges.refl
      | with_reducible apply OnlyChanges.ite
      | (with_reducible apply OnlyChanges.step recvSnp_frame; (on_goal 1 => decide))
      | split

theorem recallAnswer_frame {a0} {a1} {a2} {x : State} : OnlyChanges [.coh] x (recallAnswer a0 a1 a2 x) := by
  unfold recallAnswer
  repeat' first
    | with_reducible assumption
    | with_reducible apply OnlyChanges.refl
    | (extract_lets +onlyGivenNames y; guard_hyp y : State := Prod.snd _; subst y)
    | (extract_lets +onlyGivenNames y; guard_hyp y : State := _; apply OnlyChanges.cut y; (on_goal 1 => (unfold y; clear y)); (on_goal 2 => (intro hx; clear_value y)))
    | (extract_lets +onlyGivenNames y; guard_hyp y : _ × State := _; apply OnlyChanges.cutP y; (on_goal 1 => (unfold y; clear y)); (on_goal 2 => (intro hx; clear_value y)))
    | (extract_lets +onlyGivenNames y; guard_hyp y : _ × _ × State := _; apply OnlyChanges.cutPP y; (on_goal 1 => (unfold y; clear y)); (on_goal 2 => (intro hx; clear_value y)))
    | (extract_lets +onlyGivenNames y; guard_hyp y : Boxes := _; subst y)
    | (extract_lets +onlyGivenNames y; guard_hyp y : Power := _; subst y)
    | (extract_lets +onlyGivenNames y; guard_hyp y : Trans := _; subst y)
    | (extract_lets +onlyGivenNames y; guard_hyp y : Prot := _; subst y)
    | (extract_lets +onlyGivenNames y; guard_hyp y : Persist := _; subst y)
    | (extract_lets +onlyGivenNames y; guard_hyp y : Sgl := _; subst y)
    | (extract_lets +onlyGivenNames y; guard_hyp y : Sec := _; subst y)
    | (extract_lets +onlyGivenNames y; clear_value y)
    | extract_lets +onlyGivenNames y
    | with_reducible apply OnlyChanges.ite
    | (with_reducible apply OnlyChanges.step biAnswer_frame; (on_goal 1 => decide))
    | split
    | (with_reducible apply OnlyChanges.upd16384; (on_goal 1 => decide))

theorem execDatX_frame {a0} {a1} {a2} {a3} {a4} {a5} {a6} {x t : State} (h : execDatX a0 a1 a2 a3 a4 a5 a6 x = .next t) :
    OnlyChanges [.pmc, .trb, .cache, .dram, .coh, .fab, .portA, .portB, .freeCtr, .outs] x t := by
  unfold execDatX at h
  first
    | (injection h with h; subst h)
    | (split at h <;> (first | (injection h with h; subst h) | cases h))
  all_goals
    repeat' first
      | with_reducible assumption
      | with_reducible apply OnlyChanges.refl
      | with_reducible apply OnlyChanges.ite
      | (with_reducible apply OnlyChanges.step recvDat_frame; (on_goal 1 => decide))
      | split

theorem execProxyTimeout_frame {a0} {a1} {x t : State} (h : execProxyTimeout a0 a1 x = .next t) :
    OnlyChanges [.evr, .pmc, .trb, .cache, .dram, .coh, .fab, .portA, .portB, .cxlA, .cxlB, .freeCtr, .outs] x t := by
  unfold execProxyTimeout at h
  first
    | (injection h with h; subst h)
    | (split at h <;> (first | (injection h with h; subst h) | cases h))
  all_goals
    repeat' first
      | with_reducible assumption
      | with_reducible apply OnlyChanges.refl
      | with_reducible apply OnlyChanges.ite
      | (with_reducible apply OnlyChanges.step event_frame; (on_goal 1 => decide))
      | (with_reducible apply OnlyChanges.step endPx_frame; (on_goal 1 => decide))
      | split

theorem execDatS_frame {a0} {a1} {a2} {a3} {a4} {a5} {a6} {x t : State} (h : execDatS a0 a1 a2 a3 a4 a5 a6 x = .next t) :
    OnlyChanges [.pmc, .trb, .cache, .dram, .coh, .fab, .portA, .portB, .freeCtr, .outs] x t := by
  unfold execDatS at h
  first
    | (injection h with h; subst h)
    | (split at h <;> (first | (injection h with h; subst h) | cases h))
  all_goals
    repeat' first
      | with_reducible assumption
      | with_reducible apply OnlyChanges.refl
      | with_reducible apply OnlyChanges.ite
      | (with_reducible apply OnlyChanges.step recvDat_frame; (on_goal 1 => decide))
      | split

theorem execHostRecallDone_frame {a0} {a1} {a2} {x t : State} (h : execHostRecallDone a0 a1 a2 x = .next t) :
    OnlyChanges [.pmc, .trb, .cache, .dram, .coh, .fab, .portA, .portB, .freeCtr, .outs] x t := by
  unfold execHostRecallDone at h
  first
    | (injection h with h; subst h)
    | (split at h <;> (first | (injection h with h; subst h) | cases h))
  all_goals
    repeat' first
      | with_reducible assumption
      | with_reducible apply OnlyChanges.refl
      | (extract_lets +onlyGivenNames y; guard_hyp y : State := Prod.snd _; subst y)
      | (extract_lets +onlyGivenNames y; guard_hyp y : State := _; apply OnlyChanges.cut y; (on_goal 1 => (unfold y; clear y)); (on_goal 2 => (intro hx; clear_value y)))
      | (extract_lets +onlyGivenNames y; guard_hyp y : _ × State := _; apply OnlyChanges.cutP y; (on_goal 1 => (unfold y; clear y)); (on_goal 2 => (intro hx; clear_value y)))
      | (extract_lets +onlyGivenNames y; guard_hyp y : _ × _ × State := _; apply OnlyChanges.cutPP y; (on_goal 1 => (unfold y; clear y)); (on_goal 2 => (intro hx; clear_value y)))
      | (extract_lets +onlyGivenNames y; guard_hyp y : Boxes := _; subst y)
      | (extract_lets +onlyGivenNames y; guard_hyp y : Power := _; subst y)
      | (extract_lets +onlyGivenNames y; guard_hyp y : Trans := _; subst y)
      | (extract_lets +onlyGivenNames y; guard_hyp y : Prot := _; subst y)
      | (extract_lets +onlyGivenNames y; guard_hyp y : Persist := _; subst y)
      | (extract_lets +onlyGivenNames y; guard_hyp y : Sgl := _; subst y)
      | (extract_lets +onlyGivenNames y; guard_hyp y : Sec := _; subst y)
      | (extract_lets +onlyGivenNames y; clear_value y)
      | extract_lets +onlyGivenNames y
      | with_reducible apply OnlyChanges.ite
      | (with_reducible apply OnlyChanges.step pxGo_frame; (on_goal 1 => decide))
      | (with_reducible apply OnlyChanges.step modPx_frame; (on_goal 1 => decide))
      | (with_reducible apply OnlyChanges.step recallAnswer_frame; (on_goal 1 => decide))
      | split

theorem execHoldWindowExpire_frame {a0} {a1} {x t : State} (h : execHoldWindowExpire a0 a1 x = .next t) :
    OnlyChanges [.pmc, .trb, .cache, .dram, .coh, .fab, .portA, .portB, .freeCtr, .outs] x t := by
  unfold execHoldWindowExpire at h
  first
    | (injection h with h; subst h)
    | (split at h <;> (first | (injection h with h; subst h) | cases h))
  all_goals
    repeat' first
      | with_reducible assumption
      | with_reducible apply OnlyChanges.refl
      | with_reducible apply OnlyChanges.ite
      | (with_reducible apply OnlyChanges.step pxGo_frame; (on_goal 1 => decide))
      | (with_reducible apply OnlyChanges.step modPx_frame; (on_goal 1 => decide))
      | split

theorem execSnpX_frame {a0} {a1} {a2} {a3} {a4} {a5} {x t : State} (h : execSnpX a0 a1 a2 a3 a4 a5 x = .next t) :
    OnlyChanges [.evr, .pmc, .trb, .cache, .dram, .coh, .fab, .portA, .portB, .cxlA, .cxlB, .freeCtr, .outs] x t := by
  unfold execSnpX at h
  first
    | (injection h with h; subst h)
    | (split at h <;> (first | (injection h with h; subst h) | cases h))
  all_goals
    repeat' first
      | with_reducible assumption
      | with_reducible apply OnlyChanges.refl
      | with_reducible apply OnlyChanges.ite
      | (with_reducible apply OnlyChanges.step recvSnp_frame; (on_goal 1 => decide))
      | split

theorem execDatC_frame {a0} {a1} {a2} {a3} {a4} {a5} {a6} {x t : State} (h : execDatC a0 a1 a2 a3 a4 a5 a6 x = .next t) :
    OnlyChanges [.pmc, .trb, .cache, .dram, .coh, .fab, .portA, .portB, .freeCtr, .outs] x t := by
  unfold execDatC at h
  first
    | (injection h with h; subst h)
    | (split at h <;> (first | (injection h with h; subst h) | cases h))
  all_goals
    repeat' first
      | with_reducible assumption
      | with_reducible apply OnlyChanges.refl
      | with_reducible apply OnlyChanges.ite
      | (with_reducible apply OnlyChanges.step recvDat_frame; (on_goal 1 => decide))
      | split

end Sys2Proof.Machine
end

