-- ==== Sys2Proof/Laws/FrameHostReq.lean ====
section
/-! SUPPORT. The parts of the state that each operation of Machine/HostReq.lean may change; every other part it leaves
alone. -/

set_option linter.all false

namespace Sys2Proof.Machine

theorem biOver_frame {a0} {a1} {a2} {x : State} : OnlyChanges [.evr, .pmc, .trb, .sched, .tr, .prot, .per, .ck, .cache, .dram, .coh, .fab, .portA, .portB, .cxlA, .cxlB, .sec, .freeCtr, .outs] x (biOver a0 a1 a2 x) := by
  unfold biOver
  repeat' first
    | with_reducible assumption
    | with_reducible apply OnlyChanges.refl
    | with_reducible apply OnlyChanges.ite
    | (with_reducible apply OnlyChanges.step pxGo_frame; (on_goal 1 => decide))
    | (with_reducible apply OnlyChanges.step drive_frame; (on_goal 1 => decide))
    | (with_reducible apply OnlyChanges.step endIfDone_frame; (on_goal 1 => decide))
    | (with_reducible apply OnlyChanges.step modTrans_frame; (on_goal 1 => decide))
    | split

theorem answerAbsent_frame {a0} {a1} {a2} {x : State} : OnlyChanges [.evr, .pmc, .trb, .cache, .coh, .fab, .portA, .portB, .cxlA, .cxlB, .freeCtr, .outs] x (answerAbsent a0 a1 a2 x) := by
  unfold answerAbsent
  repeat' first
    | with_reducible assumption
    | with_reducible apply OnlyChanges.refl
    | (extract_lets +onlyGivenNames y; guard_hyp y : State := Prod.snd _; subst y)
    | (extract_lets +onlyGivenNames y; guard_hyp y : State := _; apply OnlyChanges.cut y; (on_goal 1 => (unfold y; clear y)); (on_goal 2 => (intro hx; clear_value y)))
    | (extract_lets +onlyGivenNames y; guard_hyp y : _ × State := _; apply OnlyChanges.cutP y; (on_goal 1 => (unfold y; clear y)); (on_goal 2 => (intro hx; clear_value y)))
    | (extract_lets +onlyGivenNames y; guard_hyp y : _ × _ × State := _; apply OnlyChanges.cutPP y; (on_goal 1 => (unfold y; clear y)); (on_goal 2 => (intro hx; clear_value y)))
    | (extract_lets +onlyGivenNames y; guard_hyp y : Boxes := _; subst y)
    | (extract_lets +onlyGivenNames y; guard_hyp y : Power := _; subst y)
    | (extract_lets +onlyGivenNames y; guard_hyp y : Trans := _; subst y)
    | (extract_lets +onlyGivenNames y; guard_hyp y : Prot := _; subst y)
    | (extract_lets +onlyGivenNames y; guard_hyp y : Persist := _; subst y)
    | (extract_lets +onlyGivenNames y; guard_hyp y : Sgl := _; subst y)
    | (extract_lets +onlyGivenNames y; guard_hyp y : Sec := _; subst y)
    | (extract_lets +onlyGivenNames y; clear_value y)
    | extract_lets +onlyGivenNames y
    | with_reducible apply OnlyChanges.ite
    | (with_reducible apply OnlyChanges.step event_frame; (on_goal 1 => decide))
    | (with_reducible apply OnlyChanges.step answerLost_frame; (on_goal 1 => decide))
    | split
    | (with_reducible apply OnlyChanges.upd65536; (on_goal 1 => decide))

theorem remoteRequest_frame {a0} {a1} {a2} {x : State} : OnlyChanges [.evr, .pmc, .trb, .cache, .dram, .coh, .fab, .portA, .portB, .cxlA, .cxlB, .freeCtr, .outs] x (remoteRequest a0 a1 a2 x) := by
  unfold remoteRequest
  repeat' first
    | with_reducible assumption
    | with_reducible apply OnlyChanges.refl
    | (extract_lets +onlyGivenNames y; guard_hyp y : State := Prod.snd _; subst y)
    | (extract_lets +onlyGivenNames y; guard_hyp y : State := _; apply OnlyChanges.cut y; (on_goal 1 => (unfold y; clear y)); (on_goal 2 => (intro hx; clear_value y)))
    | (extract_lets +onlyGivenNames y; guard_hyp y : _ × State := _; apply OnlyChanges.cutP y; (on_goal 1 => (unfold y; clear y)); (on_goal 2 => (intro hx; clear_value y)))
    | (extract_lets +onlyGivenNames y; guard_hyp y : _ × _ × State := _; apply OnlyChanges.cutPP y; (on_goal 1 => (unfold y; clear y)); (on_goal 2 => (intro hx; clear_value y)))
    | (extract_lets +onlyGivenNames y; guard_hyp y : Boxes := _; subst y)
    | (extract_lets +onlyGivenNames y; guard_hyp y : Power := _; subst y)
    | (extract_lets +onlyGivenNames y; guard_hyp y : Trans := _; subst y)
    | (extract_lets +onlyGivenNames y; guard_hyp y : Prot := _; subst y)
    | (extract_lets +onlyGivenNames y; guard_hyp y : Persist := _; subst y)
    | (extract_lets +onlyGivenNames y; guard_hyp y : Sgl := _; subst y)
    | (extract_lets +onlyGivenNames y; guard_hyp y : Sec := _; subst y)
    | (extract_lets +onlyGivenNames y; clear_value y)
    | extract_lets +onlyGivenNames y
    | with_reducible apply OnlyChanges.ite
    | (with_reducible apply OnlyChanges.step answerAbsent_frame; (on_goal 1 => decide))
    | (with_reducible apply OnlyChanges.step pxRequest_frame; (on_goal 1 => decide))
    | split
    | (with_reducible apply OnlyChanges.upd65536; (on_goal 1 => decide))

theorem returnM2s_frame {a0} {x : State} : OnlyChanges [.portA, .portB] x (returnM2s a0 x) := by
  unfold returnM2s
  repeat' first
    | with_reducible assumption
    | with_reducible apply OnlyChanges.refl
    | (extract_lets +onlyGivenNames y; guard_hyp y : State := Prod.snd _; subst y)
    | (extract_lets +onlyGivenNames y; guard_hyp y : State := _; apply OnlyChanges.cut y; (on_goal 1 => (unfold y; clear y)); (on_goal 2 => (intro hx; clear_value y)))
    | (extract_lets +onlyGivenNames y; guard_hyp y : _ × State := _; apply OnlyChanges.cutP y; (on_goal 1 => (unfold y; clear y)); (on_goal 2 => (intro hx; clear_value y)))
    | (extract_lets +onlyGivenNames y; guard_hyp y : _ × _ × State := _; apply OnlyChanges.cutPP y; (on_goal 1 => (unfold y; clear y)); (on_goal 2 => (intro hx; clear_value y)))
    | (extract_lets +onlyGivenNames y; guard_hyp y : Boxes := _; subst y)
    | (extract_lets +onlyGivenNames y; guard_hyp y : Power := _; subst y)
    | (extract_lets +onlyGivenNames y; guard_hyp y : Trans := _; subst y)
    | (extract_lets +onlyGivenNames y; guard_hyp y : Prot := _; subst y)
    | (extract_lets +onlyGivenNames y; guard_hyp y : Persist := _; subst y)
    | (extract_lets +onlyGivenNames y; guard_hyp y : Sgl := _; subst y)
    | (extract_lets +onlyGivenNames y; guard_hyp y : Sec := _; subst y)
    | (extract_lets +onlyGivenNames y; clear_value y)
    | extract_lets +onlyGivenNames y
    | with_reducible apply OnlyChanges.ite
    | (with_reducible apply OnlyChanges.step State.setPort_frame; (on_goal 1 => decide))
    | split

theorem remoteLost_frame {a0} {a1} {x : State} : OnlyChanges [.pmc, .trb, .cache, .dram, .coh, .fab, .portA, .portB, .freeCtr, .outs] x (remoteLost a0 a1 x) := by
  unfold remoteLost
  repeat' first
    | with_reducible assumption
    | with_reducible apply OnlyChanges.refl
    | with_reducible apply OnlyChanges.ite
    | (with_reducible apply OnlyChanges.step pxGo_frame; (on_goal 1 => decide))
    | (with_reducible apply OnlyChanges.step modPx_frame; (on_goal 1 => decide))
    | (with_reducible apply OnlyChanges.step delMshr_frame; (on_goal 1 => decide))
    | split

theorem remoteTagResult_frame {a0} {a1} {x : State} : OnlyChanges [.pmc, .trb, .cache, .dram, .coh, .fab, .portA, .portB, .freeCtr, .outs] x (remoteTagResult a0 a1 x) := by
  unfold remoteTagResult
  repeat' first
    | with_reducible assumption
    | with_reducible apply OnlyChanges.refl
    | with_reducible apply OnlyChanges.ite
    | (with_reducible apply OnlyChanges.step dramAsk_frame; (on_goal 1 => decide))
    | (with_reducible apply OnlyChanges.step modMshr_frame; (on_goal 1 => decide))
    | (with_reducible apply OnlyChanges.step wakeRank_frame; (on_goal 1 => decide))
    | (with_reducible apply OnlyChanges.step remoteLost_frame; (on_goal 1 => decide))
    | (with_reducible apply OnlyChanges.step count_frame; (on_goal 1 => decide))
    | split

theorem useReq_frame {a0} {x : State} : OnlyChanges [.portA, .portB] x (useReq a0 x) := by
  unfold useReq
  repeat' first
    | with_reducible assumption
    | with_reducible apply OnlyChanges.refl
    | (extract_lets +onlyGivenNames y; guard_hyp y : State := Prod.snd _; subst y)
    | (extract_lets +onlyGivenNames y; guard_hyp y : State := _; apply OnlyChanges.cut y; (on_goal 1 => (unfold y; clear y)); (on_goal 2 => (intro hx; clear_value y)))
    | (extract_lets +onlyGivenNames y; guard_hyp y : _ × State := _; apply OnlyChanges.cutP y; (on_goal 1 => (unfold y; clear y)); (on_goal 2 => (intro hx; clear_value y)))
    | (extract_lets +onlyGivenNames y; guard_hyp y : _ × _ × State := _; apply OnlyChanges.cutPP y; (on_goal 1 => (unfold y; clear y)); (on_goal 2 => (intro hx; clear_value y)))
    | (extract_lets +onlyGivenNames y; guard_hyp y : Boxes := _; subst y)
    | (extract_lets +onlyGivenNames y; guard_hyp y : Power := _; subst y)
    | (extract_lets +onlyGivenNames y; guard_hyp y : Trans := _; subst y)
    | (extract_lets +onlyGivenNames y; guard_hyp y : Prot := _; subst y)
    | (extract_lets +onlyGivenNames y; guard_hyp y : Persist := _; subst y)
    | (extract_lets +onlyGivenNames y; guard_hyp y : Sgl := _; subst y)
    | (extract_lets +onlyGivenNames y; guard_hyp y : Sec := _; subst y)
    | (extract_lets +onlyGivenNames y; clear_value y)
    | extract_lets +onlyGivenNames y
    | with_reducible apply OnlyChanges.ite
    | (with_reducible apply OnlyChanges.step State.setPort_frame; (on_goal 1 => decide))
    | split

theorem remoteServe_frame {a0} {a1} {a2} {a3} {x : State} : OnlyChanges [.evr, .pmc, .trb, .cache, .dram, .coh, .fab, .portA, .portB, .cxlA, .cxlB, .sec, .freeCtr, .outs] x (remoteServe a0 a1 a2 a3 x) := by
  unfold remoteServe
  repeat' first
    | with_reducible assumption
    | with_reducible apply OnlyChanges.refl
    | (extract_lets +onlyGivenNames y; guard_hyp y : State := Prod.snd _; subst y)
    | (extract_lets +onlyGivenNames y; guard_hyp y : State := _; apply OnlyChanges.cut y; (on_goal 1 => (unfold y; clear y)); (on_goal 2 => (intro hx; clear_value y)))
    | (extract_lets +onlyGivenNames y; guard_hyp y : _ × State := _; apply OnlyChanges.cutP y; (on_goal 1 => (unfold y; clear y)); (on_goal 2 => (intro hx; clear_value y)))
    | (extract_lets +onlyGivenNames y; guard_hyp y : _ × _ × State := _; apply OnlyChanges.cutPP y; (on_goal 1 => (unfold y; clear y)); (on_goal 2 => (intro hx; clear_value y)))
    | (extract_lets +onlyGivenNames y; guard_hyp y : Boxes := _; subst y)
    | (extract_lets +onlyGivenNames y; guard_hyp y : Power := _; subst y)
    | (extract_lets +onlyGivenNames y; guard_hyp y : Trans := _; subst y)
    | (extract_lets +onlyGivenNames y; guard_hyp y : Prot := _; subst y)
    | (extract_lets +onlyGivenNames y; guard_hyp y : Persist := _; subst y)
    | (extract_lets +onlyGivenNames y; guard_hyp y : Sgl := _; subst y)
    | (extract_lets +onlyGivenNames y; guard_hyp y : Sec := _; subst y)
    | (extract_lets +onlyGivenNames y; clear_value y)
    | extract_lets +onlyGivenNames y
    | with_reducible apply OnlyChanges.ite
    | (with_reducible apply OnlyChanges.step pxGo_frame; (on_goal 1 => decide))
    | (with_reducible apply OnlyChanges.step reportOpen_frame; (on_goal 1 => decide))
    | (with_reducible apply OnlyChanges.step answer_frame; (on_goal 1 => decide))
    | (with_reducible apply OnlyChanges.step delMshr_frame; (on_goal 1 => decide))
    | (with_reducible apply OnlyChanges.step modMshr_frame; (on_goal 1 => decide))
    | (with_reducible apply OnlyChanges.step popFirst_frame; (on_goal 1 => decide))
    | split

theorem remoteDramRead_frame {a0} {a1} {a2} {x : State} : OnlyChanges [.evr, .pmc, .trb, .prot, .cache, .dram, .coh, .fab, .portA, .portB, .cxlA, .cxlB, .sec, .freeCtr, .outs] x (remoteDramRead a0 a1 a2 x) := by
  unfold remoteDramRead
  repeat' first
    | with_reducible assumption
    | with_reducible apply OnlyChanges.refl
    | (extract_lets +onlyGivenNames y; guard_hyp y : State := Prod.snd _; subst y)
    | (extract_lets +onlyGivenNames y; guard_hyp y : State := _; apply OnlyChanges.cut y; (on_goal 1 => (unfold y; clear y)); (on_goal 2 => (intro hx; clear_value y)))
    | (extract_lets +onlyGivenNames y; guard_hyp y : _ × State := _; apply OnlyChanges.cutP y; (on_goal 1 => (unfold y; clear y)); (on_goal 2 => (intro hx; clear_value y)))
    | (extract_lets +onlyGivenNames y; guard_hyp y : _ × _ × State := _; apply OnlyChanges.cutPP y; (on_goal 1 => (unfold y; clear y)); (on_goal 2 => (intro hx; clear_value y)))
    | (extract_lets +onlyGivenNames y; guard_hyp y : Boxes := _; subst y)
    | (extract_lets +onlyGivenNames y; guard_hyp y : Power := _; subst y)
    | (extract_lets +onlyGivenNames y; guard_hyp y : Trans := _; subst y)
    | (extract_lets +onlyGivenNames y; guard_hyp y : Prot := _; subst y)
    | (extract_lets +onlyGivenNames y; guard_hyp y : Persist := _; subst y)
    | (extract_lets +onlyGivenNames y; guard_hyp y : Sgl := _; subst y)
    | (extract_lets +onlyGivenNames y; guard_hyp y : Sec := _; subst y)
    | (extract_lets +onlyGivenNames y; clear_value y)
    | extract_lets +onlyGivenNames y
    | with_reducible apply OnlyChanges.ite
    | (with_reducible apply OnlyChanges.step dramCorrected_frame; (on_goal 1 => decide))
    | (with_reducible apply OnlyChanges.step remoteServe_frame; (on_goal 1 => decide))
    | with_reducible apply OnlyChangesO.getD
    | (with_reducible apply OnlyChangesO.step dramServe_frame; (on_goal 1 => decide))
    | (apply OnlyChangesO.ofSome (h := dramServe_frame); (on_goal 1 => assumption); (on_goal 1 => decide))
    | (with_reducible apply OnlyChanges.step dropDram_frame; (on_goal 1 => decide))
    | (with_reducible apply OnlyChanges.step dramUncorrectable_frame; (on_goal 1 => decide))
    | (with_reducible apply OnlyChanges.step remoteLost_frame; (on_goal 1 => decide))
    | split

theorem useRwd_frame {a0} {x : State} : OnlyChanges [.portA, .portB] x (useRwd a0 x) := by
  unfold useRwd
  repeat' first
    | with_reducible assumption
    | with_reducible apply OnlyChanges.refl
    | (extract_lets +onlyGivenNames y; guard_hyp y : State := Prod.snd _; subst y)
    | (extract_lets +onlyGivenNames y; guard_hyp y : State := _; apply OnlyChanges.cut y; (on_goal 1 => (unfold y; clear y)); (on_goal 2 => (intro hx; clear_value y)))
    | (extract_lets +onlyGivenNames y; guard_hyp y : _ × State := _; apply OnlyChanges.cutP y; (on_goal 1 => (unfold y; clear y)); (on_goal 2 => (intro hx; clear_value y)))
    | (extract_lets +onlyGivenNames y; guard_hyp y : _ × _ × State := _; apply OnlyChanges.cutPP y; (on_goal 1 => (unfold y; clear y)); (on_goal 2 => (intro hx; clear_value y)))
    | (extract_lets +onlyGivenNames y; guard_hyp y : Boxes := _; subst y)
    | (extract_lets +onlyGivenNames y; guard_hyp y : Power := _; subst y)
    | (extract_lets +onlyGivenNames y; guard_hyp y : Trans := _; subst y)
    | (extract_lets +onlyGivenNames y; guard_hyp y : Prot := _; subst y)
    | (extract_lets +onlyGivenNames y; guard_hyp y : Persist := _; subst y)
    | (extract_lets +onlyGivenNames y; guard_hyp y : Sgl := _; subst y)
    | (extract_lets +onlyGivenNames y; guard_hyp y : Sec := _; subst y)
    | (extract_lets +onlyGivenNames y; clear_value y)
    | extract_lets +onlyGivenNames y
    | with_reducible apply OnlyChanges.ite
    | (with_reducible apply OnlyChanges.step State.setPort_frame; (on_goal 1 => decide))
    | split

theorem sendHint_frame {a0} {a1} {a2} {x : State} : OnlyChanges [.tr] x (sendHint a0 a1 a2 x) := by
  unfold sendHint
  repeat' first
    | with_reducible assumption
    | with_reducible apply OnlyChanges.refl
    | (extract_lets +onlyGivenNames y; guard_hyp y : State := Prod.snd _; subst y)
    | (extract_lets +onlyGivenNames y; guard_hyp y : State := _; apply OnlyChanges.cut y; (on_goal 1 => (unfold y; clear y)); (on_goal 2 => (intro hx; clear_value y)))
    | (extract_lets +onlyGivenNames y; guard_hyp y : _ × State := _; apply OnlyChanges.cutP y; (on_goal 1 => (unfold y; clear y)); (on_goal 2 => (intro hx; clear_value y)))
    | (extract_lets +onlyGivenNames y; guard_hyp y : _ × _ × State := _; apply OnlyChanges.cutPP y; (on_goal 1 => (unfold y; clear y)); (on_goal 2 => (intro hx; clear_value y)))
    | (extract_lets +onlyGivenNames y; guard_hyp y : Boxes := _; subst y)
    | (extract_lets +onlyGivenNames y; guard_hyp y : Power := _; subst y)
    | (extract_lets +onlyGivenNames y; guard_hyp y : Trans := _; subst y)
    | (extract_lets +onlyGivenNames y; guard_hyp y : Prot := _; subst y)
    | (extract_lets +onlyGivenNames y; guard_hyp y : Persist := _; subst y)
    | (extract_lets +onlyGivenNames y; guard_hyp y : Sgl := _; subst y)
    | (extract_lets +onlyGivenNames y; guard_hyp y : Sec := _; subst y)
    | (extract_lets +onlyGivenNames y; clear_value y)
    | extract_lets +onlyGivenNames y
    | with_reducible apply OnlyChanges.ite
    | split
    | (with_reducible apply OnlyChanges.upd128; (on_goal 1 => decide); (on_goal 1 => (first | exact Or.inr (by with_reducible rfl) | exact Or.inl (by decide) | exact Or.inr rfl)))

theorem trackRead_frame {a0} {a1} {a2} {x : State} : OnlyChanges [.tr, .portA, .portB] x (trackRead a0 a1 a2 x) := by
  unfold trackRead
  repeat' first
    | with_reducible assumption
    | with_reducible apply OnlyChanges.refl
    | (extract_lets +onlyGivenNames y; guard_hyp y : State := Prod.snd _; subst y)
    | (extract_lets +onlyGivenNames y; guard_hyp y : State := _; apply OnlyChanges.cut y; (on_goal 1 => (unfold y; clear y)); (on_goal 2 => (intro hx; clear_value y)))
    | (extract_lets +onlyGivenNames y; guard_hyp y : _ × State := _; apply OnlyChanges.cutP y; (on_goal 1 => (unfold y; clear y)); (on_goal 2 => (intro hx; clear_value y)))
    | (extract_lets +onlyGivenNames y; guard_hyp y : _ × _ × State := _; apply OnlyChanges.cutPP y; (on_goal 1 => (unfold y; clear y)); (on_goal 2 => (intro hx; clear_value y)))
    | (extract_lets +onlyGivenNames y; guard_hyp y : Boxes := _; subst y)
    | (extract_lets +onlyGivenNames y; guard_hyp y : Power := _; subst y)
    | (extract_lets +onlyGivenNames y; guard_hyp y : Trans := _; subst y)
    | (extract_lets +onlyGivenNames y; guard_hyp y : Prot := _; subst y)
    | (extract_lets +onlyGivenNames y; guard_hyp y : Persist := _; subst y)
    | (extract_lets +onlyGivenNames y; guard_hyp y : Sgl := _; subst y)
    | (extract_lets +onlyGivenNames y; guard_hyp y : Sec := _; subst y)
    | (extract_lets +onlyGivenNames y; clear_value y)
    | extract_lets +onlyGivenNames y
    | with_reducible apply OnlyChanges.ite
    | (with_reducible apply OnlyChanges.step State.setPort_frame; (on_goal 1 => decide))
    | (with_reducible apply OnlyChanges.step sendHint_frame; (on_goal 1 => decide))
    | split

theorem biGone_frame {a0} {a1} {a2} {x : State} : OnlyChanges [.evr, .pmc, .trb, .sched, .tr, .prot, .per, .ck, .cache, .dram, .coh, .fab, .portA, .portB, .cxlA, .cxlB, .sec, .freeCtr, .outs] x (biGone a0 a1 a2 x) := by
  unfold biGone
  repeat' first
    | with_reducible assumption
    | with_reducible apply OnlyChanges.refl
    | (extract_lets +onlyGivenNames y; guard_hyp y : State := Prod.snd _; subst y)
    | (extract_lets +onlyGivenNames y; guard_hyp y : State := _; apply OnlyChanges.cut y; (on_goal 1 => (unfold y; clear y)); (on_goal 2 => (intro hx; clear_value y)))
    | (extract_lets +onlyGivenNames y; guard_hyp y : _ × State := _; apply OnlyChanges.cutP y; (on_goal 1 => (unfold y; clear y)); (on_goal 2 => (intro hx; clear_value y)))
    | (extract_lets +onlyGivenNames y; guard_hyp y : _ × _ × State := _; apply OnlyChanges.cutPP y; (on_goal 1 => (unfold y; clear y)); (on_goal 2 => (intro hx; clear_value y)))
    | (extract_lets +onlyGivenNames y; guard_hyp y : Boxes := _; subst y)
    | (extract_lets +onlyGivenNames y; guard_hyp y : Power := _; subst y)
    | (extract_lets +onlyGivenNames y; guard_hyp y : Trans := _; subst y)
    | (extract_lets +onlyGivenNames y; guard_hyp y : Prot := _; subst y)
    | (extract_lets +onlyGivenNames y; guard_hyp y : Persist := _; subst y)
    | (extract_lets +onlyGivenNames y; guard_hyp y : Sgl := _; subst y)
    | (extract_lets +onlyGivenNames y; guard_hyp y : Sec := _; subst y)
    | (extract_lets +onlyGivenNames y; clear_value y)
    | extract_lets +onlyGivenNames y
    | with_reducible apply OnlyChanges.ite
    | (with_reducible apply OnlyChanges.step modPx_frame; (on_goal 1 => decide))
    | (with_reducible apply OnlyChanges.step biOver_frame; (on_goal 1 => decide))
    | (with_reducible apply OnlyChanges.step poisonHome_frame; (on_goal 1 => decide))
    | (with_reducible apply OnlyChanges.step setHolding_frame; (on_goal 1 => decide))
    | (with_reducible apply OnlyChanges.step modTrans_frame; (on_goal 1 => decide))
    | split
    | (with_reducible apply OnlyChanges.upd16384; (on_goal 1 => decide))

theorem remoteFill_frame {a0} {a1} {x : State} : OnlyChanges [.pmc, .trb, .cache, .dram, .coh, .fab, .portA, .portB, .freeCtr, .outs] x (remoteFill a0 a1 x) := by
  unfold remoteFill
  repeat' first
    | with_reducible assumption
    | with_reducible apply OnlyChanges.refl
    | (extract_lets +onlyGivenNames y; guard_hyp y : State := Prod.snd _; subst y)
    | (extract_lets +onlyGivenNames y; guard_hyp y : State := _; apply OnlyChanges.cut y; (on_goal 1 => (unfold y; clear y)); (on_goal 2 => (intro hx; clear_value y)))
    | (extract_lets +onlyGivenNames y; guard_hyp y : _ × State := _; apply OnlyChanges.cutP y; (on_goal 1 => (unfold y; clear y)); (on_goal 2 => (intro hx; clear_value y)))
    | (extract_lets +onlyGivenNames y; guard_hyp y : _ × _ × State := _; apply OnlyChanges.cutPP y; (on_goal 1 => (unfold y; clear y)); (on_goal 2 => (intro hx; clear_value y)))
    | (extract_lets +onlyGivenNames y; guard_hyp y : Boxes := _; subst y)
    | (extract_lets +onlyGivenNames y; guard_hyp y : Power := _; subst y)
    | (extract_lets +onlyGivenNames y; guard_hyp y : Trans := _; subst y)
    | (extract_lets +onlyGivenNames y; guard_hyp y : Prot := _; subst y)
    | (extract_lets +onlyGivenNames y; guard_hyp y : Persist := _; subst y)
    | (extract_lets +onlyGivenNames y; guard_hyp y : Sgl := _; subst y)
    | (extract_lets +onlyGivenNames y; guard_hyp y : Sec := _; subst y)
    | (extract_lets +onlyGivenNames y; clear_value y)
    | extract_lets +onlyGivenNames y
    | with_reducible apply OnlyChanges.ite
    | (with_reducible apply OnlyChanges.step pxGo_frame; (on_goal 1 => decide))
    | (with_reducible apply OnlyChanges.step touch_frame; (on_goal 1 => decide))
    | (with_reducible apply OnlyChanges.step delMshr_frame; (on_goal 1 => decide))
    | (with_reducible apply OnlyChanges.step putWay_frame; (on_goal 1 => decide))
    | (with_reducible apply OnlyChanges.step evictNow_frame; (on_goal 1 => decide))
    | split

theorem execMshrFill_frame {a0} {a1} {x t : State} (h : execMshrFill a0 a1 x = .next t) :
    OnlyChanges [.evr, .pmc, .trb, .sched, .tr, .prot, .per, .ck, .cache, .dram, .coh, .fab, .portA, .portB, .cxlA, .cxlB, .sec, .freeCtr, .outs] x t := by
  unfold execMshrFill at h
  first
    | (injection h with h; subst h)
    | (split at h <;> (first | (injection h with h; subst h) | cases h))
  all_goals
    repeat' first
      | with_reducible assumption
      | with_reducible apply OnlyChanges.refl
      | with_reducible apply OnlyChanges.ite
      | (with_reducible apply OnlyChanges.step homeFill_frame; (on_goal 1 => decide))
      | (with_reducible apply OnlyChanges.step remoteFill_frame; (on_goal 1 => decide))
      | split

theorem snpAll_frame {a0} {a1} {x : State} : OnlyChanges [.pmc, .coh, .fab, .freeCtr, .outs] x (snpAll a0 a1 x) := by
  induction a1 generalizing x a0 with
  | nil =>
    unfold snpAll
    repeat' first
      | with_reducible assumption
      | with_reducible apply OnlyChanges.refl
      | (extract_lets +onlyGivenNames y; guard_hyp y : State := Prod.snd _; subst y)
      | (extract_lets +onlyGivenNames y; guard_hyp y : State := _; apply OnlyChanges.cut y; (on_goal 1 => (unfold y; clear y)); (on_goal 2 => (intro hx; clear_value y)))
      | (extract_lets +onlyGivenNames y; guard_hyp y : _ × State := _; apply OnlyChanges.cutP y; (on_goal 1 => (unfold y; clear y)); (on_goal 2 => (intro hx; clear_value y)))
      | (extract_lets +onlyGivenNames y; guard_hyp y : _ × _ × State := _; apply OnlyChanges.cutPP y; (on_goal 1 => (unfold y; clear y)); (on_goal 2 => (intro hx; clear_value y)))
      | (extract_lets +onlyGivenNames y; guard_hyp y : Boxes := _; subst y)
      | (extract_lets +onlyGivenNames y; guard_hyp y : Power := _; subst y)
      | (extract_lets +onlyGivenNames y; guard_hyp y : Trans := _; subst y)
      | (extract_lets +onlyGivenNames y; guard_hyp y : Prot := _; subst y)
      | (extract_lets +onlyGivenNames y; guard_hyp y : Persist := _; subst y)
      | (extract_lets +onlyGivenNames y; guard_hyp y : Sgl := _; subst y)
      | (extract_lets +onlyGivenNames y; guard_hyp y : Sec := _; subst y)
      | (extract_lets +onlyGivenNames y; clear_value y)
      | extract_lets +onlyGivenNames y
      | with_reducible apply OnlyChanges.ite
      | (with_reducible apply OnlyChanges.step sendSnp_frame; (on_goal 1 => decide))
      | (with_reducible apply OnlyChangesP.step nextSnp_frame; (on_goal 1 => decide))
      | (with_reducible apply OnlyChangesP.snd nextSnp_frame; (on_goal 1 => decide))
      | (with_reducible apply OnlyChanges.ofPair; (on_goal 1 => assumption))
      | split
  | cons b l ih =>
    unfold snpAll
    repeat' first
      | with_reducible assumption
      | with_reducible apply OnlyChanges.refl
      | (extract_lets +onlyGivenNames y; guard_hyp y : State := Prod.snd _; subst y)
      | (extract_lets +onlyGivenNames y; guard_hyp y : State := _; apply OnlyChanges.cut y; (on_goal 1 => (unfold y; clear y)); (on_goal 2 => (intro hx; clear_value y)))
      | (extract_lets +onlyGivenNames y; guard_hyp y : _ × State := _; apply OnlyChanges.cutP y; (on_goal 1 => (unfold y; clear y)); (on_goal 2 => (intro hx; clear_value y)))
      | (extract_lets +onlyGivenNames y; guard_hyp y : _ × _ × State := _; apply OnlyChanges.cutPP y; (on_goal 1 => (unfold y; clear y)); (on_goal 2 => (intro hx; clear_value y)))
      | (extract_lets +onlyGivenNames y; guard_hyp y : Boxes := _; subst y)
      | (extract_lets +onlyGivenNames y; guard_hyp y : Power := _; subst y)
      | (extract_lets +onlyGivenNames y; guard_hyp y : Trans := _; subst y)
      | (extract_lets +onlyGivenNames y; guard_hyp y : Prot := _; subst y)
      | (extract_lets +onlyGivenNames y; guard_hyp y : Persist := _; subst y)
      | (extract_lets +onlyGivenNames y; guard_hyp y : Sgl := _; subst y)
      | (extract_lets +onlyGivenNames y; guard_hyp y : Sec := _; subst y)
      | (extract_lets +onlyGivenNames y; clear_value y)
      | extract_lets +onlyGivenNames y
      | with_reducible apply OnlyChanges.ite
      | (with_reducible apply OnlyChanges.step sendSnp_frame; (on_goal 1 => decide))
      | (with_reducible apply OnlyChangesP.step nextSnp_frame; (on_goal 1 => decide))
      | (with_reducible apply OnlyChangesP.snd nextSnp_frame; (on_goal 1 => decide))
      | (with_reducible apply OnlyChanges.ofPair; (on_goal 1 => assumption))
      | (with_reducible apply OnlyChanges.step ih; (on_goal 1 => decide))
      | split

theorem rebuildEntry_frame {a0} {x : State} : OnlyChanges [.pmc, .cache, .coh, .fab, .freeCtr, .outs] x (rebuildEntry a0 x) := by
  unfold rebuildEntry
  dsimp -proj only
  repeat' first
    | with_reducible assumption
    | with_reducible apply OnlyChanges.refl
    | with_reducible apply OnlyChanges.ite
    | (with_reducible apply OnlyChanges.step sendBis_frame; (on_goal 1 => decide))
    | (with_reducible apply OnlyChanges.step putMshr_frame; (on_goal 1 => decide))
    | (with_reducible apply OnlyChanges.step setDir_frame; (on_goal 1 => decide))
    | (with_reducible apply OnlyChanges.step modMshr_frame; (on_goal 1 => decide))
    | (with_reducible apply OnlyChanges.step snpAll_frame; (on_goal 1 => decide))
    | split

theorem filterBad_frame {a0} {a1} {x : State} : OnlyChanges [.pmc, .trb, .cache, .dram, .coh, .fab, .portA, .portB, .freeCtr, .outs] x (filterBad a0 a1 x) := by
  unfold filterBad
  repeat' first
    | with_reducible assumption
    | with_reducible apply OnlyChanges.refl
    | (extract_lets +onlyGivenNames y; guard_hyp y : State := Prod.snd _; subst y)
    | (extract_lets +onlyGivenNames y; guard_hyp y : State := _; apply OnlyChanges.cut y; (on_goal 1 => (unfold y; clear y)); (on_goal 2 => (intro hx; clear_value y)))
    | (extract_lets +onlyGivenNames y; guard_hyp y : _ × State := _; apply OnlyChanges.cutP y; (on_goal 1 => (unfold y; clear y)); (on_goal 2 => (intro hx; clear_value y)))
    | (extract_lets +onlyGivenNames y; guard_hyp y : _ × _ × State := _; apply OnlyChanges.cutPP y; (on_goal 1 => (unfold y; clear y)); (on_goal 2 => (intro hx; clear_value y)))
    | (extract_lets +onlyGivenNames y; guard_hyp y : Boxes := _; subst y)
    | (extract_lets +onlyGivenNames y; guard_hyp y : Power := _; subst y)
    | (extract_lets +onlyGivenNames y; guard_hyp y : Trans := _; subst y)
    | (extract_lets +onlyGivenNames y; guard_hyp y : Prot := _; subst y)
    | (extract_lets +onlyGivenNames y; guard_hyp y : Persist := _; subst y)
    | (extract_lets +onlyGivenNames y; guard_hyp y : Sgl := _; subst y)
    | (extract_lets +onlyGivenNames y; guard_hyp y : Sec := _; subst y)
    | (extract_lets +onlyGivenNames y; clear_value y)
    | extract_lets +onlyGivenNames y
    | with_reducible apply OnlyChanges.ite
    | (with_reducible apply OnlyChanges.step sendBis_frame; (on_goal 1 => decide))
    | (with_reducible apply OnlyChanges.step pxGo_frame; (on_goal 1 => decide))
    | (with_reducible apply OnlyChanges.step modPx_frame; (on_goal 1 => decide))
    | (with_reducible apply OnlyChanges.step rebuildEntry_frame; (on_goal 1 => decide))
    | split

theorem poisonMshr_frame {a0} {a1} {x : State} : OnlyChanges [.evr, .pmc, .trb, .sched, .tr, .prot, .per, .ck, .cache, .dram, .coh, .fab, .portA, .portB, .cxlA, .cxlB, .sec, .freeCtr, .outs] x (poisonMshr a0 a1 x) := by
  unfold poisonMshr
  repeat' first
    | with_reducible assumption
    | with_reducible apply OnlyChanges.refl
    | with_reducible apply OnlyChanges.ite
    | (with_reducible apply OnlyChanges.step pxGo_frame; (on_goal 1 => decide))
    | (with_reducible apply OnlyChanges.step delMshr_frame; (on_goal 1 => decide))
    | (with_reducible apply OnlyChanges.step modMshr_frame; (on_goal 1 => decide))
    | (with_reducible apply OnlyChanges.step answerLost_frame; (on_goal 1 => decide))
    | (with_reducible apply OnlyChanges.step deliver_frame; (on_goal 1 => decide))
    | (with_reducible apply OnlyChanges.step popFirst_frame; (on_goal 1 => decide))
    | split

theorem dropLook_frame {a0} {x : State} : OnlyChanges [.tr] x (dropLook a0 x) := by
  unfold dropLook
  repeat' first
    | with_reducible assumption
    | with_reducible apply OnlyChanges.refl
    | (extract_lets +onlyGivenNames y; guard_hyp y : State := Prod.snd _; subst y)
    | (extract_lets +onlyGivenNames y; guard_hyp y : State := _; apply OnlyChanges.cut y; (on_goal 1 => (unfold y; clear y)); (on_goal 2 => (intro hx; clear_value y)))
    | (extract_lets +onlyGivenNames y; guard_hyp y : _ × State := _; apply OnlyChanges.cutP y; (on_goal 1 => (unfold y; clear y)); (on_goal 2 => (intro hx; clear_value y)))
    | (extract_lets +onlyGivenNames y; guard_hyp y : _ × _ × State := _; apply OnlyChanges.cutPP y; (on_goal 1 => (unfold y; clear y)); (on_goal 2 => (intro hx; clear_value y)))
    | (extract_lets +onlyGivenNames y; guard_hyp y : Boxes := _; subst y)
    | (extract_lets +onlyGivenNames y; guard_hyp y : Power := _; subst y)
    | (extract_lets +onlyGivenNames y; guard_hyp y : Trans := _; subst y)
    | (extract_lets +onlyGivenNames y; guard_hyp y : Prot := _; subst y)
    | (extract_lets +onlyGivenNames y; guard_hyp y : Persist := _; subst y)
    | (extract_lets +onlyGivenNames y; guard_hyp y : Sgl := _; subst y)
    | (extract_lets +onlyGivenNames y; guard_hyp y : Sec := _; subst y)
    | (extract_lets +onlyGivenNames y; clear_value y)
    | extract_lets +onlyGivenNames y
    | with_reducible apply OnlyChanges.ite
    | split
    | (with_reducible apply OnlyChanges.upd128; (on_goal 1 => decide); (on_goal 1 => (first | exact Or.inr (by with_reducible rfl) | exact Or.inl (by decide) | exact Or.inr rfl)))

theorem meetEntry_frame {a0} {a1} {a2} {x : State} : OnlyChanges [.evr, .pmc, .trb, .sched, .tr, .prot, .per, .ck, .cache, .dram, .coh, .fab, .portA, .portB, .cxlA, .cxlB, .sec, .freeCtr, .outs] x (meetEntry a0 a1 a2 x) := by
  unfold meetEntry
  repeat' first
    | with_reducible assumption
    | with_reducible apply OnlyChanges.refl
    | (extract_lets +onlyGivenNames y; guard_hyp y : State := Prod.snd _; subst y)
    | (extract_lets +onlyGivenNames y; guard_hyp y : State := _; apply OnlyChanges.cut y; (on_goal 1 => (unfold y; clear y)); (on_goal 2 => (intro hx; clear_value y)))
    | (extract_lets +onlyGivenNames y; guard_hyp y : _ × State := _; apply OnlyChanges.cutP y; (on_goal 1 => (unfold y; clear y)); (on_goal 2 => (intro hx; clear_value y)))
    | (extract_lets +onlyGivenNames y; guard_hyp y : _ × _ × State := _; apply OnlyChanges.cutPP y; (on_goal 1 => (unfold y; clear y)); (on_goal 2 => (intro hx; clear_value y)))
    | (extract_lets +onlyGivenNames y; guard_hyp y : Boxes := _; subst y)
    | (extract_lets +onlyGivenNames y; guard_hyp y : Power := _; subst y)
    | (extract_lets +onlyGivenNames y; guard_hyp y : Trans := _; subst y)
    | (extract_lets +onlyGivenNames y; guard_hyp y : Prot := _; subst y)
    | (extract_lets +onlyGivenNames y; guard_hyp y : Persist := _; subst y)
    | (extract_lets +onlyGivenNames y; guard_hyp y : Sgl := _; subst y)
    | (extract_lets +onlyGivenNames y; guard_hyp y : Sec := _; subst y)
    | (extract_lets +onlyGivenNames y; clear_value y)
    | extract_lets +onlyGivenNames y
    | with_reducible apply OnlyChanges.ite
    | (with_reducible apply OnlyChanges.step filterBad_frame; (on_goal 1 => decide))
    | (with_reducible apply OnlyChanges.step rebuildEntry_frame; (on_goal 1 => decide))
    | (with_reducible apply OnlyChanges.step poisonMshr_frame; (on_goal 1 => decide))
    | (with_reducible apply OnlyChanges.step dropLook_frame; (on_goal 1 => decide))
    | split
    | (with_reducible apply OnlyChanges.upd128; (on_goal 1 => decide); (on_goal 1 => (first | exact Or.inr (by with_reducible rfl) | exact Or.inl (by decide) | exact Or.inr rfl)))

theorem execHostMemRd_frame {a0} {a1} {a2} {a3} {x t : State} (h : execHostMemRd a0 a1 a2 a3 x = .next t) :
    OnlyChanges [.pw, .evr, .pmc, .trb, .sched, .tr, .prot, .per, .ck, .cache, .dram, .coh, .fab, .portA, .portB, .cxlA, .cxlB, .sec, .freeCtr, .outs] x t := by
  unfold execHostMemRd at h
  first
    | (injection h with h; subst h)
    | (split at h <;> (first | (injection h with h; subst h) | cases h))
  all_goals
    repeat' first
      | with_reducible assumption
      | with_reducible apply OnlyChanges.refl
      | (extract_lets +onlyGivenNames y; guard_hyp y : State := Prod.snd _; subst y)
      | (extract_lets +onlyGivenNames y; guard_hyp y : State := _; apply OnlyChanges.cut y; (on_goal 1 => (unfold y; clear y)); (on_goal 2 => (intro hx; clear_value y)))
      | (extract_lets +onlyGivenNames y; guard_hyp y : _ × State := _; apply OnlyChanges.cutP y; (on_goal 1 => (unfold y; clear y)); (on_goal 2 => (intro hx; clear_value y)))
      | (extract_lets +onlyGivenNames y; guard_hyp y : _ × _ × State := _; apply OnlyChanges.cutPP y; (on_goal 1 => (unfold y; clear y)); (on_goal 2 => (intro hx; clear_value y)))
      | (extract_lets +onlyGivenNames y; guard_hyp y : Boxes := _; subst y)
      | (extract_lets +onlyGivenNames y; guard_hyp y : Power := _; subst y)
      | (extract_lets +onlyGivenNames y; guard_hyp y : Trans := _; subst y)
      | (extract_lets +onlyGivenNames y; guard_hyp y : Prot := _; subst y)
      | (extract_lets +onlyGivenNames y; guard_hyp y : Persist := _; subst y)
      | (extract_lets +onlyGivenNames y; guard_hyp y : Sgl := _; subst y)
      | (extract_lets +onlyGivenNames y; guard_hyp y : Sec := _; subst y)
      | (extract_lets +onlyGivenNames y; clear_value y)
      | extract_lets +onlyGivenNames y
      | with_reducible apply OnlyChanges.ite
      | (with_reducible apply OnlyChanges.step traceDone_frame; (on_goal 1 => decide))
      | (with_reducible apply OnlyChanges.step violate_frame; (on_goal 1 => decide))
      | (with_reducible apply OnlyChanges.step updateMode_frame; (on_goal 1 => decide))
      | (with_reducible apply OnlyChanges.step noteInput_frame; (on_goal 1 => decide))
      | (with_reducible apply OnlyChanges.step trackRead_frame; (on_goal 1 => decide))
      | (with_reducible apply OnlyChanges.step meetEntry_frame; (on_goal 1 => decide))
      | (with_reducible apply OnlyChanges.step remoteRequest_frame; (on_goal 1 => decide))
      | (with_reducible apply OnlyChanges.step traceSeen_frame; (on_goal 1 => decide))
      | (with_reducible apply OnlyChanges.step streamRead_frame; (on_goal 1 => decide))
      | (with_reducible apply OnlyChanges.step emit_frame; (on_goal 1 => decide))
      | (with_reducible apply OnlyChanges.step wake_frame; (on_goal 1 => decide))
      | (with_reducible apply OnlyChanges.step useReq_frame; (on_goal 1 => decide))
      | (with_reducible apply OnlyChanges.step localRequest_frame; (on_goal 1 => decide))
      | split

theorem execDramCacheTagResult_frame {a0} {a1} {x t : State} (h : execDramCacheTagResult a0 a1 x = .next t) :
    OnlyChanges [.evr, .pmc, .trb, .sched, .tr, .dr, .prot, .per, .ck, .cache, .dram, .coh, .fab, .portA, .portB, .cxlA, .cxlB, .sec, .freeCtr, .outs] x t := by
  unfold execDramCacheTagResult at h
  first
    | (injection h with h; subst h)
    | (split at h <;> (first | (injection h with h; subst h) | cases h))
  all_goals
    repeat' first
      | with_reducible assumption
      | with_reducible apply OnlyChanges.refl
      | with_reducible apply OnlyChanges.ite
      | (with_reducible apply OnlyChanges.step homeTagResult_frame; (on_goal 1 => decide))
      | (with_reducible apply OnlyChanges.step remoteTagResult_frame; (on_goal 1 => decide))
      | split

theorem execHostMemWr_frame {a0} {a1} {a2} {a3} {a4} {a5} {a6} {x t : State} (h : execHostMemWr a0 a1 a2 a3 a4 a5 a6 x = .next t) :
    OnlyChanges [.pw, .evr, .pmc, .trb, .sched, .tr, .prot, .per, .ck, .cache, .dram, .coh, .fab, .portA, .portB, .cxlA, .cxlB, .sec, .freeCtr, .outs] x t := by
  unfold execHostMemWr at h
  first
    | (injection h with h; subst h)
    | (split at h <;> (first | (injection h with h; subst h) | cases h))
  all_goals
    repeat' first
      | with_reducible assumption
      | with_reducible apply OnlyChanges.refl
      | (extract_lets +onlyGivenNames y; guard_hyp y : State := Prod.snd _; subst y)
      | (extract_lets +onlyGivenNames y; guard_hyp y : State := _; apply OnlyChanges.cut y; (on_goal 1 => (unfold y; clear y)); (on_goal 2 => (intro hx; clear_value y)))
      | (extract_lets +onlyGivenNames y; guard_hyp y : _ × State := _; apply OnlyChanges.cutP y; (on_goal 1 => (unfold y; clear y)); (on_goal 2 => (intro hx; clear_value y)))
      | (extract_lets +onlyGivenNames y; guard_hyp y : _ × _ × State := _; apply OnlyChanges.cutPP y; (on_goal 1 => (unfold y; clear y)); (on_goal 2 => (intro hx; clear_value y)))
      | (extract_lets +onlyGivenNames y; guard_hyp y : Boxes := _; subst y)
      | (extract_lets +onlyGivenNames y; guard_hyp y : Power := _; subst y)
      | (extract_lets +onlyGivenNames y; guard_hyp y : Trans := _; subst y)
      | (extract_lets +onlyGivenNames y; guard_hyp y : Prot := _; subst y)
      | (extract_lets +onlyGivenNames y; guard_hyp y : Persist := _; subst y)
      | (extract_lets +onlyGivenNames y; guard_hyp y : Sgl := _; subst y)
      | (extract_lets +onlyGivenNames y; guard_hyp y : Sec := _; subst y)
      | (extract_lets +onlyGivenNames y; clear_value y)
      | extract_lets +onlyGivenNames y
      | with_reducible apply OnlyChanges.ite
      | (with_reducible apply OnlyChanges.step traceDone_frame; (on_goal 1 => decide))
      | (with_reducible apply OnlyChanges.step State.setPort_frame; (on_goal 1 => decide))
      | (with_reducible apply OnlyChanges.step violate_frame; (on_goal 1 => decide))
      | (with_reducible apply OnlyChanges.step updateMode_frame; (on_goal 1 => decide))
      | (with_reducible apply OnlyChanges.step noteInput_frame; (on_goal 1 => decide))
      | (with_reducible apply OnlyChanges.step meetEntry_frame; (on_goal 1 => decide))
      | (with_reducible apply OnlyChanges.step remoteRequest_frame; (on_goal 1 => decide))
      | (with_reducible apply OnlyChanges.step traceSeen_frame; (on_goal 1 => decide))
      | (with_reducible apply OnlyChanges.step emit_frame; (on_goal 1 => decide))
      | (with_reducible apply OnlyChanges.step useRwd_frame; (on_goal 1 => decide))
      | (with_reducible apply OnlyChanges.step wake_frame; (on_goal 1 => decide))
      | (with_reducible apply OnlyChanges.step localRequest_frame; (on_goal 1 => decide))
      | split

theorem execBiConflict_frame {a0} {a1} {a2} {a3} {x t : State} (h : execBiConflict a0 a1 a2 a3 x = .next t) :
    OnlyChanges [.outs] x t := by
  unfold execBiConflict at h
  first
    | (injection h with h; subst h)
    | (split at h <;> (first | (injection h with h; subst h) | cases h))
  all_goals
    repeat' first
      | with_reducible assumption
      | with_reducible apply OnlyChanges.refl
      | with_reducible apply OnlyChanges.ite
      | (with_reducible apply OnlyChanges.step emit_frame; (on_goal 1 => decide))
      | split

theorem execEvictionDone_frame {a0} {a1} {a2} {x t : State} (h : execEvictionDone a0 a1 a2 x = .next t) :
    OnlyChanges [.evr, .pmc, .trb, .sched, .tr, .prot, .per, .ck, .cache, .dram, .coh, .fab, .portA, .portB, .cxlA, .cxlB, .sec, .freeCtr, .outs] x t := by
  unfold execEvictionDone at h
  first
    | (injection h with h; subst h)
    | (split at h <;> (first | (injection h with h; subst h) | cases h))
  all_goals
    repeat' first
      | with_reducible assumption
      | with_reducible apply OnlyChanges.refl
      | (extract_lets +onlyGivenNames y; guard_hyp y : State := Prod.snd _; subst y)
      | (extract_lets +onlyGivenNames y; guard_hyp y : State := _; apply OnlyChanges.cut y; (on_goal 1 => (unfold y; clear y)); (on_goal 2 => (intro hx; clear_value y)))
      | (extract_lets +onlyGivenNames y; guard_hyp y : _ × State := _; apply OnlyChanges.cutP y; (on_goal 1 => (unfold y; clear y)); (on_goal 2 => (intro hx; clear_value y)))
      | (extract_lets +onlyGivenNames y; guard_hyp y : _ × _ × State := _; apply OnlyChanges.cutPP y; (on_goal 1 => (unfold y; clear y)); (on_goal 2 => (intro hx; clear_value y)))
      | (extract_lets +onlyGivenNames y; guard_hyp y : Boxes := _; subst y)
      | (extract_lets +onlyGivenNames y; guard_hyp y : Power := _; subst y)
      | (extract_lets +onlyGivenNames y; guard_hyp y : Trans := _; subst y)
      | (extract_lets +onlyGivenNames y; guard_hyp y : Prot := _; subst y)
      | (extract_lets +onlyGivenNames y; guard_hyp y : Persist := _; subst y)
      | (extract_lets +onlyGivenNames y; guard_hyp y : Sgl := _; subst y)
      | (extract_lets +onlyGivenNames y; guard_hyp y : Sec := _; subst y)
      | (extract_lets +onlyGivenNames y; clear_value y)
      | extract_lets +onlyGivenNames y
      | with_reducible apply OnlyChanges.ite
      | (with_reducible apply OnlyChanges.step afterEvict_frame; (on_goal 1 => decide))
      | (with_reducible apply OnlyChanges.step endEvict_frame; (on_goal 1 => decide))
      | (with_reducible apply OnlyChanges.step remoteFill_frame; (on_goal 1 => decide))
      | (with_reducible apply OnlyChanges.foldl; (on_goal 2 => intro z a))
      | (with_reducible apply OnlyChangesP.foldl; (on_goal 2 => intro z a))
      | split

theorem execLpddr6ReadDone_frame {a0} {a1} {a2} {x t : State} (h : execLpddr6ReadDone a0 a1 a2 x = .next t) :
    OnlyChanges [.evr, .pmc, .trb, .sched, .tr, .dr, .prot, .per, .ck, .cache, .dram, .coh, .fab, .portA, .portB, .cxlA, .cxlB, .sec, .freeCtr, .outs] x t := by
  unfold execLpddr6ReadDone at h
  first
    | (injection h with h; subst h)
    | (split at h <;> (first | (injection h with h; subst h) | cases h))
  all_goals
    repeat' first
      | with_reducible assumption
      | with_reducible apply OnlyChanges.refl
      | with_reducible apply OnlyChanges.ite
      | (with_reducible apply OnlyChanges.step remoteDramRead_frame; (on_goal 1 => decide))
      | (with_reducible apply OnlyChanges.step homeDramRead_frame; (on_goal 1 => decide))
      | split

end Sys2Proof.Machine
end

