-- ==== Sys2Proof/Laws/FrameBcs.lean ====
section
/-! SUPPORT. The parts of the state that each operation of Machine/Bcs.lean may change; every other part it leaves
alone. -/

set_option linter.all false

namespace Sys2Proof.Machine

theorem setSlot_frame {a0} {a1} {x : State} : OnlyChanges [.mb] x (setSlot a0 a1 x) := by
  unfold setSlot
  repeat' first
    | with_reducible assumption
    | with_reducible apply OnlyChanges.refl
    | (extract_lets +onlyGivenNames y; guard_hyp y : State := Prod.snd _; subst y)
    | (extract_lets +onlyGivenNames y; guard_hyp y : State := _; apply OnlyChanges.cut y; (on_goal 1 => (unfold y; clear y)); (on_goal 2 => (intro hx; clear_value y)))
    | (extract_lets +onlyGivenNames y; guard_hyp y : _ × State := _; apply OnlyChanges.cutP y; (on_goal 1 => (unfold y; clear y)); (on_goal 2 => (intro hx; clear_value y)))
    | (extract_lets +onlyGivenNames y; guard_hyp y : _ × _ × State := _; apply OnlyChanges.cutPP y; (on_goal 1 => (unfold y; clear y)); (on_goal 2 => (intro hx; clear_value y)))
    | (extract_lets +onlyGivenNames y; guard_hyp y : Boxes := _; subst y)
    | (extract_lets +onlyGivenNames y; guard_hyp y : Power := _; subst y)
    | (extract_lets +onlyGivenNames y; guard_hyp y : Trans := _; subst y)
    | (extract_lets +onlyGivenNames y; guard_hyp y : Prot := _; subst y)
    | (extract_lets +onlyGivenNames y; guard_hyp y : Persist := _; subst y)
    | (extract_lets +onlyGivenNames y; guard_hyp y : Sgl := _; subst y)
    | (extract_lets +onlyGivenNames y; guard_hyp y : Sec := _; subst y)
    | (extract_lets +onlyGivenNames y; clear_value y)
    | extract_lets +onlyGivenNames y
    | with_reducible apply OnlyChanges.ite
    | split
    | (with_reducible apply OnlyChanges.upd32; (on_goal 1 => decide); (on_goal 1 => (first | exact Or.inr (by with_reducible rfl) | exact Or.inl (by decide) | exact Or.inr rfl)))

theorem fwWrite_frame {a0} {a1} {x : State} : OnlyChangesP [.mb] x (fwWrite a0 a1 x) := by
  unfold fwWrite
  repeat' first
    | with_reducible assumption
    | with_reducible apply OnlyChanges.refl
    | (extract_lets +onlyGivenNames y; guard_hyp y : State := Prod.snd _; subst y)
    | (extract_lets +onlyGivenNames y; guard_hyp y : State := _; apply OnlyChangesP.cut y; (on_goal 1 => (unfold y; clear y)); (on_goal 2 => (intro hx; clear_value y)))
    | (extract_lets +onlyGivenNames y; guard_hyp y : _ × State := _; apply OnlyChangesP.cutP y; (on_goal 1 => (unfold y; clear y)); (on_goal 2 => (intro hx; clear_value y)))
    | (extract_lets +onlyGivenNames y; guard_hyp y : _ × _ × State := _; apply OnlyChangesP.cutPP y; (on_goal 1 => (unfold y; clear y)); (on_goal 2 => (intro hx; clear_value y)))
    | (extract_lets +onlyGivenNames y; guard_hyp y : Boxes := _; subst y)
    | (extract_lets +onlyGivenNames y; guard_hyp y : Power := _; subst y)
    | (extract_lets +onlyGivenNames y; guard_hyp y : Trans := _; subst y)
    | (extract_lets +onlyGivenNames y; guard_hyp y : Prot := _; subst y)
    | (extract_lets +onlyGivenNames y; guard_hyp y : Persist := _; subst y)
    | (extract_lets +onlyGivenNames y; guard_hyp y : Sgl := _; subst y)
    | (extract_lets +onlyGivenNames y; guard_hyp y : Sec := _; subst y)
    | (extract_lets +onlyGivenNames y; clear_value y)
    | extract_lets +onlyGivenNames y
    | with_reducible apply OnlyChanges.ite
    | with_reducible apply OnlyChangesP.ite
    | (with_reducible apply OnlyChanges.step setSlot_frame; (on_goal 1 => decide))
    | (with_reducible apply OnlyChanges.foldl; (on_goal 2 => intro z a))
    | (with_reducible apply OnlyChangesP.foldl; (on_goal 2 => intro z a))
    | split
    | with_reducible apply OnlyChangesP.mk

theorem takePayload_frame {a0} {a1} {a2} {a3} {x : State} : OnlyChangesP [.mb] x (takePayload a0 a1 a2 a3 x) := by
  unfold takePayload
  repeat' first
    | with_reducible assumption
    | with_reducible apply OnlyChanges.refl
    | (extract_lets +onlyGivenNames y; guard_hyp y : State := Prod.snd _; subst y)
    | (extract_lets +onlyGivenNames y; guard_hyp y : State := _; apply OnlyChangesP.cut y; (on_goal 1 => (unfold y; clear y)); (on_goal 2 => (intro hx; clear_value y)))
    | (extract_lets +onlyGivenNames y; guard_hyp y : _ × State := _; apply OnlyChangesP.cutP y; (on_goal 1 => (unfold y; clear y)); (on_goal 2 => (intro hx; clear_value y)))
    | (extract_lets +onlyGivenNames y; guard_hyp y : _ × _ × State := _; apply OnlyChangesP.cutPP y; (on_goal 1 => (unfold y; clear y)); (on_goal 2 => (intro hx; clear_value y)))
    | (extract_lets +onlyGivenNames y; guard_hyp y : Boxes := _; subst y)
    | (extract_lets +onlyGivenNames y; guard_hyp y : Power := _; subst y)
    | (extract_lets +onlyGivenNames y; guard_hyp y : Trans := _; subst y)
    | (extract_lets +onlyGivenNames y; guard_hyp y : Prot := _; subst y)
    | (extract_lets +onlyGivenNames y; guard_hyp y : Persist := _; subst y)
    | (extract_lets +onlyGivenNames y; guard_hyp y : Sgl := _; subst y)
    | (extract_lets +onlyGivenNames y; guard_hyp y : Sec := _; subst y)
    | (extract_lets +onlyGivenNames y; clear_value y)
    | extract_lets +onlyGivenNames y
    | with_reducible apply OnlyChanges.ite
    | with_reducible apply OnlyChangesP.ite
    | (with_reducible apply OnlyChanges.step modBox_frame; (on_goal 1 => decide))
    | split
    | with_reducible apply OnlyChangesP.mk

theorem openOp_frame {a0} {a1} {a2} {a3} {x : State} : OnlyChanges [.mb] x (openOp a0 a1 a2 a3 x) := by
  unfold openOp
  repeat' first
    | with_reducible assumption
    | with_reducible apply OnlyChanges.refl
    | (extract_lets +onlyGivenNames y; guard_hyp y : State := Prod.snd _; subst y)
    | (extract_lets +onlyGivenNames y; guard_hyp y : State := _; apply OnlyChanges.cut y; (on_goal 1 => (unfold y; clear y)); (on_goal 2 => (intro hx; clear_value y)))
    | (extract_lets +onlyGivenNames y; guard_hyp y : _ × State := _; apply OnlyChanges.cutP y; (on_goal 1 => (unfold y; clear y)); (on_goal 2 => (intro hx; clear_value y)))
    | (extract_lets +onlyGivenNames y; guard_hyp y : _ × _ × State := _; apply OnlyChanges.cutPP y; (on_goal 1 => (unfold y; clear y)); (on_goal 2 => (intro hx; clear_value y)))
    | (extract_lets +onlyGivenNames y; guard_hyp y : Boxes := _; subst y)
    | (extract_lets +onlyGivenNames y; guard_hyp y : Power := _; subst y)
    | (extract_lets +onlyGivenNames y; guard_hyp y : Trans := _; subst y)
    | (extract_lets +onlyGivenNames y; guard_hyp y : Prot := _; subst y)
    | (extract_lets +onlyGivenNames y; guard_hyp y : Persist := _; subst y)
    | (extract_lets +onlyGivenNames y; guard_hyp y : Sgl := _; subst y)
    | (extract_lets +onlyGivenNames y; guard_hyp y : Sec := _; subst y)
    | (extract_lets +onlyGivenNames y; clear_value y)
    | extract_lets +onlyGivenNames y
    | with_reducible apply OnlyChanges.ite
    | split
    | (with_reducible apply OnlyChanges.upd32; (on_goal 1 => decide); (on_goal 1 => (first | exact Or.inr (by with_reducible rfl) | exact Or.inl (by decide) | exact Or.inr rfl)))

theorem conclude_frame {L : List Part} {a0 a1 a2} {x : State} {o : Fin} (hs : partsWithin [.mb, .fab, .outs] L = true)
    (h : OnlyChangesF L x o) : OnlyChanges L x (conclude a0 a1 a2 o) := by
  cases o
  · exact OnlyChanges.trans h (ackHead_frame.widen (partsWithin_trans (by decide) hs))
  · exact OnlyChanges.trans (OnlyChanges.trans h (openOp_frame.widen (partsWithin_trans (by decide) hs)))
      (ackHead_frame.widen (partsWithin_trans (by decide) hs))
  · exact h

theorem withGate_frame {L : List Part} {a0 a1 a2 f} {s x : State} (hs : partsWithin [.mb, .fab, .outs] L = true) (hf : ∀ ws y, OnlyChangesF L y (f ws y))
    (h0 : OnlyChanges L s x) : OnlyChanges L s (withGate a0 a1 a2 f x) := by
  refine h0.trans ?_
  unfold withGate
  have hp := fun lo hi => (takePayload_frame (a0 := a1) (a1 := a2) (a2 := lo) (a3 := hi) (x := x)).widen
    (partsWithin_trans (M := [.mb, .fab, .outs]) (by decide) hs)
  split
  · exact ackHead_frame.widen (partsWithin_trans (by decide) hs)
  · split
    · exact conclude_frame hs (hf _ _)
    · extract_lets p
      split
      · exact OnlyChanges.trans (hp _ _) (ackHead_frame.widen (partsWithin_trans (by decide) hs))
      · exact OnlyChanges.trans (hp _ _) (conclude_frame hs (hf _ _))

theorem bcsFwData_frame {a0} {a1} {x : State} : OnlyChanges [.mb, .fab, .outs] x (bcsFwData a0 a1 x) := by
  unfold bcsFwData
  repeat' first
    | with_reducible assumption
    | with_reducible apply OnlyChanges.refl
    | (extract_lets +onlyGivenNames y; guard_hyp y : State := Prod.snd _; subst y)
    | (extract_lets +onlyGivenNames y; guard_hyp y : State := _; apply OnlyChangesF.cut y; (on_goal 1 => (unfold y; clear y)); (on_goal 2 => (intro hx; clear_value y)))
    | (extract_lets +onlyGivenNames y; guard_hyp y : _ × State := _; apply OnlyChangesF.cutP y; (on_goal 1 => (unfold y; clear y)); (on_goal 2 => (intro hx; clear_value y)))
    | (extract_lets +onlyGivenNames y; guard_hyp y : _ × _ × State := _; apply OnlyChangesF.cutPP y; (on_goal 1 => (unfold y; clear y)); (on_goal 2 => (intro hx; clear_value y)))
    | (extract_lets +onlyGivenNames y; guard_hyp y : Boxes := _; subst y)
    | (extract_lets +onlyGivenNames y; guard_hyp y : Power := _; subst y)
    | (extract_lets +onlyGivenNames y; guard_hyp y : Trans := _; subst y)
    | (extract_lets +onlyGivenNames y; guard_hyp y : Prot := _; subst y)
    | (extract_lets +onlyGivenNames y; guard_hyp y : Persist := _; subst y)
    | (extract_lets +onlyGivenNames y; guard_hyp y : Sgl := _; subst y)
    | (extract_lets +onlyGivenNames y; guard_hyp y : Sec := _; subst y)
    | (extract_lets +onlyGivenNames y; clear_value y)
    | extract_lets +onlyGivenNames y
    | with_reducible apply OnlyChanges.ite
    | (with_reducible apply OnlyChangesP.step fwWrite_frame; (on_goal 1 => decide))
    | (with_reducible apply OnlyChangesP.snd fwWrite_frame; (on_goal 1 => decide))
    | (with_reducible apply withGate_frame; (on_goal 1 => decide))
    | with_reducible apply OnlyChangesF.ack
    | with_reducible apply OnlyChangesF.bg
    | with_reducible apply OnlyChangesF.wait
    | with_reducible apply OnlyChangesF.ite
    | (with_reducible apply OnlyChanges.ofPair; (on_goal 1 => assumption))
    | with_reducible intro _
    | split

theorem execFwCheckDone_frame {a0} {a1} {a2} {a3} {x t : State} (h : execFwCheckDone a0 a1 a2 a3 x = .next t) :
    OnlyChanges [.evr, .mb, .fab, .cxlA, .cxlB, .sec, .outs] x t := by
  unfold execFwCheckDone at h
  first
    | (injection h with h; subst h)
    | (split at h <;> (first | (injection h with h; subst h) | cases h))
  all_goals
    repeat' first
      | with_reducible assumption
      | with_reducible apply OnlyChanges.refl
      | (extract_lets +onlyGivenNames y; guard_hyp y : State := Prod.snd _; subst y)
      | (extract_lets +onlyGivenNames y; guard_hyp y : State := _; apply OnlyChanges.cut y; (on_goal 1 => (unfold y; clear y)); (on_goal 2 => (intro hx; clear_value y)))
      | (extract_lets +onlyGivenNames y; guard_hyp y : _ × State := _; apply OnlyChanges.cutP y; (on_goal 1 => (unfold y; clear y)); (on_goal 2 => (intro hx; clear_value y)))
      | (extract_lets +onlyGivenNames y; guard_hyp y : _ × _ × State := _; apply OnlyChanges.cutPP y; (on_goal 1 => (unfold y; clear y)); (on_goal 2 => (intro hx; clear_value y)))
      | (extract_lets +onlyGivenNames y; guard_hyp y : Boxes := _; subst y)
      | (extract_lets +onlyGivenNames y; guard_hyp y : Power := _; subst y)
      | (extract_lets +onlyGivenNames y; guard_hyp y : Trans := _; subst y)
      | (extract_lets +onlyGivenNames y; guard_hyp y : Prot := _; subst y)
      | (extract_lets +onlyGivenNames y; guard_hyp y : Persist := _; subst y)
      | (extract_lets +onlyGivenNames y; guard_hyp y : Sgl := _; subst y)
      | (extract_lets +onlyGivenNames y; guard_hyp y : Sec := _; subst y)
      | (extract_lets +onlyGivenNames y; clear_value y)
      | extract_lets +onlyGivenNames y
      | with_reducible apply OnlyChanges.ite
      | (with_reducible apply OnlyChanges.step alarm_frame; (on_goal 1 => decide))
      | (with_reducible apply OnlyChanges.step event_frame; (on_goal 1 => decide))
      | (with_reducible apply OnlyChanges.step setSlot_frame; (on_goal 1 => decide))
      | (with_reducible apply OnlyChanges.step endOps_frame; (on_goal 1 => decide))
      | split
      | (with_reducible apply OnlyChanges.upd1572864; (on_goal 1 => decide))

theorem postIfFree_frame {a0} {a1} {a2} {x : State} : OnlyChanges [.mb] x (postIfFree a0 a1 a2 x) := by
  unfold postIfFree
  repeat' first
    | with_reducible assumption
    | with_reducible apply OnlyChanges.refl
    | (extract_lets +onlyGivenNames y; guard_hyp y : State := Prod.snd _; subst y)
    | (extract_lets +onlyGivenNames y; guard_hyp y : State := _; apply OnlyChanges.cut y; (on_goal 1 => (unfold y; clear y)); (on_goal 2 => (intro hx; clear_value y)))
    | (extract_lets +onlyGivenNames y; guard_hyp y : _ × State := _; apply OnlyChanges.cutP y; (on_goal 1 => (unfold y; clear y)); (on_goal 2 => (intro hx; clear_value y)))
    | (extract_lets +onlyGivenNames y; guard_hyp y : _ × _ × State := _; apply OnlyChanges.cutPP y; (on_goal 1 => (unfold y; clear y)); (on_goal 2 => (intro hx; clear_value y)))
    | (extract_lets +onlyGivenNames y; guard_hyp y : Boxes := _; subst y)
    | (extract_lets +onlyGivenNames y; guard_hyp y : Power := _; subst y)
    | (extract_lets +onlyGivenNames y; guard_hyp y : Trans := _; subst y)
    | (extract_lets +onlyGivenNames y; guard_hyp y : Prot := _; subst y)
    | (extract_lets +onlyGivenNames y; guard_hyp y : Persist := _; subst y)
    | (extract_lets +onlyGivenNames y; guard_hyp y : Sgl := _; subst y)
    | (extract_lets +onlyGivenNames y; guard_hyp y : Sec := _; subst y)
    | (extract_lets +onlyGivenNames y; clear_value y)
    | extract_lets +onlyGivenNames y
    | with_reducible apply OnlyChanges.ite
    | (with_reducible apply OnlyChanges.step modBox_frame; (on_goal 1 => decide))
    | split

theorem takeHead_frame {L : List Part} {a0 a1 a2 f} {s x : State} (hs : partsWithin [.evr, .pmc, .mb, .fab, .cxlA, .cxlB, .freeCtr, .outs] L = true) (hf : ∀ y, OnlyChanges L y (f y))
    (h0 : OnlyChanges L s x) : OnlyChanges L s (takeHead a0 a1 a2 f x) := by
  refine h0.trans ?_
  unfold takeHead
  extract_lets y
  split
  · exact ackHead_frame.widen (by exact partsWithin_trans (by decide) hs) |> OnlyChanges.trans (event_frame.widen (partsWithin_trans (by decide) hs)) |> OnlyChanges.trans (count_frame.widen (partsWithin_trans (by decide) hs))
  · exact OnlyChanges.trans (count_frame.widen (partsWithin_trans (by decide) hs)) (hf _)

theorem runMsg_frame {L : List Part} {a0 a1 a2 f} {s x : State} (hs : partsWithin [.evr, .pmc, .mb, .fab, .cxlA, .cxlB, .freeCtr, .outs] L = true) (hf : ∀ y, OnlyChanges L y (f y))
    (h0 : OnlyChanges L s x) : OnlyChanges L s (runMsg a0 a1 a2 f x) := by
  refine h0.trans ?_
  unfold runMsg
  have hp := (postIfFree_frame (a0 := a1) (a1 := a0) (a2 := a2) (x := x)).widen (partsWithin_trans (M := [.evr, .pmc, .mb, .fab, .cxlA, .cxlB, .freeCtr, .outs]) (by decide) hs)
  extract_lets y
  split
  · exact OnlyChanges.refl _ _
  · split
    · exact OnlyChanges.refl _ _
    · exact takeHead_frame (partsWithin_trans (by decide) hs) hf hp

theorem answerWith_frame {a0} {a1} {x : State} : OnlyChangesF [.mb] x (answerWith a0 a1 x) := by
  unfold answerWith
  repeat' first
    | with_reducible assumption
    | with_reducible apply OnlyChanges.refl
    | with_reducible apply OnlyChanges.ite
    | with_reducible apply OnlyChangesF.ack
    | with_reducible apply OnlyChangesF.ite
    | (with_reducible apply OnlyChanges.step reply_frame; (on_goal 1 => decide))
    | split

theorem bcsGetLoss_frame {a0} {a1} {x : State} : OnlyChanges [.mb, .fab, .outs] x (bcsGetLoss a0 a1 x) := by
  unfold bcsGetLoss
  repeat' first
    | with_reducible assumption
    | with_reducible apply OnlyChanges.refl
    | (extract_lets +onlyGivenNames y; guard_hyp y : State := Prod.snd _; subst y)
    | (extract_lets +onlyGivenNames y; guard_hyp y : State := _; apply OnlyChangesF.cut y; (on_goal 1 => (unfold y; clear y)); (on_goal 2 => (intro hx; clear_value y)))
    | (extract_lets +onlyGivenNames y; guard_hyp y : _ × State := _; apply OnlyChangesF.cutP y; (on_goal 1 => (unfold y; clear y)); (on_goal 2 => (intro hx; clear_value y)))
    | (extract_lets +onlyGivenNames y; guard_hyp y : _ × _ × State := _; apply OnlyChangesF.cutPP y; (on_goal 1 => (unfold y; clear y)); (on_goal 2 => (intro hx; clear_value y)))
    | (extract_lets +onlyGivenNames y; guard_hyp y : Boxes := _; subst y)
    | (extract_lets +onlyGivenNames y; guard_hyp y : Power := _; subst y)
    | (extract_lets +onlyGivenNames y; guard_hyp y : Trans := _; subst y)
    | (extract_lets +onlyGivenNames y; guard_hyp y : Prot := _; subst y)
    | (extract_lets +onlyGivenNames y; guard_hyp y : Persist := _; subst y)
    | (extract_lets +onlyGivenNames y; guard_hyp y : Sgl := _; subst y)
    | (extract_lets +onlyGivenNames y; guard_hyp y : Sec := _; subst y)
    | (extract_lets +onlyGivenNames y; clear_value y)
    | extract_lets +onlyGivenNames y
    | with_reducible apply OnlyChanges.ite
    | (with_reducible apply withGate_frame; (on_goal 1 => decide))
    | with_reducible apply OnlyChangesF.ack
    | with_reducible apply OnlyChangesF.bg
    | with_reducible apply OnlyChangesF.wait
    | with_reducible apply OnlyChangesF.ite
    | (with_reducible apply OnlyChangesF.step answerWith_frame; (on_goal 1 => decide))
    | with_reducible intro _
    | split

theorem execGetLoss_frame {a0} {a1} {x t : State} (h : execGetLoss a0 a1 x = .next t) :
    OnlyChanges [.evr, .pmc, .mb, .fab, .cxlA, .cxlB, .freeCtr, .outs] x t := by
  unfold execGetLoss at h
  first
    | (injection h with h; subst h)
    | (split at h <;> (first | (injection h with h; subst h) | cases h))
  all_goals
    repeat' first
      | with_reducible assumption
      | with_reducible apply OnlyChanges.refl
      | with_reducible apply OnlyChanges.ite
      | (with_reducible apply runMsg_frame; (on_goal 1 => decide))
      | (with_reducible apply OnlyChanges.step bcsGetLoss_frame; (on_goal 1 => decide))
      | with_reducible intro _
      | split

theorem relay_frame {a0} {a1} {a2} {x : State} : OnlyChanges [.mb, .fab, .outs] x (relay a0 a1 a2 x) := by
  unfold relay
  repeat' first
    | with_reducible assumption
    | with_reducible apply OnlyChanges.refl
    | (extract_lets +onlyGivenNames y; guard_hyp y : State := Prod.snd _; subst y)
    | (extract_lets +onlyGivenNames y; guard_hyp y : State := _; apply OnlyChangesF.cut y; (on_goal 1 => (unfold y; clear y)); (on_goal 2 => (intro hx; clear_value y)))
    | (extract_lets +onlyGivenNames y; guard_hyp y : _ × State := _; apply OnlyChangesF.cutP y; (on_goal 1 => (unfold y; clear y)); (on_goal 2 => (intro hx; clear_value y)))
    | (extract_lets +onlyGivenNames y; guard_hyp y : _ × _ × State := _; apply OnlyChangesF.cutPP y; (on_goal 1 => (unfold y; clear y)); (on_goal 2 => (intro hx; clear_value y)))
    | (extract_lets +onlyGivenNames y; guard_hyp y : Boxes := _; subst y)
    | (extract_lets +onlyGivenNames y; guard_hyp y : Power := _; subst y)
    | (extract_lets +onlyGivenNames y; guard_hyp y : Trans := _; subst y)
    | (extract_lets +onlyGivenNames y; guard_hyp y : Prot := _; subst y)
    | (extract_lets +onlyGivenNames y; guard_hyp y : Persist := _; subst y)
    | (extract_lets +onlyGivenNames y; guard_hyp y : Sgl := _; subst y)
    | (extract_lets +onlyGivenNames y; guard_hyp y : Sec := _; subst y)
    | (extract_lets +onlyGivenNames y; clear_value y)
    | extract_lets +onlyGivenNames y
    | with_reducible apply OnlyChanges.ite
    | (with_reducible apply withGate_frame; (on_goal 1 => decide))
    | with_reducible apply OnlyChangesF.ack
    | with_reducible apply OnlyChangesF.bg
    | with_reducible apply OnlyChangesF.wait
    | with_reducible apply OnlyChangesF.ite
    | (with_reducible apply OnlyChanges.step openOp_frame; (on_goal 1 => decide))
    | with_reducible intro _
    | split
    | (with_reducible apply OnlyChanges.upd32; (on_goal 1 => decide); (on_goal 1 => (first | exact Or.inr (by with_reducible rfl) | exact Or.inl (by decide) | exact Or.inr rfl)))

theorem bcsMeterKey_frame {a0} {a1} {x : State} : OnlyChanges [.mb, .fab, .outs] x (bcsMeterKey a0 a1 x) := by
  unfold bcsMeterKey
  repeat' first
    | with_reducible assumption
    | with_reducible apply OnlyChanges.refl
    | with_reducible apply OnlyChanges.ite
    | (with_reducible apply OnlyChanges.step relay_frame; (on_goal 1 => decide))
    | split

theorem execMeterKey_frame {a0} {a1} {x t : State} (h : execMeterKey a0 a1 x = .next t) :
    OnlyChanges [.evr, .pmc, .mb, .fab, .cxlA, .cxlB, .freeCtr, .outs] x t := by
  unfold execMeterKey at h
  first
    | (injection h with h; subst h)
    | (split at h <;> (first | (injection h with h; subst h) | cases h))
  all_goals
    repeat' first
      | with_reducible assumption
      | with_reducible apply OnlyChanges.refl
      | with_reducible apply OnlyChanges.ite
      | (with_reducible apply OnlyChanges.step bcsMeterKey_frame; (on_goal 1 => decide))
      | (with_reducible apply runMsg_frame; (on_goal 1 => decide))
      | with_reducible intro _
      | split

theorem bcsWinCommit_frame {a0} {a1} {x : State} : OnlyChanges [.pmc, .mb, .coh, .fab, .portA, .portB, .freeCtr, .outs] x (bcsWinCommit a0 a1 x) := by
  unfold bcsWinCommit
  repeat' first
    | with_reducible assumption
    | with_reducible apply OnlyChanges.refl
    | (extract_lets +onlyGivenNames y; guard_hyp y : State := Prod.snd _; subst y)
    | (extract_lets +onlyGivenNames y; guard_hyp y : State := _; apply OnlyChangesF.cut y; (on_goal 1 => (unfold y; clear y)); (on_goal 2 => (intro hx; clear_value y)))
    | (extract_lets +onlyGivenNames y; guard_hyp y : _ × State := _; apply OnlyChangesF.cutP y; (on_goal 1 => (unfold y; clear y)); (on_goal 2 => (intro hx; clear_value y)))
    | (extract_lets +onlyGivenNames y; guard_hyp y : _ × _ × State := _; apply OnlyChangesF.cutPP y; (on_goal 1 => (unfold y; clear y)); (on_goal 2 => (intro hx; clear_value y)))
    | (extract_lets +onlyGivenNames y; guard_hyp y : Boxes := _; subst y)
    | (extract_lets +onlyGivenNames y; guard_hyp y : Power := _; subst y)
    | (extract_lets +onlyGivenNames y; guard_hyp y : Trans := _; subst y)
    | (extract_lets +onlyGivenNames y; guard_hyp y : Prot := _; subst y)
    | (extract_lets +onlyGivenNames y; guard_hyp y : Persist := _; subst y)
    | (extract_lets +onlyGivenNames y; guard_hyp y : Sgl := _; subst y)
    | (extract_lets +onlyGivenNames y; guard_hyp y : Sec := _; subst y)
    | (extract_lets +onlyGivenNames y; clear_value y)
    | extract_lets +onlyGivenNames y
    | with_reducible apply OnlyChanges.ite
    | (with_reducible apply withGate_frame; (on_goal 1 => decide))
    | with_reducible apply OnlyChangesF.ack
    | with_reducible apply OnlyChangesF.bg
    | with_reducible apply OnlyChangesF.wait
    | with_reducible apply OnlyChangesF.ite
    | (with_reducible apply OnlyChanges.step openOp_frame; (on_goal 1 => decide))
    | (with_reducible apply OnlyChanges.step commitWindows_frame; (on_goal 1 => decide))
    | with_reducible intro _
    | split

theorem execWinCommit_frame {a0} {a1} {x t : State} (h : execWinCommit a0 a1 x = .next t) :
    OnlyChanges [.evr, .pmc, .mb, .coh, .fab, .portA, .portB, .cxlA, .cxlB, .freeCtr, .outs] x t := by
  unfold execWinCommit at h
  first
    | (injection h with h; subst h)
    | (split at h <;> (first | (injection h with h; subst h) | cases h))
  all_goals
    repeat' first
      | with_reducible assumption
      | with_reducible apply OnlyChanges.refl
      | with_reducible apply OnlyChanges.ite
      | (with_reducible apply OnlyChanges.step bcsWinCommit_frame; (on_goal 1 => decide))
      | (with_reducible apply runMsg_frame; (on_goal 1 => decide))
      | with_reducible intro _
      | split

theorem bcsSetGather_frame {a0} {a1} {x : State} : OnlyChanges [.mb, .sgl, .fab, .outs] x (bcsSetGather a0 a1 x) := by
  unfold bcsSetGather
  repeat' first
    | with_reducible assumption
    | with_reducible apply OnlyChanges.refl
    | (extract_lets +onlyGivenNames y; guard_hyp y : State := Prod.snd _; subst y)
    | (extract_lets +onlyGivenNames y; guard_hyp y : State := _; apply OnlyChangesF.cut y; (on_goal 1 => (unfold y; clear y)); (on_goal 2 => (intro hx; clear_value y)))
    | (extract_lets +onlyGivenNames y; guard_hyp y : _ × State := _; apply OnlyChangesF.cutP y; (on_goal 1 => (unfold y; clear y)); (on_goal 2 => (intro hx; clear_value y)))
    | (extract_lets +onlyGivenNames y; guard_hyp y : _ × _ × State := _; apply OnlyChangesF.cutPP y; (on_goal 1 => (unfold y; clear y)); (on_goal 2 => (intro hx; clear_value y)))
    | (extract_lets +onlyGivenNames y; guard_hyp y : Boxes := _; subst y)
    | (extract_lets +onlyGivenNames y; guard_hyp y : Power := _; subst y)
    | (extract_lets +onlyGivenNames y; guard_hyp y : Trans := _; subst y)
    | (extract_lets +onlyGivenNames y; guard_hyp y : Prot := _; subst y)
    | (extract_lets +onlyGivenNames y; guard_hyp y : Persist := _; subst y)
    | (extract_lets +onlyGivenNames y; guard_hyp y : Sgl := _; subst y)
    | (extract_lets +onlyGivenNames y; guard_hyp y : Sec := _; subst y)
    | (extract_lets +onlyGivenNames y; clear_value y)
    | extract_lets +onlyGivenNames y
    | with_reducible apply OnlyChanges.ite
    | (with_reducible apply withGate_frame; (on_goal 1 => decide))
    | with_reducible apply OnlyChangesF.ack
    | with_reducible apply OnlyChangesF.bg
    | with_reducible apply OnlyChangesF.wait
    | with_reducible apply OnlyChangesF.ite
    | with_reducible intro _
    | split
    | (with_reducible apply OnlyChanges.upd32768; (on_goal 1 => decide); (on_goal 1 => (first | exact Or.inr (by with_reducible rfl) | exact Or.inl (by decide) | exact Or.inr rfl)))

theorem execSetGather_frame {a0} {a1} {x t : State} (h : execSetGather a0 a1 x = .next t) :
    OnlyChanges [.evr, .pmc, .mb, .sgl, .fab, .cxlA, .cxlB, .freeCtr, .outs] x t := by
  unfold execSetGather at h
  first
    | (injection h with h; subst h)
    | (split at h <;> (first | (injection h with h; subst h) | cases h))
  all_goals
    repeat' first
      | with_reducible assumption
      | with_reducible apply OnlyChanges.refl
      | with_reducible apply OnlyChanges.ite
      | (with_reducible apply runMsg_frame; (on_goal 1 => decide))
      | (with_reducible apply OnlyChanges.step bcsSetGather_frame; (on_goal 1 => decide))
      | with_reducible intro _
      | split

theorem bcsMediaHealth_frame {a0} {a1} {x : State} : OnlyChanges [.mb, .fab, .outs] x (bcsMediaHealth a0 a1 x) := by
  unfold bcsMediaHealth
  repeat' first
    | with_reducible assumption
    | with_reducible apply OnlyChanges.refl
    | (extract_lets +onlyGivenNames y; guard_hyp y : State := Prod.snd _; subst y)
    | (extract_lets +onlyGivenNames y; guard_hyp y : State := _; apply OnlyChangesF.cut y; (on_goal 1 => (unfold y; clear y)); (on_goal 2 => (intro hx; clear_value y)))
    | (extract_lets +onlyGivenNames y; guard_hyp y : _ × State := _; apply OnlyChangesF.cutP y; (on_goal 1 => (unfold y; clear y)); (on_goal 2 => (intro hx; clear_value y)))
    | (extract_lets +onlyGivenNames y; guard_hyp y : _ × _ × State := _; apply OnlyChangesF.cutPP y; (on_goal 1 => (unfold y; clear y)); (on_goal 2 => (intro hx; clear_value y)))
    | (extract_lets +onlyGivenNames y; guard_hyp y : Boxes := _; subst y)
    | (extract_lets +onlyGivenNames y; guard_hyp y : Power := _; subst y)
    | (extract_lets +onlyGivenNames y; guard_hyp y : Trans := _; subst y)
    | (extract_lets +onlyGivenNames y; guard_hyp y : Prot := _; subst y)
    | (extract_lets +onlyGivenNames y; guard_hyp y : Persist := _; subst y)
    | (extract_lets +onlyGivenNames y; guard_hyp y : Sgl := _; subst y)
    | (extract_lets +onlyGivenNames y; guard_hyp y : Sec := _; subst y)
    | (extract_lets +onlyGivenNames y; clear_value y)
    | extract_lets +onlyGivenNames y
    | with_reducible apply OnlyChanges.ite
    | (with_reducible apply withGate_frame; (on_goal 1 => decide))
    | with_reducible apply OnlyChangesF.ack
    | with_reducible apply OnlyChangesF.bg
    | with_reducible apply OnlyChangesF.wait
    | with_reducible apply OnlyChangesF.ite
    | (with_reducible apply OnlyChangesF.step answerWith_frame; (on_goal 1 => decide))
    | with_reducible intro _
    | split

theorem execMediaHealth_frame {a0} {a1} {x t : State} (h : execMediaHealth a0 a1 x = .next t) :
    OnlyChanges [.evr, .pmc, .mb, .fab, .cxlA, .cxlB, .freeCtr, .outs] x t := by
  unfold execMediaHealth at h
  first
    | (injection h with h; subst h)
    | (split at h <;> (first | (injection h with h; subst h) | cases h))
  all_goals
    repeat' first
      | with_reducible assumption
      | with_reducible apply OnlyChanges.refl
      | with_reducible apply OnlyChanges.ite
      | (with_reducible apply OnlyChanges.step bcsMediaHealth_frame; (on_goal 1 => decide))
      | (with_reducible apply runMsg_frame; (on_goal 1 => decide))
      | with_reducible intro _
      | split

theorem bcsClearPsvFault_frame {a0} {a1} {x : State} : OnlyChanges [.pw, .mb, .fab, .outs, .latched] x (bcsClearPsvFault a0 a1 x) := by
  unfold bcsClearPsvFault
  repeat' first
    | with_reducible assumption
    | with_reducible apply OnlyChanges.refl
    | (extract_lets +onlyGivenNames y; guard_hyp y : State := Prod.snd _; subst y)
    | (extract_lets +onlyGivenNames y; guard_hyp y : State := _; apply OnlyChangesF.cut y; (on_goal 1 => (unfold y; clear y)); (on_goal 2 => (intro hx; clear_value y)))
    | (extract_lets +onlyGivenNames y; guard_hyp y : _ × State := _; apply OnlyChangesF.cutP y; (on_goal 1 => (unfold y; clear y)); (on_goal 2 => (intro hx; clear_value y)))
    | (extract_lets +onlyGivenNames y; guard_hyp y : _ × _ × State := _; apply OnlyChangesF.cutPP y; (on_goal 1 => (unfold y; clear y)); (on_goal 2 => (intro hx; clear_value y)))
    | (extract_lets +onlyGivenNames y; guard_hyp y : Boxes := _; subst y)
    | (extract_lets +onlyGivenNames y; guard_hyp y : Power := _; subst y)
    | (extract_lets +onlyGivenNames y; guard_hyp y : Trans := _; subst y)
    | (extract_lets +onlyGivenNames y; guard_hyp y : Prot := _; subst y)
    | (extract_lets +onlyGivenNames y; guard_hyp y : Persist := _; subst y)
    | (extract_lets +onlyGivenNames y; guard_hyp y : Sgl := _; subst y)
    | (extract_lets +onlyGivenNames y; guard_hyp y : Sec := _; subst y)
    | (extract_lets +onlyGivenNames y; clear_value y)
    | extract_lets +onlyGivenNames y
    | with_reducible apply OnlyChanges.ite
    | (with_reducible apply withGate_frame; (on_goal 1 => decide))
    | with_reducible apply OnlyChangesF.ack
    | with_reducible apply OnlyChangesF.bg
    | with_reducible apply OnlyChangesF.wait
    | with_reducible apply OnlyChangesF.ite
    | (with_reducible apply OnlyChanges.step ackHead_frame; (on_goal 1 => decide))
    | with_reducible intro _
    | split
    | (with_reducible apply OnlyChanges.upd1; (on_goal 1 => decide); (on_goal 1 => (first | exact Or.inr (by with_reducible rfl) | exact Or.inl (by decide) | exact Or.inr rfl)); (on_goal 1 => (first | exact Or.inr (by with_reducible rfl) | exact Or.inl (by decide) | exact Or.inr rfl)))

theorem bcsMpForward_frame {a0} {a1} {x : State} : OnlyChanges [.mb, .fab, .outs] x (bcsMpForward a0 a1 x) := by
  unfold bcsMpForward
  repeat' first
    | with_reducible assumption
    | with_reducible apply OnlyChanges.refl
    | (extract_lets +onlyGivenNames y; guard_hyp y : State := Prod.snd _; subst y)
    | (extract_lets +onlyGivenNames y; guard_hyp y : State := _; apply OnlyChangesF.cut y; (on_goal 1 => (unfold y; clear y)); (on_goal 2 => (intro hx; clear_value y)))
    | (extract_lets +onlyGivenNames y; guard_hyp y : _ × State := _; apply OnlyChangesF.cutP y; (on_goal 1 => (unfold y; clear y)); (on_goal 2 => (intro hx; clear_value y)))
    | (extract_lets +onlyGivenNames y; guard_hyp y : _ × _ × State := _; apply OnlyChangesF.cutPP y; (on_goal 1 => (unfold y; clear y)); (on_goal 2 => (intro hx; clear_value y)))
    | (extract_lets +onlyGivenNames y; guard_hyp y : Boxes := _; subst y)
    | (extract_lets +onlyGivenNames y; guard_hyp y : Power := _; subst y)
    | (extract_lets +onlyGivenNames y; guard_hyp y : Trans := _; subst y)
    | (extract_lets +onlyGivenNames y; guard_hyp y : Prot := _; subst y)
    | (extract_lets +onlyGivenNames y; guard_hyp y : Persist := _; subst y)
    | (extract_lets +onlyGivenNames y; guard_hyp y : Sgl := _; subst y)
    | (extract_lets +onlyGivenNames y; guard_hyp y : Sec := _; subst y)
    | (extract_lets +onlyGivenNames y; clear_value y)
    | extract_lets +onlyGivenNames y
    | with_reducible apply OnlyChanges.ite
    | (with_reducible apply withGate_frame; (on_goal 1 => decide))
    | with_reducible apply OnlyChangesF.ack
    | with_reducible apply OnlyChangesF.bg
    | with_reducible apply OnlyChangesF.wait
    | with_reducible apply OnlyChangesF.ite
    | (with_reducible apply OnlyChanges.step openOp_frame; (on_goal 1 => decide))
    | (with_reducible apply OnlyChanges.step sendMpmsg_frame; (on_goal 1 => decide))
    | with_reducible intro _
    | split
    | (with_reducible apply OnlyChanges.upd32; (on_goal 1 => decide); (on_goal 1 => (first | exact Or.inr (by with_reducible rfl) | exact Or.inl (by decide) | exact Or.inr rfl)))

theorem bcsShutdown_frame {a0} {a1} {x : State} : OnlyChanges [.pw, .evr, .pst, .mb, .tr, .per, .ck, .cache, .dram, .fab, .cxlA, .cxlB, .mtr, .freeCtr, .outs, .phase] x (bcsShutdown a0 a1 x) := by
  unfold bcsShutdown
  repeat' first
    | with_reducible assumption
    | with_reducible apply OnlyChanges.refl
    | (extract_lets +onlyGivenNames y; guard_hyp y : State := Prod.snd _; subst y)
    | (extract_lets +onlyGivenNames y; guard_hyp y : State := _; apply OnlyChangesF.cut y; (on_goal 1 => (unfold y; clear y)); (on_goal 2 => (intro hx; clear_value y)))
    | (extract_lets +onlyGivenNames y; guard_hyp y : _ × State := _; apply OnlyChangesF.cutP y; (on_goal 1 => (unfold y; clear y)); (on_goal 2 => (intro hx; clear_value y)))
    | (extract_lets +onlyGivenNames y; guard_hyp y : _ × _ × State := _; apply OnlyChangesF.cutPP y; (on_goal 1 => (unfold y; clear y)); (on_goal 2 => (intro hx; clear_value y)))
    | (extract_lets +onlyGivenNames y; guard_hyp y : Boxes := _; subst y)
    | (extract_lets +onlyGivenNames y; guard_hyp y : Power := _; subst y)
    | (extract_lets +onlyGivenNames y; guard_hyp y : Trans := _; subst y)
    | (extract_lets +onlyGivenNames y; guard_hyp y : Prot := _; subst y)
    | (extract_lets +onlyGivenNames y; guard_hyp y : Persist := _; subst y)
    | (extract_lets +onlyGivenNames y; guard_hyp y : Sgl := _; subst y)
    | (extract_lets +onlyGivenNames y; guard_hyp y : Sec := _; subst y)
    | (extract_lets +onlyGivenNames y; clear_value y)
    | extract_lets +onlyGivenNames y
    | with_reducible apply OnlyChanges.ite
    | (with_reducible apply withGate_frame; (on_goal 1 => decide))
    | with_reducible apply OnlyChangesF.ack
    | with_reducible apply OnlyChangesF.bg
    | with_reducible apply OnlyChangesF.wait
    | with_reducible apply OnlyChangesF.ite
    | (with_reducible apply OnlyChanges.step ackHead_frame; (on_goal 1 => decide))
    | (with_reducible apply OnlyChanges.step shutdownFlush_frame; (on_goal 1 => decide))
    | with_reducible intro _
    | split

theorem execShutdown_frame {a0} {a1} {x t : State} (h : execShutdown a0 a1 x = .next t) :
    OnlyChanges [.pw, .evr, .pst, .pmc, .mb, .tr, .per, .ck, .cache, .dram, .fab, .cxlA, .cxlB, .mtr, .freeCtr, .outs, .phase] x t := by
  unfold execShutdown at h
  first
    | (injection h with h; subst h)
    | (split at h <;> (first | (injection h with h; subst h) | cases h))
  all_goals
    repeat' first
      | with_reducible assumption
      | with_reducible apply OnlyChanges.refl
      | with_reducible apply OnlyChanges.ite
      | (with_reducible apply runMsg_frame; (on_goal 1 => decide))
      | (with_reducible apply OnlyChanges.step bcsShutdown_frame; (on_goal 1 => decide))
      | with_reducible intro _
      | split

theorem bcsTrbConfig_frame {a0} {a1} {x : State} : OnlyChanges [.trb, .mb, .fab, .outs] x (bcsTrbConfig a0 a1 x) := by
  unfold bcsTrbConfig
  repeat' first
    | with_reducible assumption
    | with_reducible apply OnlyChanges.refl
    | (extract_lets +onlyGivenNames y; guard_hyp y : State := Prod.snd _; subst y)
    | (extract_lets +onlyGivenNames y; guard_hyp y : State := _; apply OnlyChangesF.cut y; (on_goal 1 => (unfold y; clear y)); (on_goal 2 => (intro hx; clear_value y)))
    | (extract_lets +onlyGivenNames y; guard_hyp y : _ × State := _; apply OnlyChangesF.cutP y; (on_goal 1 => (unfold y; clear y)); (on_goal 2 => (intro hx; clear_value y)))
    | (extract_lets +onlyGivenNames y; guard_hyp y : _ × _ × State := _; apply OnlyChangesF.cutPP y; (on_goal 1 => (unfold y; clear y)); (on_goal 2 => (intro hx; clear_value y)))
    | (extract_lets +onlyGivenNames y; guard_hyp y : Boxes := _; subst y)
    | (extract_lets +onlyGivenNames y; guard_hyp y : Power := _; subst y)
    | (extract_lets +onlyGivenNames y; guard_hyp y : Trans := _; subst y)
    | (extract_lets +onlyGivenNames y; guard_hyp y : Prot := _; subst y)
    | (extract_lets +onlyGivenNames y; guard_hyp y : Persist := _; subst y)
    | (extract_lets +onlyGivenNames y; guard_hyp y : Sgl := _; subst y)
    | (extract_lets +onlyGivenNames y; guard_hyp y : Sec := _; subst y)
    | (extract_lets +onlyGivenNames y; clear_value y)
    | extract_lets +onlyGivenNames y
    | with_reducible apply OnlyChanges.ite
    | (with_reducible apply withGate_frame; (on_goal 1 => decide))
    | with_reducible apply OnlyChangesF.ack
    | with_reducible apply OnlyChangesF.bg
    | with_reducible apply OnlyChangesF.wait
    | with_reducible apply OnlyChangesF.ite
    | with_reducible intro _
    | split
    | (with_reducible apply OnlyChanges.upd16; (on_goal 1 => decide))

theorem execTrbConfig_frame {a0} {a1} {x t : State} (h : execTrbConfig a0 a1 x = .next t) :
    OnlyChanges [.evr, .pmc, .trb, .mb, .fab, .cxlA, .cxlB, .freeCtr, .outs] x t := by
  unfold execTrbConfig at h
  first
    | (injection h with h; subst h)
    | (split at h <;> (first | (injection h with h; subst h) | cases h))
  all_goals
    repeat' first
      | with_reducible assumption
      | with_reducible apply OnlyChanges.refl
      | with_reducible apply OnlyChanges.ite
      | (with_reducible apply OnlyChanges.step bcsTrbConfig_frame; (on_goal 1 => decide))
      | (with_reducible apply runMsg_frame; (on_goal 1 => decide))
      | with_reducible intro _
      | split

theorem stageWindow_frame {a0} {a1} {a2} {x : State} : OnlyChanges [.portA, .portB] x (stageWindow a0 a1 a2 x) := by
  unfold stageWindow
  repeat' first
    | with_reducible assumption
    | with_reducible apply OnlyChanges.refl
    | (extract_lets +onlyGivenNames y; guard_hyp y : State := Prod.snd _; subst y)
    | (extract_lets +onlyGivenNames y; guard_hyp y : State := _; apply OnlyChanges.cut y; (on_goal 1 => (unfold y; clear y)); (on_goal 2 => (intro hx; clear_value y)))
    | (extract_lets +onlyGivenNames y; guard_hyp y : _ × State := _; apply OnlyChanges.cutP y; (on_goal 1 => (unfold y; clear y)); (on_goal 2 => (intro hx; clear_value y)))
    | (extract_lets +onlyGivenNames y; guard_hyp y : _ × _ × State := _; apply OnlyChanges.cutPP y; (on_goal 1 => (unfold y; clear y)); (on_goal 2 => (intro hx; clear_value y)))
    | (extract_lets +onlyGivenNames y; guard_hyp y : Boxes := _; subst y)
    | (extract_lets +onlyGivenNames y; guard_hyp y : Power := _; subst y)
    | (extract_lets +onlyGivenNames y; guard_hyp y : Trans := _; subst y)
    | (extract_lets +onlyGivenNames y; guard_hyp y : Prot := _; subst y)
    | (extract_lets +onlyGivenNames y; guard_hyp y : Persist := _; subst y)
    | (extract_lets +onlyGivenNames y; guard_hyp y : Sgl := _; subst y)
    | (extract_lets +onlyGivenNames y; guard_hyp y : Sec := _; subst y)
    | (extract_lets +onlyGivenNames y; clear_value y)
    | extract_lets +onlyGivenNames y
    | with_reducible apply OnlyChanges.ite
    | (with_reducible apply OnlyChanges.step State.setPort_frame; (on_goal 1 => decide))
    | split

theorem bcsWinStage_frame {a0} {a1} {x : State} : OnlyChanges [.mb, .fab, .portA, .portB, .outs] x (bcsWinStage a0 a1 x) := by
  unfold bcsWinStage
  repeat' first
    | with_reducible assumption
    | with_reducible apply OnlyChanges.refl
    | (extract_lets +onlyGivenNames y; guard_hyp y : State := Prod.snd _; subst y)
    | (extract_lets +onlyGivenNames y; guard_hyp y : State := _; apply OnlyChangesF.cut y; (on_goal 1 => (unfold y; clear y)); (on_goal 2 => (intro hx; clear_value y)))
    | (extract_lets +onlyGivenNames y; guard_hyp y : _ × State := _; apply OnlyChangesF.cutP y; (on_goal 1 => (unfold y; clear y)); (on_goal 2 => (intro hx; clear_value y)))
    | (extract_lets +onlyGivenNames y; guard_hyp y : _ × _ × State := _; apply OnlyChangesF.cutPP y; (on_goal 1 => (unfold y; clear y)); (on_goal 2 => (intro hx; clear_value y)))
    | (extract_lets +onlyGivenNames y; guard_hyp y : Boxes := _; subst y)
    | (extract_lets +onlyGivenNames y; guard_hyp y : Power := _; subst y)
    | (extract_lets +onlyGivenNames y; guard_hyp y : Trans := _; subst y)
    | (extract_lets +onlyGivenNames y; guard_hyp y : Prot := _; subst y)
    | (extract_lets +onlyGivenNames y; guard_hyp y : Persist := _; subst y)
    | (extract_lets +onlyGivenNames y; guard_hyp y : Sgl := _; subst y)
    | (extract_lets +onlyGivenNames y; guard_hyp y : Sec := _; subst y)
    | (extract_lets +onlyGivenNames y; clear_value y)
    | extract_lets +onlyGivenNames y
    | with_reducible apply OnlyChanges.ite
    | (with_reducible apply withGate_frame; (on_goal 1 => decide))
    | with_reducible apply OnlyChangesF.ack
    | with_reducible apply OnlyChangesF.bg
    | with_reducible apply OnlyChangesF.wait
    | with_reducible apply OnlyChangesF.ite
    | (with_reducible apply OnlyChanges.step stageWindow_frame; (on_goal 1 => decide))
    | with_reducible intro _
    | split

theorem execWinStage_frame {a0} {a1} {x t : State} (h : execWinStage a0 a1 x = .next t) :
    OnlyChanges [.evr, .pmc, .mb, .fab, .portA, .portB, .cxlA, .cxlB, .freeCtr, .outs] x t := by
  unfold execWinStage at h
  first
    | (injection h with h; subst h)
    | (split at h <;> (first | (injection h with h; subst h) | cases h))
  all_goals
    repeat' first
      | with_reducible assumption
      | with_reducible apply OnlyChanges.refl
      | with_reducible apply OnlyChanges.ite
      | (with_reducible apply runMsg_frame; (on_goal 1 => decide))
      | (with_reducible apply OnlyChanges.step bcsWinStage_frame; (on_goal 1 => decide))
      | with_reducible intro _
      | split

theorem setPoolNext_frame {a0} {x : State} : OnlyChanges [.sgl] x (setPoolNext a0 x) := by
  unfold setPoolNext
  repeat' first
    | with_reducible assumption
    | with_reducible apply OnlyChanges.refl
    | (extract_lets +onlyGivenNames y; guard_hyp y : State := Prod.snd _; subst y)
    | (extract_lets +onlyGivenNames y; guard_hyp y : State := _; apply OnlyChanges.cut y; (on_goal 1 => (unfold y; clear y)); (on_goal 2 => (intro hx; clear_value y)))
    | (extract_lets +onlyGivenNames y; guard_hyp y : _ × State := _; apply OnlyChanges.cutP y; (on_goal 1 => (unfold y; clear y)); (on_goal 2 => (intro hx; clear_value y)))
    | (extract_lets +onlyGivenNames y; guard_hyp y : _ × _ × State := _; apply OnlyChanges.cutPP y; (on_goal 1 => (unfold y; clear y)); (on_goal 2 => (intro hx; clear_value y)))
    | (extract_lets +onlyGivenNames y; guard_hyp y : Boxes := _; subst y)
    | (extract_lets +onlyGivenNames y; guard_hyp y : Power := _; subst y)
    | (extract_lets +onlyGivenNames y; guard_hyp y : Trans := _; subst y)
    | (extract_lets +onlyGivenNames y; guard_hyp y : Prot := _; subst y)
    | (extract_lets +onlyGivenNames y; guard_hyp y : Persist := _; subst y)
    | (extract_lets +onlyGivenNames y; guard_hyp y : Sgl := _; subst y)
    | (extract_lets +onlyGivenNames y; guard_hyp y : Sec := _; subst y)
    | (extract_lets +onlyGivenNames y; clear_value y)
    | extract_lets +onlyGivenNames y
    | with_reducible apply OnlyChanges.ite
    | split
    | (with_reducible apply OnlyChanges.upd32768; (on_goal 1 => decide); (on_goal 1 => (first | exact Or.inr (by with_reducible rfl) | exact Or.inl (by decide) | exact Or.inr rfl)))

theorem bcsSetNode_frame {a0} {a1} {x : State} : OnlyChanges [.mb, .sgl, .fab, .outs] x (bcsSetNode a0 a1 x) := by
  unfold bcsSetNode
  repeat' first
    | with_reducible assumption
    | with_reducible apply OnlyChanges.refl
    | (extract_lets +onlyGivenNames y; guard_hyp y : State := Prod.snd _; subst y)
    | (extract_lets +onlyGivenNames y; guard_hyp y : State := _; apply OnlyChangesF.cut y; (on_goal 1 => (unfold y; clear y)); (on_goal 2 => (intro hx; clear_value y)))
    | (extract_lets +onlyGivenNames y; guard_hyp y : _ × State := _; apply OnlyChangesF.cutP y; (on_goal 1 => (unfold y; clear y)); (on_goal 2 => (intro hx; clear_value y)))
    | (extract_lets +onlyGivenNames y; guard_hyp y : _ × _ × State := _; apply OnlyChangesF.cutPP y; (on_goal 1 => (unfold y; clear y)); (on_goal 2 => (intro hx; clear_value y)))
    | (extract_lets +onlyGivenNames y; guard_hyp y : Boxes := _; subst y)
    | (extract_lets +onlyGivenNames y; guard_hyp y : Power := _; subst y)
    | (extract_lets +onlyGivenNames y; guard_hyp y : Trans := _; subst y)
    | (extract_lets +onlyGivenNames y; guard_hyp y : Prot := _; subst y)
    | (extract_lets +onlyGivenNames y; guard_hyp y : Persist := _; subst y)
    | (extract_lets +onlyGivenNames y; guard_hyp y : Sgl := _; subst y)
    | (extract_lets +onlyGivenNames y; guard_hyp y : Sec := _; subst y)
    | (extract_lets +onlyGivenNames y; clear_value y)
    | extract_lets +onlyGivenNames y
    | with_reducible apply OnlyChanges.ite
    | (with_reducible apply withGate_frame; (on_goal 1 => decide))
    | with_reducible apply OnlyChangesF.ack
    | with_reducible apply OnlyChangesF.bg
    | with_reducible apply OnlyChangesF.wait
    | with_reducible apply OnlyChangesF.ite
    | (with_reducible apply OnlyChanges.step setPoolNext_frame; (on_goal 1 => decide))
    | with_reducible intro _
    | split

theorem bcsWinRemove_frame {a0} {a1} {x : State} : OnlyChanges [.mb, .fab, .portA, .portB, .outs] x (bcsWinRemove a0 a1 x) := by
  unfold bcsWinRemove
  repeat' first
    | with_reducible assumption
    | with_reducible apply OnlyChanges.refl
    | (extract_lets +onlyGivenNames y; guard_hyp y : State := Prod.snd _; subst y)
    | (extract_lets +onlyGivenNames y; guard_hyp y : State := _; apply OnlyChangesF.cut y; (on_goal 1 => (unfold y; clear y)); (on_goal 2 => (intro hx; clear_value y)))
    | (extract_lets +onlyGivenNames y; guard_hyp y : _ × State := _; apply OnlyChangesF.cutP y; (on_goal 1 => (unfold y; clear y)); (on_goal 2 => (intro hx; clear_value y)))
    | (extract_lets +onlyGivenNames y; guard_hyp y : _ × _ × State := _; apply OnlyChangesF.cutPP y; (on_goal 1 => (unfold y; clear y)); (on_goal 2 => (intro hx; clear_value y)))
    | (extract_lets +onlyGivenNames y; guard_hyp y : Boxes := _; subst y)
    | (extract_lets +onlyGivenNames y; guard_hyp y : Power := _; subst y)
    | (extract_lets +onlyGivenNames y; guard_hyp y : Trans := _; subst y)
    | (extract_lets +onlyGivenNames y; guard_hyp y : Prot := _; subst y)
    | (extract_lets +onlyGivenNames y; guard_hyp y : Persist := _; subst y)
    | (extract_lets +onlyGivenNames y; guard_hyp y : Sgl := _; subst y)
    | (extract_lets +onlyGivenNames y; guard_hyp y : Sec := _; subst y)
    | (extract_lets +onlyGivenNames y; clear_value y)
    | extract_lets +onlyGivenNames y
    | with_reducible apply OnlyChanges.ite
    | (with_reducible apply withGate_frame; (on_goal 1 => decide))
    | with_reducible apply OnlyChangesF.ack
    | with_reducible apply OnlyChangesF.bg
    | with_reducible apply OnlyChangesF.wait
    | with_reducible apply OnlyChangesF.ite
    | (with_reducible apply OnlyChanges.step stageWindow_frame; (on_goal 1 => decide))
    | with_reducible intro _
    | split

theorem execWinRemove_frame {a0} {a1} {x t : State} (h : execWinRemove a0 a1 x = .next t) :
    OnlyChanges [.evr, .pmc, .mb, .fab, .portA, .portB, .cxlA, .cxlB, .freeCtr, .outs] x t := by
  unfold execWinRemove at h
  first
    | (injection h with h; subst h)
    | (split at h <;> (first | (injection h with h; subst h) | cases h))
  all_goals
    repeat' first
      | with_reducible assumption
      | with_reducible apply OnlyChanges.refl
      | with_reducible apply OnlyChanges.ite
      | (with_reducible apply OnlyChanges.step bcsWinRemove_frame; (on_goal 1 => decide))
      | (with_reducible apply runMsg_frame; (on_goal 1 => decide))
      | with_reducible intro _
      | split

theorem bcsSetEpochTimer_frame {a0} {a1} {x : State} : OnlyChanges [.mb, .per, .fab, .outs] x (bcsSetEpochTimer a0 a1 x) := by
  unfold bcsSetEpochTimer
  repeat' first
    | with_reducible assumption
    | with_reducible apply OnlyChanges.refl
    | (extract_lets +onlyGivenNames y; guard_hyp y : State := Prod.snd _; subst y)
    | (extract_lets +onlyGivenNames y; guard_hyp y : State := _; apply OnlyChangesF.cut y; (on_goal 1 => (unfold y; clear y)); (on_goal 2 => (intro hx; clear_value y)))
    | (extract_lets +onlyGivenNames y; guard_hyp y : _ × State := _; apply OnlyChangesF.cutP y; (on_goal 1 => (unfold y; clear y)); (on_goal 2 => (intro hx; clear_value y)))
    | (extract_lets +onlyGivenNames y; guard_hyp y : _ × _ × State := _; apply OnlyChangesF.cutPP y; (on_goal 1 => (unfold y; clear y)); (on_goal 2 => (intro hx; clear_value y)))
    | (extract_lets +onlyGivenNames y; guard_hyp y : Boxes := _; subst y)
    | (extract_lets +onlyGivenNames y; guard_hyp y : Power := _; subst y)
    | (extract_lets +onlyGivenNames y; guard_hyp y : Trans := _; subst y)
    | (extract_lets +onlyGivenNames y; guard_hyp y : Prot := _; subst y)
    | (extract_lets +onlyGivenNames y; guard_hyp y : Persist := _; subst y)
    | (extract_lets +onlyGivenNames y; guard_hyp y : Sgl := _; subst y)
    | (extract_lets +onlyGivenNames y; guard_hyp y : Sec := _; subst y)
    | (extract_lets +onlyGivenNames y; clear_value y)
    | extract_lets +onlyGivenNames y
    | with_reducible apply OnlyChanges.ite
    | (with_reducible apply withGate_frame; (on_goal 1 => decide))
    | with_reducible apply OnlyChangesF.ack
    | with_reducible apply OnlyChangesF.bg
    | with_reducible apply OnlyChangesF.wait
    | with_reducible apply OnlyChangesF.ite
    | with_reducible intro _
    | split
    | (with_reducible apply OnlyChanges.upd1024; (on_goal 1 => decide); (on_goal 1 => (first | exact Or.inr (by with_reducible rfl) | exact Or.inl (by decide) | exact Or.inr rfl)))

theorem execSetEpochTimer_frame {a0} {a1} {x t : State} (h : execSetEpochTimer a0 a1 x = .next t) :
    OnlyChanges [.evr, .pmc, .mb, .per, .fab, .cxlA, .cxlB, .freeCtr, .outs] x t := by
  unfold execSetEpochTimer at h
  first
    | (injection h with h; subst h)
    | (split at h <;> (first | (injection h with h; subst h) | cases h))
  all_goals
    repeat' first
      | with_reducible assumption
      | with_reducible apply OnlyChanges.refl
      | with_reducible apply OnlyChanges.ite
      | (with_reducible apply runMsg_frame; (on_goal 1 => decide))
      | (with_reducible apply OnlyChanges.step bcsSetEpochTimer_frame; (on_goal 1 => decide))
      | with_reducible intro _
      | split

theorem setComparator_frame {a0} {a1} {a2} {x : State} : OnlyChanges [.pw] x (setComparator a0 a1 a2 x) := by
  unfold setComparator
  repeat' first
    | with_reducible assumption
    | with_reducible apply OnlyChanges.refl
    | (extract_lets +onlyGivenNames y; guard_hyp y : State := Prod.snd _; subst y)
    | (extract_lets +onlyGivenNames y; guard_hyp y : State := _; apply OnlyChanges.cut y; (on_goal 1 => (unfold y; clear y)); (on_goal 2 => (intro hx; clear_value y)))
    | (extract_lets +onlyGivenNames y; guard_hyp y : _ × State := _; apply OnlyChanges.cutP y; (on_goal 1 => (unfold y; clear y)); (on_goal 2 => (intro hx; clear_value y)))
    | (extract_lets +onlyGivenNames y; guard_hyp y : _ × _ × State := _; apply OnlyChanges.cutPP y; (on_goal 1 => (unfold y; clear y)); (on_goal 2 => (intro hx; clear_value y)))
    | (extract_lets +onlyGivenNames y; guard_hyp y : Boxes := _; subst y)
    | (extract_lets +onlyGivenNames y; guard_hyp y : Power := _; subst y)
    | (extract_lets +onlyGivenNames y; guard_hyp y : Trans := _; subst y)
    | (extract_lets +onlyGivenNames y; guard_hyp y : Prot := _; subst y)
    | (extract_lets +onlyGivenNames y; guard_hyp y : Persist := _; subst y)
    | (extract_lets +onlyGivenNames y; guard_hyp y : Sgl := _; subst y)
    | (extract_lets +onlyGivenNames y; guard_hyp y : Sec := _; subst y)
    | (extract_lets +onlyGivenNames y; clear_value y)
    | extract_lets +onlyGivenNames y
    | with_reducible apply OnlyChanges.ite
    | split
    | (with_reducible apply OnlyChanges.upd1; (on_goal 1 => decide); (on_goal 1 => (first | exact Or.inr (by with_reducible rfl) | exact Or.inl (by decide) | exact Or.inr rfl)); (on_goal 1 => (first | exact Or.inr (by with_reducible rfl) | exact Or.inl (by decide) | exact Or.inr rfl)))

theorem bcsSetSupervisor_frame {a0} {a1} {x : State} : OnlyChanges [.pw, .mb, .fab, .outs] x (bcsSetSupervisor a0 a1 x) := by
  unfold bcsSetSupervisor
  repeat' first
    | with_reducible assumption
    | with_reducible apply OnlyChanges.refl
    | (extract_lets +onlyGivenNames y; guard_hyp y : State := Prod.snd _; subst y)
    | (extract_lets +onlyGivenNames y; guard_hyp y : State := _; apply OnlyChangesF.cut y; (on_goal 1 => (unfold y; clear y)); (on_goal 2 => (intro hx; clear_value y)))
    | (extract_lets +onlyGivenNames y; guard_hyp y : _ × State := _; apply OnlyChangesF.cutP y; (on_goal 1 => (unfold y; clear y)); (on_goal 2 => (intro hx; clear_value y)))
    | (extract_lets +onlyGivenNames y; guard_hyp y : _ × _ × State := _; apply OnlyChangesF.cutPP y; (on_goal 1 => (unfold y; clear y)); (on_goal 2 => (intro hx; clear_value y)))
    | (extract_lets +onlyGivenNames y; guard_hyp y : Boxes := _; subst y)
    | (extract_lets +onlyGivenNames y; guard_hyp y : Power := _; subst y)
    | (extract_lets +onlyGivenNames y; guard_hyp y : Trans := _; subst y)
    | (extract_lets +onlyGivenNames y; guard_hyp y : Prot := _; subst y)
    | (extract_lets +onlyGivenNames y; guard_hyp y : Persist := _; subst y)
    | (extract_lets +onlyGivenNames y; guard_hyp y : Sgl := _; subst y)
    | (extract_lets +onlyGivenNames y; guard_hyp y : Sec := _; subst y)
    | (extract_lets +onlyGivenNames y; clear_value y)
    | extract_lets +onlyGivenNames y
    | with_reducible apply OnlyChanges.ite
    | (with_reducible apply withGate_frame; (on_goal 1 => decide))
    | with_reducible apply OnlyChangesF.ack
    | with_reducible apply OnlyChangesF.bg
    | with_reducible apply OnlyChangesF.wait
    | with_reducible apply OnlyChangesF.ite
    | (with_reducible apply OnlyChanges.step setComparator_frame; (on_goal 1 => decide))
    | with_reducible intro _
    | split

theorem execSetSupervisor_frame {a0} {a1} {x t : State} (h : execSetSupervisor a0 a1 x = .next t) :
    OnlyChanges [.pw, .evr, .pmc, .mb, .fab, .cxlA, .cxlB, .freeCtr, .outs] x t := by
  unfold execSetSupervisor at h
  first
    | (injection h with h; subst h)
    | (split at h <;> (first | (injection h with h; subst h) | cases h))
  all_goals
    repeat' first
      | with_reducible assumption
      | with_reducible apply OnlyChanges.refl
      | with_reducible apply OnlyChanges.ite
      | (with_reducible apply runMsg_frame; (on_goal 1 => decide))
      | (with_reducible apply OnlyChanges.step bcsSetSupervisor_frame; (on_goal 1 => decide))
      | with_reducible intro _
      | split

theorem bcsFormat_frame {a0} {a1} {x : State} : OnlyChanges [.mb, .ck, .fab, .outs] x (bcsFormat a0 a1 x) := by
  unfold bcsFormat
  repeat' first
    | with_reducible assumption
    | with_reducible apply OnlyChanges.refl
    | (extract_lets +onlyGivenNames y; guard_hyp y : State := Prod.snd _; subst y)
    | (extract_lets +onlyGivenNames y; guard_hyp y : State := _; apply OnlyChangesF.cut y; (on_goal 1 => (unfold y; clear y)); (on_goal 2 => (intro hx; clear_value y)))
    | (extract_lets +onlyGivenNames y; guard_hyp y : _ × State := _; apply OnlyChangesF.cutP y; (on_goal 1 => (unfold y; clear y)); (on_goal 2 => (intro hx; clear_value y)))
    | (extract_lets +onlyGivenNames y; guard_hyp y : _ × _ × State := _; apply OnlyChangesF.cutPP y; (on_goal 1 => (unfold y; clear y)); (on_goal 2 => (intro hx; clear_value y)))
    | (extract_lets +onlyGivenNames y; guard_hyp y : Boxes := _; subst y)
    | (extract_lets +onlyGivenNames y; guard_hyp y : Power := _; subst y)
    | (extract_lets +onlyGivenNames y; guard_hyp y : Trans := _; subst y)
    | (extract_lets +onlyGivenNames y; guard_hyp y : Prot := _; subst y)
    | (extract_lets +onlyGivenNames y; guard_hyp y : Persist := _; subst y)
    | (extract_lets +onlyGivenNames y; guard_hyp y : Sgl := _; subst y)
    | (extract_lets +onlyGivenNames y; guard_hyp y : Sec := _; subst y)
    | (extract_lets +onlyGivenNames y; clear_value y)
    | extract_lets +onlyGivenNames y
    | with_reducible apply OnlyChanges.ite
    | (with_reducible apply withGate_frame; (on_goal 1 => decide))
    | with_reducible apply OnlyChangesF.ack
    | with_reducible apply OnlyChangesF.bg
    | with_reducible apply OnlyChangesF.wait
    | with_reducible apply OnlyChangesF.ite
    | with_reducible intro _
    | split
    | (with_reducible apply OnlyChanges.upd2048; (on_goal 1 => decide))

theorem fwStartCheck_frame  {x : State} : OnlyChangesO [.mb] x (fwStartCheck x) := by
  unfold fwStartCheck
  repeat' first
    | with_reducible assumption
    | with_reducible apply OnlyChanges.refl
    | (extract_lets +onlyGivenNames y; guard_hyp y : State := Prod.snd _; subst y)
    | (extract_lets +onlyGivenNames y; guard_hyp y : State := _; apply OnlyChangesO.cut y; (on_goal 1 => (unfold y; clear y)); (on_goal 2 => (intro hx; clear_value y)))
    | (extract_lets +onlyGivenNames y; guard_hyp y : _ × State := _; apply OnlyChangesO.cutP y; (on_goal 1 => (unfold y; clear y)); (on_goal 2 => (intro hx; clear_value y)))
    | (extract_lets +onlyGivenNames y; guard_hyp y : _ × _ × State := _; apply OnlyChangesO.cutPP y; (on_goal 1 => (unfold y; clear y)); (on_goal 2 => (intro hx; clear_value y)))
    | (extract_lets +onlyGivenNames y; guard_hyp y : Boxes := _; subst y)
    | (extract_lets +onlyGivenNames y; guard_hyp y : Power := _; subst y)
    | (extract_lets +onlyGivenNames y; guard_hyp y : Trans := _; subst y)
    | (extract_lets +onlyGivenNames y; guard_hyp y : Prot := _; subst y)
    | (extract_lets +onlyGivenNames y; guard_hyp y : Persist := _; subst y)
    | (extract_lets +onlyGivenNames y; guard_hyp y : Sgl := _; subst y)
    | (extract_lets +onlyGivenNames y; guard_hyp y : Sec := _; subst y)
    | (extract_lets +onlyGivenNames y; clear_value y)
    | extract_lets +onlyGivenNames y
    | with_reducible apply OnlyChanges.ite
    | with_reducible apply OnlyChangesO.none
    | with_reducible apply OnlyChangesO.some
    | with_reducible apply OnlyChangesO.ite
    | (with_reducible apply OnlyChanges.step setSlot_frame; (on_goal 1 => decide))
    | split

theorem bcsFwEnd_frame {a0} {a1} {x : State} : OnlyChanges [.mb, .fab, .outs] x (bcsFwEnd a0 a1 x) := by
  unfold bcsFwEnd
  repeat' first
    | with_reducible assumption
    | with_reducible apply OnlyChanges.refl
    | (extract_lets +onlyGivenNames y; guard_hyp y : State := Prod.snd _; subst y)
    | (extract_lets +onlyGivenNames y; guard_hyp y : State := _; apply OnlyChangesF.cut y; (on_goal 1 => (unfold y; clear y)); (on_goal 2 => (intro hx; clear_value y)))
    | (extract_lets +onlyGivenNames y; guard_hyp y : _ × State := _; apply OnlyChangesF.cutP y; (on_goal 1 => (unfold y; clear y)); (on_goal 2 => (intro hx; clear_value y)))
    | (extract_lets +onlyGivenNames y; guard_hyp y : _ × _ × State := _; apply OnlyChangesF.cutPP y; (on_goal 1 => (unfold y; clear y)); (on_goal 2 => (intro hx; clear_value y)))
    | (extract_lets +onlyGivenNames y; guard_hyp y : Boxes := _; subst y)
    | (extract_lets +onlyGivenNames y; guard_hyp y : Power := _; subst y)
    | (extract_lets +onlyGivenNames y; guard_hyp y : Trans := _; subst y)
    | (extract_lets +onlyGivenNames y; guard_hyp y : Prot := _; subst y)
    | (extract_lets +onlyGivenNames y; guard_hyp y : Persist := _; subst y)
    | (extract_lets +onlyGivenNames y; guard_hyp y : Sgl := _; subst y)
    | (extract_lets +onlyGivenNames y; guard_hyp y : Sec := _; subst y)
    | (extract_lets +onlyGivenNames y; clear_value y)
    | extract_lets +onlyGivenNames y
    | with_reducible apply OnlyChanges.ite
    | (with_reducible apply withGate_frame; (on_goal 1 => decide))
    | with_reducible apply OnlyChangesF.ack
    | with_reducible apply OnlyChangesF.bg
    | with_reducible apply OnlyChangesF.wait
    | with_reducible apply OnlyChangesF.ite
    | with_reducible apply OnlyChangesO.getD
    | (with_reducible apply OnlyChangesO.step fwStartCheck_frame; (on_goal 1 => decide))
    | (apply OnlyChangesO.ofSome (h := fwStartCheck_frame); (on_goal 1 => assumption); (on_goal 1 => decide))
    | with_reducible intro _
    | split

theorem bcsPoolStatus_frame {a0} {a1} {x : State} : OnlyChanges [.mb, .fab, .outs] x (bcsPoolStatus a0 a1 x) := by
  unfold bcsPoolStatus
  repeat' first
    | with_reducible assumption
    | with_reducible apply OnlyChanges.refl
    | (extract_lets +onlyGivenNames y; guard_hyp y : State := Prod.snd _; subst y)
    | (extract_lets +onlyGivenNames y; guard_hyp y : State := _; apply OnlyChangesF.cut y; (on_goal 1 => (unfold y; clear y)); (on_goal 2 => (intro hx; clear_value y)))
    | (extract_lets +onlyGivenNames y; guard_hyp y : _ × State := _; apply OnlyChangesF.cutP y; (on_goal 1 => (unfold y; clear y)); (on_goal 2 => (intro hx; clear_value y)))
    | (extract_lets +onlyGivenNames y; guard_hyp y : _ × _ × State := _; apply OnlyChangesF.cutPP y; (on_goal 1 => (unfold y; clear y)); (on_goal 2 => (intro hx; clear_value y)))
    | (extract_lets +onlyGivenNames y; guard_hyp y : Boxes := _; subst y)
    | (extract_lets +onlyGivenNames y; guard_hyp y : Power := _; subst y)
    | (extract_lets +onlyGivenNames y; guard_hyp y : Trans := _; subst y)
    | (extract_lets +onlyGivenNames y; guard_hyp y : Prot := _; subst y)
    | (extract_lets +onlyGivenNames y; guard_hyp y : Persist := _; subst y)
    | (extract_lets +onlyGivenNames y; guard_hyp y : Sgl := _; subst y)
    | (extract_lets +onlyGivenNames y; guard_hyp y : Sec := _; subst y)
    | (extract_lets +onlyGivenNames y; clear_value y)
    | extract_lets +onlyGivenNames y
    | with_reducible apply OnlyChanges.ite
    | (with_reducible apply withGate_frame; (on_goal 1 => decide))
    | with_reducible apply OnlyChangesF.ack
    | with_reducible apply OnlyChangesF.bg
    | with_reducible apply OnlyChangesF.wait
    | with_reducible apply OnlyChangesF.ite
    | (with_reducible apply OnlyChangesF.step answerWith_frame; (on_goal 1 => decide))
    | with_reducible intro _
    | split

theorem bcsSetLevelSpread_frame {a0} {a1} {x : State} : OnlyChanges [.mb, .tr, .fab, .outs] x (bcsSetLevelSpread a0 a1 x) := by
  unfold bcsSetLevelSpread
  repeat' first
    | with_reducible assumption
    | with_reducible apply OnlyChanges.refl
    | (extract_lets +onlyGivenNames y; guard_hyp y : State := Prod.snd _; subst y)
    | (extract_lets +onlyGivenNames y; guard_hyp y : State := _; apply OnlyChangesF.cut y; (on_goal 1 => (unfold y; clear y)); (on_goal 2 => (intro hx; clear_value y)))
    | (extract_lets +onlyGivenNames y; guard_hyp y : _ × State := _; apply OnlyChangesF.cutP y; (on_goal 1 => (unfold y; clear y)); (on_goal 2 => (intro hx; clear_value y)))
    | (extract_lets +onlyGivenNames y; guard_hyp y : _ × _ × State := _; apply OnlyChangesF.cutPP y; (on_goal 1 => (unfold y; clear y)); (on_goal 2 => (intro hx; clear_value y)))
    | (extract_lets +onlyGivenNames y; guard_hyp y : Boxes := _; subst y)
    | (extract_lets +onlyGivenNames y; guard_hyp y : Power := _; subst y)
    | (extract_lets +onlyGivenNames y; guard_hyp y : Trans := _; subst y)
    | (extract_lets +onlyGivenNames y; guard_hyp y : Prot := _; subst y)
    | (extract_lets +onlyGivenNames y; guard_hyp y : Persist := _; subst y)
    | (extract_lets +onlyGivenNames y; guard_hyp y : Sgl := _; subst y)
    | (extract_lets +onlyGivenNames y; guard_hyp y : Sec := _; subst y)
    | (extract_lets +onlyGivenNames y; clear_value y)
    | extract_lets +onlyGivenNames y
    | with_reducible apply OnlyChanges.ite
    | (with_reducible apply withGate_frame; (on_goal 1 => decide))
    | with_reducible apply OnlyChangesF.ack
    | with_reducible apply OnlyChangesF.bg
    | with_reducible apply OnlyChangesF.wait
    | with_reducible apply OnlyChangesF.ite
    | with_reducible intro _
    | split
    | (with_reducible apply OnlyChanges.upd128; (on_goal 1 => decide); (on_goal 1 => (first | exact Or.inr (by with_reducible rfl) | exact Or.inl (by decide) | exact Or.inr rfl)))

theorem bcsMeterAudit_frame {a0} {a1} {x : State} : OnlyChanges [.mb, .fab, .outs] x (bcsMeterAudit a0 a1 x) := by
  unfold bcsMeterAudit
  repeat' first
    | with_reducible assumption
    | with_reducible apply OnlyChanges.refl
    | with_reducible apply OnlyChanges.ite
    | (with_reducible apply OnlyChanges.step relay_frame; (on_goal 1 => decide))
    | split

theorem execMeterAudit_frame {a0} {a1} {x t : State} (h : execMeterAudit a0 a1 x = .next t) :
    OnlyChanges [.evr, .pmc, .mb, .fab, .cxlA, .cxlB, .freeCtr, .outs] x t := by
  unfold execMeterAudit at h
  first
    | (injection h with h; subst h)
    | (split at h <;> (first | (injection h with h; subst h) | cases h))
  all_goals
    repeat' first
      | with_reducible assumption
      | with_reducible apply OnlyChanges.refl
      | with_reducible apply OnlyChanges.ite
      | (with_reducible apply OnlyChanges.step bcsMeterAudit_frame; (on_goal 1 => decide))
      | (with_reducible apply runMsg_frame; (on_goal 1 => decide))
      | with_reducible intro _
      | split

theorem execPoolStatus_frame {a0} {a1} {x t : State} (h : execPoolStatus a0 a1 x = .next t) :
    OnlyChanges [.evr, .pmc, .mb, .fab, .cxlA, .cxlB, .freeCtr, .outs] x t := by
  unfold execPoolStatus at h
  first
    | (injection h with h; subst h)
    | (split at h <;> (first | (injection h with h; subst h) | cases h))
  all_goals
    repeat' first
      | with_reducible assumption
      | with_reducible apply OnlyChanges.refl
      | with_reducible apply OnlyChanges.ite
      | (with_reducible apply OnlyChanges.step bcsPoolStatus_frame; (on_goal 1 => decide))
      | (with_reducible apply runMsg_frame; (on_goal 1 => decide))
      | with_reducible intro _
      | split

theorem fwSwitch_frame {a0} {a1} {x : State} : OnlyChanges [.pst, .mb, .cache, .portA, .portB, .clamps] x (fwSwitch a0 a1 x) := by
  unfold fwSwitch
  repeat' first
    | with_reducible assumption
    | with_reducible apply OnlyChanges.refl
    | (extract_lets +onlyGivenNames y; guard_hyp y : State := Prod.snd _; subst y)
    | (extract_lets +onlyGivenNames y; guard_hyp y : State := _; apply OnlyChanges.cut y; (on_goal 1 => (unfold y; clear y)); (on_goal 2 => (intro hx; clear_value y)))
    | (extract_lets +onlyGivenNames y; guard_hyp y : _ × State := _; apply OnlyChanges.cutP y; (on_goal 1 => (unfold y; clear y)); (on_goal 2 => (intro hx; clear_value y)))
    | (extract_lets +onlyGivenNames y; guard_hyp y : _ × _ × State := _; apply OnlyChanges.cutPP y; (on_goal 1 => (unfold y; clear y)); (on_goal 2 => (intro hx; clear_value y)))
    | (extract_lets +onlyGivenNames y; guard_hyp y : Boxes := _; subst y)
    | (extract_lets +onlyGivenNames y; guard_hyp y : Power := _; subst y)
    | (extract_lets +onlyGivenNames y; guard_hyp y : Trans := _; subst y)
    | (extract_lets +onlyGivenNames y; guard_hyp y : Prot := _; subst y)
    | (extract_lets +onlyGivenNames y; guard_hyp y : Persist := _; subst y)
    | (extract_lets +onlyGivenNames y; guard_hyp y : Sgl := _; subst y)
    | (extract_lets +onlyGivenNames y; guard_hyp y : Sec := _; subst y)
    | (extract_lets +onlyGivenNames y; clear_value y)
    | extract_lets +onlyGivenNames y
    | with_reducible apply OnlyChanges.ite
    | (with_reducible apply OnlyChanges.step stopMp_frame; (on_goal 1 => decide))
    | split
    | (with_reducible apply OnlyChanges.upd32; (on_goal 1 => decide); (on_goal 1 => (first | exact Or.inr (by with_reducible rfl) | exact Or.inl (by decide) | exact Or.inr rfl)))

theorem bcsFwActivate_frame {a0} {a1} {x : State} : OnlyChanges [.pst, .mb, .cache, .fab, .portA, .portB, .outs, .clamps] x (bcsFwActivate a0 a1 x) := by
  unfold bcsFwActivate
  repeat' first
    | with_reducible assumption
    | with_reducible apply OnlyChanges.refl
    | (extract_lets +onlyGivenNames y; guard_hyp y : State := Prod.snd _; subst y)
    | (extract_lets +onlyGivenNames y; guard_hyp y : State := _; apply OnlyChangesF.cut y; (on_goal 1 => (unfold y; clear y)); (on_goal 2 => (intro hx; clear_value y)))
    | (extract_lets +onlyGivenNames y; guard_hyp y : _ × State := _; apply OnlyChangesF.cutP y; (on_goal 1 => (unfold y; clear y)); (on_goal 2 => (intro hx; clear_value y)))
    | (extract_lets +onlyGivenNames y; guard_hyp y : _ × _ × State := _; apply OnlyChangesF.cutPP y; (on_goal 1 => (unfold y; clear y)); (on_goal 2 => (intro hx; clear_value y)))
    | (extract_lets +onlyGivenNames y; guard_hyp y : Boxes := _; subst y)
    | (extract_lets +onlyGivenNames y; guard_hyp y : Power := _; subst y)
    | (extract_lets +onlyGivenNames y; guard_hyp y : Trans := _; subst y)
    | (extract_lets +onlyGivenNames y; guard_hyp y : Prot := _; subst y)
    | (extract_lets +onlyGivenNames y; guard_hyp y : Persist := _; subst y)
    | (extract_lets +onlyGivenNames y; guard_hyp y : Sgl := _; subst y)
    | (extract_lets +onlyGivenNames y; guard_hyp y : Sec := _; subst y)
    | (extract_lets +onlyGivenNames y; clear_value y)
    | extract_lets +onlyGivenNames y
    | with_reducible apply OnlyChanges.ite
    | (with_reducible apply withGate_frame; (on_goal 1 => decide))
    | with_reducible apply OnlyChangesF.ack
    | with_reducible apply OnlyChangesF.bg
    | with_reducible apply OnlyChangesF.wait
    | with_reducible apply OnlyChangesF.ite
    | (with_reducible apply OnlyChanges.step openOp_frame; (on_goal 1 => decide))
    | (with_reducible apply OnlyChanges.step fwSwitch_frame; (on_goal 1 => decide))
    | with_reducible intro _
    | split

theorem execFwActivate_frame {a0} {a1} {x t : State} (h : execFwActivate a0 a1 x = .next t) :
    OnlyChanges [.evr, .pst, .pmc, .mb, .cache, .fab, .portA, .portB, .cxlA, .cxlB, .freeCtr, .outs, .clamps] x t := by
  unfold execFwActivate at h
  first
    | (injection h with h; subst h)
    | (split at h <;> (first | (injection h with h; subst h) | cases h))
  all_goals
    repeat' first
      | with_reducible assumption
      | with_reducible apply OnlyChanges.refl
      | with_reducible apply OnlyChanges.ite
      | (with_reducible apply OnlyChanges.step bcsFwActivate_frame; (on_goal 1 => decide))
      | (with_reducible apply runMsg_frame; (on_goal 1 => decide))
      | with_reducible intro _
      | split

theorem retireAll_frame  {x : State} : OnlyChanges [.pmc, .trb, .mb, .cache, .dram, .coh, .fab, .portA, .portB, .sec, .freeCtr, .outs, .kids] x (retireAll x) := by
  unfold retireAll
  repeat' first
    | with_reducible assumption
    | with_reducible apply OnlyChanges.refl
    | (extract_lets +onlyGivenNames y; guard_hyp y : State := Prod.snd _; subst y)
    | (extract_lets +onlyGivenNames y; guard_hyp y : State := _; apply OnlyChanges.cut y; (on_goal 1 => (unfold y; clear y)); (on_goal 2 => (intro hx; clear_value y)))
    | (extract_lets +onlyGivenNames y; guard_hyp y : _ × State := _; apply OnlyChanges.cutP y; (on_goal 1 => (unfold y; clear y)); (on_goal 2 => (intro hx; clear_value y)))
    | (extract_lets +onlyGivenNames y; guard_hyp y : _ × _ × State := _; apply OnlyChanges.cutPP y; (on_goal 1 => (unfold y; clear y)); (on_goal 2 => (intro hx; clear_value y)))
    | (extract_lets +onlyGivenNames y; guard_hyp y : Boxes := _; subst y)
    | (extract_lets +onlyGivenNames y; guard_hyp y : Power := _; subst y)
    | (extract_lets +onlyGivenNames y; guard_hyp y : Trans := _; subst y)
    | (extract_lets +onlyGivenNames y; guard_hyp y : Prot := _; subst y)
    | (extract_lets +onlyGivenNames y; guard_hyp y : Persist := _; subst y)
    | (extract_lets +onlyGivenNames y; guard_hyp y : Sgl := _; subst y)
    | (extract_lets +onlyGivenNames y; guard_hyp y : Sec := _; subst y)
    | (extract_lets +onlyGivenNames y; clear_value y)
    | extract_lets +onlyGivenNames y
    | with_reducible apply OnlyChanges.ite
    | (with_reducible apply OnlyChanges.step retire_frame; (on_goal 1 => decide))
    | (with_reducible apply OnlyChanges.step endOps_frame; (on_goal 1 => decide))
    | (with_reducible apply OnlyChanges.foldl; (on_goal 2 => intro z a))
    | (with_reducible apply OnlyChangesP.foldl; (on_goal 2 => intro z a))
    | split
    | (with_reducible apply OnlyChanges.upd2097152; (on_goal 1 => decide); (on_goal 1 => (first | exact Or.inr (by with_reducible rfl) | exact Or.inl (by decide) | exact Or.inr rfl)); (on_goal 1 => (first | exact Or.inr (by with_reducible rfl) | exact Or.inl (by decide) | exact Or.inr rfl)); (on_goal 1 => (first | exact Or.inr (by with_reducible rfl) | exact Or.inl (by decide) | exact Or.inr rfl)))

theorem bcsPrepareReturn_frame {a0} {a1} {x : State} : OnlyChanges [.pw, .evr, .pst, .pmc, .trb, .mb, .cache, .dram, .coh, .fab, .portA, .portB, .sec, .freeCtr, .outs, .kids] x (bcsPrepareReturn a0 a1 x) := by
  unfold bcsPrepareReturn
  repeat' first
    | with_reducible assumption
    | with_reducible apply OnlyChanges.refl
    | (extract_lets +onlyGivenNames y; guard_hyp y : State := Prod.snd _; subst y)
    | (extract_lets +onlyGivenNames y; guard_hyp y : State := _; apply OnlyChangesF.cut y; (on_goal 1 => (unfold y; clear y)); (on_goal 2 => (intro hx; clear_value y)))
    | (extract_lets +onlyGivenNames y; guard_hyp y : _ × State := _; apply OnlyChangesF.cutP y; (on_goal 1 => (unfold y; clear y)); (on_goal 2 => (intro hx; clear_value y)))
    | (extract_lets +onlyGivenNames y; guard_hyp y : _ × _ × State := _; apply OnlyChangesF.cutPP y; (on_goal 1 => (unfold y; clear y)); (on_goal 2 => (intro hx; clear_value y)))
    | (extract_lets +onlyGivenNames y; guard_hyp y : Boxes := _; subst y)
    | (extract_lets +onlyGivenNames y; guard_hyp y : Power := _; subst y)
    | (extract_lets +onlyGivenNames y; guard_hyp y : Trans := _; subst y)
    | (extract_lets +onlyGivenNames y; guard_hyp y : Prot := _; subst y)
    | (extract_lets +onlyGivenNames y; guard_hyp y : Persist := _; subst y)
    | (extract_lets +onlyGivenNames y; guard_hyp y : Sgl := _; subst y)
    | (extract_lets +onlyGivenNames y; guard_hyp y : Sec := _; subst y)
    | (extract_lets +onlyGivenNames y; clear_value y)
    | extract_lets +onlyGivenNames y
    | with_reducible apply OnlyChanges.ite
    | (with_reducible apply withGate_frame; (on_goal 1 => decide))
    | with_reducible apply OnlyChangesF.ack
    | with_reducible apply OnlyChangesF.bg
    | with_reducible apply OnlyChangesF.wait
    | with_reducible apply OnlyChangesF.ite
    | (with_reducible apply OnlyChanges.step openOp_frame; (on_goal 1 => decide))
    | (with_reducible apply OnlyChanges.step retireAll_frame; (on_goal 1 => decide))
    | (with_reducible apply OnlyChanges.step returnCheck_frame; (on_goal 1 => decide))
    | with_reducible intro _
    | split
    | (with_reducible apply OnlyChanges.upd2; (on_goal 1 => decide))
    | (with_reducible apply OnlyChanges.upd4; (on_goal 1 => decide))

theorem execPrepareReturn_frame {a0} {a1} {x t : State} (h : execPrepareReturn a0 a1 x = .next t) :
    OnlyChanges [.pw, .evr, .pst, .pmc, .trb, .mb, .cache, .dram, .coh, .fab, .portA, .portB, .cxlA, .cxlB, .sec, .freeCtr, .outs, .kids] x t := by
  unfold execPrepareReturn at h
  first
    | (injection h with h; subst h)
    | (split at h <;> (first | (injection h with h; subst h) | cases h))
  all_goals
    repeat' first
      | with_reducible assumption
      | with_reducible apply OnlyChanges.refl
      | with_reducible apply OnlyChanges.ite
      | (with_reducible apply runMsg_frame; (on_goal 1 => decide))
      | (with_reducible apply OnlyChanges.step bcsPrepareReturn_frame; (on_goal 1 => decide))
      | with_reducible intro _
      | split

theorem fwOpen_frame {a0} {a1} {x : State} : OnlyChangesP [.mb] x (fwOpen a0 a1 x) := by
  unfold fwOpen
  repeat' first
    | with_reducible assumption
    | with_reducible apply OnlyChanges.refl
    | with_reducible apply OnlyChanges.ite
    | with_reducible apply OnlyChangesP.ite
    | (with_reducible apply OnlyChanges.step setSlot_frame; (on_goal 1 => decide))
    | split
    | with_reducible apply OnlyChangesP.mk

theorem bcsFwBegin_frame {a0} {a1} {x : State} : OnlyChanges [.mb, .fab, .outs] x (bcsFwBegin a0 a1 x) := by
  unfold bcsFwBegin
  repeat' first
    | with_reducible assumption
    | with_reducible apply OnlyChanges.refl
    | (extract_lets +onlyGivenNames y; guard_hyp y : State := Prod.snd _; subst y)
    | (extract_lets +onlyGivenNames y; guard_hyp y : State := _; apply OnlyChangesF.cut y; (on_goal 1 => (unfold y; clear y)); (on_goal 2 => (intro hx; clear_value y)))
    | (extract_lets +onlyGivenNames y; guard_hyp y : _ × State := _; apply OnlyChangesF.cutP y; (on_goal 1 => (unfold y; clear y)); (on_goal 2 => (intro hx; clear_value y)))
    | (extract_lets +onlyGivenNames y; guard_hyp y : _ × _ × State := _; apply OnlyChangesF.cutPP y; (on_goal 1 => (unfold y; clear y)); (on_goal 2 => (intro hx; clear_value y)))
    | (extract_lets +onlyGivenNames y; guard_hyp y : Boxes := _; subst y)
    | (extract_lets +onlyGivenNames y; guard_hyp y : Power := _; subst y)
    | (extract_lets +onlyGivenNames y; guard_hyp y : Trans := _; subst y)
    | (extract_lets +onlyGivenNames y; guard_hyp y : Prot := _; subst y)
    | (extract_lets +onlyGivenNames y; guard_hyp y : Persist := _; subst y)
    | (extract_lets +onlyGivenNames y; guard_hyp y : Sgl := _; subst y)
    | (extract_lets +onlyGivenNames y; guard_hyp y : Sec := _; subst y)
    | (extract_lets +onlyGivenNames y; clear_value y)
    | extract_lets +onlyGivenNames y
    | with_reducible apply OnlyChanges.ite
    | (with_reducible apply withGate_frame; (on_goal 1 => decide))
    | with_reducible apply OnlyChangesF.ack
    | with_reducible apply OnlyChangesF.bg
    | with_reducible apply OnlyChangesF.wait
    | with_reducible apply OnlyChangesF.ite
    | (with_reducible apply OnlyChangesP.step fwOpen_frame; (on_goal 1 => decide))
    | (with_reducible apply OnlyChangesP.snd fwOpen_frame; (on_goal 1 => decide))
    | (with_reducible apply OnlyChanges.ofPair; (on_goal 1 => assumption))
    | with_reducible intro _
    | split

theorem bcsGetMode_frame {a0} {a1} {x : State} : OnlyChanges [.mb, .fab, .outs] x (bcsGetMode a0 a1 x) := by
  unfold bcsGetMode
  repeat' first
    | with_reducible assumption
    | with_reducible apply OnlyChanges.refl
    | (extract_lets +onlyGivenNames y; guard_hyp y : State := Prod.snd _; subst y)
    | (extract_lets +onlyGivenNames y; guard_hyp y : State := _; apply OnlyChangesF.cut y; (on_goal 1 => (unfold y; clear y)); (on_goal 2 => (intro hx; clear_value y)))
    | (extract_lets +onlyGivenNames y; guard_hyp y : _ × State := _; apply OnlyChangesF.cutP y; (on_goal 1 => (unfold y; clear y)); (on_goal 2 => (intro hx; clear_value y)))
    | (extract_lets +onlyGivenNames y; guard_hyp y : _ × _ × State := _; apply OnlyChangesF.cutPP y; (on_goal 1 => (unfold y; clear y)); (on_goal 2 => (intro hx; clear_value y)))
    | (extract_lets +onlyGivenNames y; guard_hyp y : Boxes := _; subst y)
    | (extract_lets +onlyGivenNames y; guard_hyp y : Power := _; subst y)
    | (extract_lets +onlyGivenNames y; guard_hyp y : Trans := _; subst y)
    | (extract_lets +onlyGivenNames y; guard_hyp y : Prot := _; subst y)
    | (extract_lets +onlyGivenNames y; guard_hyp y : Persist := _; subst y)
    | (extract_lets +onlyGivenNames y; guard_hyp y : Sgl := _; subst y)
    | (extract_lets +onlyGivenNames y; guard_hyp y : Sec := _; subst y)
    | (extract_lets +onlyGivenNames y; clear_value y)
    | extract_lets +onlyGivenNames y
    | with_reducible apply OnlyChanges.ite
    | (with_reducible apply withGate_frame; (on_goal 1 => decide))
    | with_reducible apply OnlyChangesF.ack
    | with_reducible apply OnlyChangesF.bg
    | with_reducible apply OnlyChangesF.wait
    | with_reducible apply OnlyChangesF.ite
    | (with_reducible apply OnlyChangesF.step answerWith_frame; (on_goal 1 => decide))
    | with_reducible intro _
    | split

theorem bcsNop_frame {a0} {a1} {x : State} : OnlyChanges [.mb, .fab, .outs] x (bcsNop a0 a1 x) := by
  unfold bcsNop
  repeat' first
    | with_reducible assumption
    | with_reducible apply OnlyChanges.refl
    | (extract_lets +onlyGivenNames y; guard_hyp y : State := Prod.snd _; subst y)
    | (extract_lets +onlyGivenNames y; guard_hyp y : State := _; apply OnlyChangesF.cut y; (on_goal 1 => (unfold y; clear y)); (on_goal 2 => (intro hx; clear_value y)))
    | (extract_lets +onlyGivenNames y; guard_hyp y : _ × State := _; apply OnlyChangesF.cutP y; (on_goal 1 => (unfold y; clear y)); (on_goal 2 => (intro hx; clear_value y)))
    | (extract_lets +onlyGivenNames y; guard_hyp y : _ × _ × State := _; apply OnlyChangesF.cutPP y; (on_goal 1 => (unfold y; clear y)); (on_goal 2 => (intro hx; clear_value y)))
    | (extract_lets +onlyGivenNames y; guard_hyp y : Boxes := _; subst y)
    | (extract_lets +onlyGivenNames y; guard_hyp y : Power := _; subst y)
    | (extract_lets +onlyGivenNames y; guard_hyp y : Trans := _; subst y)
    | (extract_lets +onlyGivenNames y; guard_hyp y : Prot := _; subst y)
    | (extract_lets +onlyGivenNames y; guard_hyp y : Persist := _; subst y)
    | (extract_lets +onlyGivenNames y; guard_hyp y : Sgl := _; subst y)
    | (extract_lets +onlyGivenNames y; guard_hyp y : Sec := _; subst y)
    | (extract_lets +onlyGivenNames y; clear_value y)
    | extract_lets +onlyGivenNames y
    | with_reducible apply OnlyChanges.ite
    | (with_reducible apply withGate_frame; (on_goal 1 => decide))
    | with_reducible apply OnlyChangesF.ack
    | with_reducible apply OnlyChangesF.bg
    | with_reducible apply OnlyChangesF.wait
    | with_reducible apply OnlyChangesF.ite
    | with_reducible intro _
    | split

theorem bcsSetHoldNs_frame {a0} {a1} {x : State} : OnlyChanges [.mb, .coh, .fab, .outs] x (bcsSetHoldNs a0 a1 x) := by
  unfold bcsSetHoldNs
  repeat' first
    | with_reducible assumption
    | with_reducible apply OnlyChanges.refl
    | (extract_lets +onlyGivenNames y; guard_hyp y : State := Prod.snd _; subst y)
    | (extract_lets +onlyGivenNames y; guard_hyp y : State := _; apply OnlyChangesF.cut y; (on_goal 1 => (unfold y; clear y)); (on_goal 2 => (intro hx; clear_value y)))
    | (extract_lets +onlyGivenNames y; guard_hyp y : _ × State := _; apply OnlyChangesF.cutP y; (on_goal 1 => (unfold y; clear y)); (on_goal 2 => (intro hx; clear_value y)))
    | (extract_lets +onlyGivenNames y; guard_hyp y : _ × _ × State := _; apply OnlyChangesF.cutPP y; (on_goal 1 => (unfold y; clear y)); (on_goal 2 => (intro hx; clear_value y)))
    | (extract_lets +onlyGivenNames y; guard_hyp y : Boxes := _; subst y)
    | (extract_lets +onlyGivenNames y; guard_hyp y : Power := _; subst y)
    | (extract_lets +onlyGivenNames y; guard_hyp y : Trans := _; subst y)
    | (extract_lets +onlyGivenNames y; guard_hyp y : Prot := _; subst y)
    | (extract_lets +onlyGivenNames y; guard_hyp y : Persist := _; subst y)
    | (extract_lets +onlyGivenNames y; guard_hyp y : Sgl := _; subst y)
    | (extract_lets +onlyGivenNames y; guard_hyp y : Sec := _; subst y)
    | (extract_lets +onlyGivenNames y; clear_value y)
    | extract_lets +onlyGivenNames y
    | with_reducible apply OnlyChanges.ite
    | (with_reducible apply withGate_frame; (on_goal 1 => decide))
    | with_reducible apply OnlyChangesF.ack
    | with_reducible apply OnlyChangesF.bg
    | with_reducible apply OnlyChangesF.wait
    | with_reducible apply OnlyChangesF.ite
    | with_reducible intro _
    | split
    | (with_reducible apply OnlyChanges.upd16384; (on_goal 1 => decide))

theorem bcsUnknown_frame {a0} {x : State} : OnlyChanges [.mb, .fab, .outs] x (bcsUnknown a0 x) := by
  unfold bcsUnknown
  repeat' first
    | with_reducible assumption
    | with_reducible apply OnlyChanges.refl
    | with_reducible apply OnlyChanges.ite
    | (with_reducible apply OnlyChanges.step ackHead_frame; (on_goal 1 => decide))
    | split

theorem bcsSetPdTimer_frame {a0} {a1} {x : State} : OnlyChanges [.mb, .dram, .fab, .outs] x (bcsSetPdTimer a0 a1 x) := by
  unfold bcsSetPdTimer
  repeat' first
    | with_reducible assumption
    | with_reducible apply OnlyChanges.refl
    | (extract_lets +onlyGivenNames y; guard_hyp y : State := Prod.snd _; subst y)
    | (extract_lets +onlyGivenNames y; guard_hyp y : State := _; apply OnlyChangesF.cut y; (on_goal 1 => (unfold y; clear y)); (on_goal 2 => (intro hx; clear_value y)))
    | (extract_lets +onlyGivenNames y; guard_hyp y : _ × State := _; apply OnlyChangesF.cutP y; (on_goal 1 => (unfold y; clear y)); (on_goal 2 => (intro hx; clear_value y)))
    | (extract_lets +onlyGivenNames y; guard_hyp y : _ × _ × State := _; apply OnlyChangesF.cutPP y; (on_goal 1 => (unfold y; clear y)); (on_goal 2 => (intro hx; clear_value y)))
    | (extract_lets +onlyGivenNames y; guard_hyp y : Boxes := _; subst y)
    | (extract_lets +onlyGivenNames y; guard_hyp y : Power := _; subst y)
    | (extract_lets +onlyGivenNames y; guard_hyp y : Trans := _; subst y)
    | (extract_lets +onlyGivenNames y; guard_hyp y : Prot := _; subst y)
    | (extract_lets +onlyGivenNames y; guard_hyp y : Persist := _; subst y)
    | (extract_lets +onlyGivenNames y; guard_hyp y : Sgl := _; subst y)
    | (extract_lets +onlyGivenNames y; guard_hyp y : Sec := _; subst y)
    | (extract_lets +onlyGivenNames y; clear_value y)
    | extract_lets +onlyGivenNames y
    | with_reducible apply OnlyChanges.ite
    | (with_reducible apply withGate_frame; (on_goal 1 => decide))
    | with_reducible apply OnlyChangesF.ack
    | with_reducible apply OnlyChangesF.bg
    | with_reducible apply OnlyChangesF.wait
    | with_reducible apply OnlyChangesF.ite
    | with_reducible intro _
    | split
    | (with_reducible apply OnlyChanges.upd8192; (on_goal 1 => decide))

theorem bcsReadReftable_frame {a0} {a1} {x : State} : OnlyChanges [.mb, .fab, .outs] x (bcsReadReftable a0 a1 x) := by
  unfold bcsReadReftable
  repeat' first
    | with_reducible assumption
    | with_reducible apply OnlyChanges.refl
    | (extract_lets +onlyGivenNames y; guard_hyp y : State := Prod.snd _; subst y)
    | (extract_lets +onlyGivenNames y; guard_hyp y : State := _; apply OnlyChangesF.cut y; (on_goal 1 => (unfold y; clear y)); (on_goal 2 => (intro hx; clear_value y)))
    | (extract_lets +onlyGivenNames y; guard_hyp y : _ × State := _; apply OnlyChangesF.cutP y; (on_goal 1 => (unfold y; clear y)); (on_goal 2 => (intro hx; clear_value y)))
    | (extract_lets +onlyGivenNames y; guard_hyp y : _ × _ × State := _; apply OnlyChangesF.cutPP y; (on_goal 1 => (unfold y; clear y)); (on_goal 2 => (intro hx; clear_value y)))
    | (extract_lets +onlyGivenNames y; guard_hyp y : Boxes := _; subst y)
    | (extract_lets +onlyGivenNames y; guard_hyp y : Power := _; subst y)
    | (extract_lets +onlyGivenNames y; guard_hyp y : Trans := _; subst y)
    | (extract_lets +onlyGivenNames y; guard_hyp y : Prot := _; subst y)
    | (extract_lets +onlyGivenNames y; guard_hyp y : Persist := _; subst y)
    | (extract_lets +onlyGivenNames y; guard_hyp y : Sgl := _; subst y)
    | (extract_lets +onlyGivenNames y; guard_hyp y : Sec := _; subst y)
    | (extract_lets +onlyGivenNames y; clear_value y)
    | extract_lets +onlyGivenNames y
    | with_reducible apply OnlyChanges.ite
    | (with_reducible apply withGate_frame; (on_goal 1 => decide))
    | with_reducible apply OnlyChangesF.ack
    | with_reducible apply OnlyChangesF.bg
    | with_reducible apply OnlyChangesF.wait
    | with_reducible apply OnlyChangesF.ite
    | (with_reducible apply OnlyChangesF.step answerWith_frame; (on_goal 1 => decide))
    | with_reducible intro _
    | split

theorem bcsSanitize_frame {a0} {a1} {x : State} : OnlyChanges [.mb, .fab, .sec, .outs, .kids] x (bcsSanitize a0 a1 x) := by
  unfold bcsSanitize
  repeat' first
    | with_reducible assumption
    | with_reducible apply OnlyChanges.refl
    | (extract_lets +onlyGivenNames y; guard_hyp y : State := Prod.snd _; subst y)
    | (extract_lets +onlyGivenNames y; guard_hyp y : State := _; apply OnlyChangesF.cut y; (on_goal 1 => (unfold y; clear y)); (on_goal 2 => (intro hx; clear_value y)))
    | (extract_lets +onlyGivenNames y; guard_hyp y : _ × State := _; apply OnlyChangesF.cutP y; (on_goal 1 => (unfold y; clear y)); (on_goal 2 => (intro hx; clear_value y)))
    | (extract_lets +onlyGivenNames y; guard_hyp y : _ × _ × State := _; apply OnlyChangesF.cutPP y; (on_goal 1 => (unfold y; clear y)); (on_goal 2 => (intro hx; clear_value y)))
    | (extract_lets +onlyGivenNames y; guard_hyp y : Boxes := _; subst y)
    | (extract_lets +onlyGivenNames y; guard_hyp y : Power := _; subst y)
    | (extract_lets +onlyGivenNames y; guard_hyp y : Trans := _; subst y)
    | (extract_lets +onlyGivenNames y; guard_hyp y : Prot := _; subst y)
    | (extract_lets +onlyGivenNames y; guard_hyp y : Persist := _; subst y)
    | (extract_lets +onlyGivenNames y; guard_hyp y : Sgl := _; subst y)
    | (extract_lets +onlyGivenNames y; guard_hyp y : Sec := _; subst y)
    | (extract_lets +onlyGivenNames y; clear_value y)
    | extract_lets +onlyGivenNames y
    | with_reducible apply OnlyChanges.ite
    | (with_reducible apply withGate_frame; (on_goal 1 => decide))
    | with_reducible apply OnlyChangesF.ack
    | with_reducible apply OnlyChangesF.bg
    | with_reducible apply OnlyChangesF.wait
    | with_reducible apply OnlyChangesF.ite
    | (with_reducible apply OnlyChanges.step startSanitize_frame; (on_goal 1 => decide))
    | with_reducible intro _
    | split

theorem bcsFwInfo_frame {a0} {a1} {x : State} : OnlyChanges [.mb, .fab, .outs] x (bcsFwInfo a0 a1 x) := by
  unfold bcsFwInfo
  repeat' first
    | with_reducible assumption
    | with_reducible apply OnlyChanges.refl
    | (extract_lets +onlyGivenNames y; guard_hyp y : State := Prod.snd _; subst y)
    | (extract_lets +onlyGivenNames y; guard_hyp y : State := _; apply OnlyChangesF.cut y; (on_goal 1 => (unfold y; clear y)); (on_goal 2 => (intro hx; clear_value y)))
    | (extract_lets +onlyGivenNames y; guard_hyp y : _ × State := _; apply OnlyChangesF.cutP y; (on_goal 1 => (unfold y; clear y)); (on_goal 2 => (intro hx; clear_value y)))
    | (extract_lets +onlyGivenNames y; guard_hyp y : _ × _ × State := _; apply OnlyChangesF.cutPP y; (on_goal 1 => (unfold y; clear y)); (on_goal 2 => (intro hx; clear_value y)))
    | (extract_lets +onlyGivenNames y; guard_hyp y : Boxes := _; subst y)
    | (extract_lets +onlyGivenNames y; guard_hyp y : Power := _; subst y)
    | (extract_lets +onlyGivenNames y; guard_hyp y : Trans := _; subst y)
    | (extract_lets +onlyGivenNames y; guard_hyp y : Prot := _; subst y)
    | (extract_lets +onlyGivenNames y; guard_hyp y : Persist := _; subst y)
    | (extract_lets +onlyGivenNames y; guard_hyp y : Sgl := _; subst y)
    | (extract_lets +onlyGivenNames y; guard_hyp y : Sec := _; subst y)
    | (extract_lets +onlyGivenNames y; clear_value y)
    | extract_lets +onlyGivenNames y
    | with_reducible apply OnlyChanges.ite
    | (with_reducible apply withGate_frame; (on_goal 1 => decide))
    | with_reducible apply OnlyChangesF.ack
    | with_reducible apply OnlyChangesF.bg
    | with_reducible apply OnlyChangesF.wait
    | with_reducible apply OnlyChangesF.ite
    | (with_reducible apply OnlyChangesF.step answerWith_frame; (on_goal 1 => decide))
    | with_reducible intro _
    | split

theorem bcsSetHoldLimit_frame {a0} {a1} {x : State} : OnlyChanges [.mb, .sgl, .fab, .outs] x (bcsSetHoldLimit a0 a1 x) := by
  unfold bcsSetHoldLimit
  repeat' first
    | with_reducible assumption
    | with_reducible apply OnlyChanges.refl
    | (extract_lets +onlyGivenNames y; guard_hyp y : State := Prod.snd _; subst y)
    | (extract_lets +onlyGivenNames y; guard_hyp y : State := _; apply OnlyChangesF.cut y; (on_goal 1 => (unfold y; clear y)); (on_goal 2 => (intro hx; clear_value y)))
    | (extract_lets +onlyGivenNames y; guard_hyp y : _ × State := _; apply OnlyChangesF.cutP y; (on_goal 1 => (unfold y; clear y)); (on_goal 2 => (intro hx; clear_value y)))
    | (extract_lets +onlyGivenNames y; guard_hyp y : _ × _ × State := _; apply OnlyChangesF.cutPP y; (on_goal 1 => (unfold y; clear y)); (on_goal 2 => (intro hx; clear_value y)))
    | (extract_lets +onlyGivenNames y; guard_hyp y : Boxes := _; subst y)
    | (extract_lets +onlyGivenNames y; guard_hyp y : Power := _; subst y)
    | (extract_lets +onlyGivenNames y; guard_hyp y : Trans := _; subst y)
    | (extract_lets +onlyGivenNames y; guard_hyp y : Prot := _; subst y)
    | (extract_lets +onlyGivenNames y; guard_hyp y : Persist := _; subst y)
    | (extract_lets +onlyGivenNames y; guard_hyp y : Sgl := _; subst y)
    | (extract_lets +onlyGivenNames y; guard_hyp y : Sec := _; subst y)
    | (extract_lets +onlyGivenNames y; clear_value y)
    | extract_lets +onlyGivenNames y
    | with_reducible apply OnlyChanges.ite
    | (with_reducible apply withGate_frame; (on_goal 1 => decide))
    | with_reducible apply OnlyChangesF.ack
    | with_reducible apply OnlyChangesF.bg
    | with_reducible apply OnlyChangesF.wait
    | with_reducible apply OnlyChangesF.ite
    | with_reducible intro _
    | split
    | (with_reducible apply OnlyChanges.upd32768; (on_goal 1 => decide); (on_goal 1 => (first | exact Or.inr (by with_reducible rfl) | exact Or.inl (by decide) | exact Or.inr rfl)))

theorem bcsMeterNote_frame {a0} {a1} {x : State} : OnlyChanges [.evr, .mb, .fab, .cxlA, .cxlB, .outs] x (bcsMeterNote a0 a1 x) := by
  unfold bcsMeterNote
  repeat' first
    | with_reducible assumption
    | with_reducible apply OnlyChanges.refl
    | with_reducible apply OnlyChanges.ite
    | (with_reducible apply OnlyChanges.step ackHead_frame; (on_goal 1 => decide))
    | (with_reducible apply OnlyChanges.step event_frame; (on_goal 1 => decide))
    | split

theorem bcsSetRemoteCache_frame {a0} {a1} {x : State} : OnlyChanges [.mb, .dram, .fab, .outs] x (bcsSetRemoteCache a0 a1 x) := by
  unfold bcsSetRemoteCache
  repeat' first
    | with_reducible assumption
    | with_reducible apply OnlyChanges.refl
    | (extract_lets +onlyGivenNames y; guard_hyp y : State := Prod.snd _; subst y)
    | (extract_lets +onlyGivenNames y; guard_hyp y : State := _; apply OnlyChangesF.cut y; (on_goal 1 => (unfold y; clear y)); (on_goal 2 => (intro hx; clear_value y)))
    | (extract_lets +onlyGivenNames y; guard_hyp y : _ × State := _; apply OnlyChangesF.cutP y; (on_goal 1 => (unfold y; clear y)); (on_goal 2 => (intro hx; clear_value y)))
    | (extract_lets +onlyGivenNames y; guard_hyp y : _ × _ × State := _; apply OnlyChangesF.cutPP y; (on_goal 1 => (unfold y; clear y)); (on_goal 2 => (intro hx; clear_value y)))
    | (extract_lets +onlyGivenNames y; guard_hyp y : Boxes := _; subst y)
    | (extract_lets +onlyGivenNames y; guard_hyp y : Power := _; subst y)
    | (extract_lets +onlyGivenNames y; guard_hyp y : Trans := _; subst y)
    | (extract_lets +onlyGivenNames y; guard_hyp y : Prot := _; subst y)
    | (extract_lets +onlyGivenNames y; guard_hyp y : Persist := _; subst y)
    | (extract_lets +onlyGivenNames y; guard_hyp y : Sgl := _; subst y)
    | (extract_lets +onlyGivenNames y; guard_hyp y : Sec := _; subst y)
    | (extract_lets +onlyGivenNames y; clear_value y)
    | extract_lets +onlyGivenNames y
    | with_reducible apply OnlyChanges.ite
    | (with_reducible apply withGate_frame; (on_goal 1 => decide))
    | with_reducible apply OnlyChangesF.ack
    | with_reducible apply OnlyChangesF.bg
    | with_reducible apply OnlyChangesF.wait
    | with_reducible apply OnlyChangesF.ite
    | (with_reducible apply OnlyChanges.step resizeRemote_frame; (on_goal 1 => decide))
    | with_reducible intro _
    | split

theorem bcsIdentify_frame {a0} {a1} {x : State} : OnlyChanges [.mb, .fab, .outs] x (bcsIdentify a0 a1 x) := by
  unfold bcsIdentify
  repeat' first
    | with_reducible assumption
    | with_reducible apply OnlyChanges.refl
    | (extract_lets +onlyGivenNames y; guard_hyp y : State := Prod.snd _; subst y)
    | (extract_lets +onlyGivenNames y; guard_hyp y : State := _; apply OnlyChangesF.cut y; (on_goal 1 => (unfold y; clear y)); (on_goal 2 => (intro hx; clear_value y)))
    | (extract_lets +onlyGivenNames y; guard_hyp y : _ × State := _; apply OnlyChangesF.cutP y; (on_goal 1 => (unfold y; clear y)); (on_goal 2 => (intro hx; clear_value y)))
    | (extract_lets +onlyGivenNames y; guard_hyp y : _ × _ × State := _; apply OnlyChangesF.cutPP y; (on_goal 1 => (unfold y; clear y)); (on_goal 2 => (intro hx; clear_value y)))
    | (extract_lets +onlyGivenNames y; guard_hyp y : Boxes := _; subst y)
    | (extract_lets +onlyGivenNames y; guard_hyp y : Power := _; subst y)
    | (extract_lets +onlyGivenNames y; guard_hyp y : Trans := _; subst y)
    | (extract_lets +onlyGivenNames y; guard_hyp y : Prot := _; subst y)
    | (extract_lets +onlyGivenNames y; guard_hyp y : Persist := _; subst y)
    | (extract_lets +onlyGivenNames y; guard_hyp y : Sgl := _; subst y)
    | (extract_lets +onlyGivenNames y; guard_hyp y : Sec := _; subst y)
    | (extract_lets +onlyGivenNames y; clear_value y)
    | extract_lets +onlyGivenNames y
    | with_reducible apply OnlyChanges.ite
    | (with_reducible apply withGate_frame; (on_goal 1 => decide))
    | with_reducible apply OnlyChangesF.ack
    | with_reducible apply OnlyChangesF.bg
    | with_reducible apply OnlyChangesF.wait
    | with_reducible apply OnlyChangesF.ite
    | (with_reducible apply OnlyChangesF.step answerWith_frame; (on_goal 1 => decide))
    | with_reducible intro _
    | split

theorem bcsPmcConfig_frame {a0} {a1} {x : State} : OnlyChanges [.pmc, .mb, .fab, .outs] x (bcsPmcConfig a0 a1 x) := by
  unfold bcsPmcConfig
  repeat' first
    | with_reducible assumption
    | with_reducible apply OnlyChanges.refl
    | (extract_lets +onlyGivenNames y; guard_hyp y : State := Prod.snd _; subst y)
    | (extract_lets +onlyGivenNames y; guard_hyp y : State := _; apply OnlyChangesF.cut y; (on_goal 1 => (unfold y; clear y)); (on_goal 2 => (intro hx; clear_value y)))
    | (extract_lets +onlyGivenNames y; guard_hyp y : _ × State := _; apply OnlyChangesF.cutP y; (on_goal 1 => (unfold y; clear y)); (on_goal 2 => (intro hx; clear_value y)))
    | (extract_lets +onlyGivenNames y; guard_hyp y : _ × _ × State := _; apply OnlyChangesF.cutPP y; (on_goal 1 => (unfold y; clear y)); (on_goal 2 => (intro hx; clear_value y)))
    | (extract_lets +onlyGivenNames y; guard_hyp y : Boxes := _; subst y)
    | (extract_lets +onlyGivenNames y; guard_hyp y : Power := _; subst y)
    | (extract_lets +onlyGivenNames y; guard_hyp y : Trans := _; subst y)
    | (extract_lets +onlyGivenNames y; guard_hyp y : Prot := _; subst y)
    | (extract_lets +onlyGivenNames y; guard_hyp y : Persist := _; subst y)
    | (extract_lets +onlyGivenNames y; guard_hyp y : Sgl := _; subst y)
    | (extract_lets +onlyGivenNames y; guard_hyp y : Sec := _; subst y)
    | (extract_lets +onlyGivenNames y; clear_value y)
    | extract_lets +onlyGivenNames y
    | with_reducible apply OnlyChanges.ite
    | (with_reducible apply withGate_frame; (on_goal 1 => decide))
    | with_reducible apply OnlyChangesF.ack
    | with_reducible apply OnlyChangesF.bg
    | with_reducible apply OnlyChangesF.wait
    | with_reducible apply OnlyChangesF.ite
    | with_reducible intro _
    | split
    | (with_reducible apply OnlyChanges.upd8; (on_goal 1 => decide))

theorem bcsMeterRecord_frame {a0} {a1} {x : State} : OnlyChanges [.mb, .fab, .outs] x (bcsMeterRecord a0 a1 x) := by
  unfold bcsMeterRecord
  repeat' first
    | with_reducible assumption
    | with_reducible apply OnlyChanges.refl
    | with_reducible apply OnlyChanges.ite
    | (with_reducible apply OnlyChanges.step relay_frame; (on_goal 1 => decide))
    | split

theorem bcsMeterId_frame {a0} {a1} {x : State} : OnlyChanges [.mb, .fab, .outs] x (bcsMeterId a0 a1 x) := by
  unfold bcsMeterId
  repeat' first
    | with_reducible assumption
    | with_reducible apply OnlyChanges.refl
    | with_reducible apply OnlyChanges.ite
    | (with_reducible apply OnlyChanges.step relay_frame; (on_goal 1 => decide))
    | split

theorem bcsMeterTenant_frame {a0} {a1} {x : State} : OnlyChanges [.mb, .fab, .outs] x (bcsMeterTenant a0 a1 x) := by
  unfold bcsMeterTenant
  repeat' first
    | with_reducible assumption
    | with_reducible apply OnlyChanges.refl
    | with_reducible apply OnlyChanges.ite
    | (with_reducible apply OnlyChanges.step relay_frame; (on_goal 1 => decide))
    | split

theorem bcsDiagSnapshot_frame {a0} {a1} {x : State} : OnlyChanges [.mb, .fab, .outs] x (bcsDiagSnapshot a0 a1 x) := by
  unfold bcsDiagSnapshot
  repeat' first
    | with_reducible assumption
    | with_reducible apply OnlyChanges.refl
    | (extract_lets +onlyGivenNames y; guard_hyp y : State := Prod.snd _; subst y)
    | (extract_lets +onlyGivenNames y; guard_hyp y : State := _; apply OnlyChangesF.cut y; (on_goal 1 => (unfold y; clear y)); (on_goal 2 => (intro hx; clear_value y)))
    | (extract_lets +onlyGivenNames y; guard_hyp y : _ × State := _; apply OnlyChangesF.cutP y; (on_goal 1 => (unfold y; clear y)); (on_goal 2 => (intro hx; clear_value y)))
    | (extract_lets +onlyGivenNames y; guard_hyp y : _ × _ × State := _; apply OnlyChangesF.cutPP y; (on_goal 1 => (unfold y; clear y)); (on_goal 2 => (intro hx; clear_value y)))
    | (extract_lets +onlyGivenNames y; guard_hyp y : Boxes := _; subst y)
    | (extract_lets +onlyGivenNames y; guard_hyp y : Power := _; subst y)
    | (extract_lets +onlyGivenNames y; guard_hyp y : Trans := _; subst y)
    | (extract_lets +onlyGivenNames y; guard_hyp y : Prot := _; subst y)
    | (extract_lets +onlyGivenNames y; guard_hyp y : Persist := _; subst y)
    | (extract_lets +onlyGivenNames y; guard_hyp y : Sgl := _; subst y)
    | (extract_lets +onlyGivenNames y; guard_hyp y : Sec := _; subst y)
    | (extract_lets +onlyGivenNames y; clear_value y)
    | extract_lets +onlyGivenNames y
    | with_reducible apply OnlyChanges.ite
    | (with_reducible apply withGate_frame; (on_goal 1 => decide))
    | with_reducible apply OnlyChangesF.ack
    | with_reducible apply OnlyChangesF.bg
    | with_reducible apply OnlyChangesF.wait
    | with_reducible apply OnlyChangesF.ite
    | (with_reducible apply OnlyChangesF.step answerWith_frame; (on_goal 1 => decide))
    | with_reducible intro _
    | split

theorem bcsEvrFreeze_frame {a0} {a1} {x : State} : OnlyChanges [.evr, .mb, .fab, .cxlA, .cxlB, .outs] x (bcsEvrFreeze a0 a1 x) := by
  unfold bcsEvrFreeze
  repeat' first
    | with_reducible assumption
    | with_reducible apply OnlyChanges.refl
    | (extract_lets +onlyGivenNames y; guard_hyp y : State := Prod.snd _; subst y)
    | (extract_lets +onlyGivenNames y; guard_hyp y : State := _; apply OnlyChangesF.cut y; (on_goal 1 => (unfold y; clear y)); (on_goal 2 => (intro hx; clear_value y)))
    | (extract_lets +onlyGivenNames y; guard_hyp y : _ × State := _; apply OnlyChangesF.cutP y; (on_goal 1 => (unfold y; clear y)); (on_goal 2 => (intro hx; clear_value y)))
    | (extract_lets +onlyGivenNames y; guard_hyp y : _ × _ × State := _; apply OnlyChangesF.cutPP y; (on_goal 1 => (unfold y; clear y)); (on_goal 2 => (intro hx; clear_value y)))
    | (extract_lets +onlyGivenNames y; guard_hyp y : Boxes := _; subst y)
    | (extract_lets +onlyGivenNames y; guard_hyp y : Power := _; subst y)
    | (extract_lets +onlyGivenNames y; guard_hyp y : Trans := _; subst y)
    | (extract_lets +onlyGivenNames y; guard_hyp y : Prot := _; subst y)
    | (extract_lets +onlyGivenNames y; guard_hyp y : Persist := _; subst y)
    | (extract_lets +onlyGivenNames y; guard_hyp y : Sgl := _; subst y)
    | (extract_lets +onlyGivenNames y; guard_hyp y : Sec := _; subst y)
    | (extract_lets +onlyGivenNames y; clear_value y)
    | extract_lets +onlyGivenNames y
    | with_reducible apply OnlyChanges.ite
    | (with_reducible apply OnlyChanges.step drainUpTo_frame; (on_goal 1 => decide))
    | (with_reducible apply withGate_frame; (on_goal 1 => decide))
    | with_reducible apply OnlyChangesF.ack
    | with_reducible apply OnlyChangesF.bg
    | with_reducible apply OnlyChangesF.wait
    | with_reducible apply OnlyChangesF.ite
    | with_reducible intro _
    | split
    | (with_reducible apply OnlyChanges.upd2; (on_goal 1 => decide))

theorem bcsSpdmOnly_frame {a0} {x : State} : OnlyChanges [.mb, .fab, .outs] x (bcsSpdmOnly a0 x) := by
  unfold bcsSpdmOnly
  repeat' first
    | with_reducible assumption
    | with_reducible apply OnlyChanges.refl
    | with_reducible apply OnlyChanges.ite
    | (with_reducible apply OnlyChanges.step ackHead_frame; (on_goal 1 => decide))
    | split

theorem bcsSetPool_frame {a0} {a1} {x : State} : OnlyChanges [.mb, .sgl, .fab, .outs] x (bcsSetPool a0 a1 x) := by
  unfold bcsSetPool
  repeat' first
    | with_reducible assumption
    | with_reducible apply OnlyChanges.refl
    | (extract_lets +onlyGivenNames y; guard_hyp y : State := Prod.snd _; subst y)
    | (extract_lets +onlyGivenNames y; guard_hyp y : State := _; apply OnlyChangesF.cut y; (on_goal 1 => (unfold y; clear y)); (on_goal 2 => (intro hx; clear_value y)))
    | (extract_lets +onlyGivenNames y; guard_hyp y : _ × State := _; apply OnlyChangesF.cutP y; (on_goal 1 => (unfold y; clear y)); (on_goal 2 => (intro hx; clear_value y)))
    | (extract_lets +onlyGivenNames y; guard_hyp y : _ × _ × State := _; apply OnlyChangesF.cutPP y; (on_goal 1 => (unfold y; clear y)); (on_goal 2 => (intro hx; clear_value y)))
    | (extract_lets +onlyGivenNames y; guard_hyp y : Boxes := _; subst y)
    | (extract_lets +onlyGivenNames y; guard_hyp y : Power := _; subst y)
    | (extract_lets +onlyGivenNames y; guard_hyp y : Trans := _; subst y)
    | (extract_lets +onlyGivenNames y; guard_hyp y : Prot := _; subst y)
    | (extract_lets +onlyGivenNames y; guard_hyp y : Persist := _; subst y)
    | (extract_lets +onlyGivenNames y; guard_hyp y : Sgl := _; subst y)
    | (extract_lets +onlyGivenNames y; guard_hyp y : Sec := _; subst y)
    | (extract_lets +onlyGivenNames y; clear_value y)
    | extract_lets +onlyGivenNames y
    | with_reducible apply OnlyChanges.ite
    | (with_reducible apply withGate_frame; (on_goal 1 => decide))
    | with_reducible apply OnlyChangesF.ack
    | with_reducible apply OnlyChangesF.bg
    | with_reducible apply OnlyChangesF.wait
    | with_reducible apply OnlyChangesF.ite
    | (with_reducible apply OnlyChanges.step setPoolNext_frame; (on_goal 1 => decide))
    | with_reducible intro _
    | split

theorem bcsMeasureHoldup_frame {a0} {a1} {x : State} : OnlyChanges [.mb, .per, .fab, .outs] x (bcsMeasureHoldup a0 a1 x) := by
  unfold bcsMeasureHoldup
  repeat' first
    | with_reducible assumption
    | with_reducible apply OnlyChanges.refl
    | (extract_lets +onlyGivenNames y; guard_hyp y : State := Prod.snd _; subst y)
    | (extract_lets +onlyGivenNames y; guard_hyp y : State := _; apply OnlyChangesF.cut y; (on_goal 1 => (unfold y; clear y)); (on_goal 2 => (intro hx; clear_value y)))
    | (extract_lets +onlyGivenNames y; guard_hyp y : _ × State := _; apply OnlyChangesF.cutP y; (on_goal 1 => (unfold y; clear y)); (on_goal 2 => (intro hx; clear_value y)))
    | (extract_lets +onlyGivenNames y; guard_hyp y : _ × _ × State := _; apply OnlyChangesF.cutPP y; (on_goal 1 => (unfold y; clear y)); (on_goal 2 => (intro hx; clear_value y)))
    | (extract_lets +onlyGivenNames y; guard_hyp y : Boxes := _; subst y)
    | (extract_lets +onlyGivenNames y; guard_hyp y : Power := _; subst y)
    | (extract_lets +onlyGivenNames y; guard_hyp y : Trans := _; subst y)
    | (extract_lets +onlyGivenNames y; guard_hyp y : Prot := _; subst y)
    | (extract_lets +onlyGivenNames y; guard_hyp y : Persist := _; subst y)
    | (extract_lets +onlyGivenNames y; guard_hyp y : Sgl := _; subst y)
    | (extract_lets +onlyGivenNames y; guard_hyp y : Sec := _; subst y)
    | (extract_lets +onlyGivenNames y; clear_value y)
    | extract_lets +onlyGivenNames y
    | with_reducible apply OnlyChanges.ite
    | (with_reducible apply withGate_frame; (on_goal 1 => decide))
    | with_reducible apply OnlyChangesF.ack
    | with_reducible apply OnlyChangesF.bg
    | with_reducible apply OnlyChangesF.wait
    | with_reducible apply OnlyChangesF.ite
    | (with_reducible apply OnlyChanges.step askMeasure_frame; (on_goal 1 => decide))
    | with_reducible intro _
    | split

theorem bcsSetAperture_frame {a0} {a1} {x : State} : OnlyChanges [.mb, .fab, .portA, .portB, .outs] x (bcsSetAperture a0 a1 x) := by
  unfold bcsSetAperture
  repeat' first
    | with_reducible assumption
    | with_reducible apply OnlyChanges.refl
    | (extract_lets +onlyGivenNames y; guard_hyp y : State := Prod.snd _; subst y)
    | (extract_lets +onlyGivenNames y; guard_hyp y : State := _; apply OnlyChangesF.cut y; (on_goal 1 => (unfold y; clear y)); (on_goal 2 => (intro hx; clear_value y)))
    | (extract_lets +onlyGivenNames y; guard_hyp y : _ × State := _; apply OnlyChangesF.cutP y; (on_goal 1 => (unfold y; clear y)); (on_goal 2 => (intro hx; clear_value y)))
    | (extract_lets +onlyGivenNames y; guard_hyp y : _ × _ × State := _; apply OnlyChangesF.cutPP y; (on_goal 1 => (unfold y; clear y)); (on_goal 2 => (intro hx; clear_value y)))
    | (extract_lets +onlyGivenNames y; guard_hyp y : Boxes := _; subst y)
    | (extract_lets +onlyGivenNames y; guard_hyp y : Power := _; subst y)
    | (extract_lets +onlyGivenNames y; guard_hyp y : Trans := _; subst y)
    | (extract_lets +onlyGivenNames y; guard_hyp y : Prot := _; subst y)
    | (extract_lets +onlyGivenNames y; guard_hyp y : Persist := _; subst y)
    | (extract_lets +onlyGivenNames y; guard_hyp y : Sgl := _; subst y)
    | (extract_lets +onlyGivenNames y; guard_hyp y : Sec := _; subst y)
    | (extract_lets +onlyGivenNames y; clear_value y)
    | extract_lets +onlyGivenNames y
    | with_reducible apply OnlyChanges.ite
    | (with_reducible apply OnlyChanges.step State.setPort_frame; (on_goal 1 => decide))
    | (with_reducible apply withGate_frame; (on_goal 1 => decide))
    | with_reducible apply OnlyChangesF.ack
    | with_reducible apply OnlyChangesF.bg
    | with_reducible apply OnlyChangesF.wait
    | with_reducible apply OnlyChangesF.ite
    | with_reducible intro _
    | split

theorem bcsScanMedia_frame {a0} {a1} {x : State} : OnlyChanges [.mb, .prot, .fab, .outs] x (bcsScanMedia a0 a1 x) := by
  unfold bcsScanMedia
  repeat' first
    | with_reducible assumption
    | with_reducible apply OnlyChanges.refl
    | (extract_lets +onlyGivenNames y; guard_hyp y : State := Prod.snd _; subst y)
    | (extract_lets +onlyGivenNames y; guard_hyp y : State := _; apply OnlyChangesF.cut y; (on_goal 1 => (unfold y; clear y)); (on_goal 2 => (intro hx; clear_value y)))
    | (extract_lets +onlyGivenNames y; guard_hyp y : _ × State := _; apply OnlyChangesF.cutP y; (on_goal 1 => (unfold y; clear y)); (on_goal 2 => (intro hx; clear_value y)))
    | (extract_lets +onlyGivenNames y; guard_hyp y : _ × _ × State := _; apply OnlyChangesF.cutPP y; (on_goal 1 => (unfold y; clear y)); (on_goal 2 => (intro hx; clear_value y)))
    | (extract_lets +onlyGivenNames y; guard_hyp y : Boxes := _; subst y)
    | (extract_lets +onlyGivenNames y; guard_hyp y : Power := _; subst y)
    | (extract_lets +onlyGivenNames y; guard_hyp y : Trans := _; subst y)
    | (extract_lets +onlyGivenNames y; guard_hyp y : Prot := _; subst y)
    | (extract_lets +onlyGivenNames y; guard_hyp y : Persist := _; subst y)
    | (extract_lets +onlyGivenNames y; guard_hyp y : Sgl := _; subst y)
    | (extract_lets +onlyGivenNames y; guard_hyp y : Sec := _; subst y)
    | (extract_lets +onlyGivenNames y; clear_value y)
    | extract_lets +onlyGivenNames y
    | with_reducible apply OnlyChanges.ite
    | (with_reducible apply withGate_frame; (on_goal 1 => decide))
    | with_reducible apply OnlyChangesF.ack
    | with_reducible apply OnlyChangesF.bg
    | with_reducible apply OnlyChangesF.wait
    | with_reducible apply OnlyChangesF.ite
    | with_reducible intro _
    | split
    | (with_reducible apply OnlyChanges.upd512; (on_goal 1 => decide); (on_goal 1 => (first | exact Or.inr (by with_reducible rfl) | exact Or.inl (by decide) | exact Or.inr rfl)))

theorem request_frame {a0} {x : State} : OnlyChanges [.pw, .evr, .dram, .cxlA, .cxlB, .outs] x (request a0 x) := by
  unfold request
  repeat' first
    | with_reducible assumption
    | with_reducible apply OnlyChanges.refl
    | (extract_lets +onlyGivenNames y; guard_hyp y : State := Prod.snd _; subst y)
    | (extract_lets +onlyGivenNames y; guard_hyp y : State := _; apply OnlyChanges.cut y; (on_goal 1 => (unfold y; clear y)); (on_goal 2 => (intro hx; clear_value y)))
    | (extract_lets +onlyGivenNames y; guard_hyp y : _ × State := _; apply OnlyChanges.cutP y; (on_goal 1 => (unfold y; clear y)); (on_goal 2 => (intro hx; clear_value y)))
    | (extract_lets +onlyGivenNames y; guard_hyp y : _ × _ × State := _; apply OnlyChanges.cutPP y; (on_goal 1 => (unfold y; clear y)); (on_goal 2 => (intro hx; clear_value y)))
    | (extract_lets +onlyGivenNames y; guard_hyp y : Boxes := _; subst y)
    | (extract_lets +onlyGivenNames y; guard_hyp y : Power := _; subst y)
    | (extract_lets +onlyGivenNames y; guard_hyp y : Trans := _; subst y)
    | (extract_lets +onlyGivenNames y; guard_hyp y : Prot := _; subst y)
    | (extract_lets +onlyGivenNames y; guard_hyp y : Persist := _; subst y)
    | (extract_lets +onlyGivenNames y; guard_hyp y : Sgl := _; subst y)
    | (extract_lets +onlyGivenNames y; guard_hyp y : Sec := _; subst y)
    | (extract_lets +onlyGivenNames y; clear_value y)
    | extract_lets +onlyGivenNames y
    | with_reducible apply OnlyChanges.ite
    | (with_reducible apply OnlyChanges.step updateMode_frame; (on_goal 1 => decide))
    | (with_reducible apply OnlyChanges.step wake_frame; (on_goal 1 => decide))
    | split
    | (with_reducible apply OnlyChanges.upd1; (on_goal 1 => decide); (on_goal 1 => (first | exact Or.inr (by with_reducible rfl) | exact Or.inl (by decide) | exact Or.inr rfl)); (on_goal 1 => (first | exact Or.inr (by with_reducible rfl) | exact Or.inl (by decide) | exact Or.inr rfl)))

theorem bcsReqMode_frame {a0} {a1} {x : State} : OnlyChanges [.pw, .evr, .mb, .dram, .fab, .cxlA, .cxlB, .outs] x (bcsReqMode a0 a1 x) := by
  unfold bcsReqMode
  repeat' first
    | with_reducible assumption
    | with_reducible apply OnlyChanges.refl
    | (extract_lets +onlyGivenNames y; guard_hyp y : State := Prod.snd _; subst y)
    | (extract_lets +onlyGivenNames y; guard_hyp y : State := _; apply OnlyChangesF.cut y; (on_goal 1 => (unfold y; clear y)); (on_goal 2 => (intro hx; clear_value y)))
    | (extract_lets +onlyGivenNames y; guard_hyp y : _ × State := _; apply OnlyChangesF.cutP y; (on_goal 1 => (unfold y; clear y)); (on_goal 2 => (intro hx; clear_value y)))
    | (extract_lets +onlyGivenNames y; guard_hyp y : _ × _ × State := _; apply OnlyChangesF.cutPP y; (on_goal 1 => (unfold y; clear y)); (on_goal 2 => (intro hx; clear_value y)))
    | (extract_lets +onlyGivenNames y; guard_hyp y : Boxes := _; subst y)
    | (extract_lets +onlyGivenNames y; guard_hyp y : Power := _; subst y)
    | (extract_lets +onlyGivenNames y; guard_hyp y : Trans := _; subst y)
    | (extract_lets +onlyGivenNames y; guard_hyp y : Prot := _; subst y)
    | (extract_lets +onlyGivenNames y; guard_hyp y : Persist := _; subst y)
    | (extract_lets +onlyGivenNames y; guard_hyp y : Sgl := _; subst y)
    | (extract_lets +onlyGivenNames y; guard_hyp y : Sec := _; subst y)
    | (extract_lets +onlyGivenNames y; clear_value y)
    | extract_lets +onlyGivenNames y
    | with_reducible apply OnlyChanges.ite
    | (with_reducible apply withGate_frame; (on_goal 1 => decide))
    | with_reducible apply OnlyChangesF.ack
    | with_reducible apply OnlyChangesF.bg
    | with_reducible apply OnlyChangesF.wait
    | with_reducible apply OnlyChangesF.ite
    | (with_reducible apply OnlyChanges.step request_frame; (on_goal 1 => decide))
    | with_reducible intro _
    | split

theorem bcsSetSlots_frame {a0} {a1} {x : State} : OnlyChanges [.mb, .sched, .fab, .outs] x (bcsSetSlots a0 a1 x) := by
  unfold bcsSetSlots
  repeat' first
    | with_reducible assumption
    | with_reducible apply OnlyChanges.refl
    | (extract_lets +onlyGivenNames y; guard_hyp y : State := Prod.snd _; subst y)
    | (extract_lets +onlyGivenNames y; guard_hyp y : State := _; apply OnlyChangesF.cut y; (on_goal 1 => (unfold y; clear y)); (on_goal 2 => (intro hx; clear_value y)))
    | (extract_lets +onlyGivenNames y; guard_hyp y : _ × State := _; apply OnlyChangesF.cutP y; (on_goal 1 => (unfold y; clear y)); (on_goal 2 => (intro hx; clear_value y)))
    | (extract_lets +onlyGivenNames y; guard_hyp y : _ × _ × State := _; apply OnlyChangesF.cutPP y; (on_goal 1 => (unfold y; clear y)); (on_goal 2 => (intro hx; clear_value y)))
    | (extract_lets +onlyGivenNames y; guard_hyp y : Boxes := _; subst y)
    | (extract_lets +onlyGivenNames y; guard_hyp y : Power := _; subst y)
    | (extract_lets +onlyGivenNames y; guard_hyp y : Trans := _; subst y)
    | (extract_lets +onlyGivenNames y; guard_hyp y : Prot := _; subst y)
    | (extract_lets +onlyGivenNames y; guard_hyp y : Persist := _; subst y)
    | (extract_lets +onlyGivenNames y; guard_hyp y : Sgl := _; subst y)
    | (extract_lets +onlyGivenNames y; guard_hyp y : Sec := _; subst y)
    | (extract_lets +onlyGivenNames y; clear_value y)
    | extract_lets +onlyGivenNames y
    | with_reducible apply OnlyChanges.ite
    | (with_reducible apply withGate_frame; (on_goal 1 => decide))
    | with_reducible apply OnlyChangesF.ack
    | with_reducible apply OnlyChangesF.bg
    | with_reducible apply OnlyChangesF.wait
    | with_reducible apply OnlyChangesF.ite
    | with_reducible intro _
    | split
    | (with_reducible apply OnlyChanges.upd64; (on_goal 1 => decide))

theorem bcsCloseEpoch_frame {a0} {a1} {x : State} : OnlyChanges [.mb, .tr, .per, .ck, .cache, .fab, .outs] x (bcsCloseEpoch a0 a1 x) := by
  unfold bcsCloseEpoch
  repeat' first
    | with_reducible assumption
    | with_reducible apply OnlyChanges.refl
    | (extract_lets +onlyGivenNames y; guard_hyp y : State := Prod.snd _; subst y)
    | (extract_lets +onlyGivenNames y; guard_hyp y : State := _; apply OnlyChangesF.cut y; (on_goal 1 => (unfold y; clear y)); (on_goal 2 => (intro hx; clear_value y)))
    | (extract_lets +onlyGivenNames y; guard_hyp y : _ × State := _; apply OnlyChangesF.cutP y; (on_goal 1 => (unfold y; clear y)); (on_goal 2 => (intro hx; clear_value y)))
    | (extract_lets +onlyGivenNames y; guard_hyp y : _ × _ × State := _; apply OnlyChangesF.cutPP y; (on_goal 1 => (unfold y; clear y)); (on_goal 2 => (intro hx; clear_value y)))
    | (extract_lets +onlyGivenNames y; guard_hyp y : Boxes := _; subst y)
    | (extract_lets +onlyGivenNames y; guard_hyp y : Power := _; subst y)
    | (extract_lets +onlyGivenNames y; guard_hyp y : Trans := _; subst y)
    | (extract_lets +onlyGivenNames y; guard_hyp y : Prot := _; subst y)
    | (extract_lets +onlyGivenNames y; guard_hyp y : Persist := _; subst y)
    | (extract_lets +onlyGivenNames y; guard_hyp y : Sgl := _; subst y)
    | (extract_lets +onlyGivenNames y; guard_hyp y : Sec := _; subst y)
    | (extract_lets +onlyGivenNames y; clear_value y)
    | extract_lets +onlyGivenNames y
    | with_reducible apply OnlyChanges.ite
    | (with_reducible apply withGate_frame; (on_goal 1 => decide))
    | with_reducible apply OnlyChangesF.ack
    | with_reducible apply OnlyChangesF.bg
    | with_reducible apply OnlyChangesF.wait
    | with_reducible apply OnlyChangesF.ite
    | (with_reducible apply OnlyChanges.step closeRequest_frame; (on_goal 1 => decide))
    | (with_reducible apply OnlyChanges.step closeEpoch_frame; (on_goal 1 => decide))
    | with_reducible intro _
    | split

theorem bcsWinQuery_frame {a0} {a1} {x : State} : OnlyChanges [.mb, .fab, .outs] x (bcsWinQuery a0 a1 x) := by
  unfold bcsWinQuery
  repeat' first
    | with_reducible assumption
    | with_reducible apply OnlyChanges.refl
    | (extract_lets +onlyGivenNames y; guard_hyp y : State := Prod.snd _; subst y)
    | (extract_lets +onlyGivenNames y; guard_hyp y : State := _; apply OnlyChangesF.cut y; (on_goal 1 => (unfold y; clear y)); (on_goal 2 => (intro hx; clear_value y)))
    | (extract_lets +onlyGivenNames y; guard_hyp y : _ × State := _; apply OnlyChangesF.cutP y; (on_goal 1 => (unfold y; clear y)); (on_goal 2 => (intro hx; clear_value y)))
    | (extract_lets +onlyGivenNames y; guard_hyp y : _ × _ × State := _; apply OnlyChangesF.cutPP y; (on_goal 1 => (unfold y; clear y)); (on_goal 2 => (intro hx; clear_value y)))
    | (extract_lets +onlyGivenNames y; guard_hyp y : Boxes := _; subst y)
    | (extract_lets +onlyGivenNames y; guard_hyp y : Power := _; subst y)
    | (extract_lets +onlyGivenNames y; guard_hyp y : Trans := _; subst y)
    | (extract_lets +onlyGivenNames y; guard_hyp y : Prot := _; subst y)
    | (extract_lets +onlyGivenNames y; guard_hyp y : Persist := _; subst y)
    | (extract_lets +onlyGivenNames y; guard_hyp y : Sgl := _; subst y)
    | (extract_lets +onlyGivenNames y; guard_hyp y : Sec := _; subst y)
    | (extract_lets +onlyGivenNames y; clear_value y)
    | extract_lets +onlyGivenNames y
    | with_reducible apply OnlyChanges.ite
    | (with_reducible apply withGate_frame; (on_goal 1 => decide))
    | with_reducible apply OnlyChangesF.ack
    | with_reducible apply OnlyChangesF.bg
    | with_reducible apply OnlyChangesF.wait
    | with_reducible apply OnlyChangesF.ite
    | (with_reducible apply OnlyChangesF.step answerWith_frame; (on_goal 1 => decide))
    | with_reducible intro _
    | split

theorem bcsSetTopology_frame {a0} {a1} {x : State} : OnlyChanges [.mb, .sgl, .fab, .outs] x (bcsSetTopology a0 a1 x) := by
  unfold bcsSetTopology
  repeat' first
    | with_reducible assumption
    | with_reducible apply OnlyChanges.refl
    | (extract_lets +onlyGivenNames y; guard_hyp y : State := Prod.snd _; subst y)
    | (extract_lets +onlyGivenNames y; guard_hyp y : State := _; apply OnlyChangesF.cut y; (on_goal 1 => (unfold y; clear y)); (on_goal 2 => (intro hx; clear_value y)))
    | (extract_lets +onlyGivenNames y; guard_hyp y : _ × State := _; apply OnlyChangesF.cutP y; (on_goal 1 => (unfold y; clear y)); (on_goal 2 => (intro hx; clear_value y)))
    | (extract_lets +onlyGivenNames y; guard_hyp y : _ × _ × State := _; apply OnlyChangesF.cutPP y; (on_goal 1 => (unfold y; clear y)); (on_goal 2 => (intro hx; clear_value y)))
    | (extract_lets +onlyGivenNames y; guard_hyp y : Boxes := _; subst y)
    | (extract_lets +onlyGivenNames y; guard_hyp y : Power := _; subst y)
    | (extract_lets +onlyGivenNames y; guard_hyp y : Trans := _; subst y)
    | (extract_lets +onlyGivenNames y; guard_hyp y : Prot := _; subst y)
    | (extract_lets +onlyGivenNames y; guard_hyp y : Persist := _; subst y)
    | (extract_lets +onlyGivenNames y; guard_hyp y : Sgl := _; subst y)
    | (extract_lets +onlyGivenNames y; guard_hyp y : Sec := _; subst y)
    | (extract_lets +onlyGivenNames y; clear_value y)
    | extract_lets +onlyGivenNames y
    | with_reducible apply OnlyChanges.ite
    | (with_reducible apply withGate_frame; (on_goal 1 => decide))
    | with_reducible apply OnlyChangesF.ack
    | with_reducible apply OnlyChangesF.bg
    | with_reducible apply OnlyChangesF.wait
    | with_reducible apply OnlyChangesF.ite
    | (with_reducible apply OnlyChanges.step setPoolNext_frame; (on_goal 1 => decide))
    | with_reducible intro _
    | split

theorem bcsSetDramRate_frame {a0} {a1} {x : State} : OnlyChanges [.mb, .dram, .fab, .outs] x (bcsSetDramRate a0 a1 x) := by
  unfold bcsSetDramRate
  repeat' first
    | with_reducible assumption
    | with_reducible apply OnlyChanges.refl
    | (extract_lets +onlyGivenNames y; guard_hyp y : State := Prod.snd _; subst y)
    | (extract_lets +onlyGivenNames y; guard_hyp y : State := _; apply OnlyChangesF.cut y; (on_goal 1 => (unfold y; clear y)); (on_goal 2 => (intro hx; clear_value y)))
    | (extract_lets +onlyGivenNames y; guard_hyp y : _ × State := _; apply OnlyChangesF.cutP y; (on_goal 1 => (unfold y; clear y)); (on_goal 2 => (intro hx; clear_value y)))
    | (extract_lets +onlyGivenNames y; guard_hyp y : _ × _ × State := _; apply OnlyChangesF.cutPP y; (on_goal 1 => (unfold y; clear y)); (on_goal 2 => (intro hx; clear_value y)))
    | (extract_lets +onlyGivenNames y; guard_hyp y : Boxes := _; subst y)
    | (extract_lets +onlyGivenNames y; guard_hyp y : Power := _; subst y)
    | (extract_lets +onlyGivenNames y; guard_hyp y : Trans := _; subst y)
    | (extract_lets +onlyGivenNames y; guard_hyp y : Prot := _; subst y)
    | (extract_lets +onlyGivenNames y; guard_hyp y : Persist := _; subst y)
    | (extract_lets +onlyGivenNames y; guard_hyp y : Sgl := _; subst y)
    | (extract_lets +onlyGivenNames y; guard_hyp y : Sec := _; subst y)
    | (extract_lets +onlyGivenNames y; clear_value y)
    | extract_lets +onlyGivenNames y
    | with_reducible apply OnlyChanges.ite
    | (with_reducible apply withGate_frame; (on_goal 1 => decide))
    | with_reducible apply OnlyChangesF.ack
    | with_reducible apply OnlyChangesF.bg
    | with_reducible apply OnlyChangesF.wait
    | with_reducible apply OnlyChangesF.ite
    | with_reducible intro _
    | split
    | (with_reducible apply OnlyChanges.upd8192; (on_goal 1 => decide))

theorem bcsSetRoster_frame {a0} {a1} {x : State} : OnlyChanges [.mb, .sgl, .fab, .outs] x (bcsSetRoster a0 a1 x) := by
  unfold bcsSetRoster
  repeat' first
    | with_reducible assumption
    | with_reducible apply OnlyChanges.refl
    | (extract_lets +onlyGivenNames y; guard_hyp y : State := Prod.snd _; subst y)
    | (extract_lets +onlyGivenNames y; guard_hyp y : State := _; apply OnlyChangesF.cut y; (on_goal 1 => (unfold y; clear y)); (on_goal 2 => (intro hx; clear_value y)))
    | (extract_lets +onlyGivenNames y; guard_hyp y : _ × State := _; apply OnlyChangesF.cutP y; (on_goal 1 => (unfold y; clear y)); (on_goal 2 => (intro hx; clear_value y)))
    | (extract_lets +onlyGivenNames y; guard_hyp y : _ × _ × State := _; apply OnlyChangesF.cutPP y; (on_goal 1 => (unfold y; clear y)); (on_goal 2 => (intro hx; clear_value y)))
    | (extract_lets +onlyGivenNames y; guard_hyp y : Boxes := _; subst y)
    | (extract_lets +onlyGivenNames y; guard_hyp y : Power := _; subst y)
    | (extract_lets +onlyGivenNames y; guard_hyp y : Trans := _; subst y)
    | (extract_lets +onlyGivenNames y; guard_hyp y : Prot := _; subst y)
    | (extract_lets +onlyGivenNames y; guard_hyp y : Persist := _; subst y)
    | (extract_lets +onlyGivenNames y; guard_hyp y : Sgl := _; subst y)
    | (extract_lets +onlyGivenNames y; guard_hyp y : Sec := _; subst y)
    | (extract_lets +onlyGivenNames y; clear_value y)
    | extract_lets +onlyGivenNames y
    | with_reducible apply OnlyChanges.ite
    | (with_reducible apply withGate_frame; (on_goal 1 => decide))
    | with_reducible apply OnlyChangesF.ack
    | with_reducible apply OnlyChangesF.bg
    | with_reducible apply OnlyChangesF.wait
    | with_reducible apply OnlyChangesF.ite
    | (with_reducible apply OnlyChanges.step setPoolNext_frame; (on_goal 1 => decide))
    | with_reducible intro _
    | split

theorem bcsSetThermal_frame {a0} {a1} {x : State} : OnlyChanges [.mb, .fab, .thm, .outs] x (bcsSetThermal a0 a1 x) := by
  unfold bcsSetThermal
  repeat' first
    | with_reducible assumption
    | with_reducible apply OnlyChanges.refl
    | (extract_lets +onlyGivenNames y; guard_hyp y : State := Prod.snd _; subst y)
    | (extract_lets +onlyGivenNames y; guard_hyp y : State := _; apply OnlyChangesF.cut y; (on_goal 1 => (unfold y; clear y)); (on_goal 2 => (intro hx; clear_value y)))
    | (extract_lets +onlyGivenNames y; guard_hyp y : _ × State := _; apply OnlyChangesF.cutP y; (on_goal 1 => (unfold y; clear y)); (on_goal 2 => (intro hx; clear_value y)))
    | (extract_lets +onlyGivenNames y; guard_hyp y : _ × _ × State := _; apply OnlyChangesF.cutPP y; (on_goal 1 => (unfold y; clear y)); (on_goal 2 => (intro hx; clear_value y)))
    | (extract_lets +onlyGivenNames y; guard_hyp y : Boxes := _; subst y)
    | (extract_lets +onlyGivenNames y; guard_hyp y : Power := _; subst y)
    | (extract_lets +onlyGivenNames y; guard_hyp y : Trans := _; subst y)
    | (extract_lets +onlyGivenNames y; guard_hyp y : Prot := _; subst y)
    | (extract_lets +onlyGivenNames y; guard_hyp y : Persist := _; subst y)
    | (extract_lets +onlyGivenNames y; guard_hyp y : Sgl := _; subst y)
    | (extract_lets +onlyGivenNames y; guard_hyp y : Sec := _; subst y)
    | (extract_lets +onlyGivenNames y; clear_value y)
    | extract_lets +onlyGivenNames y
    | with_reducible apply OnlyChanges.ite
    | (with_reducible apply withGate_frame; (on_goal 1 => decide))
    | with_reducible apply OnlyChangesF.ack
    | with_reducible apply OnlyChangesF.bg
    | with_reducible apply OnlyChangesF.wait
    | with_reducible apply OnlyChangesF.ite
    | with_reducible intro _
    | split
    | (with_reducible apply OnlyChanges.upd4194304; (on_goal 1 => decide))

theorem dispatchOp_frame {a0} {a1} {a2} {x : State} : OnlyChanges [.pw, .evr, .pst, .pmc, .trb, .mb, .sched, .tr, .prot, .per, .ck, .cache, .dram, .coh, .sgl, .fab, .portA, .portB, .cxlA, .cxlB, .sec, .thm, .mtr, .freeCtr, .outs, .clamps, .phase, .latched, .kids] x (dispatchOp a0 a1 a2 x) := by
  unfold dispatchOp
  repeat' first
    | with_reducible assumption
    | with_reducible apply OnlyChanges.refl
    | with_reducible apply OnlyChanges.ite
    | (with_reducible apply OnlyChanges.step bcsGetMode_frame; (on_goal 1 => decide))
    | (with_reducible apply OnlyChanges.step bcsNop_frame; (on_goal 1 => decide))
    | (with_reducible apply OnlyChanges.step bcsSetHoldNs_frame; (on_goal 1 => decide))
    | (with_reducible apply OnlyChanges.step bcsUnknown_frame; (on_goal 1 => decide))
    | (with_reducible apply OnlyChanges.step bcsMeterKey_frame; (on_goal 1 => decide))
    | (with_reducible apply OnlyChanges.step bcsSetPdTimer_frame; (on_goal 1 => decide))
    | (with_reducible apply OnlyChanges.step bcsReadReftable_frame; (on_goal 1 => decide))
    | (with_reducible apply OnlyChanges.step bcsWinRemove_frame; (on_goal 1 => decide))
    | (with_reducible apply OnlyChanges.step bcsSanitize_frame; (on_goal 1 => decide))
    | (with_reducible apply OnlyChanges.step bcsFwInfo_frame; (on_goal 1 => decide))
    | (with_reducible apply OnlyChanges.step bcsSetHoldLimit_frame; (on_goal 1 => decide))
    | (with_reducible apply OnlyChanges.step bcsMeterNote_frame; (on_goal 1 => decide))
    | (with_reducible apply OnlyChanges.step bcsSetRemoteCache_frame; (on_goal 1 => decide))
    | (with_reducible apply OnlyChanges.step bcsMediaHealth_frame; (on_goal 1 => decide))
    | (with_reducible apply OnlyChanges.step bcsIdentify_frame; (on_goal 1 => decide))
    | (with_reducible apply OnlyChanges.step bcsMeterAudit_frame; (on_goal 1 => decide))
    | (with_reducible apply OnlyChanges.step bcsPmcConfig_frame; (on_goal 1 => decide))
    | (with_reducible apply OnlyChanges.step bcsFwActivate_frame; (on_goal 1 => decide))
    | (with_reducible apply OnlyChanges.step bcsSetNode_frame; (on_goal 1 => decide))
    | (with_reducible apply OnlyChanges.step bcsPoolStatus_frame; (on_goal 1 => decide))
    | (with_reducible apply OnlyChanges.step bcsMeterRecord_frame; (on_goal 1 => decide))
    | (with_reducible apply OnlyChanges.step bcsMeterId_frame; (on_goal 1 => decide))
    | (with_reducible apply OnlyChanges.step bcsSetLevelSpread_frame; (on_goal 1 => decide))
    | (with_reducible apply OnlyChanges.step bcsFwBegin_frame; (on_goal 1 => decide))
    | (with_reducible apply OnlyChanges.step bcsMeterTenant_frame; (on_goal 1 => decide))
    | (with_reducible apply OnlyChanges.step bcsWinCommit_frame; (on_goal 1 => decide))
    | (with_reducible apply OnlyChanges.step bcsTrbConfig_frame; (on_goal 1 => decide))
    | (with_reducible apply OnlyChanges.step bcsDiagSnapshot_frame; (on_goal 1 => decide))
    | (with_reducible apply OnlyChanges.step bcsEvrFreeze_frame; (on_goal 1 => decide))
    | (with_reducible apply OnlyChanges.step bcsSpdmOnly_frame; (on_goal 1 => decide))
    | (with_reducible apply OnlyChanges.step bcsSetPool_frame; (on_goal 1 => decide))
    | (with_reducible apply OnlyChanges.step bcsFormat_frame; (on_goal 1 => decide))
    | (with_reducible apply OnlyChanges.step bcsGetLoss_frame; (on_goal 1 => decide))
    | (with_reducible apply OnlyChanges.step bcsMeasureHoldup_frame; (on_goal 1 => decide))
    | (with_reducible apply OnlyChanges.step bcsSetAperture_frame; (on_goal 1 => decide))
    | (with_reducible apply OnlyChanges.step bcsClearPsvFault_frame; (on_goal 1 => decide))
    | (with_reducible apply OnlyChanges.step bcsScanMedia_frame; (on_goal 1 => decide))
    | (with_reducible apply OnlyChanges.step bcsReqMode_frame; (on_goal 1 => decide))
    | (with_reducible apply OnlyChanges.step bcsSetSlots_frame; (on_goal 1 => decide))
    | (with_reducible apply OnlyChanges.step bcsShutdown_frame; (on_goal 1 => decide))
    | (with_reducible apply OnlyChanges.step bcsCloseEpoch_frame; (on_goal 1 => decide))
    | (with_reducible apply OnlyChanges.step bcsFwEnd_frame; (on_goal 1 => decide))
    | (with_reducible apply OnlyChanges.step bcsWinStage_frame; (on_goal 1 => decide))
    | (with_reducible apply OnlyChanges.step bcsPrepareReturn_frame; (on_goal 1 => decide))
    | (with_reducible apply OnlyChanges.step bcsSetSupervisor_frame; (on_goal 1 => decide))
    | (with_reducible apply OnlyChanges.step bcsFwData_frame; (on_goal 1 => decide))
    | (with_reducible apply OnlyChanges.step bcsWinQuery_frame; (on_goal 1 => decide))
    | (with_reducible apply OnlyChanges.step bcsSetTopology_frame; (on_goal 1 => decide))
    | (with_reducible apply OnlyChanges.step bcsSetDramRate_frame; (on_goal 1 => decide))
    | (with_reducible apply OnlyChanges.step bcsMpForward_frame; (on_goal 1 => decide))
    | (with_reducible apply OnlyChanges.step bcsSetEpochTimer_frame; (on_goal 1 => decide))
    | (with_reducible apply OnlyChanges.step bcsSetRoster_frame; (on_goal 1 => decide))
    | (with_reducible apply OnlyChanges.step bcsSetThermal_frame; (on_goal 1 => decide))
    | (with_reducible apply OnlyChanges.step bcsSetGather_frame; (on_goal 1 => decide))
    | split

theorem takeFrom_frame {a0} {x : State} : OnlyChanges [.pw, .evr, .pst, .pmc, .trb, .mb, .sched, .tr, .prot, .per, .ck, .cache, .dram, .coh, .sgl, .fab, .portA, .portB, .cxlA, .cxlB, .sec, .thm, .mtr, .freeCtr, .outs, .clamps, .phase, .latched, .kids] x (takeFrom a0 x) := by
  unfold takeFrom
  repeat' first
    | with_reducible assumption
    | with_reducible apply OnlyChanges.refl
    | with_reducible apply OnlyChanges.ite
    | (with_reducible apply OnlyChanges.step dispatchOp_frame; (on_goal 1 => decide))
    | (with_reducible apply takeHead_frame; (on_goal 1 => decide))
    | with_reducible intro _
    | split

theorem execMessageTake_frame  {x t : State} (h : execMessageTake x = .next t) :
    OnlyChanges [.pw, .evr, .pst, .pmc, .trb, .mb, .sched, .tr, .prot, .per, .ck, .cache, .dram, .coh, .sgl, .fab, .portA, .portB, .cxlA, .cxlB, .sec, .thm, .mtr, .freeCtr, .outs, .clamps, .phase, .latched, .kids] x t := by
  unfold execMessageTake at h
  first
    | (injection h with h; subst h)
    | (split at h <;> (first | (injection h with h; subst h) | cases h))
  all_goals
    repeat' first
      | with_reducible assumption
      | with_reducible apply OnlyChanges.refl
      | (extract_lets +onlyGivenNames y; guard_hyp y : State := Prod.snd _; subst y)
      | (extract_lets +onlyGivenNames y; guard_hyp y : State := _; apply OnlyChanges.cut y; (on_goal 1 => (unfold y; clear y)); (on_goal 2 => (intro hx; clear_value y)))
      | (extract_lets +onlyGivenNames y; guard_hyp y : _ × State := _; apply OnlyChanges.cutP y; (on_goal 1 => (unfold y; clear y)); (on_goal 2 => (intro hx; clear_value y)))
      | (extract_lets +onlyGivenNames y; guard_hyp y : _ × _ × State := _; apply OnlyChanges.cutPP y; (on_goal 1 => (unfold y; clear y)); (on_goal 2 => (intro hx; clear_value y)))
      | (extract_lets +onlyGivenNames y; guard_hyp y : Boxes := _; subst y)
      | (extract_lets +onlyGivenNames y; guard_hyp y : Power := _; subst y)
      | (extract_lets +onlyGivenNames y; guard_hyp y : Trans := _; subst y)
      | (extract_lets +onlyGivenNames y; guard_hyp y : Prot := _; subst y)
      | (extract_lets +onlyGivenNames y; guard_hyp y : Persist := _; subst y)
      | (extract_lets +onlyGivenNames y; guard_hyp y : Sgl := _; subst y)
      | (extract_lets +onlyGivenNames y; guard_hyp y : Sec := _; subst y)
      | (extract_lets +onlyGivenNames y; clear_value y)
      | extract_lets +onlyGivenNames y
      | with_reducible apply OnlyChanges.ite
      | (with_reducible apply OnlyChanges.step takeFrom_frame; (on_goal 1 => decide))
      | split
      | (with_reducible apply OnlyChanges.upd32; (on_goal 1 => decide); (on_goal 1 => (first | exact Or.inr (by with_reducible rfl) | exact Or.inl (by decide) | exact Or.inr rfl)))

theorem execClearPsvFault_frame {a0} {a1} {x t : State} (h : execClearPsvFault a0 a1 x = .next t) :
    OnlyChanges [.pw, .evr, .pmc, .mb, .fab, .cxlA, .cxlB, .freeCtr, .outs, .latched] x t := by
  unfold execClearPsvFault at h
  first
    | (injection h with h; subst h)
    | (split at h <;> (first | (injection h with h; subst h) | cases h))
  all_goals
    repeat' first
      | with_reducible assumption
      | with_reducible apply OnlyChanges.refl
      | with_reducible apply OnlyChanges.ite
      | (with_reducible apply runMsg_frame; (on_goal 1 => decide))
      | (with_reducible apply OnlyChanges.step bcsClearPsvFault_frame; (on_goal 1 => decide))
      | with_reducible intro _
      | split

theorem execMeterRecord_frame {a0} {a1} {x t : State} (h : execMeterRecord a0 a1 x = .next t) :
    OnlyChanges [.evr, .pmc, .mb, .fab, .cxlA, .cxlB, .freeCtr, .outs] x t := by
  unfold execMeterRecord at h
  first
    | (injection h with h; subst h)
    | (split at h <;> (first | (injection h with h; subst h) | cases h))
  all_goals
    repeat' first
      | with_reducible assumption
      | with_reducible apply OnlyChanges.refl
      | with_reducible apply OnlyChanges.ite
      | (with_reducible apply OnlyChanges.step bcsMeterRecord_frame; (on_goal 1 => decide))
      | (with_reducible apply runMsg_frame; (on_goal 1 => decide))
      | with_reducible intro _
      | split

theorem execSetHoldNs_frame {a0} {a1} {x t : State} (h : execSetHoldNs a0 a1 x = .next t) :
    OnlyChanges [.evr, .pmc, .mb, .coh, .fab, .cxlA, .cxlB, .freeCtr, .outs] x t := by
  unfold execSetHoldNs at h
  first
    | (injection h with h; subst h)
    | (split at h <;> (first | (injection h with h; subst h) | cases h))
  all_goals
    repeat' first
      | with_reducible assumption
      | with_reducible apply OnlyChanges.refl
      | with_reducible apply OnlyChanges.ite
      | (with_reducible apply OnlyChanges.step bcsSetHoldNs_frame; (on_goal 1 => decide))
      | (with_reducible apply runMsg_frame; (on_goal 1 => decide))
      | with_reducible intro _
      | split

theorem execReqMode_frame {a0} {a1} {x t : State} (h : execReqMode a0 a1 x = .next t) :
    OnlyChanges [.pw, .evr, .pmc, .mb, .dram, .fab, .cxlA, .cxlB, .freeCtr, .outs] x t := by
  unfold execReqMode at h
  first
    | (injection h with h; subst h)
    | (split at h <;> (first | (injection h with h; subst h) | cases h))
  all_goals
    repeat' first
      | with_reducible assumption
      | with_reducible apply OnlyChanges.refl
      | with_reducible apply OnlyChanges.ite
      | (with_reducible apply runMsg_frame; (on_goal 1 => decide))
      | (with_reducible apply OnlyChanges.step bcsReqMode_frame; (on_goal 1 => decide))
      | with_reducible intro _
      | split

theorem execMeterNote_frame {a0} {x t : State} (h : execMeterNote a0 x = .next t) :
    OnlyChanges [.evr, .pmc, .mb, .fab, .cxlA, .cxlB, .freeCtr, .outs] x t := by
  unfold execMeterNote at h
  first
    | (injection h with h; subst h)
    | (split at h <;> (first | (injection h with h; subst h) | cases h))
  all_goals
    repeat' first
      | with_reducible assumption
      | with_reducible apply OnlyChanges.refl
      | with_reducible apply OnlyChanges.ite
      | (with_reducible apply OnlyChanges.step bcsMeterNote_frame; (on_goal 1 => decide))
      | (with_reducible apply runMsg_frame; (on_goal 1 => decide))
      | with_reducible intro _
      | split

theorem execSetNode_frame {a0} {a1} {x t : State} (h : execSetNode a0 a1 x = .next t) :
    OnlyChanges [.evr, .pmc, .mb, .sgl, .fab, .cxlA, .cxlB, .freeCtr, .outs] x t := by
  unfold execSetNode at h
  first
    | (injection h with h; subst h)
    | (split at h <;> (first | (injection h with h; subst h) | cases h))
  all_goals
    repeat' first
      | with_reducible assumption
      | with_reducible apply OnlyChanges.refl
      | with_reducible apply OnlyChanges.ite
      | (with_reducible apply OnlyChanges.step bcsSetNode_frame; (on_goal 1 => decide))
      | (with_reducible apply runMsg_frame; (on_goal 1 => decide))
      | with_reducible intro _
      | split

theorem execSetLevelSpread_frame {a0} {a1} {x t : State} (h : execSetLevelSpread a0 a1 x = .next t) :
    OnlyChanges [.evr, .pmc, .mb, .tr, .fab, .cxlA, .cxlB, .freeCtr, .outs] x t := by
  unfold execSetLevelSpread at h
  first
    | (injection h with h; subst h)
    | (split at h <;> (first | (injection h with h; subst h) | cases h))
  all_goals
    repeat' first
      | with_reducible assumption
      | with_reducible apply OnlyChanges.refl
      | with_reducible apply OnlyChanges.ite
      | (with_reducible apply OnlyChanges.step bcsSetLevelSpread_frame; (on_goal 1 => decide))
      | (with_reducible apply runMsg_frame; (on_goal 1 => decide))
      | with_reducible intro _
      | split

theorem execFwEnd_frame {a0} {a1} {x t : State} (h : execFwEnd a0 a1 x = .next t) :
    OnlyChanges [.evr, .pmc, .mb, .fab, .cxlA, .cxlB, .freeCtr, .outs] x t := by
  unfold execFwEnd at h
  first
    | (injection h with h; subst h)
    | (split at h <;> (first | (injection h with h; subst h) | cases h))
  all_goals
    repeat' first
      | with_reducible assumption
      | with_reducible apply OnlyChanges.refl
      | with_reducible apply OnlyChanges.ite
      | (with_reducible apply runMsg_frame; (on_goal 1 => decide))
      | (with_reducible apply OnlyChanges.step bcsFwEnd_frame; (on_goal 1 => decide))
      | with_reducible intro _
      | split

theorem execWinQuery_frame {a0} {a1} {x t : State} (h : execWinQuery a0 a1 x = .next t) :
    OnlyChanges [.evr, .pmc, .mb, .fab, .cxlA, .cxlB, .freeCtr, .outs] x t := by
  unfold execWinQuery at h
  first
    | (injection h with h; subst h)
    | (split at h <;> (first | (injection h with h; subst h) | cases h))
  all_goals
    repeat' first
      | with_reducible assumption
      | with_reducible apply OnlyChanges.refl
      | with_reducible apply OnlyChanges.ite
      | (with_reducible apply runMsg_frame; (on_goal 1 => decide))
      | (with_reducible apply OnlyChanges.step bcsWinQuery_frame; (on_goal 1 => decide))
      | with_reducible intro _
      | split

theorem execGetMode_frame {a0} {a1} {x t : State} (h : execGetMode a0 a1 x = .next t) :
    OnlyChanges [.evr, .pmc, .mb, .fab, .cxlA, .cxlB, .freeCtr, .outs] x t := by
  unfold execGetMode at h
  first
    | (injection h with h; subst h)
    | (split at h <;> (first | (injection h with h; subst h) | cases h))
  all_goals
    repeat' first
      | with_reducible assumption
      | with_reducible apply OnlyChanges.refl
      | with_reducible apply OnlyChanges.ite
      | (with_reducible apply OnlyChanges.step bcsGetMode_frame; (on_goal 1 => decide))
      | (with_reducible apply runMsg_frame; (on_goal 1 => decide))
      | with_reducible intro _
      | split

theorem execMpMsg_frame {a0} {a1} {a2} {x t : State} (h : execMpMsg a0 a1 a2 x = .next t) :
    OnlyChanges [.mb, .fab, .outs] x t := by
  unfold execMpMsg at h
  first
    | (injection h with h; subst h)
    | (split at h <;> (first | (injection h with h; subst h) | cases h))
  all_goals
    repeat' first
      | with_reducible assumption
      | with_reducible apply OnlyChanges.refl
      | (extract_lets +onlyGivenNames y; guard_hyp y : State := Prod.snd _; subst y)
      | (extract_lets +onlyGivenNames y; guard_hyp y : State := _; apply OnlyChanges.cut y; (on_goal 1 => (unfold y; clear y)); (on_goal 2 => (intro hx; clear_value y)))
      | (extract_lets +onlyGivenNames y; guard_hyp y : _ × State := _; apply OnlyChanges.cutP y; (on_goal 1 => (unfold y; clear y)); (on_goal 2 => (intro hx; clear_value y)))
      | (extract_lets +onlyGivenNames y; guard_hyp y : _ × _ × State := _; apply OnlyChanges.cutPP y; (on_goal 1 => (unfold y; clear y)); (on_goal 2 => (intro hx; clear_value y)))
      | (extract_lets +onlyGivenNames y; guard_hyp y : Boxes := _; subst y)
      | (extract_lets +onlyGivenNames y; guard_hyp y : Power := _; subst y)
      | (extract_lets +onlyGivenNames y; guard_hyp y : Trans := _; subst y)
      | (extract_lets +onlyGivenNames y; guard_hyp y : Prot := _; subst y)
      | (extract_lets +onlyGivenNames y; guard_hyp y : Persist := _; subst y)
      | (extract_lets +onlyGivenNames y; guard_hyp y : Sgl := _; subst y)
      | (extract_lets +onlyGivenNames y; guard_hyp y : Sec := _; subst y)
      | (extract_lets +onlyGivenNames y; clear_value y)
      | extract_lets +onlyGivenNames y
      | with_reducible apply OnlyChanges.ite
      | (with_reducible apply OnlyChanges.step modBox_frame; (on_goal 1 => decide))
      | (with_reducible apply OnlyChanges.step sendMsg_frame; (on_goal 1 => decide))
      | (with_reducible apply OnlyChanges.step endOp_frame; (on_goal 1 => decide))
      | (with_reducible apply OnlyChanges.step reply_frame; (on_goal 1 => decide))
      | split
      | (with_reducible apply OnlyChanges.upd32; (on_goal 1 => decide); (on_goal 1 => (first | exact Or.inr (by with_reducible rfl) | exact Or.inl (by decide) | exact Or.inr rfl)))

theorem execFwData_frame {a0} {a1} {x t : State} (h : execFwData a0 a1 x = .next t) :
    OnlyChanges [.evr, .pmc, .mb, .fab, .cxlA, .cxlB, .freeCtr, .outs] x t := by
  unfold execFwData at h
  first
    | (injection h with h; subst h)
    | (split at h <;> (first | (injection h with h; subst h) | cases h))
  all_goals
    repeat' first
      | with_reducible assumption
      | with_reducible apply OnlyChanges.refl
      | with_reducible apply OnlyChanges.ite
      | (with_reducible apply runMsg_frame; (on_goal 1 => decide))
      | (with_reducible apply OnlyChanges.step bcsFwData_frame; (on_goal 1 => decide))
      | with_reducible intro _
      | split

theorem execSanitize_frame {a0} {a1} {x t : State} (h : execSanitize a0 a1 x = .next t) :
    OnlyChanges [.evr, .pmc, .mb, .fab, .cxlA, .cxlB, .sec, .freeCtr, .outs, .kids] x t := by
  unfold execSanitize at h
  first
    | (injection h with h; subst h)
    | (split at h <;> (first | (injection h with h; subst h) | cases h))
  all_goals
    repeat' first
      | with_reducible assumption
      | with_reducible apply OnlyChanges.refl
      | with_reducible apply OnlyChanges.ite
      | (with_reducible apply OnlyChanges.step bcsSanitize_frame; (on_goal 1 => decide))
      | (with_reducible apply runMsg_frame; (on_goal 1 => decide))
      | with_reducible intro _
      | split

theorem execMeterId_frame {a0} {a1} {x t : State} (h : execMeterId a0 a1 x = .next t) :
    OnlyChanges [.evr, .pmc, .mb, .fab, .cxlA, .cxlB, .freeCtr, .outs] x t := by
  unfold execMeterId at h
  first
    | (injection h with h; subst h)
    | (split at h <;> (first | (injection h with h; subst h) | cases h))
  all_goals
    repeat' first
      | with_reducible assumption
      | with_reducible apply OnlyChanges.refl
      | with_reducible apply OnlyChanges.ite
      | (with_reducible apply OnlyChanges.step bcsMeterId_frame; (on_goal 1 => decide))
      | (with_reducible apply runMsg_frame; (on_goal 1 => decide))
      | with_reducible intro _
      | split

theorem execMeasureHoldup_frame {a0} {a1} {x t : State} (h : execMeasureHoldup a0 a1 x = .next t) :
    OnlyChanges [.evr, .pmc, .mb, .per, .fab, .cxlA, .cxlB, .freeCtr, .outs] x t := by
  unfold execMeasureHoldup at h
  first
    | (injection h with h; subst h)
    | (split at h <;> (first | (injection h with h; subst h) | cases h))
  all_goals
    repeat' first
      | with_reducible assumption
      | with_reducible apply OnlyChanges.refl
      | with_reducible apply OnlyChanges.ite
      | (with_reducible apply runMsg_frame; (on_goal 1 => decide))
      | (with_reducible apply OnlyChanges.step bcsMeasureHoldup_frame; (on_goal 1 => decide))
      | with_reducible intro _
      | split

theorem execMeterTenant_frame {a0} {a1} {x t : State} (h : execMeterTenant a0 a1 x = .next t) :
    OnlyChanges [.evr, .pmc, .mb, .fab, .cxlA, .cxlB, .freeCtr, .outs] x t := by
  unfold execMeterTenant at h
  first
    | (injection h with h; subst h)
    | (split at h <;> (first | (injection h with h; subst h) | cases h))
  all_goals
    repeat' first
      | with_reducible assumption
      | with_reducible apply OnlyChanges.refl
      | with_reducible apply OnlyChanges.ite
      | (with_reducible apply OnlyChanges.step bcsMeterTenant_frame; (on_goal 1 => decide))
      | (with_reducible apply runMsg_frame; (on_goal 1 => decide))
      | with_reducible intro _
      | split

theorem execFormat_frame {a0} {a1} {x t : State} (h : execFormat a0 a1 x = .next t) :
    OnlyChanges [.evr, .pmc, .mb, .ck, .fab, .cxlA, .cxlB, .freeCtr, .outs] x t := by
  unfold execFormat at h
  first
    | (injection h with h; subst h)
    | (split at h <;> (first | (injection h with h; subst h) | cases h))
  all_goals
    repeat' first
      | with_reducible assumption
      | with_reducible apply OnlyChanges.refl
      | with_reducible apply OnlyChanges.ite
      | (with_reducible apply OnlyChanges.step bcsFormat_frame; (on_goal 1 => decide))
      | (with_reducible apply runMsg_frame; (on_goal 1 => decide))
      | with_reducible intro _
      | split

theorem execNop_frame {a0} {a1} {x t : State} (h : execNop a0 a1 x = .next t) :
    OnlyChanges [.evr, .pmc, .mb, .fab, .cxlA, .cxlB, .freeCtr, .outs] x t := by
  unfold execNop at h
  first
    | (injection h with h; subst h)
    | (split at h <;> (first | (injection h with h; subst h) | cases h))
  all_goals
    repeat' first
      | with_reducible assumption
      | with_reducible apply OnlyChanges.refl
      | with_reducible apply OnlyChanges.ite
      | (with_reducible apply OnlyChanges.step bcsNop_frame; (on_goal 1 => decide))
      | (with_reducible apply runMsg_frame; (on_goal 1 => decide))
      | with_reducible intro _
      | split

theorem execMpForward_frame {a0} {a1} {x t : State} (h : execMpForward a0 a1 x = .next t) :
    OnlyChanges [.evr, .pmc, .mb, .fab, .cxlA, .cxlB, .freeCtr, .outs] x t := by
  unfold execMpForward at h
  first
    | (injection h with h; subst h)
    | (split at h <;> (first | (injection h with h; subst h) | cases h))
  all_goals
    repeat' first
      | with_reducible assumption
      | with_reducible apply OnlyChanges.refl
      | with_reducible apply OnlyChanges.ite
      | (with_reducible apply runMsg_frame; (on_goal 1 => decide))
      | (with_reducible apply OnlyChanges.step bcsMpForward_frame; (on_goal 1 => decide))
      | with_reducible intro _
      | split

theorem execSetHoldLimit_frame {a0} {a1} {x t : State} (h : execSetHoldLimit a0 a1 x = .next t) :
    OnlyChanges [.evr, .pmc, .mb, .sgl, .fab, .cxlA, .cxlB, .freeCtr, .outs] x t := by
  unfold execSetHoldLimit at h
  first
    | (injection h with h; subst h)
    | (split at h <;> (first | (injection h with h; subst h) | cases h))
  all_goals
    repeat' first
      | with_reducible assumption
      | with_reducible apply OnlyChanges.refl
      | with_reducible apply OnlyChanges.ite
      | (with_reducible apply OnlyChanges.step bcsSetHoldLimit_frame; (on_goal 1 => decide))
      | (with_reducible apply runMsg_frame; (on_goal 1 => decide))
      | with_reducible intro _
      | split

theorem execSetTopology_frame {a0} {a1} {x t : State} (h : execSetTopology a0 a1 x = .next t) :
    OnlyChanges [.evr, .pmc, .mb, .sgl, .fab, .cxlA, .cxlB, .freeCtr, .outs] x t := by
  unfold execSetTopology at h
  first
    | (injection h with h; subst h)
    | (split at h <;> (first | (injection h with h; subst h) | cases h))
  all_goals
    repeat' first
      | with_reducible assumption
      | with_reducible apply OnlyChanges.refl
      | with_reducible apply OnlyChanges.ite
      | (with_reducible apply runMsg_frame; (on_goal 1 => decide))
      | (with_reducible apply OnlyChanges.step bcsSetTopology_frame; (on_goal 1 => decide))
      | with_reducible intro _
      | split

theorem execSetPdTimer_frame {a0} {a1} {x t : State} (h : execSetPdTimer a0 a1 x = .next t) :
    OnlyChanges [.evr, .pmc, .mb, .dram, .fab, .cxlA, .cxlB, .freeCtr, .outs] x t := by
  unfold execSetPdTimer at h
  first
    | (injection h with h; subst h)
    | (split at h <;> (first | (injection h with h; subst h) | cases h))
  all_goals
    repeat' first
      | with_reducible assumption
      | with_reducible apply OnlyChanges.refl
      | with_reducible apply OnlyChanges.ite
      | (with_reducible apply OnlyChanges.step bcsSetPdTimer_frame; (on_goal 1 => decide))
      | (with_reducible apply runMsg_frame; (on_goal 1 => decide))
      | with_reducible intro _
      | split

theorem execScanMedia_frame {a0} {a1} {x t : State} (h : execScanMedia a0 a1 x = .next t) :
    OnlyChanges [.evr, .pmc, .mb, .prot, .fab, .cxlA, .cxlB, .freeCtr, .outs] x t := by
  unfold execScanMedia at h
  first
    | (injection h with h; subst h)
    | (split at h <;> (first | (injection h with h; subst h) | cases h))
  all_goals
    repeat' first
      | with_reducible assumption
      | with_reducible apply OnlyChanges.refl
      | with_reducible apply OnlyChanges.ite
      | (with_reducible apply runMsg_frame; (on_goal 1 => decide))
      | (with_reducible apply OnlyChanges.step bcsScanMedia_frame; (on_goal 1 => decide))
      | with_reducible intro _
      | split

theorem execCloseEpoch_frame {a0} {a1} {x t : State} (h : execCloseEpoch a0 a1 x = .next t) :
    OnlyChanges [.evr, .pmc, .mb, .tr, .per, .ck, .cache, .fab, .cxlA, .cxlB, .freeCtr, .outs] x t := by
  unfold execCloseEpoch at h
  first
    | (injection h with h; subst h)
    | (split at h <;> (first | (injection h with h; subst h) | cases h))
  all_goals
    repeat' first
      | with_reducible assumption
      | with_reducible apply OnlyChanges.refl
      | with_reducible apply OnlyChanges.ite
      | (with_reducible apply runMsg_frame; (on_goal 1 => decide))
      | (with_reducible apply OnlyChanges.step bcsCloseEpoch_frame; (on_goal 1 => decide))
      | with_reducible intro _
      | split

theorem execIdentify_frame {a0} {a1} {x t : State} (h : execIdentify a0 a1 x = .next t) :
    OnlyChanges [.evr, .pmc, .mb, .fab, .cxlA, .cxlB, .freeCtr, .outs] x t := by
  unfold execIdentify at h
  first
    | (injection h with h; subst h)
    | (split at h <;> (first | (injection h with h; subst h) | cases h))
  all_goals
    repeat' first
      | with_reducible assumption
      | with_reducible apply OnlyChanges.refl
      | with_reducible apply OnlyChanges.ite
      | (with_reducible apply OnlyChanges.step bcsIdentify_frame; (on_goal 1 => decide))
      | (with_reducible apply runMsg_frame; (on_goal 1 => decide))
      | with_reducible intro _
      | split

theorem execSetPool_frame {a0} {a1} {x t : State} (h : execSetPool a0 a1 x = .next t) :
    OnlyChanges [.evr, .pmc, .mb, .sgl, .fab, .cxlA, .cxlB, .freeCtr, .outs] x t := by
  unfold execSetPool at h
  first
    | (injection h with h; subst h)
    | (split at h <;> (first | (injection h with h; subst h) | cases h))
  all_goals
    repeat' first
      | with_reducible assumption
      | with_reducible apply OnlyChanges.refl
      | with_reducible apply OnlyChanges.ite
      | (with_reducible apply OnlyChanges.step bcsSetPool_frame; (on_goal 1 => decide))
      | (with_reducible apply runMsg_frame; (on_goal 1 => decide))
      | with_reducible intro _
      | split

theorem execSetThermal_frame {a0} {a1} {x t : State} (h : execSetThermal a0 a1 x = .next t) :
    OnlyChanges [.evr, .pmc, .mb, .fab, .cxlA, .cxlB, .thm, .freeCtr, .outs] x t := by
  unfold execSetThermal at h
  first
    | (injection h with h; subst h)
    | (split at h <;> (first | (injection h with h; subst h) | cases h))
  all_goals
    repeat' first
      | with_reducible assumption
      | with_reducible apply OnlyChanges.refl
      | with_reducible apply OnlyChanges.ite
      | (with_reducible apply runMsg_frame; (on_goal 1 => decide))
      | (with_reducible apply OnlyChanges.step bcsSetThermal_frame; (on_goal 1 => decide))
      | with_reducible intro _
      | split

theorem execFwInfo_frame {a0} {a1} {x t : State} (h : execFwInfo a0 a1 x = .next t) :
    OnlyChanges [.evr, .pmc, .mb, .fab, .cxlA, .cxlB, .freeCtr, .outs] x t := by
  unfold execFwInfo at h
  first
    | (injection h with h; subst h)
    | (split at h <;> (first | (injection h with h; subst h) | cases h))
  all_goals
    repeat' first
      | with_reducible assumption
      | with_reducible apply OnlyChanges.refl
      | with_reducible apply OnlyChanges.ite
      | (with_reducible apply OnlyChanges.step bcsFwInfo_frame; (on_goal 1 => decide))
      | (with_reducible apply runMsg_frame; (on_goal 1 => decide))
      | with_reducible intro _
      | split

theorem execDiagSnapshot_frame {a0} {a1} {x t : State} (h : execDiagSnapshot a0 a1 x = .next t) :
    OnlyChanges [.evr, .pmc, .mb, .fab, .cxlA, .cxlB, .freeCtr, .outs] x t := by
  unfold execDiagSnapshot at h
  first
    | (injection h with h; subst h)
    | (split at h <;> (first | (injection h with h; subst h) | cases h))
  all_goals
    repeat' first
      | with_reducible assumption
      | with_reducible apply OnlyChanges.refl
      | with_reducible apply OnlyChanges.ite
      | (with_reducible apply OnlyChanges.step bcsDiagSnapshot_frame; (on_goal 1 => decide))
      | (with_reducible apply runMsg_frame; (on_goal 1 => decide))
      | with_reducible intro _
      | split

theorem execPmcConfig_frame {a0} {a1} {x t : State} (h : execPmcConfig a0 a1 x = .next t) :
    OnlyChanges [.evr, .pmc, .mb, .fab, .cxlA, .cxlB, .freeCtr, .outs] x t := by
  unfold execPmcConfig at h
  first
    | (injection h with h; subst h)
    | (split at h <;> (first | (injection h with h; subst h) | cases h))
  all_goals
    repeat' first
      | with_reducible assumption
      | with_reducible apply OnlyChanges.refl
      | with_reducible apply OnlyChanges.ite
      | (with_reducible apply OnlyChanges.step bcsPmcConfig_frame; (on_goal 1 => decide))
      | (with_reducible apply runMsg_frame; (on_goal 1 => decide))
      | with_reducible intro _
      | split

theorem execSetRemoteCache_frame {a0} {a1} {x t : State} (h : execSetRemoteCache a0 a1 x = .next t) :
    OnlyChanges [.evr, .pmc, .mb, .dram, .fab, .cxlA, .cxlB, .freeCtr, .outs] x t := by
  unfold execSetRemoteCache at h
  first
    | (injection h with h; subst h)
    | (split at h <;> (first | (injection h with h; subst h) | cases h))
  all_goals
    repeat' first
      | with_reducible assumption
      | with_reducible apply OnlyChanges.refl
      | with_reducible apply OnlyChanges.ite
      | (with_reducible apply OnlyChanges.step bcsSetRemoteCache_frame; (on_goal 1 => decide))
      | (with_reducible apply runMsg_frame; (on_goal 1 => decide))
      | with_reducible intro _
      | split

theorem execSetRoster_frame {a0} {a1} {x t : State} (h : execSetRoster a0 a1 x = .next t) :
    OnlyChanges [.evr, .pmc, .mb, .sgl, .fab, .cxlA, .cxlB, .freeCtr, .outs] x t := by
  unfold execSetRoster at h
  first
    | (injection h with h; subst h)
    | (split at h <;> (first | (injection h with h; subst h) | cases h))
  all_goals
    repeat' first
      | with_reducible assumption
      | with_reducible apply OnlyChanges.refl
      | with_reducible apply OnlyChanges.ite
      | (with_reducible apply runMsg_frame; (on_goal 1 => decide))
      | (with_reducible apply OnlyChanges.step bcsSetRoster_frame; (on_goal 1 => decide))
      | with_reducible intro _
      | split

theorem execSetSlots_frame {a0} {a1} {x t : State} (h : execSetSlots a0 a1 x = .next t) :
    OnlyChanges [.evr, .pmc, .mb, .sched, .fab, .cxlA, .cxlB, .freeCtr, .outs] x t := by
  unfold execSetSlots at h
  first
    | (injection h with h; subst h)
    | (split at h <;> (first | (injection h with h; subst h) | cases h))
  all_goals
    repeat' first
      | with_reducible assumption
      | with_reducible apply OnlyChanges.refl
      | with_reducible apply OnlyChanges.ite
      | (with_reducible apply runMsg_frame; (on_goal 1 => decide))
      | (with_reducible apply OnlyChanges.step bcsSetSlots_frame; (on_goal 1 => decide))
      | with_reducible intro _
      | split

theorem execFwBegin_frame {a0} {a1} {x t : State} (h : execFwBegin a0 a1 x = .next t) :
    OnlyChanges [.evr, .pmc, .mb, .fab, .cxlA, .cxlB, .freeCtr, .outs] x t := by
  unfold execFwBegin at h
  first
    | (injection h with h; subst h)
    | (split at h <;> (first | (injection h with h; subst h) | cases h))
  all_goals
    repeat' first
      | with_reducible assumption
      | with_reducible apply OnlyChanges.refl
      | with_reducible apply OnlyChanges.ite
      | (with_reducible apply OnlyChanges.step bcsFwBegin_frame; (on_goal 1 => decide))
      | (with_reducible apply runMsg_frame; (on_goal 1 => decide))
      | with_reducible intro _
      | split

theorem execSetDramRate_frame {a0} {a1} {x t : State} (h : execSetDramRate a0 a1 x = .next t) :
    OnlyChanges [.evr, .pmc, .mb, .dram, .fab, .cxlA, .cxlB, .freeCtr, .outs] x t := by
  unfold execSetDramRate at h
  first
    | (injection h with h; subst h)
    | (split at h <;> (first | (injection h with h; subst h) | cases h))
  all_goals
    repeat' first
      | with_reducible assumption
      | with_reducible apply OnlyChanges.refl
      | with_reducible apply OnlyChanges.ite
      | (with_reducible apply runMsg_frame; (on_goal 1 => decide))
      | (with_reducible apply OnlyChanges.step bcsSetDramRate_frame; (on_goal 1 => decide))
      | with_reducible intro _
      | split

theorem execEvrFreeze_frame {a0} {a1} {x t : State} (h : execEvrFreeze a0 a1 x = .next t) :
    OnlyChanges [.evr, .pmc, .mb, .fab, .cxlA, .cxlB, .freeCtr, .outs] x t := by
  unfold execEvrFreeze at h
  first
    | (injection h with h; subst h)
    | (split at h <;> (first | (injection h with h; subst h) | cases h))
  all_goals
    repeat' first
      | with_reducible assumption
      | with_reducible apply OnlyChanges.refl
      | with_reducible apply OnlyChanges.ite
      | (with_reducible apply OnlyChanges.step bcsEvrFreeze_frame; (on_goal 1 => decide))
      | (with_reducible apply runMsg_frame; (on_goal 1 => decide))
      | with_reducible intro _
      | split

theorem execReadReftable_frame {a0} {a1} {x t : State} (h : execReadReftable a0 a1 x = .next t) :
    OnlyChanges [.evr, .pmc, .mb, .fab, .cxlA, .cxlB, .freeCtr, .outs] x t := by
  unfold execReadReftable at h
  first
    | (injection h with h; subst h)
    | (split at h <;> (first | (injection h with h; subst h) | cases h))
  all_goals
    repeat' first
      | with_reducible assumption
      | with_reducible apply OnlyChanges.refl
      | with_reducible apply OnlyChanges.ite
      | (with_reducible apply OnlyChanges.step bcsReadReftable_frame; (on_goal 1 => decide))
      | (with_reducible apply runMsg_frame; (on_goal 1 => decide))
      | with_reducible intro _
      | split

theorem execSetAperture_frame {a0} {a1} {x t : State} (h : execSetAperture a0 a1 x = .next t) :
    OnlyChanges [.evr, .pmc, .mb, .fab, .portA, .portB, .cxlA, .cxlB, .freeCtr, .outs] x t := by
  unfold execSetAperture at h
  first
    | (injection h with h; subst h)
    | (split at h <;> (first | (injection h with h; subst h) | cases h))
  all_goals
    repeat' first
      | with_reducible assumption
      | with_reducible apply OnlyChanges.refl
      | with_reducible apply OnlyChanges.ite
      | (with_reducible apply runMsg_frame; (on_goal 1 => decide))
      | (with_reducible apply OnlyChanges.step bcsSetAperture_frame; (on_goal 1 => decide))
      | with_reducible intro _
      | split

end Sys2Proof.Machine
end

