-- ==== Sys2Proof/Laws/Bcs.lean ====
section
/-! SUPPORT. Once each: what taking a message, its gate and its payload come to. -/

set_option linter.all false

namespace Sys2Proof.Machine

/-- Counting the taking of a message changes the counters, the free values and the outputs only. -/
theorem taken_frame (s : State) : OnlyChanges [.pmc, .freeCtr, .outs] s (taken s) := count_frame

@[simp] theorem taken_mb (s : State) : (taken s).mb = s.mb := taken_frame s .mb (by decide)
@[simp] theorem taken_pw (s : State) : (taken s).pw = s.pw := taken_frame s .pw (by decide)
@[simp] theorem taken_evr (s : State) : (taken s).evr = s.evr := taken_frame s .evr (by decide)
@[simp] theorem taken_pst (s : State) : (taken s).pst = s.pst := taken_frame s .pst (by decide)
@[simp] theorem taken_trb (s : State) : (taken s).trb = s.trb := taken_frame s .trb (by decide)
@[simp] theorem taken_sched (s : State) : (taken s).sched = s.sched := taken_frame s .sched (by decide)
@[simp] theorem taken_tr (s : State) : (taken s).tr = s.tr := taken_frame s .tr (by decide)
@[simp] theorem taken_dr (s : State) : (taken s).dr = s.dr := taken_frame s .dr (by decide)
@[simp] theorem taken_prot (s : State) : (taken s).prot = s.prot := taken_frame s .prot (by decide)
@[simp] theorem taken_per (s : State) : (taken s).per = s.per := taken_frame s .per (by decide)
@[simp] theorem taken_ck (s : State) : (taken s).ck = s.ck := taken_frame s .ck (by decide)
@[simp] theorem taken_cache (s : State) : (taken s).cache = s.cache := taken_frame s .cache (by decide)
@[simp] theorem taken_dram (s : State) : (taken s).dram = s.dram := taken_frame s .dram (by decide)
@[simp] theorem taken_coh (s : State) : (taken s).coh = s.coh := taken_frame s .coh (by decide)
@[simp] theorem taken_sgl (s : State) : (taken s).sgl = s.sgl := taken_frame s .sgl (by decide)
@[simp] theorem taken_portA (s : State) : (taken s).portA = s.portA := taken_frame s .portA (by decide)
@[simp] theorem taken_portB (s : State) : (taken s).portB = s.portB := taken_frame s .portB (by decide)
@[simp] theorem taken_cxlA (s : State) : (taken s).cxlA = s.cxlA := taken_frame s .cxlA (by decide)
@[simp] theorem taken_cxlB (s : State) : (taken s).cxlB = s.cxlB := taken_frame s .cxlB (by decide)
@[simp] theorem taken_sec (s : State) : (taken s).sec = s.sec := taken_frame s .sec (by decide)
@[simp] theorem taken_thm (s : State) : (taken s).thm = s.thm := taken_frame s .thm (by decide)
@[simp] theorem taken_mtr (s : State) : (taken s).mtr = s.mtr := taken_frame s .mtr (by decide)
@[simp] theorem taken_port (s : State) (p : Port) : (taken s).port p = s.port p := by cases p <;> simp [State.port]

/-- What the gate says does not depend on the count. -/
@[simp] theorem gateRc_taken (g : Gate) (b : BoxId) (arg : Nat) (s : State) : gateRc g b arg (taken s) = gateRc g b arg s := by
  have h : ∀ n, boxHolds b n (taken s) = boxHolds b n s := by
    intro n; unfold boxHolds holds; simp
  simp [gateRc, notReady, h]

/-- A message that is ready is taken and run, once counted. -/
theorem runMsg_ready {s : State} {b : BoxId} {op arg : Nat} (run : State → State) (h : headReady s b op arg = true) :
    runMsg op b arg run s = run (taken s) := by
  unfold headReady at h
  cases hb : (boxOf s b).inbox with
  | nil => simp [hb] at h
  | cons x l =>
    obtain ⟨w, node, k⟩ := x
    simp only [hb, Bool.and_eq_true, beq_iff_eq, Bool.not_eq_true'] at h
    obtain ⟨⟨⟨⟨⟨h1, h2⟩, h3⟩, h4⟩, h5⟩, h6⟩ := h
    have ha : arg % 2 ^ 44 = arg := by
      rw [← h2]; unfold wordArg bitsOf; exact Nat.mod_mod _ _
    have hp : postIfFree b op arg s = s := by unfold postIfFree; simp [hb]
    unfold runMsg
    simp only [hp, hb]
    have h7 : staleHead (count 16 0x201 0 1 s) b w node = false := by
      have e : (count 16 0x201 0 1 s).mb = s.mb := taken_mb s
      unfold staleHead boxOf at *
      rw [e]; exact h6
    have h5' : headWaits s b op (arg % 2 ^ 44) = false := by rw [ha]; exact h5
    simp only [h3, h4, h5', h1, h2, ha, Bool.not_true, bne_self_eq_false, Bool.or_self, Bool.false_eq_true, if_false, takeHead,
      h7, ↓reduceIte]
    simp [h5]; rfl

/-- A message's argument fits in its 44 bits. -/
theorem headReady_arg {s : State} {b : BoxId} {op arg : Nat} (h : headReady s b op arg = true) : arg % 2 ^ 44 = arg := by
  unfold headReady at h
  cases hb : (boxOf s b).inbox with
  | nil => simp [hb] at h
  | cons x l =>
    obtain ⟨w, node, k⟩ := x
    simp only [hb, Bool.and_eq_true, beq_iff_eq] at h
    rw [← h.1.1.1.1.2]; unfold wordArg bitsOf; exact Nat.mod_mod _ _

/-- A command the gate refuses is acknowledged with the gate's return code, and has no other effect (R482). -/
theorem withGate_refused {g : Gate} {b : BoxId} {arg rc : Nat} {s : State} (body : List Word → State → Fin)
    (h : gateRc g b arg s = some rc) : withGate g b arg body s = ackHead b rc s := by
  simp [withGate, h]

/-- A command without an inbound payload that the gate lets pass runs. -/
theorem withGate_open {g : Gate} {b : BoxId} {arg : Nat} {s : State} (body : List Word → State → Fin)
    (h : gateRc g b arg s = none) (hp : g.pay = none) : withGate g b arg body s = conclude g.op b arg (body [] s) := by
  simp [withGate, h, hp]

/-- A command with an inbound payload that the gate lets pass runs on the packet it finds. -/
theorem withGate_payload {g : Gate} {b : BoxId} {arg lo hi : Nat} {s t : State} {ws : List Word} (body : List Word → State → Fin)
    (h : gateRc g b arg s = none) (hp : g.pay = some (lo, hi)) (hw : takePayload b arg lo hi s = (some ws, t)) :
    withGate g b arg body s = conclude g.op b arg (body ws t) := by
  simp [withGate, h, hp, hw]

/-- Without a packet of the length the argument names, the command is answered PAYLOAD (R480). -/
theorem withGate_noPayload {g : Gate} {b : BoxId} {arg lo hi : Nat} {s t : State} (body : List Word → State → Fin)
    (h : gateRc g b arg s = none) (hp : g.pay = some (lo, hi)) (hw : takePayload b arg lo hi s = (none, t)) :
    withGate g b arg body s = ackHead b 11 t := by
  simp [withGate, h, hp, hw]

end Sys2Proof.Machine
end

