-- ==== Sys2Proof/Laws/FrameTap.lean ====
section
/-! SUPPORT. The parts of the state that each operation of Machine/Tap.lean may change; every other part it leaves
alone. -/

set_option linter.all false

namespace Sys2Proof.Machine

theorem enterScan_frame  {x : State} : OnlyChanges [.pw, .pst] x (enterScan x) := by
  unfold enterScan
  repeat' first
    | with_reducible assumption
    | with_reducible apply OnlyChanges.refl
    | (extract_lets +onlyGivenNames y; guard_hyp y : State := Prod.snd _; subst y)
    | (extract_lets +onlyGivenNames y; guard_hyp y : State := _; apply OnlyChanges.cut y; (on_goal 1 => (unfold y; clear y)); (on_goal 2 => (intro hx; clear_value y)))
    | (extract_lets +onlyGivenNames y; guard_hyp y : _ × State := _; apply OnlyChanges.cutP y; (on_goal 1 => (unfold y; clear y)); (on_goal 2 => (intro hx; clear_value y)))
    | (extract_lets +onlyGivenNames y; guard_hyp y : _ × _ × State := _; apply OnlyChanges.cutPP y; (on_goal 1 => (unfold y; clear y)); (on_goal 2 => (intro hx; clear_value y)))
    | (extract_lets +onlyGivenNames y; guard_hyp y : Boxes := _; subst y)
    | (extract_lets +onlyGivenNames y; guard_hyp y : Power := _; subst y)
    | (extract_lets +onlyGivenNames y; guard_hyp y : Trans := _; subst y)
    | (extract_lets +onlyGivenNames y; guard_hyp y : Prot := _; subst y)
    | (extract_lets +onlyGivenNames y; guard_hyp y : Persist := _; subst y)
    | (extract_lets +onlyGivenNames y; guard_hyp y : Sgl := _; subst y)
    | (extract_lets +onlyGivenNames y; guard_hyp y : Sec := _; subst y)
    | (extract_lets +onlyGivenNames y; clear_value y)
    | extract_lets +onlyGivenNames y
    | with_reducible apply OnlyChanges.ite
    | (with_reducible apply OnlyChanges.step setRails_frame; (on_goal 1 => decide))
    | (with_reducible apply OnlyChanges.step incCounter_frame; (on_goal 1 => decide))
    | split
    | (with_reducible apply OnlyChanges.upd1; (on_goal 1 => decide); (on_goal 1 => (first | exact Or.inr (by with_reducible rfl) | exact Or.inl (by decide) | exact Or.inr rfl)); (on_goal 1 => (first | exact Or.inr (by with_reducible rfl) | exact Or.inl (by decide) | exact Or.inr rfl)))

theorem endScan_frame  {x : State} : OnlyChanges [.pw, .evr, .pmc, .trb, .mb, .sched, .tr, .dr, .prot, .per, .ck, .cache, .dram, .coh, .sgl, .fab, .portA, .portB, .cxlA, .cxlB, .sec, .thm, .outs, .clamps, .phase, .committed, .members, .kids] x (endScan x) := by
  unfold endScan
  repeat' first
    | with_reducible assumption
    | with_reducible apply OnlyChanges.refl
    | with_reducible apply OnlyChanges.ite
    | (with_reducible apply OnlyChanges.step startPowerDown_frame; (on_goal 1 => decide))
    | split

theorem select_frame {a0} {a1} {a2} {x : State} : OnlyChanges [.pw, .outs] x (select a0 a1 a2 x) := by
  unfold select
  repeat' first
    | with_reducible assumption
    | with_reducible apply OnlyChanges.refl
    | (extract_lets +onlyGivenNames y; guard_hyp y : State := Prod.snd _; subst y)
    | (extract_lets +onlyGivenNames y; guard_hyp y : State := _; apply OnlyChanges.cut y; (on_goal 1 => (unfold y; clear y)); (on_goal 2 => (intro hx; clear_value y)))
    | (extract_lets +onlyGivenNames y; guard_hyp y : _ × State := _; apply OnlyChanges.cutP y; (on_goal 1 => (unfold y; clear y)); (on_goal 2 => (intro hx; clear_value y)))
    | (extract_lets +onlyGivenNames y; guard_hyp y : _ × _ × State := _; apply OnlyChanges.cutPP y; (on_goal 1 => (unfold y; clear y)); (on_goal 2 => (intro hx; clear_value y)))
    | (extract_lets +onlyGivenNames y; guard_hyp y : Boxes := _; subst y)
    | (extract_lets +onlyGivenNames y; guard_hyp y : Power := _; subst y)
    | (extract_lets +onlyGivenNames y; guard_hyp y : Trans := _; subst y)
    | (extract_lets +onlyGivenNames y; guard_hyp y : Prot := _; subst y)
    | (extract_lets +onlyGivenNames y; guard_hyp y : Persist := _; subst y)
    | (extract_lets +onlyGivenNames y; guard_hyp y : Sgl := _; subst y)
    | (extract_lets +onlyGivenNames y; guard_hyp y : Sec := _; subst y)
    | (extract_lets +onlyGivenNames y; clear_value y)
    | extract_lets +onlyGivenNames y
    | with_reducible apply OnlyChanges.ite
    | (with_reducible apply OnlyChanges.step emit_frame; (on_goal 1 => decide))
    | split
    | (with_reducible apply OnlyChanges.upd1; (on_goal 1 => decide); (on_goal 1 => (first | exact Or.inr (by with_reducible rfl) | exact Or.inl (by decide) | exact Or.inr rfl)); (on_goal 1 => (first | exact Or.inr (by with_reducible rfl) | exact Or.inl (by decide) | exact Or.inr rfl)))

theorem bypassNow_frame  {x : State} : OnlyChanges [.pw, .evr, .pmc, .trb, .mb, .sched, .tr, .dr, .prot, .per, .ck, .cache, .dram, .coh, .sgl, .fab, .portA, .portB, .cxlA, .cxlB, .sec, .thm, .outs, .clamps, .phase, .committed, .members, .kids] x (bypassNow x) := by
  unfold bypassNow
  repeat' first
    | with_reducible assumption
    | with_reducible apply OnlyChanges.refl
    | with_reducible apply OnlyChanges.ite
    | (with_reducible apply OnlyChanges.step endScan_frame; (on_goal 1 => decide))
    | (with_reducible apply OnlyChanges.step select_frame; (on_goal 1 => decide))
    | split

theorem driveNow_frame {L : List Part} {f} {s x : State} (hs : partsWithin [.pw, .evr, .pst, .pmc, .trb, .mb, .sched, .tr, .dr, .prot, .per, .ck, .cache, .dram, .coh, .sgl, .fab, .portA, .portB, .cxlA, .cxlB, .sec, .thm, .outs, .clamps, .phase, .committed, .members, .kids] L = true) (hf : ∀ y, OnlyChanges L y (f y))
    (h0 : OnlyChanges L s x) : OnlyChanges L s (driveNow f x) := by
  refine h0.trans ?_
  unfold driveNow
  split
  · exact OnlyChanges.refl _ _
  · split
    · exact (enterScan_frame.widen (partsWithin_trans (by decide) hs)).trans (hf _)
    · exact bypassNow_frame.widen (partsWithin_trans (by decide) hs)

theorem captureBoundary_frame {a0} {x : State} : OnlyChanges [.pw, .freeCtr, .outs] x (captureBoundary a0 x) := by
  unfold captureBoundary
  repeat' first
    | with_reducible assumption
    | with_reducible apply OnlyChanges.refl
    | (extract_lets +onlyGivenNames y; guard_hyp y : State := Prod.snd _; subst y)
    | (extract_lets +onlyGivenNames y; guard_hyp y : State := _; apply OnlyChanges.cut y; (on_goal 1 => (unfold y; clear y)); (on_goal 2 => (intro hx; clear_value y)))
    | (extract_lets +onlyGivenNames y; guard_hyp y : _ × State := _; apply OnlyChanges.cutP y; (on_goal 1 => (unfold y; clear y)); (on_goal 2 => (intro hx; clear_value y)))
    | (extract_lets +onlyGivenNames y; guard_hyp y : _ × _ × State := _; apply OnlyChanges.cutPP y; (on_goal 1 => (unfold y; clear y)); (on_goal 2 => (intro hx; clear_value y)))
    | (extract_lets +onlyGivenNames y; guard_hyp y : Boxes := _; subst y)
    | (extract_lets +onlyGivenNames y; guard_hyp y : Power := _; subst y)
    | (extract_lets +onlyGivenNames y; guard_hyp y : Trans := _; subst y)
    | (extract_lets +onlyGivenNames y; guard_hyp y : Prot := _; subst y)
    | (extract_lets +onlyGivenNames y; guard_hyp y : Persist := _; subst y)
    | (extract_lets +onlyGivenNames y; guard_hyp y : Sgl := _; subst y)
    | (extract_lets +onlyGivenNames y; guard_hyp y : Sec := _; subst y)
    | (extract_lets +onlyGivenNames y; clear_value y)
    | extract_lets +onlyGivenNames y
    | with_reducible apply OnlyChanges.ite
    | (with_reducible apply OnlyChanges.step select_frame; (on_goal 1 => decide))
    | (with_reducible apply OnlyChangesP.step draw_frame; (on_goal 1 => decide))
    | (with_reducible apply OnlyChangesP.snd draw_frame; (on_goal 1 => decide))
    | (with_reducible apply OnlyChanges.ofPair; (on_goal 1 => assumption))
    | split
    | (with_reducible apply OnlyChanges.upd1; (on_goal 1 => decide); (on_goal 1 => (first | exact Or.inr (by with_reducible rfl) | exact Or.inl (by decide) | exact Or.inr rfl)); (on_goal 1 => (first | exact Or.inr (by with_reducible rfl) | exact Or.inl (by decide) | exact Or.inr rfl)))

theorem execExtest_frame  {x t : State} (h : execExtest x = .next t) :
    OnlyChanges [.pw, .evr, .pst, .pmc, .trb, .mb, .sched, .tr, .dr, .prot, .per, .ck, .cache, .dram, .coh, .sgl, .fab, .portA, .portB, .cxlA, .cxlB, .sec, .thm, .freeCtr, .outs, .clamps, .phase, .committed, .members, .kids] x t := by
  unfold execExtest at h
  first
    | (injection h with h; subst h)
    | (split at h <;> (first | (injection h with h; subst h) | cases h))
  all_goals
    repeat' first
      | with_reducible assumption
      | with_reducible apply OnlyChanges.refl
      | with_reducible apply OnlyChanges.ite
      | (with_reducible apply driveNow_frame; (on_goal 1 => decide))
      | (with_reducible apply OnlyChanges.step captureBoundary_frame; (on_goal 1 => decide))
      | with_reducible intro _
      | split

theorem execPrivateInstruction_frame {a0} {x t : State} (h : execPrivateInstruction a0 x = .next t) :
    OnlyChanges [.pw, .evr, .pmc, .trb, .mb, .sched, .tr, .dr, .prot, .per, .ck, .cache, .dram, .coh, .sgl, .fab, .portA, .portB, .cxlA, .cxlB, .sec, .thm, .freeCtr, .outs, .clamps, .phase, .committed, .members, .kids] x t := by
  unfold execPrivateInstruction at h
  first
    | (injection h with h; subst h)
    | (split at h <;> (first | (injection h with h; subst h) | cases h))
  all_goals
    repeat' first
      | with_reducible assumption
      | with_reducible apply OnlyChanges.refl
      | (extract_lets +onlyGivenNames y; guard_hyp y : State := Prod.snd _; subst y)
      | (extract_lets +onlyGivenNames y; guard_hyp y : State := _; apply OnlyChanges.cut y; (on_goal 1 => (unfold y; clear y)); (on_goal 2 => (intro hx; clear_value y)))
      | (extract_lets +onlyGivenNames y; guard_hyp y : _ × State := _; apply OnlyChanges.cutP y; (on_goal 1 => (unfold y; clear y)); (on_goal 2 => (intro hx; clear_value y)))
      | (extract_lets +onlyGivenNames y; guard_hyp y : _ × _ × State := _; apply OnlyChanges.cutPP y; (on_goal 1 => (unfold y; clear y)); (on_goal 2 => (intro hx; clear_value y)))
      | (extract_lets +onlyGivenNames y; guard_hyp y : Boxes := _; subst y)
      | (extract_lets +onlyGivenNames y; guard_hyp y : Power := _; subst y)
      | (extract_lets +onlyGivenNames y; guard_hyp y : Trans := _; subst y)
      | (extract_lets +onlyGivenNames y; guard_hyp y : Prot := _; subst y)
      | (extract_lets +onlyGivenNames y; guard_hyp y : Persist := _; subst y)
      | (extract_lets +onlyGivenNames y; guard_hyp y : Sgl := _; subst y)
      | (extract_lets +onlyGivenNames y; guard_hyp y : Sec := _; subst y)
      | (extract_lets +onlyGivenNames y; clear_value y)
      | extract_lets +onlyGivenNames y
      | with_reducible apply OnlyChanges.ite
      | (with_reducible apply OnlyChanges.step bypassNow_frame; (on_goal 1 => decide))
      | (with_reducible apply OnlyChanges.step select_frame; (on_goal 1 => decide))
      | (with_reducible apply OnlyChangesP.step draw_frame; (on_goal 1 => decide))
      | (with_reducible apply OnlyChangesP.snd draw_frame; (on_goal 1 => decide))
      | (with_reducible apply OnlyChanges.ofPair; (on_goal 1 => assumption))
      | split

theorem execTapClamp_frame  {x t : State} (h : execTapClamp x = .next t) :
    OnlyChanges [.pw, .evr, .pst, .pmc, .trb, .mb, .sched, .tr, .dr, .prot, .per, .ck, .cache, .dram, .coh, .sgl, .fab, .portA, .portB, .cxlA, .cxlB, .sec, .thm, .outs, .clamps, .phase, .committed, .members, .kids] x t := by
  unfold execTapClamp at h
  first
    | (injection h with h; subst h)
    | (split at h <;> (first | (injection h with h; subst h) | cases h))
  all_goals
    repeat' first
      | with_reducible assumption
      | with_reducible apply OnlyChanges.refl
      | with_reducible apply OnlyChanges.ite
      | (with_reducible apply driveNow_frame; (on_goal 1 => decide))
      | (with_reducible apply OnlyChanges.step select_frame; (on_goal 1 => decide))
      | with_reducible intro _
      | split

theorem execIdcode_frame  {x t : State} (h : execIdcode x = .next t) :
    OnlyChanges [.pw, .evr, .pmc, .trb, .mb, .sched, .tr, .dr, .prot, .per, .ck, .cache, .dram, .coh, .sgl, .fab, .portA, .portB, .cxlA, .cxlB, .sec, .thm, .outs, .clamps, .phase, .committed, .members, .kids] x t := by
  unfold execIdcode at h
  first
    | (injection h with h; subst h)
    | (split at h <;> (first | (injection h with h; subst h) | cases h))
  all_goals
    repeat' first
      | with_reducible assumption
      | with_reducible apply OnlyChanges.refl
      | with_reducible apply OnlyChanges.ite
      | (with_reducible apply OnlyChanges.step endScan_frame; (on_goal 1 => decide))
      | (with_reducible apply OnlyChanges.step select_frame; (on_goal 1 => decide))
      | split

theorem execSamplePreload_frame  {x t : State} (h : execSamplePreload x = .next t) :
    OnlyChanges [.pw, .evr, .pmc, .trb, .mb, .sched, .tr, .dr, .prot, .per, .ck, .cache, .dram, .coh, .sgl, .fab, .portA, .portB, .cxlA, .cxlB, .sec, .thm, .freeCtr, .outs, .clamps, .phase, .committed, .members, .kids] x t := by
  unfold execSamplePreload at h
  first
    | (injection h with h; subst h)
    | (split at h <;> (first | (injection h with h; subst h) | cases h))
  all_goals
    repeat' first
      | with_reducible assumption
      | with_reducible apply OnlyChanges.refl
      | with_reducible apply OnlyChanges.ite
      | (with_reducible apply OnlyChanges.step endScan_frame; (on_goal 1 => decide))
      | (with_reducible apply OnlyChanges.step captureBoundary_frame; (on_goal 1 => decide))
      | split

theorem execReturnUnlock_frame {a0} {x t : State} (h : execReturnUnlock a0 x = .next t) :
    OnlyChanges [.pw] x t := by
  unfold execReturnUnlock at h
  first
    | (injection h with h; subst h)
    | (split at h <;> (first | (injection h with h; subst h) | cases h))
  all_goals
    repeat' first
      | with_reducible assumption
      | with_reducible apply OnlyChanges.refl
      | (extract_lets +onlyGivenNames y; guard_hyp y : State := Prod.snd _; subst y)
      | (extract_lets +onlyGivenNames y; guard_hyp y : State := _; apply OnlyChanges.cut y; (on_goal 1 => (unfold y; clear y)); (on_goal 2 => (intro hx; clear_value y)))
      | (extract_lets +onlyGivenNames y; guard_hyp y : _ × State := _; apply OnlyChanges.cutP y; (on_goal 1 => (unfold y; clear y)); (on_goal 2 => (intro hx; clear_value y)))
      | (extract_lets +onlyGivenNames y; guard_hyp y : _ × _ × State := _; apply OnlyChanges.cutPP y; (on_goal 1 => (unfold y; clear y)); (on_goal 2 => (intro hx; clear_value y)))
      | (extract_lets +onlyGivenNames y; guard_hyp y : Boxes := _; subst y)
      | (extract_lets +onlyGivenNames y; guard_hyp y : Power := _; subst y)
      | (extract_lets +onlyGivenNames y; guard_hyp y : Trans := _; subst y)
      | (extract_lets +onlyGivenNames y; guard_hyp y : Prot := _; subst y)
      | (extract_lets +onlyGivenNames y; guard_hyp y : Persist := _; subst y)
      | (extract_lets +onlyGivenNames y; guard_hyp y : Sgl := _; subst y)
      | (extract_lets +onlyGivenNames y; guard_hyp y : Sec := _; subst y)
      | (extract_lets +onlyGivenNames y; clear_value y)
      | extract_lets +onlyGivenNames y
      | with_reducible apply OnlyChanges.ite
      | split
      | (with_reducible apply OnlyChanges.upd1; (on_goal 1 => decide); (on_goal 1 => (first | exact Or.inr (by with_reducible rfl) | exact Or.inl (by decide) | exact Or.inr rfl)); (on_goal 1 => (first | exact Or.inr (by with_reducible rfl) | exact Or.inl (by decide) | exact Or.inr rfl)))

theorem execExtestTrain_frame  {x t : State} (h : execExtestTrain x = .next t) :
    OnlyChanges [.pw, .evr, .pst, .pmc, .trb, .mb, .sched, .tr, .dr, .prot, .per, .ck, .cache, .dram, .coh, .sgl, .fab, .portA, .portB, .cxlA, .cxlB, .sec, .thm, .freeCtr, .outs, .clamps, .phase, .committed, .members, .kids] x t := by
  unfold execExtestTrain at h
  first
    | (injection h with h; subst h)
    | (split at h <;> (first | (injection h with h; subst h) | cases h))
  all_goals
    repeat' first
      | with_reducible assumption
      | with_reducible apply OnlyChanges.refl
      | with_reducible apply OnlyChanges.ite
      | (with_reducible apply driveNow_frame; (on_goal 1 => decide))
      | (with_reducible apply OnlyChanges.step captureBoundary_frame; (on_goal 1 => decide))
      | with_reducible intro _
      | split

theorem execExtestPulse_frame  {x t : State} (h : execExtestPulse x = .next t) :
    OnlyChanges [.pw, .evr, .pst, .pmc, .trb, .mb, .sched, .tr, .dr, .prot, .per, .ck, .cache, .dram, .coh, .sgl, .fab, .portA, .portB, .cxlA, .cxlB, .sec, .thm, .freeCtr, .outs, .clamps, .phase, .committed, .members, .kids] x t := by
  unfold execExtestPulse at h
  first
    | (injection h with h; subst h)
    | (split at h <;> (first | (injection h with h; subst h) | cases h))
  all_goals
    repeat' first
      | with_reducible assumption
      | with_reducible apply OnlyChanges.refl
      | with_reducible apply OnlyChanges.ite
      | (with_reducible apply driveNow_frame; (on_goal 1 => decide))
      | (with_reducible apply OnlyChanges.step captureBoundary_frame; (on_goal 1 => decide))
      | with_reducible intro _
      | split

theorem execTrstAssert_frame  {x t : State} (h : execTrstAssert x = .next t) :
    OnlyChanges [.pw, .evr, .pmc, .trb, .mb, .sched, .tr, .dr, .prot, .per, .ck, .cache, .dram, .coh, .sgl, .fab, .portA, .portB, .cxlA, .cxlB, .sec, .thm, .outs, .clamps, .phase, .committed, .members, .kids] x t := by
  unfold execTrstAssert at h
  first
    | (injection h with h; subst h)
    | (split at h <;> (first | (injection h with h; subst h) | cases h))
  all_goals
    repeat' first
      | with_reducible assumption
      | with_reducible apply OnlyChanges.refl
      | with_reducible apply OnlyChanges.ite
      | (with_reducible apply OnlyChanges.step endScan_frame; (on_goal 1 => decide))
      | (with_reducible apply OnlyChanges.step select_frame; (on_goal 1 => decide))
      | split

theorem execBypass_frame  {x t : State} (h : execBypass x = .next t) :
    OnlyChanges [.pw, .evr, .pmc, .trb, .mb, .sched, .tr, .dr, .prot, .per, .ck, .cache, .dram, .coh, .sgl, .fab, .portA, .portB, .cxlA, .cxlB, .sec, .thm, .outs, .clamps, .phase, .committed, .members, .kids] x t := by
  unfold execBypass at h
  first
    | (injection h with h; subst h)
    | (split at h <;> (first | (injection h with h; subst h) | cases h))
  all_goals
    repeat' first
      | with_reducible assumption
      | with_reducible apply OnlyChanges.refl
      | with_reducible apply OnlyChanges.ite
      | (with_reducible apply OnlyChanges.step bypassNow_frame; (on_goal 1 => decide))
      | split

theorem execHighz_frame  {x t : State} (h : execHighz x = .next t) :
    OnlyChanges [.pw, .evr, .pst, .pmc, .trb, .mb, .sched, .tr, .dr, .prot, .per, .ck, .cache, .dram, .coh, .sgl, .fab, .portA, .portB, .cxlA, .cxlB, .sec, .thm, .outs, .clamps, .phase, .committed, .members, .kids] x t := by
  unfold execHighz at h
  first
    | (injection h with h; subst h)
    | (split at h <;> (first | (injection h with h; subst h) | cases h))
  all_goals
    repeat' first
      | with_reducible assumption
      | with_reducible apply OnlyChanges.refl
      | with_reducible apply OnlyChanges.ite
      | (with_reducible apply driveNow_frame; (on_goal 1 => decide))
      | (with_reducible apply OnlyChanges.step select_frame; (on_goal 1 => decide))
      | with_reducible intro _
      | split

end Sys2Proof.Machine
end

