-- ==== Sys2Proof/Laws/Table.lean ====
section
/-! SUPPORT. The laws of sparse tables: a read after a write, and that every operation keeps the keys strictly rising. -/

set_option linter.all false

namespace Sys2Proof

variable {α : Type}

/-! ### A read after a write -/

@[simp] theorem Table.get?_put_same (t : Table α) (q : Nat) (x : α) : Table.get? (Table.put t q x) q = some x := by
  induction t with
  | nil => simp [Table.put, Table.get?]
  | cons e t ih =>
    obtain ⟨k, v⟩ := e
    unfold Table.put
    split
    · simp [Table.get?]
    · split
      · simp [Table.get?]
      · rename_i h1 h2
        simp [Table.get?, Ne.symm h2, ih]

theorem Table.get?_put_other (t : Table α) {q r : Nat} (x : α) (h : r ≠ q) :
    Table.get? (Table.put t q x) r = Table.get? t r := by
  induction t with
  | nil => simp [Table.put, Table.get?, Ne.symm h]
  | cons e t ih =>
    obtain ⟨k, v⟩ := e
    unfold Table.put
    split
    · simp [Table.get?, Ne.symm h]
    · split
      · rename_i h1 h2
        subst h2
        simp [Table.get?, Ne.symm h]
      · simp [Table.get?, ih]

@[simp] theorem Table.get?_del_same (t : Table α) (q : Nat) : Table.get? (Table.del t q) q = none := by
  induction t with
  | nil => rfl
  | cons e t ih =>
    obtain ⟨k, v⟩ := e
    unfold Table.del
    split
    · exact ih
    · rename_i h
      simp [Table.get?, h, ih]

theorem Table.get?_del_other (t : Table α) {q r : Nat} (h : r ≠ q) : Table.get? (Table.del t q) r = Table.get? t r := by
  induction t with
  | nil => rfl
  | cons e t ih =>
    obtain ⟨k, v⟩ := e
    unfold Table.del
    split
    · rename_i h1
      subst h1
      simp [Table.get?, Ne.symm h, ih]
    · simp [Table.get?, ih]

/-- A table whose unlisted keys read as d, after a write. -/
theorem Table.getD_putD [DecidableEq α] (t : Table α) (q r : Nat) (x d : α) :
    Table.getD (Table.putD t q x d) r d = if r = q then x else Table.getD t r d := by
  unfold Table.putD Table.getD
  by_cases hr : r = q
  · subst hr
    split
    · rename_i hx
      subst hx
      simp
    · simp
  · split
    · simp [Table.get?_del_other t hr, hr]
    · simp [Table.get?_put_other t x hr, hr]

/-! ### The canonical form -/

/-- Every key of a table is above a number. -/
def Table.above (n : Nat) (t : Table α) : Prop := ∀ e ∈ t, n < e.1

theorem Table.wf_cons {k : Nat} {v : α} {t : Table α} : Table.wf ((k, v) :: t) = true ↔ Table.above k t ∧ Table.wf t = true := by
  induction t generalizing k v with
  | nil => simp [Table.wf, Table.above]
  | cons e t ih =>
    obtain ⟨j, w⟩ := e
    simp only [Table.wf, Bool.and_eq_true, decide_eq_true_eq]
    constructor
    · rintro ⟨h, hw⟩
      refine ⟨?_, hw⟩
      intro e he
      rcases List.mem_cons.mp he with rfl | he
      · exact h
      · exact Nat.lt_trans h ((ih.mp hw).1 e he)
    · rintro ⟨h, hw⟩
      exact ⟨h (j, w) (List.mem_cons_self ..), hw⟩

theorem Table.mem_put {t : Table α} {q : Nat} {x : α} {e : Nat × α} (h : e ∈ Table.put t q x) : e = (q, x) ∨ e ∈ t := by
  induction t with
  | nil => simpa [Table.put] using h
  | cons f t ih =>
    obtain ⟨k, v⟩ := f
    unfold Table.put at h
    split at h
    · simpa using h
    · split at h
      · rcases List.mem_cons.mp h with h | h
        · exact .inl h
        · exact .inr (List.mem_cons_of_mem _ h)
      · rcases List.mem_cons.mp h with h | h
        · exact .inr (h ▸ List.mem_cons_self ..)
        · rcases ih h with h | h
          · exact .inl h
          · exact .inr (List.mem_cons_of_mem _ h)

theorem Table.mem_del {t : Table α} {q : Nat} {e : Nat × α} (h : e ∈ Table.del t q) : e ∈ t := by
  induction t with
  | nil => simpa [Table.del] using h
  | cons f t ih =>
    obtain ⟨k, v⟩ := f
    unfold Table.del at h
    split at h
    · exact List.mem_cons_of_mem _ (ih h)
    · rcases List.mem_cons.mp h with h | h
      · exact h ▸ List.mem_cons_self ..
      · exact List.mem_cons_of_mem _ (ih h)

/-- Writing an entry keeps the canonical form. -/
theorem Table.wf_put {t : Table α} (q : Nat) (x : α) (h : Table.wf t = true) : Table.wf (Table.put t q x) = true := by
  induction t with
  | nil => simp [Table.put, Table.wf]
  | cons e t ih =>
    obtain ⟨k, v⟩ := e
    obtain ⟨ha, hw⟩ := Table.wf_cons.mp h
    unfold Table.put
    split
    · rename_i hq
      refine Table.wf_cons.mpr ⟨?_, h⟩
      intro e he
      rcases List.mem_cons.mp he with rfl | he
      · exact hq
      · exact Nat.lt_trans hq (ha e he)
    · split
      · rename_i h1 h2
        subst h2
        exact Table.wf_cons.mpr ⟨ha, hw⟩
      · rename_i h1 h2
        refine Table.wf_cons.mpr ⟨?_, ih hw⟩
        intro e he
        rcases Table.mem_put he with rfl | he
        · exact Nat.lt_of_le_of_ne (Nat.le_of_not_lt h1) (Ne.symm h2)
        · exact ha e he

/-- Removing an entry keeps the canonical form. -/
theorem Table.wf_del {t : Table α} (q : Nat) (h : Table.wf t = true) : Table.wf (Table.del t q) = true := by
  induction t with
  | nil => rfl
  | cons e t ih =>
    obtain ⟨k, v⟩ := e
    obtain ⟨ha, hw⟩ := Table.wf_cons.mp h
    unfold Table.del
    split
    · exact ih hw
    · exact Table.wf_cons.mpr ⟨fun e he => ha e (Table.mem_del he), ih hw⟩

theorem Table.wf_putD [DecidableEq α] {t : Table α} (q : Nat) (x d : α) (h : Table.wf t = true) :
    Table.wf (Table.putD t q x d) = true := by
  unfold Table.putD
  split
  · exact Table.wf_del q h
  · exact Table.wf_put q x h

theorem Table.wf_modify {t : Table α} (q : Nat) (f : α → α) (h : Table.wf t = true) : Table.wf (Table.modify t q f) = true := by
  unfold Table.modify
  split
  · exact Table.wf_put q _ h
  · exact h

/-- A part of a table in canonical form is in canonical form. -/
theorem Table.wf_filter {t : Table α} (p : Nat × α → Bool) (h : Table.wf t = true) : Table.wf (t.filter p) = true := by
  induction t with
  | nil => rfl
  | cons e t ih =>
    obtain ⟨k, v⟩ := e
    obtain ⟨ha, hw⟩ := Table.wf_cons.mp h
    rw [List.filter_cons]
    split
    · exact Table.wf_cons.mpr ⟨fun e he => ha e (List.mem_filter.mp he).1, ih hw⟩
    · exact ih hw

/-! ### Lists of fixed length -/

@[simp] theorem setNth_length (l : List α) (i : Nat) (x : α) : (setNth l i x).length = l.length := by simp [setNth]

theorem nthD_setNth_same {l : List α} {i : Nat} (x d : α) (h : i < l.length) : nthD (setNth l i x) i d = x := by
  simp [nthD, setNth, List.getD, h]

theorem nthD_setNth_other {l : List α} {i j : Nat} (x d : α) (h : j ≠ i) : nthD (setNth l i x) j d = nthD l j d := by
  simp [nthD, setNth, List.getD, Ne.symm h]

end Sys2Proof
end

