-- ==== Sys2Proof/Laws/Clamps.lean ====
section
/-! SUPPORT. The operations that write clamps keep them sixteen, each free or held by one of the four senders. -/

set_option linter.all false

namespace Sys2Proof.Machine

/-- An operation whose frame leaves the clamps alone keeps them. -/
theorem ClampsOk.frame {L : List Part} {s t : State} (h : ClampsOk s) (f : OnlyChanges L s t)
    (hp : Part.clamps ∉ L := by decide) : ClampsOk t := by
  have e : t.mb.clamps = s.mb.clamps := f .clamps hp
  unfold ClampsOk
  rw [e]
  exact h

theorem ClampsOk.of_clamps {s t : State} (h : ClampsOk s) (e : t.mb.clamps = s.mb.clamps) : ClampsOk t := by
  unfold ClampsOk
  rw [e]
  exact h

theorem ClampsOk.owner {s : State} (h : ClampsOk s) (n : Nat) : (nthD s.mb.clamps n {}).owner ≤ 4 := by
  unfold nthD
  rw [List.getD_eq_getElem?_getD]
  cases e : s.mb.clamps[n]? with
  | none => exact Nat.zero_le _
  | some c => exact h.2 c (List.mem_of_getElem? e)

theorem ClampsOk.setClamp {s : State} (h : ClampsOk s) (n : Nat) {c : Clamp} (hc : c.owner ≤ 4) : ClampsOk (setClamp n c s) := by
  refine ⟨?_, ?_⟩
  · exact (setNth_length _ _ _).trans h.1
  · intro d hd
    rcases List.mem_or_eq_of_mem_set hd with hd | rfl
    · exact h.2 d hd
    · exact hc

theorem ClampsOk.releaseClamp {s : State} (h : ClampsOk s) (n : Nat) (forced : Bool) : ClampsOk (releaseClamp n forced s) :=
  ClampsOk.frame (h.setClamp n (Nat.zero_le _)) discardStaged_frame

theorem ClampsOk.releaseAllIn (snd : Sender) (l : List Nat) : ∀ {s : State}, ClampsOk s → ClampsOk (releaseAllIn snd l s) := by
  induction l with
  | nil => exact fun h => h
  | cons n l ih =>
    intro s h
    unfold Machine.releaseAllIn
    apply ih
    split
    · exact h.releaseClamp n true
    · exact h

theorem ClampsOk.releaseAll {s : State} (h : ClampsOk s) (snd : Sender) : ClampsOk (releaseAll snd s) :=
  ClampsOk.releaseAllIn snd _ h

/-- The winner of a clamp is one of the four senders. -/
theorem clampWinner_lt {ptr i : Nat} {l : List Sender} (h : clampWinner ptr l = some i) : i < 4 := by
  unfold clampWinner at h
  have := List.mem_of_find?_eq_some h
  simp at this
  omega

theorem ClampsOk.acquire {s : State} (h : ClampsOk s) (n : Nat) (readers : List Sender) : ClampsOk (acquire n readers s) := by
  unfold Machine.acquire
  extract_lets c
  split
  · exact h
  · rename_i i hi
    have := clampWinner_lt hi
    split
    · refine h.setClamp n ?_
      show i + 1 ≤ 4
      omega
    · exact h

theorem ClampsOk.portGone {s : State} (h : ClampsOk s) (p : Port) : ClampsOk (portGone p s) := by
  unfold Machine.portGone
  extract_lets y
  have hy : ClampsOk y := h.releaseAll _
  split
  · exact hy
  · exact (hy.frame event_frame).frame advanceInc_frame

theorem ClampsOk.volatileLoss {s : State} (h : ClampsOk s) : ClampsOk (volatileLoss s) := by
  unfold Machine.volatileLoss
  extract_lets +onlyGivenNames y
  have hy : ClampsOk y := ((h.releaseAll _).portGone _).portGone _
  clear_value y
  exact hy.of_clamps rfl

theorem ClampsOk.aoLoss (s : State) : ClampsOk (aoLoss s) := by
  refine ⟨by simp [Machine.aoLoss], ?_⟩
  intro c hc
  have : c = {} := by simpa [Machine.aoLoss] using hc
  subst this
  exact Nat.zero_le _

theorem ClampsOk.portDown {s : State} (h : ClampsOk s) (p : Port) : ClampsOk (portDown p s) := by
  unfold Machine.portDown
  extract_lets +onlyGivenNames a
  have ha : ClampsOk a := (h.frame orphan_frame).frame clearHoldings_frame
  clear_value a
  extract_lets +onlyGivenNames src b
  have hb : ClampsOk b := ha.frame State.setPort_frame
  clear_value b
  extract_lets +onlyGivenNames src c
  have hc : ClampsOk c := hb.frame State.setCxl_frame
  clear_value c
  refine ClampsOk.frame ?_ advanceInc_frame
  refine ClampsOk.releaseAll ?_ _
  exact hc.of_clamps rfl

theorem ClampsOk.linkLost {s : State} (h : ClampsOk s) (p : Port) : ClampsOk (linkLost p s) := by
  unfold Machine.linkLost
  split
  · exact h
  · exact (h.portDown p).frame event_frame

theorem ClampsOk.stopMp {s : State} (h : ClampsOk s) : ClampsOk (stopMp s) := by
  unfold Machine.stopMp
  refine ClampsOk.frame ?_ incCounter_frame
  refine ClampsOk.releaseAll ?_ .mp
  exact h.of_clamps rfl

theorem ClampsOk.shutOffNow {s : State} (h : ClampsOk s) (kind : Nat) : ClampsOk (shutOffNow kind s) := by
  unfold Machine.shutOffNow
  extract_lets +onlyGivenNames src a
  have ha : ClampsOk a := h.of_clamps rfl
  clear_value a
  extract_lets +onlyGivenNames b
  have hb : ClampsOk b := ((ha.frame keepCond_frame).frame setRails_frame).volatileLoss
  clear_value b
  refine ClampsOk.frame ?_ updateMode_frame
  exact hb.of_clamps rfl

theorem ClampsOk.startPowerDown {s : State} (h : ClampsOk s) (rail : Nat) : ClampsOk (startPowerDown rail s) := by
  unfold Machine.startPowerDown
  extract_lets +onlyGivenNames a
  have ha : ClampsOk a := (h.frame storeRepeat_frame).frame keepCond_frame
  clear_value a
  extract_lets +onlyGivenNames src b
  have hb : ClampsOk b := ClampsOk.volatileLoss (by exact ha.of_clamps rfl)
  clear_value b
  refine ClampsOk.frame ?_ updateMode_frame
  exact hb.of_clamps rfl

theorem ClampsOk.endScan {s : State} (h : ClampsOk s) : ClampsOk (endScan s) := by
  unfold Machine.endScan
  split
  · exact h.startPowerDown _
  · exact h

end Sys2Proof.Machine
end

