-- ==== Sys2Proof/Laws/FrameCxl.lean ====
section
/-! SUPPORT. The parts of the state that each operation of Machine/Cxl.lean may change; every other part it leaves
alone. -/

set_option linter.all false

namespace Sys2Proof.Machine

theorem cxlAns_frame {a0} {a1} {a2} {a3} {x : State} : OnlyChanges [.outs] x (cxlAns a0 a1 a2 a3 x) := by
  unfold cxlAns
  repeat' first
    | with_reducible assumption
    | with_reducible apply OnlyChanges.refl
    | with_reducible apply OnlyChanges.ite
    | (with_reducible apply OnlyChanges.step emit_frame; (on_goal 1 => decide))
    | split

theorem cxlVals_frame {a0} {a1} {a2} {a3} {x : State} : OnlyChanges [.outs] x (cxlVals a0 a1 a2 a3 x) := by
  unfold cxlVals
  repeat' first
    | with_reducible assumption
    | with_reducible apply OnlyChanges.refl
    | with_reducible apply OnlyChanges.ite
    | (with_reducible apply OnlyChanges.step cxlAns_frame; (on_goal 1 => decide))
    | split

theorem cxlCmd_frame {L : List Part} {f} {s x : State} (_ : partsWithin [] L = true) (hf : ∀ y, OnlyChanges L y (f y))
    (h0 : OnlyChanges L s x) : OnlyChanges L s (cxlCmd f x) := by
  refine h0.trans ?_
  unfold cxlCmd
  split
  · exact hf _
  · exact OnlyChanges.refl _ _

theorem execCxlBackgroundStatus_frame {a0} {x t : State} (h : execCxlBackgroundStatus a0 x = .next t) :
    OnlyChanges [.outs] x t := by
  unfold execCxlBackgroundStatus at h
  first
    | (injection h with h; subst h)
    | (split at h <;> (first | (injection h with h; subst h) | cases h))
  all_goals
    repeat' first
      | with_reducible assumption
      | with_reducible apply OnlyChanges.refl
      | with_reducible apply OnlyChanges.ite
      | (with_reducible apply OnlyChanges.step cxlVals_frame; (on_goal 1 => decide))
      | (with_reducible apply cxlCmd_frame; (on_goal 1 => decide))
      | with_reducible intro _
      | split

theorem cxlBackground_frame {L : List Part} {a0 a1 f} {s x : State} (hs : partsWithin [.cxlA, .cxlB, .outs] L = true) (hf : ∀ y, OnlyChanges L y (f y))
    (h0 : OnlyChanges L s x) : OnlyChanges L s (cxlBackground a0 a1 f x) := by
  refine h0.trans ?_
  unfold cxlBackground
  split
  · exact cxlAns_frame.widen (partsWithin_trans (by decide) hs)
  · exact (State.setCxl_frame.widen (partsWithin_trans (by decide) hs)).trans ((hf _).trans (cxlAns_frame.widen (partsWithin_trans (by decide) hs)))

theorem execCxlSetTimestamp_frame {a0} {a1} {x t : State} (h : execCxlSetTimestamp a0 a1 x = .next t) :
    OnlyChanges [.evr, .outs] x t := by
  unfold execCxlSetTimestamp at h
  first
    | (injection h with h; subst h)
    | (split at h <;> (first | (injection h with h; subst h) | cases h))
  all_goals
    repeat' first
      | with_reducible assumption
      | with_reducible apply OnlyChanges.refl
      | (extract_lets +onlyGivenNames y; guard_hyp y : State := Prod.snd _; subst y)
      | (extract_lets +onlyGivenNames y; guard_hyp y : State := _; apply OnlyChanges.cut y; (on_goal 1 => (unfold y; clear y)); (on_goal 2 => (intro hx; clear_value y)))
      | (extract_lets +onlyGivenNames y; guard_hyp y : _ × State := _; apply OnlyChanges.cutP y; (on_goal 1 => (unfold y; clear y)); (on_goal 2 => (intro hx; clear_value y)))
      | (extract_lets +onlyGivenNames y; guard_hyp y : _ × _ × State := _; apply OnlyChanges.cutPP y; (on_goal 1 => (unfold y; clear y)); (on_goal 2 => (intro hx; clear_value y)))
      | (extract_lets +onlyGivenNames y; guard_hyp y : Boxes := _; subst y)
      | (extract_lets +onlyGivenNames y; guard_hyp y : Power := _; subst y)
      | (extract_lets +onlyGivenNames y; guard_hyp y : Trans := _; subst y)
      | (extract_lets +onlyGivenNames y; guard_hyp y : Prot := _; subst y)
      | (extract_lets +onlyGivenNames y; guard_hyp y : Persist := _; subst y)
      | (extract_lets +onlyGivenNames y; guard_hyp y : Sgl := _; subst y)
      | (extract_lets +onlyGivenNames y; guard_hyp y : Sec := _; subst y)
      | (extract_lets +onlyGivenNames y; clear_value y)
      | extract_lets +onlyGivenNames y
      | with_reducible apply OnlyChanges.ite
      | (with_reducible apply cxlCmd_frame; (on_goal 1 => decide))
      | (with_reducible apply OnlyChanges.step cxlAns_frame; (on_goal 1 => decide))
      | with_reducible intro _
      | split
      | (with_reducible apply OnlyChanges.upd2; (on_goal 1 => decide))

theorem cxlMem_frame {L : List Part} {a0 a1 f} {s x : State} (hs : partsWithin [.outs] L = true) (hf : ∀ y, OnlyChanges L y (f y))
    (h0 : OnlyChanges L s x) : OnlyChanges L s (cxlMem a0 a1 f x) := by
  refine h0.trans ?_
  unfold cxlMem
  split
  · exact hf _
  · exact cxlAns_frame.widen (partsWithin_trans (by decide) hs)

theorem execCxlGetLsa_frame {a0} {a1} {a2} {x t : State} (h : execCxlGetLsa a0 a1 a2 x = .next t) :
    OnlyChanges [.outs] x t := by
  unfold execCxlGetLsa at h
  first
    | (injection h with h; subst h)
    | (split at h <;> (first | (injection h with h; subst h) | cases h))
  all_goals
    repeat' first
      | with_reducible assumption
      | with_reducible apply OnlyChanges.refl
      | (extract_lets +onlyGivenNames y; guard_hyp y : State := Prod.snd _; subst y)
      | (extract_lets +onlyGivenNames y; guard_hyp y : State := _; apply OnlyChanges.cut y; (on_goal 1 => (unfold y; clear y)); (on_goal 2 => (intro hx; clear_value y)))
      | (extract_lets +onlyGivenNames y; guard_hyp y : _ × State := _; apply OnlyChanges.cutP y; (on_goal 1 => (unfold y; clear y)); (on_goal 2 => (intro hx; clear_value y)))
      | (extract_lets +onlyGivenNames y; guard_hyp y : _ × _ × State := _; apply OnlyChanges.cutPP y; (on_goal 1 => (unfold y; clear y)); (on_goal 2 => (intro hx; clear_value y)))
      | (extract_lets +onlyGivenNames y; guard_hyp y : Boxes := _; subst y)
      | (extract_lets +onlyGivenNames y; guard_hyp y : Power := _; subst y)
      | (extract_lets +onlyGivenNames y; guard_hyp y : Trans := _; subst y)
      | (extract_lets +onlyGivenNames y; guard_hyp y : Prot := _; subst y)
      | (extract_lets +onlyGivenNames y; guard_hyp y : Persist := _; subst y)
      | (extract_lets +onlyGivenNames y; guard_hyp y : Sgl := _; subst y)
      | (extract_lets +onlyGivenNames y; guard_hyp y : Sec := _; subst y)
      | (extract_lets +onlyGivenNames y; clear_value y)
      | extract_lets +onlyGivenNames y
      | with_reducible apply OnlyChanges.ite
      | (with_reducible apply cxlMem_frame; (on_goal 1 => decide))
      | (with_reducible apply cxlCmd_frame; (on_goal 1 => decide))
      | (with_reducible apply OnlyChanges.step cxlAns_frame; (on_goal 1 => decide))
      | with_reducible intro _
      | split

theorem poisonTarget_frame {L : List Part} {a0 a1 a2 f} {s x : State} (hs : partsWithin [.outs] L = true) (hf : ∀ d y, OnlyChanges L y (f d y))
    (h0 : OnlyChanges L s x) : OnlyChanges L s (poisonTarget a0 a1 a2 f x) := by
  refine h0.trans ?_
  unfold poisonTarget
  split
  · exact cxlAns_frame.widen (partsWithin_trans (by decide) hs)
  · split
    · exact hf _ _
    · exact cxlAns_frame.widen (partsWithin_trans (by decide) hs)

theorem cxlClamp_frame {L : List Part} {a0 a1 a2 f} {s x : State} (hs : partsWithin [.outs] L = true) (hf : ∀ y, OnlyChanges L y (f y))
    (h0 : OnlyChanges L s x) : OnlyChanges L s (cxlClamp a0 a1 a2 f x) := by
  refine h0.trans ?_
  unfold cxlClamp
  split
  · exact hf _
  · exact cxlAns_frame.widen (partsWithin_trans (by decide) hs)

theorem execCxlScanMedia_frame {a0} {x t : State} (h : execCxlScanMedia a0 x = .next t) :
    OnlyChanges [.prot, .cxlA, .cxlB, .outs] x t := by
  unfold execCxlScanMedia at h
  first
    | (injection h with h; subst h)
    | (split at h <;> (first | (injection h with h; subst h) | cases h))
  all_goals
    repeat' first
      | with_reducible assumption
      | with_reducible apply OnlyChanges.refl
      | (extract_lets +onlyGivenNames y; guard_hyp y : State := Prod.snd _; subst y)
      | (extract_lets +onlyGivenNames y; guard_hyp y : State := _; apply OnlyChanges.cut y; (on_goal 1 => (unfold y; clear y)); (on_goal 2 => (intro hx; clear_value y)))
      | (extract_lets +onlyGivenNames y; guard_hyp y : _ × State := _; apply OnlyChanges.cutP y; (on_goal 1 => (unfold y; clear y)); (on_goal 2 => (intro hx; clear_value y)))
      | (extract_lets +onlyGivenNames y; guard_hyp y : _ × _ × State := _; apply OnlyChanges.cutPP y; (on_goal 1 => (unfold y; clear y)); (on_goal 2 => (intro hx; clear_value y)))
      | (extract_lets +onlyGivenNames y; guard_hyp y : Boxes := _; subst y)
      | (extract_lets +onlyGivenNames y; guard_hyp y : Power := _; subst y)
      | (extract_lets +onlyGivenNames y; guard_hyp y : Trans := _; subst y)
      | (extract_lets +onlyGivenNames y; guard_hyp y : Prot := _; subst y)
      | (extract_lets +onlyGivenNames y; guard_hyp y : Persist := _; subst y)
      | (extract_lets +onlyGivenNames y; guard_hyp y : Sgl := _; subst y)
      | (extract_lets +onlyGivenNames y; guard_hyp y : Sec := _; subst y)
      | (extract_lets +onlyGivenNames y; clear_value y)
      | extract_lets +onlyGivenNames y
      | with_reducible apply OnlyChanges.ite
      | (with_reducible apply cxlMem_frame; (on_goal 1 => decide))
      | (with_reducible apply cxlBackground_frame; (on_goal 1 => decide))
      | (with_reducible apply cxlClamp_frame; (on_goal 1 => decide))
      | (with_reducible apply cxlCmd_frame; (on_goal 1 => decide))
      | (with_reducible apply OnlyChanges.step cxlAns_frame; (on_goal 1 => decide))
      | with_reducible intro _
      | split
      | (with_reducible apply OnlyChanges.upd512; (on_goal 1 => decide); (on_goal 1 => (first | exact Or.inr (by with_reducible rfl) | exact Or.inl (by decide) | exact Or.inr rfl)))

theorem execCxlSetAlertConfig_frame {a0} {a1} {x t : State} (h : execCxlSetAlertConfig a0 a1 x = .next t) :
    OnlyChanges [.cxlA, .cxlB, .outs] x t := by
  unfold execCxlSetAlertConfig at h
  first
    | (injection h with h; subst h)
    | (split at h <;> (first | (injection h with h; subst h) | cases h))
  all_goals
    repeat' first
      | with_reducible assumption
      | with_reducible apply OnlyChanges.refl
      | (extract_lets +onlyGivenNames y; guard_hyp y : State := Prod.snd _; subst y)
      | (extract_lets +onlyGivenNames y; guard_hyp y : State := _; apply OnlyChanges.cut y; (on_goal 1 => (unfold y; clear y)); (on_goal 2 => (intro hx; clear_value y)))
      | (extract_lets +onlyGivenNames y; guard_hyp y : _ × State := _; apply OnlyChanges.cutP y; (on_goal 1 => (unfold y; clear y)); (on_goal 2 => (intro hx; clear_value y)))
      | (extract_lets +onlyGivenNames y; guard_hyp y : _ × _ × State := _; apply OnlyChanges.cutPP y; (on_goal 1 => (unfold y; clear y)); (on_goal 2 => (intro hx; clear_value y)))
      | (extract_lets +onlyGivenNames y; guard_hyp y : Boxes := _; subst y)
      | (extract_lets +onlyGivenNames y; guard_hyp y : Power := _; subst y)
      | (extract_lets +onlyGivenNames y; guard_hyp y : Trans := _; subst y)
      | (extract_lets +onlyGivenNames y; guard_hyp y : Prot := _; subst y)
      | (extract_lets +onlyGivenNames y; guard_hyp y : Persist := _; subst y)
      | (extract_lets +onlyGivenNames y; guard_hyp y : Sgl := _; subst y)
      | (extract_lets +onlyGivenNames y; guard_hyp y : Sec := _; subst y)
      | (extract_lets +onlyGivenNames y; clear_value y)
      | extract_lets +onlyGivenNames y
      | with_reducible apply OnlyChanges.ite
      | (with_reducible apply OnlyChanges.step State.setCxl_frame; (on_goal 1 => decide))
      | (with_reducible apply cxlCmd_frame; (on_goal 1 => decide))
      | (with_reducible apply OnlyChanges.step cxlAns_frame; (on_goal 1 => decide))
      | with_reducible intro _
      | split

theorem execCxlGetPoisonList_frame {a0} {a1} {a2} {x t : State} (h : execCxlGetPoisonList a0 a1 a2 x = .next t) :
    OnlyChanges [.outs] x t := by
  unfold execCxlGetPoisonList at h
  first
    | (injection h with h; subst h)
    | (split at h <;> (first | (injection h with h; subst h) | cases h))
  all_goals
    repeat' first
      | with_reducible assumption
      | with_reducible apply OnlyChanges.refl
      | (extract_lets +onlyGivenNames y; guard_hyp y : State := Prod.snd _; subst y)
      | (extract_lets +onlyGivenNames y; guard_hyp y : State := _; apply OnlyChanges.cut y; (on_goal 1 => (unfold y; clear y)); (on_goal 2 => (intro hx; clear_value y)))
      | (extract_lets +onlyGivenNames y; guard_hyp y : _ × State := _; apply OnlyChanges.cutP y; (on_goal 1 => (unfold y; clear y)); (on_goal 2 => (intro hx; clear_value y)))
      | (extract_lets +onlyGivenNames y; guard_hyp y : _ × _ × State := _; apply OnlyChanges.cutPP y; (on_goal 1 => (unfold y; clear y)); (on_goal 2 => (intro hx; clear_value y)))
      | (extract_lets +onlyGivenNames y; guard_hyp y : Boxes := _; subst y)
      | (extract_lets +onlyGivenNames y; guard_hyp y : Power := _; subst y)
      | (extract_lets +onlyGivenNames y; guard_hyp y : Trans := _; subst y)
      | (extract_lets +onlyGivenNames y; guard_hyp y : Prot := _; subst y)
      | (extract_lets +onlyGivenNames y; guard_hyp y : Persist := _; subst y)
      | (extract_lets +onlyGivenNames y; guard_hyp y : Sgl := _; subst y)
      | (extract_lets +onlyGivenNames y; guard_hyp y : Sec := _; subst y)
      | (extract_lets +onlyGivenNames y; clear_value y)
      | extract_lets +onlyGivenNames y
      | with_reducible apply OnlyChanges.ite
      | (with_reducible apply cxlMem_frame; (on_goal 1 => decide))
      | (with_reducible apply cxlCmd_frame; (on_goal 1 => decide))
      | (with_reducible apply OnlyChanges.step cxlAns_frame; (on_goal 1 => decide))
      | with_reducible intro _
      | split

theorem execCxlGetHealthInfo_frame {a0} {x t : State} (h : execCxlGetHealthInfo a0 x = .next t) :
    OnlyChanges [.outs] x t := by
  unfold execCxlGetHealthInfo at h
  first
    | (injection h with h; subst h)
    | (split at h <;> (first | (injection h with h; subst h) | cases h))
  all_goals
    repeat' first
      | with_reducible assumption
      | with_reducible apply OnlyChanges.refl
      | with_reducible apply OnlyChanges.ite
      | (with_reducible apply OnlyChanges.step cxlVals_frame; (on_goal 1 => decide))
      | (with_reducible apply cxlCmd_frame; (on_goal 1 => decide))
      | with_reducible intro _
      | split

theorem execCxlGetPartitionInfo_frame {a0} {x t : State} (h : execCxlGetPartitionInfo a0 x = .next t) :
    OnlyChanges [.outs] x t := by
  unfold execCxlGetPartitionInfo at h
  first
    | (injection h with h; subst h)
    | (split at h <;> (first | (injection h with h; subst h) | cases h))
  all_goals
    repeat' first
      | with_reducible assumption
      | with_reducible apply OnlyChanges.refl
      | with_reducible apply OnlyChanges.ite
      | (with_reducible apply cxlCmd_frame; (on_goal 1 => decide))
      | (with_reducible apply OnlyChanges.step cxlAns_frame; (on_goal 1 => decide))
      | with_reducible intro _
      | split

theorem execCxlGetFwInfo_frame {a0} {x t : State} (h : execCxlGetFwInfo a0 x = .next t) :
    OnlyChanges [.outs] x t := by
  unfold execCxlGetFwInfo at h
  first
    | (injection h with h; subst h)
    | (split at h <;> (first | (injection h with h; subst h) | cases h))
  all_goals
    repeat' first
      | with_reducible assumption
      | with_reducible apply OnlyChanges.refl
      | with_reducible apply OnlyChanges.ite
      | (with_reducible apply OnlyChanges.step cxlVals_frame; (on_goal 1 => decide))
      | (with_reducible apply cxlCmd_frame; (on_goal 1 => decide))
      | with_reducible intro _
      | split

theorem execCxlScanMediaCaps_frame {a0} {x t : State} (h : execCxlScanMediaCaps a0 x = .next t) :
    OnlyChanges [.outs] x t := by
  unfold execCxlScanMediaCaps at h
  first
    | (injection h with h; subst h)
    | (split at h <;> (first | (injection h with h; subst h) | cases h))
  all_goals
    repeat' first
      | with_reducible assumption
      | with_reducible apply OnlyChanges.refl
      | with_reducible apply OnlyChanges.ite
      | (with_reducible apply OnlyChanges.step cxlVals_frame; (on_goal 1 => decide))
      | (with_reducible apply cxlCmd_frame; (on_goal 1 => decide))
      | with_reducible intro _
      | split

theorem execCxlClearEventRecords_frame {a0} {a1} {a2} {x t : State} (h : execCxlClearEventRecords a0 a1 a2 x = .next t) :
    OnlyChanges [.cxlA, .cxlB, .outs] x t := by
  unfold execCxlClearEventRecords at h
  first
    | (injection h with h; subst h)
    | (split at h <;> (first | (injection h with h; subst h) | cases h))
  all_goals
    repeat' first
      | with_reducible assumption
      | with_reducible apply OnlyChanges.refl
      | (extract_lets +onlyGivenNames y; guard_hyp y : State := Prod.snd _; subst y)
      | (extract_lets +onlyGivenNames y; guard_hyp y : State := _; apply OnlyChanges.cut y; (on_goal 1 => (unfold y; clear y)); (on_goal 2 => (intro hx; clear_value y)))
      | (extract_lets +onlyGivenNames y; guard_hyp y : _ × State := _; apply OnlyChanges.cutP y; (on_goal 1 => (unfold y; clear y)); (on_goal 2 => (intro hx; clear_value y)))
      | (extract_lets +onlyGivenNames y; guard_hyp y : _ × _ × State := _; apply OnlyChanges.cutPP y; (on_goal 1 => (unfold y; clear y)); (on_goal 2 => (intro hx; clear_value y)))
      | (extract_lets +onlyGivenNames y; guard_hyp y : Boxes := _; subst y)
      | (extract_lets +onlyGivenNames y; guard_hyp y : Power := _; subst y)
      | (extract_lets +onlyGivenNames y; guard_hyp y : Trans := _; subst y)
      | (extract_lets +onlyGivenNames y; guard_hyp y : Prot := _; subst y)
      | (extract_lets +onlyGivenNames y; guard_hyp y : Persist := _; subst y)
      | (extract_lets +onlyGivenNames y; guard_hyp y : Sgl := _; subst y)
      | (extract_lets +onlyGivenNames y; guard_hyp y : Sec := _; subst y)
      | (extract_lets +onlyGivenNames y; clear_value y)
      | extract_lets +onlyGivenNames y
      | with_reducible apply OnlyChanges.ite
      | (with_reducible apply OnlyChanges.step State.setCxl_frame; (on_goal 1 => decide))
      | (with_reducible apply cxlCmd_frame; (on_goal 1 => decide))
      | (with_reducible apply OnlyChanges.step cxlAns_frame; (on_goal 1 => decide))
      | with_reducible intro _
      | split

theorem execCxlGetAlertConfig_frame {a0} {x t : State} (h : execCxlGetAlertConfig a0 x = .next t) :
    OnlyChanges [.outs] x t := by
  unfold execCxlGetAlertConfig at h
  first
    | (injection h with h; subst h)
    | (split at h <;> (first | (injection h with h; subst h) | cases h))
  all_goals
    repeat' first
      | with_reducible assumption
      | with_reducible apply OnlyChanges.refl
      | with_reducible apply OnlyChanges.ite
      | (with_reducible apply OnlyChanges.step cxlVals_frame; (on_goal 1 => decide))
      | (with_reducible apply cxlCmd_frame; (on_goal 1 => decide))
      | with_reducible intro _
      | split

theorem execCxlSetShutdownState_frame {a0} {a1} {x t : State} (h : execCxlSetShutdownState a0 a1 x = .next t) :
    OnlyChanges [.cxlA, .cxlB, .outs] x t := by
  unfold execCxlSetShutdownState at h
  first
    | (injection h with h; subst h)
    | (split at h <;> (first | (injection h with h; subst h) | cases h))
  all_goals
    repeat' first
      | with_reducible assumption
      | with_reducible apply OnlyChanges.refl
      | (extract_lets +onlyGivenNames y; guard_hyp y : State := Prod.snd _; subst y)
      | (extract_lets +onlyGivenNames y; guard_hyp y : State := _; apply OnlyChanges.cut y; (on_goal 1 => (unfold y; clear y)); (on_goal 2 => (intro hx; clear_value y)))
      | (extract_lets +onlyGivenNames y; guard_hyp y : _ × State := _; apply OnlyChanges.cutP y; (on_goal 1 => (unfold y; clear y)); (on_goal 2 => (intro hx; clear_value y)))
      | (extract_lets +onlyGivenNames y; guard_hyp y : _ × _ × State := _; apply OnlyChanges.cutPP y; (on_goal 1 => (unfold y; clear y)); (on_goal 2 => (intro hx; clear_value y)))
      | (extract_lets +onlyGivenNames y; guard_hyp y : Boxes := _; subst y)
      | (extract_lets +onlyGivenNames y; guard_hyp y : Power := _; subst y)
      | (extract_lets +onlyGivenNames y; guard_hyp y : Trans := _; subst y)
      | (extract_lets +onlyGivenNames y; guard_hyp y : Prot := _; subst y)
      | (extract_lets +onlyGivenNames y; guard_hyp y : Persist := _; subst y)
      | (extract_lets +onlyGivenNames y; guard_hyp y : Sgl := _; subst y)
      | (extract_lets +onlyGivenNames y; guard_hyp y : Sec := _; subst y)
      | (extract_lets +onlyGivenNames y; clear_value y)
      | extract_lets +onlyGivenNames y
      | with_reducible apply OnlyChanges.ite
      | (with_reducible apply OnlyChanges.step State.setCxl_frame; (on_goal 1 => decide))
      | (with_reducible apply cxlCmd_frame; (on_goal 1 => decide))
      | (with_reducible apply OnlyChanges.step cxlAns_frame; (on_goal 1 => decide))
      | with_reducible intro _
      | split

theorem cxlData_frame {a0} {a1} {x : State} : OnlyChangesP [.mb] x (cxlData a0 a1 x) := by
  unfold cxlData
  repeat' first
    | with_reducible assumption
    | with_reducible apply OnlyChanges.refl
    | (extract_lets +onlyGivenNames y; guard_hyp y : State := Prod.snd _; subst y)
    | (extract_lets +onlyGivenNames y; guard_hyp y : State := _; apply OnlyChangesP.cut y; (on_goal 1 => (unfold y; clear y)); (on_goal 2 => (intro hx; clear_value y)))
    | (extract_lets +onlyGivenNames y; guard_hyp y : _ × State := _; apply OnlyChangesP.cutP y; (on_goal 1 => (unfold y; clear y)); (on_goal 2 => (intro hx; clear_value y)))
    | (extract_lets +onlyGivenNames y; guard_hyp y : _ × _ × State := _; apply OnlyChangesP.cutPP y; (on_goal 1 => (unfold y; clear y)); (on_goal 2 => (intro hx; clear_value y)))
    | (extract_lets +onlyGivenNames y; guard_hyp y : Boxes := _; subst y)
    | (extract_lets +onlyGivenNames y; guard_hyp y : Power := _; subst y)
    | (extract_lets +onlyGivenNames y; guard_hyp y : Trans := _; subst y)
    | (extract_lets +onlyGivenNames y; guard_hyp y : Prot := _; subst y)
    | (extract_lets +onlyGivenNames y; guard_hyp y : Persist := _; subst y)
    | (extract_lets +onlyGivenNames y; guard_hyp y : Sgl := _; subst y)
    | (extract_lets +onlyGivenNames y; guard_hyp y : Sec := _; subst y)
    | (extract_lets +onlyGivenNames y; clear_value y)
    | extract_lets +onlyGivenNames y
    | with_reducible apply OnlyChanges.ite
    | with_reducible apply OnlyChangesP.ite
    | (with_reducible apply OnlyChangesP.step fwWrite_frame; (on_goal 1 => decide))
    | (with_reducible apply OnlyChangesP.snd fwWrite_frame; (on_goal 1 => decide))
    | (with_reducible apply OnlyChanges.ofPair; (on_goal 1 => assumption))
    | split
    | with_reducible apply OnlyChangesP.mk

theorem cxlEnd_frame {a0} {a1} {a2} {x : State} : OnlyChanges [.mb, .cxlA, .cxlB, .outs] x (cxlEnd a0 a1 a2 x) := by
  unfold cxlEnd
  repeat' first
    | with_reducible assumption
    | with_reducible apply OnlyChanges.refl
    | (extract_lets +onlyGivenNames y; guard_hyp y : State := Prod.snd _; subst y)
    | (extract_lets +onlyGivenNames y; guard_hyp y : State := _; apply OnlyChanges.cut y; (on_goal 1 => (unfold y; clear y)); (on_goal 2 => (intro hx; clear_value y)))
    | (extract_lets +onlyGivenNames y; guard_hyp y : _ × State := _; apply OnlyChanges.cutP y; (on_goal 1 => (unfold y; clear y)); (on_goal 2 => (intro hx; clear_value y)))
    | (extract_lets +onlyGivenNames y; guard_hyp y : _ × _ × State := _; apply OnlyChanges.cutPP y; (on_goal 1 => (unfold y; clear y)); (on_goal 2 => (intro hx; clear_value y)))
    | (extract_lets +onlyGivenNames y; guard_hyp y : Boxes := _; subst y)
    | (extract_lets +onlyGivenNames y; guard_hyp y : Power := _; subst y)
    | (extract_lets +onlyGivenNames y; guard_hyp y : Trans := _; subst y)
    | (extract_lets +onlyGivenNames y; guard_hyp y : Prot := _; subst y)
    | (extract_lets +onlyGivenNames y; guard_hyp y : Persist := _; subst y)
    | (extract_lets +onlyGivenNames y; guard_hyp y : Sgl := _; subst y)
    | (extract_lets +onlyGivenNames y; guard_hyp y : Sec := _; subst y)
    | (extract_lets +onlyGivenNames y; clear_value y)
    | extract_lets +onlyGivenNames y
    | with_reducible apply OnlyChanges.ite
    | (with_reducible apply cxlBackground_frame; (on_goal 1 => decide))
    | with_reducible apply OnlyChangesO.getD
    | (with_reducible apply OnlyChangesO.step fwStartCheck_frame; (on_goal 1 => decide))
    | (apply OnlyChangesO.ofSome (h := fwStartCheck_frame); (on_goal 1 => assumption); (on_goal 1 => decide))
    | (with_reducible apply OnlyChangesP.step cxlData_frame; (on_goal 1 => decide))
    | (with_reducible apply OnlyChangesP.snd cxlData_frame; (on_goal 1 => decide))
    | (with_reducible apply OnlyChanges.step cxlAns_frame; (on_goal 1 => decide))
    | (with_reducible apply OnlyChanges.ofPair; (on_goal 1 => assumption))
    | with_reducible intro _
    | split

theorem cxlOpen_frame {a0} {x : State} : OnlyChangesP [.mb] x (cxlOpen a0 x) := by
  unfold cxlOpen
  repeat' first
    | with_reducible assumption
    | with_reducible apply OnlyChanges.refl
    | (extract_lets +onlyGivenNames y; guard_hyp y : State := Prod.snd _; subst y)
    | (extract_lets +onlyGivenNames y; guard_hyp y : State := _; apply OnlyChangesP.cut y; (on_goal 1 => (unfold y; clear y)); (on_goal 2 => (intro hx; clear_value y)))
    | (extract_lets +onlyGivenNames y; guard_hyp y : _ × State := _; apply OnlyChangesP.cutP y; (on_goal 1 => (unfold y; clear y)); (on_goal 2 => (intro hx; clear_value y)))
    | (extract_lets +onlyGivenNames y; guard_hyp y : _ × _ × State := _; apply OnlyChangesP.cutPP y; (on_goal 1 => (unfold y; clear y)); (on_goal 2 => (intro hx; clear_value y)))
    | (extract_lets +onlyGivenNames y; guard_hyp y : Boxes := _; subst y)
    | (extract_lets +onlyGivenNames y; guard_hyp y : Power := _; subst y)
    | (extract_lets +onlyGivenNames y; guard_hyp y : Trans := _; subst y)
    | (extract_lets +onlyGivenNames y; guard_hyp y : Prot := _; subst y)
    | (extract_lets +onlyGivenNames y; guard_hyp y : Persist := _; subst y)
    | (extract_lets +onlyGivenNames y; guard_hyp y : Sgl := _; subst y)
    | (extract_lets +onlyGivenNames y; guard_hyp y : Sec := _; subst y)
    | (extract_lets +onlyGivenNames y; clear_value y)
    | extract_lets +onlyGivenNames y
    | with_reducible apply OnlyChanges.ite
    | with_reducible apply OnlyChangesP.ite
    | (with_reducible apply OnlyChangesP.step fwOpen_frame; (on_goal 1 => decide))
    | (with_reducible apply OnlyChangesP.snd fwOpen_frame; (on_goal 1 => decide))
    | (with_reducible apply OnlyChanges.ofPair; (on_goal 1 => assumption))
    | split
    | with_reducible apply OnlyChangesP.mk

theorem execCxlTransferFw_frame {a0} {a1} {a2} {a3} {a4} {x t : State} (h : execCxlTransferFw a0 a1 a2 a3 a4 x = .next t) :
    OnlyChanges [.mb, .cxlA, .cxlB, .outs] x t := by
  unfold execCxlTransferFw at h
  first
    | (injection h with h; subst h)
    | (split at h <;> (first | (injection h with h; subst h) | cases h))
  all_goals
    repeat' first
      | with_reducible assumption
      | with_reducible apply OnlyChanges.refl
      | (extract_lets +onlyGivenNames y; guard_hyp y : State := Prod.snd _; subst y)
      | (extract_lets +onlyGivenNames y; guard_hyp y : State := _; apply OnlyChanges.cut y; (on_goal 1 => (unfold y; clear y)); (on_goal 2 => (intro hx; clear_value y)))
      | (extract_lets +onlyGivenNames y; guard_hyp y : _ × State := _; apply OnlyChanges.cutP y; (on_goal 1 => (unfold y; clear y)); (on_goal 2 => (intro hx; clear_value y)))
      | (extract_lets +onlyGivenNames y; guard_hyp y : _ × _ × State := _; apply OnlyChanges.cutPP y; (on_goal 1 => (unfold y; clear y)); (on_goal 2 => (intro hx; clear_value y)))
      | (extract_lets +onlyGivenNames y; guard_hyp y : Boxes := _; subst y)
      | (extract_lets +onlyGivenNames y; guard_hyp y : Power := _; subst y)
      | (extract_lets +onlyGivenNames y; guard_hyp y : Trans := _; subst y)
      | (extract_lets +onlyGivenNames y; guard_hyp y : Prot := _; subst y)
      | (extract_lets +onlyGivenNames y; guard_hyp y : Persist := _; subst y)
      | (extract_lets +onlyGivenNames y; guard_hyp y : Sgl := _; subst y)
      | (extract_lets +onlyGivenNames y; guard_hyp y : Sec := _; subst y)
      | (extract_lets +onlyGivenNames y; clear_value y)
      | extract_lets +onlyGivenNames y
      | with_reducible apply OnlyChanges.ite
      | (with_reducible apply OnlyChanges.step cxlEnd_frame; (on_goal 1 => decide))
      | (with_reducible apply cxlClamp_frame; (on_goal 1 => decide))
      | (with_reducible apply OnlyChangesP.step cxlData_frame; (on_goal 1 => decide))
      | (with_reducible apply OnlyChangesP.snd cxlData_frame; (on_goal 1 => decide))
      | (with_reducible apply cxlCmd_frame; (on_goal 1 => decide))
      | (with_reducible apply OnlyChangesP.step cxlOpen_frame; (on_goal 1 => decide))
      | (with_reducible apply OnlyChangesP.snd cxlOpen_frame; (on_goal 1 => decide))
      | (with_reducible apply OnlyChanges.step cxlAns_frame; (on_goal 1 => decide))
      | (with_reducible apply OnlyChanges.step setSlot_frame; (on_goal 1 => decide))
      | (with_reducible apply OnlyChanges.ofPair; (on_goal 1 => assumption))
      | with_reducible intro _
      | split

theorem execCxlClearPoison_frame {a0} {a1} {a2} {x t : State} (h : execCxlClearPoison a0 a1 a2 x = .next t) :
    OnlyChanges [.evr, .pmc, .trb, .sched, .tr, .prot, .per, .ck, .cache, .dram, .coh, .fab, .portA, .portB, .cxlA, .cxlB, .sec, .freeCtr, .outs] x t := by
  unfold execCxlClearPoison at h
  first
    | (injection h with h; subst h)
    | (split at h <;> (first | (injection h with h; subst h) | cases h))
  all_goals
    repeat' first
      | with_reducible assumption
      | with_reducible apply OnlyChanges.refl
      | (extract_lets +onlyGivenNames y; guard_hyp y : State := Prod.snd _; subst y)
      | (extract_lets +onlyGivenNames y; guard_hyp y : State := _; apply OnlyChanges.cut y; (on_goal 1 => (unfold y; clear y)); (on_goal 2 => (intro hx; clear_value y)))
      | (extract_lets +onlyGivenNames y; guard_hyp y : _ × State := _; apply OnlyChanges.cutP y; (on_goal 1 => (unfold y; clear y)); (on_goal 2 => (intro hx; clear_value y)))
      | (extract_lets +onlyGivenNames y; guard_hyp y : _ × _ × State := _; apply OnlyChanges.cutPP y; (on_goal 1 => (unfold y; clear y)); (on_goal 2 => (intro hx; clear_value y)))
      | (extract_lets +onlyGivenNames y; guard_hyp y : Boxes := _; subst y)
      | (extract_lets +onlyGivenNames y; guard_hyp y : Power := _; subst y)
      | (extract_lets +onlyGivenNames y; guard_hyp y : Trans := _; subst y)
      | (extract_lets +onlyGivenNames y; guard_hyp y : Prot := _; subst y)
      | (extract_lets +onlyGivenNames y; guard_hyp y : Persist := _; subst y)
      | (extract_lets +onlyGivenNames y; guard_hyp y : Sgl := _; subst y)
      | (extract_lets +onlyGivenNames y; guard_hyp y : Sec := _; subst y)
      | (extract_lets +onlyGivenNames y; clear_value y)
      | extract_lets +onlyGivenNames y
      | with_reducible apply OnlyChanges.ite
      | (with_reducible apply poisonTarget_frame; (on_goal 1 => decide))
      | (with_reducible apply cxlMem_frame; (on_goal 1 => decide))
      | (with_reducible apply OnlyChanges.step remoteRequest_frame; (on_goal 1 => decide))
      | (with_reducible apply cxlCmd_frame; (on_goal 1 => decide))
      | (with_reducible apply OnlyChanges.step localRequest_frame; (on_goal 1 => decide))
      | with_reducible intro _
      | split

theorem execCxlGetSupportedLogs_frame {a0} {x t : State} (h : execCxlGetSupportedLogs a0 x = .next t) :
    OnlyChanges [.outs] x t := by
  unfold execCxlGetSupportedLogs at h
  first
    | (injection h with h; subst h)
    | (split at h <;> (first | (injection h with h; subst h) | cases h))
  all_goals
    repeat' first
      | with_reducible assumption
      | with_reducible apply OnlyChanges.refl
      | with_reducible apply OnlyChanges.ite
      | (with_reducible apply OnlyChanges.step cxlVals_frame; (on_goal 1 => decide))
      | (with_reducible apply cxlCmd_frame; (on_goal 1 => decide))
      | with_reducible intro _
      | split

theorem execCxlGetEventRecords_frame {a0} {a1} {x t : State} (h : execCxlGetEventRecords a0 a1 x = .next t) :
    OnlyChanges [.outs] x t := by
  unfold execCxlGetEventRecords at h
  first
    | (injection h with h; subst h)
    | (split at h <;> (first | (injection h with h; subst h) | cases h))
  all_goals
    repeat' first
      | with_reducible assumption
      | with_reducible apply OnlyChanges.refl
      | with_reducible apply OnlyChanges.ite
      | (with_reducible apply cxlCmd_frame; (on_goal 1 => decide))
      | (with_reducible apply OnlyChanges.step cxlAns_frame; (on_goal 1 => decide))
      | with_reducible intro _
      | split

theorem execCxlSetLsa_frame {a0} {a1} {a2} {x t : State} (h : execCxlSetLsa a0 a1 a2 x = .next t) :
    OnlyChanges [.per, .cxlA, .cxlB, .outs] x t := by
  unfold execCxlSetLsa at h
  first
    | (injection h with h; subst h)
    | (split at h <;> (first | (injection h with h; subst h) | cases h))
  all_goals
    repeat' first
      | with_reducible assumption
      | with_reducible apply OnlyChanges.refl
      | (extract_lets +onlyGivenNames y; guard_hyp y : State := Prod.snd _; subst y)
      | (extract_lets +onlyGivenNames y; guard_hyp y : State := _; apply OnlyChanges.cut y; (on_goal 1 => (unfold y; clear y)); (on_goal 2 => (intro hx; clear_value y)))
      | (extract_lets +onlyGivenNames y; guard_hyp y : _ × State := _; apply OnlyChanges.cutP y; (on_goal 1 => (unfold y; clear y)); (on_goal 2 => (intro hx; clear_value y)))
      | (extract_lets +onlyGivenNames y; guard_hyp y : _ × _ × State := _; apply OnlyChanges.cutPP y; (on_goal 1 => (unfold y; clear y)); (on_goal 2 => (intro hx; clear_value y)))
      | (extract_lets +onlyGivenNames y; guard_hyp y : Boxes := _; subst y)
      | (extract_lets +onlyGivenNames y; guard_hyp y : Power := _; subst y)
      | (extract_lets +onlyGivenNames y; guard_hyp y : Trans := _; subst y)
      | (extract_lets +onlyGivenNames y; guard_hyp y : Prot := _; subst y)
      | (extract_lets +onlyGivenNames y; guard_hyp y : Persist := _; subst y)
      | (extract_lets +onlyGivenNames y; guard_hyp y : Sgl := _; subst y)
      | (extract_lets +onlyGivenNames y; guard_hyp y : Sec := _; subst y)
      | (extract_lets +onlyGivenNames y; clear_value y)
      | extract_lets +onlyGivenNames y
      | with_reducible apply OnlyChanges.ite
      | (with_reducible apply cxlMem_frame; (on_goal 1 => decide))
      | (with_reducible apply OnlyChanges.step State.setCxl_frame; (on_goal 1 => decide))
      | (with_reducible apply cxlCmd_frame; (on_goal 1 => decide))
      | (with_reducible apply OnlyChanges.step cxlAns_frame; (on_goal 1 => decide))
      | with_reducible intro _
      | split
      | (with_reducible apply OnlyChanges.upd1024; (on_goal 1 => decide); (on_goal 1 => (first | exact Or.inr (by with_reducible rfl) | exact Or.inl (by decide) | exact Or.inr rfl)))

theorem cxlErase_frame {a0} {a1} {a2} {x : State} : OnlyChanges [.mb, .fab, .cxlA, .cxlB, .sec, .outs, .kids] x (cxlErase a0 a1 a2 x) := by
  unfold cxlErase
  repeat' first
    | with_reducible assumption
    | with_reducible apply OnlyChanges.refl
    | with_reducible apply OnlyChanges.ite
    | (with_reducible apply OnlyChanges.step startSanitize_frame; (on_goal 1 => decide))
    | (with_reducible apply cxlBackground_frame; (on_goal 1 => decide))
    | (with_reducible apply OnlyChanges.step cxlAns_frame; (on_goal 1 => decide))
    | with_reducible intro _
    | split

theorem execCxlGetLog_frame {a0} {x t : State} (h : execCxlGetLog a0 x = .next t) :
    OnlyChanges [.outs] x t := by
  unfold execCxlGetLog at h
  first
    | (injection h with h; subst h)
    | (split at h <;> (first | (injection h with h; subst h) | cases h))
  all_goals
    repeat' first
      | with_reducible assumption
      | with_reducible apply OnlyChanges.refl
      | with_reducible apply OnlyChanges.ite
      | (with_reducible apply OnlyChanges.step cxlVals_frame; (on_goal 1 => decide))
      | (with_reducible apply cxlCmd_frame; (on_goal 1 => decide))
      | with_reducible intro _
      | split

theorem execCxlSecureErase_frame {a0} {x t : State} (h : execCxlSecureErase a0 x = .next t) :
    OnlyChanges [.mb, .fab, .cxlA, .cxlB, .sec, .outs, .kids] x t := by
  unfold execCxlSecureErase at h
  first
    | (injection h with h; subst h)
    | (split at h <;> (first | (injection h with h; subst h) | cases h))
  all_goals
    repeat' first
      | with_reducible assumption
      | with_reducible apply OnlyChanges.refl
      | with_reducible apply OnlyChanges.ite
      | (with_reducible apply OnlyChanges.step cxlErase_frame; (on_goal 1 => decide))
      | (with_reducible apply cxlClamp_frame; (on_goal 1 => decide))
      | (with_reducible apply cxlCmd_frame; (on_goal 1 => decide))
      | with_reducible intro _
      | split

theorem execCxlInjectPoison_frame {a0} {a1} {x t : State} (h : execCxlInjectPoison a0 a1 x = .next t) :
    OnlyChanges [.evr, .pmc, .trb, .tr, .prot, .per, .ck, .cache, .dram, .coh, .fab, .portA, .portB, .cxlA, .cxlB, .freeCtr, .outs] x t := by
  unfold execCxlInjectPoison at h
  first
    | (injection h with h; subst h)
    | (split at h <;> (first | (injection h with h; subst h) | cases h))
  all_goals
    repeat' first
      | with_reducible assumption
      | with_reducible apply OnlyChanges.refl
      | (extract_lets +onlyGivenNames y; guard_hyp y : State := Prod.snd _; subst y)
      | (extract_lets +onlyGivenNames y; guard_hyp y : State := _; apply OnlyChanges.cut y; (on_goal 1 => (unfold y; clear y)); (on_goal 2 => (intro hx; clear_value y)))
      | (extract_lets +onlyGivenNames y; guard_hyp y : _ × State := _; apply OnlyChanges.cutP y; (on_goal 1 => (unfold y; clear y)); (on_goal 2 => (intro hx; clear_value y)))
      | (extract_lets +onlyGivenNames y; guard_hyp y : _ × _ × State := _; apply OnlyChanges.cutPP y; (on_goal 1 => (unfold y; clear y)); (on_goal 2 => (intro hx; clear_value y)))
      | (extract_lets +onlyGivenNames y; guard_hyp y : Boxes := _; subst y)
      | (extract_lets +onlyGivenNames y; guard_hyp y : Power := _; subst y)
      | (extract_lets +onlyGivenNames y; guard_hyp y : Trans := _; subst y)
      | (extract_lets +onlyGivenNames y; guard_hyp y : Prot := _; subst y)
      | (extract_lets +onlyGivenNames y; guard_hyp y : Persist := _; subst y)
      | (extract_lets +onlyGivenNames y; guard_hyp y : Sgl := _; subst y)
      | (extract_lets +onlyGivenNames y; guard_hyp y : Sec := _; subst y)
      | (extract_lets +onlyGivenNames y; clear_value y)
      | extract_lets +onlyGivenNames y
      | with_reducible apply OnlyChanges.ite
      | (with_reducible apply poisonTarget_frame; (on_goal 1 => decide))
      | (with_reducible apply cxlMem_frame; (on_goal 1 => decide))
      | (with_reducible apply OnlyChanges.step remoteRequest_frame; (on_goal 1 => decide))
      | (with_reducible apply OnlyChanges.step poisonHome_frame; (on_goal 1 => decide))
      | (with_reducible apply cxlCmd_frame; (on_goal 1 => decide))
      | (with_reducible apply OnlyChanges.step cxlAns_frame; (on_goal 1 => decide))
      | with_reducible intro _
      | split

theorem execCxlIdentifyMemoryDevice_frame {a0} {x t : State} (h : execCxlIdentifyMemoryDevice a0 x = .next t) :
    OnlyChanges [.outs] x t := by
  unfold execCxlIdentifyMemoryDevice at h
  first
    | (injection h with h; subst h)
    | (split at h <;> (first | (injection h with h; subst h) | cases h))
  all_goals
    repeat' first
      | with_reducible assumption
      | with_reducible apply OnlyChanges.refl
      | with_reducible apply OnlyChanges.ite
      | (with_reducible apply OnlyChanges.step cxlVals_frame; (on_goal 1 => decide))
      | (with_reducible apply cxlCmd_frame; (on_goal 1 => decide))
      | with_reducible intro _
      | split

theorem execCxlActivateFw_frame {a0} {a1} {a2} {x t : State} (h : execCxlActivateFw a0 a1 a2 x = .next t) :
    OnlyChanges [.pst, .mb, .cache, .portA, .portB, .cxlA, .cxlB, .outs, .clamps] x t := by
  unfold execCxlActivateFw at h
  first
    | (injection h with h; subst h)
    | (split at h <;> (first | (injection h with h; subst h) | cases h))
  all_goals
    repeat' first
      | with_reducible assumption
      | with_reducible apply OnlyChanges.refl
      | (extract_lets +onlyGivenNames y; guard_hyp y : State := Prod.snd _; subst y)
      | (extract_lets +onlyGivenNames y; guard_hyp y : State := _; apply OnlyChanges.cut y; (on_goal 1 => (unfold y; clear y)); (on_goal 2 => (intro hx; clear_value y)))
      | (extract_lets +onlyGivenNames y; guard_hyp y : _ × State := _; apply OnlyChanges.cutP y; (on_goal 1 => (unfold y; clear y)); (on_goal 2 => (intro hx; clear_value y)))
      | (extract_lets +onlyGivenNames y; guard_hyp y : _ × _ × State := _; apply OnlyChanges.cutPP y; (on_goal 1 => (unfold y; clear y)); (on_goal 2 => (intro hx; clear_value y)))
      | (extract_lets +onlyGivenNames y; guard_hyp y : Boxes := _; subst y)
      | (extract_lets +onlyGivenNames y; guard_hyp y : Power := _; subst y)
      | (extract_lets +onlyGivenNames y; guard_hyp y : Trans := _; subst y)
      | (extract_lets +onlyGivenNames y; guard_hyp y : Prot := _; subst y)
      | (extract_lets +onlyGivenNames y; guard_hyp y : Persist := _; subst y)
      | (extract_lets +onlyGivenNames y; guard_hyp y : Sgl := _; subst y)
      | (extract_lets +onlyGivenNames y; guard_hyp y : Sec := _; subst y)
      | (extract_lets +onlyGivenNames y; clear_value y)
      | extract_lets +onlyGivenNames y
      | with_reducible apply OnlyChanges.ite
      | (with_reducible apply OnlyChanges.step State.setCxl_frame; (on_goal 1 => decide))
      | (with_reducible apply OnlyChanges.step fwSwitch_frame; (on_goal 1 => decide))
      | (with_reducible apply cxlClamp_frame; (on_goal 1 => decide))
      | (with_reducible apply cxlCmd_frame; (on_goal 1 => decide))
      | (with_reducible apply OnlyChanges.step cxlAns_frame; (on_goal 1 => decide))
      | with_reducible intro _
      | split

theorem execCxlGetShutdownState_frame {a0} {x t : State} (h : execCxlGetShutdownState a0 x = .next t) :
    OnlyChanges [.outs] x t := by
  unfold execCxlGetShutdownState at h
  first
    | (injection h with h; subst h)
    | (split at h <;> (first | (injection h with h; subst h) | cases h))
  all_goals
    repeat' first
      | with_reducible assumption
      | with_reducible apply OnlyChanges.refl
      | with_reducible apply OnlyChanges.ite
      | (with_reducible apply cxlCmd_frame; (on_goal 1 => decide))
      | (with_reducible apply OnlyChanges.step cxlAns_frame; (on_goal 1 => decide))
      | with_reducible intro _
      | split

theorem execCxlGetEventIntPolicy_frame {a0} {x t : State} (h : execCxlGetEventIntPolicy a0 x = .next t) :
    OnlyChanges [.outs] x t := by
  unfold execCxlGetEventIntPolicy at h
  first
    | (injection h with h; subst h)
    | (split at h <;> (first | (injection h with h; subst h) | cases h))
  all_goals
    repeat' first
      | with_reducible assumption
      | with_reducible apply OnlyChanges.refl
      | with_reducible apply OnlyChanges.ite
      | (with_reducible apply OnlyChanges.step cxlVals_frame; (on_goal 1 => decide))
      | (with_reducible apply cxlCmd_frame; (on_goal 1 => decide))
      | with_reducible intro _
      | split

theorem execCxlIdentify_frame {a0} {x t : State} (h : execCxlIdentify a0 x = .next t) :
    OnlyChanges [.outs] x t := by
  unfold execCxlIdentify at h
  first
    | (injection h with h; subst h)
    | (split at h <;> (first | (injection h with h; subst h) | cases h))
  all_goals
    repeat' first
      | with_reducible assumption
      | with_reducible apply OnlyChanges.refl
      | with_reducible apply OnlyChanges.ite
      | (with_reducible apply cxlCmd_frame; (on_goal 1 => decide))
      | (with_reducible apply OnlyChanges.step cxlAns_frame; (on_goal 1 => decide))
      | with_reducible intro _
      | split

theorem execCxlScanMediaResults_frame {a0} {x t : State} (h : execCxlScanMediaResults a0 x = .next t) :
    OnlyChanges [.outs] x t := by
  unfold execCxlScanMediaResults at h
  first
    | (injection h with h; subst h)
    | (split at h <;> (first | (injection h with h; subst h) | cases h))
  all_goals
    repeat' first
      | with_reducible assumption
      | with_reducible apply OnlyChanges.refl
      | with_reducible apply OnlyChanges.ite
      | (with_reducible apply cxlMem_frame; (on_goal 1 => decide))
      | (with_reducible apply cxlCmd_frame; (on_goal 1 => decide))
      | (with_reducible apply OnlyChanges.step cxlAns_frame; (on_goal 1 => decide))
      | with_reducible intro _
      | split

theorem execCxlSanitize_frame {a0} {x t : State} (h : execCxlSanitize a0 x = .next t) :
    OnlyChanges [.mb, .fab, .cxlA, .cxlB, .sec, .outs, .kids] x t := by
  unfold execCxlSanitize at h
  first
    | (injection h with h; subst h)
    | (split at h <;> (first | (injection h with h; subst h) | cases h))
  all_goals
    repeat' first
      | with_reducible assumption
      | with_reducible apply OnlyChanges.refl
      | with_reducible apply OnlyChanges.ite
      | (with_reducible apply OnlyChanges.step cxlErase_frame; (on_goal 1 => decide))
      | (with_reducible apply cxlClamp_frame; (on_goal 1 => decide))
      | (with_reducible apply cxlCmd_frame; (on_goal 1 => decide))
      | with_reducible intro _
      | split

theorem execCxlGetTimestamp_frame {a0} {x t : State} (h : execCxlGetTimestamp a0 x = .next t) :
    OnlyChanges [.outs] x t := by
  unfold execCxlGetTimestamp at h
  first
    | (injection h with h; subst h)
    | (split at h <;> (first | (injection h with h; subst h) | cases h))
  all_goals
    repeat' first
      | with_reducible assumption
      | with_reducible apply OnlyChanges.refl
      | with_reducible apply OnlyChanges.ite
      | (with_reducible apply OnlyChanges.step cxlVals_frame; (on_goal 1 => decide))
      | (with_reducible apply cxlCmd_frame; (on_goal 1 => decide))
      | with_reducible intro _
      | split

theorem execCxlSetEventIntPolicy_frame {a0} {a1} {x t : State} (h : execCxlSetEventIntPolicy a0 a1 x = .next t) :
    OnlyChanges [.cxlA, .cxlB, .outs] x t := by
  unfold execCxlSetEventIntPolicy at h
  first
    | (injection h with h; subst h)
    | (split at h <;> (first | (injection h with h; subst h) | cases h))
  all_goals
    repeat' first
      | with_reducible assumption
      | with_reducible apply OnlyChanges.refl
      | (extract_lets +onlyGivenNames y; guard_hyp y : State := Prod.snd _; subst y)
      | (extract_lets +onlyGivenNames y; guard_hyp y : State := _; apply OnlyChanges.cut y; (on_goal 1 => (unfold y; clear y)); (on_goal 2 => (intro hx; clear_value y)))
      | (extract_lets +onlyGivenNames y; guard_hyp y : _ × State := _; apply OnlyChanges.cutP y; (on_goal 1 => (unfold y; clear y)); (on_goal 2 => (intro hx; clear_value y)))
      | (extract_lets +onlyGivenNames y; guard_hyp y : _ × _ × State := _; apply OnlyChanges.cutPP y; (on_goal 1 => (unfold y; clear y)); (on_goal 2 => (intro hx; clear_value y)))
      | (extract_lets +onlyGivenNames y; guard_hyp y : Boxes := _; subst y)
      | (extract_lets +onlyGivenNames y; guard_hyp y : Power := _; subst y)
      | (extract_lets +onlyGivenNames y; guard_hyp y : Trans := _; subst y)
      | (extract_lets +onlyGivenNames y; guard_hyp y : Prot := _; subst y)
      | (extract_lets +onlyGivenNames y; guard_hyp y : Persist := _; subst y)
      | (extract_lets +onlyGivenNames y; guard_hyp y : Sgl := _; subst y)
      | (extract_lets +onlyGivenNames y; guard_hyp y : Sec := _; subst y)
      | (extract_lets +onlyGivenNames y; clear_value y)
      | extract_lets +onlyGivenNames y
      | with_reducible apply OnlyChanges.ite
      | (with_reducible apply OnlyChanges.step State.setCxl_frame; (on_goal 1 => decide))
      | (with_reducible apply cxlCmd_frame; (on_goal 1 => decide))
      | (with_reducible apply OnlyChanges.step cxlAns_frame; (on_goal 1 => decide))
      | with_reducible intro _
      | split

end Sys2Proof.Machine
end

