-- ==== Sys2Proof/Laws/State.lean ====
section
/-! SUPPORT. What the named updates of the state leave in each field, one lemma a field. -/

set_option linter.all false

namespace Sys2Proof.Machine

/-! ### emit -/

@[simp] theorem emit_outs (o : Output) (s : State) : (emit o s).outs = s.outs ++ [o] := rfl
@[simp] theorem emit_pw (o : Output) (s : State) : (emit o s).pw = s.pw := rfl
@[simp] theorem emit_evr (o : Output) (s : State) : (emit o s).evr = s.evr := rfl
@[simp] theorem emit_pst (o : Output) (s : State) : (emit o s).pst = s.pst := rfl
@[simp] theorem emit_pmc (o : Output) (s : State) : (emit o s).pmc = s.pmc := rfl
@[simp] theorem emit_trb (o : Output) (s : State) : (emit o s).trb = s.trb := rfl
@[simp] theorem emit_mb (o : Output) (s : State) : (emit o s).mb = s.mb := rfl
@[simp] theorem emit_sched (o : Output) (s : State) : (emit o s).sched = s.sched := rfl
@[simp] theorem emit_tr (o : Output) (s : State) : (emit o s).tr = s.tr := rfl
@[simp] theorem emit_dr (o : Output) (s : State) : (emit o s).dr = s.dr := rfl
@[simp] theorem emit_prot (o : Output) (s : State) : (emit o s).prot = s.prot := rfl
@[simp] theorem emit_per (o : Output) (s : State) : (emit o s).per = s.per := rfl
@[simp] theorem emit_ck (o : Output) (s : State) : (emit o s).ck = s.ck := rfl
@[simp] theorem emit_cache (o : Output) (s : State) : (emit o s).cache = s.cache := rfl
@[simp] theorem emit_dram (o : Output) (s : State) : (emit o s).dram = s.dram := rfl
@[simp] theorem emit_coh (o : Output) (s : State) : (emit o s).coh = s.coh := rfl
@[simp] theorem emit_sgl (o : Output) (s : State) : (emit o s).sgl = s.sgl := rfl
@[simp] theorem emit_fab (o : Output) (s : State) : (emit o s).fab = s.fab := rfl
@[simp] theorem emit_portA (o : Output) (s : State) : (emit o s).portA = s.portA := rfl
@[simp] theorem emit_portB (o : Output) (s : State) : (emit o s).portB = s.portB := rfl
@[simp] theorem emit_cxlA (o : Output) (s : State) : (emit o s).cxlA = s.cxlA := rfl
@[simp] theorem emit_cxlB (o : Output) (s : State) : (emit o s).cxlB = s.cxlB := rfl
@[simp] theorem emit_sec (o : Output) (s : State) : (emit o s).sec = s.sec := rfl
@[simp] theorem emit_thm (o : Output) (s : State) : (emit o s).thm = s.thm := rfl
@[simp] theorem emit_mtr (o : Output) (s : State) : (emit o s).mtr = s.mtr := rfl
@[simp] theorem emit_now (o : Output) (s : State) : (emit o s).now = s.now := rfl
@[simp] theorem emit_freeCtr (o : Output) (s : State) : (emit o s).freeCtr = s.freeCtr := rfl
@[simp] theorem emit_pending (o : Output) (s : State) : (emit o s).pending = s.pending := rfl

/-! ### modBox -/

@[simp] theorem modBox_mb (b : BoxId) (f : Box → Box) (s : State) : (modBox b f s).mb = { s.mb with boxes := setNth s.mb.boxes b.ix (f (boxOf s b)) } := rfl
@[simp] theorem modBox_pw (b : BoxId) (f : Box → Box) (s : State) : (modBox b f s).pw = s.pw := rfl
@[simp] theorem modBox_evr (b : BoxId) (f : Box → Box) (s : State) : (modBox b f s).evr = s.evr := rfl
@[simp] theorem modBox_pst (b : BoxId) (f : Box → Box) (s : State) : (modBox b f s).pst = s.pst := rfl
@[simp] theorem modBox_pmc (b : BoxId) (f : Box → Box) (s : State) : (modBox b f s).pmc = s.pmc := rfl
@[simp] theorem modBox_trb (b : BoxId) (f : Box → Box) (s : State) : (modBox b f s).trb = s.trb := rfl
@[simp] theorem modBox_sched (b : BoxId) (f : Box → Box) (s : State) : (modBox b f s).sched = s.sched := rfl
@[simp] theorem modBox_tr (b : BoxId) (f : Box → Box) (s : State) : (modBox b f s).tr = s.tr := rfl
@[simp] theorem modBox_dr (b : BoxId) (f : Box → Box) (s : State) : (modBox b f s).dr = s.dr := rfl
@[simp] theorem modBox_prot (b : BoxId) (f : Box → Box) (s : State) : (modBox b f s).prot = s.prot := rfl
@[simp] theorem modBox_per (b : BoxId) (f : Box → Box) (s : State) : (modBox b f s).per = s.per := rfl
@[simp] theorem modBox_ck (b : BoxId) (f : Box → Box) (s : State) : (modBox b f s).ck = s.ck := rfl
@[simp] theorem modBox_cache (b : BoxId) (f : Box → Box) (s : State) : (modBox b f s).cache = s.cache := rfl
@[simp] theorem modBox_dram (b : BoxId) (f : Box → Box) (s : State) : (modBox b f s).dram = s.dram := rfl
@[simp] theorem modBox_coh (b : BoxId) (f : Box → Box) (s : State) : (modBox b f s).coh = s.coh := rfl
@[simp] theorem modBox_sgl (b : BoxId) (f : Box → Box) (s : State) : (modBox b f s).sgl = s.sgl := rfl
@[simp] theorem modBox_fab (b : BoxId) (f : Box → Box) (s : State) : (modBox b f s).fab = s.fab := rfl
@[simp] theorem modBox_portA (b : BoxId) (f : Box → Box) (s : State) : (modBox b f s).portA = s.portA := rfl
@[simp] theorem modBox_portB (b : BoxId) (f : Box → Box) (s : State) : (modBox b f s).portB = s.portB := rfl
@[simp] theorem modBox_cxlA (b : BoxId) (f : Box → Box) (s : State) : (modBox b f s).cxlA = s.cxlA := rfl
@[simp] theorem modBox_cxlB (b : BoxId) (f : Box → Box) (s : State) : (modBox b f s).cxlB = s.cxlB := rfl
@[simp] theorem modBox_sec (b : BoxId) (f : Box → Box) (s : State) : (modBox b f s).sec = s.sec := rfl
@[simp] theorem modBox_thm (b : BoxId) (f : Box → Box) (s : State) : (modBox b f s).thm = s.thm := rfl
@[simp] theorem modBox_mtr (b : BoxId) (f : Box → Box) (s : State) : (modBox b f s).mtr = s.mtr := rfl
@[simp] theorem modBox_now (b : BoxId) (f : Box → Box) (s : State) : (modBox b f s).now = s.now := rfl
@[simp] theorem modBox_freeCtr (b : BoxId) (f : Box → Box) (s : State) : (modBox b f s).freeCtr = s.freeCtr := rfl
@[simp] theorem modBox_outs (b : BoxId) (f : Box → Box) (s : State) : (modBox b f s).outs = s.outs := rfl
@[simp] theorem modBox_pending (b : BoxId) (f : Box → Box) (s : State) : (modBox b f s).pending = s.pending := rfl

/-! ### modSgl -/

@[simp] theorem modSgl_sgl (p : Nat) (f : SglPort → SglPort) (s : State) : (modSgl p f s).sgl = { s.sgl with ports := setNth s.sgl.ports p (f (sglAt s p)) } := rfl
@[simp] theorem modSgl_pw (p : Nat) (f : SglPort → SglPort) (s : State) : (modSgl p f s).pw = s.pw := rfl
@[simp] theorem modSgl_evr (p : Nat) (f : SglPort → SglPort) (s : State) : (modSgl p f s).evr = s.evr := rfl
@[simp] theorem modSgl_pst (p : Nat) (f : SglPort → SglPort) (s : State) : (modSgl p f s).pst = s.pst := rfl
@[simp] theorem modSgl_pmc (p : Nat) (f : SglPort → SglPort) (s : State) : (modSgl p f s).pmc = s.pmc := rfl
@[simp] theorem modSgl_trb (p : Nat) (f : SglPort → SglPort) (s : State) : (modSgl p f s).trb = s.trb := rfl
@[simp] theorem modSgl_mb (p : Nat) (f : SglPort → SglPort) (s : State) : (modSgl p f s).mb = s.mb := rfl
@[simp] theorem modSgl_sched (p : Nat) (f : SglPort → SglPort) (s : State) : (modSgl p f s).sched = s.sched := rfl
@[simp] theorem modSgl_tr (p : Nat) (f : SglPort → SglPort) (s : State) : (modSgl p f s).tr = s.tr := rfl
@[simp] theorem modSgl_dr (p : Nat) (f : SglPort → SglPort) (s : State) : (modSgl p f s).dr = s.dr := rfl
@[simp] theorem modSgl_prot (p : Nat) (f : SglPort → SglPort) (s : State) : (modSgl p f s).prot = s.prot := rfl
@[simp] theorem modSgl_per (p : Nat) (f : SglPort → SglPort) (s : State) : (modSgl p f s).per = s.per := rfl
@[simp] theorem modSgl_ck (p : Nat) (f : SglPort → SglPort) (s : State) : (modSgl p f s).ck = s.ck := rfl
@[simp] theorem modSgl_cache (p : Nat) (f : SglPort → SglPort) (s : State) : (modSgl p f s).cache = s.cache := rfl
@[simp] theorem modSgl_dram (p : Nat) (f : SglPort → SglPort) (s : State) : (modSgl p f s).dram = s.dram := rfl
@[simp] theorem modSgl_coh (p : Nat) (f : SglPort → SglPort) (s : State) : (modSgl p f s).coh = s.coh := rfl
@[simp] theorem modSgl_fab (p : Nat) (f : SglPort → SglPort) (s : State) : (modSgl p f s).fab = s.fab := rfl
@[simp] theorem modSgl_portA (p : Nat) (f : SglPort → SglPort) (s : State) : (modSgl p f s).portA = s.portA := rfl
@[simp] theorem modSgl_portB (p : Nat) (f : SglPort → SglPort) (s : State) : (modSgl p f s).portB = s.portB := rfl
@[simp] theorem modSgl_cxlA (p : Nat) (f : SglPort → SglPort) (s : State) : (modSgl p f s).cxlA = s.cxlA := rfl
@[simp] theorem modSgl_cxlB (p : Nat) (f : SglPort → SglPort) (s : State) : (modSgl p f s).cxlB = s.cxlB := rfl
@[simp] theorem modSgl_sec (p : Nat) (f : SglPort → SglPort) (s : State) : (modSgl p f s).sec = s.sec := rfl
@[simp] theorem modSgl_thm (p : Nat) (f : SglPort → SglPort) (s : State) : (modSgl p f s).thm = s.thm := rfl
@[simp] theorem modSgl_mtr (p : Nat) (f : SglPort → SglPort) (s : State) : (modSgl p f s).mtr = s.mtr := rfl
@[simp] theorem modSgl_now (p : Nat) (f : SglPort → SglPort) (s : State) : (modSgl p f s).now = s.now := rfl
@[simp] theorem modSgl_freeCtr (p : Nat) (f : SglPort → SglPort) (s : State) : (modSgl p f s).freeCtr = s.freeCtr := rfl
@[simp] theorem modSgl_outs (p : Nat) (f : SglPort → SglPort) (s : State) : (modSgl p f s).outs = s.outs := rfl
@[simp] theorem modSgl_pending (p : Nat) (f : SglPort → SglPort) (s : State) : (modSgl p f s).pending = s.pending := rfl

/-! ### modStripe -/

@[simp] theorem modStripe_tr (k : Nat) (f : Stripe → Stripe) (s : State) : (modStripe k f s).tr = { s.tr with stripes := Table.modify s.tr.stripes k f } := rfl
@[simp] theorem modStripe_pw (k : Nat) (f : Stripe → Stripe) (s : State) : (modStripe k f s).pw = s.pw := rfl
@[simp] theorem modStripe_evr (k : Nat) (f : Stripe → Stripe) (s : State) : (modStripe k f s).evr = s.evr := rfl
@[simp] theorem modStripe_pst (k : Nat) (f : Stripe → Stripe) (s : State) : (modStripe k f s).pst = s.pst := rfl
@[simp] theorem modStripe_pmc (k : Nat) (f : Stripe → Stripe) (s : State) : (modStripe k f s).pmc = s.pmc := rfl
@[simp] theorem modStripe_trb (k : Nat) (f : Stripe → Stripe) (s : State) : (modStripe k f s).trb = s.trb := rfl
@[simp] theorem modStripe_mb (k : Nat) (f : Stripe → Stripe) (s : State) : (modStripe k f s).mb = s.mb := rfl
@[simp] theorem modStripe_sched (k : Nat) (f : Stripe → Stripe) (s : State) : (modStripe k f s).sched = s.sched := rfl
@[simp] theorem modStripe_dr (k : Nat) (f : Stripe → Stripe) (s : State) : (modStripe k f s).dr = s.dr := rfl
@[simp] theorem modStripe_prot (k : Nat) (f : Stripe → Stripe) (s : State) : (modStripe k f s).prot = s.prot := rfl
@[simp] theorem modStripe_per (k : Nat) (f : Stripe → Stripe) (s : State) : (modStripe k f s).per = s.per := rfl
@[simp] theorem modStripe_ck (k : Nat) (f : Stripe → Stripe) (s : State) : (modStripe k f s).ck = s.ck := rfl
@[simp] theorem modStripe_cache (k : Nat) (f : Stripe → Stripe) (s : State) : (modStripe k f s).cache = s.cache := rfl
@[simp] theorem modStripe_dram (k : Nat) (f : Stripe → Stripe) (s : State) : (modStripe k f s).dram = s.dram := rfl
@[simp] theorem modStripe_coh (k : Nat) (f : Stripe → Stripe) (s : State) : (modStripe k f s).coh = s.coh := rfl
@[simp] theorem modStripe_sgl (k : Nat) (f : Stripe → Stripe) (s : State) : (modStripe k f s).sgl = s.sgl := rfl
@[simp] theorem modStripe_fab (k : Nat) (f : Stripe → Stripe) (s : State) : (modStripe k f s).fab = s.fab := rfl
@[simp] theorem modStripe_portA (k : Nat) (f : Stripe → Stripe) (s : State) : (modStripe k f s).portA = s.portA := rfl
@[simp] theorem modStripe_portB (k : Nat) (f : Stripe → Stripe) (s : State) : (modStripe k f s).portB = s.portB := rfl
@[simp] theorem modStripe_cxlA (k : Nat) (f : Stripe → Stripe) (s : State) : (modStripe k f s).cxlA = s.cxlA := rfl
@[simp] theorem modStripe_cxlB (k : Nat) (f : Stripe → Stripe) (s : State) : (modStripe k f s).cxlB = s.cxlB := rfl
@[simp] theorem modStripe_sec (k : Nat) (f : Stripe → Stripe) (s : State) : (modStripe k f s).sec = s.sec := rfl
@[simp] theorem modStripe_thm (k : Nat) (f : Stripe → Stripe) (s : State) : (modStripe k f s).thm = s.thm := rfl
@[simp] theorem modStripe_mtr (k : Nat) (f : Stripe → Stripe) (s : State) : (modStripe k f s).mtr = s.mtr := rfl
@[simp] theorem modStripe_now (k : Nat) (f : Stripe → Stripe) (s : State) : (modStripe k f s).now = s.now := rfl
@[simp] theorem modStripe_freeCtr (k : Nat) (f : Stripe → Stripe) (s : State) : (modStripe k f s).freeCtr = s.freeCtr := rfl
@[simp] theorem modStripe_outs (k : Nat) (f : Stripe → Stripe) (s : State) : (modStripe k f s).outs = s.outs := rfl
@[simp] theorem modStripe_pending (k : Nat) (f : Stripe → Stripe) (s : State) : (modStripe k f s).pending = s.pending := rfl

/-! ### setBusy -/

@[simp] theorem setBusy_sched (g p : Nat) (e : BusyEntry) (s : State) : (setBusy g p e s).sched = { s.sched with busy := Table.putD s.sched.busy (busyKey g p) e {} } := rfl
@[simp] theorem setBusy_pw (g p : Nat) (e : BusyEntry) (s : State) : (setBusy g p e s).pw = s.pw := rfl
@[simp] theorem setBusy_evr (g p : Nat) (e : BusyEntry) (s : State) : (setBusy g p e s).evr = s.evr := rfl
@[simp] theorem setBusy_pst (g p : Nat) (e : BusyEntry) (s : State) : (setBusy g p e s).pst = s.pst := rfl
@[simp] theorem setBusy_pmc (g p : Nat) (e : BusyEntry) (s : State) : (setBusy g p e s).pmc = s.pmc := rfl
@[simp] theorem setBusy_trb (g p : Nat) (e : BusyEntry) (s : State) : (setBusy g p e s).trb = s.trb := rfl
@[simp] theorem setBusy_mb (g p : Nat) (e : BusyEntry) (s : State) : (setBusy g p e s).mb = s.mb := rfl
@[simp] theorem setBusy_tr (g p : Nat) (e : BusyEntry) (s : State) : (setBusy g p e s).tr = s.tr := rfl
@[simp] theorem setBusy_dr (g p : Nat) (e : BusyEntry) (s : State) : (setBusy g p e s).dr = s.dr := rfl
@[simp] theorem setBusy_prot (g p : Nat) (e : BusyEntry) (s : State) : (setBusy g p e s).prot = s.prot := rfl
@[simp] theorem setBusy_per (g p : Nat) (e : BusyEntry) (s : State) : (setBusy g p e s).per = s.per := rfl
@[simp] theorem setBusy_ck (g p : Nat) (e : BusyEntry) (s : State) : (setBusy g p e s).ck = s.ck := rfl
@[simp] theorem setBusy_cache (g p : Nat) (e : BusyEntry) (s : State) : (setBusy g p e s).cache = s.cache := rfl
@[simp] theorem setBusy_dram (g p : Nat) (e : BusyEntry) (s : State) : (setBusy g p e s).dram = s.dram := rfl
@[simp] theorem setBusy_coh (g p : Nat) (e : BusyEntry) (s : State) : (setBusy g p e s).coh = s.coh := rfl
@[simp] theorem setBusy_sgl (g p : Nat) (e : BusyEntry) (s : State) : (setBusy g p e s).sgl = s.sgl := rfl
@[simp] theorem setBusy_fab (g p : Nat) (e : BusyEntry) (s : State) : (setBusy g p e s).fab = s.fab := rfl
@[simp] theorem setBusy_portA (g p : Nat) (e : BusyEntry) (s : State) : (setBusy g p e s).portA = s.portA := rfl
@[simp] theorem setBusy_portB (g p : Nat) (e : BusyEntry) (s : State) : (setBusy g p e s).portB = s.portB := rfl
@[simp] theorem setBusy_cxlA (g p : Nat) (e : BusyEntry) (s : State) : (setBusy g p e s).cxlA = s.cxlA := rfl
@[simp] theorem setBusy_cxlB (g p : Nat) (e : BusyEntry) (s : State) : (setBusy g p e s).cxlB = s.cxlB := rfl
@[simp] theorem setBusy_sec (g p : Nat) (e : BusyEntry) (s : State) : (setBusy g p e s).sec = s.sec := rfl
@[simp] theorem setBusy_thm (g p : Nat) (e : BusyEntry) (s : State) : (setBusy g p e s).thm = s.thm := rfl
@[simp] theorem setBusy_mtr (g p : Nat) (e : BusyEntry) (s : State) : (setBusy g p e s).mtr = s.mtr := rfl
@[simp] theorem setBusy_now (g p : Nat) (e : BusyEntry) (s : State) : (setBusy g p e s).now = s.now := rfl
@[simp] theorem setBusy_freeCtr (g p : Nat) (e : BusyEntry) (s : State) : (setBusy g p e s).freeCtr = s.freeCtr := rfl
@[simp] theorem setBusy_outs (g p : Nat) (e : BusyEntry) (s : State) : (setBusy g p e s).outs = s.outs := rfl
@[simp] theorem setBusy_pending (g p : Nat) (e : BusyEntry) (s : State) : (setBusy g p e s).pending = s.pending := rfl

/-! ### modRead -/

@[simp] theorem modRead_sched (r : Nat) (f : MedRead → MedRead) (s : State) : (modRead r f s).sched = { s.sched with reads := Table.modify s.sched.reads r f } := rfl
@[simp] theorem modRead_pw (r : Nat) (f : MedRead → MedRead) (s : State) : (modRead r f s).pw = s.pw := rfl
@[simp] theorem modRead_evr (r : Nat) (f : MedRead → MedRead) (s : State) : (modRead r f s).evr = s.evr := rfl
@[simp] theorem modRead_pst (r : Nat) (f : MedRead → MedRead) (s : State) : (modRead r f s).pst = s.pst := rfl
@[simp] theorem modRead_pmc (r : Nat) (f : MedRead → MedRead) (s : State) : (modRead r f s).pmc = s.pmc := rfl
@[simp] theorem modRead_trb (r : Nat) (f : MedRead → MedRead) (s : State) : (modRead r f s).trb = s.trb := rfl
@[simp] theorem modRead_mb (r : Nat) (f : MedRead → MedRead) (s : State) : (modRead r f s).mb = s.mb := rfl
@[simp] theorem modRead_tr (r : Nat) (f : MedRead → MedRead) (s : State) : (modRead r f s).tr = s.tr := rfl
@[simp] theorem modRead_dr (r : Nat) (f : MedRead → MedRead) (s : State) : (modRead r f s).dr = s.dr := rfl
@[simp] theorem modRead_prot (r : Nat) (f : MedRead → MedRead) (s : State) : (modRead r f s).prot = s.prot := rfl
@[simp] theorem modRead_per (r : Nat) (f : MedRead → MedRead) (s : State) : (modRead r f s).per = s.per := rfl
@[simp] theorem modRead_ck (r : Nat) (f : MedRead → MedRead) (s : State) : (modRead r f s).ck = s.ck := rfl
@[simp] theorem modRead_cache (r : Nat) (f : MedRead → MedRead) (s : State) : (modRead r f s).cache = s.cache := rfl
@[simp] theorem modRead_dram (r : Nat) (f : MedRead → MedRead) (s : State) : (modRead r f s).dram = s.dram := rfl
@[simp] theorem modRead_coh (r : Nat) (f : MedRead → MedRead) (s : State) : (modRead r f s).coh = s.coh := rfl
@[simp] theorem modRead_sgl (r : Nat) (f : MedRead → MedRead) (s : State) : (modRead r f s).sgl = s.sgl := rfl
@[simp] theorem modRead_fab (r : Nat) (f : MedRead → MedRead) (s : State) : (modRead r f s).fab = s.fab := rfl
@[simp] theorem modRead_portA (r : Nat) (f : MedRead → MedRead) (s : State) : (modRead r f s).portA = s.portA := rfl
@[simp] theorem modRead_portB (r : Nat) (f : MedRead → MedRead) (s : State) : (modRead r f s).portB = s.portB := rfl
@[simp] theorem modRead_cxlA (r : Nat) (f : MedRead → MedRead) (s : State) : (modRead r f s).cxlA = s.cxlA := rfl
@[simp] theorem modRead_cxlB (r : Nat) (f : MedRead → MedRead) (s : State) : (modRead r f s).cxlB = s.cxlB := rfl
@[simp] theorem modRead_sec (r : Nat) (f : MedRead → MedRead) (s : State) : (modRead r f s).sec = s.sec := rfl
@[simp] theorem modRead_thm (r : Nat) (f : MedRead → MedRead) (s : State) : (modRead r f s).thm = s.thm := rfl
@[simp] theorem modRead_mtr (r : Nat) (f : MedRead → MedRead) (s : State) : (modRead r f s).mtr = s.mtr := rfl
@[simp] theorem modRead_now (r : Nat) (f : MedRead → MedRead) (s : State) : (modRead r f s).now = s.now := rfl
@[simp] theorem modRead_freeCtr (r : Nat) (f : MedRead → MedRead) (s : State) : (modRead r f s).freeCtr = s.freeCtr := rfl
@[simp] theorem modRead_outs (r : Nat) (f : MedRead → MedRead) (s : State) : (modRead r f s).outs = s.outs := rfl
@[simp] theorem modRead_pending (r : Nat) (f : MedRead → MedRead) (s : State) : (modRead r f s).pending = s.pending := rfl

/-! ### putChan -/

@[simp] theorem putChan_dram (c : Nat) (x : Chan) (s : State) : (putChan c x s).dram = { s.dram with chans := Table.putD s.dram.chans c x {} } := rfl
@[simp] theorem putChan_pw (c : Nat) (x : Chan) (s : State) : (putChan c x s).pw = s.pw := rfl
@[simp] theorem putChan_evr (c : Nat) (x : Chan) (s : State) : (putChan c x s).evr = s.evr := rfl
@[simp] theorem putChan_pst (c : Nat) (x : Chan) (s : State) : (putChan c x s).pst = s.pst := rfl
@[simp] theorem putChan_pmc (c : Nat) (x : Chan) (s : State) : (putChan c x s).pmc = s.pmc := rfl
@[simp] theorem putChan_trb (c : Nat) (x : Chan) (s : State) : (putChan c x s).trb = s.trb := rfl
@[simp] theorem putChan_mb (c : Nat) (x : Chan) (s : State) : (putChan c x s).mb = s.mb := rfl
@[simp] theorem putChan_sched (c : Nat) (x : Chan) (s : State) : (putChan c x s).sched = s.sched := rfl
@[simp] theorem putChan_tr (c : Nat) (x : Chan) (s : State) : (putChan c x s).tr = s.tr := rfl
@[simp] theorem putChan_dr (c : Nat) (x : Chan) (s : State) : (putChan c x s).dr = s.dr := rfl
@[simp] theorem putChan_prot (c : Nat) (x : Chan) (s : State) : (putChan c x s).prot = s.prot := rfl
@[simp] theorem putChan_per (c : Nat) (x : Chan) (s : State) : (putChan c x s).per = s.per := rfl
@[simp] theorem putChan_ck (c : Nat) (x : Chan) (s : State) : (putChan c x s).ck = s.ck := rfl
@[simp] theorem putChan_cache (c : Nat) (x : Chan) (s : State) : (putChan c x s).cache = s.cache := rfl
@[simp] theorem putChan_coh (c : Nat) (x : Chan) (s : State) : (putChan c x s).coh = s.coh := rfl
@[simp] theorem putChan_sgl (c : Nat) (x : Chan) (s : State) : (putChan c x s).sgl = s.sgl := rfl
@[simp] theorem putChan_fab (c : Nat) (x : Chan) (s : State) : (putChan c x s).fab = s.fab := rfl
@[simp] theorem putChan_portA (c : Nat) (x : Chan) (s : State) : (putChan c x s).portA = s.portA := rfl
@[simp] theorem putChan_portB (c : Nat) (x : Chan) (s : State) : (putChan c x s).portB = s.portB := rfl
@[simp] theorem putChan_cxlA (c : Nat) (x : Chan) (s : State) : (putChan c x s).cxlA = s.cxlA := rfl
@[simp] theorem putChan_cxlB (c : Nat) (x : Chan) (s : State) : (putChan c x s).cxlB = s.cxlB := rfl
@[simp] theorem putChan_sec (c : Nat) (x : Chan) (s : State) : (putChan c x s).sec = s.sec := rfl
@[simp] theorem putChan_thm (c : Nat) (x : Chan) (s : State) : (putChan c x s).thm = s.thm := rfl
@[simp] theorem putChan_mtr (c : Nat) (x : Chan) (s : State) : (putChan c x s).mtr = s.mtr := rfl
@[simp] theorem putChan_now (c : Nat) (x : Chan) (s : State) : (putChan c x s).now = s.now := rfl
@[simp] theorem putChan_freeCtr (c : Nat) (x : Chan) (s : State) : (putChan c x s).freeCtr = s.freeCtr := rfl
@[simp] theorem putChan_outs (c : Nat) (x : Chan) (s : State) : (putChan c x s).outs = s.outs := rfl
@[simp] theorem putChan_pending (c : Nat) (x : Chan) (s : State) : (putChan c x s).pending = s.pending := rfl

/-! ### putBank -/

@[simp] theorem putBank_dram (k : Nat) (b : Bank) (s : State) : (putBank k b s).dram = { s.dram with banks := Table.putD s.dram.banks k b {} } := rfl
@[simp] theorem putBank_pw (k : Nat) (b : Bank) (s : State) : (putBank k b s).pw = s.pw := rfl
@[simp] theorem putBank_evr (k : Nat) (b : Bank) (s : State) : (putBank k b s).evr = s.evr := rfl
@[simp] theorem putBank_pst (k : Nat) (b : Bank) (s : State) : (putBank k b s).pst = s.pst := rfl
@[simp] theorem putBank_pmc (k : Nat) (b : Bank) (s : State) : (putBank k b s).pmc = s.pmc := rfl
@[simp] theorem putBank_trb (k : Nat) (b : Bank) (s : State) : (putBank k b s).trb = s.trb := rfl
@[simp] theorem putBank_mb (k : Nat) (b : Bank) (s : State) : (putBank k b s).mb = s.mb := rfl
@[simp] theorem putBank_sched (k : Nat) (b : Bank) (s : State) : (putBank k b s).sched = s.sched := rfl
@[simp] theorem putBank_tr (k : Nat) (b : Bank) (s : State) : (putBank k b s).tr = s.tr := rfl
@[simp] theorem putBank_dr (k : Nat) (b : Bank) (s : State) : (putBank k b s).dr = s.dr := rfl
@[simp] theorem putBank_prot (k : Nat) (b : Bank) (s : State) : (putBank k b s).prot = s.prot := rfl
@[simp] theorem putBank_per (k : Nat) (b : Bank) (s : State) : (putBank k b s).per = s.per := rfl
@[simp] theorem putBank_ck (k : Nat) (b : Bank) (s : State) : (putBank k b s).ck = s.ck := rfl
@[simp] theorem putBank_cache (k : Nat) (b : Bank) (s : State) : (putBank k b s).cache = s.cache := rfl
@[simp] theorem putBank_coh (k : Nat) (b : Bank) (s : State) : (putBank k b s).coh = s.coh := rfl
@[simp] theorem putBank_sgl (k : Nat) (b : Bank) (s : State) : (putBank k b s).sgl = s.sgl := rfl
@[simp] theorem putBank_fab (k : Nat) (b : Bank) (s : State) : (putBank k b s).fab = s.fab := rfl
@[simp] theorem putBank_portA (k : Nat) (b : Bank) (s : State) : (putBank k b s).portA = s.portA := rfl
@[simp] theorem putBank_portB (k : Nat) (b : Bank) (s : State) : (putBank k b s).portB = s.portB := rfl
@[simp] theorem putBank_cxlA (k : Nat) (b : Bank) (s : State) : (putBank k b s).cxlA = s.cxlA := rfl
@[simp] theorem putBank_cxlB (k : Nat) (b : Bank) (s : State) : (putBank k b s).cxlB = s.cxlB := rfl
@[simp] theorem putBank_sec (k : Nat) (b : Bank) (s : State) : (putBank k b s).sec = s.sec := rfl
@[simp] theorem putBank_thm (k : Nat) (b : Bank) (s : State) : (putBank k b s).thm = s.thm := rfl
@[simp] theorem putBank_mtr (k : Nat) (b : Bank) (s : State) : (putBank k b s).mtr = s.mtr := rfl
@[simp] theorem putBank_now (k : Nat) (b : Bank) (s : State) : (putBank k b s).now = s.now := rfl
@[simp] theorem putBank_freeCtr (k : Nat) (b : Bank) (s : State) : (putBank k b s).freeCtr = s.freeCtr := rfl
@[simp] theorem putBank_outs (k : Nat) (b : Bank) (s : State) : (putBank k b s).outs = s.outs := rfl
@[simp] theorem putBank_pending (k : Nat) (b : Bank) (s : State) : (putBank k b s).pending = s.pending := rfl

/-! ### setMaint -/

@[simp] theorem setMaint_cache (snd : Sender) (m : Maint) (s : State) : (setMaint snd m s).cache = { s.cache with maint := setNth s.cache.maint snd.ix m } := rfl
@[simp] theorem setMaint_pw (snd : Sender) (m : Maint) (s : State) : (setMaint snd m s).pw = s.pw := rfl
@[simp] theorem setMaint_evr (snd : Sender) (m : Maint) (s : State) : (setMaint snd m s).evr = s.evr := rfl
@[simp] theorem setMaint_pst (snd : Sender) (m : Maint) (s : State) : (setMaint snd m s).pst = s.pst := rfl
@[simp] theorem setMaint_pmc (snd : Sender) (m : Maint) (s : State) : (setMaint snd m s).pmc = s.pmc := rfl
@[simp] theorem setMaint_trb (snd : Sender) (m : Maint) (s : State) : (setMaint snd m s).trb = s.trb := rfl
@[simp] theorem setMaint_mb (snd : Sender) (m : Maint) (s : State) : (setMaint snd m s).mb = s.mb := rfl
@[simp] theorem setMaint_sched (snd : Sender) (m : Maint) (s : State) : (setMaint snd m s).sched = s.sched := rfl
@[simp] theorem setMaint_tr (snd : Sender) (m : Maint) (s : State) : (setMaint snd m s).tr = s.tr := rfl
@[simp] theorem setMaint_dr (snd : Sender) (m : Maint) (s : State) : (setMaint snd m s).dr = s.dr := rfl
@[simp] theorem setMaint_prot (snd : Sender) (m : Maint) (s : State) : (setMaint snd m s).prot = s.prot := rfl
@[simp] theorem setMaint_per (snd : Sender) (m : Maint) (s : State) : (setMaint snd m s).per = s.per := rfl
@[simp] theorem setMaint_ck (snd : Sender) (m : Maint) (s : State) : (setMaint snd m s).ck = s.ck := rfl
@[simp] theorem setMaint_dram (snd : Sender) (m : Maint) (s : State) : (setMaint snd m s).dram = s.dram := rfl
@[simp] theorem setMaint_coh (snd : Sender) (m : Maint) (s : State) : (setMaint snd m s).coh = s.coh := rfl
@[simp] theorem setMaint_sgl (snd : Sender) (m : Maint) (s : State) : (setMaint snd m s).sgl = s.sgl := rfl
@[simp] theorem setMaint_fab (snd : Sender) (m : Maint) (s : State) : (setMaint snd m s).fab = s.fab := rfl
@[simp] theorem setMaint_portA (snd : Sender) (m : Maint) (s : State) : (setMaint snd m s).portA = s.portA := rfl
@[simp] theorem setMaint_portB (snd : Sender) (m : Maint) (s : State) : (setMaint snd m s).portB = s.portB := rfl
@[simp] theorem setMaint_cxlA (snd : Sender) (m : Maint) (s : State) : (setMaint snd m s).cxlA = s.cxlA := rfl
@[simp] theorem setMaint_cxlB (snd : Sender) (m : Maint) (s : State) : (setMaint snd m s).cxlB = s.cxlB := rfl
@[simp] theorem setMaint_sec (snd : Sender) (m : Maint) (s : State) : (setMaint snd m s).sec = s.sec := rfl
@[simp] theorem setMaint_thm (snd : Sender) (m : Maint) (s : State) : (setMaint snd m s).thm = s.thm := rfl
@[simp] theorem setMaint_mtr (snd : Sender) (m : Maint) (s : State) : (setMaint snd m s).mtr = s.mtr := rfl
@[simp] theorem setMaint_now (snd : Sender) (m : Maint) (s : State) : (setMaint snd m s).now = s.now := rfl
@[simp] theorem setMaint_freeCtr (snd : Sender) (m : Maint) (s : State) : (setMaint snd m s).freeCtr = s.freeCtr := rfl
@[simp] theorem setMaint_outs (snd : Sender) (m : Maint) (s : State) : (setMaint snd m s).outs = s.outs := rfl
@[simp] theorem setMaint_pending (snd : Sender) (m : Maint) (s : State) : (setMaint snd m s).pending = s.pending := rfl

end Sys2Proof.Machine
end

