-- ==== Sys2Proof/WellFormed.lean ====
section
/-! DEFINITION. Which commands are well formed: each operand in the range its field has. -/

namespace Sys2Proof

/-- What one member meets: at most the senses of Table 05-4 with the eight attempts of the ladder (R163,
R164), at most the 68 sectors of a page (R25), and the 8 reference cells of a row or none (R161). -/
def MemberSense.wf (m : MemberSense) : Bool :=
  decide (m.tries.length ≤ 10) && decide (m.page.length ≤ 68) && (m.cells.length == 0 || m.cells.length == 8)

/-- The senses of a survey's read of one sector, and the 8 reference cells of its row or none (R161, R167). -/
def surveyWf (tries : List Sense) (cells : List Nat) : Bool := MemberSense.wf { tries := tries, cells := cells }

/-- A result of a stripe of eight: the target and at most seven others. -/
def SenseResult.wf (r : SenseResult) : Bool := r.target.wf && decide (r.sources.length ≤ 7) && r.sources.all (·.wf)

/-- A command whose operands fit the fields and ranges of the manual. -/
def Instr.wf : Instr → Bool
  | .registerWrite _ off width _ => decide (off < 65536) && (width == 8 || width == 16 || width == 32 || width == 64)
  | .hostMemRd _ _ hpa tag => decide (hpa < 2 ^ 52) && decide (hpa % 64 = 0) && decide (tag.tag < 2 ^ 16)
  | .hostMemWr _ _ hpa _ _ _ tag => decide (hpa < 2 ^ 52) && decide (hpa % 64 = 0) && decide (tag.tag < 2 ^ 16)
  | .runAheadHint lpn => decide (lpn < 2 ^ 30)
  | .leaseProgrammed seg => decide (seg < 4096)
  | .dovetailTimeout dla => decide (dla < 2 ^ 36)
  | .dovetailMerge dla => decide (dla < 2 ^ 36)
  | .lookasideResult dla _ => decide (dla < 2 ^ 36)
  | .dramCacheTagResult node dla => decide (node < 1024) && decide (dla < 2 ^ 36)
  | .lpddr6ReadDone node dla _ => decide (node < 1024) && decide (dla < 2 ^ 36)
  | .mediumReadDone _ res => res.wf
  | .patrolScrub course sector res => decide (course < 2 ^ 23) && decide (sector < 13107) && res.wf
  | .ageSurvey course first last firstCells lastCells =>
    decide (course < 2 ^ 23) && surveyWf first firstCells && surveyWf last lastCells
  | .roundStart group stream => decide (group < 8) && decide (stream < 4)
  | .rowProgramDone group part _ => decide (group < 8) && decide (part < 32)
  | .resetDone group part _ => decide (group < 8) && decide (part < 32)
  | .readTransferred group part stack => decide (group < 8) && decide (part < 32) && decide (stack < 8)
  | .foldStep quadrant => decide (quadrant < 4)
  | .maintClean _ count => decide (count < 2 ^ 20)
  | .maintInval _ count => decide (count < 2 ^ 20)
  | .maintFlush _ count => decide (count < 2 ^ 20)
  | .clampRead n readers _ => decide (n < 16) && !readers.isEmpty
  | .clampRelease _ n => decide (n < 16)
  | .clampForce _ n => decide (n < 16)
  | .mbxPost snd _ => decide (snd ≠ .mp)
  | .pstProgram _ count => decide (count < 64)
  | .railFault code => decide (code < 14)
  | .privateInstruction code => decide (128 ≤ code) && decide (code < 255)
  | .fecBlockReceive port blk => decide (port < 8) && decide (blk.flits.length = 5)
  | .thermalUpdate inp => decide (inp.volts.length = 14) && decide (inp.currents.length = 14) &&
      decide (inp.diodes.length = 8)
  | _ => true

end Sys2Proof
end

