-- ==== Sys2Proof/Tests/Slice0.lean ====
section
/-! SUPPORT. Tests: the checks of a command's form, what commands do on small states, and states that meet the hypotheses of the
statements. -/

set_option linter.all false
set_option Elab.async false

namespace Sys2Proof.Tests

open Sys2Proof Sys2Proof.Machine

/-- The device in service. -/
def wServ : State := { pw := { phase := .service, mode := 4 } }

/-- The device in Standby. -/
def wStand : State := { pw := { phase := .standby, mode := 1 } }

/-- A sender's message at the head of its inbox, every clamp held by the sender. -/
def wMsg (b : BoxId) (op arg : Nat) (s : State) : State :=
  modBox b (fun x => { x with inbox := [(messageWord b.ix x.inc op arg, 0, 0)] })
    { s with mb := { s.mb with clamps := List.replicate 16 { owner := b.ix + 1 } } }

/-- The same with a closed packet in its inbound drawer. -/
def wPay (b : BoxId) (op arg : Nat) (ws : List Word) (s : State) : State :=
  modBox b (fun x => { x with inDrw := .length (BitVec.ofNat 64 ws.length) :: ws.map Stage.word }) (wMsg b op arg s)

/-- The device in service, a window of Port A over its first 256 MiB under key ID 288, the clamps held by Port A. -/
def wWin : State :=
  { pw := { phase := .service, mode := 4 }, mb := { clamps := List.replicate 16 { owner := 1 } }
    portA := { width := 3, rate := 3, windows := [(0, { valid := true, rd := true, wr := true, hbase := 0, pbase := 0, size := 1, kbits := 0, kshift := 51, tenant := 0, kvalid := 1, kids := [288] })] }
    sec := { kids := [(288, ⟨.installed, true, 0, 0, none⟩)] } }

/-- What a Boot finds when nothing is wrong. -/
def wBoot : BootInput := ⟨true, 3, [], [], [], [], []⟩

/-- A stripe of Table 03-2's kind with nothing in it. -/
def wStripe : Stripe := { stream := 1, fast := false, pStack := 0, cls := 5 }

/-- The device in service with one stripe. -/
def wWith (x : Stripe) : State := { wServ with tr := { stripes := [(0, x)], maps := { course := [(0, { state := 2, fast := false })] } } }

/-- The device in service with an MSHR of line 5 of its own. -/
def wMshr (m : Mshr) : State := { wServ with cache := { mshrs := [(5, m)] } }

/-- A clean line of SRAM. -/
def wLine (ev : Bool) : TagEntry := { node := 0, dla := 0, kid := 288, dirty := false, poison := false, pf := false, pin := false, evict := ev, data := 0, ver := 1 }

/-- A started medium read of line 5. -/
def wRead (u : ReadUse) (sq : Bool) : MedRead := { use := u, loc := ⟨0, 0, 0, 0, 0, false⟩, prio := 3, started := true, rgen := 0, squashed := sq }

/-- What a medium read without an error finds. -/
def wSense : SenseResult := {}

/-- The device in service with one medium read in progress. -/
def wReads (r : MedRead) : State := { wServ with sched := { reads := [(7, r)] } }

/-- The device in service with a directory entry of line 5 and a transaction of it. -/
def wTrans (e : DirEntry) (t : HomeTrans) : State :=
  { wServ with cache := { mshrs := [(5, { kid := 288, cur := none, trans := some t })] }, coh := { dir := [(5, e)] } }

/-- The device in service with a proxy's line 5 of node 1. -/
def wPx (x : PxLine) : State := { wServ with coh := { px := [(lkey 1 5, x)] } }

/-- A read of Port A that waits. -/
def wHostWait : Waiter := { kind := .rdS, asker := .host .a 0 .s 0 0, kid := 288, cls := 0 }

/-! ### Ill-formed commands -/

theorem test_wf_registerWrite : Instr.wf (.registerWrite .portA 65528 64 .read) = true := by decide

theorem test_wf_registerWrite_offset : Instr.wf (.registerWrite .portA 65536 64 .read) = false := by decide

theorem test_wf_registerWrite_width : Instr.wf (.registerWrite .portA 0 24 .read) = false := by decide

theorem test_wf_hostMemRd_address : Instr.wf (.hostMemRd .a .s (2 ^ 52) ⟨0, .clean⟩) = false := by decide

theorem test_wf_hostMemRd_line : Instr.wf (.hostMemRd .a .s 32 ⟨0, .clean⟩) = false := by decide

theorem test_wf_hostMemRd_tag : Instr.wf (.hostMemRd .a .s 64 ⟨65536, .clean⟩) = false := by decide

theorem test_wf_hostMemWr_address : Instr.wf (.hostMemWr .a .s (2 ^ 52) 0 0 false ⟨0, .clean⟩) = false := by decide

theorem test_wf_hostMemWr_line : Instr.wf (.hostMemWr .a .s 65 0 0 false ⟨0, .clean⟩) = false := by decide

theorem test_wf_hostMemWr_tag : Instr.wf (.hostMemWr .a .s 64 0 0 false ⟨65536, .clean⟩) = false := by decide

theorem test_wf_runAheadHint : Instr.wf (.runAheadHint (2 ^ 30)) = false := by decide

theorem test_wf_leaseProgrammed : Instr.wf (.leaseProgrammed 4096) = false := by decide

theorem test_wf_dovetailTimeout : Instr.wf (.dovetailTimeout (2 ^ 36)) = false := by decide

theorem test_wf_dovetailMerge : Instr.wf (.dovetailMerge (2 ^ 36)) = false := by decide

theorem test_wf_lookasideResult : Instr.wf (.lookasideResult (2 ^ 36) {}) = false := by decide

theorem test_wf_dramCacheTagResult_node : Instr.wf (.dramCacheTagResult 1024 0) = false := by decide

theorem test_wf_dramCacheTagResult_line : Instr.wf (.dramCacheTagResult 0 (2 ^ 36)) = false := by decide

theorem test_wf_lpddr6ReadDone_node : Instr.wf (.lpddr6ReadDone 1024 0 {}) = false := by decide

theorem test_wf_lpddr6ReadDone_line : Instr.wf (.lpddr6ReadDone 0 (2 ^ 36) {}) = false := by decide

theorem test_wf_mediumReadDone_tries : Instr.wf (.mediumReadDone 0 { target := { tries := List.replicate 11 {} } }) = false := by decide

theorem test_wf_mediumReadDone_page : Instr.wf (.mediumReadDone 0 { target := { page := List.replicate 69 {} } }) = false := by decide

theorem test_wf_mediumReadDone_sources : Instr.wf (.mediumReadDone 0 { sources := List.replicate 8 {} }) = false := by decide

theorem test_wf_mediumReadDone_source : Instr.wf (.mediumReadDone 0 { sources := [{ cells := [1] }] }) = false := by decide

theorem test_wf_ageSurvey_course : Instr.wf (.ageSurvey (2 ^ 23) [] [] [] []) = false := by decide

theorem test_wf_ageSurvey_first : Instr.wf (.ageSurvey 0 [] [] [1] []) = false := by decide

theorem test_wf_ageSurvey_last : Instr.wf (.ageSurvey 0 [] [] [] [1]) = false := by decide

theorem test_wf_patrolScrub_course : Instr.wf (.patrolScrub (2 ^ 23) 0 wSense) = false := by decide

theorem test_wf_patrolScrub_sector : Instr.wf (.patrolScrub 0 13107 wSense) = false := by decide

theorem test_wf_patrolScrub_result : Instr.wf (.patrolScrub 0 0 { target := { cells := [1] } }) = false := by decide

theorem test_wf_roundStart_group : Instr.wf (.roundStart 8 0) = false := by decide

theorem test_wf_roundStart_stream : Instr.wf (.roundStart 0 4) = false := by decide

theorem test_wf_rowProgramDone_group : Instr.wf (.rowProgramDone 8 0 true) = false := by decide

theorem test_wf_rowProgramDone_partition : Instr.wf (.rowProgramDone 0 32 true) = false := by decide

theorem test_wf_resetDone_group : Instr.wf (.resetDone 8 0 true) = false := by decide

theorem test_wf_resetDone_partition : Instr.wf (.resetDone 0 32 true) = false := by decide

theorem test_wf_readTransferred_group : Instr.wf (.readTransferred 8 0 0) = false := by decide

theorem test_wf_readTransferred_partition : Instr.wf (.readTransferred 0 32 0) = false := by decide

theorem test_wf_readTransferred_stack : Instr.wf (.readTransferred 0 0 8) = false := by decide

theorem test_wf_foldStep : Instr.wf (.foldStep 4) = false := by decide

theorem test_wf_maintClean : Instr.wf (.maintClean .portA (2 ^ 20)) = false := by decide

theorem test_wf_maintInval : Instr.wf (.maintInval .portA (2 ^ 20)) = false := by decide

theorem test_wf_maintFlush : Instr.wf (.maintFlush .portA (2 ^ 20)) = false := by decide

theorem test_wf_clampRead_number : Instr.wf (.clampRead 16 [.portA] false) = false := by decide

theorem test_wf_clampRead_readers : Instr.wf (.clampRead 0 [] false) = false := by decide

theorem test_wf_clampRelease : Instr.wf (.clampRelease .portA 16) = false := by decide

theorem test_wf_clampForce : Instr.wf (.clampForce .portA 16) = false := by decide

theorem test_wf_mbxPost : Instr.wf (.mbxPost .mp 0) = false := by decide

theorem test_wf_pstProgram : Instr.wf (.pstProgram .portA 64) = false := by decide

theorem test_wf_railFault : Instr.wf (.railFault 14) = false := by decide

theorem test_wf_privateInstruction_low : Instr.wf (.privateInstruction 127) = false := by decide

theorem test_wf_privateInstruction_high : Instr.wf (.privateInstruction 255) = false := by decide

theorem test_wf_fecBlockReceive_port : Instr.wf (.fecBlockReceive 8 ⟨0, 0, List.replicate 5 ⟨2, true, true, 0, 0, false, [], none⟩⟩) = false := by decide

theorem test_wf_fecBlockReceive_flits : Instr.wf (.fecBlockReceive 0 ⟨0, 0, []⟩) = false := by decide

theorem test_wf_thermalUpdate_volts : Instr.wf (.thermalUpdate ⟨List.replicate 13 0, List.replicate 14 0, [], [], List.replicate 8 0⟩) = false := by decide

theorem test_wf_thermalUpdate_currents : Instr.wf (.thermalUpdate ⟨List.replicate 14 0, List.replicate 13 0, [], [], List.replicate 8 0⟩) = false := by decide

theorem test_wf_thermalUpdate_diodes : Instr.wf (.thermalUpdate ⟨List.replicate 14 0, List.replicate 14 0, [], [], List.replicate 7 0⟩) = false := by decide

theorem test_wf_thermalUpdate : Instr.wf (.thermalUpdate ⟨List.replicate 14 0, List.replicate 14 0, [], [], List.replicate 8 0⟩) = true := by decide

/-! ### Worked examples of the manual -/

/-- 01, decoding one host address: steps 1 and 2. -/
theorem test_example_window :
    (decodeIn [(0, { valid := true, rd := true, wr := true, hbase := 0x0000004000000000, pbase := 0x950000000000, size := 2048, kbits := 0, kshift := 51, tenant := 0, kvalid := 1, kids := [288] })] 0x000000473A5C91C0).map (·.pla) = some 0x95073A5C91C0 := by
  decide +kernel

/-- 01, the same: node, line, page and line in page of the pool address. -/
theorem test_example_pla : plaNode 0x95073A5C91C0 = 37 ∧ plaDla 0x95073A5C91C0 = 0x41CE97247 ∧
    lpnOf 0x41CE97247 = 0x1073A5C9 ∧ lineOf 0x41CE97247 = 7 := by decide +kernel

/-- 01, the same: home slice, quadrant and stack. -/
theorem test_example_home : sliceOfLpn 0x1073A5C9 = 15 ∧ quadrantOfSlice 15 = 3 ∧ stackOfLpn 0x1073A5C9 = 7 := by
  decide +kernel

/-- 01, the same: the row of page slot 141, line 7, and the stack of the stripe's P course. -/
theorem test_example_row : firstRow false (141 * 68 + 7) = 374 ∧ lastRow false (141 * 68 + 7) = 374 ∧ pStackOf 19 2730 = 5 := by
  decide +kernel

/-- 01, one stripe in both modes. -/
theorem test_example_stripe : pStackOf 6 1001 = 7 ∧ 7 * unitCount false = 1344 ∧ 7 * unitCount true = 22848 := by
  decide +kernel

/-- 08, the set of that line. -/
theorem test_example_cache_set : sliceLine 0x41CE97247 = 0x41CE9707 ∧ cacheSet 0x41CE97247 = 7150 := by decide +kernel

/-- 09, where the dense map entry of that page lies: row, rank, channels of both copies, bank. -/
theorem test_example_dram : lineRow 0x0315AF12 = 3158 ∧ lineRank 0x0315AF12 = 1 ∧ lineChan 0x0315AF12 = 4 ∧
    lineChan 0x0315AF1A = 12 ∧ lineBank 0x0315AF12 = 8 ∧ lineBank 0x0315AF1A = 8 := by decide +kernel

/-- 07, sizing the budget of a 6.8 mF bank. -/
theorem test_example_budget : energyOf 48000 6798 100 = 6200 ∧ budgetOf 6200 = 1920 ∧ budgetOf 1905 = 384 := by
  decide +kernel

/-- 05, the bucket of an age of 1,262,699 s. -/
theorem test_example_bucket : bucketOf 1262699 = 24 ∧ ageLevel 1727999 = 0 ∧ ageLevel 1728000 = 1 ∧ ageLevel 2592000 = 2 := by
  decide +kernel

/-- A node's LSA with every port live. -/
def wLsa (n : Nat) : Lsa × Nat := (⟨n, n, 0, true, 0, true, List.replicate 8 ⟨true, 3, 0, 0⟩⟩, 0)

/-- 12, a route across the largest torus: ESC is F1 and HOPS 6 from node 0 to node 837. -/
theorem test_example_route : escapeRoute { sgl := { cfg := { kx := 8, ky := 8, kz := 16 }, lsdb := [0, 7, 6, 5, 965, 901].map wLsa } } 837 = (1, 6) := by
  decide +kernel

/-- R164: the order of a dense read's sets from bucket 10, and from bucket 31 where the older rows do not exist. -/
theorem test_ladder : ladderSets 10 false = [.refined 10, .moved 10 false, .row 11, .row 12, .row 9, .row 13, .row 8, .measured, .row 14, .row 15] ∧
    ladderSets (31 + 64) true = [.measured, .measuredOlder 31, .row 30, .row 29] := by decide +kernel

/-- R129: of two members 0x12 on stack 2 and 0x34 on stack 5, P is 0x26 and Q is 4 × 0x12 + 32 × 0x34 = 0x48 + 0xCE = 0x86. -/
theorem test_two_lost : twoLost 1 2 5 0x26 0x86 = 0x12 ∧ twoLost 1 5 2 0x26 0x86 = 0x34 := by decide +kernel

/-! ### One step -/

/-- R495: VAUX begins Standby with START_ARMED. -/
theorem test_vauxApply : ∃ t, exec .vauxApply { pw := { phase := .off, mode := 0 } } = .next t ∧ t.pw.phase = .standby ∧
    t.pw.startArmed = true := ⟨_, rfl, by decide +kernel, by decide +kernel⟩

/-- R422: a free clamp goes to its reader, and a second sender's read leaves it there. -/
theorem test_clampRead : ∃ t u, exec (.clampRead 15 [.sideband] false) State.reset = .next t ∧
    exec (.clampRead 15 [.portA] false) t = .next u ∧ (nthD t.mb.clamps 15 {}).owner = 3 ∧ (nthD u.mb.clamps 15 {}).owner = 3 :=
  ⟨_, _, rfl, rfl, by decide +kernel, by decide +kernel⟩

/-- R469: a word posted while IN_FULL is set is ignored and sets OVERRUN. -/
theorem test_mbxPost_full : ∃ t u, exec (.mbxPost .portA 0x0001000000000007) State.reset = .next t ∧
    exec (.mbxPost .portA 0x0002000000000007) t = .next u ∧ (boxOf u .portA).inbox = (boxOf t .portA).inbox ∧
    (boxOf u .portA).overrun = true := ⟨_, _, rfl, rfl, by decide +kernel, by decide +kernel⟩

/-- An empty queue lets one core cycle pass (log 1). -/
theorem test_step_tick : ∃ t, step State.reset = .next t ∧ t.now = State.reset.now + 1 := ⟨_, rfl, by decide +kernel⟩

/-! ### States that meet the hypotheses of the statements -/

theorem test_meets_StepRunsFront_hyps : ∃ (c : Instr) (rest : List Instr) (s : State), s.pending = c :: rest :=
  ⟨.vinDrop, [], { pending := [.vinDrop] }, rfl⟩

theorem test_meets_StepIdles_hyps : ∃ s : State, s.pending = [] :=
  ⟨{}, rfl⟩

theorem test_meets_ClampsStayOk_hyps : ∃ s t : State, ClampsOk s ∧ step s = .next t :=
  ⟨State.reset, tick State.reset, by unfold ClampsOk; decide, rfl⟩

theorem test_meets_HomeSliceHash_hyps : ∃ lpn : Nat, lpn < 2 ^ 30 ∧ ∃ b : Nat, b < 4 :=
  ⟨2 ^ 30 - 1, by decide, 3, by decide⟩

theorem test_meets_JunctionReading_works : ∃ s : State, ∃ d, d < 8 ∧ diodeBroken s d = false :=
  ⟨{}, 7, by decide, by decide +kernel⟩

theorem test_meets_JunctionReading_none : ∃ s : State, ∀ d, d < 8 → diodeBroken s d = true :=
  ⟨{ thm := { broken := 255 } }, by decide +kernel⟩

theorem test_meets_ClampArbitration_free : ∃ (n : Nat) (readers : List Sender) (s : State), n < s.mb.clamps.length ∧ readers ≠ [] ∧ (nthD s.mb.clamps n {}).owner = 0 :=
  ⟨15, [.mp, .portB], State.reset, by decide +kernel⟩

theorem test_meets_ClampArbitration_held : ∃ (n : Nat) (h : Sender) (s : State), n < s.mb.clamps.length ∧ holds h n s = true :=
  ⟨0, .sideband, { mb := { clamps := List.replicate 16 { owner := 3 } } }, by decide +kernel⟩

theorem test_meets_ClearPsvFaultEffect_hyps : ∃ (arg : Nat) (s : State), headReady s .sideband 0x505 arg = true ∧ gateRc { op := 0x505, clamp := some 3 } .sideband arg s = none ∧ s.pw.phase = .standby ∧ s.pw.startArmed = true :=
  ⟨0, wMsg .sideband 0x505 0 { pw := { phase := .standby, mode := 1, startArmed := true } }, by decide +kernel⟩

theorem test_meets_BootCondition_hyps : ∃ s : State, s.pw.phase = .standby ∧ s.pw.scan = false :=
  ⟨wStand, by decide +kernel⟩

theorem test_meets_RailFaultInPowerDown_hyps : ∃ (code : Nat) (s : State), 2 ≤ code ∧ code ≤ 11 ∧ s.pw.phase = .powerDown ∧ code < s.pw.rail :=
  ⟨10, { pw := { phase := .powerDown, rail := 11 } }, by decide +kernel⟩

theorem test_meets_ReqModeAnswer_hyps : ∃ (b : BoxId) (arg : Nat) (s : State) (p : PState), headReady s b 0x010 arg = true ∧ gateRc { op := 0x010, used := 0xF, clamp := some 0 } b arg s = none ∧ s.pw.phase = .service ∧ stateOfCode (arg % 16) = some p :=
  ⟨.portA, 6, wMsg .portA 0x010 6 wServ, .deepIdle, by decide +kernel⟩

theorem test_meets_ReqModeAnswer_flush : ∃ (b : BoxId) (arg : Nat) (s : State), headReady s b 0x010 arg = true ∧ gateRc { op := 0x010, used := 0xF, clamp := some 0 } b arg s = none ∧ s.pw.phase ≠ .service :=
  ⟨.portA, 4, wMsg .portA 0x010 4 { pw := { phase := .flush, mode := 11 } }, by decide +kernel⟩

theorem test_meets_FeedPacketRoom_hyps : ∃ (g : Nat) (s : State), g < 8 ∧ s.pw.phase = .service :=
  ⟨7, wServ, by decide +kernel⟩

theorem test_meets_GateRefusals_hyps : ∃ (c : Instr) (g : Gate) (b : BoxId) (arg rc : Nat) (s : State), gateOf c = some (g, b, arg) ∧ headReady s b g.op arg = true ∧ gateRc g b arg s = some rc :=
  ⟨.reqMode .portB 4, { op := 0x010, used := 0xF, clamp := some 0 }, .portB, 4, 9, wMsg .portB 0x010 4 { pw := { phase := .service, mode := 4 }, ck := { failed := true }, mb := { mpReady := true } }, by decide +kernel⟩

theorem test_meets_AcknowledgementEffect_ack : ∃ (b : BoxId) (p : Port) (w : Word) (x : Nat × Nat) (s : State), boxPort b = some p ∧ (boxOf s b).inbox = [(w, x)] ∧ wordInc w = (boxOf s b).inc ∧ s.mb.open_ = [] ∧ s.mb.boxes.length = 5 :=
  ⟨.portB, .b, messageWord 1 0 2 0, (0, 0), modBox .portB (fun x => { x with inbox := [(messageWord 1 0 2 0, 0, 0)] }) State.reset, by decide +kernel⟩

theorem test_meets_AcknowledgementEffect_post : ∃ (b : BoxId) (snd : Sender) (s : State), snd.box? = some b ∧ (boxOf s b).inbox = [] ∧ s.mb.boxes.length = 5 :=
  ⟨.portB, .portB, State.reset, by decide +kernel⟩

theorem test_meets_DrawerOverruns_open : ∃ (snd : Sender) (b : BoxId) (s : State), snd.box? = some b ∧ s.mb.boxes.length = 5 ∧ drwOpen (boxOf s b).inDrw = true ∧ 64 ≤ (boxOf s b).inDrw.length :=
  ⟨.sideband, .sideband, modBox .sideband (fun x => { x with inDrw := .reserved :: List.replicate 63 (.word 5) }) State.reset, by decide +kernel⟩

theorem test_meets_DrawerOverruns_close : ∃ (snd : Sender) (b : BoxId) (s : State), snd.box? = some b ∧ s.mb.boxes.length = 5 ∧ drwOpen (boxOf s b).inDrw = false :=
  ⟨.portB, .portB, State.reset, by decide +kernel⟩

theorem test_meets_Lpddr6Upkeep_bankRefreshDue_postponed : ∃ (ch rank bank : Nat) (s : State), (s.dram.selfRef = false) ∧ (ch < 16) ∧ (rank < 2) ∧ (bank < 16) ∧ (hostReads s (bankKey ch rank bank) = true) ∧ ((bankAt s (bankKey ch rank bank)).postponed < 8) :=
  ⟨0, 0, 0, { wMshr { kid := 288, cur := some wHostWait, miss := true, tagHit := some true } with dram := { queue := [{ line := 0, cls := 0, node := 0, dla := 5, use := .line }] } }, by decide +kernel⟩

theorem test_meets_Lpddr6Upkeep_bankRefreshDue : ∃ (ch rank bank : Nat) (s : State), (s.dram.selfRef = false) ∧ (ch < 16) ∧ (rank < 2) ∧ (bank < 16) ∧ (hostReads s (bankKey ch rank bank) = false ∨ (bankAt s (bankKey ch rank bank)).postponed = 8) :=
  ⟨0, 0, 0, State.reset, by decide +kernel⟩

theorem test_meets_Lpddr6Upkeep_bankRefreshDue_2 : ∃ (ch rank bank : Nat) (s : State), (s.dram.selfRef = false) ∧ (ch < 16) ∧ (rank < 2) ∧ (bank < 16) ∧ (hostReads s (bankKey ch rank bank) = false ∨ (bankAt s (bankKey ch rank bank)).postponed = 8) :=
  ⟨15, 1, 15, State.reset, by decide +kernel⟩

theorem test_meets_Lpddr6Upkeep_bankRefreshStart : ∃ (ch rank bank : Nat) (s : State), ((bankAt s (bankKey ch rank bank)).marked = true) ∧ ((bankAt s (bankKey ch rank bank)).busyTo = none) ∧ (bankReads s (bankKey ch rank bank) = false) ∧ (partnerBusy s ch rank bank = false) :=
  ⟨0, 0, 0, { dram := { banks := [(bankKey 0 0 0, { marked := true })] } }, by decide +kernel⟩

theorem test_meets_Lpddr6Upkeep_dqsTrack : ∃ (ch : Nat) (s : State), (s.dram.selfRef = false) ∧ (ch < 16) ∧ (retrainCalled s ch = true) :=
  ⟨15, { dram := { chans := [(15, { retrain := true })] } }, by decide +kernel⟩

theorem test_meets_Lpddr6Upkeep_channelRetrain : ∃ (ch : Nat) (s : State), (ch < 16) ∧ ((chanAt s ch).retrain = true) ∧ (anyTraining s = false ∨ (chanAt s ch).training = true) :=
  ⟨3, { dram := { chans := [(3, { retrain := true })] } }, by decide +kernel⟩

theorem test_meets_Lpddr6Upkeep_rankPowerDown : ∃ (ch rank : Nat) (s : State), (s.dram.pdTimer ≠ 0) ∧ (ch < 16) ∧ (rank < 2) ∧ (s.dram.selfRef = false) ∧ (rankIdle s ch rank = true) ∧ ((chanAt s ch).down.contains rank = false) :=
  ⟨0, 1, State.reset, by decide +kernel⟩

theorem test_meets_BoundaryScan_extest : ∃ (s : State), (scanMay s = true) :=
  ⟨wStand, by decide +kernel⟩

theorem test_meets_BoundaryScan_extestPulse : ∃ (s : State), (scanMay s = true) :=
  ⟨wStand, by decide +kernel⟩

theorem test_meets_BoundaryScan_extestTrain : ∃ (s : State), (scanMay s = true) :=
  ⟨wStand, by decide +kernel⟩

theorem test_meets_BoundaryScan_tapClamp : ∃ (s : State), (scanMay s = true) :=
  ⟨wStand, by decide +kernel⟩

theorem test_meets_BoundaryScan_highz : ∃ (s : State), (scanMay s = true) :=
  ⟨wStand, by decide +kernel⟩

theorem test_meets_BoundaryScan_outsideScan : ∃ (c : Instr) (s : State), (c ∈ [Instr.extest, .extestPulse, .extestTrain, .tapClamp, .highz]) ∧ (tapRuns s = true) ∧ (scanMay s = false) :=
  ⟨.extest, State.reset, by decide +kernel⟩

theorem test_meets_BoundaryScan_outsideScan_2 : ∃ (c : Instr) (s : State), (c ∈ [Instr.extest, .extestPulse, .extestTrain, .tapClamp, .highz]) ∧ (tapRuns s = true) ∧ (scanMay s = false) :=
  ⟨.highz, State.reset, by decide +kernel⟩

theorem test_meets_BoundaryScan_samplePreload : ∃ (s : State), (tapRuns s = true) :=
  ⟨State.reset, by decide +kernel⟩

theorem test_meets_BoundaryScan_idcode : ∃ (s : State), (tapRuns s = true) :=
  ⟨State.reset, by decide +kernel⟩

theorem test_meets_BoundaryScan_bypass : ∃ (s : State), (tapRuns s = true) :=
  ⟨State.reset, by decide +kernel⟩

theorem test_meets_BoundaryScan_trstAssert : ∃ (s : State), (tapRuns s = true) :=
  ⟨State.reset, by decide +kernel⟩

theorem test_meets_BoundaryScan_privateInstruction_open : ∃ (code : Nat) (s : State), (tapRuns s = true) ∧ (s.pw.unlocked = true) ∧ (0x80 ≤ code) ∧ (code ≤ 0xFE) :=
  ⟨0x80, { pw := { unlocked := true } }, by decide +kernel⟩

theorem test_meets_BoundaryScan_privateInstruction_open_2 : ∃ (code : Nat) (s : State), (tapRuns s = true) ∧ (s.pw.unlocked = true) ∧ (0x80 ≤ code) ∧ (code ≤ 0xFE) :=
  ⟨0xFE, { pw := { unlocked := true } }, by decide +kernel⟩

theorem test_meets_BoundaryScan_privateInstruction_closed : ∃ (code : Nat) (s : State), (tapRuns s = true) ∧ (s.pw.unlocked = false ∨ code < 0x80 ∨ 0xFE < code) :=
  ⟨0x80, State.reset, by decide +kernel⟩

theorem test_meets_BoundaryScan_privateInstruction_closed_2 : ∃ (code : Nat) (s : State), (tapRuns s = true) ∧ (s.pw.unlocked = false ∨ code < 0x80 ∨ 0xFE < code) :=
  ⟨0x7F, State.reset, by decide +kernel⟩

theorem test_meets_BoundaryScan_privateInstruction_closed_3 : ∃ (code : Nat) (s : State), (tapRuns s = true) ∧ (s.pw.unlocked = false ∨ code < 0x80 ∨ 0xFE < code) :=
  ⟨0xFF, State.reset, by decide +kernel⟩

theorem test_meets_BoundaryScan_returnUnlock : ∃ (s : State), (tapRuns s = true) ∧ (s.pw.returnDone = true) :=
  ⟨{ pw := { returnDone := true } }, by decide +kernel⟩

theorem test_meets_RecorderRows_eventQueueDrain : ∃ (e : Event) (s : State), (s.evr.queue = [e]) ∧ (s.evr.frozen = false) ∧ (newest s = none) ∧ (recentCount s < 12) :=
  ⟨⟨.vauxLost, 0, []⟩, { evr := { queue := [⟨.vauxLost, 0, []⟩] } }, by decide +kernel⟩

theorem test_meets_RecorderRows_freezeExpire : ∃ (s : State), (s.evr.frozen = true) ∧ (s.evr.frozenReturn = false) :=
  ⟨{ evr := { frozen := true } }, by decide +kernel⟩

theorem test_meets_ParameterStoreRows_pstProgram_starts : ∃ (snd : Sender) (count : Nat) (s : State), ((pstPort snd s).job = none) ∧ (userPage (pstPort snd s).page = true) ∧ (s.pst.busy.contains ((pstPort snd s).page / 1024) = false) :=
  ⟨.portA, 0, { pst := { ports := [{ page := 4032 }] } }, by decide +kernel⟩

theorem test_meets_ParameterStoreRows_pstProgram_waits : ∃ (snd : Sender) (count : Nat) (s : State), ((pstPort snd s).job = none) ∧ (userPage (pstPort snd s).page = true) ∧ (s.pst.busy.contains ((pstPort snd s).page / 1024) = true) :=
  ⟨.portB, 63, { pst := { ports := [{}, { page := 4095 }], busy := [3] } }, by decide +kernel⟩

theorem test_meets_ParameterStoreRows_pstProgram_overrun : ∃ (snd : Sender) (count : Nat) (s : State), ((pstPort snd s).job ≠ none) :=
  ⟨.sideband, 0, { pst := { ports := [{}, {}, { job := some ({ page := 4032, word := 0, vals := [] }, true) }] } }, by decide +kernel⟩

theorem test_meets_ParameterStoreRows_pstProgram_foreign : ∃ (snd : Sender) (count : Nat) (s : State), ((pstPort snd s).job = none) ∧ (userPage (pstPort snd s).page = false) :=
  ⟨.portA, 0, { pst := { ports := [{ page := 4031 }] } }, by decide +kernel⟩

theorem test_meets_ParameterStoreRows_pstProgram_foreign_2 : ∃ (snd : Sender) (count : Nat) (s : State), ((pstPort snd s).job = none) ∧ (userPage (pstPort snd s).page = false) :=
  ⟨.mp, 0, { pst := { ports := [{}, {}, {}, { page := 4096 }] } }, by decide +kernel⟩

theorem test_meets_ParameterStoreRows_pstWriteDone : ∃ (bank : Nat) (s : State), (s.pst.busy.contains bank = true) ∧ (s.pst.ports.all (fun p => p.job.all (fun x => x.2)) = true) :=
  ⟨3, { pst := { ports := [{ page := 4032, job := some ({ page := 4032, word := 63, vals := [1, 2] }, true) }], busy := [3] } }, by decide +kernel⟩

theorem test_meets_ParameterStoreRows_pstRead : ∃ (snd : Sender) (corrected : Bool) (s : State), (userPage (pstPort snd s).page = true) :=
  ⟨.portA, true, { pst := { ports := [{ page := 4095 }] } }, by decide +kernel⟩

theorem test_meets_ParameterStoreRows_opMinuteTick : ∃ (s : State), (2 ≤ modeOf s) :=
  ⟨State.reset, by decide +kernel⟩

theorem test_meets_BcsDeviceRows_nop : ∃ (b : BoxId) (arg : Nat) (s : State), (headReady s b 0x000 arg = true) ∧ (gateRc { op := 0x000, fab := true } b arg s = none) :=
  ⟨.portA, 0, wMsg .portA 0x000 (0) (wServ), by decide +kernel⟩

theorem test_meets_BcsDeviceRows_nop_2 : ∃ (b : BoxId) (arg : Nat) (s : State), (headReady s b 0x000 arg = true) ∧ (gateRc { op := 0x000, fab := true } b arg s = none) :=
  ⟨.fabric, 0, wMsg .fabric 0x000 (0) (wServ), by decide +kernel⟩

theorem test_meets_BcsDeviceRows_identify : ∃ (b : BoxId) (arg : Nat) (s : State), (headReady s b 0x001 arg = true) ∧ (gateRc { op := 0x001, fab := true } b arg s = none) ∧ (b ≠ .fabric) :=
  ⟨.portA, 0, wMsg .portA 0x001 (0) (wServ), by decide +kernel⟩

theorem test_meets_BcsDeviceRows_getMode : ∃ (b : BoxId) (arg : Nat) (s : State), (headReady s b 0x002 arg = true) ∧ (gateRc { op := 0x002, fab := true } b arg s = none) ∧ (b ≠ .fabric) :=
  ⟨.sideband, 0, wMsg .sideband 0x002 (0) (wServ), by decide +kernel⟩

theorem test_meets_BcsDeviceRows_reqMode_active : ∃ (b : BoxId) (arg : Nat) (s : State), (headReady s b 0x010 arg = true) ∧ (gateRc { op := 0x010, used := 0xF, clamp := some 0 } b arg s = none) ∧ (s.pw.phase = .service) ∧ (arg % 16 = 4) :=
  ⟨.portA, 4, wMsg .portA 0x010 (4) (wServ), by decide +kernel⟩

theorem test_meets_BcsDeviceRows_reqMode_doze : ∃ (b : BoxId) (arg : Nat) (s : State), (headReady s b 0x010 arg = true) ∧ (gateRc { op := 0x010, used := 0xF, clamp := some 0 } b arg s = none) ∧ (s.pw.phase = .service) ∧ (arg % 16 = 5) :=
  ⟨.portA, 5, wMsg .portA 0x010 (5) (wServ), by decide +kernel⟩

theorem test_meets_BcsDeviceRows_reqMode_deepIdle : ∃ (b : BoxId) (arg : Nat) (s : State), (headReady s b 0x010 arg = true) ∧ (gateRc { op := 0x010, used := 0xF, clamp := some 0 } b arg s = none) ∧ (s.pw.phase = .service) ∧ (arg % 16 = 6) :=
  ⟨.portA, 6, wMsg .portA 0x010 (6) (wServ), by decide +kernel⟩

theorem test_meets_BcsDeviceRows_reqMode_other : ∃ (b : BoxId) (arg : Nat) (s : State), (headReady s b 0x010 arg = true) ∧ (gateRc { op := 0x010, used := 0xF, clamp := some 0 } b arg s = none) ∧ (s.pw.phase = .service) ∧ (arg % 16 < 4 ∨ 6 < arg % 16) :=
  ⟨.portA, 3, wMsg .portA 0x010 (3) (wServ), by decide +kernel⟩

theorem test_meets_BcsDeviceRows_reqMode_other_2 : ∃ (b : BoxId) (arg : Nat) (s : State), (headReady s b 0x010 arg = true) ∧ (gateRc { op := 0x010, used := 0xF, clamp := some 0 } b arg s = none) ∧ (s.pw.phase = .service) ∧ (arg % 16 < 4 ∨ 6 < arg % 16) :=
  ⟨.portA, 7, wMsg .portA 0x010 (7) (wServ), by decide +kernel⟩

theorem test_meets_BcsDeviceRows_shutdown : ∃ (b : BoxId) (arg : Nat) (s : State), (headReady s b 0x011 arg = true) ∧ (gateRc { op := 0x011, used := 0x1, clamp := some 0 } b arg s = none) ∧ (s.pw.phase = .service) :=
  ⟨.portA, 1, wMsg .portA 0x011 (1) (wServ), by decide +kernel⟩

theorem test_meets_BcsDeviceRows_shutdown_2 : ∃ (b : BoxId) (arg : Nat) (s : State), (headReady s b 0x011 arg = true) ∧ (gateRc { op := 0x011, used := 0x1, clamp := some 0 } b arg s = none) ∧ (s.pw.phase = .service) :=
  ⟨.sideband, 0, wMsg .sideband 0x011 (0) (wServ), by decide +kernel⟩

theorem test_meets_BcsWindowRows_winStage : ∃ (b : BoxId) (arg : Nat) (ws : List Word) (s t : State), (headReady s b 0x100 arg = true) ∧ (gateRc { winGate 0x100 b arg 0x3F 6 with pay := some (7, 7) } b arg s = none) ∧ (takePayload b arg 7 7 (taken s) = (some ws, t)) ∧ ((windowOf ws).isSome = true) :=
  ⟨.portA, 2 + 7 * 2 ^ 38, [1, 1, 1, 1, 1, 1, 1], wPay .portA 0x100 (2 + 7 * 2 ^ 38) [1, 1, 1, 1, 1, 1, 1] (wServ), (takePayload .portA (2 + 7 * 2 ^ 38) 7 7 (taken (wPay .portA 0x100 (2 + 7 * 2 ^ 38) [1, 1, 1, 1, 1, 1, 1] (wServ)))).2, by decide +kernel⟩

theorem test_meets_BcsWindowRows_winRemove : ∃ (b : BoxId) (arg : Nat) (s : State), (headReady s b 0x101 arg = true) ∧ (gateRc (winGate 0x101 b arg 0x3F 6) b arg s = none) :=
  ⟨.portA, 63, wMsg .portA 0x101 (63) (wServ), by decide +kernel⟩

theorem test_meets_BcsWindowRows_winRemove_2 : ∃ (b : BoxId) (arg : Nat) (s : State), (headReady s b 0x101 arg = true) ∧ (gateRc (winGate 0x101 b arg 0x3F 6) b arg s = none) :=
  ⟨.sideband, 127, wMsg .sideband 0x101 (127) (wServ), by decide +kernel⟩

theorem test_meets_BcsWindowRows_winCommit : ∃ (b : BoxId) (arg : Nat) (s : State), (headReady s b 0x102 arg = true) ∧ (gateRc (winGate 0x102 b arg 0 6) b arg s = none) ∧ (commitConflicts (s.port (targetPort b arg 6)) = false) :=
  ⟨.portB, 0, wMsg .portB 0x102 (0) (wServ), by decide +kernel⟩

theorem test_meets_BcsWindowRows_winCommit_conflict : ∃ (b : BoxId) (arg : Nat) (s : State), (headReady s b 0x102 arg = true) ∧ (gateRc (winGate 0x102 b arg 0 6) b arg s = none) ∧ (commitConflicts (s.port (targetPort b arg 6)) = true) :=
  ⟨.portA, 0, wMsg .portA 0x102 (0) ({ wServ with portA := { staged := [(0, { noWindow with valid := true })] } }), by decide +kernel⟩

theorem test_meets_BcsWindowRows_winQuery : ∃ (b : BoxId) (arg : Nat) (s : State), (headReady s b 0x103 arg = true) ∧ (gateRc { op := 0x103, used := 0x3F + portBit b 6 } b arg s = none) ∧ ((Table.get? (s.port (targetPort b arg 6)).windows (arg % 64)) = none) :=
  ⟨.portA, 5, wMsg .portA 0x103 (5) (wServ), by decide +kernel⟩

theorem test_meets_BcsWindowRows_winQuery_inForce : ∃ (b : BoxId) (arg : Nat) (w : Window) (s : State), (headReady s b 0x103 arg = true) ∧ (gateRc { op := 0x103, used := 0x3F + portBit b 6 } b arg s = none) ∧ ((Table.get? (s.port (targetPort b arg 6)).windows (arg % 64)) = some w) :=
  ⟨.portA, 5, noWindow, wMsg .portA 0x103 5 { wServ with portA := { windows := [(5, noWindow)] } }, by decide +kernel⟩

theorem test_meets_BcsWindowRows_setAperture : ∃ (b : BoxId) (arg : Nat) (s : State), (headReady s b 0x104 arg = true) ∧ (gateRc (winGate 0x104 b arg 0x1FFFFFF 25) b arg s = none) ∧ (1 ≤ arg % 2 ^ 25) ∧ (arg % 2 ^ 25 ≤ 2 ^ 24) :=
  ⟨.portA, 1, wMsg .portA 0x104 (1) (wServ), by decide +kernel⟩

theorem test_meets_BcsWindowRows_setAperture_2 : ∃ (b : BoxId) (arg : Nat) (s : State), (headReady s b 0x104 arg = true) ∧ (gateRc (winGate 0x104 b arg 0x1FFFFFF 25) b arg s = none) ∧ (1 ≤ arg % 2 ^ 25) ∧ (arg % 2 ^ 25 ≤ 2 ^ 24) :=
  ⟨.sideband, 2 ^ 24, wMsg .sideband 0x104 (2 ^ 24) (wServ), by decide +kernel⟩

theorem test_meets_BcsWindowRows_setAperture_invalid : ∃ (b : BoxId) (arg : Nat) (s : State), (headReady s b 0x104 arg = true) ∧ (gateRc (winGate 0x104 b arg 0x1FFFFFF 25) b arg s = none) ∧ (arg % 2 ^ 25 = 0 ∨ 2 ^ 24 < arg % 2 ^ 25) :=
  ⟨.portA, 0, wMsg .portA 0x104 (0) (wServ), by decide +kernel⟩

theorem test_meets_BcsWindowRows_setAperture_invalid_2 : ∃ (b : BoxId) (arg : Nat) (s : State), (headReady s b 0x104 arg = true) ∧ (gateRc (winGate 0x104 b arg 0x1FFFFFF 25) b arg s = none) ∧ (arg % 2 ^ 25 = 0 ∨ 2 ^ 24 < arg % 2 ^ 25) :=
  ⟨.portA, 2 ^ 24 + 1, wMsg .portA 0x104 (2 ^ 24 + 1) (wServ), by decide +kernel⟩

theorem test_meets_BcsPersistenceRows_closeEpoch : ∃ (b : BoxId) (arg : Nat) (x : Sender) (s : State), (headReady s b 0x300 arg = true) ∧ (gateRc { op := 0x300, fab := true } b arg s = none) ∧ (s.pw.phase = .service ∨ s.pw.phase = .flush) ∧ (b.sender? = some x) :=
  ⟨.portA, 0, .portA, wMsg .portA 0x300 0 wServ, by decide +kernel⟩

theorem test_meets_BcsPersistenceRows_closeEpoch_fabric : ∃ (b : BoxId) (arg : Nat) (s : State), (headReady s b 0x300 arg = true) ∧ (gateRc { op := 0x300, fab := true } b arg s = none) ∧ (s.pw.phase = .service ∨ s.pw.phase = .flush) ∧ (b = .fabric) :=
  ⟨.fabric, 0, wMsg .fabric 0x300 (0) (wServ), by decide +kernel⟩

theorem test_meets_BcsPersistenceRows_setEpochTimer : ∃ (b : BoxId) (arg : Nat) (s : State), (headReady s b 0x301 arg = true) ∧ (gateRc { op := 0x301, used := 0xFFFF, clamp := some 5 } b arg s = none) ∧ (50 ≤ arg) ∧ (arg ≤ 10000) :=
  ⟨.portA, 50, wMsg .portA 0x301 (50) (wServ), by decide +kernel⟩

theorem test_meets_BcsPersistenceRows_setEpochTimer_2 : ∃ (b : BoxId) (arg : Nat) (s : State), (headReady s b 0x301 arg = true) ∧ (gateRc { op := 0x301, used := 0xFFFF, clamp := some 5 } b arg s = none) ∧ (50 ≤ arg) ∧ (arg ≤ 10000) :=
  ⟨.portA, 10000, wMsg .portA 0x301 (10000) (wServ), by decide +kernel⟩

theorem test_meets_BcsPersistenceRows_setEpochTimer_invalid : ∃ (b : BoxId) (arg : Nat) (s : State), (headReady s b 0x301 arg = true) ∧ (gateRc { op := 0x301, used := 0xFFFF, clamp := some 5 } b arg s = none) ∧ (arg < 50 ∨ 10000 < arg) :=
  ⟨.portA, 49, wMsg .portA 0x301 (49) (wServ), by decide +kernel⟩

theorem test_meets_BcsPersistenceRows_setEpochTimer_invalid_2 : ∃ (b : BoxId) (arg : Nat) (s : State), (headReady s b 0x301 arg = true) ∧ (gateRc { op := 0x301, used := 0xFFFF, clamp := some 5 } b arg s = none) ∧ (arg < 50 ∨ 10000 < arg) :=
  ⟨.portA, 10001, wMsg .portA 0x301 (10001) (wServ), by decide +kernel⟩

theorem test_meets_BcsPersistenceRows_measureHoldup : ∃ (b : BoxId) (arg : Nat) (s : State), (headReady s b 0x302 arg = true) ∧ (gateRc { op := 0x302, clamp := some 5 } b arg s = none) ∧ (s.per.measuring = false) ∧ (opOpen s 0x302 = false) :=
  ⟨.portA, 0, wMsg .portA 0x302 (0) (wServ), by decide +kernel⟩

theorem test_meets_BcsPersistenceRows_closeEpoch_notReady : ∃ (b : BoxId) (arg : Nat) (s : State), (headReady s b 0x300 arg = true) ∧ (gateRc { op := 0x300, fab := true } b arg s = none) ∧ (s.pw.phase ≠ .service ∧ s.pw.phase ≠ .flush) :=
  ⟨.portA, 0, wMsg .portA 0x300 (0) ({ pw := { phase := .replay, mode := 3 } }), by decide +kernel⟩

theorem test_meets_BcsPersistenceRows_measureHoldup_busy : ∃ (b : BoxId) (arg : Nat) (s : State), (headReady s b 0x302 arg = true) ∧ (gateRc { op := 0x302, clamp := some 5 } b arg s = none) ∧ (s.per.measuring = true ∨ opOpen s 0x302 = true) :=
  ⟨.portA, 0, wMsg .portA 0x302 (0) ({ wServ with per := { measuring := true } }), by decide +kernel⟩

theorem test_meets_BcsPersistenceRows_getLoss : ∃ (b : BoxId) (arg : Nat) (s : State), (headReady s b 0x303 arg = true) ∧ (gateRc { op := 0x303 } b arg s = none) :=
  ⟨.portA, 0, wMsg .portA 0x303 (0) (wServ), by decide +kernel⟩

theorem test_meets_BcsPersistenceRows_mediaHealth : ∃ (b : BoxId) (arg : Nat) (s : State), (headReady s b 0x400 arg = true) ∧ (gateRc { op := 0x400, fab := true } b arg s = none) ∧ (b ≠ .fabric) :=
  ⟨.portA, 0, wMsg .portA 0x400 (0) (wServ), by decide +kernel⟩

theorem test_meets_BcsPersistenceRows_setLevelSpread : ∃ (b : BoxId) (arg : Nat) (s : State), (headReady s b 0x401 arg = true) ∧ (gateRc { op := 0x401, used := 0x7FFFFF, clamp := some 6 } b arg s = none) ∧ (65536 ≤ arg) ∧ (arg ≤ 4194304) :=
  ⟨.portA, 65536, wMsg .portA 0x401 (65536) (wServ), by decide +kernel⟩

theorem test_meets_BcsPersistenceRows_setLevelSpread_2 : ∃ (b : BoxId) (arg : Nat) (s : State), (headReady s b 0x401 arg = true) ∧ (gateRc { op := 0x401, used := 0x7FFFFF, clamp := some 6 } b arg s = none) ∧ (65536 ≤ arg) ∧ (arg ≤ 4194304) :=
  ⟨.portA, 4194304, wMsg .portA 0x401 (4194304) (wServ), by decide +kernel⟩

theorem test_meets_BcsPersistenceRows_setLevelSpread_invalid : ∃ (b : BoxId) (arg : Nat) (s : State), (headReady s b 0x401 arg = true) ∧ (gateRc { op := 0x401, used := 0x7FFFFF, clamp := some 6 } b arg s = none) ∧ (arg < 65536 ∨ 4194304 < arg) :=
  ⟨.portA, 65535, wMsg .portA 0x401 (65535) (wServ), by decide +kernel⟩

theorem test_meets_BcsPersistenceRows_setLevelSpread_invalid_2 : ∃ (b : BoxId) (arg : Nat) (s : State), (headReady s b 0x401 arg = true) ∧ (gateRc { op := 0x401, used := 0x7FFFFF, clamp := some 6 } b arg s = none) ∧ (arg < 65536 ∨ 4194304 < arg) :=
  ⟨.portA, 4194305, wMsg .portA 0x401 (4194305) (wServ), by decide +kernel⟩

theorem test_meets_BcsPersistenceRows_readReftable : ∃ (b : BoxId) (arg : Nat) (s : State), (headReady s b 0x402 arg = true) ∧ (gateRc { op := 0x402, used := 0x3F } b arg s = none) :=
  ⟨.portA, 63, wMsg .portA 0x402 (63) (wServ), by decide +kernel⟩

theorem test_meets_BcsPersistenceRows_format : ∃ (b : BoxId) (arg : Nat) (s : State), (headReady s b 0x403 arg = true) ∧ (gateRc { op := 0x403, clamp := some 0 } b arg s = none) ∧ (s.pw.phase = .service ∨ s.ck.failed = true) ∧ (s.ck.formatting = false) ∧ (s.sec.sanitize = 0) :=
  ⟨.portA, 0, wMsg .portA 0x403 (0) (wServ), by decide +kernel⟩

theorem test_meets_BcsPersistenceRows_format_2 : ∃ (b : BoxId) (arg : Nat) (s : State), (headReady s b 0x403 arg = true) ∧ (gateRc { op := 0x403, clamp := some 0 } b arg s = none) ∧ (s.pw.phase = .service ∨ s.ck.failed = true) ∧ (s.ck.formatting = false) ∧ (s.sec.sanitize = 0) :=
  ⟨.portA, 0, wMsg .portA 0x403 (0) ({ pw := { phase := .replay }, ck := { failed := true } }), by decide +kernel⟩

theorem test_meets_BcsPersistenceRows_sanitize : ∃ (b : BoxId) (arg : Nat) (s : State), (headReady s b 0x404 arg = true) ∧ (gateRc { op := 0x404, used := 0x1, clamp := some 0 } b arg s = none) ∧ (s.pw.phase = .service ∨ s.ck.failed = true) ∧ (s.ck.formatting = false) ∧ (s.sec.sanitize = 0) :=
  ⟨.portA, 0, wMsg .portA 0x404 (0) (wServ), by decide +kernel⟩

theorem test_meets_BcsPersistenceRows_sanitize_2 : ∃ (b : BoxId) (arg : Nat) (s : State), (headReady s b 0x404 arg = true) ∧ (gateRc { op := 0x404, used := 0x1, clamp := some 0 } b arg s = none) ∧ (s.pw.phase = .service ∨ s.ck.failed = true) ∧ (s.ck.formatting = false) ∧ (s.sec.sanitize = 0) :=
  ⟨.portA, 1, wMsg .portA 0x404 (1) (wServ), by decide +kernel⟩

theorem test_meets_BcsPersistenceRows_format_busy : ∃ (b : BoxId) (arg : Nat) (s : State), (headReady s b 0x403 arg = true) ∧ (gateRc { op := 0x403, clamp := some 0 } b arg s = none) ∧ ((s.pw.phase = .service ∨ s.ck.failed = true) ∧ (s.ck.formatting = true ∨ s.sec.sanitize ≠ 0)) :=
  ⟨.portA, 0, wMsg .portA 0x403 (0) ({ wServ with ck := { formatting := true } }), by decide +kernel⟩

theorem test_meets_BcsPersistenceRows_format_busy_2 : ∃ (b : BoxId) (arg : Nat) (s : State), (headReady s b 0x403 arg = true) ∧ (gateRc { op := 0x403, clamp := some 0 } b arg s = none) ∧ ((s.pw.phase = .service ∨ s.ck.failed = true) ∧ (s.ck.formatting = true ∨ s.sec.sanitize ≠ 0)) :=
  ⟨.portA, 0, wMsg .portA 0x403 (0) ({ wServ with sec := { sanitize := 1 } }), by decide +kernel⟩

theorem test_meets_BcsPersistenceRows_format_notReady : ∃ (b : BoxId) (arg : Nat) (s : State), (headReady s b 0x403 arg = true) ∧ (gateRc { op := 0x403, clamp := some 0 } b arg s = none) ∧ (s.pw.phase ≠ .service ∧ s.ck.failed = false) :=
  ⟨.portA, 0, wMsg .portA 0x403 (0) ({ pw := { phase := .replay, mode := 3 } }), by decide +kernel⟩

theorem test_meets_BcsPersistenceRows_sanitize_busy : ∃ (b : BoxId) (arg : Nat) (s : State), (headReady s b 0x404 arg = true) ∧ (gateRc { op := 0x404, used := 0x1, clamp := some 0 } b arg s = none) ∧ ((s.pw.phase = .service ∨ s.ck.failed = true) ∧ (s.ck.formatting = true ∨ s.sec.sanitize ≠ 0)) :=
  ⟨.portA, 0, wMsg .portA 0x404 (0) ({ wServ with ck := { formatting := true } }), by decide +kernel⟩

theorem test_meets_BcsPersistenceRows_sanitize_busy_2 : ∃ (b : BoxId) (arg : Nat) (s : State), (headReady s b 0x404 arg = true) ∧ (gateRc { op := 0x404, used := 0x1, clamp := some 0 } b arg s = none) ∧ ((s.pw.phase = .service ∨ s.ck.failed = true) ∧ (s.ck.formatting = true ∨ s.sec.sanitize ≠ 0)) :=
  ⟨.portA, 0, wMsg .portA 0x404 (0) ({ wServ with sec := { sanitize := 1 } }), by decide +kernel⟩

theorem test_meets_BcsPersistenceRows_sanitize_notReady : ∃ (b : BoxId) (arg : Nat) (s : State), (headReady s b 0x404 arg = true) ∧ (gateRc { op := 0x404, used := 0x1, clamp := some 0 } b arg s = none) ∧ (s.pw.phase ≠ .service ∧ s.ck.failed = false) :=
  ⟨.portA, 0, wMsg .portA 0x404 (0) ({ pw := { phase := .replay, mode := 3 } }), by decide +kernel⟩

theorem test_meets_BcsPersistenceRows_scanMedia_busy : ∃ (b : BoxId) (arg : Nat) (s : State), (headReady s b 0x405 arg = true) ∧ (gateRc { op := 0x405, clamp := some 6 } b arg s = none) ∧ (s.prot.scanning = true) :=
  ⟨.portA, 0, wMsg .portA 0x405 (0) ({ wServ with prot := { scanning := true } }), by decide +kernel⟩

theorem test_meets_BcsPersistenceRows_scanMedia : ∃ (b : BoxId) (arg : Nat) (s : State), (headReady s b 0x405 arg = true) ∧ (gateRc { op := 0x405, clamp := some 6 } b arg s = none) ∧ (s.prot.scanning = false) :=
  ⟨.portA, 0, wMsg .portA 0x405 (0) (wServ), by decide +kernel⟩

theorem test_meets_BcsPowerRows_setSlots : ∃ (b : BoxId) (arg : Nat) (s : State), (headReady s b 0x500 arg = true) ∧ (gateRc { op := 0x500, used := 0x1FF, clamp := some 3 } b arg s = none) ∧ (32 ≤ arg) ∧ (arg ≤ 256) ∧ (arg % 8 = 0) :=
  ⟨.portA, 32, wMsg .portA 0x500 (32) (wServ), by decide +kernel⟩

theorem test_meets_BcsPowerRows_setSlots_2 : ∃ (b : BoxId) (arg : Nat) (s : State), (headReady s b 0x500 arg = true) ∧ (gateRc { op := 0x500, used := 0x1FF, clamp := some 3 } b arg s = none) ∧ (32 ≤ arg) ∧ (arg ≤ 256) ∧ (arg % 8 = 0) :=
  ⟨.portA, 256, wMsg .portA 0x500 (256) (wServ), by decide +kernel⟩

theorem test_meets_BcsPowerRows_setSlots_invalid : ∃ (b : BoxId) (arg : Nat) (s : State), (headReady s b 0x500 arg = true) ∧ (gateRc { op := 0x500, used := 0x1FF, clamp := some 3 } b arg s = none) ∧ (arg < 32 ∨ 256 < arg ∨ arg % 8 ≠ 0) :=
  ⟨.portA, 24, wMsg .portA 0x500 (24) (wServ), by decide +kernel⟩

theorem test_meets_BcsPowerRows_setSlots_invalid_2 : ∃ (b : BoxId) (arg : Nat) (s : State), (headReady s b 0x500 arg = true) ∧ (gateRc { op := 0x500, used := 0x1FF, clamp := some 3 } b arg s = none) ∧ (arg < 32 ∨ 256 < arg ∨ arg % 8 ≠ 0) :=
  ⟨.portA, 264, wMsg .portA 0x500 (264) (wServ), by decide +kernel⟩

theorem test_meets_BcsPowerRows_setSlots_invalid_3 : ∃ (b : BoxId) (arg : Nat) (s : State), (headReady s b 0x500 arg = true) ∧ (gateRc { op := 0x500, used := 0x1FF, clamp := some 3 } b arg s = none) ∧ (arg < 32 ∨ 256 < arg ∨ arg % 8 ≠ 0) :=
  ⟨.portA, 33, wMsg .portA 0x500 (33) (wServ), by decide +kernel⟩

theorem test_meets_BcsPowerRows_setPdTimer : ∃ (b : BoxId) (arg : Nat) (s : State), (headReady s b 0x501 arg = true) ∧ (gateRc { op := 0x501, used := 0xFF, clamp := some 3 } b arg s = none) ∧ (arg ≤ 200) :=
  ⟨.portA, 0, wMsg .portA 0x501 (0) (wServ), by decide +kernel⟩

theorem test_meets_BcsPowerRows_setPdTimer_2 : ∃ (b : BoxId) (arg : Nat) (s : State), (headReady s b 0x501 arg = true) ∧ (gateRc { op := 0x501, used := 0xFF, clamp := some 3 } b arg s = none) ∧ (arg ≤ 200) :=
  ⟨.portA, 200, wMsg .portA 0x501 (200) (wServ), by decide +kernel⟩

theorem test_meets_BcsPowerRows_setPdTimer_invalid : ∃ (b : BoxId) (arg : Nat) (s : State), (headReady s b 0x501 arg = true) ∧ (gateRc { op := 0x501, used := 0xFF, clamp := some 3 } b arg s = none) ∧ (200 < arg) :=
  ⟨.portA, 201, wMsg .portA 0x501 (201) (wServ), by decide +kernel⟩

theorem test_meets_BcsPowerRows_setDramRate : ∃ (b : BoxId) (arg : Nat) (s : State), (headReady s b 0x502 arg = true) ∧ (gateRc { op := 0x502, used := 0x3, clamp := some 3 } b arg s = none) ∧ (arg ≠ 3) :=
  ⟨.portA, 0, wMsg .portA 0x502 (0) (wServ), by decide +kernel⟩

theorem test_meets_BcsPowerRows_setDramRate_2 : ∃ (b : BoxId) (arg : Nat) (s : State), (headReady s b 0x502 arg = true) ∧ (gateRc { op := 0x502, used := 0x3, clamp := some 3 } b arg s = none) ∧ (arg ≠ 3) :=
  ⟨.portA, 2, wMsg .portA 0x502 (2) (wServ), by decide +kernel⟩

theorem test_meets_BcsPowerRows_setDramRate_invalid : ∃ (b : BoxId) (arg : Nat) (s : State), (headReady s b 0x502 arg = true) ∧ (gateRc { op := 0x502, used := 0x3, clamp := some 3 } b arg s = none) ∧ (arg = 3) :=
  ⟨.portA, 3, wMsg .portA 0x502 (3) (wServ), by decide +kernel⟩

theorem test_meets_BcsPowerRows_setThermal : ∃ (b : BoxId) (arg : Nat) (ws : List Word) (s t : State), (headReady s b 0x503 arg = true) ∧ (gateRc { op := 0x503, pay := some (4, 4), clamp := some 2 } b arg s = none) ∧ (takePayload b arg 4 4 (taken s) = (some ws, t)) ∧ (thermalOk ws = true) :=
  ⟨.portA, 0 + 4 * 2 ^ 38, [0x69645F55645F5A55, 0x5519324B14736E69, 0x6403, 0], wPay .portA 0x503 (0 + 4 * 2 ^ 38) [0x69645F55645F5A55, 0x5519324B14736E69, 0x6403, 0] (wServ), (takePayload .portA (0 + 4 * 2 ^ 38) 4 4 (taken (wPay .portA 0x503 (0 + 4 * 2 ^ 38) [0x69645F55645F5A55, 0x5519324B14736E69, 0x6403, 0] (wServ)))).2, by decide +kernel⟩

theorem test_meets_BcsPowerRows_setThermal_invalid : ∃ (b : BoxId) (arg : Nat) (ws : List Word) (s t : State), (headReady s b 0x503 arg = true) ∧ (gateRc { op := 0x503, pay := some (4, 4), clamp := some 2 } b arg s = none) ∧ (takePayload b arg 4 4 (taken s) = (some ws, t)) ∧ (thermalOk ws = false) :=
  ⟨.portA, 0 + 4 * 2 ^ 38, [0, 0, 0, 0], wPay .portA 0x503 (0 + 4 * 2 ^ 38) [0, 0, 0, 0] (wServ), (takePayload .portA (0 + 4 * 2 ^ 38) 4 4 (taken (wPay .portA 0x503 (0 + 4 * 2 ^ 38) [0, 0, 0, 0] (wServ)))).2, by decide +kernel⟩

theorem test_meets_BcsPowerRows_setSupervisor : ∃ (b : BoxId) (arg : Nat) (ws : List Word) (s t : State), (headReady s b 0x504 arg = true) ∧ (gateRc { op := 0x504, used := 0xF, pay := some (2, 2), clamp := some 3 } b arg s = none) ∧ (takePayload b arg 2 2 (taken s) = (some ws, t)) ∧ (supervisorBad (arg % 16) (nthD ws 0 0) (nthD ws 1 0) = false) :=
  ⟨.portA, 1 + 2 * 2 ^ 38, [0x0AC860, 0], wPay .portA 0x504 (1 + 2 * 2 ^ 38) [0x0AC860, 0] (wServ), (takePayload .portA (1 + 2 * 2 ^ 38) 2 2 (taken (wPay .portA 0x504 (1 + 2 * 2 ^ 38) [0x0AC860, 0] (wServ)))).2, by decide +kernel⟩

theorem test_meets_BcsPowerRows_setSupervisor_invalid : ∃ (b : BoxId) (arg : Nat) (ws : List Word) (s t : State), (headReady s b 0x504 arg = true) ∧ (gateRc { op := 0x504, used := 0xF, pay := some (2, 2), clamp := some 3 } b arg s = none) ∧ (takePayload b arg 2 2 (taken s) = (some ws, t)) ∧ (supervisorBad (arg % 16) (nthD ws 0 0) (nthD ws 1 0) = true) :=
  ⟨.portA, 14 + 2 * 2 ^ 38, [0x0AC860, 0], wPay .portA 0x504 (14 + 2 * 2 ^ 38) [0x0AC860, 0] (wServ), (takePayload .portA (14 + 2 * 2 ^ 38) 2 2 (taken (wPay .portA 0x504 (14 + 2 * 2 ^ 38) [0x0AC860, 0] (wServ)))).2, by decide +kernel⟩

theorem test_meets_BcsPowerRows_clearPsvFault : ∃ (b : BoxId) (arg : Nat) (s : State), (headReady s b 0x505 arg = true) ∧ (gateRc { op := 0x505, clamp := some 3 } b arg s = none) ∧ (b = .sideband) :=
  ⟨.sideband, 0, wMsg .sideband 0x505 (0) (wServ), by decide +kernel⟩

theorem test_meets_BcsPowerRows_clearPsvFault_2 : ∃ (b : BoxId) (arg : Nat) (s : State), (headReady s b 0x505 arg = true) ∧ (gateRc { op := 0x505, clamp := some 3 } b arg s = none) ∧ (b = .sideband) :=
  ⟨.sideband, 0, wMsg .sideband 0x505 (0) (wStand), by decide +kernel⟩

theorem test_meets_BcsPoolRows_setNode : ∃ (b : BoxId) (arg : Nat) (s : State), (headReady s b 0x600 arg = true) ∧ (gateRc { op := 0x600, used := 0x3FF, clamp := some 7 } b arg s = none) :=
  ⟨.portA, 1023, wMsg .portA 0x600 (1023) (wServ), by decide +kernel⟩

theorem test_meets_BcsPoolRows_setPool : ∃ (b : BoxId) (arg : Nat) (s : State), (headReady s b 0x601 arg = true) ∧ (gateRc { op := 0x601, used := 0x1FFFFFFFF, clamp := some 7 } b arg s = none) :=
  ⟨.portA, 2 ^ 32 + 7, wMsg .portA 0x601 (2 ^ 32 + 7) (wServ), by decide +kernel⟩

theorem test_meets_BcsPoolRows_setTopology : ∃ (b : BoxId) (arg : Nat) (s : State), (headReady s b 0x602 arg = true) ∧ (gateRc { op := 0x602, used := 0x7FFF, clamp := some 7 } b arg s = none) ∧ ((ringSize (arg % 32) && ringSize (arg / 32 % 32) && ringSize (arg / 1024 % 32) && decide ((arg % 32) * (arg / 32 % 32) * (arg / 1024 % 32) ≤ 1024)) = true) :=
  ⟨.portA, 16 + 16 * 32 + 4 * 1024, wMsg .portA 0x602 (16 + 16 * 32 + 4 * 1024) (wServ), by decide +kernel⟩

theorem test_meets_BcsPoolRows_setTopology_2 : ∃ (b : BoxId) (arg : Nat) (s : State), (headReady s b 0x602 arg = true) ∧ (gateRc { op := 0x602, used := 0x7FFF, clamp := some 7 } b arg s = none) ∧ ((ringSize (arg % 32) && ringSize (arg / 32 % 32) && ringSize (arg / 1024 % 32) && decide ((arg % 32) * (arg / 32 % 32) * (arg / 1024 % 32) ≤ 1024)) = true) :=
  ⟨.portA, 1 + 3 * 32 + 1024, wMsg .portA 0x602 (1 + 3 * 32 + 1024) (wServ), by decide +kernel⟩

theorem test_meets_BcsPoolRows_setTopology_invalid : ∃ (b : BoxId) (arg : Nat) (s : State), (headReady s b 0x602 arg = true) ∧ (gateRc { op := 0x602, used := 0x7FFF, clamp := some 7 } b arg s = none) ∧ ((ringSize (arg % 32) && ringSize (arg / 32 % 32) && ringSize (arg / 1024 % 32) && decide ((arg % 32) * (arg / 32 % 32) * (arg / 1024 % 32) ≤ 1024)) = false) :=
  ⟨.portA, 2 + 3 * 32 + 1024, wMsg .portA 0x602 (2 + 3 * 32 + 1024) (wServ), by decide +kernel⟩

theorem test_meets_BcsPoolRows_setTopology_invalid_2 : ∃ (b : BoxId) (arg : Nat) (s : State), (headReady s b 0x602 arg = true) ∧ (gateRc { op := 0x602, used := 0x7FFF, clamp := some 7 } b arg s = none) ∧ ((ringSize (arg % 32) && ringSize (arg / 32 % 32) && ringSize (arg / 1024 % 32) && decide ((arg % 32) * (arg / 32 % 32) * (arg / 1024 % 32) ≤ 1024)) = false) :=
  ⟨.portA, 16 + 16 * 32 + 5 * 1024, wMsg .portA 0x602 (16 + 16 * 32 + 5 * 1024) (wServ), by decide +kernel⟩

theorem test_meets_BcsPoolRows_setRoster : ∃ (b : BoxId) (arg : Nat) (ws : List Word) (s t : State), (headReady s b 0x603 arg = true) ∧ (gateRc { op := 0x603, pay := some (16, 16), clamp := some 7 } b arg s = none) ∧ (takePayload b arg 16 16 (taken s) = (some ws, t)) :=
  ⟨.portA, 0 + 16 * 2 ^ 38, [3, 0, 0, 0, 0, 0, 0, 0, 0, 0, 0, 0, 0, 0, 0, 0], wPay .portA 0x603 (0 + 16 * 2 ^ 38) [3, 0, 0, 0, 0, 0, 0, 0, 0, 0, 0, 0, 0, 0, 0, 0] (wServ), (takePayload .portA (0 + 16 * 2 ^ 38) 16 16 (taken (wPay .portA 0x603 (0 + 16 * 2 ^ 38) [3, 0, 0, 0, 0, 0, 0, 0, 0, 0, 0, 0, 0, 0, 0, 0] (wServ)))).2, by decide +kernel⟩

theorem test_meets_BcsPoolRows_setHoldNs : ∃ (b : BoxId) (arg : Nat) (s : State), (headReady s b 0x604 arg = true) ∧ (gateRc { op := 0x604, used := 0xFF, clamp := some 7 } b arg s = none) ∧ (arg ≤ 200) :=
  ⟨.portA, 0, wMsg .portA 0x604 (0) (wServ), by decide +kernel⟩

theorem test_meets_BcsPoolRows_setHoldNs_2 : ∃ (b : BoxId) (arg : Nat) (s : State), (headReady s b 0x604 arg = true) ∧ (gateRc { op := 0x604, used := 0xFF, clamp := some 7 } b arg s = none) ∧ (arg ≤ 200) :=
  ⟨.portA, 200, wMsg .portA 0x604 (200) (wServ), by decide +kernel⟩

theorem test_meets_BcsPoolRows_setHoldNs_invalid : ∃ (b : BoxId) (arg : Nat) (s : State), (headReady s b 0x604 arg = true) ∧ (gateRc { op := 0x604, used := 0xFF, clamp := some 7 } b arg s = none) ∧ (200 < arg) :=
  ⟨.portA, 201, wMsg .portA 0x604 (201) (wServ), by decide +kernel⟩

theorem test_meets_BcsPoolRows_setRemoteCache : ∃ (b : BoxId) (arg : Nat) (s : State), (headReady s b 0x605 arg = true) ∧ (gateRc { op := 0x605, used := 0x1F, clamp := some 7 } b arg s = none) ∧ (arg ≤ 16) :=
  ⟨.portA, 0, wMsg .portA 0x605 (0) (wServ), by decide +kernel⟩

theorem test_meets_BcsPoolRows_setRemoteCache_2 : ∃ (b : BoxId) (arg : Nat) (s : State), (headReady s b 0x605 arg = true) ∧ (gateRc { op := 0x605, used := 0x1F, clamp := some 7 } b arg s = none) ∧ (arg ≤ 16) :=
  ⟨.portA, 16, wMsg .portA 0x605 (16) (wServ), by decide +kernel⟩

theorem test_meets_BcsPoolRows_setRemoteCache_invalid : ∃ (b : BoxId) (arg : Nat) (s : State), (headReady s b 0x605 arg = true) ∧ (gateRc { op := 0x605, used := 0x1F, clamp := some 7 } b arg s = none) ∧ (16 < arg) :=
  ⟨.portA, 17, wMsg .portA 0x605 (17) (wServ), by decide +kernel⟩

theorem test_meets_BcsPoolRows_setGather : ∃ (b : BoxId) (arg : Nat) (s : State), (headReady s b 0x606 arg = true) ∧ (gateRc { op := 0x606, used := 0x1FF, clamp := some 7 } b arg s = none) ∧ (1 ≤ arg) ∧ (arg ≤ 300) :=
  ⟨.portA, 1, wMsg .portA 0x606 (1) (wServ), by decide +kernel⟩

theorem test_meets_BcsPoolRows_setGather_2 : ∃ (b : BoxId) (arg : Nat) (s : State), (headReady s b 0x606 arg = true) ∧ (gateRc { op := 0x606, used := 0x1FF, clamp := some 7 } b arg s = none) ∧ (1 ≤ arg) ∧ (arg ≤ 300) :=
  ⟨.portA, 300, wMsg .portA 0x606 (300) (wServ), by decide +kernel⟩

theorem test_meets_BcsPoolRows_setGather_invalid : ∃ (b : BoxId) (arg : Nat) (s : State), (headReady s b 0x606 arg = true) ∧ (gateRc { op := 0x606, used := 0x1FF, clamp := some 7 } b arg s = none) ∧ (arg < 1 ∨ 300 < arg) :=
  ⟨.portA, 0, wMsg .portA 0x606 (0) (wServ), by decide +kernel⟩

theorem test_meets_BcsPoolRows_setGather_invalid_2 : ∃ (b : BoxId) (arg : Nat) (s : State), (headReady s b 0x606 arg = true) ∧ (gateRc { op := 0x606, used := 0x1FF, clamp := some 7 } b arg s = none) ∧ (arg < 1 ∨ 300 < arg) :=
  ⟨.portA, 301, wMsg .portA 0x606 (301) (wServ), by decide +kernel⟩

theorem test_meets_BcsPoolRows_setHoldLimit : ∃ (b : BoxId) (arg : Nat) (s : State), (headReady s b 0x607 arg = true) ∧ (gateRc { op := 0x607, used := 0x3F, clamp := some 7 } b arg s = none) ∧ (1 ≤ arg) ∧ (arg ≤ 60) :=
  ⟨.portA, 1, wMsg .portA 0x607 (1) (wServ), by decide +kernel⟩

theorem test_meets_BcsPoolRows_setHoldLimit_2 : ∃ (b : BoxId) (arg : Nat) (s : State), (headReady s b 0x607 arg = true) ∧ (gateRc { op := 0x607, used := 0x3F, clamp := some 7 } b arg s = none) ∧ (1 ≤ arg) ∧ (arg ≤ 60) :=
  ⟨.portA, 60, wMsg .portA 0x607 (60) (wServ), by decide +kernel⟩

theorem test_meets_BcsPoolRows_setHoldLimit_invalid : ∃ (b : BoxId) (arg : Nat) (s : State), (headReady s b 0x607 arg = true) ∧ (gateRc { op := 0x607, used := 0x3F, clamp := some 7 } b arg s = none) ∧ (arg < 1 ∨ 60 < arg) :=
  ⟨.portA, 0, wMsg .portA 0x607 (0) (wServ), by decide +kernel⟩

theorem test_meets_BcsPoolRows_setHoldLimit_invalid_2 : ∃ (b : BoxId) (arg : Nat) (s : State), (headReady s b 0x607 arg = true) ∧ (gateRc { op := 0x607, used := 0x3F, clamp := some 7 } b arg s = none) ∧ (arg < 1 ∨ 60 < arg) :=
  ⟨.portA, 61, wMsg .portA 0x607 (61) (wServ), by decide +kernel⟩

theorem test_meets_BcsPoolRows_poolStatus : ∃ (b : BoxId) (arg : Nat) (s : State), (headReady s b 0x608 arg = true) ∧ (gateRc { op := 0x608, fab := true } b arg s = none) ∧ (b ≠ .fabric) :=
  ⟨.portA, 0, wMsg .portA 0x608 (0) (wServ), by decide +kernel⟩

theorem test_meets_BcsPoolRows_mpForward : ∃ (b : BoxId) (arg : Nat) (ws : List Word) (s t : State), (headReady s b 0x610 arg = true) ∧ (gateRc { op := 0x610, used := 0x3FF, pay := some (1, 1) } b arg s = none) ∧ (takePayload b arg 1 1 (taken s) = (some ws, t)) ∧ (present t (arg % 1024) = true) ∧ (arg % 1024 ≠ me t) :=
  ⟨.portA, 5 + 1 * 2 ^ 38, [7], wPay .portA 0x610 (5 + 1 * 2 ^ 38) [7] ({ wServ with sgl := { members := 2 ^ 5, cfg := { pool := 1 } } }), (takePayload .portA (5 + 1 * 2 ^ 38) 1 1 (taken (wPay .portA 0x610 (5 + 1 * 2 ^ 38) [7] ({ wServ with sgl := { members := 2 ^ 5, cfg := { pool := 1 } } })))).2, by decide +kernel⟩

theorem test_meets_BcsObserveRows_evrFreeze_on : ∃ (b : BoxId) (arg : Nat) (s : State), (headReady s b 0x700 arg = true) ∧ (gateRc { op := 0x700, used := 0x1, clamp := some 4 } b arg s = none) ∧ (arg % 2 = 1) :=
  ⟨.portA, 1, wMsg .portA 0x700 (1) (wServ), by decide +kernel⟩

theorem test_meets_BcsObserveRows_evrFreeze_off : ∃ (b : BoxId) (arg : Nat) (s : State), (headReady s b 0x700 arg = true) ∧ (gateRc { op := 0x700, used := 0x1, clamp := some 4 } b arg s = none) ∧ (arg % 2 = 0) :=
  ⟨.portA, 0, wMsg .portA 0x700 (0) (wServ), by decide +kernel⟩

theorem test_meets_BcsObserveRows_pmcConfig : ∃ (b : BoxId) (arg : Nat) (ws : List Word) (s t : State), (headReady s b 0x701 arg = true) ∧ (gateRc { op := 0x701, used := 0x1F, pay := some (9, 9), clamp := some 4 } b arg s = none) ∧ (takePayload b arg 9 9 (taken s) = (some ws, t)) ∧ (arg % 32 ≤ 16) ∧ (bitsOf (nthD ws 0 0) 1 63 = 0) ∧ ((ws.drop 1).any (counterBad (arg % 32)) = false) :=
  ⟨.portA, 0 + 9 * 2 ^ 38, [1, 0x10001, 0x10001, 0x10001, 0x10001, 0x10001, 0x10001, 0x10001, 0x10001], wPay .portA 0x701 (0 + 9 * 2 ^ 38) [1, 0x10001, 0x10001, 0x10001, 0x10001, 0x10001, 0x10001, 0x10001, 0x10001] (wServ), (takePayload .portA (0 + 9 * 2 ^ 38) 9 9 (taken (wPay .portA 0x701 (0 + 9 * 2 ^ 38) [1, 0x10001, 0x10001, 0x10001, 0x10001, 0x10001, 0x10001, 0x10001, 0x10001] (wServ)))).2, by decide +kernel⟩

theorem test_meets_BcsObserveRows_pmcConfig_2 : ∃ (b : BoxId) (arg : Nat) (ws : List Word) (s t : State), (headReady s b 0x701 arg = true) ∧ (gateRc { op := 0x701, used := 0x1F, pay := some (9, 9), clamp := some 4 } b arg s = none) ∧ (takePayload b arg 9 9 (taken s) = (some ws, t)) ∧ (arg % 32 ≤ 16) ∧ (bitsOf (nthD ws 0 0) 1 63 = 0) ∧ ((ws.drop 1).any (counterBad (arg % 32)) = false) :=
  ⟨.portA, 16 + 9 * 2 ^ 38, [0, 0x10100, 0x10100, 0x10100, 0x10100, 0x10100, 0x10100, 0x10100, 0x10100], wPay .portA 0x701 (16 + 9 * 2 ^ 38) [0, 0x10100, 0x10100, 0x10100, 0x10100, 0x10100, 0x10100, 0x10100, 0x10100] (wServ), (takePayload .portA (16 + 9 * 2 ^ 38) 9 9 (taken (wPay .portA 0x701 (16 + 9 * 2 ^ 38) [0, 0x10100, 0x10100, 0x10100, 0x10100, 0x10100, 0x10100, 0x10100, 0x10100] (wServ)))).2, by decide +kernel⟩

theorem test_meets_BcsObserveRows_pmcConfig_invalid : ∃ (b : BoxId) (arg : Nat) (ws : List Word) (s t : State), (headReady s b 0x701 arg = true) ∧ (gateRc { op := 0x701, used := 0x1F, pay := some (9, 9), clamp := some 4 } b arg s = none) ∧ (takePayload b arg 9 9 (taken s) = (some ws, t)) ∧ (16 < arg % 32 ∨ bitsOf (nthD ws 0 0) 1 63 ≠ 0 ∨ (ws.drop 1).any (counterBad (arg % 32)) = true) :=
  ⟨.portA, 17 + 9 * 2 ^ 38, [1, 0x10001, 0x10001, 0x10001, 0x10001, 0x10001, 0x10001, 0x10001, 0x10001], wPay .portA 0x701 (17 + 9 * 2 ^ 38) [1, 0x10001, 0x10001, 0x10001, 0x10001, 0x10001, 0x10001, 0x10001, 0x10001] (wServ), (takePayload .portA (17 + 9 * 2 ^ 38) 9 9 (taken (wPay .portA 0x701 (17 + 9 * 2 ^ 38) [1, 0x10001, 0x10001, 0x10001, 0x10001, 0x10001, 0x10001, 0x10001, 0x10001] (wServ)))).2, by decide +kernel⟩

theorem test_meets_BcsObserveRows_pmcConfig_invalid_2 : ∃ (b : BoxId) (arg : Nat) (ws : List Word) (s t : State), (headReady s b 0x701 arg = true) ∧ (gateRc { op := 0x701, used := 0x1F, pay := some (9, 9), clamp := some 4 } b arg s = none) ∧ (takePayload b arg 9 9 (taken s) = (some ws, t)) ∧ (16 < arg % 32 ∨ bitsOf (nthD ws 0 0) 1 63 ≠ 0 ∨ (ws.drop 1).any (counterBad (arg % 32)) = true) :=
  ⟨.portA, 15 + 9 * 2 ^ 38, [2, 0x10001, 0x10001, 0x10001, 0x10001, 0x10001, 0x10001, 0x10001, 0x10001], wPay .portA 0x701 (15 + 9 * 2 ^ 38) [2, 0x10001, 0x10001, 0x10001, 0x10001, 0x10001, 0x10001, 0x10001, 0x10001] (wServ), (takePayload .portA (15 + 9 * 2 ^ 38) 9 9 (taken (wPay .portA 0x701 (15 + 9 * 2 ^ 38) [2, 0x10001, 0x10001, 0x10001, 0x10001, 0x10001, 0x10001, 0x10001, 0x10001] (wServ)))).2, by decide +kernel⟩

theorem test_meets_BcsObserveRows_pmcConfig_invalid_3 : ∃ (b : BoxId) (arg : Nat) (ws : List Word) (s t : State), (headReady s b 0x701 arg = true) ∧ (gateRc { op := 0x701, used := 0x1F, pay := some (9, 9), clamp := some 4 } b arg s = none) ∧ (takePayload b arg 9 9 (taken s) = (some ws, t)) ∧ (16 < arg % 32 ∨ bitsOf (nthD ws 0 0) 1 63 ≠ 0 ∨ (ws.drop 1).any (counterBad (arg % 32)) = true) :=
  ⟨.portA, 15 + 9 * 2 ^ 38, [1, 0x10016, 0x10016, 0x10016, 0x10016, 0x10016, 0x10016, 0x10016, 0x10016], wPay .portA 0x701 (15 + 9 * 2 ^ 38) [1, 0x10016, 0x10016, 0x10016, 0x10016, 0x10016, 0x10016, 0x10016, 0x10016] (wServ), (takePayload .portA (15 + 9 * 2 ^ 38) 9 9 (taken (wPay .portA 0x701 (15 + 9 * 2 ^ 38) [1, 0x10016, 0x10016, 0x10016, 0x10016, 0x10016, 0x10016, 0x10016, 0x10016] (wServ)))).2, by decide +kernel⟩

theorem test_meets_BcsObserveRows_trbConfig : ∃ (b : BoxId) (arg : Nat) (ws : List Word) (s t : State), (headReady s b 0x702 arg = true) ∧ (gateRc { op := 0x702, pay := some (1, 1), clamp := some 4 } b arg s = none) ∧ (takePayload b arg 1 1 (taken s) = (some ws, t)) ∧ (bitsOf (nthD ws 0 0) 42 22 = 0) :=
  ⟨.portA, 0 + 1 * 2 ^ 38, [0x3FFFFFFFFFF], wPay .portA 0x702 (0 + 1 * 2 ^ 38) [0x3FFFFFFFFFF] (wServ), (takePayload .portA (0 + 1 * 2 ^ 38) 1 1 (taken (wPay .portA 0x702 (0 + 1 * 2 ^ 38) [0x3FFFFFFFFFF] (wServ)))).2, by decide +kernel⟩

theorem test_meets_BcsObserveRows_trbConfig_invalid : ∃ (b : BoxId) (arg : Nat) (ws : List Word) (s t : State), (headReady s b 0x702 arg = true) ∧ (gateRc { op := 0x702, pay := some (1, 1), clamp := some 4 } b arg s = none) ∧ (takePayload b arg 1 1 (taken s) = (some ws, t)) ∧ (bitsOf (nthD ws 0 0) 42 22 ≠ 0) :=
  ⟨.portA, 0 + 1 * 2 ^ 38, [0x40000000000], wPay .portA 0x702 (0 + 1 * 2 ^ 38) [0x40000000000] (wServ), (takePayload .portA (0 + 1 * 2 ^ 38) 1 1 (taken (wPay .portA 0x702 (0 + 1 * 2 ^ 38) [0x40000000000] (wServ)))).2, by decide +kernel⟩

theorem test_meets_BcsFirmwareRows_fwBegin : ∃ (b : BoxId) (arg : Nat) (s : State), (headReady s b 0x800 arg = true) ∧ (gateRc { op := 0x800, used := 0xFFFF, clamp := some 0 } b arg s = none) ∧ (1 ≤ arg / 2 % 2 ^ 15) ∧ (arg / 2 % 2 ^ 15 ≤ 4096) ∧ (arg % 2 ≠ s.mb.active) ∧ ((slotAt s (arg % 2)).state ≠ 2) :=
  ⟨.portA, 1 + 2 * 1, wMsg .portA 0x800 (1 + 2 * 1) (wServ), by decide +kernel⟩

theorem test_meets_BcsFirmwareRows_fwBegin_2 : ∃ (b : BoxId) (arg : Nat) (s : State), (headReady s b 0x800 arg = true) ∧ (gateRc { op := 0x800, used := 0xFFFF, clamp := some 0 } b arg s = none) ∧ (1 ≤ arg / 2 % 2 ^ 15) ∧ (arg / 2 % 2 ^ 15 ≤ 4096) ∧ (arg % 2 ≠ s.mb.active) ∧ ((slotAt s (arg % 2)).state ≠ 2) :=
  ⟨.portA, 1 + 2 * 4096, wMsg .portA 0x800 (1 + 2 * 4096) (wServ), by decide +kernel⟩

theorem test_meets_BcsFirmwareRows_fwBegin_busy : ∃ (b : BoxId) (arg : Nat) (s : State), (headReady s b 0x800 arg = true) ∧ (gateRc { op := 0x800, used := 0xFFFF, clamp := some 0 } b arg s = none) ∧ (1 ≤ arg / 2 % 2 ^ 15) ∧ (arg / 2 % 2 ^ 15 ≤ 4096) ∧ (arg % 2 = s.mb.active) :=
  ⟨.portA, 2, wMsg .portA 0x800 (2) (wServ), by decide +kernel⟩

theorem test_meets_BcsFirmwareRows_fwData : ∃ (b : BoxId) (arg n : Nat) (ws : List Word) (s t : State), (headReady s b 0x801 arg = true) ∧ (gateRc { op := 0x801, used := 0xFFFFFFFF, pay := some (1, 63), clamp := some 0 } b arg s = none) ∧ (takePayload b arg 1 63 (taken s) = (some ws, t)) ∧ (openSlot t = some n) ∧ (arg % 2 ^ 32 + ws.length ≤ (slotAt t n).size * 512) :=
  ⟨.portA, 2 ^ 38, 1, [7], wPay .portA 0x801 (2 ^ 38) [7] { wServ with mb := { slots := [{ state := 3 }, { state := 1, size := 1 }] } }, (takePayload .portA (2 ^ 38) 1 63 (taken (wPay .portA 0x801 (2 ^ 38) [7] { wServ with mb := { slots := [{ state := 3 }, { state := 1, size := 1 }] } }))).2, by decide +kernel⟩

theorem test_meets_BcsFirmwareRows_fwEnd : ∃ (b : BoxId) (arg n : Nat) (s : State), (headReady s b 0x802 arg = true) ∧ (gateRc { op := 0x802, clamp := some 0 } b arg s = none) ∧ (openSlot s = some n) :=
  ⟨.portA, 0, 1, wMsg .portA 0x802 0 { wServ with mb := { slots := [{ state := 3 }, { state := 1, size := 1 }] } }, by decide +kernel⟩

theorem test_meets_BcsFirmwareRows_fwActivate : ∃ (b : BoxId) (arg : Nat) (s : State), (headReady s b 0x803 arg = true) ∧ (gateRc { op := 0x803, used := 0x3, clamp := some 0 } b arg s = none) ∧ ((slotAt s arg).state = 3) ∧ (arg / 2 % 2 = 0) :=
  ⟨.portA, 0, wMsg .portA 0x803 (0) (wServ), by decide +kernel⟩

theorem test_meets_BcsFirmwareRows_fwActivate_online : ∃ (b : BoxId) (arg : Nat) (s : State), (headReady s b 0x803 arg = true) ∧ (gateRc { op := 0x803, used := 0x3, clamp := some 0 } b arg s = none) ∧ ((slotAt s arg).state = 3) ∧ (arg / 2 % 2 = 1) :=
  ⟨.portA, 2, wMsg .portA 0x803 (2) (wServ), by decide +kernel⟩

theorem test_meets_BcsFirmwareRows_fwInfo : ∃ (b : BoxId) (arg : Nat) (s : State), (headReady s b 0x804 arg = true) ∧ (gateRc { op := 0x804, fab := true } b arg s = none) ∧ (b ≠ .fabric) :=
  ⟨.portA, 0, wMsg .portA 0x804 (0) (wServ), by decide +kernel⟩

theorem test_meets_BcsMeterAndReturnRows_meterRecord : ∃ (b : BoxId) (arg : Nat) (s : State), (headReady s b 0x900 arg = true) ∧ (gateRc { op := 0x900, used := 0x1FFF } b arg s = none) :=
  ⟨.portA, 1, wMsg .portA 0x900 (1) (wServ), by decide +kernel⟩

theorem test_meets_BcsMeterAndReturnRows_meterTenant : ∃ (b : BoxId) (arg : Nat) (s : State), (headReady s b 0x901 arg = true) ∧ (gateRc { op := 0x901, used := 0x7FFFF } b arg s = none) :=
  ⟨.portA, 1, wMsg .portA 0x901 (1) (wServ), by decide +kernel⟩

theorem test_meets_BcsMeterAndReturnRows_meterId : ∃ (b : BoxId) (arg : Nat) (s : State), (headReady s b 0x902 arg = true) ∧ (gateRc { op := 0x902 } b arg s = none) :=
  ⟨.portA, 0, wMsg .portA 0x902 (0) (wServ), by decide +kernel⟩

theorem test_meets_BcsMeterAndReturnRows_meterKey : ∃ (b : BoxId) (arg : Nat) (s : State), (headReady s b 0x903 arg = true) ∧ (gateRc { op := 0x903 } b arg s = none) :=
  ⟨.portA, 0, wMsg .portA 0x903 (0) (wServ), by decide +kernel⟩

theorem test_meets_BcsMeterAndReturnRows_meterAudit : ∃ (b : BoxId) (arg : Nat) (s : State), (headReady s b 0x904 arg = true) ∧ (gateRc { op := 0x904 } b arg s = none) :=
  ⟨.portA, 0, wMsg .portA 0x904 (0) (wServ), by decide +kernel⟩

theorem test_meets_BcsMeterAndReturnRows_meterNote : ∃ (notice : Nat) (s : State), (headReady s .meter 0x9F0 notice = true) :=
  ⟨2, wMsg .meter 0x9F0 2 wServ, by decide +kernel⟩

theorem test_meets_BcsMeterAndReturnRows_meterNote_2 : ∃ (notice : Nat) (s : State), (headReady s .meter 0x9F0 notice = true) :=
  ⟨1, wMsg .meter 0x9F0 1 wServ, by decide +kernel⟩

theorem test_meets_BcsMeterAndReturnRows_prepareReturn : ∃ (b : BoxId) (arg : Nat) (s : State), (headReady s b 0xF00 arg = true) ∧ (gateRc { op := 0xF00, clamp := some 0 } b arg s = none) :=
  ⟨.portA, 0, wMsg .portA 0xF00 (0) (wServ), by decide +kernel⟩

theorem test_meets_BcsMeterAndReturnRows_diagSnapshot_none : ∃ (b : BoxId) (arg : Nat) (s : State), (headReady s b 0xF01 arg = true) ∧ (gateRc { op := 0xF01, used := 0xF } b arg s = none) ∧ (s.pw.snaps[arg % 16]? = none) :=
  ⟨.portA, 0, wMsg .portA 0xF01 (0) (wServ), by decide +kernel⟩

theorem test_meets_BcsMeterAndReturnRows_diagSnapshot_none_2 : ∃ (b : BoxId) (arg : Nat) (s : State), (headReady s b 0xF01 arg = true) ∧ (gateRc { op := 0xF01, used := 0xF } b arg s = none) ∧ (s.pw.snaps[arg % 16]? = none) :=
  ⟨.portA, 15, wMsg .portA 0xF01 (15) (wServ), by decide +kernel⟩

theorem test_meets_BcsMeterAndReturnRows_diagSnapshot : ∃ (b : BoxId) (arg : Nat) (x : Snapshot) (s : State), (headReady s b 0xF01 arg = true) ∧ (gateRc { op := 0xF01, used := 0xF } b arg s = none) ∧ (s.pw.snaps[arg % 16]? = some x) :=
  ⟨.sideband, 0, ⟨0, 0, 0, 0, 0, 0, 0, [], [], [], 0, 0, 0⟩, wMsg .sideband 0xF01 0 { pw := { phase := .standby, snaps := [⟨0, 0, 0, 0, 0, 0, 0, [], [], [], 0, 0, 0⟩] } }, by decide +kernel⟩

theorem test_meets_MailboxRows_mbxPost_free : ∃ (snd : Sender) (b : BoxId) (word : Word) (s : State), (snd.box? = some b) ∧ ((boxOf s b).inbox = []) :=
  ⟨.sideband, .sideband, 7, State.reset, by decide +kernel⟩

theorem test_meets_MailboxRows_mbxPost_full : ∃ (snd : Sender) (b : BoxId) (word : Word) (s : State), (snd.box? = some b) ∧ ((boxOf s b).inbox ≠ []) :=
  ⟨.portA, .portA, 7, wMsg .portA 0 0 wServ, by decide +kernel⟩

theorem test_meets_MailboxRows_outboxFree : ∃ (snd : Sender) (b : BoxId) (s : State), (snd.box? = some b) :=
  ⟨.portB, .portB, State.reset, by decide +kernel⟩

theorem test_meets_MailboxRows_drawerOpen_starts : ∃ (snd : Sender) (b : BoxId) (s : State), (snd.box? = some b) ∧ (drwOpen (boxOf s b).inDrw = false) ∧ ((boxOf s b).inDrw.length < 64) :=
  ⟨.portA, .portA, State.reset, by decide +kernel⟩

theorem test_meets_MailboxRows_drawerOpen_refused : ∃ (snd : Sender) (b : BoxId) (s : State), (snd.box? = some b) ∧ (drwOpen (boxOf s b).inDrw = true ∨ 64 ≤ (boxOf s b).inDrw.length) :=
  ⟨.portA, .portA, modBox .portA (fun x => { x with inDrw := [.reserved] }) State.reset, by decide +kernel⟩

theorem test_meets_MailboxRows_drawerOpen_refused_2 : ∃ (snd : Sender) (b : BoxId) (s : State), (snd.box? = some b) ∧ (drwOpen (boxOf s b).inDrw = true ∨ 64 ≤ (boxOf s b).inDrw.length) :=
  ⟨.portA, .portA, modBox .portA (fun x => { x with inDrw := List.replicate 64 (.word 0) }) State.reset, by decide +kernel⟩

theorem test_meets_MailboxRows_drawerClose : ∃ (snd : Sender) (b : BoxId) (s : State), (snd.box? = some b) ∧ (drwOpen (boxOf s b).inDrw = true) :=
  ⟨.portA, .portA, modBox .portA (fun x => { x with inDrw := [.reserved, .word 5] }) State.reset, by decide +kernel⟩

theorem test_meets_MailboxRows_drawerPop : ∃ (snd : Sender) (b : BoxId) (s : State), (snd.box? = some b) ∧ (0 < drwCount (boxOf s b).outDrw) :=
  ⟨.portA, .portA, modBox .portA (fun x => { x with outDrw := [.word 5] }) State.reset, by decide +kernel⟩

theorem test_meets_MailboxRows_drawerWrite_room : ∃ (snd : Sender) (b : BoxId) (word : Word) (s : State), (snd.box? = some b) ∧ (drwOpen (boxOf s b).inDrw = true) ∧ ((boxOf s b).inDrw.length < 64) :=
  ⟨.portA, .portA, 9, modBox .portA (fun x => { x with inDrw := [.reserved] }) State.reset, by decide +kernel⟩

theorem test_meets_MailboxRows_drawerWrite_over : ∃ (snd : Sender) (b : BoxId) (word : Word) (s : State), (snd.box? = some b) ∧ (64 ≤ (boxOf s b).inDrw.length) :=
  ⟨.portA, .portA, 9, modBox .portA (fun x => { x with inDrw := .reserved :: List.replicate 63 (.word 0) }) State.reset, by decide +kernel⟩

theorem test_meets_MailboxRows_outboxPost : ∃ (b : BoxId) (w : Word) (ws : List Word) (s : State), ((boxOf s b).outQ = w :: ws) ∧ ((boxOf s b).outFull = false) ∧ (s.mb.mpReady = true) ∧ (s.mb.open_.all (fun o => o.fin.isNone) = true) :=
  ⟨.portA, 5, [], modBox .portA (fun x => { x with outQ := [5] }) State.reset, by decide +kernel⟩

theorem test_meets_MailboxRows_acknowledge : ∃ (b : BoxId) (rc : Nat) (o : BgOp) (s : State), (s.mb.open_ = [o]) ∧ (o.box = b) ∧ (o.accepted = false) :=
  ⟨.portA, 0, { op := 0x102, box := .portA, tag := 0, arg := 0, accepted := false }, { mb := { open_ := [{ op := 0x102, box := .portA, tag := 0, arg := 0, accepted := false }] } }, by decide +kernel⟩

theorem test_meets_MailboxRows_acknowledge_head : ∃ (b : BoxId) (rc : Nat) (s : State), (s.mb.open_ = []) :=
  ⟨.portA, 0, State.reset, by decide +kernel⟩

theorem test_meets_MailboxRows_messageTake : ∃ (i : Nat) (s : State), (((List.range 5).map (fun i => (s.mb.rot + i) % 5)).find? (fun i => mayTake s (BoxId.ofIx i)) = some i) :=
  ⟨2, wMsg .sideband 0 0 wServ, by decide +kernel⟩

theorem test_meets_MailboxRows_mpMsg_waits : ∃ (src inc : Nat) (word : Word) (s : State), (bitsOf word 60 4 ≠ 15) ∧ ((boxOf s .fabric).inbox.length < 64) :=
  ⟨5, 2, 0, State.reset, by decide +kernel⟩

theorem test_meets_MailboxRows_mpMsg_busy : ∃ (src inc : Nat) (word : Word) (s : State), (bitsOf word 60 4 ≠ 15) ∧ (64 ≤ (boxOf s .fabric).inbox.length) :=
  ⟨5, 2, 0, modBox .fabric (fun x => { x with inbox := List.replicate 64 (0, 0, 0) }) State.reset, by decide +kernel⟩

theorem test_meets_CompletionRows_fwCheckDone_good : ∃ (version sec n : Nat) (s : State), (checkSlot s = some n) ∧ (s.mb.minSec ≤ sec) :=
  ⟨1, 0, 1, { mb := { slots := [{ state := 3 }, { state := 2 }] } }, by decide +kernel⟩

theorem test_meets_CompletionRows_fwCheckDone_bad : ∃ (sig size : Bool) (version sec n : Nat) (s : State), (checkSlot s = some n) ∧ (sig = false ∨ size = false ∨ sec < s.mb.minSec) :=
  ⟨false, true, 1, 0, 1, { mb := { slots := [{ state := 3 }, { state := 2 }] } }, by decide +kernel⟩

theorem test_meets_CompletionRows_fwCheckDone_bad_2 : ∃ (sig size : Bool) (version sec n : Nat) (s : State), (checkSlot s = some n) ∧ (sig = false ∨ size = false ∨ sec < s.mb.minSec) :=
  ⟨true, true, 1, 0, 1, { mb := { minSec := 1, slots := [{ state := 3 }, { state := 2 }] } }, by decide +kernel⟩

theorem test_meets_CompletionRows_formatDone : ∃ (s : State), (s.ck.formatting = true) ∧ (linesInUse s = false) :=
  ⟨{ ck := { formatting := true } }, by decide +kernel⟩

theorem test_meets_CompletionRows_sanitizeDone : ∃ (s : State), (s.sec.sanitize ≠ 0) ∧ (linesInUse s = false) ∧ ((endOps 0x404 (fun _ => true) 0 (sanitizeAll s)).cxlA.bg = none) ∧ ((endOps 0x404 (fun _ => true) 0 (sanitizeAll s)).cxlB.bg = none) :=
  ⟨{ sec := { sanitize := 1 } }, by decide +kernel⟩

theorem test_meets_KeyRows_keyInstall : ∃ (snd : Sender) (arg : Nat) (ws : List Word) (s : State), (mpRuns s = true) ∧ (snd ≠ .mp) ∧ (keyCheck snd arg 13 true (ws ++ [(kcvOf (materialOf ws)).setWidth 64]) 9 9 (keySession s snd) s = none) ∧ (ws.length = 8) ∧ (keyOf s (arg % 4096) = none) :=
  ⟨.portA, 9 * 2 ^ 38 + 288, [1, 2, 3, 4, 5, 6, 7, 8], { pw := { phase := .service }, mb := { clamps := List.replicate 16 { owner := Sender.ix .portA + 1 } }, sec := { trustKm := [(0, [1])], sessions := [(Sender.ix .portA, ⟨true, 0⟩)] } }, by decide +kernel⟩

theorem test_meets_KeyRows_keyInstall_occupied : ∃ (snd : Sender) (arg : Nat) (payload : List Word) (k : KeySlot) (s : State), (mpRuns s = true) ∧ (snd ≠ .mp) ∧ (keyCheck snd arg 13 true payload 9 9 (keySession s snd) s = none) ∧ (keyOf s (arg % 4096) = some k) :=
  ⟨.portA, 9 * 2 ^ 38 + 288, List.replicate 9 0, ⟨.installed, true, 0, 0, none⟩, { pw := { phase := .service }, mb := { clamps := List.replicate 16 { owner := Sender.ix .portA + 1 } }, sec := { trustKm := [(0, [1])], sessions := [(Sender.ix .portA, ⟨true, 0⟩)], kids := [(288, ⟨.installed, true, 0, 0, none⟩)] } }, by decide +kernel⟩

theorem test_meets_KeyRows_keyQuery : ∃ (snd : Sender) (arg : Nat) (s : State), (mpRuns s = true) ∧ (snd ≠ .mp) ∧ (keyCheck snd arg 12 false [] 0 0 (keySession s snd) s = none) :=
  ⟨.sideband, 288, { pw := { phase := .service }, mb := { clamps := List.replicate 16 { owner := Sender.ix .sideband + 1 } }, sec := { trustKm := [(0, [1])], sessions := [(Sender.ix .sideband, ⟨true, 0⟩)] } }, by decide +kernel⟩

theorem test_meets_KeyRows_keyRetire : ∃ (snd : Sender) (arg : Nat) (k : KeySlot) (s : State), (mpRuns s = true) ∧ (snd ≠ .mp) ∧ (keyCheck snd arg 12 true [] 0 0 (keySession s snd) s = none) ∧ (keyOf s (arg % 4096) = some k) ∧ (k.st = .installed) :=
  ⟨.portA, 288, ⟨.installed, true, 0, 0, none⟩, { pw := { phase := .service }, mb := { clamps := List.replicate 16 { owner := Sender.ix .portA + 1 } }, sec := { trustKm := [(0, [1])], sessions := [(Sender.ix .portA, ⟨true, 0⟩)], kids := [(288, ⟨.installed, true, 0, 0, none⟩)] } }, by decide +kernel⟩

theorem test_meets_KeyRows_keyRekey : ∃ (snd : Sender) (arg : Nat) (payload : List Word) (k t : KeySlot) (s : State), (mpRuns s = true) ∧ (snd ≠ .mp) ∧ (keyCheck snd arg 24 true payload 1 16 (keySession s snd) s = none) ∧ (keyOf s (arg % 4096) = some k) ∧ (k.st = .installed) ∧ (arg % 4096 ≠ arg / 4096 % 4096) ∧ (keyOf s (arg / 4096 % 4096) = some t) ∧ (t.st = .installed) ∧ (t.integrity = k.integrity) ∧ ((payload.map rangeOf).all rangeOk = true) ∧ (s.sec.rekey = none) :=
  ⟨.portA, 2 ^ 38 + 289 * 4096 + 288, [BitVec.ofNat 64 (2 ^ 32)], ⟨.installed, true, 0, 0, none⟩, ⟨.installed, true, 0, 0, none⟩, { pw := { phase := .service }, mb := { clamps := List.replicate 16 { owner := Sender.ix .portA + 1 } }, sec := { trustKm := [(0, [1])], sessions := [(Sender.ix .portA, ⟨true, 0⟩)], kids := [(288, ⟨.installed, true, 0, 0, none⟩), (289, ⟨.installed, true, 0, 0, none⟩)] } }, by decide +kernel⟩

theorem test_meets_KeyRows_keyQuery_refused : ∃ (snd : Sender) (arg rc : Nat) (s : State), (mpRuns s = true) ∧ (snd ≠ .mp) ∧ (keyCheck snd arg 12 false [] 0 0 (keySession s snd) s = some rc) :=
  ⟨.portA, 0, 3, wServ, by decide +kernel⟩

theorem test_meets_KeyRows_keyQuery_refused_2 : ∃ (snd : Sender) (arg rc : Nat) (s : State), (mpRuns s = true) ∧ (snd ≠ .mp) ∧ (keyCheck snd arg 12 false [] 0 0 (keySession s snd) s = some rc) :=
  ⟨.portA, 4096, 4, { pw := { phase := .service }, mb := { clamps := List.replicate 16 { owner := Sender.ix .portA + 1 } }, sec := { trustKm := [(0, [1])], sessions := [(Sender.ix .portA, ⟨true, 0⟩)] } }, by decide +kernel⟩

theorem test_meets_KeyRows_trustAdd_km : ∃ (snd : Sender) (arg : Nat) (payload : List Word) (s : State), (mpRuns s = true) ∧ (snd ≠ .mp) ∧ (keyCheck snd arg 4 true payload 1 63 (keySession s snd || firstRoot s snd arg) s = none) ∧ (arg % 2 = 0) :=
  ⟨.portA, 2 ^ 38 + 2, [7], { pw := { phase := .service }, mb := { clamps := List.replicate 16 { owner := Sender.ix .portA + 1 } }, sec := { trustKm := [(0, [1])], sessions := [(Sender.ix .portA, ⟨true, 0⟩)] } }, by decide +kernel⟩

theorem test_meets_KeyRows_trustAdd_km_2 : ∃ (snd : Sender) (arg : Nat) (payload : List Word) (s : State), (mpRuns s = true) ∧ (snd ≠ .mp) ∧ (keyCheck snd arg 4 true payload 1 63 (keySession s snd || firstRoot s snd arg) s = none) ∧ (arg % 2 = 0) :=
  ⟨.sideband, 2 ^ 38, [7], { pw := { phase := .service }, mb := { clamps := List.replicate 16 { owner := 3 } }, sec := { sessions := [(2, ⟨true, 8⟩)] } }, by decide +kernel⟩

theorem test_meets_KeyRows_trustAdd_pool : ∃ (snd : Sender) (arg : Nat) (payload : List Word) (s : State), (mpRuns s = true) ∧ (snd ≠ .mp) ∧ (keyCheck snd arg 4 true payload 1 63 (keySession s snd || firstRoot s snd arg) s = none) ∧ (arg % 2 = 1) :=
  ⟨.portA, 2 ^ 38 + 15, [7], { pw := { phase := .service }, mb := { clamps := List.replicate 16 { owner := Sender.ix .portA + 1 } }, sec := { trustKm := [(0, [1])], sessions := [(Sender.ix .portA, ⟨true, 0⟩)] } }, by decide +kernel⟩

theorem test_meets_KeyRows_trustRemove_km : ∃ (snd : Sender) (arg : Nat) (s : State), (mpRuns s = true) ∧ (snd ≠ .mp) ∧ (keyCheck snd arg 4 true [] 0 0 (keySession s snd) s = none) ∧ (arg % 2 = 0) :=
  ⟨.portA, 0, { pw := { phase := .service }, mb := { clamps := List.replicate 16 { owner := Sender.ix .portA + 1 } }, sec := { trustKm := [(0, [1])], sessions := [(Sender.ix .portA, ⟨true, 0⟩)] } }, by decide +kernel⟩

theorem test_meets_KeyRows_trustRemove_pool : ∃ (snd : Sender) (arg : Nat) (s : State), (mpRuns s = true) ∧ (snd ≠ .mp) ∧ (keyCheck snd arg 4 true [] 0 0 (keySession s snd) s = none) ∧ (arg % 2 = 1) :=
  ⟨.portA, 1, { pw := { phase := .service }, mb := { clamps := List.replicate 16 { owner := Sender.ix .portA + 1 } }, sec := { trustKm := [(0, [1])], sessions := [(Sender.ix .portA, ⟨true, 0⟩)] } }, by decide +kernel⟩

theorem test_meets_KeyRows_keyRetireDone : ∃ (kid : Nat) (k : KeySlot) (s : State), (keyOf s kid = some k) ∧ (k.st ≠ .installed) ∧ (retiring s kid = false) ∧ (s.sec.rekey.any (fun r => r.source == kid) = false) :=
  ⟨288, ⟨.retiring, true, 0, 0, none⟩, { sec := { kids := [(288, ⟨.retiring, true, 0, 0, none⟩)] } }, by decide +kernel⟩

theorem test_meets_KeyRows_keyRetireDone_waits : ∃ (kid : Nat) (k : KeySlot) (s : State), (keyOf s kid = some k) ∧ (k.st = .installed ∨ retiring s kid = true ∨ s.sec.rekey.any (fun r => r.source == kid) = true) :=
  ⟨288, ⟨.installed, true, 0, 0, none⟩, { sec := { kids := [(288, ⟨.installed, true, 0, 0, none⟩)] } }, by decide +kernel⟩

theorem test_meets_KeyRows_session_opens : ∃ (snd : Sender) (auth : Bool) (root : Nat) (s : State), (snd ≠ .mp) :=
  ⟨.portA, true, 0, State.reset, by decide +kernel⟩

theorem test_meets_KeyRows_session_ends : ∃ (snd : Sender) (auth : Bool) (root : Nat) (s : State), (snd ≠ .mp) :=
  ⟨.sideband, true, 0, State.reset, by decide +kernel⟩

theorem test_meets_ReencryptionRows_reencStep : ∃ (seg : Nat) (w : Walk) (s : State), (s.pw.phase = .service) ∧ (seqBusy s seg = false) ∧ (s.sec.walks.find? (fun w => w.seg == seg && decide (w.pos < 2 ^ 24)) = some w) :=
  ⟨3, { seg := 3, gen := 0, pinned := 0 }, { pw := { phase := .service }, sec := { walks := [{ seg := 3, gen := 0, pinned := 0 }] } }, by decide +kernel⟩

theorem test_meets_ReencryptionRows_reencDone : ∃ (seg : Nat) (w : Walk) (s : State), (s.sec.walks.find? (fun w => w.seg == seg) = some w) ∧ (walkDone s w = true) :=
  ⟨3, { seg := 3, gen := 0, pinned := 0, pos := 2 ^ 24 }, { sec := { walks := [{ seg := 3, gen := 0, pinned := 0, pos := 2 ^ 24 }] } }, by decide +kernel⟩

theorem test_meets_ReencryptionRows_reencQueueStart : ∃ (w : Walk) (ws : List Walk) (s : State), (s.sec.queued = w :: ws) ∧ (s.sec.walks.length < 16) :=
  ⟨{ seg := 3, gen := 0, pinned := 0 }, [], { sec := { queued := [{ seg := 3, gen := 0, pinned := 0 }] } }, by decide +kernel⟩

theorem test_meets_ReencryptionRows_ideKeyRefresh : ∃ (p : Port) (s : State), ((Table.get? s.sec.sessions p.sender.ix).isSome = true) ∧ (0 < (s.port p).width) :=
  ⟨.a, { portA := { width := 16 }, sec := { sessions := [(0, ⟨true, 0⟩)] } }, by decide +kernel⟩

theorem test_meets_ReencryptionRows_ideKeyExpire : ∃ (p : Port) (s : State), ((s.port p).ide = true) :=
  ⟨.b, { portB := { ide := true } }, by decide +kernel⟩

theorem test_meets_ReencryptionRows_ideIntegrityFailure : ∃ (p : Port) (s : State), ((s.port p).ide = true) ∧ ((s.port p).width ≠ 0) :=
  ⟨.a, { portA := { ide := true, width := 16 } }, by decide +kernel⟩

theorem test_meets_CxlInformationRows_cxlIdentify : ∃ (p : Port) (s : State), (cxlUp s = true) :=
  ⟨.a, State.reset, by decide +kernel⟩

theorem test_meets_CxlInformationRows_cxlBackgroundStatus : ∃ (p : Port) (op : Nat) (done : Bool) (s : State), (cxlUp s = true) ∧ ((s.cxl p).bg = some (op, done)) :=
  ⟨.a, 0x4304, true, { cxlA := { bg := some (0x4304, true) } }, by decide +kernel⟩

theorem test_meets_CxlInformationRows_cxlBackgroundStatus_none : ∃ (p : Port) (s : State), (cxlUp s = true) ∧ ((s.cxl p).bg = none) :=
  ⟨.b, State.reset, by decide +kernel⟩

theorem test_meets_CxlInformationRows_cxlGetEventRecords : ∃ (p : Port) (log : CxlLog) (s : State), (cxlUp s = true) :=
  ⟨.a, .fatal, State.reset, by decide +kernel⟩

theorem test_meets_CxlInformationRows_cxlClearEventRecords_all : ∃ (p : Port) (log : CxlLog) (s : State), (cxlUp s = true) :=
  ⟨.a, .info, State.reset, by decide +kernel⟩

theorem test_meets_CxlInformationRows_cxlClearEventRecords : ∃ (p : Port) (log : CxlLog) (hs : List Nat) (s : State), (cxlUp s = true) ∧ (hs ≠ []) ∧ (hs.all (fun h => (nthD (s.cxl p).logs (logIx log) []).contains h) = true) :=
  ⟨.a, .info, [3], { cxlA := { logs := [[3, 4], [], [], []] } }, by decide +kernel⟩

theorem test_meets_CxlInformationRows_cxlClearEventRecords_bad : ∃ (p : Port) (log : CxlLog) (hs : List Nat) (s : State), (cxlUp s = true) ∧ (hs.all (fun h => (nthD (s.cxl p).logs (logIx log) []).contains h) = false) :=
  ⟨.a, .info, [5], { cxlA := { logs := [[3, 4], [], [], []] } }, by decide +kernel⟩

theorem test_meets_CxlInformationRows_cxlGetEventIntPolicy : ∃ (p : Port) (s : State), (cxlUp s = true) :=
  ⟨.a, State.reset, by decide +kernel⟩

theorem test_meets_CxlInformationRows_cxlSetEventIntPolicy : ∃ (p : Port) (policy : List Nat) (s : State), (cxlUp s = true) ∧ (policy.length = 4) ∧ (policy.all (fun v => decide (v < 256)) = true) :=
  ⟨.a, [255, 0, 0, 0], State.reset, by decide +kernel⟩

theorem test_meets_CxlInformationRows_cxlGetFwInfo : ∃ (p : Port) (s : State), (cxlUp s = true) :=
  ⟨.a, State.reset, by decide +kernel⟩

theorem test_meets_CxlInformationRows_cxlGetTimestamp : ∃ (p : Port) (s : State), (cxlUp s = true) :=
  ⟨.a, State.reset, by decide +kernel⟩

theorem test_meets_CxlInformationRows_cxlSetTimestamp : ∃ (p : Port) (t : Nat) (s : State), (cxlUp s = true) :=
  ⟨.a, 5, State.reset, by decide +kernel⟩

theorem test_meets_CxlInformationRows_cxlGetSupportedLogs : ∃ (p : Port) (s : State), (cxlUp s = true) :=
  ⟨.a, State.reset, by decide +kernel⟩

theorem test_meets_CxlInformationRows_cxlGetLog : ∃ (p : Port) (s : State), (cxlUp s = true) :=
  ⟨.a, State.reset, by decide +kernel⟩

theorem test_meets_CxlInformationRows_cxlIdentifyMemoryDevice : ∃ (p : Port) (s : State), (cxlUp s = true) :=
  ⟨.a, State.reset, by decide +kernel⟩

theorem test_meets_CxlInformationRows_cxlGetPartitionInfo : ∃ (p : Port) (s : State), (cxlUp s = true) :=
  ⟨.a, State.reset, by decide +kernel⟩

theorem test_meets_CxlInformationRows_cxlGetHealthInfo : ∃ (p : Port) (s : State), (cxlUp s = true) :=
  ⟨.a, State.reset, by decide +kernel⟩

theorem test_meets_CxlInformationRows_cxlGetAlertConfig : ∃ (p : Port) (s : State), (cxlUp s = true) :=
  ⟨.a, State.reset, by decide +kernel⟩

theorem test_meets_CxlInformationRows_cxlSetAlertConfig : ∃ (p : Port) (cfg : List Nat) (s : State), (cxlUp s = true) :=
  ⟨.a, [1], State.reset, by decide +kernel⟩

theorem test_meets_CxlInformationRows_cxlGetShutdownState : ∃ (p : Port) (s : State), (cxlUp s = true) :=
  ⟨.a, State.reset, by decide +kernel⟩

theorem test_meets_CxlInformationRows_cxlSetShutdownState : ∃ (p : Port) (dirty : Bool) (s : State), (cxlUp s = true) :=
  ⟨.a, true, State.reset, by decide +kernel⟩

theorem test_meets_CxlInformationRows_cxlScanMediaCaps : ∃ (p : Port) (s : State), (cxlUp s = true) :=
  ⟨.a, State.reset, by decide +kernel⟩

theorem test_meets_CxlMemoryRows_cxlTransferFw_abort : ∃ (p : Port) (slot off : Nat) (ws : List Word) (s : State), (cxlUp s = true) ∧ (holds p.sender 0 s = true) ∧ (bgRuns p s = false) ∧ ((openSlot s).isSome = true) :=
  ⟨.a, 1, 0, [], { wServ with mb := { clamps := List.replicate 16 { owner := 1 }, slots := [{ state := 3 }, { state := 1 }] } }, by decide +kernel⟩

theorem test_meets_CxlMemoryRows_cxlTransferFw_initiate : ∃ (p : Port) (slot off : Nat) (ws : List Word) (s : State), (cxlUp s = true) ∧ (holds p.sender 0 s = true) ∧ (bgRuns p s = false) ∧ (slot = 1 ∨ slot = 2) ∧ ((fwOpen (slot - 1) 4096 s).1 = 0) :=
  ⟨.a, 2, 0, [7], { pw := { phase := .service }, mb := { clamps := List.replicate 16 { owner := 1 } } }, by decide +kernel⟩

theorem test_meets_CxlMemoryRows_cxlTransferFw_continue : ∃ (p : Port) (slot off : Nat) (ws : List Word) (s : State), (cxlUp s = true) ∧ (holds p.sender 0 s = true) ∧ (bgRuns p s = false) :=
  ⟨.a, 2, 0, [7], { pw := { phase := .service }, mb := { clamps := List.replicate 16 { owner := 1 } } }, by decide +kernel⟩

theorem test_meets_CxlMemoryRows_cxlTransferFw_end : ∃ (p : Port) (slot off : Nat) (ws : List Word) (s : State), (cxlUp s = true) ∧ (holds p.sender 0 s = true) ∧ (bgRuns p s = false) :=
  ⟨.a, 2, 0, [7], { pw := { phase := .service }, mb := { clamps := List.replicate 16 { owner := 1 } } }, by decide +kernel⟩

theorem test_meets_CxlMemoryRows_cxlActivateFw_boot : ∃ (p : Port) (slot : Nat) (s : State), (cxlUp s = true) ∧ (holds p.sender 0 s = true) ∧ (slot = 1 ∨ slot = 2) ∧ ((slotAt s (slot - 1)).state = 3) :=
  ⟨.a, 1, { pw := { phase := .service }, mb := { clamps := List.replicate 16 { owner := 1 } } }, by decide +kernel⟩

theorem test_meets_CxlMemoryRows_cxlActivateFw_online : ∃ (p : Port) (slot : Nat) (s : State), (cxlUp s = true) ∧ (holds p.sender 0 s = true) ∧ (slot = 1 ∨ slot = 2) ∧ ((slotAt s (slot - 1)).state = 3) ∧ (s.mb.fwRestart = none) ∧ (s.mb.mpReady = true) :=
  ⟨.a, 1, { pw := { phase := .service }, mb := { clamps := List.replicate 16 { owner := 1 } } }, by decide +kernel⟩

theorem test_meets_CxlMemoryRows_cxlGetLsa : ∃ (p : Port) (off len : Nat) (s : State), (cxlUp s = true) ∧ (serving s = true) ∧ (off + len ≤ 131072) :=
  ⟨.a, 0, 0, wServ, by decide +kernel⟩

theorem test_meets_CxlMemoryRows_cxlGetLsa_2 : ∃ (p : Port) (off len : Nat) (s : State), (cxlUp s = true) ∧ (serving s = true) ∧ (off + len ≤ 131072) :=
  ⟨.a, 131064, 8, wServ, by decide +kernel⟩

theorem test_meets_CxlMemoryRows_cxlSetLsa : ∃ (p : Port) (off : Nat) (bytes : List (BitVec 8)) (s : State), (cxlUp s = true) ∧ (serving s = true) ∧ (off + bytes.length ≤ 131072) :=
  ⟨.b, 131071, [7], wServ, by decide +kernel⟩

theorem test_meets_CxlMemoryRows_cxlGetPoisonList : ∃ (p : Port) (dpa len : Nat) (s : State), (cxlUp s = true) ∧ (serving s = true) :=
  ⟨.a, 0, 64, wServ, by decide +kernel⟩

theorem test_meets_CxlMemoryRows_cxlInjectPoison : ∃ (p : Port) (dpa : Nat) (d : Decoded) (s : State), (cxlUp s = true) ∧ (serving s = true) ∧ (decodeDpa (s.port p) dpa = some d) ∧ (d.wr = true) ∧ (d.kvalid = true) ∧ (keyServes s d.kid = true) ∧ (plaNode d.pla = me s) :=
  ⟨.a, 0, ⟨0, 288, true, 0, true, true, 0⟩, wWin, by decide +kernel⟩

theorem test_meets_CxlMemoryRows_cxlClearPoison : ∃ (p : Port) (dpa : Nat) (data : Line) (d : Decoded) (s : State), (cxlUp s = true) ∧ (serving s = true) ∧ (decodeDpa (s.port p) dpa = some d) ∧ (d.wr = true) ∧ (d.kvalid = true) ∧ (keyServes s d.kid = true) ∧ (plaNode d.pla = me s) :=
  ⟨.a, 64, 7, ⟨64, 288, true, 0, true, true, 0⟩, wWin, by decide +kernel⟩

theorem test_meets_CxlMemoryRows_cxlScanMedia : ∃ (p : Port) (s : State), (cxlUp s = true) ∧ (holds p.sender 6 s = true) ∧ (serving s = true) ∧ (s.prot.scanning = false) ∧ (bgRuns p s = false) :=
  ⟨.a, { pw := { phase := .service }, mb := { clamps := List.replicate 16 { owner := 1 } } }, by decide +kernel⟩

theorem test_meets_CxlMemoryRows_cxlScanMediaResults : ∃ (p : Port) (s : State), (cxlUp s = true) ∧ (serving s = true) ∧ (s.prot.scanning = false) :=
  ⟨.a, wServ, by decide +kernel⟩

theorem test_meets_CxlMemoryRows_cxlSanitize : ∃ (p : Port) (s : State), (cxlUp s = true) ∧ (holds p.sender 0 s = true) ∧ (eraseBar s = none) ∧ (bgRuns p s = false) :=
  ⟨.a, { pw := { phase := .service }, mb := { clamps := List.replicate 16 { owner := 1 } } }, by decide +kernel⟩

theorem test_meets_CxlMemoryRows_cxlSecureErase : ∃ (p : Port) (s : State), (cxlUp s = true) ∧ (holds p.sender 0 s = true) ∧ (eraseBar s = none) ∧ (bgRuns p s = false) :=
  ⟨.a, { pw := { phase := .service }, mb := { clamps := List.replicate 16 { owner := 1 } } }, by decide +kernel⟩

theorem test_meets_CxlMemoryRows_cxlGetLsa_busy : ∃ (p : Port) (off len : Nat) (s : State), (cxlUp s = true) ∧ (serving s = false) :=
  ⟨.a, 0, 8, State.reset, by decide +kernel⟩

theorem test_meets_ClampRows_clampRead_free : ∃ (n i : Nat) (readers : List Sender) (s : State), (clampWinner (nthD s.mb.clamps n {}).ptr readers = some i) ∧ ((nthD s.mb.clamps n {}).owner = 0) :=
  ⟨15, 3, [.mp, .portA], { mb := { clamps := List.replicate 16 { ptr := 3 } } }, by decide +kernel⟩

theorem test_meets_ClampRows_clampRead_free_2 : ∃ (n i : Nat) (readers : List Sender) (s : State), (clampWinner (nthD s.mb.clamps n {}).ptr readers = some i) ∧ ((nthD s.mb.clamps n {}).owner = 0) :=
  ⟨0, 0, [.portB, .portA], State.reset, by decide +kernel⟩

theorem test_meets_ClampRows_clampRead_held : ∃ (n : Nat) (readers : List Sender) (s : State), ((nthD s.mb.clamps n {}).owner ≠ 0) :=
  ⟨0, [.portA], { mb := { clamps := [{ owner := 2 }] } }, by decide +kernel⟩

theorem test_meets_ClampRows_clampRelease : ∃ (snd : Sender) (n : Nat) (s : State), (holds snd n s = true) :=
  ⟨.portB, 15, { mb := { clamps := List.replicate 16 { owner := 2 } } }, by decide +kernel⟩

theorem test_meets_ClampRows_clampRelease_foreign : ∃ (snd : Sender) (n : Nat) (s : State), (holds snd n s = false) :=
  ⟨.portB, 0, State.reset, by decide +kernel⟩

theorem test_meets_ClampRows_clampForce : ∃ (n : Nat) (s : State), ((nthD s.mb.clamps n {}).owner ≠ 0) :=
  ⟨12, { mb := { clamps := List.replicate 16 { owner := 1 } } }, by decide +kernel⟩

theorem test_meets_ClampRows_clampForce_foreign : ∃ (snd : Sender) (n : Nat) (s : State), (snd ≠ .sideband) :=
  ⟨.portA, 0, State.reset, by decide +kernel⟩

theorem test_meets_ClampRows_clampForce_foreign_2 : ∃ (snd : Sender) (n : Nat) (s : State), (snd ≠ .sideband) :=
  ⟨.mp, 15, State.reset, by decide +kernel⟩

theorem test_meets_HostPortRows_hostLinkTrain : ∃ (p : Port) (lanes rate m w : Nat) (loflit : Bool) (s : State), (s.pw.phase = .replay ∨ s.pw.phase = .service ∨ s.pw.phase = .flush) ∧ (1 ≤ rate) ∧ (rate ≤ 3) ∧ (bestLanes lanes = some (m, w)) :=
  ⟨.a, 0xFFFF, 3, 0xFFFF, 3, true, State.reset, by decide +kernel⟩

theorem test_meets_HostPortRows_hostLinkTrain_2 : ∃ (p : Port) (lanes rate m w : Nat) (loflit : Bool) (s : State), (s.pw.phase = .replay ∨ s.pw.phase = .service ∨ s.pw.phase = .flush) ∧ (1 ≤ rate) ∧ (rate ≤ 3) ∧ (bestLanes lanes = some (m, w)) :=
  ⟨.b, 0xF1FF, 1, 0x00FF, 2, false, State.reset, by decide +kernel⟩

theorem test_meets_HostPortRows_hostLinkLoss : ∃ (p : Port) (s : State), ((s.port p).width ≠ 0) :=
  ⟨.b, { portB := { width := 1 } }, by decide +kernel⟩

theorem test_meets_HostPortRows_hostLaneFault : ∃ (p : Port) (lane m w : Nat) (s : State), ((s.port p).width ≠ 0) ∧ (lane < 16) ∧ ((s.port p).faults / 2 ^ lane % 2 ≠ 1) ∧ (withoutLane (s.port p) lane = some (m, w)) :=
  ⟨.a, 0, 0xFF00, 2, { portA := { width := 3 } }, by decide +kernel⟩

theorem test_meets_HostPortRows_hostLaneFault_lost : ∃ (p : Port) (lane : Nat) (s : State), ((s.port p).width ≠ 0) ∧ (lane < 16) ∧ ((s.port p).faults / 2 ^ lane % 2 ≠ 1) ∧ (withoutLane (s.port p) lane = none) :=
  ⟨.a, 2, { portA := { width := 1, faults := 0xFFF0 } }, by decide +kernel⟩

theorem test_meets_HostPortRows_biRsp : ∃ (p : Port) (node dla : Nat) (keepS : Bool) (s : State), ((Table.get? s.coh.bis (biKey p node dla)).isSome = true) :=
  ⟨.a, 0, 5, true, { coh := { bis := [(biKey .a 0 5, .data)] } }, by decide +kernel⟩

theorem test_meets_HostPortRows_biTimeout : ∃ (p : Port) (node dla : Nat) (s : State), ((Table.get? s.coh.bis (biKey p node dla)).isSome = true) :=
  ⟨.b, 0, 5, { coh := { bis := [(biKey .b 0 5, .inv)] } }, by decide +kernel⟩

theorem test_meets_PowerRows_vauxApply : ∃ (s : State), (s.pw.phase = .off) :=
  ⟨{ pw := { phase := .off, mode := 0 } }, by decide +kernel⟩

theorem test_meets_PowerRows_vauxLoss : ∃ (s : State), (s.pw.phase ≠ .off) :=
  ⟨wServ, by decide +kernel⟩

theorem test_meets_PowerRows_vinUnderVoltage_service : ∃ (s : State), (s.pw.phase = .service) :=
  ⟨wServ, by decide +kernel⟩

theorem test_meets_PowerRows_vinUnderVoltage_early : ∃ (s : State), (s.pw.phase = .boot ∨ s.pw.phase = .replay) :=
  ⟨{ pw := { phase := .boot } }, by decide +kernel⟩

theorem test_meets_PowerRows_vinUnderVoltage_early_2 : ∃ (s : State), (s.pw.phase = .boot ∨ s.pw.phase = .replay) :=
  ⟨{ pw := { phase := .replay } }, by decide +kernel⟩

theorem test_meets_PowerRows_vinOverVoltage : ∃ (s : State), (railsOn s = true) :=
  ⟨wServ, by decide +kernel⟩

theorem test_meets_PowerRows_railFault : ∃ (code : Nat) (s : State), (2 ≤ code) ∧ (code ≤ 11) ∧ (s.pw.phase = .replay ∨ s.pw.phase = .service ∨ s.pw.phase = .flush ∨ (s.pw.phase = .boot ∧ 3 ≤ s.pw.bootStep)) :=
  ⟨2, wServ, by decide +kernel⟩

theorem test_meets_PowerRows_railFault_2 : ∃ (code : Nat) (s : State), (2 ≤ code) ∧ (code ≤ 11) ∧ (s.pw.phase = .replay ∨ s.pw.phase = .service ∨ s.pw.phase = .flush ∨ (s.pw.phase = .boot ∧ 3 ≤ s.pw.bootStep)) :=
  ⟨11, { pw := { phase := .boot, bootStep := 3 } }, by decide +kernel⟩

theorem test_meets_PowerRows_railFault_recorded : ∃ (code : Nat) (s : State), (2 ≤ code) ∧ (code ≤ 11) ∧ (s.pw.phase = .powerDown) ∧ (code < s.pw.rail) :=
  ⟨2, { pw := { phase := .powerDown, rail := 3 } }, by decide +kernel⟩

theorem test_meets_PowerRows_railFault_recorded_2 : ∃ (code : Nat) (s : State), (2 ≤ code) ∧ (code ≤ 11) ∧ (s.pw.phase = .powerDown) ∧ (code < s.pw.rail) :=
  ⟨10, { pw := { phase := .powerDown, rail := 11 } }, by decide +kernel⟩

theorem test_meets_PowerRows_vaoFault : ∃ (s : State), (s.pw.phase ≠ .off) :=
  ⟨wServ, by decide +kernel⟩

theorem test_meets_PowerRows_vholdWindow_above : ∃ (s : State), (s.pw.phase = .service) :=
  ⟨wServ, by decide +kernel⟩

theorem test_meets_PowerRows_vholdWindow_below : ∃ (s : State), (s.pw.phase = .service) :=
  ⟨wServ, by decide +kernel⟩

theorem test_meets_PowerRows_holdShort : ∃ (s : State), (s.pw.phase = .flush) ∧ (s.pw.sourceHold = true) :=
  ⟨{ pw := { phase := .flush, sourceHold := true } }, by decide +kernel⟩

theorem test_meets_PowerRows_psvStart : ∃ (snd : Sender) (s : State), (snd.port? = none) :=
  ⟨.sideband, wStand, by decide +kernel⟩

theorem test_meets_PowerRows_psvStart_2 : ∃ (snd : Sender) (s : State), (snd.port? = none) :=
  ⟨.mp, wStand, by decide +kernel⟩

theorem test_meets_PowerRows_psvStart_port : ∃ (snd : Sender) (p : Port) (s : State), (snd.port? = some p) :=
  ⟨.portB, .b, wStand, by decide +kernel⟩

theorem test_meets_PowerRows_powerdownStep : ∃ (s : State), (s.pw.phase = .powerDown) ∧ (2 ≤ s.pw.rail) :=
  ⟨{ pw := { phase := .powerDown, rail := 11 } }, by decide +kernel⟩

theorem test_meets_PowerRows_powerdownStep_2 : ∃ (s : State), (s.pw.phase = .powerDown) ∧ (2 ≤ s.pw.rail) :=
  ⟨{ pw := { phase := .powerDown, rail := 2 } }, by decide +kernel⟩

theorem test_meets_PowerRows_powerdownStepTimeout : ∃ (s : State), (s.pw.phase = .powerDown) ∧ (2 ≤ s.pw.rail) ∧ (s.pw.fallback = false) :=
  ⟨{ pw := { phase := .powerDown, rail := 11 } }, by decide +kernel⟩

theorem test_meets_PowerRows_fallbackTimeout : ∃ (s : State), (s.pw.phase = .powerDown) ∧ (2 ≤ s.pw.rail) ∧ (s.pw.fallback = true) :=
  ⟨{ pw := { phase := .powerDown, rail := 11, fallback := true } }, by decide +kernel⟩

theorem test_meets_PowerRows_powerdownEnd : ∃ (s : State), (s.pw.phase = .powerDown) ∧ (s.pw.rail < 2) :=
  ⟨{ pw := { phase := .powerDown, rail := 1 } }, by decide +kernel⟩

theorem test_meets_BootAndClockRows_bootEntry : ∃ (s : State), (s.pw.phase = .standby) ∧ (s.pw.startArmed = true) ∧ (s.pw.block = false) ∧ (s.pw.vinQualified = true) ∧ (s.pw.hold = false) ∧ (s.pw.scan = false) :=
  ⟨{ pw := { phase := .standby, startArmed := true, vinQualified := true } }, by decide +kernel⟩

theorem test_meets_BootAndClockRows_bootEntry_not : ∃ (s : State), (bootMay s = false) :=
  ⟨wServ, by decide +kernel⟩

theorem test_meets_BootAndClockRows_bootStep_rails : ∃ (inp : BootInput) (s : State), (s.pw.phase = .boot) ∧ (s.pw.bootStep + 1 = 3) :=
  ⟨wBoot, { pw := { phase := .boot, bootStep := 2 } }, by decide +kernel⟩

theorem test_meets_BootAndClockRows_bootStep_clocks : ∃ (inp : BootInput) (s : State), (s.pw.phase = .boot) ∧ (s.pw.bootStep + 1 = 4) :=
  ⟨wBoot, { pw := { phase := .boot, bootStep := 3 } }, by decide +kernel⟩

theorem test_meets_BootAndClockRows_bootStep_image : ∃ (inp : BootInput) (s : State), (s.pw.phase = .boot) ∧ (s.pw.bootStep + 1 = 5) :=
  ⟨wBoot, { pw := { phase := .boot, bootStep := 4 } }, by decide +kernel⟩

theorem test_meets_BootAndClockRows_bootStep_belvy : ∃ (inp : BootInput) (s : State), (s.pw.phase = .boot) ∧ (s.pw.bootStep + 1 = 6) ∧ (imageRuns s = true) :=
  ⟨wBoot, { pw := { phase := .boot, bootStep := 5 }, mb := { slots := [{ state := 3 }, {}] } }, by decide +kernel⟩

theorem test_meets_BootAndClockRows_bootStep_noImage : ∃ (inp : BootInput) (s : State), (s.pw.phase = .boot) ∧ (s.pw.bootStep + 1 = 6) ∧ (imageRuns s = false) :=
  ⟨wBoot, { pw := { phase := .boot, bootStep := 5 }, mb := { slots := [{ state := 4 }, {}] } }, by decide +kernel⟩

theorem test_meets_BootAndClockRows_bootStep_train : ∃ (inp : BootInput) (s : State), (s.pw.phase = .boot) ∧ (s.pw.bootStep + 1 = 7) :=
  ⟨wBoot, { pw := { phase := .boot, bootStep := 6 } }, by decide +kernel⟩

theorem test_meets_BootAndClockRows_bootStep_holdup : ∃ (inp : BootInput) (s : State), (s.pw.phase = .boot) ∧ (s.pw.bootStep + 1 = 8) ∧ (s.dr.edLost = false) :=
  ⟨wBoot, { pw := { phase := .boot, bootStep := 7 } }, by decide +kernel⟩

theorem test_meets_BootAndClockRows_bootStep_edLost : ∃ (inp : BootInput) (s : State), (s.pw.phase = .boot) ∧ (s.pw.bootStep + 1 = 8) ∧ (s.dr.edLost = true) :=
  ⟨wBoot, { pw := { phase := .boot, bootStep := 7 }, dr := { edLost := true } }, by decide +kernel⟩

theorem test_meets_BootAndClockRows_bootStep_selfTest : ∃ (inp : BootInput) (s : State), (s.pw.phase = .boot) ∧ (s.pw.bootStep + 1 = 9) :=
  ⟨wBoot, { pw := { phase := .boot, bootStep := 8 } }, by decide +kernel⟩

theorem test_meets_BootAndClockRows_railStartTimeout : ∃ (s : State), (s.pw.phase = .boot) ∧ (s.pw.bootStep = 2) :=
  ⟨{ pw := { phase := .boot, bootStep := 2 } }, by decide +kernel⟩

theorem test_meets_BootAndClockRows_flushEntry_not : ∃ (cause : FlushCause) (s : State), (s.pw.phase ≠ .service) :=
  ⟨.vin, wStand, by decide +kernel⟩

theorem test_meets_BootAndClockRows_flushEntry_shutdown : ∃ (s : State), (s.pw.phase = .service) :=
  ⟨wServ, by decide +kernel⟩

theorem test_meets_BootAndClockRows_flushEntry_vin : ∃ (s : State), (s.pw.phase = .service) :=
  ⟨wServ, by decide +kernel⟩

theorem test_meets_BootAndClockRows_flushEntry_cold : ∃ (s : State), (s.pw.phase = .service) ∧ (junctionHot s = false) :=
  ⟨wServ, by decide +kernel⟩

theorem test_meets_BootAndClockRows_flushEntry_junction : ∃ (s : State), (s.pw.phase = .service) ∧ (junctionHot s = true) :=
  ⟨{ wServ with thm := { broken := 255, cfg := { jct := [105, 115, 125] } } }, by decide +kernel⟩

theorem test_meets_BootAndClockRows_flushDone_not : ∃ (s : State), (s.pw.phase ≠ .flush ∨ s.per.draining ≠ []) :=
  ⟨wServ, by decide +kernel⟩

theorem test_meets_BootAndClockRows_flushDone_not_2 : ∃ (s : State), (s.pw.phase ≠ .flush ∨ s.per.draining ≠ []) :=
  ⟨{ pw := { phase := .flush }, per := { draining := [{ epoch := 1, staged := false }] } }, by decide +kernel⟩

theorem test_meets_BootAndClockRows_flushDone : ∃ (s : State), (s.pw.phase = .flush) ∧ (s.per.draining = []) :=
  ⟨{ pw := { phase := .flush } }, by decide +kernel⟩

theorem test_meets_BootAndClockRows_refclkLoss : ∃ (s : State), (s.pw.clkBackup = false) ∧ (s.pw.phase = .replay ∨ s.pw.phase = .service ∨ s.pw.phase = .flush) ∧ (s.portA.width = 0) ∧ (s.portB.width = 0) ∧ ((List.range 8).all (fun p => (sglAt s p).st == .down) = true) :=
  ⟨wServ, by decide +kernel⟩

theorem test_meets_BootAndClockRows_refclkLoss_links : ∃ (s : State), (s.pw.clkBackup = false) ∧ (modelRuns s = true) ∧ ((s.pw.phase = .boot → 4 ≤ s.pw.bootStep)) :=
  ⟨wServ, by decide +kernel⟩

theorem test_meets_BootAndClockRows_refclkLoss_links_2 : ∃ (s : State), (s.pw.clkBackup = false) ∧ (modelRuns s = true) ∧ ((s.pw.phase = .boot → 4 ≤ s.pw.bootStep)) :=
  ⟨{ wServ with portA := { width := 3 }, portB := { width := 3 }, sgl := { ports := [{ st := .up }, { st := .up }] } }, by decide +kernel⟩

theorem test_meets_BootAndClockRows_xtalFail : ∃ (s : State), (s.pw.phase ≠ .off) ∧ (s.pw.xtalFail = false) :=
  ⟨wServ, by decide +kernel⟩

theorem test_meets_BootAndClockRows_deepIdleEntry : ∃ (s : State), (deepIdleMay s = true) :=
  ⟨{ wServ with pw := { wServ.pw with requested := .deepIdle }, per := { budgetNow := 4096, vhold := 4800 } }, by decide +kernel⟩

theorem test_meets_BootAndClockRows_mpTrap : ∃ (s : State), (s.mb.mpReady = true) :=
  ⟨wServ, by decide +kernel⟩

theorem test_meets_BootAndClockRows_mpTrap_stopped : ∃ (s : State), (s.mb.mpReady = false) :=
  ⟨{ wServ with mb := { mpReady := false } }, by decide +kernel⟩

theorem test_meets_BootAndClockRows_mpRestartDone : ∃ (ok : Bool) (s : State), (s.mb.mpReady = false) ∧ (modelRuns s = true) ∧ ((s.pw.phase = .boot → 6 ≤ s.pw.bootStep)) ∧ (s.mb.fwRestart = none) ∧ (imageRuns (loadImage ok s) = true) :=
  ⟨true, { wServ with mb := { mpReady := false, slots := [{ state := 3 }, {}] } }, by decide +kernel⟩

theorem test_meets_BootAndClockRows_mpRestartDone_2 : ∃ (ok : Bool) (s : State), (s.mb.mpReady = false) ∧ (modelRuns s = true) ∧ ((s.pw.phase = .boot → 6 ≤ s.pw.bootStep)) ∧ (s.mb.fwRestart = none) ∧ (imageRuns (loadImage ok s) = true) :=
  ⟨false, { wServ with mb := { mpReady := false, slots := [{ state := 3 }, { state := 3 }] } }, by decide +kernel⟩

theorem test_meets_BootAndClockRows_mpRestartDone_online : ∃ (ok : Bool) (x : Nat × Nat) (s : State), (s.mb.mpReady = false) ∧ (modelRuns s = true) ∧ ((s.pw.phase = .boot → 6 ≤ s.pw.bootStep)) ∧ (s.mb.fwRestart = some x) :=
  ⟨true, (1, 0), { wServ with mb := { mpReady := false, fwRestart := some (1, 0) } }, by decide +kernel⟩

theorem test_meets_ThermalRows_thermalUpdate : ∃ (inp : ThermalInput) (s : State), (modelRuns s = true) :=
  ⟨⟨[], [], [], [], []⟩, wServ, by decide +kernel⟩

theorem test_meets_ThermalRows_thermalUpdate_off : ∃ (inp : ThermalInput) (s : State), (modelRuns s = false) :=
  ⟨⟨[], [], [], [], []⟩, wStand, by decide +kernel⟩

theorem test_meets_ThermalRows_levelFall : ∃ (s : State), (s.thm.level ≠ 0) ∧ (s.thm.cfg.fall < nthD s.thm.cool (s.thm.level - 1) 0) :=
  ⟨{ thm := { level := 1, cool := [4000000, 0, 0] } }, by decide +kernel⟩

theorem test_meets_ThermalRows_warnClear : ∃ (s : State), (s.thm.warn = true) ∧ (s.thm.cfg.fall < s.thm.coolWarn) :=
  ⟨{ thm := { warn := true, coolWarn := 4000000 } }, by decide +kernel⟩

theorem test_meets_ThermalRows_graceExpire : ∃ (s : State), (0 < s.thm.level) ∧ (s.thm.grace = 0) :=
  ⟨{ thm := { level := 1, grace := 0 } }, by decide +kernel⟩

theorem test_meets_DriftRows_edSave : ∃ (s : State), (s.pw.phase = .service) :=
  ⟨wServ, by decide +kernel⟩

theorem test_meets_DriftRows_edSave_2 : ∃ (s : State), (s.pw.phase = .service) :=
  ⟨{ wServ with dr := { saveSeq := 4294967295 } }, by decide +kernel⟩

theorem test_meets_DriftRows_standbyModelTick : ∃ (d : Int) (ds : List Int) (s : State), (s.pw.phase = .standby) ∧ (s.pw.junctionWait = false) :=
  ⟨0, [1], wStand, by decide +kernel⟩

theorem test_meets_DriftRows_standbyModelTick_cool : ∃ (d : Int) (ds : List Int) (s : State), (s.pw.phase = .standby) ∧ (s.pw.junctionWait = true) ∧ ((d :: ds).all (fun t => decide (t < 105 * 256)) = true) :=
  ⟨26879, [], { pw := { phase := .standby, junctionWait := true } }, by decide +kernel⟩

theorem test_meets_DriftRows_stripeAgePad : ∃ (k : Nat) (x : Stripe) (s : State), (stripeAt s k = some x) ∧ ((firstAge s k x).any (fun a => decide (32 ≤ a)) = true) ∧ (x.isOpen = true) ∧ (x.fast = false) ∧ (x.reclaim = false) :=
  ⟨0, { wStripe with begun := 1, passed := 1 }, { tr := { stripes := [(0, { wStripe with begun := 1, passed := 1 })] }, dr := { ed := List.replicate 64 (64 * 65536) } }, by decide +kernel⟩

theorem test_meets_DriftRows_stripeAgePad_unprogrammed : ∃ (k : Nat) (x : Stripe) (s : State), (stripeAt s k = some x) ∧ (firstAge s k x = none) :=
  ⟨0, wStripe, { tr := { stripes := [(0, wStripe)] }, dr := { ed := List.replicate 64 (64 * 65536) } }, by decide +kernel⟩

theorem test_meets_DriftRows_driftSweep_notDense : ∃ (c : Nat) (s : State), (isDense s c = false) :=
  ⟨0, wServ, by decide +kernel⟩

theorem test_meets_DriftRows_driftSweep : ∃ (c : Nat) (s : State), (isDense s c = true) ∧ (ageRuns s c = true) :=
  ⟨0, { wServ with tr := { maps := { course := [(0, { state := 2, fast := false })] }, stripes := [(0, { wStripe with begun := 1, passed := 1 })] } }, by decide +kernel⟩

theorem test_meets_DriftRows_driftSweep_unprogrammed : ∃ (c : Nat) (s : State), (isDense s c = true) ∧ (ageRuns s c = false) :=
  ⟨0, { wServ with tr := { maps := { course := [(0, { state := 1, fast := false })] } } }, by decide +kernel⟩

theorem test_meets_DriftRows_ageSurvey_not : ∃ (c : Nat) (f l : List Sense) (fc lc : List Nat) (s : State), (s.dr.survey = false ∨ unsurveyed s c = false) :=
  ⟨0, [], [], [], [], wServ, by decide +kernel⟩

theorem test_meets_DriftRows_ageSurvey : ∃ (c : Nat) (f l : List Sense) (fc lc : List Nat) (s : State), (s.dr.survey = true) ∧ (unsurveyed s c = true) :=
  ⟨0, [], [], [], [], { wServ with dr := { survey := true, unknown := true, toSurvey := [0] }, tr := { maps := { course := [(0, { state := 2, fast := false })] } } }, by decide +kernel⟩

theorem test_meets_DriftRows_refreshLevelTimer : ∃ (k : Nat) (x : Stripe) (s : State), (stripeAt s k = some x) ∧ (0 < x.level) ∧ (x.level < 4) ∧ (x.reclaim = false) :=
  ⟨0, { wStripe with level := 3 }, wWith { wStripe with level := 3 }, by decide +kernel⟩

theorem test_meets_HoldupRows_holdupMeasure : ∃ (s : State), (s.per.measDue = true) ∧ (s.per.measuring = false) ∧ (chargerMay s = true) :=
  ⟨{ wServ with per := { measDue := true } }, by decide +kernel⟩

theorem test_meets_HoldupRows_holdupDailyMeasurement : ∃ (s : State), (chargerMay s = true) ∧ (s.per.measuring = false) ∧ (4800 ≤ s.per.vhold) :=
  ⟨{ wServ with per := { vhold := 4800 } }, by decide +kernel⟩

theorem test_meets_HoldupRows_holdupDailyMeasurement_waits : ∃ (s : State), (chargerMay s = true) ∧ (s.per.measuring = false) ∧ (s.per.vhold < 4800) :=
  ⟨{ wServ with per := { vhold := 4799 } }, by decide +kernel⟩

theorem test_meets_HoldupRows_holdupResult : ∃ (va vb vc : Nat) (s : State), (s.per.measuring = true) ∧ (vb ≤ va) ∧ (vc < vb) :=
  ⟨48000, 47900, 47000, { wServ with per := { measuring := true } }, by decide +kernel⟩

theorem test_meets_HoldupRows_chargerTimeout : ∃ (s : State), (s.per.charger = true) ∧ (s.per.vhold < 2000) :=
  ⟨{ wServ with per := { charger := true, vhold := 1999 } }, by decide +kernel⟩

theorem test_meets_HoldupRows_chargerTimeout_reached : ∃ (s : State), (s.per.charger = false ∨ 2000 ≤ s.per.vhold) :=
  ⟨{ wServ with per := { charger := false } }, by decide +kernel⟩

theorem test_meets_HoldupRows_chargerTimeout_reached_2 : ∃ (s : State), (s.per.charger = false ∨ 2000 ≤ s.per.vhold) :=
  ⟨{ wServ with per := { charger := true, vhold := 2000 } }, by decide +kernel⟩

theorem test_meets_HoldupRows_budgetUpdate_out : ∃ (v : Nat) (s : State), (s.pw.phase ≠ .service) :=
  ⟨4800, wStand, by decide +kernel⟩

theorem test_meets_HoldupRows_budgetUpdate : ∃ (v : Nat) (s : State), (s.pw.phase = .service) :=
  ⟨4800, wServ, by decide +kernel⟩

theorem test_meets_EpochRows_epochTimer : ∃ (s : State), (s.per.openHolds = true) ∧ (s.pw.phase = .service) :=
  ⟨{ wServ with per := { openHolds := true } }, by decide +kernel⟩

theorem test_meets_EpochRows_epochTimer_empty : ∃ (s : State), (s.per.openHolds = false) :=
  ⟨wServ, by decide +kernel⟩

theorem test_meets_EpochRows_epochCommit : ∃ (d : Draining) (rest : List Draining) (s : State), (s.per.draining = d :: rest) ∧ (commitReady s d = true) :=
  ⟨{ epoch := 3, staged := true }, [], { wServ with per := { draining := [{ epoch := 3, staged := true }] } }, by decide +kernel⟩

theorem test_meets_EpochRows_epochCommit_waits : ∃ (d : Draining) (rest : List Draining) (s : State), (s.per.draining = d :: rest) ∧ (commitReady s d = false) :=
  ⟨{ epoch := 3, staged := false }, [], { wServ with per := { draining := [{ epoch := 3, staged := false }] } }, by decide +kernel⟩

theorem test_meets_EpochRows_checkpointSegmentWrite : ∃ (s : State), (s.ck.segment < 3609) ∧ (s.pw.phase = .service) ∧ (s.ck.segment ≠ 0) :=
  ⟨{ wServ with ck := { segment := 1 } }, by decide +kernel⟩

theorem test_meets_EpochRows_checkpointSegmentWrite_2 : ∃ (s : State), (s.ck.segment < 3609) ∧ (s.pw.phase = .service) ∧ (s.ck.segment ≠ 0) :=
  ⟨{ wServ with ck := { segment := 3608 } }, by decide +kernel⟩

theorem test_meets_EpochRows_checkpointRootWrite : ∃ (s : State), (3609 ≤ s.ck.segment) ∧ (s.ck.rootAt.all (fun t => decide (t + 10 * second ≤ s.now)) = true) ∧ (s.pw.phase = .service) :=
  ⟨{ wServ with ck := { segment := 3609 } }, by decide +kernel⟩

theorem test_meets_EpochRows_replayStart : ∃ (inp : ReplayInput) (s : State), (s.pw.phase = .replay) ∧ (s.ck.replaying = false) ∧ (inp.recoverable = true) :=
  ⟨⟨true, 0, 0⟩, { pw := { phase := .replay } }, by decide +kernel⟩

theorem test_meets_EpochRows_replayStart_stopped : ∃ (inp : ReplayInput) (s : State), (s.pw.phase = .replay) ∧ (s.ck.replaying = false) ∧ (inp.recoverable = false) :=
  ⟨⟨false, 0, 0⟩, { pw := { phase := .replay } }, by decide +kernel⟩

theorem test_meets_EpochRows_replayDone : ∃ (inp : ReplayInput) (s : State), (s.pw.phase = .replay) ∧ (s.ck.replaying = true) ∧ (s.ck.failed = false) :=
  ⟨⟨true, 0, 0⟩, { pw := { phase := .replay }, ck := { replaying := true } }, by decide +kernel⟩

theorem test_meets_EpochRows_replayDone_stopped : ∃ (inp : ReplayInput) (s : State), (s.ck.failed = true) :=
  ⟨⟨true, 0, 0⟩, { pw := { phase := .replay }, ck := { replaying := true, failed := true } }, by decide +kernel⟩

theorem test_meets_EpochRows_pflushReply : ∃ (src txid e : Nat) (g : Gpf) (s : State), (s.portA.gpf = none) ∧ (s.portB.gpf = some g) :=
  ⟨1, 2, 3, ⟨0, 0, [4098]⟩, { portB := { gpf := some ⟨0, 0, [4098]⟩ } }, by decide +kernel⟩

theorem test_meets_EpochRows_pflushReply_none : ∃ (src txid e : Nat) (s : State), (s.portA.gpf = none) ∧ (s.portB.gpf = none) :=
  ⟨1, 2, 3, wServ, by decide +kernel⟩

theorem test_meets_MeterRows_meterSample : ∃ (mv ma : Nat) (s : State), (meterRuns s = true) :=
  ⟨12000, 1000, wServ, by decide +kernel⟩

theorem test_meets_MeterRows_intervalClose : ∃ (s : State), (meterRuns s = true) ∧ (atBoundary s.mtr = true) :=
  ⟨{ wServ with mtr := { psec := 60, length := 1 } }, by decide +kernel⟩

theorem test_meets_MeterRows_intervalClose_not : ∃ (s : State), (meterRuns s = false ∨ atBoundary s.mtr = false) :=
  ⟨wServ, by decide +kernel⟩

theorem test_meets_MeterRows_intervalClose_not_2 : ∃ (s : State), (meterRuns s = false ∨ atBoundary s.mtr = false) :=
  ⟨{ pw := { phase := .off } }, by decide +kernel⟩

theorem test_meets_MeterRows_meterRestart : ∃ (s : State), (s.mtr.saved = true) ∧ (s.pw.phase ≠ .off) :=
  ⟨{ wServ with mtr := { saved := true } }, by decide +kernel⟩

theorem test_meets_MeterRows_feedSend_skipped : ∃ (g : Nat) (s : State), (g < 8) ∧ (s.pw.phase = .service) ∧ (feedFree s < 26) :=
  ⟨7, { wServ with mtr := { feed := [{ seq := 0, group := 0, boot := 0, rows := [] }, { seq := 0, group := 0, boot := 0, rows := [] }] } }, by decide +kernel⟩

theorem test_meets_MeterRows_feedSend : ∃ (g : Nat) (s : State), (g < 8) ∧ (s.pw.phase = .service) ∧ (26 ≤ feedFree s) :=
  ⟨0, wServ, by decide +kernel⟩

theorem test_meets_MeterRows_feedSend_2 : ∃ (g : Nat) (s : State), (g < 8) ∧ (s.pw.phase = .service) ∧ (26 ≤ feedFree s) :=
  ⟨7, { wServ with mtr := { feed := [{ seq := 0, group := 0, boot := 0, rows := [] }] } }, by decide +kernel⟩

theorem test_meets_MeterRows_feedReceive : ∃ (k : FeedPkt) (ks : List FeedPkt) (o : FeedGroup) (s : State), (meterRuns s = true) ∧ (s.mtr.feed = k :: ks) ∧ (Table.get? s.mtr.groups k.group = some o) :=
  ⟨{ seq := 0, group := 0, boot := 0, rows := [] }, [], ⟨0, 0, [], false⟩, { wServ with mtr := { feed := [{ seq := 0, group := 0, boot := 0, rows := [] }], groups := [(0, ⟨0, 0, [], false⟩)] } }, by decide +kernel⟩

theorem test_meets_MeterRows_feedGap : ∃ (g : Nat) (s : State), (meterRuns s = true) ∧ (s.mtr.vinOn = true) ∧ (g < 8) ∧ ((feedAge s.mtr g).all (fun t => decide (3 ≤ t)) = true) :=
  ⟨7, { wServ with mtr := { vinOn := true, psec := 9 } }, by decide +kernel⟩

theorem test_meets_MeterRows_meterRelayAnswer_ignored : ∃ (op arg : Nat) (i : BoxId) (rs : List (Nat × Nat × BoxId)) (s : State), (meterRuns s = true) ∧ (s.mb.relays = (op, arg, i) :: rs) ∧ (op < 0x900 ∨ 0x904 < op) :=
  ⟨0x905, 0, .portA, [], { wServ with mb := { relays := [(0x905, 0, .portA)] } }, by decide +kernel⟩

theorem test_meets_MeterRows_meterRelayAnswer : ∃ (op arg : Nat) (i : BoxId) (rs : List (Nat × Nat × BoxId)) (s : State), (meterRuns s = true) ∧ (s.mb.relays = (op, arg, i) :: rs) ∧ (0x900 ≤ op) ∧ (op ≤ 0x904) ∧ (s.mb.mpReady = true) :=
  ⟨0x900, 0, .portA, [], { wServ with mb := { relays := [(0x900, 0, .portA)] } }, by decide +kernel⟩

theorem test_meets_MeterRows_meterRelayAnswer_2 : ∃ (op arg : Nat) (i : BoxId) (rs : List (Nat × Nat × BoxId)) (s : State), (meterRuns s = true) ∧ (s.mb.relays = (op, arg, i) :: rs) ∧ (0x900 ≤ op) ∧ (op ≤ 0x904) ∧ (s.mb.mpReady = true) :=
  ⟨0x904, 0, .portA, [], { wServ with mb := { relays := [(0x904, 0, .portA)] } }, by decide +kernel⟩

theorem test_meets_MeterRows_meterReadId : ∃ (s : State), (meterRuns s = true) :=
  ⟨wServ, by decide +kernel⟩

theorem test_meets_MeterRows_meterSetLength : ∃ (n : Nat) (s : State), (meterRuns s = true) ∧ (s.mtr.sealed = false) ∧ (s.mtr.audit + 1 < 2 ^ 32) ∧ (1 ≤ n) ∧ (n ≤ 60) :=
  ⟨1, { wServ with mtr := { sealed := false } }, by decide +kernel⟩

theorem test_meets_MeterRows_meterSetLength_2 : ∃ (n : Nat) (s : State), (meterRuns s = true) ∧ (s.mtr.sealed = false) ∧ (s.mtr.audit + 1 < 2 ^ 32) ∧ (1 ≤ n) ∧ (n ≤ 60) :=
  ⟨60, { wServ with mtr := { sealed := false } }, by decide +kernel⟩

theorem test_meets_MeterRows_meterSetLength_sealed : ∃ (n : Nat) (s : State), (meterRuns s = true) ∧ (s.mtr.sealed = true) :=
  ⟨5, { wServ with mtr := { sealed := true } }, by decide +kernel⟩

theorem test_meets_MeterRows_meterFwLoad : ∃ (ws : List Word) (s : State), (meterRuns s = true) ∧ (s.mtr.sealed = false) :=
  ⟨[1], { wServ with mtr := { sealed := false } }, by decide +kernel⟩

theorem test_meets_MeterRows_meterFwActivate : ∃ (img : List Word) (s : State), (meterRuns s = true) ∧ (s.mtr.sealed = false) ∧ (s.mtr.audit + 1 < 2 ^ 32) ∧ (s.mtr.loaded = some img) :=
  ⟨[1], { wServ with mtr := { sealed := false, loaded := some [1] } }, by decide +kernel⟩

theorem test_meets_MeterRows_meterFwActivate_unsigned : ∃ (s : State), (meterRuns s = true) ∧ (s.mtr.sealed = false) ∧ (s.mtr.audit + 1 < 2 ^ 32) :=
  ⟨{ wServ with mtr := { sealed := false } }, by decide +kernel⟩

theorem test_meets_RegisterRows_registerAccess_unreached : ∃ (snd : Sender) (off w : Nat) (op : RegOp) (s : State), (senderReaches snd s = false) :=
  ⟨.portA, 0, 64, .read, wStand, by decide +kernel⟩

theorem test_meets_RegisterRows_registerRead_shape : ∃ (snd : Sender) (off w : Nat) (s : State), (senderReaches snd s = true) ∧ (badShape off w = true) :=
  ⟨.portA, 4, 64, wServ, by decide +kernel⟩

theorem test_meets_RegisterRows_registerWrite_shape : ∃ (snd : Sender) (off w : Nat) (v sets : Word) (s : State), (senderReaches snd s = true) ∧ (badShape off w = true) :=
  ⟨.portA, 2, 16, 7, 0, wServ, by decide +kernel⟩

theorem test_meets_RegisterRows_registerRead_standby : ∃ (snd : Sender) (off w : Nat) (s : State), (senderReaches snd s = true) ∧ (badShape off w = false) ∧ (blockAnswers (off / 8 * 8) s = false) :=
  ⟨.sideband, 0xC000, 64, wStand, by decide +kernel⟩

theorem test_meets_RegisterRows_registerWrite_standby : ∃ (snd : Sender) (off w : Nat) (v sets : Word) (s : State), (senderReaches snd s = true) ∧ (badShape off w = false) ∧ (blockAnswers (off / 8 * 8) s = false) :=
  ⟨.sideband, 0xC000, 64, 7, 0, wStand, by decide +kernel⟩

theorem test_meets_RegisterRows_registerRead : ∃ (snd : Sender) (off w : Nat) (s : State), (senderReaches snd s = true) ∧ (badShape off w = false) ∧ (blockAnswers (off / 8 * 8) s = true) :=
  ⟨.portA, 0xFFF8, 64, wServ, by decide +kernel⟩

theorem test_meets_RegisterRows_registerRead_2 : ∃ (snd : Sender) (off w : Nat) (s : State), (senderReaches snd s = true) ∧ (badShape off w = false) ∧ (blockAnswers (off / 8 * 8) s = true) :=
  ⟨.mp, 0xFFFC, 32, wServ, by decide +kernel⟩

theorem test_meets_RegisterRows_registerWrite : ∃ (snd : Sender) (off w : Nat) (v sets : Word) (s : State), (senderReaches snd s = true) ∧ (badShape off w = false) ∧ (blockAnswers (off / 8 * 8) s = true) :=
  ⟨.portA, 0xFFF8, 64, 7, 0, wServ, by decide +kernel⟩

theorem test_meets_RegisterRows_registerWrite_2 : ∃ (snd : Sender) (off w : Nat) (v sets : Word) (s : State), (senderReaches snd s = true) ∧ (badShape off w = false) ∧ (blockAnswers (off / 8 * 8) s = true) :=
  ⟨.mp, 0xFFFC, 32, 7, 1, wServ, by decide +kernel⟩

theorem test_meets_RegisterRows_registerRead_mode : ∃ (snd : Sender) (s : State), (senderReaches snd s = true) :=
  ⟨.portB, wServ, by decide +kernel⟩

theorem test_meets_RegisterRows_registerRead_modeLow : ∃ (snd : Sender) (s : State), (senderReaches snd s = true) :=
  ⟨.portB, wServ, by decide +kernel⟩

theorem test_meets_RegisterRows_registerRead_modeHigh : ∃ (snd : Sender) (s : State), (senderReaches snd s = true) :=
  ⟨.sideband, wStand, by decide +kernel⟩

theorem test_meets_RegisterRows_registerRead_none : ∃ (snd : Sender) (off : Nat) (s : State), (senderReaches snd s = true) ∧ (0x20 ≤ off) ∧ (off < 0x1000) ∧ (off % 8 = 0) :=
  ⟨.portA, 0x20, wServ, by decide +kernel⟩

theorem test_meets_RegisterRows_registerRead_none_2 : ∃ (snd : Sender) (off : Nat) (s : State), (senderReaches snd s = true) ∧ (0x20 ≤ off) ∧ (off < 0x1000) ∧ (off % 8 = 0) :=
  ⟨.sideband, 0xFF8, wStand, by decide +kernel⟩

theorem test_meets_RegisterRows_registerWrite_none : ∃ (snd : Sender) (off : Nat) (v sets : Word) (s : State), (senderReaches snd s = true) ∧ (off < 0x1000) ∧ (off % 8 = 0) :=
  ⟨.portA, 0x20, 1, 0, wServ, by decide +kernel⟩

theorem test_meets_RegisterRows_registerWrite_none_2 : ∃ (snd : Sender) (off : Nat) (v sets : Word) (s : State), (senderReaches snd s = true) ∧ (off < 0x1000) ∧ (off % 8 = 0) :=
  ⟨.sideband, 0xFF8, 1, 1, wStand, by decide +kernel⟩

theorem test_meets_RegisterRows_registerWrite_alarm : ∃ (snd : Sender) (v sets : Word) (s : State), (senderReaches snd s = true) ∧ (blockAnswers 0x6008 s = true) :=
  ⟨.portA, 0x700000003, 2, wServ, by decide +kernel⟩

theorem test_meets_RegisterRows_registerWrite_alarmCount : ∃ (snd : Sender) (v sets : Word) (s : State), (senderReaches snd s = true) ∧ (blockAnswers 0x6008 s = true) ∧ (s.sec.alarm < 16) :=
  ⟨.portA, 7, 0, { wServ with sec := { alarm := 3 } }, by decide +kernel⟩

theorem test_meets_RegisterRows_registerWrite_select : ∃ (snd : Sender) (v sets : Word) (s : State), (senderReaches snd s = true) ∧ (blockAnswers 0xA000 s = true) :=
  ⟨.mp, 16, 0, wServ, by decide +kernel⟩

theorem test_meets_HostRequestRows_hostMemRd_violation1 : ∃ (p : Port) (mv : MetaValue) (hpa tag : Nat) (met : SramMeet) (s : State), (portServes s p = true) ∧ ((s.port p).reqUsed < 256) ∧ (decodeAccess (s.port p) false hpa = none) :=
  ⟨.a, .s, 0x80000000, 7, .lookaside, wServ, by decide +kernel⟩

theorem test_meets_HostRequestRows_hostMemRd_violation2 : ∃ (p : Port) (mv : MetaValue) (hpa tag : Nat) (met : SramMeet) (d : Decoded) (s : State), (portServes s p = true) ∧ ((s.port p).reqUsed < 256) ∧ (decodeAccess (s.port p) false hpa = some d) ∧ (d.rd = false) :=
  ⟨.a, .s, 0, 7, .lookaside, ⟨0, 288, true, 0, false, true, 0⟩, { wWin with portA := { wWin.portA with windows := [(0, { valid := true, rd := false, wr := true, hbase := 0, pbase := 0, size := 1, kbits := 0, kshift := 51, tenant := 0, kvalid := 1, kids := [288] })] } }, by decide +kernel⟩

theorem test_meets_HostRequestRows_hostMemRd_violation4 : ∃ (p : Port) (mv : MetaValue) (hpa tag : Nat) (met : SramMeet) (d : Decoded) (s : State), (portServes s p = true) ∧ ((s.port p).reqUsed < 256) ∧ (decodeAccess (s.port p) false hpa = some d) ∧ (d.rd = true) ∧ (d.kvalid = false ∨ keyServes s d.kid = false) :=
  ⟨.a, .s, 0, 7, .lookaside, ⟨0, 288, true, 0, true, true, 0⟩, { wWin with sec := {} }, by decide +kernel⟩

theorem test_meets_HostRequestRows_hostMemRd : ∃ (p : Port) (mv : MetaValue) (hpa tag : Nat) (met : SramMeet) (d : Decoded) (s : State), (portServes s p = true) ∧ ((s.port p).reqUsed < 256) ∧ (decodeAccess (s.port p) false hpa = some d) ∧ (d.rd = true) ∧ (d.kvalid = true) ∧ (keyServes s d.kid = true) ∧ (plaNode d.pla = me s) :=
  ⟨.a, .s, 0, 7, .lookaside, ⟨0, 288, true, 0, true, true, 0⟩, wWin, by decide +kernel⟩

theorem test_meets_HostRequestRows_hostMemRd_remote : ∃ (p : Port) (mv : MetaValue) (hpa tag : Nat) (met : SramMeet) (d : Decoded) (s : State), (portServes s p = true) ∧ ((s.port p).reqUsed < 256) ∧ (decodeAccess (s.port p) false hpa = some d) ∧ (d.rd = true) ∧ (d.kvalid = true) ∧ (keyServes s d.kid = true) ∧ (plaNode d.pla ≠ me s) :=
  ⟨.a, .s, 0, 7, .lookaside, ⟨4398046511104, 288, true, 0, true, true, 0⟩, { wWin with portA := { wWin.portA with windows := [(0, { valid := true, rd := true, wr := true, hbase := 0, pbase := 4398046511104, size := 1, kbits := 0, kshift := 51, tenant := 0, kvalid := 1, kids := [288] })] } }, by decide +kernel⟩

theorem test_meets_HostRequestRows_hostMemRd_noCredit : ∃ (p : Port) (mv : MetaValue) (hpa tag : Nat) (met : SramMeet) (s : State), ((s.port p).reqUsed ≥ 256) :=
  ⟨.a, .s, 0x80000000, 7, .lookaside, { wServ with portA := { reqUsed := 256 } }, by decide +kernel⟩

theorem test_meets_HostRequestRows_hostMemWr_violation1 : ∃ (p : Port) (mv : MetaValue) (hpa tag : Nat) (data : Line) (mask : BitVec 64) (poison : Bool) (met : SramMeet) (s : State), (portServes s p = true) ∧ ((s.port p).rwdUsed < 128) ∧ (decodeAccess (s.port p) true hpa = none) :=
  ⟨.a, .s, 0x80000000, 7, 0, 0, false, .clean, wServ, by decide +kernel⟩

theorem test_meets_HostRequestRows_hostMemWr_violation3 : ∃ (p : Port) (mv : MetaValue) (hpa tag : Nat) (data : Line) (mask : BitVec 64) (poison : Bool) (met : SramMeet) (d : Decoded) (s : State), (portServes s p = true) ∧ ((s.port p).rwdUsed < 128) ∧ (decodeAccess (s.port p) true hpa = some d) ∧ (d.wr = false) :=
  ⟨.a, .s, 0, 7, 0, 0, false, .clean, ⟨0, 288, true, 0, true, false, 0⟩, { wWin with portA := { wWin.portA with windows := [(0, { valid := true, rd := true, wr := false, hbase := 0, pbase := 0, size := 1, kbits := 0, kshift := 51, tenant := 0, kvalid := 1, kids := [288] })] } }, by decide +kernel⟩

theorem test_meets_HostRequestRows_hostMemWr_violation4 : ∃ (p : Port) (mv : MetaValue) (hpa tag : Nat) (data : Line) (mask : BitVec 64) (poison : Bool) (met : SramMeet) (d : Decoded) (s : State), (portServes s p = true) ∧ ((s.port p).rwdUsed < 128) ∧ (decodeAccess (s.port p) true hpa = some d) ∧ (d.wr = true) ∧ (d.kvalid = false ∨ keyServes s d.kid = false) :=
  ⟨.a, .s, 0, 7, 0, 0, false, .clean, ⟨0, 288, true, 0, true, true, 0⟩, { wWin with sec := {} }, by decide +kernel⟩

theorem test_meets_HostRequestRows_hostMemWr : ∃ (p : Port) (mv : MetaValue) (hpa tag : Nat) (data : Line) (mask : BitVec 64) (poison : Bool) (met : SramMeet) (d : Decoded) (s : State), (portServes s p = true) ∧ ((s.port p).rwdUsed < 128) ∧ (decodeAccess (s.port p) true hpa = some d) ∧ (d.wr = true) ∧ (d.kvalid = true) ∧ (keyServes s d.kid = true) ∧ (plaNode d.pla = me s) :=
  ⟨.a, .s, 0, 7, 0, 0, false, .clean, ⟨0, 288, true, 0, true, true, 0⟩, wWin, by decide +kernel⟩

theorem test_meets_HostRequestRows_hostMemWr_remote : ∃ (p : Port) (mv : MetaValue) (hpa tag : Nat) (data : Line) (mask : BitVec 64) (poison : Bool) (met : SramMeet) (d : Decoded) (s : State), (portServes s p = true) ∧ ((s.port p).rwdUsed < 128) ∧ (decodeAccess (s.port p) true hpa = some d) ∧ (d.wr = true) ∧ (d.kvalid = true) ∧ (keyServes s d.kid = true) ∧ (plaNode d.pla ≠ me s) :=
  ⟨.a, .s, 0, 7, 0, 0, false, .clean, ⟨4398046511104, 288, true, 0, true, true, 0⟩, { wWin with portA := { wWin.portA with windows := [(0, { valid := true, rd := true, wr := true, hbase := 0, pbase := 4398046511104, size := 1, kbits := 0, kshift := 51, tenant := 0, kvalid := 1, kids := [288] })] } }, by decide +kernel⟩

theorem test_meets_HostRequestRows_hostMemWr_noCredit : ∃ (p : Port) (mv : MetaValue) (hpa tag : Nat) (data : Line) (mask : BitVec 64) (poison : Bool) (met : SramMeet) (s : State), ((s.port p).rwdUsed ≥ 128) :=
  ⟨.a, .s, 0x80000000, 7, 0, 0, false, .clean, { wServ with portA := { rwdUsed := 128 } }, by decide +kernel⟩

theorem test_meets_HostRequestRows_runAheadHint : ∃ (lpn : Nat) (s : State), (s.tr.hints.contains lpn = true) ∧ (s.tr.lookD.contains lpn = false) ∧ (mayServe s 3 (denseLine s lpn) = true) :=
  ⟨9, { tr := { hints := [9] } }, by decide +kernel⟩

theorem test_meets_HostRequestRows_runAheadHint_there : ∃ (lpn : Nat) (s : State), (s.tr.hints.contains lpn = true) ∧ (s.tr.lookD.contains lpn = true) :=
  ⟨9, { tr := { hints := [9], lookD := [9] } }, by decide +kernel⟩

theorem test_meets_HomeMissRows_dramCacheTagResult_miss : ∃ (dla : Nat) (m : Mshr) (w : Waiter) (s : State), (mshrAt s (me s) dla = some m) ∧ (readerOf m = some w) ∧ (m.miss = true) ∧ (m.tagHit = none) ∧ (newestSlot s dla = none) ∧ (Table.get? s.dram.cache dla = none) :=
  ⟨5, { kid := 288, cur := some { kind := .rdS, asker := .host .a 0 .s 0 0, kid := 288, cls := 0 }, miss := true }, { kind := .rdS, asker := .host .a 0 .s 0 0, kid := 288, cls := 0 }, wMshr { kid := 288, cur := some { kind := .rdS, asker := .host .a 0 .s 0 0, kid := 288, cls := 0 }, miss := true }, by decide +kernel⟩

theorem test_meets_HomeMissRows_dramCacheTagResult : ∃ (dla : Nat) (m : Mshr) (w : Waiter) (x : WbSlot) (s : State), (mshrAt s (me s) dla = some m) ∧ (readerOf m = some w) ∧ (m.miss = true) ∧ (m.tagHit = none) ∧ (newestSlot s dla = some x) :=
  ⟨5, { kid := 288, cur := some { kind := .rdS, asker := .host .a 0 .s 0 0, kid := 288, cls := 0 }, miss := true }, { kind := .rdS, asker := .host .a 0 .s 0 0, kid := 288, cls := 0 }, { dla := 5, epoch := 1, kid := 288, raw := 0 }, { wMshr { kid := 288, cur := some { kind := .rdS, asker := .host .a 0 .s 0 0, kid := 288, cls := 0 }, miss := true } with tr := { slots := [{ dla := 5, epoch := 1, kid := 288, raw := 0 }] } }, by decide +kernel⟩

theorem test_meets_HomeMissRows_lookasideResult : ∃ (dla : Nat) (f : MapFetch) (m : Mshr) (w : Waiter) (s : State), (mshrAt s (me s) dla = some m) ∧ (readerOf m = some w) ∧ (m.miss = true) ∧ (m.loc = none) ∧ (w.asker ≠ .prefetch) ∧ (denseBad (denseOf s (lpnOf dla)) = false) ∧ (lookasideHit s dla = true) ∧ (s.tr.lostLines.contains dla = false) :=
  ⟨5, { dense := {} }, { kid := 288, cur := some { kind := .rdS, asker := .host .a 0 .s 0 0, kid := 288, cls := 0 }, miss := true }, { kind := .rdS, asker := .host .a 0 .s 0 0, kid := 288, cls := 0 }, { wMshr { kid := 288, cur := some { kind := .rdS, asker := .host .a 0 .s 0 0, kid := 288, cls := 0 }, miss := true } with tr := { lookD := [0] } }, by decide +kernel⟩

theorem test_meets_HomeMissRows_lookasideResult_waits : ∃ (dla : Nat) (f : MapFetch) (m : Mshr) (w : Waiter) (s : State), (mshrAt s (me s) dla = some m) ∧ (readerOf m = some w) ∧ (m.miss = true) ∧ (m.loc = none) ∧ (lookasideHit s dla = false) ∧ (serveMaps (me s) dla s = none) :=
  ⟨5, { dense := {} }, { kid := 288, cur := some { kind := .rdS, asker := .host .a 0 .s 0 0, kid := 288, cls := 0 }, miss := true }, { kind := .rdS, asker := .host .a 0 .s 0 0, kid := 288, cls := 0 }, { wMshr { kid := 288, cur := some { kind := .rdS, asker := .host .a 0 .s 0 0, kid := 288, cls := 0 }, miss := true } with dram := { queue := [{ line := 6, cls := 1, node := 0, dla := 5, use := .dense }], banks := [(bankOf 6, { busyTo := some 9 })] } }, by decide +kernel⟩

theorem test_meets_HomeMissRows_lpddr6ReadDone_queued : ∃ (dla : Nat) (m : Mshr) (w : Waiter) (x : WbSlot) (res other : DramSense) (s : State), (mshrAt s (me s) dla = some m) ∧ (readerOf m = some w) ∧ (m.miss = true) ∧ (m.tagHit = some true) ∧ (asked s .line (me s) dla = none) ∧ (newestSlot s dla = some x) ∧ (decodeAt s (readLine s dla) (dramWord (secData x.raw) (secVer x.raw)) {} = .clean) :=
  ⟨5, { kid := 288, cur := some { kind := .rdS, asker := .host .a 0 .s 0 0, kid := 288, cls := 0 }, miss := true, tagHit := some true }, { kind := .rdS, asker := .host .a 0 .s 0 0, kid := 288, cls := 0 }, { dla := 5, epoch := 1, kid := 288, raw := 0 }, { err := 1 }, {}, { wMshr { kid := 288, cur := some { kind := .rdS, asker := .host .a 0 .s 0 0, kid := 288, cls := 0 }, miss := true, tagHit := some true } with tr := { slots := [{ dla := 5, epoch := 1, kid := 288, raw := 0 }] } }, by decide +kernel⟩

theorem test_meets_HomeMissRows_lpddr6ReadDone_slot : ∃ (dla : Nat) (m : Mshr) (w : Waiter) (x : WbSlot) (r : DramReq) (res other : DramSense) (s : State), (mshrAt s (me s) dla = some m) ∧ (readerOf m = some w) ∧ (m.miss = true) ∧ (m.tagHit = some true) ∧ (asked s .line (me s) dla = some r) ∧ (nextReq s (lineChan r.line) = some r) ∧ (newestSlot (dramTake r s) dla = some x) ∧ (decodeAt (dramTake r s) r.line (dramWord (secData x.raw) (secVer x.raw)) res = .clean) :=
  ⟨5, { kid := 288, cur := some { kind := .rdS, asker := .host .a 0 .s 0 0, kid := 288, cls := 0 }, miss := true, tagHit := some true }, { kind := .rdS, asker := .host .a 0 .s 0 0, kid := 288, cls := 0 }, { dla := 5, epoch := 1, kid := 288, raw := 0 }, { line := 6, cls := 1, node := 0, dla := 5, use := .line }, {}, {}, { wMshr { kid := 288, cur := some { kind := .rdS, asker := .host .a 0 .s 0 0, kid := 288, cls := 0 }, miss := true, tagHit := some true } with tr := { slots := [{ dla := 5, epoch := 1, kid := 288, raw := 0 }] }, dram := { queue := [{ line := 6, cls := 1, node := 0, dla := 5, use := .line }] } }, by decide +kernel⟩

theorem test_meets_HomeMissRows_lpddr6ReadDone_cached : ∃ (dla : Nat) (m : Mshr) (w : Waiter) (c : DramLine) (r : DramReq) (res other : DramSense) (s : State), (mshrAt s (me s) dla = some m) ∧ (readerOf m = some w) ∧ (m.miss = true) ∧ (m.tagHit = some true) ∧ (asked s .line (me s) dla = some r) ∧ (nextReq s (lineChan r.line) = some r) ∧ (newestSlot (dramTake r s) dla = none) ∧ (Table.get? (dramTake r s).dram.cache dla = some c) ∧ (decodeAt (dramTake r s) r.line (dramWord (secData c.raw) (secVer c.raw)) res = .clean) :=
  ⟨5, { kid := 288, cur := some { kind := .rdS, asker := .host .a 0 .s 0 0, kid := 288, cls := 0 }, miss := true, tagHit := some true }, { kind := .rdS, asker := .host .a 0 .s 0 0, kid := 288, cls := 0 }, { kid := 288, raw := 0 }, { line := 6, cls := 1, node := 0, dla := 5, use := .line }, {}, {}, { wMshr { kid := 288, cur := some { kind := .rdS, asker := .host .a 0 .s 0 0, kid := 288, cls := 0 }, miss := true, tagHit := some true } with dram := { queue := [{ line := 6, cls := 1, node := 0, dla := 5, use := .line }], cache := [(5, { kid := 288, raw := 0 })] } }, by decide +kernel⟩

theorem test_meets_HomeMissRows_lpddr6ReadDone_corrected : ∃ (dla : Nat) (m : Mshr) (w : Waiter) (c : DramLine) (r : DramReq) (res other : DramSense) (dqs : List Nat) (s : State), (mshrAt s (me s) dla = some m) ∧ (readerOf m = some w) ∧ (m.miss = true) ∧ (m.tagHit = some true) ∧ (asked s .line (me s) dla = some r) ∧ (nextReq s (lineChan r.line) = some r) ∧ (newestSlot (dramTake r s) dla = none) ∧ (Table.get? (dramTake r s).dram.cache dla = some c) ∧ (decodeAt (dramTake r s) r.line (dramWord (secData c.raw) (secVer c.raw)) res = .corrected dqs) :=
  ⟨5, { kid := 288, cur := some { kind := .rdS, asker := .host .a 0 .s 0 0, kid := 288, cls := 0 }, miss := true, tagHit := some true }, { kind := .rdS, asker := .host .a 0 .s 0 0, kid := 288, cls := 0 }, { kid := 288, raw := 0 }, { line := 6, cls := 1, node := 0, dla := 5, use := .line }, { err := 1 }, {}, (symsOf 1).map dqOf, { wMshr { kid := 288, cur := some { kind := .rdS, asker := .host .a 0 .s 0 0, kid := 288, cls := 0 }, miss := true, tagHit := some true } with dram := { queue := [{ line := 6, cls := 1, node := 0, dla := 5, use := .line }], cache := [(5, { kid := 288, raw := 0 })] } }, by decide +kernel⟩

theorem test_meets_HomeMissRows_lpddr6ReadDone_lost : ∃ (dla : Nat) (m : Mshr) (w : Waiter) (c : DramLine) (r : DramReq) (res other : DramSense) (s : State), (mshrAt s (me s) dla = some m) ∧ (readerOf m = some w) ∧ (m.miss = true) ∧ (m.tagHit = some true) ∧ (asked s .line (me s) dla = some r) ∧ (nextReq s (lineChan r.line) = some r) ∧ (newestSlot (dramTake r s) dla = none) ∧ (Table.get? (dramTake r s).dram.cache dla = some c) ∧ (decodeAt (dramTake r s) r.line (dramWord (secData c.raw) (secVer c.raw)) res = .uncorrectable) :=
  ⟨5, { kid := 288, cur := some { kind := .rdS, asker := .host .a 0 .s 0 0, kid := 288, cls := 0 }, miss := true, tagHit := some true }, { kind := .rdS, asker := .host .a 0 .s 0 0, kid := 288, cls := 0 }, { kid := 288, raw := 0 }, { line := 6, cls := 1, node := 0, dla := 5, use := .line }, { err := 0x0100010001 * 0x0101 }, {}, { wMshr { kid := 288, cur := some { kind := .rdS, asker := .host .a 0 .s 0 0, kid := 288, cls := 0 }, miss := true, tagHit := some true } with dram := { queue := [{ line := 6, cls := 1, node := 0, dla := 5, use := .line }], cache := [(5, { kid := 288, raw := 0 })] } }, by decide +kernel⟩

theorem test_meets_HomeMissRows_lpddr6ReadDone_waits : ∃ (dla : Nat) (m : Mshr) (w : Waiter) (r : DramReq) (res other : DramSense) (s : State), (mshrAt s (me s) dla = some m) ∧ (readerOf m = some w) ∧ (m.miss = true) ∧ (m.tagHit = some true) ∧ (asked s .line (me s) dla = some r) ∧ (nextReq s (lineChan r.line) ≠ some r) :=
  ⟨5, { kid := 288, cur := some { kind := .rdS, asker := .host .a 0 .s 0 0, kid := 288, cls := 0 }, miss := true, tagHit := some true }, { kind := .rdS, asker := .host .a 0 .s 0 0, kid := 288, cls := 0 }, { line := 6, cls := 1, node := 0, dla := 5, use := .line }, {}, {}, { wMshr { kid := 288, cur := some { kind := .rdS, asker := .host .a 0 .s 0 0, kid := 288, cls := 0 }, miss := true, tagHit := some true } with dram := { queue := [{ line := 6, cls := 1, node := 0, dla := 5, use := .line }], banks := [(bankOf 6, { busyTo := some 9 })] } }, by decide +kernel⟩

theorem test_meets_HomeMissRows_dramWriteback : ∃ (line : Nat) (s : State), (s.dram.wback.contains line = true) ∧ (mayServe s 3 line = true) :=
  ⟨4, { dram := { wback := [4] } }, by decide +kernel⟩

theorem test_meets_HomeMissRows_mediumReadDone_squashed : ∃ (rid : Nat) (r : SenseResult) (x : MedRead) (s : State), (Table.get? s.sched.reads rid = some x) ∧ (x.started = true) ∧ (x.waiting = none) ∧ (x.squashed = true) :=
  ⟨7, wSense, wRead (.spec 0 5) true, wReads (wRead (.spec 0 5) true), by decide +kernel⟩

theorem test_meets_HomeMissRows_mediumReadDone_spec : ∃ (rid n dla : Nat) (r : SenseResult) (x : MedRead) (s : State), (Table.get? s.sched.reads rid = some x) ∧ (x.started = true) ∧ (x.waiting = none) ∧ (x.squashed = false) ∧ (x.use = .spec n dla) :=
  ⟨7, 0, 5, wSense, wRead (.spec 0 5) false, wReads (wRead (.spec 0 5) false), by decide +kernel⟩

theorem test_meets_HomeMissRows_mediumReadDone : ∃ (rid n dla : Nat) (r : SenseResult) (x : MedRead) (s : State), (Table.get? s.sched.reads rid = some x) ∧ (x.started = true) ∧ (x.waiting = none) ∧ (x.squashed = false) ∧ (x.use = .miss n dla) :=
  ⟨7, 0, 5, wSense, wRead (.miss 0 5) false, wReads (wRead (.miss 0 5) false), by decide +kernel⟩

theorem test_meets_HomeMissRows_mshrFill_bare : ∃ (dla : Nat) (m : Mshr) (f : Fill) (s : State), (mshrAt s (me s) dla = some m) ∧ (m.way = none) ∧ (m.fill = some f) :=
  ⟨5, { kid := 288, cur := none, fill := some .poison }, .poison, wMshr { kid := 288, cur := none, fill := some .poison }, by decide +kernel⟩

theorem test_meets_HomeMissRows_mshrFill : ∃ (dla w v : Nat) (d : Line) (m : Mshr) (s : State), (mshrAt s (me s) dla = some m) ∧ (m.way = some w) ∧ (m.fill = some (.data d v)) ∧ (Table.get? s.cache.ways (wayKey (sliceOf dla) (cacheSet dla) w) = none) ∧ (findWay s (me s) dla = none) :=
  ⟨5, 3, 9, 7, { kid := 288, cur := none, way := some 3, fill := some (.data 7 9) }, wMshr { kid := 288, cur := none, way := some 3, fill := some (.data 7 9) }, by decide +kernel⟩

theorem test_meets_HomeMissRows_evictionDone : ∃ (slice set way : Nat) (s : State), (evicting s slice set way = true) ∧ (evicting (endEvict slice set way s) slice set way = false) :=
  ⟨0, 0, 0, { cache := { ways := [(wayKey 0 0 0, wLine true)] } }, by decide +kernel⟩

theorem test_meets_HomeMissRows_evictionDone_waits : ∃ (slice set way : Nat) (s : State), (evicting s slice set way = true) ∧ (evicting (endEvict slice set way s) slice set way = true) :=
  by
  obtain ⟨n, hn⟩ : ∃ n, 2048 ≤ n := ⟨2048, Nat.le_refl _⟩
  have h : endEvict 0 0 0 { cache := { ways := [(wayKey 0 0 0, wLine true)] }, dram := { writes := List.replicate n (Config.dramLineOf (lkey 0 0)) } } = { cache := { ways := [(wayKey 0 0 0, wLine true)] }, dram := { writes := List.replicate n (Config.dramLineOf (lkey 0 0)) } } := by
    simp [endEvict, writeCount, List.countP_replicate, Table.get?, wLine, hn]
  exact ⟨0, 0, 0, { cache := { ways := [(wayKey 0 0 0, wLine true)] }, dram := { writes := List.replicate n (Config.dramLineOf (lkey 0 0)) } }, rfl, by rw [h]; rfl⟩

theorem test_meets_HomeMissRows_dovetailMerge : ∃ (dla v : Nat) (old : Line) (e : Dovetail) (s : State), (Table.get? s.cache.dove dla = some e) ∧ (e.closed = true) ∧ (e.old = some (.data old v)) ∧ (leaseWait s dla = false) :=
  ⟨5, 1, 7, { data := 3, mask := 1, kid := 288, tenant := 0, epoch := 1, closed := true, old := some (.data 7 1) }, { wServ with cache := { dove := [(5, { data := 3, mask := 1, kid := 288, tenant := 0, epoch := 1, closed := true, old := some (.data 7 1) })] } }, by decide +kernel⟩

theorem test_meets_HomeMissRows_dovetailMerge_poison : ∃ (dla : Nat) (e : Dovetail) (s : State), (Table.get? s.cache.dove dla = some e) ∧ (e.closed = true) ∧ (e.old = some .poison) ∧ (leaseWait s dla = false) :=
  ⟨5, { data := 3, mask := 1, kid := 288, tenant := 0, epoch := 1, closed := true, old := some .poison }, { wServ with cache := { dove := [(5, { data := 3, mask := 1, kid := 288, tenant := 0, epoch := 1, closed := true, old := some .poison })] } }, by decide +kernel⟩

theorem test_meets_HomeMissRows_leaseProgrammed : ∃ (seg v : Nat) (s : State), (Table.get? s.sec.leasing seg = some v) ∧ (leaseLines s seg = []) :=
  ⟨3, 9, { sec := { leasing := [(3, 9)] } }, by decide +kernel⟩

theorem test_meets_HomeRequestRows_rdS : ∃ (src txid dla kid port input : Nat) (s : State), (isDead s src = false) ∧ (homeServes s = true) :=
  ⟨1, 2, 5, 288, 0, 4, wServ, by decide +kernel⟩

theorem test_meets_HomeRequestRows_rdX : ∃ (src txid dla kid port input : Nat) (s : State), (isDead s src = false) ∧ (homeServes s = true) :=
  ⟨1, 2, 5, 288, 0, 4, wServ, by decide +kernel⟩

theorem test_meets_HomeRequestRows_rdC : ∃ (src txid dla kid port input : Nat) (s : State), (isDead s src = false) ∧ (homeServes s = true) :=
  ⟨1, 2, 5, 288, 0, 4, wServ, by decide +kernel⟩

theorem test_meets_HomeRequestRows_upg : ∃ (src txid dla kid port input : Nat) (s : State), (isDead s src = false) ∧ (homeServes s = true) :=
  ⟨1, 2, 5, 288, 0, 4, wServ, by decide +kernel⟩

theorem test_meets_HomeRequestRows_rdS_not : ∃ (src txid dla kid port input : Nat) (s : State), (isDead s src = true ∨ homeServes s = false) :=
  ⟨1, 2, 5, 288, 0, 4, wStand, by decide +kernel⟩

theorem test_meets_HomeRequestRows_evc : ∃ (src txid dla : Nat) (e : DirEntry) (s : State), (isDead s src = false) ∧ (dirAt s dla = some e) ∧ (e.st = .hs) ∧ (e.cv = false) ∧ (e.ptrs.contains src = true) :=
  ⟨3, 0, 5, { st := .hs, ptrs := [3] }, wTrans { st := .hs, ptrs := [3] } {}, by decide +kernel⟩

theorem test_meets_HomeRequestRows_evc_ignored : ∃ (src txid dla : Nat) (e : DirEntry) (s : State), (dirAt s dla = some e) ∧ (e.st ≠ .hs ∨ e.cv = true ∨ e.ptrs.contains src = false) :=
  ⟨3, 0, 5, { st := .hx, ptrs := [3] }, wTrans { st := .hx, ptrs := [3] } {}, by decide +kernel⟩

theorem test_meets_HomeRequestRows_wrT : ∃ (src txid dla kid : Nat) (data : Line) (mask : BitVec 64) (poison : Bool) (wseq : Nat) (s : State), (isDead s src = false) ∧ ((wseq + 256 - Table.getD s.fab.wseqRx src 0) % 256 ≤ 64) ∧ (s.fab.wrtHeld.any (fun x => x.src == src && x.wseq == wseq) = false) :=
  ⟨1, 2, 5, 288, 7, 3, false, 0, wServ, by decide +kernel⟩

theorem test_meets_HomeRequestRows_wrT_2 : ∃ (src txid dla kid : Nat) (data : Line) (mask : BitVec 64) (poison : Bool) (wseq : Nat) (s : State), (isDead s src = false) ∧ ((wseq + 256 - Table.getD s.fab.wseqRx src 0) % 256 ≤ 64) ∧ (s.fab.wrtHeld.any (fun x => x.src == src && x.wseq == wseq) = false) :=
  ⟨1, 2, 5, 288, 7, 3, false, 64, wServ, by decide +kernel⟩

theorem test_meets_HomeRequestRows_wrT_late : ∃ (src txid dla kid : Nat) (data : Line) (mask : BitVec 64) (poison : Bool) (wseq : Nat) (s : State), (64 < (wseq + 256 - Table.getD s.fab.wseqRx src 0) % 256) :=
  ⟨1, 2, 5, 288, 7, 3, false, 65, wServ, by decide +kernel⟩

theorem test_meets_HomeRequestRows_evX : ∃ (src txid dla wseq : Nat) (s : State), (isDead s src = false) ∧ ((wseq + 256 - Table.getD s.fab.wseqRx src 0) % 256 ≤ 64) ∧ (s.fab.wrtHeld.any (fun x => x.src == src && x.wseq == wseq) = false) :=
  ⟨1, 2, 5, 0, wServ, by decide +kernel⟩

theorem test_meets_HomeRequestRows_evX_2 : ∃ (src txid dla wseq : Nat) (s : State), (isDead s src = false) ∧ ((wseq + 256 - Table.getD s.fab.wseqRx src 0) % 256 ≤ 64) ∧ (s.fab.wrtHeld.any (fun x => x.src == src && x.wseq == wseq) = false) :=
  ⟨1, 2, 5, 64, wServ, by decide +kernel⟩

theorem test_meets_HomeRequestRows_evX_late : ∃ (src txid dla wseq : Nat) (s : State), (64 < (wseq + 256 - Table.getD s.fab.wseqRx src 0) % 256) :=
  ⟨1, 2, 5, 65, wServ, by decide +kernel⟩

theorem test_meets_HomeAnswerRows_rspI_sharer : ∃ (src txid dla : Nat) (e : DirEntry) (t : HomeTrans) (s : State), (isDead s src = false) ∧ (fenced s src dla = false) ∧ (dirAt s dla = some e) ∧ (transOf s dla = some t) ∧ (e.st = .hsI) ∧ (t.pend.contains src = true) :=
  ⟨3, 0x800, 5, { st := .hsI, ptrs := [3] }, { pend := [3] }, wTrans { st := .hsI, ptrs := [3] } { pend := [3] }, by decide +kernel⟩

theorem test_meets_HomeAnswerRows_rspI_owner : ∃ (src txid dla tx : Nat) (k : SnpKind) (e : DirEntry) (t : HomeTrans) (s : State), (isDead s src = false) ∧ (fenced s src dla = false) ∧ (dirAt s dla = some e) ∧ (transOf s dla = some t) ∧ (e.st = .hxF ∨ e.st = .hxI) ∧ (ownerOf e = src) ∧ (t.snp = some (k, tx)) :=
  ⟨3, 0x800, 5, 0x800, .x, { st := .hxF, ptrs := [3] }, { snp := some (.x, 0x800) }, wTrans { st := .hxF, ptrs := [3] } { snp := some (.x, 0x800) }, by decide +kernel⟩

theorem test_meets_HomeAnswerRows_rspS : ∃ (src txid dla tx : Nat) (k : SnpKind) (e : DirEntry) (t : HomeTrans) (s : State), (isDead s src = false) ∧ (fenced s src dla = false) ∧ (dirAt s dla = some e) ∧ (transOf s dla = some t) ∧ (e.st = .hxF) ∧ (ownerOf e = src) ∧ (t.snp = some (k, tx)) :=
  ⟨3, 0x800, 5, 0x800, .s, { st := .hxF, ptrs := [3] }, { snp := some (.s, 0x800) }, wTrans { st := .hxF, ptrs := [3] } { snp := some (.s, 0x800) }, by decide +kernel⟩

theorem test_meets_HomeAnswerRows_rspS_error : ∃ (src txid dla : Nat) (e : DirEntry) (t : HomeTrans) (s : State), (isDead s src = false) ∧ (fenced s src dla = false) ∧ (dirAt s dla = some e) ∧ (transOf s dla = some t) ∧ (e.st = .hsI) :=
  ⟨3, 0x800, 5, { st := .hsI, ptrs := [3] }, { pend := [3] }, wTrans { st := .hsI, ptrs := [3] } { pend := [3] }, by decide +kernel⟩

theorem test_meets_HomeAnswerRows_rspFwd : ∃ (src txid dla tx : Nat) (k : SnpKind) (e : DirEntry) (t : HomeTrans) (s : State), (isDead s src = false) ∧ (fenced s src dla = false) ∧ (dirAt s dla = some e) ∧ (transOf s dla = some t) ∧ (e.st = .hxF) ∧ (ownerOf e = src) ∧ (t.snp = some (k, tx)) :=
  ⟨3, 0x800, 5, 0x800, .s, { st := .hxF, ptrs := [3] }, { snp := some (.s, 0x800) }, wTrans { st := .hxF, ptrs := [3] } { snp := some (.s, 0x800) }, by decide +kernel⟩

theorem test_meets_HomeAnswerRows_rspFwd_error : ∃ (src txid dla : Nat) (e : DirEntry) (t : HomeTrans) (s : State), (isDead s src = false) ∧ (fenced s src dla = false) ∧ (dirAt s dla = some e) ∧ (transOf s dla = some t) ∧ (e.st = .hsI) :=
  ⟨3, 0x800, 5, { st := .hsI, ptrs := [3] }, { pend := [3] }, wTrans { st := .hsI, ptrs := [3] } { pend := [3] }, by decide +kernel⟩

theorem test_meets_HomeAnswerRows_rspWb_announced : ∃ (src txid dla tx : Nat) (f : Bool) (k : SnpKind) (e : DirEntry) (t : HomeTrans) (s : State), (isDead s src = false) ∧ (fenced s src dla = false) ∧ (dirAt s dla = some e) ∧ (transOf s dla = some t) ∧ (e.st = .hxF ∨ e.st = .hxI) ∧ (ownerOf e = src) ∧ (t.snp = some (k, tx)) ∧ (t.ann = true ∨ t.evx = true) :=
  ⟨3, 0x800, 5, 0x800, true, .x, { st := .hxF, ptrs := [3] }, { snp := some (.x, 0x800), ann := true }, wTrans { st := .hxF, ptrs := [3] } { snp := some (.x, 0x800), ann := true }, by decide +kernel⟩

theorem test_meets_HomeAnswerRows_rspWb_waits : ∃ (src txid dla tx : Nat) (f : Bool) (k : SnpKind) (e : DirEntry) (t : HomeTrans) (s : State), (isDead s src = false) ∧ (fenced s src dla = false) ∧ (dirAt s dla = some e) ∧ (transOf s dla = some t) ∧ (e.st = .hxF ∨ e.st = .hxI) ∧ (ownerOf e = src) ∧ (t.snp = some (k, tx)) ∧ (t.ann = false) ∧ (t.evx = false) :=
  ⟨3, 0x800, 5, 0x800, true, .x, { st := .hxF, ptrs := [3] }, { snp := some (.x, 0x800) }, wTrans { st := .hxF, ptrs := [3] } { snp := some (.x, 0x800) }, by decide +kernel⟩

theorem test_meets_HomeAnswerRows_snoopTimeout : ∃ (node dla : Nat) (s : State), (waitsOn s node dla = true) :=
  ⟨3, 5, wTrans { st := .hsI, ptrs := [3] } { pend := [3] }, by decide +kernel⟩

theorem test_meets_HomeAnswerRows_snoopTimeout_none : ∃ (node dla : Nat) (s : State), (waitsOn s node dla = false) :=
  ⟨3, 5, wServ, by decide +kernel⟩

theorem test_meets_ProxySnoopRows_snpS_invalid : ∃ (home txid dla reqn rqtx : Nat) (s : State), (isDead s home = false) ∧ ((pxAt s home dla).st = none) :=
  ⟨1, 0x800, 5, 2, 3, wServ, by decide +kernel⟩

theorem test_meets_ProxySnoopRows_snpS : ∃ (home txid dla reqn rqtx : Nat) (s : State), (isDead s home = false) ∧ ((pxAt s home dla).st = some .pe ∨ (pxAt s home dla).st = some .pm ∨ (pxAt s home dla).st = some .pmW ∨ (pxAt s home dla).st = some .peI ∨ (pxAt s home dla).st = some .pmI ∨ (pxAt s home dla).st = some .piX ∨ (pxAt s home dla).st = some .psX) :=
  ⟨1, 0x800, 5, 2, 3, wPx { st := some .pm, kid := 288 }, by decide +kernel⟩

theorem test_meets_ProxySnoopRows_snpS_error : ∃ (home txid dla reqn rqtx : Nat) (s : State), (isDead s home = false) ∧ ((pxAt s home dla).st = some .ps ∨ (pxAt s home dla).st = some .piS ∨ (pxAt s home dla).st = some .pf) :=
  ⟨1, 0x800, 5, 2, 3, wPx { st := some .ps, kid := 288 }, by decide +kernel⟩

theorem test_meets_ProxySnoopRows_snpX_invalid : ∃ (home txid dla reqn rqtx : Nat) (s : State), (isDead s home = false) ∧ ((pxAt s home dla).st = none) :=
  ⟨1, 0x800, 5, 2, 3, wServ, by decide +kernel⟩

theorem test_meets_ProxySnoopRows_snpX : ∃ (home txid dla reqn rqtx : Nat) (s : State), (isDead s home = false) ∧ ((pxAt s home dla).st = some .pe ∨ (pxAt s home dla).st = some .pm ∨ (pxAt s home dla).st = some .pmW ∨ (pxAt s home dla).st = some .peI ∨ (pxAt s home dla).st = some .pmI ∨ (pxAt s home dla).st = some .piX ∨ (pxAt s home dla).st = some .psX) :=
  ⟨1, 0x800, 5, 2, 3, wPx { st := some .pm, kid := 288 }, by decide +kernel⟩

theorem test_meets_ProxySnoopRows_snpX_error : ∃ (home txid dla reqn rqtx : Nat) (s : State), (isDead s home = false) ∧ ((pxAt s home dla).st = some .ps ∨ (pxAt s home dla).st = some .piS ∨ (pxAt s home dla).st = some .pf) :=
  ⟨1, 0x800, 5, 2, 3, wPx { st := some .ps, kid := 288 }, by decide +kernel⟩

theorem test_meets_ProxySnoopRows_snpC_invalid : ∃ (home txid dla reqn rqtx : Nat) (s : State), (isDead s home = false) ∧ ((pxAt s home dla).st = none) :=
  ⟨1, 0x800, 5, 2, 3, wServ, by decide +kernel⟩

theorem test_meets_ProxySnoopRows_snpC : ∃ (home txid dla reqn rqtx : Nat) (s : State), (isDead s home = false) ∧ ((pxAt s home dla).st = some .pe ∨ (pxAt s home dla).st = some .pm ∨ (pxAt s home dla).st = some .pmW ∨ (pxAt s home dla).st = some .peI ∨ (pxAt s home dla).st = some .pmI ∨ (pxAt s home dla).st = some .piX ∨ (pxAt s home dla).st = some .psX) :=
  ⟨1, 0x800, 5, 2, 3, wPx { st := some .pm, kid := 288 }, by decide +kernel⟩

theorem test_meets_ProxySnoopRows_snpC_error : ∃ (home txid dla reqn rqtx : Nat) (s : State), (isDead s home = false) ∧ ((pxAt s home dla).st = some .ps ∨ (pxAt s home dla).st = some .piS ∨ (pxAt s home dla).st = some .pf) :=
  ⟨1, 0x800, 5, 2, 3, wPx { st := some .ps, kid := 288 }, by decide +kernel⟩

theorem test_meets_ProxySnoopRows_snpI_invalid : ∃ (home txid dla reqn rqtx : Nat) (s : State), (isDead s home = false) ∧ ((pxAt s home dla).st = none) :=
  ⟨1, 0x800, 5, 2, 3, wServ, by decide +kernel⟩

theorem test_meets_ProxySnoopRows_snpI : ∃ (home txid dla reqn rqtx : Nat) (s : State), (isDead s home = false) ∧ ((pxAt s home dla).st = some .pe ∨ (pxAt s home dla).st = some .pm ∨ (pxAt s home dla).st = some .pmW ∨ (pxAt s home dla).st = some .peI ∨ (pxAt s home dla).st = some .pmI ∨ (pxAt s home dla).st = some .piX ∨ (pxAt s home dla).st = some .psX) :=
  ⟨1, 0x800, 5, 2, 3, wPx { st := some .pm, kid := 288 }, by decide +kernel⟩

theorem test_meets_ProxySnoopRows_snpI_error : ∃ (home txid dla reqn rqtx : Nat) (s : State), (isDead s home = false) ∧ ((pxAt s home dla).st = some .ps ∨ (pxAt s home dla).st = some .piS ∨ (pxAt s home dla).st = some .pf) :=
  ⟨1, 0x800, 5, 2, 3, wPx { st := some .ps, kid := 288 }, by decide +kernel⟩

theorem test_meets_ProxySnoopRows_snpI_shared : ∃ (home txid dla reqn rqtx : Nat) (s : State), (isDead s home = false) ∧ ((pxAt s home dla).st = some .ps ∨ (pxAt s home dla).st = some .psX) :=
  ⟨1, 0x800, 5, 2, 3, wPx { st := some .ps, kid := 288 }, by decide +kernel⟩

theorem test_meets_ProxySnoopRows_hostRecallDone : ∃ (home dla : Nat) (d : Line) (s : State), (biBusy s home dla = true) :=
  ⟨1, 5, 7, { wServ with coh := { bis := [(biKey .a 1 5, .data)] } }, by decide +kernel⟩

theorem test_meets_ProxySnoopRows_hostRecallDone_clean : ∃ (home dla : Nat) (s : State), (biBusy s home dla = true) :=
  ⟨1, 5, { wServ with coh := { bis := [(biKey .a 1 5, .data)] } }, by decide +kernel⟩

theorem test_meets_ProxyGrantRows_datS : ∃ (src txid dla kid ver key : Nat) (d : Line) (po : Bool) (x : PxLine) (s : State), (isDead s src = false) ∧ (lineByTx s txid dla = some (key, x)) ∧ (fits .datS x.st = true) ∧ (src = key / 2 ^ 36) :=
  ⟨1, 9, 5, 288, 4, lkey 1 5, 7, false, { st := some .piS, txid := some 9 }, wPx { st := some .piS, txid := some 9 }, by decide +kernel⟩

theorem test_meets_ProxyGrantRows_datS_forwarded : ∃ (src txid dla kid ver key : Nat) (d : Line) (po : Bool) (x : PxLine) (s : State), (isDead s src = false) ∧ (lineByTx s txid dla = some (key, x)) ∧ (fits .datS x.st = true) ∧ (src ≠ key / 2 ^ 36) :=
  ⟨2, 9, 5, 288, 4, lkey 1 5, 7, false, { st := some .piS, txid := some 9 }, wPx { st := some .piS, txid := some 9 }, by decide +kernel⟩

theorem test_meets_ProxyGrantRows_datX : ∃ (src txid dla kid ver key : Nat) (d : Line) (po : Bool) (x : PxLine) (s : State), (isDead s src = false) ∧ (lineByTx s txid dla = some (key, x)) ∧ (fits .datX x.st = true) ∧ (src = key / 2 ^ 36) :=
  ⟨1, 9, 5, 288, 4, lkey 1 5, 7, false, { st := some .piX, txid := some 9 }, wPx { st := some .piX, txid := some 9 }, by decide +kernel⟩

theorem test_meets_ProxyGrantRows_datX_forwarded : ∃ (src txid dla kid ver key : Nat) (d : Line) (po : Bool) (x : PxLine) (s : State), (isDead s src = false) ∧ (lineByTx s txid dla = some (key, x)) ∧ (fits .datX x.st = true) ∧ (src ≠ key / 2 ^ 36) :=
  ⟨2, 9, 5, 288, 4, lkey 1 5, 7, false, { st := some .piX, txid := some 9 }, wPx { st := some .piX, txid := some 9 }, by decide +kernel⟩

theorem test_meets_ProxyGrantRows_datC : ∃ (src txid dla kid ver key : Nat) (d : Line) (po : Bool) (x : PxLine) (s : State), (isDead s src = false) ∧ (lineByTx s txid dla = some (key, x)) ∧ (fits .datC x.st = true) ∧ (src = key / 2 ^ 36) :=
  ⟨1, 9, 5, 288, 4, lkey 1 5, 7, false, { txid := some 9 }, wPx { txid := some 9 }, by decide +kernel⟩

theorem test_meets_ProxyGrantRows_datC_forwarded : ∃ (src txid dla kid ver key : Nat) (d : Line) (po : Bool) (x : PxLine) (s : State), (isDead s src = false) ∧ (lineByTx s txid dla = some (key, x)) ∧ (fits .datC x.st = true) ∧ (src ≠ key / 2 ^ 36) :=
  ⟨2, 9, 5, 288, 4, lkey 1 5, 7, false, { txid := some 9 }, wPx { txid := some 9 }, by decide +kernel⟩

theorem test_meets_ProxyGrantRows_cmp_credit : ∃ (src dla ver : Nat) (crd : Bool) (s : State), (isDead s src = false) :=
  ⟨1, 5, 0, true, wServ, by decide +kernel⟩

theorem test_meets_ProxyGrantRows_cmp_write : ∃ (src txid dla ver : Nat) (w : Waiter) (s : State), (isDead s src = false) ∧ (txid ≠ 0xFFF) ∧ (Table.get? (pxAt s src dla).wrts txid = some (some w)) :=
  ⟨1, 9, 5, 4, { kind := .rdS, asker := .host .a 0 .s 0 0, kid := 288, cls := 0 }, wPx { wrts := [(9, some { kind := .rdS, asker := .host .a 0 .s 0 0, kid := 288, cls := 0 })] }, by decide +kernel⟩

theorem test_meets_ProxyGrantRows_cmp_evict : ∃ (src txid dla ver : Nat) (s : State), (isDead s src = false) ∧ (txid ≠ 0xFFF) ∧ (Table.get? (pxAt s src dla).wrts txid = none) ∧ ((pxAt s src dla).txid = some txid) ∧ ((pxAt s src dla).evxSent = true) :=
  ⟨1, 9, 5, 4, wPx { st := some .peI, txid := some 9, evxSent := true }, by decide +kernel⟩

theorem test_meets_ProxyGrantRows_cmpX_granted : ∃ (src txid dla : Nat) (s : State), (isDead s src = false) ∧ ((pxAt s src dla).txid = some txid) ∧ ((pxAt s src dla).evxSent = false) ∧ ((pxAt s src dla).st = some .piX) :=
  ⟨1, 9, 5, wPx { st := some .piX, txid := some 9 }, by decide +kernel⟩

theorem test_meets_ProxyGrantRows_cmpX : ∃ (src txid dla kid : Nat) (f : Fill) (s : State), (isDead s src = false) ∧ ((pxAt s src dla).txid = some txid) ∧ ((pxAt s src dla).evxSent = false) ∧ ((pxAt s src dla).st = some .psX) ∧ ((pxAt s src dla).data = none) ∧ (copyOf s src dla = some (f, kid)) :=
  ⟨1, 9, 5, 288, .data 7 3, { wServ with coh := { px := [(lkey 1 5, { st := some .psX, txid := some 9 })] }, cache := { ways := [(wayKey (sliceOf 5) (cacheSet 5) 0, { node := 1, dla := 5, kid := 288, dirty := false, poison := false, pf := false, pin := false, evict := false, data := 7, ver := 3 })] } }, by decide +kernel⟩

theorem test_meets_ProxyGrantRows_rtyH : ∃ (home txid dla rsn : Nat) (s : State), (isDead s home = false) ∧ ((pxAt s home dla).txid = some txid) ∧ ((pxAt s home dla).evxSent = false) :=
  ⟨1, 9, 5, 0, wPx { st := some .piS, txid := some 9 }, by decide +kernel⟩

theorem test_meets_ProxyGrantRows_retryBackoffExpire : ∃ (home dla tx : Nat) (r : Retry) (s : State), ((pxAt s home dla).txid = some tx) ∧ (Table.get? s.coh.retries (lkey home dla) = some r) ∧ (r.due = true) :=
  ⟨1, 5, 9, ⟨1, true⟩, { wServ with coh := { px := [(lkey 1 5, { st := some .piS, txid := some 9 })], retries := [(lkey 1 5, ⟨1, true⟩)] } }, by decide +kernel⟩

theorem test_meets_ProxyGrantRows_proxyTimeout : ∃ (home dla : Nat) (s : State), (pxWaiting (pxAt s home dla) = true) :=
  ⟨1, 5, wPx { st := some .piS, txid := some 9 }, by decide +kernel⟩

theorem test_meets_CacheUpkeepRows_maintClean : ∃ (snd : Sender) (count : Nat) (s : State), ((maintOf s snd).busy = false) :=
  ⟨.portB, 0, wServ, by decide +kernel⟩

theorem test_meets_CacheUpkeepRows_maintClean_busy : ∃ (snd : Sender) (count : Nat) (s : State), ((maintOf s snd).busy = true) :=
  ⟨.portB, 0, { wServ with cache := { maint := List.replicate 5 { busy := true } } }, by decide +kernel⟩

theorem test_meets_CacheUpkeepRows_maintInval : ∃ (snd : Sender) (count : Nat) (s : State), ((maintOf s snd).busy = false) :=
  ⟨.portB, 0, wServ, by decide +kernel⟩

theorem test_meets_CacheUpkeepRows_maintInval_busy : ∃ (snd : Sender) (count : Nat) (s : State), ((maintOf s snd).busy = true) :=
  ⟨.portB, 0, { wServ with cache := { maint := List.replicate 5 { busy := true } } }, by decide +kernel⟩

theorem test_meets_CacheUpkeepRows_maintFlush : ∃ (snd : Sender) (count : Nat) (s : State), ((maintOf s snd).busy = false) :=
  ⟨.portB, 0, wServ, by decide +kernel⟩

theorem test_meets_CacheUpkeepRows_maintFlush_busy : ∃ (snd : Sender) (count : Nat) (s : State), ((maintOf s snd).busy = true) :=
  ⟨.portB, 0, { wServ with cache := { maint := List.replicate 5 { busy := true } } }, by decide +kernel⟩

theorem test_meets_CacheUpkeepRows_maintDone : ∃ (snd : Sender) (s : State), ((maintOf s snd).busy = true) ∧ ((maintOf s snd).left = 0) :=
  ⟨.portB, { wServ with cache := { maint := List.replicate 5 { busy := true } } }, by decide +kernel⟩

theorem test_meets_CacheUpkeepRows_maintDone_not : ∃ (snd : Sender) (s : State), ((maintOf s snd).left ≠ 0) :=
  ⟨.portB, { wServ with cache := { maint := List.replicate 5 { busy := true, left := 3 } } }, by decide +kernel⟩

theorem test_meets_CacheUpkeepRows_sccCommit_disable : ∃ (snd : Sender) (s : State), (holds snd 1 s = true) ∧ (s.cache.staged.enable = false) ∧ (s.cache.state = 1) :=
  ⟨.portA, { wServ with mb := { clamps := List.replicate 16 { owner := 1 } }, cache := { staged := { enable := false }, state := 1 } }, by decide +kernel⟩

theorem test_meets_CacheUpkeepRows_sccCommit_disabled : ∃ (snd : Sender) (s : State), (holds snd 1 s = true) ∧ (s.cache.staged.enable = false) ∧ (s.cache.state ≠ 1) :=
  ⟨.portA, { wServ with mb := { clamps := List.replicate 16 { owner := 1 } }, cache := { staged := { enable := false }, state := 0 } }, by decide +kernel⟩

theorem test_meets_CacheUpkeepRows_sccCommit_enable : ∃ (snd : Sender) (s : State), (holds snd 1 s = true) ∧ (s.cache.staged.enable = true) ∧ (s.cache.state = 0) :=
  ⟨.portA, { wServ with mb := { clamps := List.replicate 16 { owner := 1 } }, cache := { staged := { enable := true }, state := 0 } }, by decide +kernel⟩

theorem test_meets_CacheUpkeepRows_sccCommit_waits : ∃ (snd : Sender) (s : State), (holds snd 1 s = true) ∧ (s.cache.staged.enable = true) ∧ (s.cache.state = 2) :=
  ⟨.portA, { wServ with mb := { clamps := List.replicate 16 { owner := 1 } }, cache := { staged := { enable := true }, state := 2 } }, by decide +kernel⟩

theorem test_meets_CacheUpkeepRows_sccCommit_enabled : ∃ (snd : Sender) (s : State), (holds snd 1 s = true) ∧ (s.cache.staged.enable = true) ∧ (s.cache.state = 1) :=
  ⟨.portA, { wServ with mb := { clamps := List.replicate 16 { owner := 1 } }, cache := { staged := { enable := true }, state := 1 } }, by decide +kernel⟩

theorem test_meets_CacheUpkeepRows_sccCommit_clamp : ∃ (snd : Sender) (s : State), (holds snd 1 s = false) :=
  ⟨.portB, { wServ with mb := { clamps := List.replicate 16 { owner := 1 } }, cache := { staged := { enable := true }, state := 1 } }, by decide +kernel⟩

theorem test_meets_CacheUpkeepRows_wayPowerOffDone : ∃ (way : Nat) (s : State), (s.cache.cfg.wayOff / 2 ^ way % 2 = 1) ∧ (s.cache.waysOn / 2 ^ way % 2 = 1) ∧ (wayEmpty (flushWays way s) way = true) :=
  ⟨0, { wServ with cache := { cfg := { wayOff := 1 }, waysOn := 0xFFFF } }, by decide +kernel⟩

theorem test_meets_CacheUpkeepRows_wayPowerOffDone_2 : ∃ (way : Nat) (s : State), (s.cache.cfg.wayOff / 2 ^ way % 2 = 1) ∧ (s.cache.waysOn / 2 ^ way % 2 = 1) ∧ (wayEmpty (flushWays way s) way = true) :=
  ⟨15, { wServ with cache := { cfg := { wayOff := 0x8000 }, waysOn := 0xFFFF } }, by decide +kernel⟩

theorem test_meets_CacheUpkeepRows_wayPowerOffDone_not : ∃ (way : Nat) (s : State), (s.cache.cfg.wayOff / 2 ^ way % 2 = 0 ∨ s.cache.waysOn / 2 ^ way % 2 = 0) :=
  ⟨0, wServ, by decide +kernel⟩

theorem test_meets_CacheUpkeepRows_cacheOffDone : ∃ (s : State), (s.cache.state = 2) ∧ ((List.range 16).all (wayEmpty ((List.range 16).foldl (fun s w => flushWays w s) s)) = true) :=
  ⟨{ wServ with cache := { state := 2 } }, by decide +kernel⟩

theorem test_meets_CacheUpkeepRows_cacheOffDone_not : ∃ (s : State), (s.cache.state ≠ 2) :=
  ⟨wServ, by decide +kernel⟩

theorem test_meets_LinkReceiveRows_fecBlockReceive : ∃ (port : Nat) (blk : FecBlock) (s : State), ((sglAt s port).st = .up) ∧ (blk.decoded = true) ∧ (blk.blk = (sglAt s port).blocks % 4096) :=
  ⟨7, ⟨15, 0, []⟩, { wServ with sgl := { ports := List.replicate 8 { st := .up, width := 3 } } }, by decide +kernel⟩

theorem test_meets_LinkReceiveRows_fecBlockReceive_undecoded : ∃ (port : Nat) (blk : FecBlock) (s : State), ((sglAt s port).st = .up) ∧ (blk.decoded = false) :=
  ⟨7, ⟨16, 0, []⟩, { wServ with sgl := { ports := List.replicate 8 { st := .up, width := 3 } } }, by decide +kernel⟩

theorem test_meets_LinkReceiveRows_fecBlockReceive_lock : ∃ (port : Nat) (blk : FecBlock) (s : State), ((sglAt s port).st = .up) ∧ (blk.decoded = true) ∧ (blk.blk ≠ (sglAt s port).blocks % 4096) :=
  ⟨7, ⟨15, 3, []⟩, { wServ with sgl := { ports := List.replicate 8 { st := .up, width := 3 } } }, by decide +kernel⟩

theorem test_meets_LinkReceiveRows_controlFlit_credits : ∃ (port : Nat) (ctl : CtlPayload) (s : State), ((sglAt s port).st = .up) ∧ (ctl.linkDown = false) ∧ (ctl.keySwitch = false) ∧ (ctl.retrainReq = false) ∧ (ctl.nak = false) :=
  ⟨7, ⟨false, false, false, false, 0, [], 5000⟩, { wServ with sgl := { ports := List.replicate 8 { st := .up, width := 3 } } }, by decide +kernel⟩

theorem test_meets_LinkReceiveRows_controlFlit_down : ∃ (port : Nat) (ctl : CtlPayload) (s : State), ((sglAt s port).st = .up) ∧ (ctl.linkDown = true) :=
  ⟨7, ⟨false, false, false, true, 0, [], 5000⟩, { wServ with sgl := { ports := List.replicate 8 { st := .up, width := 3 } } }, by decide +kernel⟩

theorem test_meets_LinkReceiveRows_controlFlit_nak : ∃ (port : Nat) (ctl : CtlPayload) (s : State), ((sglAt s port).st = .up) ∧ (ctl.linkDown = false) ∧ (ctl.keySwitch = false) ∧ (ctl.retrainReq = false) ∧ (ctl.nak = true) :=
  ⟨7, ⟨true, false, false, false, 0, [], 5000⟩, { wServ with sgl := { ports := List.replicate 8 { st := .up, width := 3 } } }, by decide +kernel⟩

theorem test_meets_LinkReceiveRows_controlFlit_key : ∃ (port : Nat) (ctl : CtlPayload) (s : State), ((sglAt s port).st = .up) ∧ (ctl.linkDown = false) ∧ (ctl.keySwitch = true) ∧ (ctl.retrainReq = false) ∧ (ctl.nak = false) ∧ (keyAtOk (sglAt (modSgl port (fun x => { x with freed := ctl.credits }) s) port) ctl.keyAt = true) :=
  ⟨7, ⟨false, true, false, false, 0, [], 5000⟩, { wServ with sgl := { ports := List.replicate 8 { st := .up, width := 3 } } }, by decide +kernel⟩

theorem test_meets_LinkReceiveRows_nakRepeat : ∃ (port : Nat) (s : State), ((sglAt s port).nakWait = true) ∧ ((sglAt s port).st = .up) :=
  ⟨7, { wServ with sgl := { ports := List.replicate 8 { st := .up, width := 3, nakWait := true } } }, by decide +kernel⟩

theorem test_meets_LinkReceiveRows_nakRepeat_not : ∃ (port : Nat) (s : State), ((sglAt s port).nakWait = false) :=
  ⟨7, wServ, by decide +kernel⟩

theorem test_meets_LinkReceiveRows_ackTimeout : ∃ (port : Nat) (f : TxFlit) (fs : List TxFlit) (s : State), ((sglAt s port).retry = f :: fs) ∧ ((sglAt s port).st = .up) :=
  ⟨7, ⟨0, []⟩, [], { wServ with sgl := { ports := List.replicate 8 { st := .up, width := 3, retry := [⟨0, []⟩] } } }, by decide +kernel⟩

theorem test_meets_LinkReceiveRows_ackTimeout_empty : ∃ (port : Nat) (s : State), ((sglAt s port).retry = []) :=
  ⟨7, wServ, by decide +kernel⟩

theorem test_meets_LinkReceiveRows_controlFlitDue : ∃ (port : Nat) (s : State), ((sglAt s port).st = .up) :=
  ⟨7, { wServ with sgl := { ports := List.replicate 8 { st := .up, width := 3 } } }, by decide +kernel⟩

theorem test_meets_LinkReceiveRows_blockLockLoss_one : ∃ (port lane : Nat) (s : State), ((sglAt s port).width = 3) :=
  ⟨7, 2, { wServ with sgl := { ports := List.replicate 8 { st := .up, width := 3 } } }, by decide +kernel⟩

theorem test_meets_LinkReceiveRows_blockLockLoss_narrow : ∃ (port lane : Nat) (s : State), ((sglAt s port).width ≠ 3) :=
  ⟨7, 2, wServ, by decide +kernel⟩

theorem test_meets_LinkReceiveRows_rekey : ∃ (port : Nat) (s : State), ((sglAt s port).st = .up) :=
  ⟨7, { wServ with sgl := { ports := List.replicate 8 { st := .up, width := 3 } } }, by decide +kernel⟩

theorem test_meets_LinkReceiveRows_keySwitchApply : ∃ (port at_ : Nat) (s : State), ((sglAt s port).keyAt = some at_) :=
  ⟨7, 5000, { wServ with sgl := { ports := List.replicate 8 { st := .up, width := 3, keyAt := some 5000 } } }, by decide +kernel⟩

theorem test_meets_LinkReceiveRows_keySwitchApply_not : ∃ (port : Nat) (s : State), ((sglAt s port).keyAt = none) :=
  ⟨7, wServ, by decide +kernel⟩

theorem test_meets_LinkTrainRows_linkTrain_detect : ∃ (port : Nat) (inp : TrainInput) (s : State), ((sglAt s port).st ≠ .up) ∧ ((sglAt s port).st ≠ .refused) ∧ (s.mb.mpReady = true) ∧ (s.pw.phase = .boot ∨ s.pw.phase = .replay ∨ s.pw.phase = .service ∨ s.pw.phase = .flush) ∧ (inp.width = 0) :=
  ⟨7, ⟨0, true, 2, 0, true, 5, 1057, 77, 9, []⟩, { wServ with mb := { mpReady := true }, sgl := { cfg := { pool := 5, nodeSet := true } }, sec := { trustPool := [(9, [])] } }, by decide +kernel⟩

theorem test_meets_LinkTrainRows_linkTrain_eq : ∃ (port : Nat) (inp : TrainInput) (s : State), ((sglAt s port).st ≠ .up) ∧ ((sglAt s port).st ≠ .refused) ∧ (s.mb.mpReady = true) ∧ (s.pw.phase = .boot ∨ s.pw.phase = .replay ∨ s.pw.phase = .service ∨ s.pw.phase = .flush) ∧ (inp.width ≠ 0) ∧ (inp.lockOk = false) :=
  ⟨7, ⟨3, false, 2, 0, true, 5, 1057, 77, 9, []⟩, { wServ with mb := { mpReady := true }, sgl := { cfg := { pool := 5, nodeSet := true } }, sec := { trustPool := [(9, [])] } }, by decide +kernel⟩

theorem test_meets_LinkTrainRows_linkTrain_up : ∃ (port : Nat) (inp : TrainInput) (s : State), ((sglAt s port).st ≠ .up) ∧ ((sglAt s port).st ≠ .refused) ∧ (s.mb.mpReady = true) ∧ (s.pw.phase = .boot ∨ s.pw.phase = .replay ∨ s.pw.phase = .service ∨ s.pw.phase = .flush) ∧ (inp.width ≠ 0) ∧ (inp.lockOk = true) ∧ (identCheck s inp = 0) :=
  ⟨7, ⟨3, true, 2, 0, true, 5, 1057, 77, 9, []⟩, { wServ with mb := { mpReady := true }, sgl := { cfg := { pool := 5, nodeSet := true } }, sec := { trustPool := [(9, [])] } }, by decide +kernel⟩

theorem test_meets_LinkTrainRows_linkTrain_refused : ∃ (port : Nat) (inp : TrainInput) (s : State), ((sglAt s port).st ≠ .up) ∧ ((sglAt s port).st ≠ .refused) ∧ (s.mb.mpReady = true) ∧ (s.pw.phase = .boot ∨ s.pw.phase = .replay ∨ s.pw.phase = .service ∨ s.pw.phase = .flush) ∧ (inp.width ≠ 0) ∧ (inp.lockOk = true) ∧ (identCheck s inp ≠ 0) ∧ (identCheck s inp ≠ 3) :=
  ⟨7, ⟨3, true, 2, 0, true, 6, 1057, 77, 9, []⟩, { wServ with mb := { mpReady := true } }, by decide +kernel⟩

theorem test_meets_LinkTrainRows_linkTrain_duplicate : ∃ (port : Nat) (inp : TrainInput) (s : State), ((sglAt s port).st ≠ .up) ∧ ((sglAt s port).st ≠ .refused) ∧ (s.mb.mpReady = true) ∧ (s.pw.phase = .boot ∨ s.pw.phase = .replay ∨ s.pw.phase = .service ∨ s.pw.phase = .flush) ∧ (inp.width ≠ 0) ∧ (inp.lockOk = true) ∧ (identCheck s inp = 3) :=
  ⟨7, ⟨3, true, 0, 0, true, 5, 1057, 77, 9, []⟩, { wServ with mb := { mpReady := true }, sgl := { cfg := { pool := 5, nodeSet := true } }, sec := { trustPool := [(9, [])] } }, by decide +kernel⟩

theorem test_meets_LinkTrainRows_linkTrain_not : ∃ (port : Nat) (inp : TrainInput) (s : State), ((sglAt s port).st = .up ∨ (sglAt s port).st = .refused ∨ s.mb.mpReady = false ∨ s.pw.phase = .off ∨ s.pw.phase = .standby ∨ s.pw.phase = .powerDown) :=
  ⟨7, ⟨3, true, 2, 0, true, 5, 1057, 77, 9, []⟩, { wStand with mb := { mpReady := true }, sgl := { cfg := { pool := 5, nodeSet := true } }, sec := { trustPool := [(9, [])] } }, by decide +kernel⟩

theorem test_meets_LinkTrainRows_refusedRetry : ∃ (port : Nat) (s : State), ((sglAt s port).st = .refused) :=
  ⟨7, { wServ with sgl := { ports := List.replicate 8 { st := .refused, refuse := 2 } } }, by decide +kernel⟩

theorem test_meets_LinkTrainRows_messageForward_here : ∃ (inPort sub : Nat) (msg : SglMsg) (s : State), (msg.dst = me s) :=
  ⟨0, 0, { kind := .rdS, src := 1, dst := 0 }, wServ, by decide +kernel⟩

theorem test_meets_LinkTrainRows_messageForward_on : ∃ (inPort sub : Nat) (msg : SglMsg) (s : State), (msg.dst ≠ me s) :=
  ⟨0, 0, { kind := .rdS, src := 1, dst := 3 }, wServ, by decide +kernel⟩

theorem test_meets_LinkTrainRows_messageForward_unreachable : ∃ (inPort sub : Nat) (msg : SglMsg) (e : RouteEntry) (s : State), (msg.dst ≠ me s) ∧ (Table.get? s.sgl.routes msg.dst = some e) ∧ (e.reach = false) :=
  ⟨0, 0, { kind := .rdS, src := 1, dst := 3 }, ⟨0, 0, 1, false⟩, { wServ with sgl := { routes := [(3, ⟨0, 0, 1, false⟩)] } }, by decide +kernel⟩

theorem test_meets_LinkTrainRows_messageForward_adaptive : ∃ (inPort : Nat) (msg : SglMsg) (e : RouteEntry) (p : Nat) (s : State), (msg.dst ≠ me s) ∧ (Table.get? s.sgl.routes msg.dst = some e) ∧ (e.reach = true) ∧ (isManagement msg = false) ∧ (adaptivePort s e msg = some p) :=
  ⟨0, { kind := .rdS, src := 1, dst := 3 }, ⟨2, 1, 1, true⟩, 1, { wServ with sgl := { routes := [(3, ⟨2, 1, 1, true⟩)], ports := List.replicate 8 { st := .up, width := 3, bufs := List.replicate 15 40 } } }, by decide +kernel⟩

theorem test_meets_LinkTrainRows_salvage_after : ∃ (port lastSeq : Nat) (s : State), ((sglAt s port).st ≠ .up) ∧ ((sglAt s port).retry.any (fun f => f.seq == lastSeq) = true) :=
  ⟨7, 0, { wServ with sgl := { ports := List.replicate 8 { retry := [⟨0, []⟩, ⟨1, []⟩] } } }, by decide +kernel⟩

theorem test_meets_LinkTrainRows_salvage_all : ∃ (port lastSeq : Nat) (s : State), ((sglAt s port).st ≠ .up) ∧ ((sglAt s port).retry.any (fun f => f.seq == lastSeq) = false) :=
  ⟨7, 1023, wServ, by decide +kernel⟩

theorem test_meets_PoolRows_lsa_seen : ∃ (port : Nat) (body : Lsa) (s : State), (s.sgl.lsdb.any (fun x => x.1.origin == body.origin && x.1.serial == body.serial && decide (body.seq ≤ x.1.seq)) = true) :=
  ⟨7, ⟨3, 77, 4, true, 0, true, []⟩, { wServ with sgl := { lsdb := [(⟨3, 77, 4, true, 0, true, []⟩, 0)] } }, by decide +kernel⟩

theorem test_meets_PoolRows_lsa_new : ∃ (port : Nat) (body : Lsa) (s : State), (s.sgl.lsdb.any (fun x => x.1.origin == body.origin && x.1.serial == body.serial && decide (body.seq ≤ x.1.seq)) = false) ∧ (((lsasOf (floodTo 1 (lsaWords body) ((upPorts s).filter (· != port)) (storeLsa body s)) body.origin).find? (fun l => l.serial != body.serial)).isSome = false) ∧ ((body.origin == me (floodTo 1 (lsaWords body) ((upPorts s).filter (· != port)) (storeLsa body s)) && (floodTo 1 (lsaWords body) ((upPorts s).filter (· != port)) (storeLsa body s)).sgl.cfg.nodeSet && body.serial != mySerial) = false) :=
  ⟨7, ⟨3, 77, 4, true, 0, true, []⟩, wServ, by decide +kernel⟩

theorem test_meets_PoolRows_routeInstall : ∃ (s : State), (s.sgl.stale = true) :=
  ⟨{ wServ with sgl := { stale := true } }, by decide +kernel⟩

theorem test_meets_PoolRows_routeInstall_not : ∃ (s : State), (s.sgl.stale = false) :=
  ⟨{ wServ with sgl := { stale := false } }, by decide +kernel⟩

theorem test_meets_PoolRows_gatherWindowExpire : ∃ (s : State), (s.sgl.gathering = true) ∧ (isRidge s = true) ∧ (s.sgl.declared = false) :=
  ⟨{ wServ with sgl := { cfg := { pool := 5, nodeSet := true, roster := 15 }, gathering := true, declared := false, lsdb := [(⟨0, 77, 4, true, 0, true, []⟩, 0)] } }, by decide +kernel⟩

theorem test_meets_PoolRows_gatherWindowExpire_not : ∃ (s : State), (s.sgl.declared = true ∨ s.sgl.gathering = false) :=
  ⟨{ wServ with sgl := { cfg := { pool := 5, nodeSet := true, roster := 15 }, members := 7, declared := true, gen := 2 } }, by decide +kernel⟩

theorem test_meets_PoolRows_gatherWindowExpire_not_2 : ∃ (s : State), (s.sgl.declared = true ∨ s.sgl.gathering = false) :=
  ⟨wServ, by decide +kernel⟩

theorem test_meets_PoolRows_member : ∃ (port gen ridge : Nat) (map : List Nat) (s : State), (s.sgl.cfg.pool ≠ 0) ∧ (s.sgl.gen < gen) :=
  ⟨7, 3, 0, [7], { wServ with sgl := { cfg := { pool := 5, nodeSet := true, roster := 15 }, members := 7, declared := true, gen := 2 } }, by decide +kernel⟩

theorem test_meets_PoolRows_member_old : ∃ (port gen ridge : Nat) (map : List Nat) (s : State), (s.sgl.cfg.pool = 0 ∨ gen ≤ s.sgl.gen) :=
  ⟨7, 2, 0, [7], { wServ with sgl := { cfg := { pool := 5, nodeSet := true, roster := 15 }, members := 7, declared := true, gen := 2 } }, by decide +kernel⟩

theorem test_meets_PoolRows_holdLimitExpire : ∃ (s : State), (s.sgl.state ≠ 2) :=
  ⟨wServ, by decide +kernel⟩

theorem test_meets_PoolRows_holdLimitExpire_not : ∃ (s : State), (s.sgl.state = 2) :=
  ⟨{ wServ with sgl := { state := 2 } }, by decide +kernel⟩

theorem test_meets_PoolRows_join : ∃ (node serial : Nat) (s : State), (isRidge s = true) ∧ (s.sgl.declared = true) ∧ (s.sgl.members / 2 ^ node % 2 = 0) ∧ (onRoster s node = true) ∧ (s.fab.dups.contains node = false) ∧ ((lsasOf s node).all (fun l => l.serial == serial) = true) :=
  ⟨3, 77, { wServ with sgl := { cfg := { pool := 5, nodeSet := true, roster := 15 }, members := 7, declared := true, gen := 2 } }, by decide +kernel⟩

theorem test_meets_PoolRows_join_not : ∃ (node serial : Nat) (s : State), (isRidge s = false) :=
  ⟨3, 77, wServ, by decide +kernel⟩

theorem test_meets_PoolRows_dead : ∃ (node cause : Nat) (s : State), (isRidge s = true) ∧ (s.sgl.declared = true) ∧ (present s node = true) ∧ (node ≠ me s) :=
  ⟨2, 1, { wServ with sgl := { cfg := { pool := 5, nodeSet := true, roster := 15 }, members := 7, declared := true, gen := 2 } }, by decide +kernel⟩

theorem test_meets_PoolRows_dead_not : ∃ (node cause : Nat) (s : State), (isRidge s = false) :=
  ⟨2, 1, wServ, by decide +kernel⟩

theorem test_meets_PoolRows_memberUnreachable : ∃ (node : Nat) (s : State), (s.sgl.declared = true) ∧ (present s node = true) ∧ (node ≠ me s) ∧ ((distIn (distances s (me s)) node).isSome = false) ∧ (node ≠ s.sgl.ridge) ∧ (isRidge s = true) :=
  ⟨2, { wServ with sgl := { cfg := { pool := 5, nodeSet := true, roster := 15 }, members := 7, declared := true, gen := 2 } }, by decide +kernel⟩

theorem test_meets_PoolRows_memberUnreachable_ridge : ∃ (node : Nat) (s : State), (s.sgl.declared = true) ∧ (present s node = true) ∧ (node ≠ me s) ∧ ((distIn (distances s (me s)) node).isSome = false) ∧ (node = s.sgl.ridge) ∧ (successor s node = some (me s)) :=
  ⟨2, { wServ with sgl := { cfg := { pool := 5, nodeSet := true, roster := 15 }, members := 7, ridge := 2, declared := true, lsdb := [(⟨0, 77, 4, true, 0, true, []⟩, 0)] } }, by decide +kernel⟩

theorem test_meets_PoolRows_duplicateExpire_none : ∃ (node serial : Nat) (s : State), (s.fab.dups.contains node = false) :=
  ⟨2, 77, wServ, by decide +kernel⟩

theorem test_meets_PoolRows_duplicateExpire : ∃ (node serial : Nat) (s : State), (s.fab.dups.contains node = true) ∧ (((lsasOf { s with sgl := { s.sgl with lsdb := s.sgl.lsdb.filter (fun x => !(x.1.origin == node && x.1.serial == serial && serial != mySerial)), stale := true } } node).map (·.serial)).dedup.length ≤ 1) ∧ (node ≠ me s) :=
  ⟨2, 77, { wServ with fab := { dups := [2] } }, by decide +kernel⟩

theorem test_meets_MediumReadRows_mediumReadStart_direct : ∃ (rid : Nat) (rd : MedRead) (x : Stripe) (s : State), (Table.get? s.sched.reads rid = some rd) ∧ (rd.started = false) ∧ (s.sched.held = false) ∧ (outranked s rid rd = false) ∧ (slotsOpen s rd (readPlan s rd.loc).1 = true) ∧ (stripeAt s rd.loc.stripe = some x) ∧ (x.lost = []) ∧ (claimedAt s rd.loc = false) :=
  ⟨7, { use := .miss 0 5, loc := ⟨0, 0, 0, 0, 0, true⟩, prio := 3, rgen := 0 }, { stream := 0, fast := true, pStack := 7, cls := 2 }, { wServ with sched := { reads := [(7, { use := .miss 0 5, loc := ⟨0, 0, 0, 0, 0, true⟩, prio := 3, rgen := 0 })] }, tr := { stripes := [(0, { stream := 0, fast := true, pStack := 7, cls := 2 })] } }, by decide +kernel⟩

theorem test_meets_MediumReadRows_mediumReadStart_flashing : ∃ (rid : Nat) (rd : MedRead) (x : Stripe) (s : State), (Table.get? s.sched.reads rid = some rd) ∧ (rd.started = false) ∧ (s.sched.held = false) ∧ (outranked s rid rd = false) ∧ (slotsOpen s rd (readPlan s rd.loc).1 = true) ∧ (stripeAt s rd.loc.stripe = some x) ∧ (x.lost = []) ∧ (claimedAt s rd.loc = true) ∧ (rd.use.isSpec = false) :=
  ⟨7, { use := .miss 0 5, loc := ⟨0, 0, 0, 0, 0, true⟩, prio := 3, rgen := 0 }, { stream := 0, fast := true, pStack := 7, cls := 2 }, { wServ with sched := { reads := [(7, { use := .miss 0 5, loc := ⟨0, 0, 0, 0, 0, true⟩, prio := 3, rgen := 0 })], busy := [(0, { state := 2, stack := 0 })] }, tr := { stripes := [(0, { stream := 0, fast := true, pStack := 7, cls := 2 })] } }, by decide +kernel⟩

theorem test_meets_MediumReadRows_mediumReadStart_lost : ∃ (rid : Nat) (rd : MedRead) (x : Stripe) (s : State), (Table.get? s.sched.reads rid = some rd) ∧ (rd.started = false) ∧ (s.sched.held = false) ∧ (outranked s rid rd = false) ∧ (slotsOpen s rd (readPlan s rd.loc).1 = true) ∧ (stripeAt s rd.loc.stripe = some x) ∧ (x.lost.contains rd.loc.stack = true) ∧ (rd.use.isSpec = false) :=
  ⟨7, { use := .miss 0 5, loc := ⟨0, 0, 0, 0, 0, true⟩, prio := 3, rgen := 0 }, { stream := 0, fast := true, pStack := 7, cls := 2, lost := [0] }, { wServ with sched := { reads := [(7, { use := .miss 0 5, loc := ⟨0, 0, 0, 0, 0, true⟩, prio := 3, rgen := 0 })] }, tr := { stripes := [(0, { stream := 0, fast := true, pStack := 7, cls := 2, lost := [0] })] } }, by decide +kernel⟩

theorem test_meets_MediumReadRows_mediumReadStart_survivor : ∃ (rid : Nat) (rd : MedRead) (x : Stripe) (s : State), (Table.get? s.sched.reads rid = some rd) ∧ (rd.started = false) ∧ (s.sched.held = false) ∧ (outranked s rid rd = false) ∧ (slotsOpen s rd (readPlan s rd.loc).1 = true) ∧ (stripeAt s rd.loc.stripe = some x) ∧ (x.lost.contains rd.loc.stack = false) ∧ (x.lost ≠ []) :=
  ⟨7, { use := .miss 0 5, loc := ⟨0, 0, 0, 0, 0, true⟩, prio := 3, rgen := 0 }, { stream := 0, fast := true, pStack := 7, cls := 2, lost := [3] }, { wServ with sched := { reads := [(7, { use := .miss 0 5, loc := ⟨0, 0, 0, 0, 0, true⟩, prio := 3, rgen := 0 })] }, tr := { stripes := [(0, { stream := 0, fast := true, pStack := 7, cls := 2, lost := [3] })] } }, by decide +kernel⟩

theorem test_meets_MediumReadRows_mediumReadStart_spec : ∃ (rid : Nat) (rd : MedRead) (s : State), (Table.get? s.sched.reads rid = some rd) ∧ (rd.use.isSpec = true) ∧ ((readPlan s rd.loc).2 = true) :=
  ⟨7, { use := .spec 0 5, loc := ⟨0, 0, 0, 0, 0, true⟩, prio := 3, rgen := 0 }, { wServ with sched := { reads := [(7, { use := .spec 0 5, loc := ⟨0, 0, 0, 0, 0, true⟩, prio := 3, rgen := 0 })], busy := [(0, { state := 2, stack := 0 })] }, tr := { stripes := [(0, { stream := 0, fast := true, pStack := 7, cls := 2 })] } }, by decide +kernel⟩

theorem test_meets_MediumReadRows_mediumReadStart_waits : ∃ (rid : Nat) (rd : MedRead) (s : State), (Table.get? s.sched.reads rid = some rd) ∧ (outranked s rid rd = true ∨ slotsOpen s rd (readPlan s rd.loc).1 = false) :=
  ⟨7, { use := .miss 0 5, loc := ⟨0, 0, 0, 0, 0, true⟩, prio := 3, rgen := 0 }, { wServ with sched := { reads := [(6, { use := .miss 0 5, loc := ⟨0, 0, 0, 0, 0, true⟩, prio := 3, rgen := 0 }), (7, { use := .miss 0 5, loc := ⟨0, 0, 0, 0, 0, true⟩, prio := 3, rgen := 0 })] } }, by decide +kernel⟩

theorem test_meets_MediumReadRows_mediumReadStart_held : ∃ (rid : Nat) (rd : MedRead) (s : State), (Table.get? s.sched.reads rid = some rd) ∧ (rd.started = true ∨ s.sched.held = true) :=
  ⟨7, { use := .miss 0 5, loc := ⟨0, 0, 0, 0, 0, true⟩, prio := 3, rgen := 0 }, { wServ with sched := { reads := [(7, { use := .miss 0 5, loc := ⟨0, 0, 0, 0, 0, true⟩, prio := 3, rgen := 0 })], held := true } }, by decide +kernel⟩

theorem test_meets_MediumReadRows_readTransferred : ∃ (group part stack : Nat) (s : State), (nthD (busyAt s group part).reads stack 0 ≠ 0) ∧ ((busyAt s group part).stack = stack) :=
  ⟨0, 0, 3, { wServ with sched := { busy := [(0, { stack := 3, reads := [0, 0, 0, 1, 0, 0, 0, 0] })] } }, by decide +kernel⟩

theorem test_meets_MediumReadRows_readTransferred_other : ∃ (group part stack : Nat) (s : State), (nthD (busyAt s group part).reads stack 0 ≠ 0) ∧ ((busyAt s group part).stack ≠ stack) :=
  ⟨0, 0, 3, { wServ with sched := { busy := [(0, { stack := 2, reads := [0, 0, 0, 1, 0, 0, 0, 0] })] } }, by decide +kernel⟩

theorem test_meets_MediumReadRows_readTransferred_none : ∃ (group part stack : Nat) (s : State), (nthD (busyAt s group part).reads stack 0 = 0) :=
  ⟨0, 0, 3, wServ, by decide +kernel⟩

theorem test_meets_MediumReadRows_slotGrant : ∃ (cls : Nat) (cr : List Int) (j : Job) (s : State), (progAllowed s = true) ∧ (claimedCount s < slotsInForce s) ∧ (nextClass s = (some cls, cr)) ∧ (workOf s cls = some j) :=
  ⟨3, (nextClass { wServ with tr := { stripes := [(0, { stream := 1, fast := false, pStack := 7, cls := 3, rounds := [{ row := 0, left := [1, 2] }] })] } }).2, ⟨0, 1, some 0⟩, { wServ with tr := { stripes := [(0, { stream := 1, fast := false, pStack := 7, cls := 3, rounds := [{ row := 0, left := [1, 2] }] })] } }, by decide +kernel⟩

theorem test_meets_MediumReadRows_slotGrant_not : ∃ (s : State), (progAllowed s = false ∨ slotsInForce s ≤ claimedCount s) :=
  ⟨{ wServ with thm := { progHold := true } }, by decide +kernel⟩

theorem test_meets_MediumReadRows_rowProgramDone : ∃ (group part : Nat) (s : State), ((busyAt s group part).state = 2) :=
  ⟨0, 0, { wServ with sched := { busy := [(0, { state := 2, stack := 3 })] } }, by decide +kernel⟩

theorem test_meets_MediumReadRows_rowProgramDone_fail : ∃ (group part : Nat) (s : State), ((busyAt s group part).state = 2) :=
  ⟨0, 0, { wServ with sched := { busy := [(0, { state := 2, stack := 3 })] } }, by decide +kernel⟩

theorem test_meets_MediumReadRows_rowProgramDone_none : ∃ (group part : Nat) (pass : Bool) (s : State), ((busyAt s group part).state ≠ 2) :=
  ⟨0, 0, true, wServ, by decide +kernel⟩

theorem test_meets_MediumReadRows_resetDone : ∃ (group part : Nat) (pass : Bool) (s : State), ((busyAt s group part).state = 3) :=
  ⟨0, 0, true, { wServ with sched := { busy := [(0, { state := 3, stack := 3 })] } }, by decide +kernel⟩

theorem test_meets_MediumReadRows_resetDone_none : ∃ (group part : Nat) (pass : Bool) (s : State), ((busyAt s group part).state ≠ 3) :=
  ⟨0, 0, true, wServ, by decide +kernel⟩

theorem test_meets_MediumFaultRows_responseDeadlineMiss_die : ∃ (t g : Nat) (s : State), ((((missId (.die t g), s.now) :: s.sched.misses).filter (fun m => decide (s.now - m.2 < millisecond))).countP (fun m => m.1 == missId (.die t g)) < 3) :=
  ⟨7, 7, wServ, by decide +kernel⟩

theorem test_meets_MediumFaultRows_responseDeadlineMiss_channel : ∃ (n : Nat) (s : State), ((((missId (.channel n), s.now) :: s.sched.misses).filter (fun m => decide (s.now - m.2 < millisecond))).countP (fun m => m.1 == missId (.channel n)) < 3) :=
  ⟨15, wServ, by decide +kernel⟩

theorem test_meets_MediumFaultRows_responseDeadlineMiss_third : ∃ (t g : Nat) (s : State), (3 ≤ (((missId (.die t g), s.now) :: s.sched.misses).filter (fun m => decide (s.now - m.2 < millisecond))).countP (fun m => m.1 == missId (.die t g))) :=
  ⟨7, 7, { wServ with sched := { misses := [(63, 0), (63, 0)] } }, by decide +kernel⟩

theorem test_meets_MediumFaultRows_dieInternalFault : ∃ (t g : Nat) (s : State), (dieLost s t g = false) ∧ (declaredLately s (otherDie t g) = false) :=
  ⟨7, 7, wServ, by decide +kernel⟩

theorem test_meets_MediumFaultRows_dieInternalFault_stack : ∃ (t g : Nat) (s : State), (dieLost s t g = false) ∧ (declaredLately s (otherDie t g) = true) :=
  ⟨7, 7, { wServ with prot := { declared := [(.die 7 6, 0)] } }, by decide +kernel⟩

theorem test_meets_MediumFaultRows_dieInternalFault_again : ∃ (t g : Nat) (s : State), (dieLost s t g = true) :=
  ⟨0, 0, { wServ with prot := { lostDie := 1 } }, by decide +kernel⟩

theorem test_meets_MediumFaultRows_faultRelease_medium : ∃ (s : State), (s.prot.faults.contains .medium = true) :=
  ⟨{ wServ with prot := { faults := [.medium] } }, by decide +kernel⟩

theorem test_meets_MediumFaultRows_faultRelease_lpddr : ∃ (d : Nat) (s : State), (s.prot.faults.contains (.lpddr d) = true) :=
  ⟨3, { wServ with prot := { faults := [.lpddr 3] } }, by decide +kernel⟩

theorem test_meets_MediumFaultRows_faultRelease_none : ∃ (f : HeldFault) (s : State), (s.prot.faults.contains f = false) :=
  ⟨.medium, wServ, by decide +kernel⟩

theorem test_meets_PlacementRows_roundStart : ∃ (group stream k : Nat) (x : Stripe) (s : State), (s.tr.stripes.find? (fun x => stripeGroup x.1 == group && x.2.stream == stream && !x.2.failed && !x.2.reclaim && roundReady x.2 x.2.begun && decide (x.2.rounds.length < 4)) = some (k, x)) :=
  ⟨0, 0, 0, { stream := 0, fast := true, pStack := 7, cls := 2, fill := List.replicate 8 8 }, { wServ with tr := { stripes := [(0, { stream := 0, fast := true, pStack := 7, cls := 2, fill := List.replicate 8 8 })] } }, by decide +kernel⟩

theorem test_meets_PlacementRows_roundStart_none : ∃ (group stream : Nat) (s : State), (s.tr.stripes.find? (fun x => stripeGroup x.1 == group && x.2.stream == stream && !x.2.failed && !x.2.reclaim && roundReady x.2 x.2.begun && decide (x.2.rounds.length < 4)) = none) :=
  ⟨0, 0, wServ, by decide +kernel⟩

theorem test_meets_PlacementRows_roundDeadline : ∃ (group stream k : Nat) (x : Stripe) (s : State), (s.tr.stripes.find? (fun x => stripeGroup x.1 == group && x.2.stream == stream && !x.2.failed && !x.2.reclaim && (match topRow x.2 with | some r => decide (x.2.begun ≤ r) | none => false)) = some (k, x)) :=
  ⟨0, 0, 0, { stream := 0, fast := true, pStack := 7, cls := 2, fill := List.replicate 8 8 }, { wServ with tr := { stripes := [(0, { stream := 0, fast := true, pStack := 7, cls := 2, fill := List.replicate 8 8 })] } }, by decide +kernel⟩

theorem test_meets_PlacementRows_roundDeadline_none : ∃ (group stream : Nat) (s : State), (s.tr.stripes.find? (fun x => stripeGroup x.1 == group && x.2.stream == stream && !x.2.failed && !x.2.reclaim && (match topRow x.2 with | some r => decide (x.2.begun ≤ r) | none => false)) = none) :=
  ⟨0, 0, wServ, by decide +kernel⟩

theorem test_meets_PlacementRows_drainRowReadback : ∃ (stripe stack row b : Nat) (x : Stripe) (s : State), (stripeAt s stripe = some x) ∧ (x.stream = 0) ∧ (row < x.passed) ∧ (x.members.contains stack = true) ∧ (b ≤ 2) :=
  ⟨0, 3, 0, 0, { stream := 0, fast := true, pStack := 7, cls := 2, passed := 1 }, { wServ with tr := { stripes := [(0, { stream := 0, fast := true, pStack := 7, cls := 2, passed := 1 })] } }, by decide +kernel⟩

theorem test_meets_PlacementRows_drainRowReadback_2 : ∃ (stripe stack row b : Nat) (x : Stripe) (s : State), (stripeAt s stripe = some x) ∧ (x.stream = 0) ∧ (row < x.passed) ∧ (x.members.contains stack = true) ∧ (b ≤ 2) :=
  ⟨0, 3, 0, 2, { stream := 0, fast := true, pStack := 7, cls := 2, passed := 1 }, { wServ with tr := { stripes := [(0, { stream := 0, fast := true, pStack := 7, cls := 2, passed := 1 })] } }, by decide +kernel⟩

theorem test_meets_PlacementRows_drainRowReadback_fail : ∃ (stripe stack row b : Nat) (x : Stripe) (s : State), (stripeAt s stripe = some x) ∧ (x.stream = 0) ∧ (row < x.passed) ∧ (x.members.contains stack = true) ∧ (2 < b) :=
  ⟨0, 3, 0, 3, { stream := 0, fast := true, pStack := 7, cls := 2, passed := 1 }, { wServ with tr := { stripes := [(0, { stream := 0, fast := true, pStack := 7, cls := 2, passed := 1 })] } }, by decide +kernel⟩

theorem test_meets_PlacementRows_drainRowReadback_lost : ∃ (stripe stack row : Nat) (x : Stripe) (s : State), (stripeAt s stripe = some x) ∧ (x.stream = 0) ∧ (row < x.passed) ∧ (x.members.contains stack = true) :=
  ⟨0, 3, 0, { stream := 0, fast := true, pStack := 7, cls := 2, passed := 1 }, { wServ with tr := { stripes := [(0, { stream := 0, fast := true, pStack := 7, cls := 2, passed := 1 })] } }, by decide +kernel⟩

theorem test_meets_PlacementRows_verifyReadDue : ∃ (stripe stack row b : Nat) (x : Stripe) (s : State), (stripeAt s stripe = some x) ∧ (x.reclaim = false) ∧ (row < x.passed) ∧ (x.members.contains stack = true) ∧ (x.fast = false) ∧ (b ≤ 2) :=
  ⟨0, 3, 0, 0, { stream := 1, fast := false, pStack := 7, cls := 2, passed := 1 }, { wServ with tr := { stripes := [(0, { stream := 1, fast := false, pStack := 7, cls := 2, passed := 1 })] } }, by decide +kernel⟩

theorem test_meets_PlacementRows_verifyReadDue_2 : ∃ (stripe stack row b : Nat) (x : Stripe) (s : State), (stripeAt s stripe = some x) ∧ (x.reclaim = false) ∧ (row < x.passed) ∧ (x.members.contains stack = true) ∧ (x.fast = false) ∧ (b ≤ 2) :=
  ⟨0, 3, 0, 2, { stream := 1, fast := false, pStack := 7, cls := 2, passed := 1 }, { wServ with tr := { stripes := [(0, { stream := 1, fast := false, pStack := 7, cls := 2, passed := 1 })] } }, by decide +kernel⟩

theorem test_meets_PlacementRows_verifyReadDue_fail : ∃ (stripe stack row b : Nat) (x : Stripe) (s : State), (stripeAt s stripe = some x) ∧ (x.reclaim = false) ∧ (row < x.passed) ∧ (x.members.contains stack = true) ∧ (x.fast = false) ∧ (2 < b) :=
  ⟨0, 3, 0, 3, { stream := 1, fast := false, pStack := 7, cls := 2, passed := 1 }, { wServ with tr := { stripes := [(0, { stream := 1, fast := false, pStack := 7, cls := 2, passed := 1 })] } }, by decide +kernel⟩

theorem test_meets_PlacementRows_rgenAdvance : ∃ (s : State), ((List.range 16).all (fun sl => Table.getD s.sched.readers (sl * 4 + (s.sched.rgen + 1) % 4) 0 + captured s sl (s.sched.rgen + 1) == 0) = true) :=
  ⟨wServ, by decide +kernel⟩

theorem test_meets_PlacementRows_rgenAdvance_not : ∃ (s : State), ((List.range 16).all (fun sl => Table.getD s.sched.readers (sl * 4 + (s.sched.rgen + 1) % 4) 0 + captured s sl (s.sched.rgen + 1) == 0) = false) :=
  ⟨{ wServ with sched := { readers := [(1, 1)] } }, by decide +kernel⟩

theorem test_meets_PlacementRows_rgenAdvance_not_2 : ∃ (s : State), ((List.range 16).all (fun sl => Table.getD s.sched.readers (sl * 4 + (s.sched.rgen + 1) % 4) 0 + captured s sl (s.sched.rgen + 1) == 0) = false) :=
  ⟨{ wServ with sched := { rgen := 3 }, cache := { mshrs := [(5, { kid := 288, cur := none, miss := true, loc := some .zero })] } }, by decide +kernel⟩

theorem test_meets_PlacementRows_reclaimGrant : ∃ (stripe : Nat) (x : Stripe) (s : State), (stripeAt s stripe = some x) ∧ (x.reclaim = true) ∧ (x.resets = []) ∧ (heirsVerified s x = true) ∧ (x.emptyEp ≤ s.per.committed) ∧ (x.emptyGen + 2 ≤ s.sched.rgen) :=
  ⟨0, { stream := 1, fast := false, pStack := 7, cls := 3, reclaim := true }, { wServ with sched := { rgen := 2 }, tr := { stripes := [(0, { stream := 1, fast := false, pStack := 7, cls := 3, reclaim := true })] } }, by decide +kernel⟩

theorem test_meets_PlacementRows_reclaimGrant_waits : ∃ (stripe : Nat) (x : Stripe) (s : State), (stripeAt s stripe = some x) ∧ (s.per.committed < x.emptyEp ∨ s.sched.rgen < x.emptyGen + 2 ∨ heirsVerified s x = false) :=
  ⟨0, { stream := 1, fast := false, pStack := 7, cls := 3, reclaim := true }, { wServ with sched := { rgen := 1 }, tr := { stripes := [(0, { stream := 1, fast := false, pStack := 7, cls := 3, reclaim := true })] } }, by decide +kernel⟩

theorem test_meets_PlacementRows_reclaimGrant_waits_2 : ∃ (stripe : Nat) (x : Stripe) (s : State), (stripeAt s stripe = some x) ∧ (s.per.committed < x.emptyEp ∨ s.sched.rgen < x.emptyGen + 2 ∨ heirsVerified s x = false) :=
  ⟨0, { stream := 1, fast := false, pStack := 7, cls := 3, reclaim := true, heirs := [1] }, { wServ with sched := { rgen := 2 }, tr := { stripes := [(0, { stream := 1, fast := false, pStack := 7, cls := 3, reclaim := true, heirs := [1] }), (1, { stream := 1, fast := false, pStack := 7, cls := 3, reclaim := false })] } }, by decide +kernel⟩

theorem test_meets_RelocationRows_dmaResume_not : ∃ (chan : Nat) (s : State), (chanHalted s chan = false ∨ s.mb.mpReady = false) :=
  ⟨3, wServ, by decide +kernel⟩

theorem test_meets_RelocationRows_dmaResume : ∃ (chan : Nat) (s : State), (chanHalted s chan = true) ∧ (s.mb.mpReady = true) ∧ (s.tr.relocs.filter (fun r => !r.2.halted.isEmpty && chanBit (quadOfLpn r.1) r.2.kind.chan == chan) = []) :=
  ⟨3, { wServ with mb := { mpReady := true }, prot := { halted := 8 } }, by decide +kernel⟩

theorem test_meets_RelocationRows_dmaResume_page : ∃ (chan lpn : Nat) (r : Reloc) (s : State), (chanHalted s chan = true) ∧ (s.mb.mpReady = true) ∧ (s.tr.relocs.filter (fun r => !r.2.halted.isEmpty && chanBit (quadOfLpn r.1) r.2.kind.chan == chan) = [(lpn, r)]) :=
  ⟨(chanBit (quadOfLpn 0) 0), 0, { kind := .fold, capDense := {}, capEaves := [], got := [], epoch := 3, want := [], halted := [9, 4] }, { wServ with mb := { mpReady := true }, prot := { halted := 2 ^ chanBit (quadOfLpn 0) 0 }, tr := { relocs := [(0, { kind := .fold, capDense := {}, capEaves := [], got := [], epoch := 3, want := [], halted := [9, 4] })] } }, by decide +kernel⟩

theorem test_meets_RelocationRows_relocationSwitch : ∃ (lpn : Nat) (r : Reloc) (l : Loc) (s : State), (Table.get? s.tr.relocs lpn = some r) ∧ (r.target = some l) ∧ (pageVerified s l = true) :=
  ⟨0, { kind := .gc, capDense := {}, capEaves := [], got := [], want := [], target := some ⟨3, 0, 0, 0, 0, false⟩ }, ⟨3, 0, 0, 0, 0, false⟩, { wServ with tr := { relocs := [(0, { kind := .gc, capDense := {}, capEaves := [], got := [], want := [], target := some ⟨3, 0, 0, 0, 0, false⟩ })], stripes := [(0, { stream := 2, fast := false, pStack := 7, cls := 4, checked := [1536, 1537, 1538] })] } }, by decide +kernel⟩

theorem test_meets_RelocationRows_relocationSwitch_waits : ∃ (lpn : Nat) (r : Reloc) (l : Loc) (s : State), (Table.get? s.tr.relocs lpn = some r) ∧ (r.target = some l) ∧ (pageVerified s l = false) :=
  ⟨0, { kind := .gc, capDense := {}, capEaves := [], got := [], want := [], target := some ⟨3, 0, 0, 0, 0, false⟩ }, ⟨3, 0, 0, 0, 0, false⟩, { wServ with tr := { relocs := [(0, { kind := .gc, capDense := {}, capEaves := [], got := [], want := [], target := some ⟨3, 0, 0, 0, 0, false⟩ })] } }, by decide +kernel⟩

theorem test_meets_RelocationRows_relocationSwitch_none : ∃ (lpn : Nat) (s : State), (Table.get? s.tr.relocs lpn = none) :=
  ⟨0, wServ, by decide +kernel⟩

theorem test_meets_RelocationRows_foldStep_none : ∃ (quadrant : Nat) (s : State), (foldOffered (foldForBacks (stagePages (placeBacks (finishBacks (reclaimEmptied 0 s))))) = false) :=
  ⟨3, wServ, by decide +kernel⟩

theorem test_meets_RelocationRows_foldStep : ∃ (quadrant k : Nat) (s : State), (foldOffered (foldForBacks (stagePages (placeBacks (finishBacks (reclaimEmptied 0 s))))) = true) ∧ (foldSource (foldForBacks (stagePages (placeBacks (finishBacks (reclaimEmptied 0 s))))) = some k) :=
  ⟨3, 0, { wServ with tr := { maps := { eaves := [(5, { group := 0, part := 0, course := 0, slot := 0 })] }, stripes := [(0, { stream := 0, fast := true, pStack := 7, cls := 2, isOpen := false, weak := true })] } }, by decide +kernel⟩

theorem test_meets_RelocationRows_gcStep_none : ∃ (group : Nat) (s u : State), ((match failedMeta (stagePages (reclaimEmptied 2 (reclaimEmptied 1 s))) group with | some m => rewriteMeta m (stagePages (reclaimEmptied 2 (reclaimEmptied 1 s))) | none => stagePages (reclaimEmptied 2 (reclaimEmptied 1 s))) = u) ∧ (u.tr.readOnly = true ∨ 1024 ≤ freeCount u group ∧ queuedVictim u group = false) :=
  ⟨3, { wServ with tr := { readOnly := true } }, _, rfl, by decide +kernel⟩

theorem test_meets_RelocationRows_gcStep : ∃ (group k : Nat) (s u : State), ((match failedMeta (stagePages (reclaimEmptied 2 (reclaimEmptied 1 s))) group with | some m => rewriteMeta m (stagePages (reclaimEmptied 2 (reclaimEmptied 1 s))) | none => stagePages (reclaimEmptied 2 (reclaimEmptied 1 s))) = u) ∧ (u.tr.readOnly = false) ∧ (freeCount u group < 1024 ∨ queuedVictim u group = true) ∧ (victimOf u group = some k) :=
  ⟨0, 0, { wServ with tr := { maps := { dense := [(0, { valid := true })] }, stripes := [(0, { stream := 1, fast := false, pStack := 7, cls := 3, isOpen := false, failed := true })] }, prot := { lostDie := 0x101 } }, _, rfl, by decide +kernel⟩

theorem test_meets_RelocationRows_gcStep_readOnly : ∃ (group : Nat) (s u : State), ((match failedMeta (stagePages (reclaimEmptied 2 (reclaimEmptied 1 s))) group with | some m => rewriteMeta m (stagePages (reclaimEmptied 2 (reclaimEmptied 1 s))) | none => stagePages (reclaimEmptied 2 (reclaimEmptied 1 s))) = u) ∧ (u.tr.readOnly = false) ∧ (freeCount u group < 1024 ∨ queuedVictim u group = true) ∧ (victimOf u group = none) ∧ (freeCount u group ≤ 512) :=
  ⟨0, { wServ with prot := { lostDie := 0x101 } }, _, rfl, by decide +kernel⟩

theorem test_meets_RelocationRows_levelCheck_none : ∃ (s : State), (s.tr.readOnly = true ∨ wearSpread s ≤ s.tr.spreadNx) :=
  ⟨wServ, by decide +kernel⟩

theorem test_meets_RelocationRows_levelCheck : ∃ (k : Nat) (s : State), (s.tr.readOnly = false) ∧ (s.tr.spreadNx < wearSpread s) ∧ (levelSource { s with tr := { s.tr with spread := s.tr.spreadNx } } = some k) :=
  ⟨0, { wServ with tr := { spreadNx := 10, maps := { course := (List.range 8).map (fun t => (1048576 * t, { state := 3, wear := if t = 0 then 50 else 0 })) }, stripes := [(0, { stream := 1, fast := false, pStack := 7, cls := 3, isOpen := false })] } }, by decide +kernel⟩

theorem test_meets_RelocationRows_refreshStep_none : ∃ (s : State), (progAllowed (stagePages s) = false ∨ refreshNext (stagePages s) = none) :=
  ⟨wServ, by decide +kernel⟩

theorem test_meets_RelocationRows_refreshStep : ∃ (k : Nat) (x : Stripe) (s : State), (progAllowed (stagePages s) = true) ∧ (refreshNext (stagePages s) = some (k, x)) ∧ (x.stream ≠ 3) :=
  ⟨0, { stream := 1, fast := false, pStack := 7, cls := 3, isOpen := false, level := 2 }, { wServ with tr := { stripes := [(0, { stream := 1, fast := false, pStack := 7, cls := 3, isOpen := false, level := 2 })] } }, by decide +kernel⟩

theorem test_meets_RelocationRows_refreshStep_meta : ∃ (k : Nat) (x : Stripe) (s : State), (progAllowed (stagePages s) = true) ∧ (refreshNext (stagePages s) = some (k, x)) ∧ (x.stream = 3) :=
  ⟨0, { stream := 3, fast := false, pStack := 7, cls := 3, isOpen := false, level := 2 }, { wServ with tr := { stripes := [(0, { stream := 3, fast := false, pStack := 7, cls := 3, isOpen := false, level := 2 })] } }, by decide +kernel⟩

theorem test_meets_RelocationRows_rebuildStep_none : ∃ (s : State), (rebuildNext (stagePages (altEmptyPages s)) = none) :=
  ⟨wServ, by decide +kernel⟩

theorem test_meets_RelocationRows_rebuildStep_meta : ∃ (k : Nat) (x : Stripe) (s : State), (rebuildNext (stagePages (altEmptyPages s)) = some (k, x)) ∧ (x.stream = 3) :=
  ⟨0, { stream := 3, fast := false, pStack := 7, cls := 3, isOpen := false, lost := [2] }, { wServ with tr := { stripes := [(0, { stream := 3, fast := false, pStack := 7, cls := 3, isOpen := false, lost := [2] })] } }, by decide +kernel⟩

theorem test_meets_RelocationRows_rebuildStep : ∃ (k : Nat) (x : Stripe) (s : State), (rebuildNext (stagePages (altEmptyPages s)) = some (k, x)) ∧ (x.stream ≠ 3) :=
  ⟨0, { stream := 1, fast := false, pStack := 7, cls := 3, isOpen := false, lost := [2] }, { wServ with tr := { stripes := [(0, { stream := 1, fast := false, pStack := 7, cls := 3, isOpen := false, lost := [2] })] } }, by decide +kernel⟩

theorem test_meets_RelocationRows_remirrorStep : ∃ (n ptr : Nat) (s : State), (s.dram.remir = some (n, ptr)) ∧ (s.prot.faults.any (fun f => f == .lpddr n) = false) ∧ (ptr + 1 < remirRows) :=
  ⟨1, 0, { wServ with dram := { remir := some (1, 0) } }, by decide +kernel⟩

theorem test_meets_RelocationRows_remirrorStep_done : ∃ (n ptr : Nat) (s : State), (s.dram.remir = some (n, ptr)) ∧ (s.prot.faults.any (fun f => f == .lpddr n) = false) ∧ (¬ ptr + 1 < remirRows) :=
  ⟨1, (remirRows - 1), { wServ with dram := { remir := some (1, remirRows - 1) } }, by decide +kernel⟩

theorem test_meets_RelocationRows_remirrorStep_none : ∃ (s : State), (s.dram.remir = none) :=
  ⟨wServ, by decide +kernel⟩

theorem test_meets_PatrolRows_patrolScrub_not : ∃ (course sector : Nat) (res : SenseResult) (s : State), (s.pw.phase ≠ .service ∨ chanHalted s (chanBit (courseStack course / 2) 3) = true) :=
  ⟨0, 0, wSense, wStand, by decide +kernel⟩

theorem test_meets_PatrolRows_patrolScrub_skip : ∃ (course sector : Nat) (res : SenseResult) (s : State), (s.pw.phase = .service) ∧ (chanHalted s (chanBit (courseStack course / 2) 3) = false) ∧ (scrubbed s course = false ∨ scrubLast (courseOf s course).fast < sector) :=
  ⟨0, 3264, wSense, wServ, by decide +kernel⟩

theorem test_meets_PatrolRows_patrolScrub_other : ∃ (course sector : Nat) (res : SenseResult) (s : State), (s.pw.phase = .service) ∧ (chanHalted s (chanBit (courseStack course / 2) 3) = false) ∧ (scrubbed s course = true) ∧ (sector ≤ scrubLast (courseOf s course).fast) ∧ (lineAtLoc s (locOf (courseStripe course) (courseStack course) (courseOf s course).fast sector) = none) ∧ (holdsLine s (locOf (courseStripe course) (courseStack course) (courseOf s course).fast sector) = false) :=
  ⟨0, 3264, wSense, { wServ with tr := { maps := { course := [(0, { state := 2, fast := true })] } } }, by decide +kernel⟩

theorem test_meets_PatrolRows_patrolScrub_past : ∃ (course sector : Nat) (res : SenseResult) (s : State), (s.pw.phase = .service) ∧ (chanHalted s (chanBit (courseStack course / 2) 3) = false) ∧ (scrubbed s course = true) ∧ (sector ≤ scrubLast (courseOf s course).fast) ∧ (lineAtLoc s (locOf (courseStripe course) (courseStack course) (courseOf s course).fast sector) = none) ∧ (holdsLine s (locOf (courseStripe course) (courseStack course) (courseOf s course).fast sector) = true) :=
  ⟨0, 3, wSense, { wServ with tr := { cells := [(locKey ⟨0, 0, 0, 0, 3, true⟩, ⟨1, .reloc 5⟩)], maps := { course := [(0, { state := 2, fast := true })] } } }, by decide +kernel⟩

theorem test_meets_PatrolRows_patrolScrub_line : ∃ (course sector dla : Nat) (res : SenseResult) (s : State), (s.pw.phase = .service) ∧ (chanHalted s (chanBit (courseStack course / 2) 3) = false) ∧ (scrubbed s course = true) ∧ (sector ≤ scrubLast (courseOf s course).fast) ∧ (lineAtLoc s (locOf (courseStripe course) (courseStack course) (courseOf s course).fast sector) = some dla) :=
  ⟨0, 3, 5, wSense, { wServ with tr := { cells := [(locKey ⟨0, 0, 0, 0, 3, true⟩, ⟨1, .reloc 5⟩)], maps := { eaves := [(5, { group := 0, part := 0, course := 0, slot := 3 })], course := [(0, { state := 2, fast := true })] } } }, by decide +kernel⟩

theorem test_meets_PatrolRows_dramPatrol_waits : ∃ (line : Nat) (res other : DramSense) (s : State), (mayServe s 3 line = false) :=
  ⟨0, {}, {}, { wServ with dram := { chans := [(0, { training := true })] } }, by decide +kernel⟩

theorem test_meets_PatrolRows_dramPatrol_mirrored : ∃ (line : Nat) (res other : DramSense) (s : State), (mayServe s 3 line = true) ∧ (mirrored line = true) ∧ (((readMirror (copyZero line) line res other (wakeRank line s)).1 == .lost) = false) :=
  ⟨0x26000000, {}, {}, wServ, by decide +kernel⟩

theorem test_meets_PatrolRows_dramPatrol_mirrored_2 : ∃ (line : Nat) (res other : DramSense) (s : State), (mayServe s 3 line = true) ∧ (mirrored line = true) ∧ (((readMirror (copyZero line) line res other (wakeRank line s)).1 == .lost) = false) :=
  ⟨0x26000008, { err := BitVec.allOnes 576 }, {}, wServ, by decide +kernel⟩

theorem test_meets_PatrolRows_dramPatrol_both : ∃ (line : Nat) (res other : DramSense) (s : State), (mayServe s 3 line = true) ∧ (mirrored line = true) ∧ (((readMirror (copyZero line) line res other (wakeRank line s)).1 == .lost) = true) :=
  ⟨0x26000008, { err := BitVec.allOnes 576 }, { err := BitVec.allOnes 576 }, wServ, by decide +kernel⟩

theorem test_meets_PatrolRows_dramPatrol_clean : ∃ (line : Nat) (res other : DramSense) (s : State), (mayServe s 3 line = true) ∧ (mirrored line = false) ∧ (decodeAt (wakeRank line s) line 0 { err := res.err } = .clean) :=
  ⟨0x30000000, {}, {}, wServ, by decide +kernel⟩

theorem test_meets_PatrolRows_dramPatrol_corrected : ∃ (line : Nat) (res other : DramSense) (dqs : List Nat) (s : State), (mayServe s 3 line = true) ∧ (mirrored line = false) ∧ (decodeAt (wakeRank line s) line 0 { err := res.err } = .corrected dqs) :=
  ⟨0x30000000, { err := 1 }, {}, [0], wServ, by decide +kernel⟩

theorem test_meets_PatrolRows_dramPatrol_lost : ∃ (line : Nat) (res other : DramSense) (s : State), (mayServe s 3 line = true) ∧ (mirrored line = false) ∧ (decodeAt (wakeRank line s) line 0 { err := res.err } = .uncorrectable) :=
  ⟨0x30000000, { err := BitVec.allOnes 576 }, {}, wServ, by decide +kernel⟩

theorem test_meets_PatrolRows_sramPatrol_mshr : ∃ (slice node dla : Nat) (s : State), (node = me s) ∧ ((mshrAt s node dla).any (fun m => m.trans.isSome) = false) :=
  ⟨0, 0, 5, wServ, by decide +kernel⟩

theorem test_meets_PatrolRows_sramPatrol_mshrRecall : ∃ (slice node dla : Nat) (s : State), (node = me s) ∧ ((mshrAt s node dla).any (fun m => m.trans.isSome) = true) :=
  ⟨0, 0, 5, wTrans { st := .hx } {}, by decide +kernel⟩

theorem test_meets_PatrolRows_sramPatrol_spare : ∃ (slice sl : Nat) (s : State), (sl < 16) :=
  ⟨0, 15, wServ, by decide +kernel⟩

end Sys2Proof.Tests
end

section
/-! The slice hash (R20). The fold of `sliceOfLpn` is an XOR of groups, so each of its bits is the XOR of the groups'
bits, and bit b of group k is bit 4 * k + b of the page number. The facts hold for every `lpn`, not only below 2^30. -/

namespace Sys2Proof.Machine

/-- Group k of a page number holds its bits 4 * k to 4 * k + 3. -/
theorem testBit_lpnGroup (lpn k b : Nat) (hb : b < 4) :
    (lpn / 16 ^ k % 16).testBit b = lpn.testBit (4 * k + b) := by
  have h16 : (16 : Nat) ^ k = 2 ^ (4 * k) := by rw [pow_mul]; norm_num
  have hmod : (lpn / 16 ^ k % 2 ^ 4).testBit b = (lpn / 16 ^ k).testBit b := by
    simp only [Nat.testBit_mod_two_pow, hb, decide_true, Bool.true_and]
  calc (lpn / 16 ^ k % 16).testBit b
    _ = (lpn / 2 ^ (4 * k)).testBit b := by rw [← h16]; exact hmod
    _ = lpn.testBit (4 * k + b) := by rw [Nat.testBit_div_two_pow, Nat.add_comm]

/-- A slice number has four bits, since every group has (R20). -/
theorem sliceOfLpn_lt (lpn : Nat) : sliceOfLpn lpn < 16 := by
  unfold sliceOfLpn
  refine List.foldlRecOn (motive := (· < 16)) _ _ (by decide) fun acc hacc k _ => ?_
  exact Nat.xor_lt_two_pow (n := 4) hacc (Nat.mod_lt _ (by decide))

/-- The rows of Table 01-7. -/
theorem testBit_sliceOfLpn (lpn b : Nat) (hb : b < 4) :
    (sliceOfLpn lpn).testBit b =
      ((List.range 8).map (fun k => lpn.testBit (4 * k + b))).foldl Bool.xor false := by
  have hstep (acc k : Nat) : Bool.xor (acc.testBit b) (lpn.testBit (4 * k + b)) =
      (acc ^^^ (lpn / 16 ^ k % 16)).testBit b := by
    rw [Nat.testBit_xor, testBit_lpnGroup lpn k b hb]
  rw [List.foldl_map, ← Nat.zero_testBit b]
  exact (List.foldl_hom (Nat.testBit · b) hstep).symm

/-- Settles O5: the bound and the four rows of Table 01-7, which hold of every page number. -/
theorem homeSliceHash : Obligations.HomeSliceHash := by
  unfold Obligations.HomeSliceHash
  intro lpn _
  exact ⟨sliceOfLpn_lt lpn, testBit_sliceOfLpn lpn⟩

end Sys2Proof.Machine
end

section
/-! Clamp arbitration (R424). `clampDistance` counts the places from the rotating pointer to a sender, so that "the
first reader at or after the pointer" is the reader of least distance. -/

namespace Sys2Proof.Machine

/-- The places from a clamp's rotating pointer on to a sender, in the order Port A, Port B, sideband, MP (R424). -/
def clampDistance (ptr : Nat) (r : Sender) : Nat := (r.ix + 4 - ptr % 4) % 4

theorem senderIx_lt (r : Sender) : r.ix < 4 := by
  cases r <;> decide

theorem clampDistance_lt (ptr : Nat) (r : Sender) : clampDistance ptr r < 4 := Nat.mod_lt _ (by decide)

/-- The distance is the one number of places below four that leads from the pointer to the sender. -/
theorem pointer_add_mod_eq_ix_iff {ptr d : Nat} (r : Sender) (hd : d < 4) :
    (ptr + d) % 4 = r.ix ↔ d = clampDistance ptr r := by
  have := senderIx_lt r
  unfold clampDistance
  omega

/-- `clampWinner` finds the reader nearest to the pointer (R424). -/
theorem clampWinner_eq_of_nearest {ptr : Nat} {readers : List Sender} {w : Sender} (hw : w ∈ readers)
    (hmin : ∀ r ∈ readers, clampDistance ptr w ≤ clampDistance ptr r) : clampWinner ptr readers = some w.ix := by
  have hlt := clampDistance_lt ptr w
  have hreach := (pointer_add_mod_eq_ix_iff w hlt).mpr rfl
  have hfind : (List.range 4).find? (fun d => readers.any (fun r => r.ix == (ptr + d) % 4)) =
      some (clampDistance ptr w) := by
    refine List.find?_range_eq_some.mpr ⟨?_, List.mem_range.mpr hlt, fun d hd => ?_⟩
    · exact List.any_eq_true.mpr ⟨w, hw, by simp [hreach]⟩
    · simp only [Bool.not_eq_true', List.any_eq_false, beq_iff_eq]
      intro r hr hix
      have hdr := (pointer_add_mod_eq_ix_iff r (hd.trans hlt)).mp hix.symm
      exact absurd (hmin r hr) (by omega)
  unfold clampWinner
  rw [List.find?_map]
  exact (congrArg (Option.map _) hfind).trans (congrArg some hreach)

theorem exists_nearest_reader (ptr : Nat) {readers : List Sender} (h : readers ≠ []) :
    ∃ w ∈ readers, ∀ r ∈ readers, clampDistance ptr w ≤ clampDistance ptr r :=
  Set.exists_min_image {r | r ∈ readers} (clampDistance ptr) readers.finite_toSet (List.exists_mem_of_ne_nil _ h)

/-- Answering the readers leaves the clamps as the acquisition made them. -/
theorem foldl_emit_mb (f : Sender → State → Output) (readers : List Sender) (s : State) :
    (readers.foldl (fun u r => emit (f r u) u) s).mb = s.mb :=
  List.foldlRecOn (motive := fun u : State => u.mb = s.mb) readers _ rfl fun _ hu _ _ => hu

theorem acquire_of_free {n i : Nat} {readers : List Sender} {s : State}
    (hw : clampWinner (nthD s.mb.clamps n {}).ptr readers = some i) (hfree : (nthD s.mb.clamps n {}).owner = 0) :
    acquire n readers s = setClamp n { nthD s.mb.clamps n {} with owner := i + 1, ptr := (i + 1) % 4 } s := by
  simp only [acquire, hw, hfree, if_true]

/-- A read of a free clamp gives it to the nearest reader and moves the pointer past that reader (R422, R424). -/
theorem exec_clampRead_of_nearest {n : Nat} {readers : List Sender} {w : Sender} {s : State}
    (hn : n < s.mb.clamps.length) (hfree : (nthD s.mb.clamps n {}).owner = 0) (hw : w ∈ readers)
    (hmin : ∀ r ∈ readers, clampDistance (nthD s.mb.clamps n {}).ptr w ≤ clampDistance (nthD s.mb.clamps n {}).ptr r) :
    ∃ t, exec (.clampRead n readers false) s = .next t ∧
      nthD t.mb.clamps n {} = { nthD s.mb.clamps n {} with owner := w.ix + 1, ptr := (w.ix + 1) % 4 } := by
  refine ⟨_, rfl, ?_⟩
  rw [if_neg Bool.false_ne_true, foldl_emit_mb (fun r u => .regData r (clampView r n u)),
    acquire_of_free (clampWinner_eq_of_nearest hw hmin) hfree]
  exact nthD_setNth_same _ _ hn

theorem releaseClamp_clamps (n : Nat) (forced : Bool) (s : State) : (releaseClamp n forced s).mb.clamps =
    setNth s.mb.clamps n { nthD s.mb.clamps n {} with owner := 0, broken := forced } :=
  discardStaged_frame .clamps (by decide)

theorem exec_clampRelease_of_holds {h : Sender} {n : Nat} {s : State} (hh : holds h n s = true) :
    exec (.clampRelease h n) s = .next (releaseClamp n false s) :=
  congrArg Host.Outcome.next (if_pos hh)

/-- Settles O7: the reader of least distance wins, and a release leaves a free clamp, for which a single reader is the
nearest. -/
theorem clampArbitration : Obligations.ClampArbitration := by
  unfold Obligations.ClampArbitration
  refine ⟨fun n readers s hn hne hfree => ?_, fun n h r s hn hh => ?_⟩
  · obtain ⟨w, hw, hmin⟩ := exists_nearest_reader (nthD s.mb.clamps n {}).ptr hne
    obtain ⟨t, ht, hclamp⟩ := exec_clampRead_of_nearest hn hfree hw hmin
    exact ⟨w, hw, t, ht, by rw [hclamp], by rw [hclamp], hmin⟩
  · have hlen : n < (releaseClamp n false s).mb.clamps.length := by
      rwa [releaseClamp_clamps, setNth_length]
    have hfree : (nthD (releaseClamp n false s).mb.clamps n {}).owner = 0 := by
      rw [releaseClamp_clamps, nthD_setNth_same _ _ hn]
    obtain ⟨t, ht, hclamp⟩ := exec_clampRead_of_nearest hlen hfree (List.mem_singleton_self r) (by simp)
    exact ⟨_, t, exec_clampRelease_of_holds hh, ht, by rw [hclamp]⟩

end Sys2Proof.Machine
end

section
/-! The inbound drawer at its limits (R479). Laws of the boxes (a changed box, a change that changes nothing), of the
drawer as a list of stages (closing a packet replaces its reserved stage by a length word and moves no other), and of
the length word's ERR bit; the three registers' commands are then one equation each. -/

namespace Sys2Proof.Machine

/-! ### Boxes -/

theorem boxIx_lt (b : BoxId) : b.ix < 5 := by
  cases b <;> decide

theorem setNth_nthD_self (l : List α) (i : Nat) (d : α) : setNth l i (nthD l i d) = l := by
  rcases Nat.lt_or_ge i l.length with h | h
  · simp [setNth, nthD, h]
  · exact List.set_eq_of_length_le h

theorem boxOf_modBox_same {b : BoxId} {s : State} (f : Box → Box) (hlen : s.mb.boxes.length = 5) :
    boxOf (modBox b f s) b = f (boxOf s b) :=
  nthD_setNth_same _ _ (hlen ▸ boxIx_lt b)

theorem modBox_eq_self {b : BoxId} {f : Box → Box} {s : State} (hf : f (boxOf s b) = boxOf s b) :
    modBox b f s = s := by
  have hset : setNth s.mb.boxes b.ix (boxOf s b) = s.mb.boxes := setNth_nthD_self _ _ _
  rw [modBox, hf, hset]

theorem withBox_of_box? {snd : Sender} {b : BoxId} (hb : snd.box? = some b) (f : BoxId → State → State) (s : State) :
    withBox snd f s = f b s := by
  rw [withBox, hb]

/-! ### The drawer as a list of stages -/

theorem isReserved_iff {x : Stage} : x.isReserved = true ↔ x = .reserved := by
  cases x <;> simp [Stage.isReserved]

theorem drwOpenPkt_of_refused {d : Drawer} (h : drwOpen d = true ∨ 64 ≤ d.length) : drwOpenPkt d = (false, d) :=
  if_pos (by simpa using h)

theorem drwWord_of_full {d : Drawer} (w : Word) (h : 64 ≤ d.length) : drwWord w d = drwClose true d :=
  if_pos h

@[simp] theorem drwClose_length (err : Bool) (d : Drawer) : (drwClose err d).length = d.length :=
  List.length_map _

theorem getElem?_drwClose_of_ne_reserved (err : Bool) {d : Drawer} {i : Nat} {x : Stage} (hx : d[i]? = some x)
    (hne : x ≠ .reserved) : (drwClose err d)[i]? = some x := by
  have hres : ¬ x.isReserved = true := mt isReserved_iff.mp hne
  simp only [drwClose, List.getElem?_map, hx, Option.map_some, if_neg hres]

/-- The reserved stage takes the packet's length word, with ERR as it is closed (R477). -/
theorem getElem?_drwClose_of_reserved (err : Bool) {d : Drawer} {i : Nat} (hi : d[i]? = some .reserved) :
    ∃ ws, (drwClose err d)[i]? = some (.length (lengthWord ws err)) := by
  simp only [drwClose, List.getElem?_map, hi, Option.map_some, if_pos (isReserved_iff.mpr rfl)]
  exact ⟨_, rfl⟩

/-- Bit 6 of a length word is ERR (Table 15-4): WORDS lies below it and the CRC from bit 32 on. -/
theorem bitOf_lengthWord_err (ws : List Word) (err : Bool) : bitOf (lengthWord ws err) 6 = err := by
  simp only [bitOf, lengthWord, BitVec.getLsbD_ofNat, field, flag, Nat.testBit_eq_decide_div_mod_eq]
  cases err <;> simp <;> omega

/-! ### The drawer's commands -/

theorem exec_drawerOpen {snd : Sender} {b : BoxId} (hb : snd.box? = some b) (s : State) :
    exec (.drawerOpen snd) s = .next (openIn b s) :=
  congrArg Host.Outcome.next (withBox_of_box? hb openIn s)

theorem exec_drawerClose {snd : Sender} {b : BoxId} (hb : snd.box? = some b) (s : State) :
    exec (.drawerClose snd) s = .next (closeIn b s) :=
  congrArg Host.Outcome.next (withBox_of_box? hb closeIn s)

theorem exec_drawerWrite {snd : Sender} {b : BoxId} (hb : snd.box? = some b) (w : Word) (s : State) :
    exec (.drawerWrite snd w) s = .next (modBox b (fun x => { x with inDrw := drwWord w x.inDrw }) s) :=
  congrArg Host.Outcome.next (withBox_of_box? hb _ s)

/-- An OPEN that R479 refuses changes DRW_OVERRUN alone. -/
theorem openIn_of_refused {b : BoxId} {s : State} (hlen : s.mb.boxes.length = 5)
    (h : drwOpen (boxOf s b).inDrw = true ∨ 64 ≤ (boxOf s b).inDrw.length) :
    boxOf (openIn b s) b = { boxOf s b with drwOverrun := true } := by
  simp only [openIn, boxOf_modBox_same _ hlen, drwOpenPkt_of_refused h, Bool.not_false, Bool.or_true]

theorem closeIn_of_not_open {b : BoxId} {s : State} (h : drwOpen (boxOf s b).inDrw = false) : closeIn b s = s :=
  modBox_eq_self (by simp only [h, Bool.false_eq_true, if_false])

/-- A payload word for a full drawer closes its packet with ERR and is not stored (R479). -/
theorem inDrw_drawerWrite_of_full {b : BoxId} {s : State} (w : Word) (hlen : s.mb.boxes.length = 5)
    (h : 64 ≤ (boxOf s b).inDrw.length) :
    (boxOf (modBox b (fun x => { x with inDrw := drwWord w x.inDrw }) s) b).inDrw =
      drwClose true (boxOf s b).inDrw := by
  rw [boxOf_modBox_same _ hlen, drwWord_of_full w h]

/-- Settles O16: OPEN, a payload word and CLOSE in turn, each by its equation at the drawer's limit. -/
theorem drawerOverruns : Obligations.DrawerOverruns := by
  unfold Obligations.DrawerOverruns
  refine ⟨fun snd b s hb hlen h => ?_, fun snd b w s hb hlen h => ?_, fun snd b s hb _ h => ?_⟩
  · have hbox := openIn_of_refused hlen h
    exact ⟨_, exec_drawerOpen hb s, by rw [hbox], by rw [hbox]⟩
  · refine ⟨_, exec_drawerWrite hb w s, ?_⟩
    rw [inDrw_drawerWrite_of_full w hlen h]
    refine ⟨drwClose_length true _, fun i x => getElem?_drwClose_of_ne_reserved true, fun i hi => ?_⟩
    obtain ⟨ws, hws⟩ := getElem?_drwClose_of_reserved true hi
    exact ⟨_, hws, bitOf_lengthWord_err ws true⟩
  · rw [exec_drawerClose hb, closeIn_of_not_open h]

end Sys2Proof.Machine
end

section
/-! Messages to Belvy (R470, R482): a command ready at the head of an inbox runs its body on the state in which its
taking is counted. CLEAR_PSV_FAULT (R509) and REQ_MODE (R520) follow from what their bodies come to past the gate. -/

namespace Sys2Proof.Machine

@[simp] theorem ackHead_pw (b : BoxId) (rc : Nat) (s : State) : (ackHead b rc s).pw = s.pw :=
  ackHead_frame .pw (by decide)

/-- A command reads the low 44 bits of its operand, which are the whole argument of the message that is ready. -/
theorem runMsg_masked_of_headReady {b : BoxId} {op arg : Nat} {s : State} (run : Nat → State → State)
    (h : headReady s b op arg = true) : runMsg op b arg (run (arg % 2 ^ 44)) s = run arg (taken s) := by
  rw [headReady_arg h, runMsg_ready _ h]

/-! ### CLEAR_PSV_FAULT -/

/-- No supervisor fault is latched any more (R509). -/
def clearFaults (s : State) : State := { s with pw := { s.pw with faults := 0, faultRail := 0, block := false } }

theorem exec_clearPsvFault_of_headReady {b : BoxId} {arg : Nat} {s : State} (h : headReady s b 0x505 arg = true) :
    exec (.clearPsvFault b arg) s = .next (bcsClearPsvFault b arg (taken s)) :=
  congrArg Host.Outcome.next (runMsg_masked_of_headReady (bcsClearPsvFault b) h)

/-- Past its gate CLEAR_PSV_FAULT of the sideband clears the faults and is acknowledged OK. -/
theorem bcsClearPsvFault_of_gate {arg : Nat} {s : State}
    (hg : gateRc { op := 0x505, clamp := some 3 } .sideband arg s = none) :
    bcsClearPsvFault .sideband arg s = ackHead .sideband 0 (clearFaults s) := by
  rw [bcsClearPsvFault, if_neg (by decide), withGate_open _ hg rfl]
  rfl

/-- With no Block fault latched and START_ARMED set, VIN, the hold and scan power decide in Standby (R497, R586). -/
theorem bootMay_of_armed {s : State} (hphase : s.pw.phase = .standby) (harmed : s.pw.startArmed = true)
    (hblock : s.pw.block = false) : bootMay s = (s.pw.vinQualified && !s.pw.hold && !s.pw.scan) := by
  simp only [bootMay, hphase, harmed, hblock, beq_self_eq_true, Bool.not_false, Bool.true_and]

/-- Settles O8: the acknowledgement leaves the supply as the clearing of the faults made it. -/
theorem clearPsvFaultEffect : Obligations.ClearPsvFaultEffect := by
  unfold Obligations.ClearPsvFaultEffect
  intro arg s hready hgate
  have hexec := exec_clearPsvFault_of_headReady hready
  rw [bcsClearPsvFault_of_gate ((gateRc_taken ..).trans hgate)] at hexec
  have hpw : (ackHead .sideband 0 (clearFaults (taken s))).pw = (clearFaults s).pw := by
    simp only [ackHead_pw, clearFaults, taken_pw]
  refine ⟨_, hexec, by rw [hpw]; rfl, by rw [hpw]; rfl, by rw [hpw]; rfl, fun hphase harmed => ?_⟩
  rw [bootMay_of_armed ((congrArg Power.phase hpw).trans hphase) ((congrArg Power.startArmed hpw).trans harmed)
    (congrArg Power.block hpw), hpw]
  rfl

/-! ### REQ_MODE -/

theorem exec_reqMode_of_headReady {b : BoxId} {arg : Nat} {s : State} (h : headReady s b 0x010 arg = true) :
    exec (.reqMode b arg) s = .next (bcsReqMode b arg (taken s)) :=
  congrArg Host.Outcome.next (runMsg_masked_of_headReady (bcsReqMode b) h)

theorem bcsReqMode_of_not_service {b : BoxId} {arg : Nat} {s : State}
    (hg : gateRc { op := 0x010, used := 0xF, clamp := some 0 } b arg s = none) (hphase : s.pw.phase ≠ .service) :
    bcsReqMode b arg s = ackHead b 9 s := by
  rw [bcsReqMode, withGate_open _ hg rfl, if_pos (bne_iff_ne.mpr hphase)]
  rfl

theorem bcsReqMode_of_service {b : BoxId} {arg : Nat} {s : State} {p : PState}
    (hg : gateRc { op := 0x010, used := 0xF, clamp := some 0 } b arg s = none) (hphase : s.pw.phase = .service)
    (hp : stateOfCode (arg % 16) = some p) : bcsReqMode b arg s = ackHead b 0 (request p s) := by
  rw [bcsReqMode, withGate_open _ hg rfl, if_neg (by simp [hphase]), hp]
  rfl

theorem wake_requested (s : State) : (wake s).pw.requested = s.pw.requested := by
  unfold wake
  split <;> rfl

@[simp] theorem event_pw (kind : EvKind) (source : Nat) (args : List Nat) (s : State) :
    (event kind source args s).pw = s.pw :=
  event_frame .pw (by decide)

/-- Showing another mode, also one that ends Deep Idle, leaves the request standing (R516, R520). -/
theorem updateMode_requested (s : State) : (updateMode s).pw.requested = s.pw.requested := by
  unfold updateMode
  extract_lets u m old
  have hu : u.pw.requested = s.pw.requested := by
    unfold u
    split
    · exact wake_requested s
    · rfl
  split
  · exact hu
  · rw [event_pw]; exact hu

/-- REQUESTED takes the request at once, whether or not the power state follows it (R520). -/
theorem request_requested (p : PState) (s : State) : (request p s).pw.requested = p := by
  unfold request
  dsimp only
  split
  · rfl
  · rw [updateMode_requested]; exact wake_requested _

/-- Settles O11: the two outcomes of REQ_MODE past its gate. -/
theorem reqModeAnswer : Obligations.ReqModeAnswer := by
  unfold Obligations.ReqModeAnswer
  intro b arg s hready hgate
  have hgate' := (gateRc_taken { op := 0x010, used := 0xF, clamp := some 0 } b arg s).trans hgate
  rw [exec_reqMode_of_headReady hready]
  refine ⟨fun hphase => ?_, fun hphase p hp => ⟨request p (taken s), ?_, request_requested p _⟩⟩
  · rw [bcsReqMode_of_not_service hgate' (by rwa [taken_pw])]
  · rw [bcsReqMode_of_service hgate' (by rwa [taken_pw]) hp]

end Sys2Proof.Machine
end

section
/-! The supervisor in Standby (R497) and in the power-down sequence (R511). -/

namespace Sys2Proof.Machine

/-! ### Entry to Boot -/

theorem bootMay_iff {s : State} (hphase : s.pw.phase = .standby) (hscan : s.pw.scan = false) :
    bootMay s = true ↔
      s.pw.startArmed = true ∧ s.pw.block = false ∧ s.pw.vinQualified = true ∧ s.pw.hold = false := by
  simp only [bootMay, hphase, hscan, Bool.and_eq_true, Bool.not_eq_true', beq_self_eq_true, true_and, and_true, and_assoc]

theorem enterBoot_phase (s : State) : (enterBoot s).pw.phase = .boot :=
  updateMode_frame .phase (by decide)

theorem exec_bootEntry_phase_iff {s : State} (hphase : s.pw.phase = .standby) :
    ∃ t, exec .bootEntry s = .next t ∧ (t.pw.phase = .boot ↔ bootMay s = true) := by
  refine ⟨_, rfl, ?_⟩
  split
  next hmay => simp only [enterBoot_phase, hmay]
  next hmay => simp [hphase, hmay]

/-- Settles O9: Boot is entered exactly where `bootMay` holds. -/
theorem bootCondition : Obligations.BootCondition := by
  unfold Obligations.BootCondition
  intro s hphase hscan
  obtain ⟨t, ht, hboot⟩ := exec_bootEntry_phase_iff hphase
  exact ⟨t, ht, hboot.trans (bootMay_iff hphase hscan)⟩

/-! ### A latched fault and its snapshot -/

theorem testBit_setFlag_same (bit flags : Nat) : (setFlag bit true flags).testBit bit = true := by
  simp only [setFlag, Bool.true_and, beq_iff_eq, Nat.testBit_eq_decide_div_mod_eq, decide_eq_true_eq]
  split
  next h => rw [Nat.add_div_right _ (Nat.two_pow_pos bit)]; omega
  next h => omega

/-- Belvy's copy of the snapshots is the only part of the supply that `copySnaps` changes (R507). -/
theorem copySnaps_pw (s : State) : ∃ kept, (copySnaps s).pw = { s.pw with snapsKept := kept } := by
  unfold copySnaps
  split
  · exact ⟨_, rfl⟩
  · exact ⟨_, rfl⟩

/-- A capture puts one snapshot of the condition in front, and changes no other register of the supply (R507). -/
theorem snap_pw (cond code : Nat) (s : State) : ∃ x kept, x.cond = cond ∧ x.code = code ∧
    (snap cond code s).pw = { s.pw with snaps := (x :: s.pw.snaps).take 16, snapsKept := kept } := by
  unfold snap
  obtain ⟨kept, hpw⟩ := copySnaps_pw _
  exact ⟨_, kept, rfl, rfl, hpw⟩

/-- A fault of class Block or Record is latched with its snapshot, and changes no other register of the supply (R500). -/
theorem faultNow_pw (bit code : Nat) (block : Bool) (s : State) : ∃ x kept, x.cond = bit ∧ x.code = code ∧
    (faultNow bit code block s).pw =
      { (latch bit code block s).pw with snaps := (x :: s.pw.snaps).take 16, snapsKept := kept } := by
  obtain ⟨x, kept, hcond, hcode, hpw⟩ := snap_pw bit code (latch bit code block s)
  exact ⟨x, kept, hcond, hcode, (event_pw ..).trans hpw⟩

/-! ### A rail fault in the power-down sequence -/

theorem exec_railFault_of_not_reached {code : Nat} {s : State} (hlo : 2 ≤ code) (hhi : code ≤ 11)
    (hphase : s.pw.phase = .powerDown) (hrail : code < s.pw.rail) :
    exec (.railFault code) s = .next (faultNow 2 code true (setWin code false s)) := by
  have hcode : (code < 2 || 11 < code) = false := by simp; omega
  change execRailFault code s = _
  simp only [execRailFault, hcode, hphase, if_pos hrail, Bool.false_eq_true, if_false]

/-- Settles O10: the fault is latched over the reading that left its window; neither touches the sequence. -/
theorem railFaultInPowerDown : Obligations.RailFaultInPowerDown := by
  unfold Obligations.RailFaultInPowerDown
  intro code s hlo hhi hphase hrail
  obtain ⟨x, kept, hcond, hcode, hpw⟩ := faultNow_pw 2 code true (setWin code false s)
  have hck : (faultNow 2 code true (setWin code false s)).ck = s.ck := faultNow_frame .ck (by decide)
  refine ⟨_, exec_railFault_of_not_reached hlo hhi hphase hrail, ?_⟩
  rw [hpw, hck]
  exact ⟨hphase, rfl, rfl, rfl, Bool.or_true _, testBit_setFlag_same 2 _, x, hcond, hcode, rfl⟩

end Sys2Proof.Machine
end

section
/-! The junction temperature (R531). It is the library's `List.max?` over the readings of the working diodes, whose
specification gives both cases: some maximum where a diode works, none where every diode is broken. -/

namespace Sys2Proof.Machine

/-- The working diodes, in order (R529). -/
def workingDiodes (s : State) : List Nat := (List.range 8).filter (fun d => !diodeBroken s d)

@[simp] theorem mem_workingDiodes {s : State} {d : Nat} :
    d ∈ workingDiodes s ↔ d < 8 ∧ diodeBroken s d = false := by
  simp [workingDiodes]

theorem workingDiodes_eq_nil_iff {s : State} :
    workingDiodes s = [] ↔ ∀ d, d < 8 → diodeBroken s d = true := by
  simp [List.eq_nil_iff_forall_not_mem]

/-- The readings of the working diodes, in 1/256 °C. -/
def workingReadings (s : State) : List Int := (workingDiodes s).map (fun d => nthD s.thm.diodes d 0)

theorem junction_eq_max?_getD (s : State) : junction s = (workingReadings s).max?.getD (125 * degree) := by
  unfold workingReadings workingDiodes junction
  cases (List.range 8).filter (fun d => !diodeBroken s d) with
  | nil => rfl
  | cons d ds => rw [List.map_cons, List.max?_cons', List.foldl_map, Option.getD_some]

theorem junction_of_none_works {s : State} (h : workingDiodes s = []) : junction s = 125 * degree := by
  rw [junction_eq_max?_getD, workingReadings, h, List.map_nil, List.max?_nil, Option.getD_none]

theorem junction_isMax_of_works {s : State} (h : workingDiodes s ≠ []) :
    junction s ∈ workingReadings s ∧ ∀ r ∈ workingReadings s, r ≤ junction s := by
  have hne : workingReadings s ≠ [] := mt List.map_eq_nil_iff.mp h
  obtain ⟨m, hm⟩ := Option.ne_none_iff_exists'.mp (mt List.max?_eq_none_iff.mp hne)
  rw [junction_eq_max?_getD, hm, Option.getD_some]
  exact List.max?_eq_some_iff.mp hm

/-- Settles O6: a maximum is a member that bounds the readings, and the default stands where there is none. -/
theorem junctionReading : Obligations.JunctionReading := by
  unfold Obligations.JunctionReading
  intro s
  refine ⟨fun ⟨d, hd⟩ => ?_, fun hbroken => junction_of_none_works (workingDiodes_eq_nil_iff.mpr hbroken)⟩
  have hworks : workingDiodes s ≠ [] := List.ne_nil_of_mem (mem_workingDiodes.mpr hd)
  obtain ⟨hmem, hle⟩ := junction_isMax_of_works hworks
  obtain ⟨e, he, hread⟩ := List.mem_map.mp hmem
  obtain ⟨hlt, hok⟩ := mem_workingDiodes.mp he
  exact ⟨⟨e, hlt, hok, hread.symm⟩, fun c hc hcok => hle _ (List.mem_map_of_mem (mem_workingDiodes.mpr ⟨hc, hcok⟩))⟩

end Sys2Proof.Machine
end

section
/-! The usage feed (R550, R552): what a group's turn leaves in service, with room for its packet and without, and the
usage counts, which rest on the ports alone. -/

namespace Sys2Proof.Machine

/-! ### The usage counts -/

/-- The counts of R551 are the ports', so whatever spares both ports keeps them. -/
theorem usedBytes_of_ports {s t : State} (hA : t.portA = s.portA) (hB : t.portB = s.portB) (tenant : Nat) :
    usedBytes t tenant = usedBytes s tenant := by
  simp only [usedBytes, hA, hB]

theorem exec_feedSend_usedBytes {g : Nat} {s t : State} (h : exec (.feedSend g) s = .next t) (tenant : Nat) :
    usedBytes t tenant = usedBytes s tenant :=
  have hframe : OnlyChanges [.mtr] s t := execFeedSend_frame h
  usedBytes_of_ports (hframe .portA (by decide)) (hframe .portB (by decide)) tenant

/-! ### The two outcomes in service -/

/-- A group whose turn has come leaves the set that Flush entry still owes, whatever becomes of its sample (R550). -/
def feedTurn (g : Nat) (s : State) : State := setMeter { s.mtr with flushSet := s.mtr.flushSet.erase g } s

@[simp] theorem feedTurn_feed (g : Nat) (s : State) : (feedTurn g s).mtr.feed = s.mtr.feed := rfl

/-- A packet joins the drawer, and the next one takes the next sequence number (Table 18-2). -/
def feedPut (k : FeedPkt) (s : State) : State :=
  setMeter { s.mtr with feed := s.mtr.feed ++ [k], feedSeq := (s.mtr.feedSeq + 1) % 65536 } s

@[simp] theorem feedPut_feed (k : FeedPkt) (s : State) : (feedPut k s).mtr.feed = s.mtr.feed ++ [k] := rfl

/-- The room and the packet may be read before the turn, which touches nothing that they depend on. -/
theorem exec_feedSend_of_service {g : Nat} {s : State} (hg : g < 8) (hphase : s.pw.phase = .service) :
    exec (.feedSend g) s =
      .next (if feedFree s < 26 then feedTurn g s else feedPut (feedPacket s g) (feedTurn g s)) := by
  change execFeedSend g s = _
  simp only [execFeedSend, Nat.mod_eq_of_lt hg, hphase, beq_self_eq_true, Bool.true_or, if_true]
  rfl

theorem exec_feedSend_of_no_room {g : Nat} {s : State} (hg : g < 8) (hphase : s.pw.phase = .service)
    (hfull : ¬ 26 ≤ feedFree s) : exec (.feedSend g) s = .next (feedTurn g s) := by
  rw [exec_feedSend_of_service hg hphase, if_pos (Nat.not_le.mp hfull)]

theorem exec_feedSend_of_room {g : Nat} {s : State} (hg : g < 8) (hphase : s.pw.phase = .service)
    (hroom : 26 ≤ feedFree s) : exec (.feedSend g) s = .next (feedPut (feedPacket s g) (feedTurn g s)) := by
  rw [exec_feedSend_of_service hg hphase, if_neg (Nat.not_lt.mpr hroom)]

/-- Settles O12: the drawer by the two outcomes, the counts by the frame of the command. -/
theorem feedPacketRoom : Obligations.FeedPacketRoom := by
  unfold Obligations.FeedPacketRoom
  intro g s hg hphase
  by_cases hroom : 26 ≤ feedFree s
  · have hstep := exec_feedSend_of_room hg hphase hroom
    exact ⟨_, hstep, by rw [if_pos hroom, feedPut_feed, feedTurn_feed], exec_feedSend_usedBytes hstep⟩
  · have hstep := exec_feedSend_of_no_room hg hphase hroom
    exact ⟨_, hstep, by rw [if_neg hroom, feedTurn_feed], exec_feedSend_usedBytes hstep⟩

end Sys2Proof.Machine
end

section
/-! One step of the machine: the front command or a tick (O1, O2), and for every command its next state and its frame
(O13), read off the frame lemmas of the meanings. -/

set_option Elab.async false

namespace Sys2Proof.Machine

/-- Settles O1. -/
theorem stepRunsFront : Obligations.StepRunsFront := by
  unfold Obligations.StepRunsFront
  intro c rest s hpending
  simp only [step, hpending]

/-- A tick advances the time first, and what else passes in the cycle leaves the time alone. -/
theorem tick_now (s : State) : (tick s).now = s.now + 1 := by
  have hclock : (tick s).now = (drainWrites (endRefreshes { s with now := s.now + 1 })).now :=
    (clockCounters_frame .now (by decide)).trans <| (returnSgl_frame .now (by decide)).trans <|
      (returnM2s_frame .now (by decide)).trans <| (returnM2s_frame .now (by decide)).trans <|
      (returnCredits_frame .now (by decide)).trans <| (sweepProxy_frame .now (by decide)).trans <|
      passSlots_frame .now (by decide)
  exact hclock.trans ((drainWrites_frame .now (by decide)).trans (endRefreshes_frame .now (by decide)))

/-- Settles O2. -/
theorem stepIdles : Obligations.StepIdles := by
  unfold Obligations.StepIdles
  intro s hpending
  exact ⟨by simp only [step, hpending], tick_now s⟩

/-- Every command answers a next state, which differs from the one met in the listed parts only: the lemma of each
meaning, whose own list is within `mayChange`. -/
theorem exec_frame : ∀ (c : Instr) (s : State), ∃ t, exec c s = .next t ∧ OnlyChanges (mayChange c) s t
  | .registerWrite .., _ => ⟨_, rfl, execRegisterWrite_frame rfl⟩
  | .hostMemRd .., _ => ⟨_, rfl, execHostMemRd_frame rfl⟩
  | .runAheadHint .., _ => ⟨_, rfl, execRunAheadHint_frame rfl⟩
  | .hostMemWr .., _ => ⟨_, rfl, execHostMemWr_frame rfl⟩
  | .leaseProgrammed .., _ => ⟨_, rfl, execLeaseProgrammed_frame rfl⟩
  | .dovetailTimeout .., _ => ⟨_, rfl, execDovetailTimeout_frame rfl⟩
  | .dovetailMerge .., _ => ⟨_, rfl, execDovetailMerge_frame rfl⟩
  | .lookasideResult .., _ => ⟨_, rfl, execLookasideResult_frame rfl⟩
  | .dramCacheTagResult .., _ => ⟨_, rfl, execDramCacheTagResult_frame rfl⟩
  | .lpddr6ReadDone .., _ => ⟨_, rfl, execLpddr6ReadDone_frame rfl⟩
  | .dramWriteback .., _ => ⟨_, rfl, execDramWriteback_frame rfl⟩
  | .mediumReadStart .., _ => ⟨_, rfl, execMediumReadStart_frame rfl⟩
  | .mediumReadDone .., _ => ⟨_, rfl, execMediumReadDone_frame rfl⟩
  | .dmaResume .., _ => ⟨_, rfl, execDmaResume_frame rfl⟩
  | .readTransferred .., _ => ⟨_, rfl, execReadTransferred_frame rfl⟩
  | .slotGrant .., _ => ⟨_, rfl, execSlotGrant_frame rfl⟩
  | .roundStart .., _ => ⟨_, rfl, execRoundStart_frame rfl⟩
  | .rowProgramDone .., _ => ⟨_, rfl, execRowProgramDone_frame rfl⟩
  | .resetDone .., _ => ⟨_, rfl, execResetDone_frame rfl⟩
  | .roundDeadline .., _ => ⟨_, rfl, execRoundDeadline_frame rfl⟩
  | .drainRowReadback .., _ => ⟨_, rfl, execDrainRowReadback_frame rfl⟩
  | .verifyReadDue .., _ => ⟨_, rfl, execVerifyReadDue_frame rfl⟩
  | .foldStep .., _ => ⟨_, rfl, execFoldStep_frame rfl⟩
  | .relocationSwitch .., _ => ⟨_, rfl, execRelocationSwitch_frame rfl⟩
  | .gcStep .., _ => ⟨_, rfl, execGcStep_frame rfl⟩
  | .levelCheck .., _ => ⟨_, rfl, execLevelCheck_frame rfl⟩
  | .rgenAdvance .., _ => ⟨_, rfl, execRgenAdvance_frame rfl⟩
  | .reclaimGrant .., _ => ⟨_, rfl, execReclaimGrant_frame rfl⟩
  | .thermalUpdate .., _ => ⟨_, rfl, execThermalUpdate_frame rfl⟩
  | .levelFall .., _ => ⟨_, rfl, execLevelFall_frame rfl⟩
  | .warnClear .., _ => ⟨_, rfl, execWarnClear_frame rfl⟩
  | .graceExpire .., _ => ⟨_, rfl, execGraceExpire_frame rfl⟩
  | .standbyModelTick .., _ => ⟨_, rfl, execStandbyModelTick_frame rfl⟩
  | .edSave .., _ => ⟨_, rfl, execEdSave_frame rfl⟩
  | .stripeAgePad .., _ => ⟨_, rfl, execStripeAgePad_frame rfl⟩
  | .driftSweep .., _ => ⟨_, rfl, execDriftSweep_frame rfl⟩
  | .ageSurvey .., _ => ⟨_, rfl, execAgeSurvey_frame rfl⟩
  | .refreshLevelTimer .., _ => ⟨_, rfl, execRefreshLevelTimer_frame rfl⟩
  | .refreshStep .., _ => ⟨_, rfl, execRefreshStep_frame rfl⟩
  | .patrolScrub .., _ => ⟨_, rfl, execPatrolScrub_frame rfl⟩
  | .dramPatrol .., _ => ⟨_, rfl, execDramPatrol_frame rfl⟩
  | .sramPatrol .., _ => ⟨_, rfl, execSramPatrol_frame rfl⟩
  | .mpTrap .., _ => ⟨_, rfl, execMpTrap_frame rfl⟩
  | .responseDeadlineMiss .., _ => ⟨_, rfl, execResponseDeadlineMiss_frame rfl⟩
  | .faultRelease .., _ => ⟨_, rfl, execFaultRelease_frame rfl⟩
  | .rebuildStep .., _ => ⟨_, rfl, execRebuildStep_frame rfl⟩
  | .remirrorStep .., _ => ⟨_, rfl, execRemirrorStep_frame rfl⟩
  | .holdupMeasure .., _ => ⟨_, rfl, execHoldupMeasure_frame rfl⟩
  | .holdupResult .., _ => ⟨_, rfl, execHoldupResult_frame rfl⟩
  | .chargerTimeout .., _ => ⟨_, rfl, execChargerTimeout_frame rfl⟩
  | .budgetUpdate .., _ => ⟨_, rfl, execBudgetUpdate_frame rfl⟩
  | .epochTimer .., _ => ⟨_, rfl, execEpochTimer_frame rfl⟩
  | .epochStage .., _ => ⟨_, rfl, execEpochStage_frame rfl⟩
  | .epochCommit .., _ => ⟨_, rfl, execEpochCommit_frame rfl⟩
  | .epcClose .., _ => ⟨_, rfl, execEpcClose_frame rfl⟩
  | .checkpointSegmentWrite .., _ => ⟨_, rfl, execCheckpointSegmentWrite_frame rfl⟩
  | .checkpointRootWrite .., _ => ⟨_, rfl, execCheckpointRootWrite_frame rfl⟩
  | .flushEntry .., _ => ⟨_, rfl, execFlushEntry_frame rfl⟩
  | .flushDone .., _ => ⟨_, rfl, execFlushDone_frame rfl⟩
  | .replayStart .., _ => ⟨_, rfl, execReplayStart_frame rfl⟩
  | .replayDone .., _ => ⟨_, rfl, execReplayDone_frame rfl⟩
  | .evictionDone .., _ => ⟨_, rfl, execEvictionDone_frame rfl⟩
  | .mshrFill .., _ => ⟨_, rfl, execMshrFill_frame rfl⟩
  | .maintClean .., _ => ⟨_, rfl, execMaintClean_frame rfl⟩
  | .maintInval .., _ => ⟨_, rfl, execMaintInval_frame rfl⟩
  | .maintFlush .., _ => ⟨_, rfl, execMaintFlush_frame rfl⟩
  | .maintDone .., _ => ⟨_, rfl, execMaintDone_frame rfl⟩
  | .sccCommit .., _ => ⟨_, rfl, execSccCommit_frame rfl⟩
  | .wayPowerOffDone .., _ => ⟨_, rfl, execWayPowerOffDone_frame rfl⟩
  | .cacheOffDone .., _ => ⟨_, rfl, execCacheOffDone_frame rfl⟩
  | .bankRefreshDue .., _ => ⟨_, rfl, execBankRefreshDue_frame rfl⟩
  | .bankRefreshStart .., _ => ⟨_, rfl, execBankRefreshStart_frame rfl⟩
  | .dqsTrack .., _ => ⟨_, rfl, execDqsTrack_frame rfl⟩
  | .channelRetrain .., _ => ⟨_, rfl, execChannelRetrain_frame rfl⟩
  | .rankPowerDown .., _ => ⟨_, rfl, execRankPowerDown_frame rfl⟩
  | .rdS .., _ => ⟨_, rfl, execRdS_frame rfl⟩
  | .rdX .., _ => ⟨_, rfl, execRdX_frame rfl⟩
  | .rdC .., _ => ⟨_, rfl, execRdC_frame rfl⟩
  | .upg .., _ => ⟨_, rfl, execUpg_frame rfl⟩
  | .evc _ txid _, _ => ⟨_, rfl, execEvc_frame (a1 := txid) rfl⟩
  | .wrT .., _ => ⟨_, rfl, execWrT_frame rfl⟩
  | .evX .., _ => ⟨_, rfl, execEvX_frame rfl⟩
  | .snpS .., _ => ⟨_, rfl, execSnpS_frame rfl⟩
  | .snpX .., _ => ⟨_, rfl, execSnpX_frame rfl⟩
  | .snpC .., _ => ⟨_, rfl, execSnpC_frame rfl⟩
  | .snpI .., _ => ⟨_, rfl, execSnpI_frame rfl⟩
  | .holdWindowExpire .., _ => ⟨_, rfl, execHoldWindowExpire_frame rfl⟩
  | .hostRecallDone .., _ => ⟨_, rfl, execHostRecallDone_frame rfl⟩
  | .rspI _ txid _, _ => ⟨_, rfl, execRspI_frame (a1 := txid) rfl⟩
  | .rspS _ txid _, _ => ⟨_, rfl, execRspS_frame (a1 := txid) rfl⟩
  | .rspFwd _ txid _, _ => ⟨_, rfl, execRspFwd_frame (a1 := txid) rfl⟩
  | .rspWb _ txid _ _, _ => ⟨_, rfl, execRspWb_frame (a1 := txid) rfl⟩
  | .rtyH _ _ _ rsn, _ => ⟨_, rfl, execRtyH_frame (a3 := rsn) rfl⟩
  | .retryBackoffExpire .., _ => ⟨_, rfl, execRetryBackoffExpire_frame rfl⟩
  | .wayHoldExpire .., _ => ⟨_, rfl, execWayHoldExpire_frame rfl⟩
  | .cmp .., _ => ⟨_, rfl, execCmp_frame rfl⟩
  | .cmpX .., _ => ⟨_, rfl, execCmpX_frame rfl⟩
  | .datS .., _ => ⟨_, rfl, execDatS_frame rfl⟩
  | .datX .., _ => ⟨_, rfl, execDatX_frame rfl⟩
  | .datC .., _ => ⟨_, rfl, execDatC_frame rfl⟩
  | .snoopTimeout .., _ => ⟨_, rfl, execSnoopTimeout_frame rfl⟩
  | .fencedAnswer .., _ => ⟨_, rfl, execFencedAnswer_frame rfl⟩
  | .suspectExpire .., _ => ⟨_, rfl, execSuspectExpire_frame rfl⟩
  | .proxyTimeout .., _ => ⟨_, rfl, execProxyTimeout_frame rfl⟩
  | .biRsp .., _ => ⟨_, rfl, execBiRsp_frame rfl⟩
  | .biTimeout .., _ => ⟨_, rfl, execBiTimeout_frame rfl⟩
  | .biConflict _ node dla _, _ => ⟨_, rfl, execBiConflict_frame (a1 := node) (a2 := dla) rfl⟩
  | .fecBlockReceive .., _ => ⟨_, rfl, execFecBlockReceive_frame rfl⟩
  | .controlFlit .., _ => ⟨_, rfl, execControlFlit_frame rfl⟩
  | .nakRepeat .., _ => ⟨_, rfl, execNakRepeat_frame rfl⟩
  | .ackTimeout .., _ => ⟨_, rfl, execAckTimeout_frame rfl⟩
  | .controlFlitDue .., _ => ⟨_, rfl, execControlFlitDue_frame rfl⟩
  | .blockDecodeTimeout .., _ => ⟨_, rfl, execBlockDecodeTimeout_frame rfl⟩
  | .rekey .., _ => ⟨_, rfl, execRekey_frame rfl⟩
  | .keySwitchApply .., _ => ⟨_, rfl, execKeySwitchApply_frame rfl⟩
  | .linkTrain .., _ => ⟨_, rfl, execLinkTrain_frame rfl⟩
  | .refusedRetry .., _ => ⟨_, rfl, execRefusedRetry_frame rfl⟩
  | .messageForward .., _ => ⟨_, rfl, execMessageForward_frame rfl⟩
  | .fragmentTimeout .., _ => ⟨_, rfl, execFragmentTimeout_frame rfl⟩
  | .lsa .., _ => ⟨_, rfl, execLsa_frame rfl⟩
  | .routeInstall .., _ => ⟨_, rfl, execRouteInstall_frame rfl⟩
  | .duplicateExpire .., _ => ⟨_, rfl, execDuplicateExpire_frame rfl⟩
  | .ready .., _ => ⟨_, rfl, execReady_frame rfl⟩
  | .gatherWindowExpire .., _ => ⟨_, rfl, execGatherWindowExpire_frame rfl⟩
  | .member .., _ => ⟨_, rfl, execMember_frame rfl⟩
  | .holdLimitExpire .., _ => ⟨_, rfl, execHoldLimitExpire_frame rfl⟩
  | .join .., _ => ⟨_, rfl, execJoin_frame rfl⟩
  | .dead _ cause, _ => ⟨_, rfl, execDead_frame (a1 := cause) rfl⟩
  | .memberUnreachable .., _ => ⟨_, rfl, execMemberUnreachable_frame rfl⟩
  | .salvage .., _ => ⟨_, rfl, execSalvage_frame rfl⟩
  | .pflush .., _ => ⟨_, rfl, execPflush_frame rfl⟩
  | .mpMsg .., _ => ⟨_, rfl, execMpMsg_frame rfl⟩
  | .perstAssert .., _ => ⟨_, rfl, execPerstAssert_frame rfl⟩
  | .hostLinkLoss .., _ => ⟨_, rfl, execHostLinkLoss_frame rfl⟩
  | .hostLaneFault .., _ => ⟨_, rfl, execHostLaneFault_frame rfl⟩
  | .hostLinkTrain .., _ => ⟨_, rfl, execHostLinkTrain_frame rfl⟩
  | .gpfPhase1 .., _ => ⟨_, rfl, execGpfPhase1_frame rfl⟩
  | .gpfPhase2 .., _ => ⟨_, rfl, execGpfPhase2_frame rfl⟩
  | .clampRead .., _ => ⟨_, rfl, execClampRead_frame rfl⟩
  | .clampRelease .., _ => ⟨_, rfl, execClampRelease_frame rfl⟩
  | .clampForce .., _ => ⟨_, rfl, execClampForce_frame rfl⟩
  | .cxlIdentify .., _ => ⟨_, rfl, execCxlIdentify_frame rfl⟩
  | .cxlBackgroundStatus .., _ => ⟨_, rfl, execCxlBackgroundStatus_frame rfl⟩
  | .cxlGetEventRecords .., _ => ⟨_, rfl, execCxlGetEventRecords_frame rfl⟩
  | .cxlClearEventRecords .., _ => ⟨_, rfl, execCxlClearEventRecords_frame rfl⟩
  | .cxlGetEventIntPolicy .., _ => ⟨_, rfl, execCxlGetEventIntPolicy_frame rfl⟩
  | .cxlSetEventIntPolicy .., _ => ⟨_, rfl, execCxlSetEventIntPolicy_frame rfl⟩
  | .cxlGetFwInfo .., _ => ⟨_, rfl, execCxlGetFwInfo_frame rfl⟩
  | .cxlTransferFw .., _ => ⟨_, rfl, execCxlTransferFw_frame rfl⟩
  | .cxlActivateFw .., _ => ⟨_, rfl, execCxlActivateFw_frame rfl⟩
  | .cxlGetTimestamp .., _ => ⟨_, rfl, execCxlGetTimestamp_frame rfl⟩
  | .cxlSetTimestamp .., _ => ⟨_, rfl, execCxlSetTimestamp_frame rfl⟩
  | .cxlGetSupportedLogs .., _ => ⟨_, rfl, execCxlGetSupportedLogs_frame rfl⟩
  | .cxlGetLog .., _ => ⟨_, rfl, execCxlGetLog_frame rfl⟩
  | .cxlIdentifyMemoryDevice .., _ => ⟨_, rfl, execCxlIdentifyMemoryDevice_frame rfl⟩
  | .cxlGetPartitionInfo .., _ => ⟨_, rfl, execCxlGetPartitionInfo_frame rfl⟩
  | .cxlGetLsa .., _ => ⟨_, rfl, execCxlGetLsa_frame rfl⟩
  | .cxlSetLsa .., _ => ⟨_, rfl, execCxlSetLsa_frame rfl⟩
  | .cxlGetHealthInfo .., _ => ⟨_, rfl, execCxlGetHealthInfo_frame rfl⟩
  | .cxlGetAlertConfig .., _ => ⟨_, rfl, execCxlGetAlertConfig_frame rfl⟩
  | .cxlSetAlertConfig .., _ => ⟨_, rfl, execCxlSetAlertConfig_frame rfl⟩
  | .cxlGetShutdownState .., _ => ⟨_, rfl, execCxlGetShutdownState_frame rfl⟩
  | .cxlSetShutdownState .., _ => ⟨_, rfl, execCxlSetShutdownState_frame rfl⟩
  | .cxlGetPoisonList .., _ => ⟨_, rfl, execCxlGetPoisonList_frame rfl⟩
  | .cxlInjectPoison .., _ => ⟨_, rfl, execCxlInjectPoison_frame rfl⟩
  | .cxlClearPoison .., _ => ⟨_, rfl, execCxlClearPoison_frame rfl⟩
  | .cxlScanMediaCaps .., _ => ⟨_, rfl, execCxlScanMediaCaps_frame rfl⟩
  | .cxlScanMedia .., _ => ⟨_, rfl, execCxlScanMedia_frame rfl⟩
  | .cxlScanMediaResults .., _ => ⟨_, rfl, execCxlScanMediaResults_frame rfl⟩
  | .cxlSanitize .., _ => ⟨_, rfl, execCxlSanitize_frame rfl⟩
  | .cxlSecureErase .., _ => ⟨_, rfl, execCxlSecureErase_frame rfl⟩
  | .reencStep .., _ => ⟨_, rfl, execReencStep_frame rfl⟩
  | .reencDone .., _ => ⟨_, rfl, execReencDone_frame rfl⟩
  | .reencQueueStart .., _ => ⟨_, rfl, execReencQueueStart_frame rfl⟩
  | .keyInstall .., _ => ⟨_, rfl, execKeyInstall_frame rfl⟩
  | .keyQuery .., _ => ⟨_, rfl, execKeyQuery_frame rfl⟩
  | .keyRetire .., _ => ⟨_, rfl, execKeyRetire_frame rfl⟩
  | .keyRekey .., _ => ⟨_, rfl, execKeyRekey_frame rfl⟩
  | .keyRetireDone .., _ => ⟨_, rfl, execKeyRetireDone_frame rfl⟩
  | .trustAdd .., _ => ⟨_, rfl, execTrustAdd_frame rfl⟩
  | .trustRemove .., _ => ⟨_, rfl, execTrustRemove_frame rfl⟩
  | .ideIntegrityFailure .., _ => ⟨_, rfl, execIdeIntegrityFailure_frame rfl⟩
  | .ideKeyRefresh .., _ => ⟨_, rfl, execIdeKeyRefresh_frame rfl⟩
  | .ideKeyExpire .., _ => ⟨_, rfl, execIdeKeyExpire_frame rfl⟩
  | .sanitizeDone .., _ => ⟨_, rfl, execSanitizeDone_frame rfl⟩
  | .mbxPost .., _ => ⟨_, rfl, execMbxPost_frame rfl⟩
  | .messageTake .., _ => ⟨_, rfl, execMessageTake_frame rfl⟩
  | .acknowledge .., _ => ⟨_, rfl, execAcknowledge_frame rfl⟩
  | .outboxPost .., _ => ⟨_, rfl, execOutboxPost_frame rfl⟩
  | .outboxFree .., _ => ⟨_, rfl, execOutboxFree_frame rfl⟩
  | .drawerOpen .., _ => ⟨_, rfl, execDrawerOpen_frame rfl⟩
  | .drawerClose .., _ => ⟨_, rfl, execDrawerClose_frame rfl⟩
  | .drawerPop .., _ => ⟨_, rfl, execDrawerPop_frame rfl⟩
  | .drawerWrite .., _ => ⟨_, rfl, execDrawerWrite_frame rfl⟩
  | .nop .., _ => ⟨_, rfl, execNop_frame rfl⟩
  | .identify .., _ => ⟨_, rfl, execIdentify_frame rfl⟩
  | .getMode .., _ => ⟨_, rfl, execGetMode_frame rfl⟩
  | .reqMode .., _ => ⟨_, rfl, execReqMode_frame rfl⟩
  | .shutdown .., _ => ⟨_, rfl, execShutdown_frame rfl⟩
  | .winStage .., _ => ⟨_, rfl, execWinStage_frame rfl⟩
  | .winRemove .., _ => ⟨_, rfl, execWinRemove_frame rfl⟩
  | .winCommit .., _ => ⟨_, rfl, execWinCommit_frame rfl⟩
  | .winQuery .., _ => ⟨_, rfl, execWinQuery_frame rfl⟩
  | .setAperture .., _ => ⟨_, rfl, execSetAperture_frame rfl⟩
  | .closeEpoch .., _ => ⟨_, rfl, execCloseEpoch_frame rfl⟩
  | .setEpochTimer .., _ => ⟨_, rfl, execSetEpochTimer_frame rfl⟩
  | .measureHoldup .., _ => ⟨_, rfl, execMeasureHoldup_frame rfl⟩
  | .getLoss .., _ => ⟨_, rfl, execGetLoss_frame rfl⟩
  | .mediaHealth .., _ => ⟨_, rfl, execMediaHealth_frame rfl⟩
  | .setLevelSpread .., _ => ⟨_, rfl, execSetLevelSpread_frame rfl⟩
  | .readReftable .., _ => ⟨_, rfl, execReadReftable_frame rfl⟩
  | .format .., _ => ⟨_, rfl, execFormat_frame rfl⟩
  | .formatDone .., _ => ⟨_, rfl, execFormatDone_frame rfl⟩
  | .sanitize .., _ => ⟨_, rfl, execSanitize_frame rfl⟩
  | .scanMedia .., _ => ⟨_, rfl, execScanMedia_frame rfl⟩
  | .setSlots .., _ => ⟨_, rfl, execSetSlots_frame rfl⟩
  | .setPdTimer .., _ => ⟨_, rfl, execSetPdTimer_frame rfl⟩
  | .setDramRate .., _ => ⟨_, rfl, execSetDramRate_frame rfl⟩
  | .setThermal .., _ => ⟨_, rfl, execSetThermal_frame rfl⟩
  | .setSupervisor .., _ => ⟨_, rfl, execSetSupervisor_frame rfl⟩
  | .clearPsvFault .., _ => ⟨_, rfl, execClearPsvFault_frame rfl⟩
  | .setNode .., _ => ⟨_, rfl, execSetNode_frame rfl⟩
  | .setPool .., _ => ⟨_, rfl, execSetPool_frame rfl⟩
  | .setTopology .., _ => ⟨_, rfl, execSetTopology_frame rfl⟩
  | .setRoster .., _ => ⟨_, rfl, execSetRoster_frame rfl⟩
  | .setHoldNs .., _ => ⟨_, rfl, execSetHoldNs_frame rfl⟩
  | .setRemoteCache .., _ => ⟨_, rfl, execSetRemoteCache_frame rfl⟩
  | .setGather .., _ => ⟨_, rfl, execSetGather_frame rfl⟩
  | .setHoldLimit .., _ => ⟨_, rfl, execSetHoldLimit_frame rfl⟩
  | .poolStatus .., _ => ⟨_, rfl, execPoolStatus_frame rfl⟩
  | .mpForward .., _ => ⟨_, rfl, execMpForward_frame rfl⟩
  | .evrFreeze .., _ => ⟨_, rfl, execEvrFreeze_frame rfl⟩
  | .pmcConfig .., _ => ⟨_, rfl, execPmcConfig_frame rfl⟩
  | .trbConfig .., _ => ⟨_, rfl, execTrbConfig_frame rfl⟩
  | .fwBegin .., _ => ⟨_, rfl, execFwBegin_frame rfl⟩
  | .fwData .., _ => ⟨_, rfl, execFwData_frame rfl⟩
  | .fwEnd .., _ => ⟨_, rfl, execFwEnd_frame rfl⟩
  | .fwCheckDone .., _ => ⟨_, rfl, execFwCheckDone_frame rfl⟩
  | .fwActivate .., _ => ⟨_, rfl, execFwActivate_frame rfl⟩
  | .fwInfo .., _ => ⟨_, rfl, execFwInfo_frame rfl⟩
  | .meterRecord .., _ => ⟨_, rfl, execMeterRecord_frame rfl⟩
  | .meterTenant .., _ => ⟨_, rfl, execMeterTenant_frame rfl⟩
  | .meterId .., _ => ⟨_, rfl, execMeterId_frame rfl⟩
  | .meterKey .., _ => ⟨_, rfl, execMeterKey_frame rfl⟩
  | .meterAudit .., _ => ⟨_, rfl, execMeterAudit_frame rfl⟩
  | .meterNote .., _ => ⟨_, rfl, execMeterNote_frame rfl⟩
  | .prepareReturn .., _ => ⟨_, rfl, execPrepareReturn_frame rfl⟩
  | .diagSnapshot .., _ => ⟨_, rfl, execDiagSnapshot_frame rfl⟩
  | .vauxApply .., _ => ⟨_, rfl, execVauxApply_frame rfl⟩
  | .vauxLoss .., _ => ⟨_, rfl, execVauxLoss_frame rfl⟩
  | .vinDrop .., _ => ⟨_, rfl, execVinDrop_frame rfl⟩
  | .vinReturn .., _ => ⟨_, rfl, execVinReturn_frame rfl⟩
  | .vinUnderVoltage .., _ => ⟨_, rfl, execVinUnderVoltage_frame rfl⟩
  | .vinOverVoltage .., _ => ⟨_, rfl, execVinOverVoltage_frame rfl⟩
  | .railFault .., _ => ⟨_, rfl, execRailFault_frame rfl⟩
  | .vaoFault .., _ => ⟨_, rfl, execVaoFault_frame rfl⟩
  | .vholdWindow .., _ => ⟨_, rfl, execVholdWindow_frame rfl⟩
  | .holdShort .., _ => ⟨_, rfl, execHoldShort_frame rfl⟩
  | .psvStart .., _ => ⟨_, rfl, execPsvStart_frame rfl⟩
  | .bootEntry .., _ => ⟨_, rfl, execBootEntry_frame rfl⟩
  | .bootStep .., _ => ⟨_, rfl, execBootStep_frame rfl⟩
  | .railStartTimeout .., _ => ⟨_, rfl, execRailStartTimeout_frame rfl⟩
  | .powerdownStep .., _ => ⟨_, rfl, execPowerdownStep_frame rfl⟩
  | .powerdownStepTimeout .., _ => ⟨_, rfl, execPowerdownStepTimeout_frame rfl⟩
  | .fallbackTimeout .., _ => ⟨_, rfl, execFallbackTimeout_frame rfl⟩
  | .powerdownEnd .., _ => ⟨_, rfl, execPowerdownEnd_frame rfl⟩
  | .standbyHoldExpire .., _ => ⟨_, rfl, execStandbyHoldExpire_frame rfl⟩
  | .refclkLoss .., _ => ⟨_, rfl, execRefclkLoss_frame rfl⟩
  | .refclkReturn .., _ => ⟨_, rfl, execRefclkReturn_frame rfl⟩
  | .xtalFail .., _ => ⟨_, rfl, execXtalFail_frame rfl⟩
  | .deepIdleEntry .., _ => ⟨_, rfl, execDeepIdleEntry_frame rfl⟩
  | .deepIdleWake .., _ => ⟨_, rfl, execDeepIdleWake_frame rfl⟩
  | .meterSample .., _ => ⟨_, rfl, execMeterSample_frame rfl⟩
  | .intervalClose .., _ => ⟨_, rfl, execIntervalClose_frame rfl⟩
  | .meterRestart .., _ => ⟨_, rfl, execMeterRestart_frame rfl⟩
  | .feedSend .., _ => ⟨_, rfl, execFeedSend_frame rfl⟩
  | .feedReceive .., _ => ⟨_, rfl, execFeedReceive_frame rfl⟩
  | .feedGap .., _ => ⟨_, rfl, execFeedGap_frame rfl⟩
  | .meterRelayAnswer .., _ => ⟨_, rfl, execMeterRelayAnswer_frame rfl⟩
  | .meterReadId .., _ => ⟨_, rfl, execMeterReadId_frame rfl⟩
  | .meterSetLength .., _ => ⟨_, rfl, execMeterSetLength_frame rfl⟩
  | .meterFwLoad .., _ => ⟨_, rfl, execMeterFwLoad_frame rfl⟩
  | .meterFwActivate .., _ => ⟨_, rfl, execMeterFwActivate_frame rfl⟩
  | .sealChange .., _ => ⟨_, rfl, execSealChange_frame rfl⟩
  | .pstProgram .., _ => ⟨_, rfl, execPstProgram_frame rfl⟩
  | .pstWriteDone .., _ => ⟨_, rfl, execPstWriteDone_frame rfl⟩
  | .pstRead .., _ => ⟨_, rfl, execPstRead_frame rfl⟩
  | .pstWdataWrite .., _ => ⟨_, rfl, execPstWdataWrite_frame rfl⟩
  | .opMinuteTick .., _ => ⟨_, rfl, execOpMinuteTick_frame rfl⟩
  | .eventQueueDrain .., _ => ⟨_, rfl, execEventQueueDrain_frame rfl⟩
  | .freezeExpire .., _ => ⟨_, rfl, execFreezeExpire_frame rfl⟩
  | .evrSnapshot .., _ => ⟨_, rfl, execEvrSnapshot_frame rfl⟩
  | .evrAdvance .., _ => ⟨_, rfl, execEvrAdvance_frame rfl⟩
  | .pmcFreeze .., _ => ⟨_, rfl, execPmcFreeze_frame rfl⟩
  | .trbSnapshot .., _ => ⟨_, rfl, execTrbSnapshot_frame rfl⟩
  | .trbAdvance .., _ => ⟨_, rfl, execTrbAdvance_frame rfl⟩
  | .extest .., _ => ⟨_, rfl, execExtest_frame rfl⟩
  | .samplePreload .., _ => ⟨_, rfl, execSamplePreload_frame rfl⟩
  | .idcode .., _ => ⟨_, rfl, execIdcode_frame rfl⟩
  | .tapClamp .., _ => ⟨_, rfl, execTapClamp_frame rfl⟩
  | .highz .., _ => ⟨_, rfl, execHighz_frame rfl⟩
  | .extestPulse .., _ => ⟨_, rfl, execExtestPulse_frame rfl⟩
  | .extestTrain .., _ => ⟨_, rfl, execExtestTrain_frame rfl⟩
  | .bypass .., _ => ⟨_, rfl, execBypass_frame rfl⟩
  | .privateInstruction .., _ => ⟨_, rfl, execPrivateInstruction_frame rfl⟩
  | .trstAssert .., _ => ⟨_, rfl, execTrstAssert_frame rfl⟩
  | .returnUnlock .., _ => ⟨_, rfl, execReturnUnlock_frame rfl⟩
  | .blockLockLoss .., _ => ⟨_, rfl, execBlockLockLoss_frame rfl⟩
  | .dieInternalFault .., _ => ⟨_, rfl, execDieInternalFault_frame rfl⟩
  | .mpRestartDone .., _ => ⟨_, rfl, execMpRestartDone_frame rfl⟩
  | .sidebandBusReset .., _ => ⟨_, rfl, execSidebandBusReset_frame rfl⟩
  | .holdupDailyMeasurement .., _ => ⟨_, rfl, execHoldupDailyMeasurement_frame rfl⟩
  | .pflushReply _ _ epoch, _ => ⟨_, rfl, execPflushReply_frame (a2 := epoch) rfl⟩
  | .securedSpdmSession .., _ => ⟨_, rfl, execSecuredSpdmSession_frame rfl⟩

/-- Settles O13. -/
theorem commandFrames : Obligations.CommandFrames := by
  unfold Obligations.CommandFrames
  exact exec_frame

end Sys2Proof.Machine
end

section
/-! The clamps (O3, O4). Reset has sixteen free ones; a command whose frame spares them keeps them by `exec_frame`, and
each of the others writes them through the operations of Laws/Clamps, one lemma a meaning. -/

set_option Elab.async false

namespace Sys2Proof.Machine

/-- Settles O3. -/
theorem resetClamps : Obligations.ResetClamps := by
  unfold Obligations.ResetClamps ClampsOk
  decide

/-! ### Host ports and clamp registers -/

theorem ClampsOk.noRight {s : State} (h : ClampsOk s) (snd : Sender) (write : Bool) (off : Nat) :
    ClampsOk (noRight snd write off s) := h.frame noRight_frame

theorem ClampsOk.ite {c : Prop} [Decidable c] {s t : State} (hs : ClampsOk s) (ht : ClampsOk t) :
    ClampsOk (if c then s else t) := by
  split
  · exact hs
  · exact ht

theorem ClampsOk.execPerstAssert {s t : State} (h : ClampsOk s) {p : Port} (ht : execPerstAssert p s = .next t) :
    ClampsOk t := by
  cases ht
  exact ((h.portDown p).frame State.setPort_frame).frame event_frame

theorem ClampsOk.execHostLinkLoss {s t : State} (h : ClampsOk s) {p : Port} (ht : execHostLinkLoss p s = .next t) :
    ClampsOk t := by
  cases ht
  exact h.linkLost p

theorem ClampsOk.noteNarrow {s : State} (h : ClampsOk s) (p : Port) (old : Nat) (x : HostPort) :
    ClampsOk (noteNarrow p old (s.setPort p x)) := (h.frame State.setPort_frame).frame noteNarrow_frame

theorem ClampsOk.execHostLaneFault {s t : State} (h : ClampsOk s) {p : Port} {lane : Nat}
    (ht : execHostLaneFault p lane s = .next t) : ClampsOk t := by
  cases ht
  refine h.ite ?_
  split
  · exact h.linkLost p
  · exact (h.noteNarrow ..).frame beginFault_frame

theorem ClampsOk.execHostLinkTrain {s t : State} (h : ClampsOk s) {p : Port} {lanes rate : Nat} {loflit : Bool}
    (ht : execHostLinkTrain p lanes rate loflit s = .next t) : ClampsOk t := by
  cases ht
  refine h.ite ?_
  split
  · exact h.linkLost p
  · exact h.noteNarrow ..

theorem ClampsOk.execIdeIntegrityFailure {s t : State} (h : ClampsOk s) {p : Port}
    (ht : execIdeIntegrityFailure p s = .next t) : ClampsOk t := by
  cases ht
  have halarm : ClampsOk (alarm 2 (event .ideIntegrity 10 [p.ix] (s.setPort p { s.port p with insecure := true }))) :=
    ((h.frame State.setPort_frame).frame event_frame).frame alarm_frame
  exact h.ite ((halarm.portDown p).ite (halarm.linkLost p))

theorem ClampsOk.execClampRead {s t : State} (h : ClampsOk s) {n : Nat} {readers : List Sender} {upper : Bool}
    (ht : execClampRead n readers upper s = .next t) : ClampsOk t := by
  cases ht
  refine ClampsOk.ite ?_ ?_
  · exact h.of_clamps (congrArg Boxes.clamps (foldl_emit_mb _ _ _))
  · exact (h.acquire n readers).of_clamps (congrArg Boxes.clamps (foldl_emit_mb _ _ _))

theorem ClampsOk.execClampRelease {s t : State} (h : ClampsOk s) {snd : Sender} {n : Nat}
    (ht : execClampRelease snd n s = .next t) : ClampsOk t := by
  cases ht
  exact (h.releaseClamp n false).ite (h.noRight ..)

theorem ClampsOk.execClampForce {s t : State} (h : ClampsOk s) {snd : Sender} {n : Nat}
    (ht : execClampForce snd n s = .next t) : ClampsOk t := by
  cases ht
  exact (h.ite (h.releaseClamp n true)).ite (h.noRight ..)

/-! ### Register accesses -/

theorem ClampsOk.clpWrite {s : State} (h : ClampsOk s) (snd : Sender) (base : Nat) (v : Word) :
    ClampsOk (clpWrite snd base v s) := by
  unfold Machine.clpWrite
  have hrel : ∀ n, ClampsOk (after (Machine.execClampRelease snd n s) s) := fun n => h.execClampRelease rfl
  exact (((hrel _).ite h).execClampForce rfl |>.ite ((hrel _).ite h)).ite h

theorem ClampsOk.regWrite {s : State} (h : ClampsOk s) (snd : Sender) (base : Nat) (m v : Word) :
    ClampsOk (regWrite snd base m v s) := by
  unfold Machine.regWrite
  split
  · exact h.frame (withBox_frame (by decide) (fun _ _ => mbxWrite_frame) (OnlyChanges.refl [.mb] s))
  · exact h.clpWrite snd base v
  · exact h.frame winWrite_frame
  · exact h.frame epcWrite_frame
  · exact h.frame sccWrite_frame
  · exact h.frame secWrite_frame
  · exact (h.frame (execPsvStart_frame rfl)).ite h
  · exact h.frame evrWrite_frame
  · exact h.frame pmcWrite_frame
  · exact (h.frame setTrbCursor_frame).ite h
  · exact h.frame pstWrite_frame
  · exact h.frame sglWrite_frame
  · exact h.frame medWrite_frame
  · exact h

theorem ClampsOk.clpRead {s : State} (h : ClampsOk s) (snd : Sender) (base : Nat) (upper : Bool) :
    ClampsOk (clpRead snd base upper s).2 := by
  unfold Machine.clpRead
  extract_lets n u
  have hu : ClampsOk u := h.ite (h.acquire n [snd])
  clear_value n u
  split
  · exact hu
  · split
    · exact h
    · exact h

theorem ClampsOk.regRead {s : State} (h : ClampsOk s) (snd : Sender) (base : Nat) (upper : Bool) :
    ClampsOk (regRead snd base upper s).2 := by
  unfold Machine.regRead
  split
  case h_3 => exact h.clpRead snd base upper
  case h_7 => exact h.frame secReg_frame
  case h_10 => exact h.frame evrRead_frame
  case h_11 => exact h.frame pmcReg_frame
  case h_12 => exact h.frame trbRead_frame
  case h_14 => exact h.frame pstReadReg_frame
  all_goals exact h

theorem ClampsOk.execRegisterWrite {s t : State} (h : ClampsOk s) {snd : Sender} {off width : Nat} {op : RegOp}
    (ht : execRegisterWrite snd off width op s = .next t) : ClampsOk t := by
  cases ht
  refine h.ite ?_
  dsimp only
  split
  · exact ((h.noRight ..).frame emit_frame).ite ((h.frame emit_frame).ite ((h.regRead ..).frame emit_frame))
  · exact (h.noRight ..).ite (h.ite ((h.regWrite ..).frame sameCycle_frame))

/-! ### Messages to Belvy -/

theorem ClampsOk.fwSwitch {s : State} (h : ClampsOk s) (slot : Nat) (online : Bool) : ClampsOk (fwSwitch slot online s) := by
  unfold Machine.fwSwitch
  split
  · exact ClampsOk.stopMp (h.of_clamps rfl)
  · exact h.of_clamps rfl

theorem ClampsOk.bcsFwActivate {s : State} (h : ClampsOk s) (b : BoxId) (arg : Nat) : ClampsOk (bcsFwActivate b arg s) := by
  unfold Machine.bcsFwActivate Machine.withGate
  split
  · exact h.frame ackHead_frame
  · dsimp only
    split
    · exact h.frame ackHead_frame
    · split
      · exact (h.fwSwitch ..).frame ackHead_frame
      · exact (h.frame openOp_frame).fwSwitch ..

theorem ClampsOk.dispatchOp {s : State} (h : ClampsOk s) (op : Nat) (b : BoxId) (arg : Nat) :
    ClampsOk (dispatchOp op b arg s) := by
  unfold Machine.dispatchOp
  split
  · exact h.frame bcsNop_frame
  · exact h.frame bcsIdentify_frame
  · exact h.frame bcsGetMode_frame
  · exact h.frame bcsReqMode_frame
  · exact h.frame bcsShutdown_frame
  · exact h.frame bcsWinStage_frame
  · exact h.frame bcsWinRemove_frame
  · exact h.frame bcsWinCommit_frame
  · exact h.frame bcsWinQuery_frame
  · exact h.frame bcsSetAperture_frame
  · exact h.frame bcsSpdmOnly_frame
  · exact h.frame bcsSpdmOnly_frame
  · exact h.frame bcsSpdmOnly_frame
  · exact h.frame bcsSpdmOnly_frame
  · exact h.frame bcsSpdmOnly_frame
  · exact h.frame bcsSpdmOnly_frame
  · exact h.frame bcsCloseEpoch_frame
  · exact h.frame bcsSetEpochTimer_frame
  · exact h.frame bcsMeasureHoldup_frame
  · exact h.frame bcsGetLoss_frame
  · exact h.frame bcsMediaHealth_frame
  · exact h.frame bcsSetLevelSpread_frame
  · exact h.frame bcsReadReftable_frame
  · exact h.frame bcsFormat_frame
  · exact h.frame bcsSanitize_frame
  · exact h.frame bcsScanMedia_frame
  · exact h.frame bcsSetSlots_frame
  · exact h.frame bcsSetPdTimer_frame
  · exact h.frame bcsSetDramRate_frame
  · exact h.frame bcsSetThermal_frame
  · exact h.frame bcsSetSupervisor_frame
  · exact h.frame bcsClearPsvFault_frame
  · exact h.frame bcsSetNode_frame
  · exact h.frame bcsSetPool_frame
  · exact h.frame bcsSetTopology_frame
  · exact h.frame bcsSetRoster_frame
  · exact h.frame bcsSetHoldNs_frame
  · exact h.frame bcsSetRemoteCache_frame
  · exact h.frame bcsSetGather_frame
  · exact h.frame bcsSetHoldLimit_frame
  · exact h.frame bcsPoolStatus_frame
  · exact h.frame bcsMpForward_frame
  · exact h.frame bcsEvrFreeze_frame
  · exact h.frame bcsPmcConfig_frame
  · exact h.frame bcsTrbConfig_frame
  · exact h.frame bcsFwBegin_frame
  · exact h.frame bcsFwData_frame
  · exact h.frame bcsFwEnd_frame
  · exact h.bcsFwActivate b arg
  · exact h.frame bcsFwInfo_frame
  · exact h.frame bcsMeterRecord_frame
  · exact h.frame bcsMeterTenant_frame
  · exact h.frame bcsMeterId_frame
  · exact h.frame bcsMeterKey_frame
  · exact h.frame bcsMeterAudit_frame
  · exact h.frame bcsMeterNote_frame
  · exact h.frame bcsPrepareReturn_frame
  · exact h.frame bcsDiagSnapshot_frame
  · exact h.frame bcsUnknown_frame

/-- A message is taken or, of an older incarnation, refused; only running it can write clamps. -/
theorem ClampsOk.takeHead {s : State} (h : ClampsOk s) {b : BoxId} {w : Word} {node : Nat} {run : State → State}
    (hrun : ∀ u, ClampsOk u → ClampsOk (run u)) : ClampsOk (takeHead b w node run s) := by
  have hcount := ClampsOk.frame h (count_frame (a0 := 16) (a1 := 0x201) (a2 := 0) (a3 := 1))
  exact ((hcount.frame event_frame).frame ackHead_frame).ite (hrun _ hcount)

theorem ClampsOk.takeFrom {s : State} (h : ClampsOk s) (b : BoxId) : ClampsOk (takeFrom b s) := by
  unfold Machine.takeFrom
  split
  · exact h
  · exact h.takeHead fun _ hu => hu.dispatchOp ..

theorem ClampsOk.execMessageTake {s t : State} (h : ClampsOk s) (ht : execMessageTake s = .next t) : ClampsOk t := by
  cases ht
  split
  · exact h
  · refine ClampsOk.takeFrom ?_ _
    exact h.of_clamps rfl

theorem ClampsOk.execFwActivate {s t : State} (h : ClampsOk s) {b : BoxId} {arg : Nat}
    (ht : execFwActivate b arg s = .next t) : ClampsOk t := by
  cases ht
  unfold runMsg
  dsimp only
  split
  · exact h
  · exact h.ite (ClampsOk.takeHead (h.frame postIfFree_frame) fun u hu => hu.bcsFwActivate ..)

theorem ClampsOk.execCxlActivateFw {s t : State} (h : ClampsOk s) {p : Port} {slot : Nat} {online : Bool}
    (ht : execCxlActivateFw p slot online s = .next t) : ClampsOk t := by
  cases ht
  refine ClampsOk.ite (ClampsOk.ite ?_ (h.frame cxlAns_frame)) h
  refine ClampsOk.ite (h.frame cxlAns_frame) (ClampsOk.ite ((h.fwSwitch ..).frame cxlAns_frame) ?_)
  exact (h.frame cxlAns_frame).ite ((h.frame State.setCxl_frame).fwSwitch ..)

/-! ### Supplies, clocks and the management processor -/

theorem ClampsOk.execMpTrap {s t : State} (h : ClampsOk s) (ht : execMpTrap s = .next t) : ClampsOk t := by
  cases ht
  exact h.stopMp.ite h

theorem ClampsOk.execVauxLoss {s t : State} (h : ClampsOk s) (ht : execVauxLoss s = .next t) : ClampsOk t := by
  cases ht
  exact h.ite ((ClampsOk.aoLoss _).of_clamps rfl)

/-- A change of the supply's registers spares the clamps. -/
theorem ClampsOk.setPower {s : State} (h : ClampsOk s) (x : Power) : ClampsOk { s with pw := x } := h

theorem ClampsOk.faultNow {s : State} (h : ClampsOk s) (bit code : Nat) (block : Bool) : ClampsOk (faultNow bit code block s) :=
  h.frame faultNow_frame

theorem ClampsOk.setWin {s : State} (h : ClampsOk s) (code : Nat) (ok : Bool) : ClampsOk (setWin code ok s) :=
  h.frame setWin_frame

theorem ClampsOk.execVaoFault {s t : State} (h : ClampsOk s) (ht : execVaoFault s = .next t) : ClampsOk t := by
  cases ht
  exact h.ite ((((ClampsOk.aoLoss _).setWin ..).faultNow ..).setPower _ |>.frame updateMode_frame)

/-- The supervisor notes the drop of VIN before the sequence of its phase begins. -/
theorem ClampsOk.noteVinDrop {s : State} (h : ClampsOk s) :
    ClampsOk (event .supervisorFlush 5 [0] (snap 0xFF 0 (Machine.setWin 0 false s))) :=
  ((h.setWin ..).frame snap_frame).frame event_frame

theorem ClampsOk.execVinUnderVoltage {s t : State} (h : ClampsOk s) (ht : execVinUnderVoltage s = .next t) :
    ClampsOk t := by
  cases ht
  split
  · exact h.frame vinFlush_frame
  · exact (h.noteVinDrop.setPower _).startPowerDown _
  · exact (h.noteVinDrop.setPower _).startPowerDown _
  all_goals exact h

theorem ClampsOk.execVinOverVoltage {s t : State} (h : ClampsOk s) (ht : execVinOverVoltage s = .next t) : ClampsOk t := by
  cases ht
  exact (((h.setWin ..).faultNow ..).shutOffNow _).ite h

theorem ClampsOk.execRailFault {s t : State} (h : ClampsOk s) {code : Nat} (ht : execRailFault code s = .next t) :
    ClampsOk t := by
  cases ht
  have hfault : ∀ bit, ClampsOk (Machine.faultNow bit code true (Machine.setWin code false s)) :=
    fun bit => (h.setWin ..).faultNow ..
  refine h.ite ?_
  split
  · exact ((hfault 1).shutOffNow 2).ite h
  · exact (hfault 1).shutOffNow 2
  · exact (hfault 1).shutOffNow 2
  · exact (hfault 1).shutOffNow 2
  · exact (hfault 2).ite h
  · exact h
  · exact h

theorem ClampsOk.execHoldShort {s t : State} (h : ClampsOk s) (ht : execHoldShort s = .next t) : ClampsOk t := by
  cases ht
  exact ((h.faultNow ..).shutOffNow _).ite h

theorem ClampsOk.execFlushDone {s t : State} (h : ClampsOk s) (ht : execFlushDone s = .next t) : ClampsOk t := by
  cases ht
  exact ((h.frame finishFlush_frame).startPowerDown _).ite h

theorem ClampsOk.execRailStartTimeout {s t : State} (h : ClampsOk s) (ht : execRailStartTimeout s = .next t) :
    ClampsOk t := by
  cases ht
  have hrails : ∀ on : Nat → Bool, ClampsOk (setRails on (draw s).2) := fun _ => (h.frame draw_frame).frame setRails_frame
  exact ((((hrails _).faultNow ..).setPower _).startPowerDown _).ite h

theorem ClampsOk.execRefclkLoss {s t : State} (h : ClampsOk s) (ht : execRefclkLoss s = .next t) : ClampsOk t := by
  cases ht
  refine h.ite ?_
  dsimp only
  refine List.foldlRecOn (motive := ClampsOk) _ _ ?_ fun u hu p _ => hu.ite (hu.frame linkDown_frame)
  have hloss : ClampsOk (event .refclkLost 5 [] { s with pw := { s.pw with clkBackup := true } }) :=
    (h.setPower _).frame event_frame
  have hport : ∀ {u : State} (p : Port) (c : Prop) [Decidable c], ClampsOk u → ClampsOk (if c then u else Machine.linkLost p u) :=
    fun p c _ hu => hu.ite (hu.linkLost p)
  exact hport .b _ (hport .a _ hloss)

/-! ### The TAP -/

theorem ClampsOk.bypassNow {s : State} (h : ClampsOk s) : ClampsOk (bypassNow s) := h.endScan.frame select_frame

theorem ClampsOk.driveNow {s : State} (h : ClampsOk s) {act : State → State} (hact : ∀ u, ClampsOk u → ClampsOk (act u)) :
    ClampsOk (driveNow act s) := h.ite ((hact _ (h.frame enterScan_frame)).ite h.bypassNow)

theorem ClampsOk.captureBoundary {s : State} (h : ClampsOk s) (i : TapInstr) : ClampsOk (captureBoundary i s) :=
  h.frame captureBoundary_frame

theorem ClampsOk.select {s : State} (h : ClampsOk s) (i : TapInstr) (reg value : Nat) : ClampsOk (select i reg value s) :=
  h.frame select_frame

theorem ClampsOk.execPrivateInstruction {s t : State} (h : ClampsOk s) {code : Nat}
    (ht : execPrivateInstruction code s = .next t) : ClampsOk t := by
  cases ht
  exact h.ite (((h.frame draw_frame).select ..).ite h.bypassNow)

/-! ### One step -/

/-- What a command leaves keeps the clamps: by its frame, or by the lemma of its meaning where its frame lists them. -/
theorem ClampsOk.exec {c : Instr} {s t : State} (h : ClampsOk s) (ht : exec c s = .next t) : ClampsOk t := by
  by_cases hc : (mayChange c).contains .clamps = true
  · cases c with
    | registerWrite => exact h.execRegisterWrite ht
    | mpTrap => exact h.execMpTrap ht
    | flushDone => exact h.execFlushDone ht
    | perstAssert => exact h.execPerstAssert ht
    | hostLinkLoss => exact h.execHostLinkLoss ht
    | hostLaneFault => exact h.execHostLaneFault ht
    | hostLinkTrain => exact h.execHostLinkTrain ht
    | ideIntegrityFailure => exact h.execIdeIntegrityFailure ht
    | clampRead => exact h.execClampRead ht
    | clampRelease => exact h.execClampRelease ht
    | clampForce => exact h.execClampForce ht
    | messageTake => exact h.execMessageTake ht
    | fwActivate => exact h.execFwActivate ht
    | cxlActivateFw => exact h.execCxlActivateFw ht
    | vauxLoss => exact h.execVauxLoss ht
    | vaoFault => exact h.execVaoFault ht
    | vinUnderVoltage => exact h.execVinUnderVoltage ht
    | vinOverVoltage => exact h.execVinOverVoltage ht
    | railFault => exact h.execRailFault ht
    | holdShort => exact h.execHoldShort ht
    | railStartTimeout => exact h.execRailStartTimeout ht
    | refclkLoss => exact h.execRefclkLoss ht
    | idcode => cases ht; exact (h.endScan.select ..).ite h
    | trstAssert => cases ht; exact (h.endScan.select ..).ite h
    | bypass => cases ht; exact h.bypassNow.ite h
    | samplePreload => cases ht; exact (h.endScan.captureBoundary _).ite h
    | extest => cases ht; exact h.driveNow fun _ hu => hu.captureBoundary _
    | extestPulse => cases ht; exact h.driveNow fun _ hu => hu.captureBoundary _
    | extestTrain => cases ht; exact h.driveNow fun _ hu => hu.captureBoundary _
    | tapClamp => cases ht; exact h.driveNow fun _ hu => hu.select ..
    | highz => cases ht; exact h.driveNow fun _ hu => hu.select ..
    | privateInstruction => exact h.execPrivateInstruction ht
    | _ => exact absurd hc Bool.false_ne_true
  · obtain ⟨u, hu, hframe⟩ := exec_frame c s
    obtain rfl : t = u := Host.Outcome.next.inj (ht.symm.trans hu)
    exact h.frame hframe (by simpa using hc)

theorem ClampsOk.tick {s : State} (h : ClampsOk s) : ClampsOk (tick s) := h.frame tick_frame

/-- Settles O4: a step is a tick, which spares the clamps, or runs a command on the state with the queue's rest. -/
theorem clampsStayOk : Obligations.ClampsStayOk := by
  unfold Obligations.ClampsStayOk step
  intro s t h ht
  split at ht
  · obtain rfl := Host.Outcome.next.inj ht
    exact h.tick
  · refine ClampsOk.exec ?_ ht
    exact h.of_clamps rfl

end Sys2Proof.Machine
end

section
/-! Commands of the mailbox (O14): a command whose message is ready runs its opcode on the state in which the taking is
counted, and an opcode answers a check that fails with that check's return code (R482, Table 15-5). -/

set_option Elab.async false

namespace Sys2Proof.Machine

/-- A command is a row of Table 15-5: with its message ready it runs its opcode, past a failed check it is refused. -/
structure IsRow (c : Instr) (g : Gate) (b : BoxId) (arg : Nat) : Prop where
  runs : ∀ {s : State}, headReady s b g.op arg = true → exec c s = .next (dispatchOp g.op b arg (taken s))
  refuses : ∀ {rc : Nat} {s : State}, gateRc g b arg s = some rc → dispatchOp g.op b arg s = ackHead b rc s

theorem IsRow.of_withGate {c : Instr} {g : Gate} {b : BoxId} {arg : Nat} (run : Nat → State → State)
    (body : List Word → State → Fin) (hexec : ∀ s, exec c s = .next (runMsg g.op b arg (run (arg % 2 ^ 44)) s))
    (hop : ∀ s, run arg s = dispatchOp g.op b arg s) (hgate : ∀ s, run arg s = withGate g b arg body s) :
    IsRow c g b arg where
  runs h := by rw [hexec, runMsg_masked_of_headReady run h, hop]
  refuses h := by rw [← hop, hgate, withGate_refused _ h]

theorem bcsShutdown_refused {b : BoxId} {arg rc : Nat} {s : State}
    (h : gateRc { op := 0x011, used := 1, clamp := some 0 } b arg s = some rc) : bcsShutdown b arg s = ackHead b rc s := by
  simp only [bcsShutdown, h, reduceCtorEq, decide_false, Bool.false_and, Bool.false_eq_true, if_false]
  exact withGate_refused _ h

/-- A meter read is left open, its request among those relayed to the partition (R482). -/
def relayed (op : Nat) (b : BoxId) (arg : Nat) (s : State) : State :=
  let u := openOp op b arg false s
  { u with mb := { u.mb with relays := u.mb.relays ++ [(op, arg, b)] } }

theorem isRow_of_gateOf {c : Instr} {g : Gate} {b : BoxId} {arg : Nat} (h : gateOf c = some (g, b, arg)) :
    IsRow c g b arg := by
  cases c with
    | nop | identify | getMode | reqMode | winStage | winRemove | winCommit | winQuery | setAperture | closeEpoch
    | setEpochTimer | measureHoldup | getLoss | mediaHealth | setLevelSpread | readReftable | format | sanitize
    | scanMedia | setSlots | setPdTimer | setDramRate | setThermal | setSupervisor | setNode | setPool
    | setTopology | setRoster | setHoldNs | setRemoteCache | setGather | setHoldLimit | poolStatus | mpForward
    | evrFreeze | pmcConfig | trbConfig | fwBegin | fwData | fwEnd | fwActivate | fwInfo
    | prepareReturn | diagSnapshot =>
      cases h
      exact .of_withGate _ _ (fun _ => rfl) (fun _ => rfl) (fun _ => rfl)
    | meterRecord | meterTenant | meterId | meterKey | meterAudit =>
      cases h
      exact .of_withGate _ (fun _ u => .wait (relayed _ _ _ u)) (fun _ => rfl) (fun _ => rfl) (fun _ => rfl)
    | shutdown =>
      cases h
      exact ⟨fun h => congrArg _ (runMsg_masked_of_headReady _ h), bcsShutdown_refused⟩
    | clearPsvFault b' =>
      cases b' with
      | sideband =>
        cases h
        exact .of_withGate _ _ (fun _ => rfl) (fun _ => rfl) (fun _ => if_neg (by decide))
      | _ => cases h
    | _ => cases h

/-- Settles O14: the gate reads nothing that the count of the taking changes. -/
theorem gateRefusals : Obligations.GateRefusals := by
  unfold Obligations.GateRefusals
  intro c g b arg rc s hc hready hgate
  have hrow := isRow_of_gateOf hc
  rw [hrow.runs hready, hrow.refuses ((gateRc_taken ..).trans hgate)]

end Sys2Proof.Machine
end

section
/-! Mailboxes (O15, O30): what a change of a sender's box comes to where its case is known, the acknowledgement of a
port's message, and one equation for each register and message. -/

set_option Elab.async false

namespace Sys2Proof.Machine

/-! ### Changes of a box -/

theorem modBox_congr {b : BoxId} {f g : Box → Box} {s : State} (h : f (boxOf s b) = g (boxOf s b)) :
    modBox b f s = modBox b g s := by
  rw [modBox, modBox, h]

@[simp] theorem modBox_boxes_length (b : BoxId) (f : Box → Box) (s : State) :
    (modBox b f s).mb.boxes.length = s.mb.boxes.length :=
  setNth_length _ _ _

@[simp] theorem boxOf_emit (o : Output) (s : State) (b : BoxId) : boxOf (emit o s) b = boxOf s b :=
  rfl

theorem exec_mbxPost {snd : Sender} {b : BoxId} (hb : snd.box? = some b) (word : Word) (s : State) :
    exec (.mbxPost snd word) s = .next (modBox b (fun x =>
      if x.inbox.isEmpty then
        { x with inbox := [(stamp b.ix x.inc word, 0, 0)], inWord := stamp b.ix x.inc word, ack := false }
      else { x with overrun := true }) s) :=
  congrArg Host.Outcome.next (withBox_of_box? hb _ s)

theorem exec_mbxPost_of_free {snd : Sender} {b : BoxId} {word : Word} {s : State} (hb : snd.box? = some b)
    (h : (boxOf s b).inbox = []) : exec (.mbxPost snd word) s = .next (modBox b (fun x =>
      { x with inbox := [(stamp b.ix x.inc word, 0, 0)], inWord := stamp b.ix x.inc word, ack := false }) s) := by
  rw [exec_mbxPost hb]
  exact congrArg _ (modBox_congr (if_pos (by simp [h])))

theorem exec_mbxPost_of_full {snd : Sender} {b : BoxId} {word : Word} {s : State} (hb : snd.box? = some b)
    (h : (boxOf s b).inbox ≠ []) :
    exec (.mbxPost snd word) s = .next (modBox b (fun x => { x with overrun := true }) s) := by
  rw [exec_mbxPost hb]
  exact congrArg _ (modBox_congr (if_neg (by simp [h])))

/-! ### Acknowledgements -/

/-- Without a command that waits for its acknowledgement, the message at the head is acknowledged (R471). -/
theorem exec_acknowledge_of_none_open {b : BoxId} {rc : Nat} {s : State} (h : s.mb.open_ = []) :
    exec (.acknowledge b rc) s = .next (ackHead b rc s) := by
  change execAcknowledge b rc s = _
  simp only [execAcknowledge, h, List.find?_nil]

theorem exec_acknowledge_of_one_open {b : BoxId} {rc : Nat} {o : BgOp} {s : State} (h : s.mb.open_ = [o])
    (hbox : o.box = b) (hacc : o.accepted = false) :
    exec (.acknowledge b rc) s = .next (ackHead b rc { s with mb := { s.mb with open_ := [] } }) := by
  change execAcknowledge b rc s = _
  simp [execAcknowledge, h, hbox, hacc, endOp]

/-- The acknowledgement of a port's only message, of its present incarnation: the inbox empties, RC, TAG and ACK are
written, and vector 0 is signalled (R471). -/
theorem ackHead_of_port {b : BoxId} {p : Port} {w : Word} {x : Nat × Nat} {rc : Nat} {s : State}
    (hp : boxPort b = some p) (hin : (boxOf s b).inbox = [(w, x)]) (hinc : wordInc w = (boxOf s b).inc)
    (hlen : s.mb.boxes.length = 5) : ackHead b rc s =
      emit (.vector p 0) (modBox b (fun y => { y with ack := true, rc := rc, tag := wordTag w })
        (modBox b (fun y => { y with inbox := [] }) s)) := by
  have hfab : (b == .fabric) = false := by
    rw [beq_eq_false_iff_ne]
    rintro rfl
    cases hp
  have hinc' : wordInc w = (boxOf (modBox b (fun y => { y with inbox := [] }) s) b).inc := by
    rw [boxOf_modBox_same _ hlen, hinc]
  simp only [ackHead, hin, hfab, Bool.false_eq_true, if_false, ← hinc', ne_eq, not_true_eq_false, hp]

/-- Settles O15: the box after the two changes of an acknowledgement, and after a new message. -/
theorem acknowledgementEffect : Obligations.AcknowledgementEffect := by
  unfold Obligations.AcknowledgementEffect
  refine ⟨fun b p w x rc s hp hin hinc hopen hlen => ?_, fun b snd w s hb hin hlen => ?_⟩
  · refine ⟨_, exec_acknowledge_of_none_open hopen, ?_⟩
    have hbox : boxOf (ackHead b rc s) b = { boxOf s b with inbox := [], ack := true, rc := rc, tag := wordTag w } := by
      rw [ackHead_of_port hp hin hinc hlen, boxOf_emit, boxOf_modBox_same _ ((modBox_boxes_length ..).trans hlen), boxOf_modBox_same _ hlen]
    rw [hbox, ackHead_of_port hp hin hinc hlen]
    exact ⟨rfl, rfl, rfl, rfl, rfl⟩
  · refine ⟨_, exec_mbxPost_of_free hb hin, ?_⟩
    rw [boxOf_modBox_same _ hlen]
    exact ⟨rfl, rfl⟩

/-! ### Outboxes, drawers and the Fabric inbox -/

theorem exec_outboxFree {snd : Sender} {b : BoxId} (hb : snd.box? = some b) (s : State) :
    exec (.outboxFree snd) s = .next (modBox b (fun x => { x with outFull := false }) s) :=
  congrArg Host.Outcome.next (withBox_of_box? hb _ s)

theorem exec_drawerPop {snd : Sender} {b : BoxId} (hb : snd.box? = some b) (s : State) :
    exec (.drawerPop snd) s = .next (popOut b s) :=
  congrArg Host.Outcome.next (withBox_of_box? hb popOut s)

theorem drwOpenPkt_of_room {d : Drawer} (hopen : drwOpen d = false) (hlen : d.length < 64) :
    drwOpenPkt d = (true, d ++ [.reserved]) :=
  if_neg (by simp [hopen, hlen])

theorem drwWord_of_open {d : Drawer} (w : Word) (hopen : drwOpen d = true) (hlen : d.length < 64) :
    drwWord w d = d ++ [.word w] := by
  rw [drwWord, if_neg (Nat.not_le.mpr hlen), if_pos hopen]

/-- A waiting outbox word is posted; with no completion waiting for room, nothing joins the queue (R473). -/
theorem exec_outboxPost_of_clear {b : BoxId} {w : Word} {ws : List Word} {s : State} (hq : (boxOf s b).outQ = w :: ws)
    (hfull : (boxOf s b).outFull = false) (hmp : s.mb.mpReady = true)
    (hopen : s.mb.open_.all (fun o => o.fin.isNone) = true) : exec (.outboxPost b) s = .next (
      match boxPort b with
      | some p => emit (.vector p 1) (modBox b (fun x => { x with outFull := true, outWord := w, outQ := ws }) s)
      | none => modBox b (fun x => { x with outFull := true, outWord := w, outQ := ws }) s) := by
  have hnone : s.mb.open_.find? (fun o => o.box == b && o.fin.isSome) = none := by
    rw [List.find?_eq_none]
    intro o ho
    have hfin : o.fin = none := by simpa using List.all_eq_true.mp hopen o ho
    simp [hfin]
  change execOutboxPost b s = _
  cases hp : boxPort b <;>
    simp [execOutboxPost, hq, hfull, hmp, hp, hnone]

theorem exec_mpMsg_of_room {src inc : Nat} {word : Word} {s : State} (hack : bitsOf word 60 4 ≠ 15)
    (hroom : (boxOf s .fabric).inbox.length < 64) : exec (.mpMsg src inc word) s =
      .next (modBox .fabric (fun x => { x with
          inbox := x.inbox ++ [(stamp 3 inc word, src, 0)], inWord := if x.inbox.isEmpty then stamp 3 inc word else x.inWord })
        { s with mb := { s.mb with fabInc := Table.put s.mb.fabInc src (inc % 16) } }) := by
  change execMpMsg src inc word s = _
  simp only [execMpMsg, if_neg hack, if_neg (Nat.not_le.mpr hroom)]

theorem exec_mpMsg_of_full {src inc : Nat} {word : Word} {s : State} (hack : bitsOf word 60 4 ≠ 15)
    (hfull : 64 ≤ (boxOf s .fabric).inbox.length) : exec (.mpMsg src inc word) s =
      .next (sendMsg { kind := .mgr, src := me s, dst := src, mcode := 8, payload := [BitVec.ofNat 64 2] } s) := by
  change execMpMsg src inc word s = _
  simp only [execMpMsg, if_neg hack, if_pos hfull]

/-- Settles O30: each register's command by its equation and the case of the box or of its drawer. -/
theorem mailboxRows : Obligations.MailboxRows := by
  unfold Obligations.MailboxRows
  refine ⟨fun snd b word s => exec_mbxPost_of_free, fun snd b word s => exec_mbxPost_of_full,
    fun snd b s hb => exec_outboxFree hb s, fun snd b s hb hopen hlen => ?_, fun snd b s hb href => ?_,
    fun snd b s hb hopen => ?_, fun snd b s hb hcount => ?_, fun snd b word s hb hopen hlen => ?_,
    fun snd b word s hb hfull => ?_, fun b w ws s => exec_outboxPost_of_clear,
    fun b rc o s => exec_acknowledge_of_one_open, fun b rc s => exec_acknowledge_of_none_open, fun i s hfind => ?_,
    fun src inc word s => exec_mpMsg_of_room, fun src inc word s => exec_mpMsg_of_full⟩
  · rw [exec_drawerOpen hb]
    exact congrArg _ (modBox_congr (by simp [drwOpenPkt_of_room hopen hlen]))
  · rw [exec_drawerOpen hb]
    exact congrArg _ (modBox_congr (by simp [drwOpenPkt_of_refused href]))
  · rw [exec_drawerClose hb]
    exact congrArg _ (modBox_congr (by simp [hopen]))
  · rw [exec_drawerPop hb]
    exact congrArg _ (modBox_congr (by simp [drwPop, Nat.ne_of_gt hcount]))
  · rw [exec_drawerWrite hb]
    exact congrArg _ (modBox_congr (by simp [drwWord_of_open word hopen hlen]))
  · rw [exec_drawerWrite hb]
    exact congrArg _ (modBox_congr (by simp [drwWord_of_full word hfull]))
  · change execMessageTake s = _
    rw [execMessageTake, hfind]

end Sys2Proof.Machine
end

section
/-! Commands of the Belvy Command Set past their checks (O22 to O29). `Opens` says that a command's message is ready, that
its checks pass, and which payload its body finds in which state; a row then follows from how the body ends. -/

set_option Elab.async false

namespace Sys2Proof.Machine

/-! ### Past the checks -/

/-- A command met with its message ready and its checks passed: the body that its run gates ends on the payload `ws` in
the state `u`. -/
def Opens (c : Instr) (g : Gate) (b : BoxId) (arg : Nat) (run : State → State) (s : State) (ws : List Word) (u : State) :
    Prop :=
  ∀ body, (∀ v, run v = withGate g b arg body v) → exec c s = .next (conclude g.op b arg (body ws u))

section
variable {c : Instr} {g : Gate} {b : BoxId} {arg rc : Nat} {run : Nat → State → State} {s t u : State}
  {ws : List Word} {body : List Word → State → Fin}

theorem Opens.plain (hgate : gateRc g b arg s = none) (hready : headReady s b g.op arg = true) (hpay : g.pay = none)
    (hexec : ∀ v, exec c v = .next (runMsg g.op b arg (run (arg % 2 ^ 44)) v)) :
    Opens c g b arg (run arg) s [] (taken s) := by
  intro body hbody
  rw [hexec, runMsg_masked_of_headReady run hready, hbody, withGate_open _ ((gateRc_taken ..).trans hgate) hpay]

theorem Opens.payload {lo hi : Nat} (hgate : gateRc g b arg s = none) (hready : headReady s b g.op arg = true)
    (hpay : g.pay = some (lo, hi)) (hws : takePayload b arg lo hi (taken s) = (some ws, u))
    (hexec : ∀ v, exec c v = .next (runMsg g.op b arg (run (arg % 2 ^ 44)) v)) :
    Opens c g b arg (run arg) s ws u := by
  intro body hbody
  rw [hexec, runMsg_masked_of_headReady run hready, hbody, withGate_payload _ ((gateRc_taken ..).trans hgate) hpay hws]

theorem Opens.ack (h : Opens c g b arg (run arg) s ws u) (hbody : ∀ v, run arg v = withGate g b arg body v)
    (hfin : body ws u = .ack rc t) : exec c s = .next (ackHead b rc t) := by
  rw [h body hbody, hfin, conclude]

theorem Opens.bg (h : Opens c g b arg (run arg) s ws u) (hbody : ∀ v, run arg v = withGate g b arg body v)
    (hfin : body ws u = .bg t) : exec c s = .next (ackHead b 1 (openOp g.op b arg true t)) := by
  rw [h body hbody, hfin, conclude]

theorem Opens.wait (h : Opens c g b arg (run arg) s ws u) (hbody : ∀ v, run arg v = withGate g b arg body v)
    (hfin : body ws u = .wait t) : exec c s = .next t := by
  rw [h body hbody, hfin, conclude]

end

theorem answerWith_of_drawer {b : BoxId} (ws : List Word) (s : State) (hb : b ≠ .fabric) :
    answerWith b ws s = .ack 0 (reply b ws s) :=
  if_neg (by simpa using hb)

/-- A command that the Fabric sender may not send comes from another. -/
theorem ne_fabric_of_gate {g : Gate} {b : BoxId} {arg : Nat} {s : State} (hgate : gateRc g b arg s = none)
    (hfab : g.fab = false) : b ≠ .fabric := by
  rintro rfl
  simp [gateRc, hfab] at hgate

/-! ### Device and modes -/

/-- Settles O22. -/
theorem bcsDeviceRows : Obligations.BcsDeviceRows := by
  unfold Obligations.BcsDeviceRows
  have hmode {b : BoxId} {arg : Nat} {s : State} (hready : headReady s b 0x010 arg = true)
      (hgate : gateRc { op := 0x010, used := 0xF, clamp := some 0 } b arg s = none) (hphase : s.pw.phase = .service)
      {p : PState} (hp : stateOfCode (arg % 16) = some p) :
      exec (.reqMode b arg) s = .next (ackHead b 0 (request p (taken s))) := by
    rw [exec_reqMode_of_headReady hready, bcsReqMode_of_service ((gateRc_taken ..).trans hgate) (by simpa) hp]
  refine ⟨fun b arg s hready hgate => ?_, fun b arg s hready hgate hfab => ?_, fun b arg s hready hgate hfab => ?_,
    fun b arg s hready hgate hphase hcode => hmode hready hgate hphase (by rw [hcode]; rfl),
    fun b arg s hready hgate hphase hcode => hmode hready hgate hphase (by rw [hcode]; rfl),
    fun b arg s hready hgate hphase hcode => hmode hready hgate hphase (by rw [hcode]; rfl),
    fun b arg s hready hgate hphase hcode => ?_, fun b arg s hready hgate hphase => ?_⟩
  · exact (Opens.plain hgate hready rfl fun _ => rfl).ack (fun _ => rfl) rfl
  · refine (Opens.plain hgate hready rfl fun _ => rfl).ack (fun _ => rfl) ?_
    rw [answerWith_of_drawer _ _ hfab, taken_sgl, taken_portA, taken_portB]
  · exact (Opens.plain hgate hready rfl fun _ => rfl).ack (fun _ => rfl) (answerWith_of_drawer _ _ hfab)
  · have hnone : stateOfCode (arg % 16) = none := by
      unfold stateOfCode
      split
      · omega
      · omega
      · omega
      · rfl
    refine (Opens.plain hgate hready rfl fun _ => rfl).ack (fun _ => rfl) ?_
    rw [if_neg (by simp [hphase]), hnone]
  · have hrow : exec (.shutdown b arg) s = .next (bcsShutdown b arg (taken s)) :=
      (isRow_of_gateOf (g := { op := 0x011, used := 1, clamp := some 0 }) rfl).runs hready
    rw [hrow, bcsShutdown, if_pos (by simp [hgate, hphase])]

/-! ### Windows -/

/-- Settles O23. -/
theorem bcsWindowRows : Obligations.BcsWindowRows := by
  unfold Obligations.BcsWindowRows
  refine ⟨fun b arg ws s t hready hgate hws hwin => ?_, fun b arg s hready hgate => ?_,
    fun b arg s hready hgate hok => ?_, fun b arg s hready hgate hbad => ?_, fun b arg s hready hgate hnone => ?_,
    fun b arg w s hready hgate hsome => ?_, fun b arg s hready hgate hlo hhi => ?_,
    fun b arg s hready hgate hrange => ?_⟩
  · obtain ⟨w, hw⟩ := Option.isSome_iff_exists.mp hwin
    refine (Opens.payload hgate hready rfl hws fun _ => rfl).ack (fun _ => rfl) ?_
    rw [hw]
    rfl
  · exact (Opens.plain hgate hready rfl fun _ => rfl).ack (fun _ => rfl) rfl
  · exact (Opens.plain hgate hready rfl fun _ => rfl).wait (fun _ => rfl) (if_neg (by simp [hok]))
  · exact (Opens.plain hgate hready rfl fun _ => rfl).ack (fun _ => rfl) (if_pos (by simp [hbad]))
  · refine (Opens.plain hgate hready rfl fun _ => rfl).ack (fun _ => rfl) ?_
    rw [taken_port, hnone]
    exact answerWith_of_drawer _ _ (ne_fabric_of_gate hgate rfl)
  · refine (Opens.plain hgate hready rfl fun _ => rfl).ack (fun _ => rfl) ?_
    rw [taken_port, hsome]
    exact answerWith_of_drawer _ _ (ne_fabric_of_gate hgate rfl)
  · refine (Opens.plain hgate hready rfl fun _ => rfl).ack (fun _ => rfl) ?_
    dsimp only
    rw [taken_port]
    exact if_neg (by simp; omega)
  · exact (Opens.plain hgate hready rfl fun _ => rfl).ack (fun _ => rfl) (if_pos (by simpa using hrange))

/-! ### Persistence and media -/

theorem eraseBar_of_busy {s : State} (hphase : s.pw.phase = .service ∨ s.ck.failed = true)
    (hbusy : s.ck.formatting = true ∨ s.sec.sanitize ≠ 0) : eraseBar s = some 2 := by
  rw [eraseBar, if_neg (by grind), if_pos (by simpa using hbusy)]

theorem eraseBar_of_not_ready {s : State} (hphase : s.pw.phase ≠ .service ∧ s.ck.failed = false) :
    eraseBar s = some 9 :=
  if_pos (by simp [hphase])

theorem eraseBar_of_free {s : State} (hphase : s.pw.phase = .service ∨ s.ck.failed = true)
    (hformat : s.ck.formatting = false) (hsan : s.sec.sanitize = 0) : eraseBar s = none := by
  rw [eraseBar, if_neg (by grind), if_neg (by simp [hformat, hsan])]

@[simp] theorem eraseBar_taken (s : State) : eraseBar (taken s) = eraseBar s := by
  simp only [eraseBar, taken_pw, taken_ck, taken_sec]

/-- Settles O24. -/
theorem bcsPersistenceRows : Obligations.BcsPersistenceRows := by
  unfold Obligations.BcsPersistenceRows
  refine ⟨fun b arg x s hready hgate hphase hx => ?_, fun b arg s hready hgate hphase hb => ?_,
    fun b arg s hready hgate hlo hhi => ?_, fun b arg s hready hgate hrange => ?_,
    fun b arg s hready hgate hidle hnone => ?_, fun b arg s hready hgate hphase => ?_,
    fun b arg s hready hgate hbusy => ?_, fun b arg s hready hgate => ?_, fun b arg s hready hgate hfab => ?_,
    fun b arg s hready hgate hlo hhi => ?_, fun b arg s hready hgate hrange => ?_, fun b arg s hready hgate => ?_,
    fun b arg s hready hgate hphase hformat hsan => ?_, fun b arg s hready hgate hphase hformat hsan => ?_,
    fun b arg s hready hgate hbusy => ?_, fun b arg s hready hgate hphase => ?_, fun b arg s hready hgate hbusy => ?_,
    fun b arg s hready hgate hphase => ?_, fun b arg s hready hgate hscan => ?_, fun b arg s hready hgate hscan => ?_⟩
  · refine (Opens.plain hgate hready rfl fun _ => rfl).ack (fun _ => rfl) ?_
    rw [if_neg (by simpa using fun h => hphase.resolve_left h), hx]
  · subst hb
    refine (Opens.plain hgate hready rfl fun _ => rfl).ack (fun _ => rfl) ?_
    exact if_neg (by simpa using fun h => hphase.resolve_left h)
  · refine (Opens.plain hgate hready rfl fun _ => rfl).ack (fun _ => rfl) ?_
    rw [taken_per]
    exact if_neg (by simp; omega)
  · exact (Opens.plain hgate hready rfl fun _ => rfl).ack (fun _ => rfl) (if_pos (by simpa using hrange))
  · refine (Opens.plain hgate hready rfl fun _ => rfl).bg (fun _ => rfl) (if_neg ?_)
    simp_all [opOpen]
  · exact (Opens.plain hgate hready rfl fun _ => rfl).ack (fun _ => rfl) (if_pos (by simpa using hphase))
  · refine (Opens.plain hgate hready rfl fun _ => rfl).ack (fun _ => rfl) (if_pos ?_)
    simpa [opOpen] using hbusy
  · exact (Opens.plain hgate hready rfl fun _ => rfl).ack (fun _ => rfl)
      (answerWith_of_drawer _ _ (ne_fabric_of_gate hgate rfl))
  · exact (Opens.plain hgate hready rfl fun _ => rfl).ack (fun _ => rfl) (answerWith_of_drawer _ _ hfab)
  · refine (Opens.plain hgate hready rfl fun _ => rfl).ack (fun _ => rfl) ?_
    rw [taken_tr]
    exact if_neg (by simp; omega)
  · exact (Opens.plain hgate hready rfl fun _ => rfl).ack (fun _ => rfl) (if_pos (by simpa using hrange))
  · exact (Opens.plain hgate hready rfl fun _ => rfl).ack (fun _ => rfl)
      (answerWith_of_drawer _ _ (ne_fabric_of_gate hgate rfl))
  · refine (Opens.plain hgate hready rfl fun _ => rfl).bg (fun _ => rfl) ?_
    rw [eraseBar_taken, eraseBar_of_free hphase hformat hsan, taken_ck]
  · refine (Opens.plain hgate hready rfl fun _ => rfl).bg (fun _ => rfl) ?_
    rw [eraseBar_taken, eraseBar_of_free hphase hformat hsan]
  · refine (Opens.plain hgate hready rfl fun _ => rfl).ack (fun _ => rfl) ?_
    rw [eraseBar_taken, eraseBar_of_busy hbusy.1 hbusy.2]
  · refine (Opens.plain hgate hready rfl fun _ => rfl).ack (fun _ => rfl) ?_
    rw [eraseBar_taken, eraseBar_of_not_ready hphase]
  · refine (Opens.plain hgate hready rfl fun _ => rfl).ack (fun _ => rfl) ?_
    rw [eraseBar_taken, eraseBar_of_busy hbusy.1 hbusy.2]
  · refine (Opens.plain hgate hready rfl fun _ => rfl).ack (fun _ => rfl) ?_
    rw [eraseBar_taken, eraseBar_of_not_ready hphase]
  · exact (Opens.plain hgate hready rfl fun _ => rfl).ack (fun _ => rfl) (if_pos (by simpa using hscan))
  · refine (Opens.plain hgate hready rfl fun _ => rfl).bg (fun _ => rfl) ?_
    rw [if_neg (by simp [hscan]), taken_prot]

/-! ### Power and heat -/

/-- Settles O25. -/
theorem bcsPowerRows : Obligations.BcsPowerRows := by
  unfold Obligations.BcsPowerRows
  refine ⟨fun b arg s hready hgate hlo hhi hmod => ?_, fun b arg s hready hgate hbad => ?_,
    fun b arg s hready hgate hhi => ?_, fun b arg s hready hgate hbad => ?_, fun b arg s hready hgate hne => ?_,
    fun b arg s hready hgate heq => ?_, fun b arg ws s t hready hgate hws hok => ?_,
    fun b arg ws s t hready hgate hws hbad => ?_, fun b arg ws s t hready hgate hws hok => ?_,
    fun b arg ws s t hready hgate hws hbad => ?_, fun b arg s hready hgate hb => ?_⟩
  · refine (Opens.plain hgate hready rfl fun _ => rfl).ack (fun _ => rfl) ?_
    rw [taken_sched]
    exact if_neg (by simp; omega)
  · exact (Opens.plain hgate hready rfl fun _ => rfl).ack (fun _ => rfl) (if_pos (by simpa [or_assoc] using hbad))
  · refine (Opens.plain hgate hready rfl fun _ => rfl).ack (fun _ => rfl) ?_
    rw [taken_dram]
    exact if_neg (Nat.not_lt.mpr hhi)
  · exact (Opens.plain hgate hready rfl fun _ => rfl).ack (fun _ => rfl) (if_pos hbad)
  · refine (Opens.plain hgate hready rfl fun _ => rfl).ack (fun _ => rfl) ?_
    rw [taken_dram]
    exact if_neg hne
  · exact (Opens.plain hgate hready rfl fun _ => rfl).ack (fun _ => rfl) (if_pos heq)
  · exact (Opens.payload hgate hready rfl hws fun _ => rfl).ack (fun _ => rfl) (if_pos hok)
  · exact (Opens.payload hgate hready rfl hws fun _ => rfl).ack (fun _ => rfl) (if_neg (by simp [hbad]))
  · exact (Opens.payload hgate hready rfl hws fun _ => rfl).ack (fun _ => rfl) (if_neg (by rw [hok]; exact Bool.false_ne_true))
  · exact (Opens.payload hgate hready rfl hws fun _ => rfl).ack (fun _ => rfl) (if_pos hbad)
  · subst hb
    rw [exec_clearPsvFault_of_headReady hready, bcsClearPsvFault_of_gate ((gateRc_taken ..).trans hgate), clearFaults,
      taken_pw]

/-! ### The fabric and the pool -/

/-- Settles O26. -/
theorem bcsPoolRows : Obligations.BcsPoolRows := by
  unfold Obligations.BcsPoolRows
  refine ⟨fun b arg s hready hgate => ?_, fun b arg s hready hgate => ?_, fun b arg s hready hgate hok => ?_,
    fun b arg s hready hgate hbad => ?_, fun b arg ws s t hready hgate hws => ?_, fun b arg s hready hgate hhi => ?_,
    fun b arg s hready hgate hbad => ?_, fun b arg s hready hgate hhi => ?_, fun b arg s hready hgate hbad => ?_,
    fun b arg s hready hgate hlo hhi => ?_, fun b arg s hready hgate hbad => ?_,
    fun b arg s hready hgate hlo hhi => ?_, fun b arg s hready hgate hbad => ?_, fun b arg s hready hgate hfab => ?_,
    fun b arg ws s t hready hgate hws hpresent hme => ?_⟩
  · exact (Opens.plain hgate hready rfl fun _ => rfl).ack (fun _ => rfl) rfl
  · exact (Opens.plain hgate hready rfl fun _ => rfl).ack (fun _ => rfl) rfl
  · exact (Opens.plain hgate hready rfl fun _ => rfl).ack (fun _ => rfl) (if_pos hok)
  · exact (Opens.plain hgate hready rfl fun _ => rfl).ack (fun _ => rfl) (if_neg (by rw [hbad]; exact Bool.false_ne_true))
  · exact (Opens.payload hgate hready rfl hws fun _ => rfl).ack (fun _ => rfl) rfl
  · refine (Opens.plain hgate hready rfl fun _ => rfl).ack (fun _ => rfl) ?_
    rw [taken_coh]
    exact if_neg (Nat.not_lt.mpr hhi)
  · exact (Opens.plain hgate hready rfl fun _ => rfl).ack (fun _ => rfl) (if_pos hbad)
  · refine (Opens.plain hgate hready rfl fun _ => rfl).ack (fun _ => rfl) ?_
    rw [if_neg (Nat.not_lt.mpr hhi), taken_prot, taken_dram]
  · exact (Opens.plain hgate hready rfl fun _ => rfl).ack (fun _ => rfl) (if_pos hbad)
  · refine (Opens.plain hgate hready rfl fun _ => rfl).ack (fun _ => rfl) ?_
    rw [taken_sgl]
    exact if_neg (by simp; omega)
  · exact (Opens.plain hgate hready rfl fun _ => rfl).ack (fun _ => rfl) (if_pos (by simp; omega))
  · refine (Opens.plain hgate hready rfl fun _ => rfl).ack (fun _ => rfl) ?_
    rw [taken_sgl]
    exact if_neg (by simp; omega)
  · exact (Opens.plain hgate hready rfl fun _ => rfl).ack (fun _ => rfl) (if_pos (by simp; omega))
  · refine (Opens.plain hgate hready rfl fun _ => rfl).ack (fun _ => rfl) ?_
    rw [answerWith_of_drawer _ _ hfab, taken_sgl]
  · exact (Opens.payload hgate hready rfl hws fun _ => rfl).wait (fun _ => rfl) (if_neg (by simp [hpresent, hme]))

/-! ### Recorder, counters and trace -/

/-- Settles O27. -/
theorem bcsObserveRows : Obligations.BcsObserveRows := by
  unfold Obligations.BcsObserveRows
  refine ⟨fun b arg s hready hgate hset => ?_, fun b arg s hready hgate hclear => ?_,
    fun b arg ws s t hready hgate hws hset hres hok => ?_, fun b arg ws s t hready hgate hws hbad => ?_,
    fun b arg ws s t hready hgate hws hres => ?_, fun b arg ws s t hready hgate hws hbad => ?_⟩
  · refine (Opens.plain hgate hready rfl fun _ => rfl).ack (fun _ => rfl) ?_
    rw [if_pos hset, taken_evr]
  · refine (Opens.plain hgate hready rfl fun _ => rfl).ack (fun _ => rfl) ?_
    rw [if_neg (by omega), taken_evr]
  · refine (Opens.payload hgate hready rfl hws fun _ => rfl).ack (fun _ => rfl) (if_neg ?_)
    simp only [Bool.or_eq_true, decide_eq_true_eq, bne_iff_ne, not_or, not_lt, not_not, hok]
    exact ⟨⟨hset, hres⟩, Bool.false_ne_true⟩
  · refine (Opens.payload hgate hready rfl hws fun _ => rfl).ack (fun _ => rfl) (if_pos ?_)
    simpa only [Bool.or_eq_true, decide_eq_true_eq, bne_iff_ne, or_assoc] using hbad
  · exact (Opens.payload hgate hready rfl hws fun _ => rfl).ack (fun _ => rfl) (if_neg (by simpa using hres))
  · exact (Opens.payload hgate hready rfl hws fun _ => rfl).ack (fun _ => rfl) (if_pos (by simpa using hbad))

/-! ### Firmware -/

theorem slotAt_taken (s : State) (n : Nat) : slotAt (taken s) n = slotAt s n := by
  rw [slotAt, slotAt, taken_mb]

theorem openSlot_taken (s : State) : openSlot (taken s) = openSlot s := by
  simp only [openSlot, slotAt_taken]

theorem fwOpen_of_free {slot size : Nat} {s : State} (hactive : slot ≠ s.mb.active) (hstate : (slotAt s slot).state ≠ 2) :
    fwOpen slot size s = (0, setSlot slot { state := 1, size := size } s) :=
  if_neg (by simp [hactive, hstate])

theorem fwOpen_of_active {slot size : Nat} {s : State} (hactive : slot = s.mb.active) : fwOpen slot size s = (2, s) :=
  if_pos (by simp [hactive])

theorem fwWrite_of_room {off n : Nat} {ws : List Word} {s : State} (hopen : openSlot s = some n)
    (hroom : off + ws.length ≤ (slotAt s n).size * 512) : fwWrite off ws s = (0, setSlot n { slotAt s n with
      image := ws.zipIdx.foldl (fun m w => Table.put m (off + w.2) w.1) (slotAt s n).image } s) := by
  simp only [fwWrite, hopen, if_neg (Nat.not_lt.mpr hroom)]

theorem fwStartCheck_of_open {n : Nat} {s : State} (hopen : openSlot s = some n) :
    fwStartCheck s = some (setSlot n { slotAt s n with state := 2 } s) := by
  simp only [fwStartCheck, hopen]

/-- Settles O28. -/
theorem bcsFirmwareRows : Obligations.BcsFirmwareRows := by
  unfold Obligations.BcsFirmwareRows
  refine ⟨fun b arg s hready hgate hlo hhi hactive hstate => ?_, fun b arg s hready hgate hlo hhi hactive => ?_,
    fun b arg n ws s t hready hgate hws hopen hroom => ?_, fun b arg n s hready hgate hopen => ?_,
    fun b arg s hready hgate hvalid hoff => ?_, fun b arg s hready hgate hvalid hon => ?_,
    fun b arg s hready hgate hfab => ?_⟩
  · refine (Opens.plain hgate hready rfl fun _ => rfl).ack (fun _ => rfl) ?_
    have hopen := fwOpen_of_free (size := arg / 2 % 2 ^ 15) (s := taken s) (by simpa using hactive)
      (by rwa [slotAt_taken])
    dsimp only
    rw [hopen, if_neg (by simp; omega)]
  · refine (Opens.plain hgate hready rfl fun _ => rfl).ack (fun _ => rfl) ?_
    have hopen := fwOpen_of_active (size := arg / 2 % 2 ^ 15) (s := taken s) (by simpa using hactive)
    dsimp only
    rw [hopen, if_neg (by simp; omega)]
  · refine (Opens.payload hgate hready rfl hws fun _ => rfl).ack (fun _ => rfl) ?_
    rw [fwWrite_of_room hopen hroom]
  · refine (Opens.plain hgate hready rfl fun _ => rfl).bg (fun _ => rfl) ?_
    rw [fwStartCheck_of_open ((openSlot_taken s).trans hopen), slotAt_taken]
  · refine (Opens.plain hgate hready rfl fun _ => rfl).ack (fun _ => rfl) ?_
    rw [slotAt_taken, if_neg (by simp [hvalid]), if_pos hoff, fwSwitch, if_neg Bool.false_ne_true, taken_mb]
  · refine (Opens.plain hgate hready rfl fun _ => rfl).wait (fun _ => rfl) ?_
    rw [slotAt_taken, if_neg (by simp [hvalid]), if_neg (by omega)]
  · refine (Opens.plain hgate hready rfl fun _ => rfl).ack (fun _ => rfl) ?_
    simp only [slotAt_taken]
    exact answerWith_of_drawer _ _ hfab

/-! ### The partition, the return and the snapshots -/

theorem relayed_taken (op : Nat) (b : BoxId) (arg : Nat) (s : State) : relayed op b arg (taken s) =
    { openOp op b arg false (taken s) with
      mb := { (openOp op b arg false (taken s)).mb with relays := s.mb.relays ++ [(op, arg, b)] } } := by
  rw [← taken_mb s]
  rfl

theorem exec_meterNote_of_headReady {notice : Nat} {s : State} (h : headReady s .meter 0x9F0 notice = true) :
    exec (.meterNote notice) s = .next (bcsMeterNote .meter notice (taken s)) :=
  congrArg Host.Outcome.next (runMsg_masked_of_headReady (bcsMeterNote .meter) h)

/-- Settles O29. -/
theorem bcsMeterAndReturnRows : Obligations.BcsMeterAndReturnRows := by
  unfold Obligations.BcsMeterAndReturnRows
  refine ⟨fun b arg s hready hgate => ?_, fun b arg s hready hgate => ?_, fun b arg s hready hgate => ?_,
    fun b arg s hready hgate => ?_, fun b arg s hready hgate => ?_, fun notice s hready => ?_,
    fun b arg s hready hgate => ?_, fun b arg s hready hgate hnone => ?_, fun b arg x s hready hgate hsome => ?_⟩
  · rw [← relayed_taken]
    exact (Opens.plain hgate hready rfl fun _ => rfl).wait (body := fun _ u => .wait (relayed _ _ _ u)) (fun _ => rfl) rfl
  · rw [← relayed_taken]
    exact (Opens.plain hgate hready rfl fun _ => rfl).wait (body := fun _ u => .wait (relayed _ _ _ u)) (fun _ => rfl) rfl
  · rw [← relayed_taken]
    exact (Opens.plain hgate hready rfl fun _ => rfl).wait (body := fun _ u => .wait (relayed _ _ _ u)) (fun _ => rfl) rfl
  · rw [← relayed_taken]
    exact (Opens.plain hgate hready rfl fun _ => rfl).wait (body := fun _ u => .wait (relayed _ _ _ u)) (fun _ => rfl) rfl
  · rw [← relayed_taken]
    exact (Opens.plain hgate hready rfl fun _ => rfl).wait (body := fun _ u => .wait (relayed _ _ _ u)) (fun _ => rfl) rfl
  · rw [exec_meterNote_of_headReady hready, bcsMeterNote, if_neg (by decide)]
  · refine (Opens.plain hgate hready rfl fun _ => rfl).wait (fun _ => rfl) ?_
    simp only [taken_evr, taken_pst]
  · refine (Opens.plain hgate hready rfl fun _ => rfl).ack (fun _ => rfl) ?_
    rw [taken_pw, hnone]
  · refine (Opens.plain hgate hready rfl fun _ => rfl).ack (fun _ => rfl) ?_
    rw [taken_pw, hsome]
    exact answerWith_of_drawer _ _ (ne_fabric_of_gate hgate rfl)

end Sys2Proof.Machine
end

section
/-! What ends in the background (O31), and the key and trust commands (O32). -/

set_option Elab.async false

namespace Sys2Proof.Machine

/-! ### Completions -/

theorem cxlBox_with_bg_none {c : CxlBox} (h : c.bg = none) : { c with bg := none } = c := by
  rw [← h]

/-- Settles O31. -/
theorem completionRows : Obligations.CompletionRows := by
  unfold Obligations.CompletionRows
  refine ⟨fun version sec n s hslot hsec => ?_, fun sig size version sec n s hslot hbad => ?_,
    fun s hformat hidle => ?_, fun s hsan hidle hA hB => ?_⟩
  · change execFwCheckDone true true version sec s = _
    simp only [execFwCheckDone, hslot, hsec, decide_true, Bool.and_true, if_true]
    rfl
  · have hnot : (sig && size && decide (s.mb.minSec ≤ sec)) = false := by
      rcases hbad with rfl | rfl | hlt
      · rfl
      · simp
      · simp [hlt]
    change execFwCheckDone sig size version sec s = _
    simp only [execFwCheckDone, hslot, hnot, Bool.false_eq_true, if_false]
    rfl
  · change execFormatDone s = _
    rw [execFormatDone, if_pos (by simp [hformat, hidle])]
  · change execSanitizeDone s = _
    rw [execSanitizeDone, if_neg (by simp [hsan, hidle])]
    simp only [hA, hB, cxlBox_with_bg_none]

/-! ### Key commands -/

/-- In Belvy's service a key command whose first checks pass runs its body (R454). -/
theorem keyCommand_of_passed {snd : Sender} {op : Nat} {body : State → Nat × List Word × State} {s : State}
    (hmp : mpRuns s = true) (hsnd : snd ≠ .mp) :
    keyCommand snd op none body s = spdmReply snd op (body s).1 (body s).2.1 (body s).2.2 := by
  rw [keyCommand, if_neg (by simp [hmp, hsnd])]

theorem keyCommand_of_refused {snd : Sender} {op rc : Nat} {body : State → Nat × List Word × State} {s : State}
    (hmp : mpRuns s = true) (hsnd : snd ≠ .mp) : keyCommand snd op (some rc) body s = spdmReply snd op rc [] s := by
  rw [keyCommand, if_neg (by simp [hmp, hsnd])]

theorem materialOf_append {ws : List Word} (h : ws.length = 8) (w : Word) : materialOf (ws ++ [w]) = materialOf ws := by
  rw [materialOf, materialOf, ← h, List.take_left, List.take_length]

/-- A check value stands in the low half of its word, whose high half is zero. -/
theorem kcvWord_high (k : BitVec 32) : (k.setWidth 64).toNat / 2 ^ 32 = 0 := by
  rw [BitVec.toNat_setWidth]
  have := k.isLt
  omega

theorem kcvWord_low (k : BitVec 32) : (k.setWidth 64).setWidth 32 = k :=
  BitVec.setWidth_setWidth_of_le k (by decide)

theorem execKeyInstall_of_empty {snd : Sender} {arg : Nat} {ws : List Word} {s : State} (hmp : mpRuns s = true)
    (hsnd : snd ≠ .mp)
    (hcheck : keyCheck snd arg 13 true (ws ++ [(kcvOf (materialOf ws)).setWidth 64]) 9 9 (keySession s snd) s = none)
    (hlen : ws.length = 8) (hempty : keyOf s (arg % 4096) = none) :
    execKeyInstall snd arg (ws ++ [(kcvOf (materialOf ws)).setWidth 64]) s =
      .next (spdmReply snd 0x200 0 [] { s with sec := { s.sec with
        kids := Table.put s.sec.kids (arg % 4096) { st := .installed, integrity := decide (arg / 4096 % 2 = 1),
                                                    material := materialOf ws, kcv := kcvOf (materialOf ws) } } }) := by
  have hword : nthD (ws ++ [(kcvOf (materialOf ws)).setWidth 64]) 8 0 = (kcvOf (materialOf ws)).setWidth 64 := by
    simp [nthD, ← hlen]
  rw [execKeyInstall, hcheck, keyCommand_of_passed hmp hsnd]
  simp only [hempty, Option.isSome_none, Bool.false_eq_true, if_false, materialOf_append hlen, hword, kcvWord_high,
    kcvWord_low, ne_eq, not_true_eq_false]

theorem execKeyRekey_of_installed {snd : Sender} {arg : Nat} {payload : List Word} {k t : KeySlot} {s : State}
    (hmp : mpRuns s = true) (hsnd : snd ≠ .mp) (hcheck : keyCheck snd arg 24 true payload 1 16 (keySession s snd) s = none)
    (hk : keyOf s (arg % 4096) = some k) (hst : k.st = .installed) (hne : arg % 4096 ≠ arg / 4096 % 4096)
    (ht : keyOf s (arg / 4096 % 4096) = some t) (htst : t.st = .installed) (hmode : t.integrity = k.integrity)
    (hranges : (payload.map rangeOf).all rangeOk = true) (hfree : s.sec.rekey = none) :
    execKeyRekey snd arg payload s = .next (spdmReply snd 0x203 1 [] (openKeyOp snd 0x203 arg
      { setKeySt (arg % 4096) .rekeying (some (snd, tagOf s snd 0x203)) s with
        sec := { (setKeySt (arg % 4096) .rekeying (some (snd, tagOf s snd 0x203)) s).sec with
          rekey := some { source := arg % 4096, target := arg / 4096 % 4096, ranges := payload.map rangeOf },
          rekeyReg := (arg % 4096, arg / 4096 % 4096, 0, 0) } })) := by
  have htarget : (decide (arg % 4096 = arg / 4096 % 4096) ||
      !(some t).any (fun t => t.st == .installed && t.integrity == k.integrity)) = false := by
    simp [hne, htst, hmode]
  rw [execKeyRekey, hcheck, keyCommand_of_passed hmp hsnd]
  dsimp only
  rw [hk, ht]
  dsimp only
  rw [if_neg (not_not_intro hst), if_neg (by rw [htarget]; exact Bool.false_ne_true), if_neg (by rw [hranges]; decide),
    if_neg (by simp [hfree])]

theorem execKeyRetireDone_of_clear {kid : Nat} {k : KeySlot} {s : State} (hk : keyOf s kid = some k)
    (hst : k.st ≠ .installed) (hidle : retiring s kid = false) (hrekey : s.sec.rekey.any (fun r => r.source == kid) = false) :
    execKeyRetireDone kid s = .next (returnCheck (endOps 0x203 (fun o => o.arg % 4096 == kid) 0
      (endOps 0x202 (fun o => o.arg % 4096 == kid) 0 { invalidateKid kid s with
        sec := { (invalidateKid kid s).sec with kids := Table.del (invalidateKid kid s).sec.kids kid } }))) := by
  rw [execKeyRetireDone, hk]
  dsimp only
  rw [hidle, hrekey, if_neg (by simp [hst])]

/-- Settles O32. -/
theorem keyRows : Obligations.KeyRows := by
  unfold Obligations.KeyRows
  refine ⟨fun snd arg ws s => execKeyInstall_of_empty, fun snd arg payload k s hmp hsnd hcheck hk => ?_,
    fun snd arg s hmp hsnd hcheck => ?_, fun snd arg k s hmp hsnd hcheck hk hst => ?_,
    fun snd arg payload k t s => execKeyRekey_of_installed, fun snd arg rc s hmp hsnd hcheck => ?_,
    fun snd arg payload s hmp hsnd hcheck hkm => ?_, fun snd arg payload s hmp hsnd hcheck hpool => ?_,
    fun snd arg s hmp hsnd hcheck hkm => ?_, fun snd arg s hmp hsnd hcheck hpool => ?_,
    fun kid k s => execKeyRetireDone_of_clear, fun kid k s hk hwait => ?_, fun snd auth root s hsnd => ?_,
    fun snd auth root s hsnd => ?_⟩
  · change execKeyInstall snd arg payload s = _
    rw [execKeyInstall, hcheck, keyCommand_of_passed hmp hsnd]
    simp only [hk, Option.isSome_some, if_true]
  · change execKeyQuery snd arg s = _
    rw [execKeyQuery, hcheck, keyCommand_of_passed hmp hsnd]
  · change execKeyRetire snd arg s = _
    rw [execKeyRetire, hcheck, keyCommand_of_passed hmp hsnd]
    simp only [hk, hst, ne_eq, not_true_eq_false, if_false]
  · change execKeyQuery snd arg s = _
    rw [execKeyQuery, hcheck, keyCommand_of_refused hmp hsnd]
  · change execTrustAdd snd arg payload s = _
    rw [execTrustAdd, hcheck, keyCommand_of_passed hmp hsnd]
    simp only [if_pos hkm]
  · change execTrustAdd snd arg payload s = _
    rw [execTrustAdd, hcheck, keyCommand_of_passed hmp hsnd]
    simp only [hpool, Nat.one_ne_zero, if_false]
  · change execTrustRemove snd arg s = _
    rw [execTrustRemove, hcheck, keyCommand_of_passed hmp hsnd]
    simp only [if_pos hkm]
  · change execTrustRemove snd arg s = _
    rw [execTrustRemove, hcheck, keyCommand_of_passed hmp hsnd]
    simp only [hpool, Nat.one_ne_zero, if_false]
  · change execKeyRetireDone kid s = _
    rw [execKeyRetireDone, hk]
    exact congrArg _ (if_pos (by simpa [or_assoc] using hwait))
  · change execSecuredSpdmSession snd true auth root s = _
    simp only [execSecuredSpdmSession, if_neg hsnd, if_true]
  · change execSecuredSpdmSession snd false auth root s = _
    simp only [execSecuredSpdmSession, if_neg hsnd, Bool.false_eq_true, if_false]

end Sys2Proof.Machine
end

section
/-! LPDDR6 upkeep (O17), the TAP (O18), the recorder (O19), the parameter store (O20), the counters and the trace
buffer (O21). -/

set_option Elab.async false

namespace Sys2Proof.Machine

/-! ### LPDDR6 -/

theorem execBankRefreshDue_of_place {ch rank bank : Nat} {s : State} (hself : s.dram.selfRef = false) (hch : ch < 16)
    (hrank : rank < 2) (hbank : bank < 16) : execBankRefreshDue ch rank bank s = .next (
      if hostReads s (bankKey ch rank bank) && (bankAt s (bankKey ch rank bank)).postponed < 8 then
        putBank (bankKey ch rank bank)
          { bankAt s (bankKey ch rank bank) with postponed := (bankAt s (bankKey ch rank bank)).postponed + 1 } s
      else putBank (bankKey ch rank bank) { bankAt s (bankKey ch rank bank) with marked := true } s) := by
  rw [execBankRefreshDue, if_neg (by simp [hself, hch, hrank, hbank])]

/-- Settles O17. -/
theorem lpddr6Upkeep : Obligations.Lpddr6Upkeep := by
  unfold Obligations.Lpddr6Upkeep
  refine ⟨fun ch rank bank s hself hch hrank hbank hhost hpost => ?_,
    fun ch rank bank s hself hch hrank hbank hmark => ?_, fun ch rank bank s hmarked hidle hreads hpartner => ?_,
    fun ch s hself hch hcalled => ?_, fun ch s hch hcalled hfree => ?_,
    fun ch rank s htimer hch hrank hself hidle hup => ?_⟩
  · change execBankRefreshDue ch rank bank s = _
    rw [execBankRefreshDue_of_place hself hch hrank hbank, if_pos (by simp [hhost, hpost])]
  · change execBankRefreshDue ch rank bank s = _
    rw [execBankRefreshDue_of_place hself hch hrank hbank, if_neg ?_]
    rcases hmark with hhost | hpost
    · simp [hhost]
    · simp [hpost]
  · change execBankRefreshStart ch rank bank s = _
    simp only [execBankRefreshStart, hmarked, hidle, hreads, hpartner, Option.isSome_none, Bool.not_true, Bool.or_self,
      Bool.false_eq_true, if_false]
  · change execDqsTrack ch s = _
    rw [execDqsTrack, if_neg (by simp [hself, hch, hcalled])]
  · change execChannelRetrain ch s = _
    have hstart : (anyTraining s && !(chanAt s ch).training) = false := by
      rcases hfree with hnone | hits
      · rw [hnone, Bool.false_and]
      · rw [hits, Bool.not_true, Bool.and_false]
    exact congrArg _ (if_neg (by simp [hch, hcalled, hstart]))
  · change execRankPowerDown ch rank s = _
    rw [execRankPowerDown, if_neg (by simp [htimer, hch, hrank, hself, hidle])]
    simp only [hup, Bool.false_eq_true, if_false]

/-! ### The TAP -/

/-- Scan power needs Standby, in which the TAP is powered (R586). -/
theorem tapRuns_of_scanMay {s : State} (h : scanMay s = true) : tapRuns s = true := by
  have hphase : s.pw.phase = .standby := by
    simpa using (Bool.and_eq_true_iff.mp h).1
  simp [tapRuns, hphase]

theorem driveNow_of_scanMay {act : State → State} {s : State} (h : scanMay s = true) :
    driveNow act s = act (enterScan s) := by
  rw [driveNow, if_neg (by simp [tapRuns_of_scanMay h]), if_pos h]

theorem driveNow_of_not_scanMay {act : State → State} {s : State} (hruns : tapRuns s = true) (h : scanMay s = false) :
    driveNow act s = bypassNow s := by
  rw [driveNow, if_neg (by simp [hruns]), if_neg (by simp [h])]

/-- Settles O18. -/
theorem boundaryScan : Obligations.BoundaryScan := by
  unfold Obligations.BoundaryScan
  refine ⟨fun s h => congrArg _ (driveNow_of_scanMay h), fun s h => congrArg _ (driveNow_of_scanMay h),
    fun s h => congrArg _ (driveNow_of_scanMay h), fun s h => congrArg _ (driveNow_of_scanMay h),
    fun s h => congrArg _ (driveNow_of_scanMay h), fun c s hc hruns hscan => ?_, fun s hruns => congrArg _ (if_pos hruns),
    fun s hruns => congrArg _ (if_pos hruns), fun s hruns => congrArg _ (if_pos hruns),
    fun s hruns => congrArg _ (if_pos hruns), fun code s hruns hopen hlo hhi => ?_, fun code s hruns hshut => ?_,
    fun s hruns hreturn => congrArg _ (if_pos (by simp [hruns, hreturn]))⟩
  · simp only [List.mem_cons, List.not_mem_nil, or_false] at hc
    rcases hc with rfl | rfl | rfl | rfl | rfl
    all_goals exact congrArg Host.Outcome.next (driveNow_of_not_scanMay hruns hscan)
  · change execPrivateInstruction code s = _
    rw [execPrivateInstruction, if_neg (by simp [hruns]), if_pos (by simp [hopen, hlo, hhi])]
    rfl
  · change execPrivateInstruction code s = _
    rw [execPrivateInstruction, if_neg (by simp [hruns]), if_neg (by grind)]
    rfl

/-! ### The recorder -/

/-- Writing a record leaves the waiting events as they were (R572). -/
theorem writeRecord_queue (e : Event) (s : State) : (writeRecord e s).evr.queue = s.evr.queue := by
  have hstore : (storeRepeat s).evr.queue = s.evr.queue := by
    unfold storeRepeat
    split <;> rfl
  exact hstore

theorem drainUpTo_of_empty (n : Nat) {s : State} (h : s.evr.queue = []) : drainUpTo n s = s := by
  induction n with
  | zero => rfl
  | succ n ih => rw [drainUpTo, drainOne, h, ih]

theorem drainOne_of_room {e : Event} {es : List Event} {s : State} (hq : s.evr.queue = e :: es)
    (hfrozen : s.evr.frozen = false) (hnewest : newest s = none) (hroom : recentCount s < 12) :
    drainOne s = writeRecord e { s with evr := { s.evr with queue := es } } := by
  simp only [drainOne, hq, hfrozen, hnewest, Bool.false_eq_true, if_false, if_pos hroom]

/-- Settles O19. -/
theorem recorderRows : Obligations.RecorderRows := by
  unfold Obligations.RecorderRows
  refine ⟨fun snd s => rfl, fun snd s => rfl, fun e s hq hfrozen hnewest hroom => ?_, fun s hfrozen hkept => ?_⟩
  · change Host.Outcome.next (drainUpTo 64 s) = _
    rw [drainUpTo, drainOne_of_room hq hfrozen hnewest hroom, drainUpTo_of_empty _ (writeRecord_queue ..)]
  · exact congrArg _ (if_pos (by simp [hfrozen, hkept]))

/-! ### The parameter store -/

theorem execPstProgram_of_idle {snd : Sender} {count : Nat} {s : State} (hjob : (pstPort snd s).job = none)
    (huser : userPage (pstPort snd s).page = true) (busy : Bool)
    (hbank : s.pst.busy.contains ((pstPort snd s).page / 1024) = busy) : execPstProgram snd count s = .next (
      let job : PstJob := { page := (pstPort snd s).page, word := (pstPort snd s).word,
                            vals := stagedWords (pstPort snd s) (count % 64 + 1) }
      bif busy then setPstPort snd { pstPort snd s with job := some (job, false) } s
      else
        let t := setPstPort snd { pstPort snd s with job := some (job, true) } s
        { t with pst := { t.pst with busy := (pstPort snd s).page / 1024 :: t.pst.busy } }) := by
  subst hbank
  simp only [execPstProgram, hjob, huser, Option.isSome_none, Bool.not_true, Bool.false_eq_true, if_false, cond_eq_ite]

/-- No port's program waits. -/
def noneWaits (s : State) : Bool := s.pst.ports.all (fun p => p.job.all (fun x => x.2))

/-- Ending the write in progress in a bank makes no program wait. -/
theorem noneWaits_pstFinish {bank : Nat} {s : State} (h : noneWaits s = true) : noneWaits (pstFinish bank s) = true := by
  unfold pstFinish
  refine List.foldlRecOn (motive := fun u => noneWaits u = true) _ _ h fun u hu x _ => ?_
  split
  · split
    · simp only [noneWaits, List.all_eq_true] at hu ⊢
      intro p hp
      rcases List.mem_or_eq_of_mem_set hp with hp | rfl
      · exact hu p hp
      · rfl
    · exact hu
  · exact hu

theorem pstStartNext_of_noneWaits {bank : Nat} {s : State} (h : noneWaits s = true) : pstStartNext bank s = s := by
  have hnone : s.pst.ports.findIdx? (fun p => match p.job with
      | some (j, false) => decide (j.page / 1024 = bank)
      | _ => false) = none := by
    rw [List.findIdx?_eq_none_iff]
    intro p hp
    have hjob := List.all_eq_true.mp h p hp
    split
    next heq => simp [heq] at hjob
    next => rfl
  unfold pstStartNext
  split
  next => rfl
  next heq => cases hnone.symm.trans heq

/-- Settles O20. -/
theorem parameterStoreRows : Obligations.ParameterStoreRows := by
  unfold Obligations.ParameterStoreRows
  refine ⟨fun snd count s hjob huser hbank => execPstProgram_of_idle hjob huser false hbank,
    fun snd count s hjob huser hbank => execPstProgram_of_idle hjob huser true hbank, fun snd count s hjob => ?_,
    fun snd count s hjob huser => ?_, fun bank s hbusy hnone => ?_, fun snd corrected s huser => ?_,
    fun snd word s => rfl, fun s hmode => congrArg _ (if_pos hmode)⟩
  · exact congrArg _ (if_pos (Option.isSome_iff_ne_none.mpr hjob))
  · change execPstProgram snd count s = _
    rw [execPstProgram, if_neg (by simp [hjob]), if_pos (by simp [huser])]
  · change execPstWriteDone bank s = _
    rw [execPstWriteDone, if_pos hbusy]
    exact congrArg _ (pstStartNext_of_noneWaits (noneWaits_pstFinish (bank := bank) hnone))
  · exact congrArg _ (if_pos huser)

/-! ### The counters and the trace buffer -/

/-- Settles O21: the three meanings, in which the cursors' operations are written out. -/
theorem counterAndTraceRows : Obligations.CounterAndTraceRows := by
  unfold Obligations.CounterAndTraceRows
  exact ⟨fun _ _ _ => rfl, fun _ _ => rfl, fun _ _ => rfl⟩

end Sys2Proof.Machine
end

section
/-! Re-encryption and IDE (O33) and the CXL mailbox's commands (O34, O35). -/

set_option Elab.async false

namespace Sys2Proof.Machine

/-! ### Re-encryption and IDE -/

theorem port_alarm (bit : Nat) (s : State) (p : Port) : (alarm bit s).port p = s.port p := by
  cases p
  · exact alarm_frame .portA (by decide)
  · exact alarm_frame .portB (by decide)

theorem port_event (kind : EvKind) (source : Nat) (args : List Nat) (s : State) (p : Port) :
    (event kind source args s).port p = s.port p := by
  cases p
  · exact event_frame .portA (by decide)
  · exact event_frame .portB (by decide)

/-- Settles O33: raising the alarm and the event leaves the port's width, so a port with a link loses it. -/
theorem reencryptionRows : Obligations.ReencryptionRows := by
  unfold Obligations.ReencryptionRows
  refine ⟨fun seg w s hphase hbusy hwalk => ?_, fun seg w s hwalk hdone => ?_, fun w ws s hqueued hfew => ?_,
    fun p s hsession hwidth => congrArg _ (if_pos (by simp [hsession, hwidth])), fun p s hide => congrArg _ (if_pos hide),
    fun p s hide hwidth => ?_⟩
  · change execReencStep seg s = _
    rw [execReencStep, if_neg (by simp [hphase, hbusy]), hwalk]
  · change execReencDone seg s = _
    simp only [execReencDone, hwalk, hdone, Bool.not_true, Bool.false_eq_true, if_false]
  · change execReencQueueStart s = _
    simp only [execReencQueueStart, hqueued]
    rw [if_neg (by omega)]
  · change execIdeIntegrityFailure p s = _
    rw [execIdeIntegrityFailure, if_neg (by simp [hide])]
    refine congrArg _ (if_neg ?_)
    rw [port_alarm, port_event]
    cases p <;> exact hwidth

/-! ### The CXL mailbox -/

theorem cxlCmd_of_up {s : State} (h : cxlUp s = true) (f : State → State) : cxlCmd f s = f s := if_pos h

theorem cxlClamp_of_holds {p : Port} {n : Nat} {s : State} (h : holds p.sender n s = true) (op : Nat)
    (f : State → State) : cxlClamp p op n f s = f s := if_pos h

theorem cxlMem_of_serving {s : State} (h : serving s = true) (p : Port) (op : Nat) (f : State → State) :
    cxlMem p op f s = f s := if_pos h

theorem cxlMem_of_not_serving {s : State} (h : serving s = false) (p : Port) (op : Nat) (f : State → State) :
    cxlMem p op f s = cxlAns p op 6 [] s := if_neg (by simp [h])

theorem cxlBackground_of_idle {p : Port} {s : State} (h : bgRuns p s = false) (op : Nat) (f : State → State) :
    cxlBackground p op f s = cxlAns p op 1 [] (f (s.setCxl p { s.cxl p with bg := some (op, false) })) :=
  if_neg (by simp [h])

/-- Settles O34. -/
theorem cxlInformationRows : Obligations.CxlInformationRows := by
  unfold Obligations.CxlInformationRows
  refine ⟨fun p s hup => congrArg _ (cxlCmd_of_up hup _), fun p op done s hup hbg => ?_, fun p s hup hbg => ?_,
    fun p log s hup => congrArg _ (cxlCmd_of_up hup _), fun p log s hup => congrArg _ (cxlCmd_of_up hup _),
    fun p log hs s hup hne hall => ?_, fun p log hs s hup hall => ?_, fun p s hup => congrArg _ (cxlCmd_of_up hup _),
    fun p policy s hup hlen hall => ?_, fun p s hup => congrArg _ (cxlCmd_of_up hup _),
    fun p s hup => congrArg _ (cxlCmd_of_up hup _), fun p t s hup => congrArg _ (cxlCmd_of_up hup _),
    fun p s hup => congrArg _ (cxlCmd_of_up hup _), fun p s hup => congrArg _ (cxlCmd_of_up hup _),
    fun p s hup => congrArg _ (cxlCmd_of_up hup _), fun p s hup => congrArg _ (cxlCmd_of_up hup _),
    fun p s hup => congrArg _ (cxlCmd_of_up hup _), fun p s hup => congrArg _ (cxlCmd_of_up hup _),
    fun p cfg s hup => congrArg _ (cxlCmd_of_up hup _), fun p s hup => congrArg _ (cxlCmd_of_up hup _),
    fun p dirty s hup => congrArg _ (cxlCmd_of_up hup _), fun p s hup => congrArg _ (cxlCmd_of_up hup _)⟩
  · change execCxlBackgroundStatus p s = _
    simp only [execCxlBackgroundStatus, cxlCmd_of_up hup, hbg]
  · change execCxlBackgroundStatus p s = _
    simp only [execCxlBackgroundStatus, cxlCmd_of_up hup, hbg]
  · change execCxlClearEventRecords p log hs s = _
    have hsome : hs.isEmpty = false := by simpa using hne
    simp only [execCxlClearEventRecords, cxlCmd_of_up hup, hall, hsome, if_true, Bool.false_eq_true, if_false]
  · change execCxlClearEventRecords p log hs s = _
    simp only [execCxlClearEventRecords, cxlCmd_of_up hup, hall, Bool.false_eq_true, if_false]
  · change execCxlSetEventIntPolicy p policy s = _
    rw [execCxlSetEventIntPolicy, cxlCmd_of_up hup, if_pos (by simp [hlen, hall])]

/-- Transfer FW once the mailbox is up, clamp 0 is held and nothing runs in the background. -/
theorem execCxlTransferFw_of_admitted {p : Port} {s : State} (hup : cxlUp s = true)
    (hclamp : holds p.sender 0 s = true) (hbg : bgRuns p s = false) (slot off : Nat) (ws : List Word) :
    execCxlTransferFw p 1 slot off ws s = .next (
      if (cxlOpen slot s).1 = 0 then
        cxlAns p 0x0201 (cxlData off ws (cxlOpen slot s).2).1 [] (cxlData off ws (cxlOpen slot s).2).2
      else cxlAns p 0x0201 (cxlOpen slot s).1 [] s) ∧
    execCxlTransferFw p 2 slot off ws s = .next (cxlAns p 0x0201 (cxlData off ws s).1 [] (cxlData off ws s).2) ∧
    execCxlTransferFw p 3 slot off ws s = .next (cxlEnd p off ws s) ∧
    execCxlTransferFw p 4 slot off ws s = .next (match openSlot s with
      | some n => cxlAns p 0x0201 0 [] (setSlot n {} s)
      | none => cxlAns p 0x0201 9 [] s) := by
  have hidle : ¬(bgRuns p s = true) := by simp [hbg]
  refine ⟨?_, ?_, ?_, ?_⟩ <;> rw [execCxlTransferFw, cxlCmd_of_up hup, cxlClamp_of_holds hclamp, if_neg hidle] <;> rfl

theorem cxlOpen_of_free {slot : Nat} {s : State} (hslot : slot = 1 ∨ slot = 2) (h : (fwOpen (slot - 1) 4096 s).1 = 0) :
    cxlOpen slot s = (0, (fwOpen (slot - 1) 4096 s).2) := by
  have hrange : ¬((decide (slot = 0) || decide (2 < slot)) = true) := by
    rcases hslot with rfl | rfl <;> decide
  rw [cxlOpen, if_neg hrange]
  exact congrArg (·, _) (if_pos h)

/-- Activate FW of a valid slot once the mailbox is up and clamp 0 is held. -/
theorem execCxlActivateFw_of_valid {p : Port} {slot : Nat} {s : State} (hup : cxlUp s = true)
    (hclamp : holds p.sender 0 s = true) (hslot : slot = 1 ∨ slot = 2) (hvalid : (slotAt s (slot - 1)).state = 3)
    (online : Bool) : execCxlActivateFw p slot online s = .next (
      if !online then cxlAns p 0x0202 0 [] (fwSwitch (slot - 1) false s)
      else if s.mb.fwRestart.isSome || !s.mb.mpReady then cxlAns p 0x0202 6 [] s
      else fwSwitch (slot - 1) true (s.setCxl p { s.cxl p with actWait := true })) := by
  rw [execCxlActivateFw, cxlCmd_of_up hup, cxlClamp_of_holds hclamp, if_neg ?_]
  rcases hslot with rfl | rfl <;> simpa using hvalid

/-- A poison command reaches its line through a window with WR and a key ID that serves. -/
theorem poisonTarget_of_permitted {p : Port} {dpa : Nat} {d : Decoded} {s : State}
    (hd : decodeDpa (s.port p) dpa = some d) (hwr : d.wr = true) (hkvalid : d.kvalid = true)
    (hkid : keyServes s d.kid = true) (op : Nat) (f : Decoded → State → State) : poisonTarget p op dpa f s = f d s := by
  simp only [poisonTarget, hd, hwr, hkvalid, hkid, Bool.and_self, if_true]

theorem cxlErase_of_free {p : Port} {s : State} (hbar : eraseBar s = none) (hbg : bgRuns p s = false) (op kind : Nat) :
    cxlErase p op kind s =
      cxlAns p op 1 [] (startSanitize kind (s.setCxl p { s.cxl p with bg := some (op, false) })) := by
  rw [cxlErase, hbar]
  exact cxlBackground_of_idle hbg _ _

/-- Settles O35. -/
theorem cxlMemoryRows : Obligations.CxlMemoryRows := by
  unfold Obligations.CxlMemoryRows
  refine ⟨fun p slot off ws s hup hclamp hbg hopen => ?_, fun p slot off ws s hup hclamp hbg hslot hfw => ?_,
    fun p slot off ws s hup hclamp hbg => (execCxlTransferFw_of_admitted hup hclamp hbg slot off ws).2.1,
    fun p slot off ws s hup hclamp hbg => (execCxlTransferFw_of_admitted hup hclamp hbg slot off ws).2.2.1,
    fun p slot s hup hclamp hslot hvalid => execCxlActivateFw_of_valid hup hclamp hslot hvalid false,
    fun p slot s hup hclamp hslot hvalid hrestart hready => ?_, fun p off len s hup hserving hlen => ?_,
    fun p off bytes s hup hserving hlen => ?_, fun p dpa len s hup hserving => ?_,
    fun p dpa d s hup hserving hd hwr hkvalid hkid hhome => ?_,
    fun p dpa data d s hup hserving hd hwr hkvalid hkid hhome => ?_,
    fun p s hup hclamp hserving hscan hbg => ?_, fun p s hup hserving hscan => ?_, fun p s hup hclamp hbar hbg => ?_,
    fun p s hup hclamp hbar hbg => ?_, fun p off len s hup hserving => ?_⟩
  · obtain ⟨n, hn⟩ := Option.isSome_iff_exists.mp hopen
    refine (execCxlTransferFw_of_admitted hup hclamp hbg slot off ws).2.2.2.trans ?_
    rw [hn]
    rfl
  · refine (execCxlTransferFw_of_admitted hup hclamp hbg slot off ws).1.trans ?_
    rw [cxlOpen_of_free hslot hfw]
    rfl
  · refine (execCxlActivateFw_of_valid hup hclamp hslot hvalid true).trans ?_
    simp only [hrestart, hready, Option.isSome_none, Bool.not_true, Bool.or_self, Bool.false_eq_true, if_false]
  · change execCxlGetLsa p off len s = _
    rw [execCxlGetLsa, cxlCmd_of_up hup, cxlMem_of_serving hserving, if_neg (by omega)]
  · change execCxlSetLsa p off bytes s = _
    rw [execCxlSetLsa, cxlCmd_of_up hup, cxlMem_of_serving hserving, if_neg (by omega)]
    cases p <;> rfl
  · change execCxlGetPoisonList p dpa len s = _
    rw [execCxlGetPoisonList, cxlCmd_of_up hup, cxlMem_of_serving hserving]
  · change execCxlInjectPoison p dpa s = _
    rw [execCxlInjectPoison, cxlCmd_of_up hup, cxlMem_of_serving hserving,
      poisonTarget_of_permitted hd hwr hkvalid hkid, if_pos hhome]
  · change execCxlClearPoison p dpa data s = _
    rw [execCxlClearPoison, cxlCmd_of_up hup, cxlMem_of_serving hserving,
      poisonTarget_of_permitted hd hwr hkvalid hkid, if_pos hhome]
  · change execCxlScanMedia p s = _
    rw [execCxlScanMedia, cxlCmd_of_up hup, cxlClamp_of_holds hclamp, cxlMem_of_serving hserving,
      if_neg (by simp [hscan]), cxlBackground_of_idle hbg]
    cases p <;> rfl
  · change execCxlScanMediaResults p s = _
    rw [execCxlScanMediaResults, cxlCmd_of_up hup, cxlMem_of_serving hserving, if_neg (by simp [hscan])]
  · change execCxlSanitize p s = _
    rw [execCxlSanitize, cxlCmd_of_up hup, cxlClamp_of_holds hclamp, cxlErase_of_free hbar hbg]
  · change execCxlSecureErase p s = _
    rw [execCxlSecureErase, cxlCmd_of_up hup, cxlClamp_of_holds hclamp, cxlErase_of_free hbar hbg]
  · change execCxlGetLsa p off len s = _
    rw [execCxlGetLsa, cxlCmd_of_up hup, cxlMem_of_not_serving hserving]

end Sys2Proof.Machine
end

section
/-! The clamps (O36), the host ports (O37) and the power supervisor (O38). -/

set_option Elab.async false

namespace Sys2Proof.Machine

/-! ### The clamps -/

theorem acquire_of_held {n : Nat} {s : State} (h : (nthD s.mb.clamps n {}).owner ≠ 0) (readers : List Sender) :
    acquire n readers s = s := by
  simp only [acquire, h, if_false]
  split <;> rfl

/-- Settles O36. -/
theorem clampRows : Obligations.ClampRows := by
  unfold Obligations.ClampRows
  refine ⟨fun n i readers s hwinner hfree => ?_, fun n readers s hheld => ?_, fun n readers s => rfl,
    fun snd n s hholds => exec_clampRelease_of_holds hholds, fun snd n s hnot => congrArg Host.Outcome.next (if_neg (by simp [hnot])),
    fun n s hheld => ?_, fun snd n s hne => congrArg Host.Outcome.next (if_neg hne), fun s => rfl⟩
  · change execClampRead n readers false s = _
    simp only [execClampRead, Bool.false_eq_true, if_false, acquire_of_free hwinner hfree]
  · change execClampRead n readers false s = _
    simp only [execClampRead, Bool.false_eq_true, if_false, acquire_of_held hheld]
  · change execClampForce .sideband n s = _
    rw [execClampForce, if_pos rfl, if_neg hheld]
    rfl

/-! ### The host ports -/

theorem linkLost_of_up {p : Port} {s : State} (h : (s.port p).width ≠ 0) :
    linkLost p s = event .hostLinkLost p.ix [p.ix] (portDown p s) := if_neg h

/-- A new fault of a lane of a link that is up: the lanes left carry it, or it is lost (R404). -/
theorem execHostLaneFault_of_used {p : Port} {lane : Nat} {s : State} (hup : (s.port p).width ≠ 0) (hlane : lane < 16)
    (hsound : (s.port p).faults / 2 ^ lane % 2 ≠ 1) : execHostLaneFault p lane s = .next (
      match withoutLane (s.port p) lane with
      | none => linkLost p s
      | some (m, w) => beginFault (.hostLane p) (noteNarrow p (s.port p).width (s.setPort p { s.port p with
          width := w, faults := 0xFFFF - m, retrains := satInc 8 (s.port p).retrains }))) :=
  congrArg Host.Outcome.next (if_neg (by simp [hup, hlane, hsound]))

/-- Settles O37. -/
theorem hostPortRows : Obligations.HostPortRows := by
  unfold Obligations.HostPortRows
  refine ⟨fun p lanes rate m w loflit s hphase hlo hhi hbest => ?_, fun p s => rfl,
    fun p s hup => congrArg Host.Outcome.next (linkLost_of_up hup), fun p lane m w s hup hlane hsound hleft => ?_,
    fun p lane s hup hlane hsound hleft => ?_, fun p node dla keepS s hbi => congrArg Host.Outcome.next (if_pos hbi),
    fun p node dla s hbi => congrArg Host.Outcome.next (if_pos hbi)⟩
  · change execHostLinkTrain p lanes rate loflit s = _
    have hrate : ¬((decide (rate = 0) || decide (3 < rate)) = true) := by simp; omega
    rw [execHostLinkTrain, if_neg (by rcases hphase with h | h | h <;> simp [h]), if_neg hrate, hbest]
  · refine (execHostLaneFault_of_used hup hlane hsound).trans ?_
    rw [hleft]
  · refine (execHostLaneFault_of_used hup hlane hsound).trans ?_
    rw [hleft]
    exact congrArg Host.Outcome.next (linkLost_of_up hup)

/-! ### The power supervisor -/

theorem execRailFault_of_up {code : Nat} {s : State} (hlo : 2 ≤ code) (hhi : code ≤ 11)
    (hphase : s.pw.phase = .replay ∨ s.pw.phase = .service ∨ s.pw.phase = .flush ∨
      (s.pw.phase = .boot ∧ 3 ≤ s.pw.bootStep)) :
    execRailFault code s = .next (shutOffNow 2 (faultNow 1 code true (setWin code false s))) := by
  have hcode : ¬((decide (code < 2) || decide (11 < code)) = true) := by simp; omega
  rw [execRailFault, if_neg hcode]
  rcases hphase with h | h | h | ⟨h, hstep⟩
  · rw [h]
  · rw [h]
  · rw [h]
  · rw [h]
    exact congrArg Host.Outcome.next (if_pos hstep)

/-- Settles O38. -/
theorem powerRows : Obligations.PowerRows := by
  unfold Obligations.PowerRows
  refine ⟨fun s hphase => ?_, fun s hphase => ?_, fun s => rfl, fun s => rfl, fun s hphase => ?_, fun s hphase => ?_,
    fun s hrails => congrArg Host.Outcome.next (if_pos hrails), fun code s hlo hhi hphase => execRailFault_of_up hlo hhi hphase,
    fun code s hlo hhi hphase hrail => exec_railFault_of_not_reached hlo hhi hphase hrail, fun s hphase => ?_,
    fun above s => rfl, fun s hphase => ?_, fun s hphase => ?_, fun s hphase hhold => ?_, fun snd s hsnd => ?_,
    fun snd p s hsnd => ?_, fun s hphase hrail => ?_, fun s hphase hrail hfall => ?_, fun s hphase hrail hfall => ?_,
    fun s hphase hrail => ?_, fun s => rfl⟩
  · exact congrArg Host.Outcome.next (if_neg (by simp [hphase]))
  · exact congrArg Host.Outcome.next (if_neg (by simp [hphase]))
  · change execVinUnderVoltage s = _
    rw [execVinUnderVoltage, hphase]
    rfl
  · change execVinUnderVoltage s = _
    rcases hphase with h | h <;> rw [execVinUnderVoltage, h]
  · exact congrArg Host.Outcome.next (if_neg (by simp [hphase]))
  · change execVholdWindow false true s = _
    exact congrArg Host.Outcome.next ((if_neg Bool.false_ne_true).trans (if_neg (by simp [setWin, hphase])))
  · change execVholdWindow false false s = _
    exact congrArg Host.Outcome.next ((if_neg Bool.false_ne_true).trans (if_neg (by simp [setWin, hphase])))
  · exact congrArg Host.Outcome.next (if_pos (by simp [hphase, hhold]))
  · change execPsvStart snd s = _
    rw [execPsvStart, hsnd]
  · change execPsvStart snd s = _
    rw [execPsvStart, hsnd]
  · exact congrArg Host.Outcome.next (if_pos (by simp [hphase, hrail]))
  · exact congrArg Host.Outcome.next (if_pos (by simp [hphase, hrail, hfall]))
  · exact congrArg Host.Outcome.next (if_pos (by simp [hphase, hrail, hfall]))
  · exact congrArg Host.Outcome.next (if_pos (by simp [hphase, hrail]))

end Sys2Proof.Machine
end

section
/-! Boot, Flush, clocks and the processor restart (O39), the thermal rows (O40), drift (O41) and the hold-up bank
(O42). -/

set_option Elab.async false

namespace Sys2Proof.Machine

/-! ### Boot, Flush, clocks and the processor restart -/

theorem modelRuns_of_memory_phase {s : State}
    (h : s.pw.phase = .replay ∨ s.pw.phase = .service ∨ s.pw.phase = .flush) :
    modelRuns s = true ∧ (s.pw.phase = .boot → 4 ≤ s.pw.bootStep) := by
  rcases h with h | h | h <;> simp [modelRuns, h]

/-- A clock's loss, once its oscillator runs, takes down the links that are up. -/
theorem execRefclkLoss_of_running {s : State} (hbackup : s.pw.clkBackup = false) (hruns : modelRuns s = true)
    (hstep : s.pw.phase = .boot → 4 ≤ s.pw.bootStep) : execRefclkLoss s = .next (
      let u := event .refclkLost 5 [] { s with pw := { s.pw with clkBackup := true } }
      let v := if u.portA.width = 0 then u else linkLost .a u
      let w := if v.portB.width = 0 then v else linkLost .b v
      (List.range 8).foldl (fun s p => if (sglAt s p).st == .down then s else linkDown p s) w) := by
  refine congrArg Host.Outcome.next (if_neg ?_)
  simpa [hbackup, hruns] using hstep

/-- With the host ports without width and every SGL link down, nothing is taken down. -/
theorem execRefclkLoss_of_no_link {s : State} (hbackup : s.pw.clkBackup = false)
    (hphase : s.pw.phase = .replay ∨ s.pw.phase = .service ∨ s.pw.phase = .flush) (ha : s.portA.width = 0)
    (hb : s.portB.width = 0) (hsgl : (List.range 8).all (fun p => (sglAt s p).st == .down) = true) :
    execRefclkLoss s = .next (event .refclkLost 5 [] { s with pw := { s.pw with clkBackup := true } }) := by
  obtain ⟨hruns, hstep⟩ := modelRuns_of_memory_phase hphase
  have hmark : OnlyChanges [.evr, .cxlA, .cxlB, .outs] { s with pw := { s.pw with clkBackup := true } }
      (event .refclkLost 5 [] { s with pw := { s.pw with clkBackup := true } }) := event_frame
  generalize hu : event .refclkLost 5 [] { s with pw := { s.pw with clkBackup := true } } = u at hmark
  have hua : u.portA = s.portA := hmark .portA (by decide)
  have hub : u.portB = s.portB := hmark .portB (by decide)
  have hus : u.sgl = s.sgl := hmark .sgl (by decide)
  rw [execRefclkLoss_of_running hbackup hruns hstep, hu]
  dsimp only
  rw [if_pos (c := u.portA.width = 0) (by rw [hua, ha]), if_pos (c := u.portB.width = 0) (by rw [hub, hb])]
  refine congrArg Host.Outcome.next (List.foldlRecOn (motive := (· = u)) _ _ rfl fun v hv p hp => ?_)
  subst hv
  have hdown : (sglAt s p).st == .down := List.all_eq_true.mp hsgl p hp
  exact if_pos (by simpa only [sglAt, hus] using hdown)

theorem execBootStep_of_boot {s : State} (h : s.pw.phase = .boot) {n : Nat} (hn : s.pw.bootStep + 1 = n)
    (inp : BootInput) : execBootStep inp s = .next (
      let u := { s with pw := { s.pw with bootStep := n } }
      if n = 3 then setRails (fun _ => true) u
      else if n = 5 then loadImage inp.imageOk u
      else if n = 6 then (if imageRuns s then belvyStarts u else u)
      else if n = 7 then trainMemories inp u
      else if n = 8 then
        let v := { u with per := { s.per with charger := !s.pw.sourceHold, measDue := true } }
        if s.dr.edLost then
          let w := restoreEd v
          { w with dr := { w.dr with edLost := false } }
        else v
      else if n = 9 then selfTest inp u
      else u) := by
  subst hn
  exact congrArg Host.Outcome.next (if_neg (by simp [h]))

/-- A processor restart that may complete: what it does once its image is known. -/
theorem execMpRestartDone_of_due {s : State} (hready : s.mb.mpReady = false) (hruns : modelRuns s = true)
    (hstep : s.pw.phase = .boot → 6 ≤ s.pw.bootStep) (ok : Bool) : execMpRestartDone ok s = .next (
      let u := if s.mb.fwRestart.isSome then s else loadImage ok s
      if u.mb.fwRestart.isNone && !imageRuns u then u
      else
        let v := event .mpRestarted 4 [] (copySnaps { u with mb := { u.mb with mpReady := true } })
        endActivation ok (v.mb.open_.foldl resumeOp v)) := by
  refine congrArg Host.Outcome.next (if_neg ?_)
  simpa [hready, hruns] using hstep

/-- Settles O39. -/
theorem bootAndClockRows : Obligations.BootAndClockRows := by
  unfold Obligations.BootAndClockRows
  refine ⟨fun s hphase harmed hblock hvin hhold hscan => ?_, fun s hmay => ?_, fun inp s hphase hn => ?_,
    fun inp s hphase hn => ?_, fun inp s hphase hn => ?_, fun inp s hphase hn himage => ?_,
    fun inp s hphase hn himage => ?_, fun inp s hphase hn => ?_, fun inp s hphase hn hed => ?_,
    fun inp s hphase hn hed => ?_, fun inp s hphase hn => ?_, fun s hphase hstep => ?_, fun cause s hphase => ?_,
    fun s hphase => ?_, fun s hphase => ?_, fun s hphase hcool => ?_, fun s hphase hhot => ?_, fun s hnot => ?_,
    fun s hphase hdrain => ?_, fun s hbackup hphase ha hb hsgl => execRefclkLoss_of_no_link hbackup hphase ha hb hsgl,
    fun s hbackup hruns hstep => execRefclkLoss_of_running hbackup hruns hstep, fun s => rfl, fun s hphase hxtal => ?_,
    fun s hmay => ?_, fun s => rfl, fun s hready => ?_, fun s hready => ?_,
    fun ok s hready hruns hstep hfw himage => ?_, fun ok x s hready hruns hstep hfw => ?_⟩
  · exact congrArg Host.Outcome.next (if_pos ((bootMay_iff hphase hscan).mpr ⟨harmed, hblock, hvin, hhold⟩))
  · exact congrArg Host.Outcome.next (if_neg (by simp [hmay]))
  · exact execBootStep_of_boot hphase hn inp
  · exact execBootStep_of_boot hphase hn inp
  · exact execBootStep_of_boot hphase hn inp
  · refine (execBootStep_of_boot hphase hn inp).trans ?_
    rw [himage]
    rfl
  · refine (execBootStep_of_boot hphase hn inp).trans ?_
    rw [himage]
    rfl
  · exact execBootStep_of_boot hphase hn inp
  · refine (execBootStep_of_boot hphase hn inp).trans ?_
    rw [hed]
    rfl
  · refine (execBootStep_of_boot hphase hn inp).trans ?_
    rw [hed]
    rfl
  · exact execBootStep_of_boot hphase hn inp
  · exact congrArg Host.Outcome.next (if_pos (by simp [hphase, hstep]))
  · exact congrArg Host.Outcome.next (if_pos (by simp [hphase]))
  · exact congrArg Host.Outcome.next (if_neg (by simp [hphase]))
  · exact congrArg Host.Outcome.next (if_neg (by simp [hphase]))
  · exact congrArg Host.Outcome.next ((if_neg (by simp [hphase])).trans (if_neg (by simp [hcool])))
  · exact congrArg Host.Outcome.next ((if_neg (by simp [hphase])).trans (if_pos hhot))
  · refine congrArg Host.Outcome.next (if_neg ?_)
    rcases hnot with h | h <;> simp [flushComplete, h]
  · exact congrArg Host.Outcome.next (if_pos (by simp [flushComplete, hphase, hdrain]))
  · exact congrArg Host.Outcome.next (if_neg (by simp [hphase, hxtal]))
  · exact congrArg Host.Outcome.next (if_pos hmay)
  · exact congrArg Host.Outcome.next (if_pos hready)
  · exact congrArg Host.Outcome.next (if_neg (by simp [hready]))
  · refine (execMpRestartDone_of_due hready hruns hstep ok).trans ?_
    simp only [hfw, himage, Option.isSome_none, Bool.false_eq_true, if_false, Bool.not_true, Bool.and_false]
  · refine (execMpRestartDone_of_due hready hruns hstep ok).trans ?_
    simp only [hfw, Option.isSome_some, if_true, Option.isNone_some, Bool.false_and, Bool.false_eq_true, if_false]

/-! ### The thermal rows -/

/-- Settles O40. -/
theorem thermalRows : Obligations.ThermalRows := by
  unfold Obligations.ThermalRows
  refine ⟨fun inp s hruns => ?_, fun inp s hruns => ?_, fun s hlevel hfall => ?_, fun s hwarn hfall => ?_,
    fun s hlevel hgrace => ?_⟩
  · exact congrArg Host.Outcome.next (if_neg (by simp [hruns]))
  · exact congrArg Host.Outcome.next (if_pos (by simp [hruns]))
  · exact congrArg Host.Outcome.next (if_neg (by simp [hlevel, hfall]))
  · exact congrArg Host.Outcome.next (if_pos (by simp [hwarn, hfall]))
  · exact congrArg Host.Outcome.next (if_pos ⟨hlevel, hgrace⟩)

/-! ### Drift -/

theorem execStandbyModelTick_of_standby {s : State} (h : s.pw.phase = .standby) (d : Int) (ds : List Int) :
    execStandbyModelTick (d :: ds) s = .next (
      let u := advanceEd 1000 (List.replicate 64 (ds.foldl max d)) s
      if s.pw.junctionWait && (d :: ds).all (fun t => decide (t < 26880)) then
        { u with pw := { u.pw with startArmed := true, junctionWait := false } }
      else u) := congrArg Host.Outcome.next (if_pos (by simp [h]))

theorem execDriftSweep_of_dense {c : Nat} {s : State} (h : isDense s c = true) : execDriftSweep c s = .next (
      let age := if ageRuns s c then courseAge s c else 0
      let b := bucketOf age + 32 + (if age < 64 ∨ unsurveyed s c then 64 else 0)
      let u := { s with dr := { s.dr with bucket := Table.putD s.dr.bucket c b 0 } }
      if ageRuns s c then raiseLevel (courseStripe c) (courseLevel s c) u else u) :=
  congrArg Host.Outcome.next (if_neg (by simp [h]))

/-- Settles O41. -/
theorem driftRows : Obligations.DriftRows := by
  unfold Obligations.DriftRows
  refine ⟨fun s hphase => ?_, fun d ds s hphase hwait => ?_, fun d ds s hphase hwait hcool => ?_,
    fun k x s hx hage hopen hfast hreclaim => ?_, fun k x s hx hage => ?_, fun c s hdense => ?_,
    fun c s hdense hruns => ?_, fun c s hdense hruns => ?_, fun c f l fc lc s hnot => ?_,
    fun c f l fc lc s hsurvey hc => ?_, fun k x s hx hlo hhi hreclaim => ?_⟩
  · exact congrArg Host.Outcome.next (if_pos (by simp [hphase]))
  · refine (execStandbyModelTick_of_standby hphase d ds).trans ?_
    exact congrArg Host.Outcome.next (if_neg (by simp [hwait]))
  · refine (execStandbyModelTick_of_standby hphase d ds).trans ?_
    exact congrArg Host.Outcome.next (if_pos (by simpa [hwait] using hcool))
  · change execStripeAgePad k s = _
    simp only [execStripeAgePad, hx, hopen, hfast, hreclaim, hage, Bool.not_false, Bool.and_self, if_true]
  · change execStripeAgePad k s = _
    simp only [execStripeAgePad, hx, hage, Option.any_none, Bool.and_false, Bool.false_eq_true, if_false]
  · exact congrArg Host.Outcome.next (if_pos (by simp [hdense]))
  · refine (execDriftSweep_of_dense hdense).trans ?_
    simp only [hruns, if_true]
  · refine (execDriftSweep_of_dense hdense).trans ?_
    simp only [hruns, Bool.false_eq_true, if_false]
    rw [if_pos (Or.inl (by decide))]
    rfl
  · refine congrArg Host.Outcome.next (if_pos ?_)
    rcases hnot with h | h <;> simp [h]
  · exact congrArg Host.Outcome.next (if_neg (by simp [hsurvey, hc]))
  · change execRefreshLevelTimer k s = _
    simp only [execRefreshLevelTimer, hx]
    rw [if_pos ⟨hlo, hhi, by simp [hreclaim]⟩]

/-! ### The hold-up bank -/

/-- Settles O42. -/
theorem holdupRows : Obligations.HoldupRows := by
  unfold Obligations.HoldupRows
  refine ⟨fun s hdue hidle hmay => ?_, fun s hmay hidle hv => ?_, fun s hmay hidle hv => ?_,
    fun va vb vc s hmeasuring hab hbc => ?_, fun s hcharger hv => ?_, fun s hnot => ?_, fun v s hphase => ?_,
    fun v s hphase => ?_⟩
  · exact congrArg Host.Outcome.next (if_pos (by simp [hdue, hidle, hmay]))
  · change execHoldupDailyMeasurement s = _
    rw [execHoldupDailyMeasurement, if_pos hmay, askMeasure, if_neg (by simp [hidle]), if_pos (by simp [hmay, hv])]
    rfl
  · change execHoldupDailyMeasurement s = _
    rw [execHoldupDailyMeasurement, if_pos hmay, askMeasure, if_neg (by simp [hidle]), if_neg (by simp [hv])]
  · change execHoldupResult va vb vc s = _
    have hcap : bankCap vb vc s = (10000000 / (vb - vc), s) := if_pos hbc
    have hesr : bankEsr va vb s = (va - vb, s) := if_pos hab
    rw [execHoldupResult, if_neg (by simp [hmeasuring])]
    simp only [hcap, hesr, measureDone]
  · exact congrArg Host.Outcome.next (if_pos (by simp [hcharger, hv]))
  · refine congrArg Host.Outcome.next (if_neg ?_)
    rcases hnot with h | h
    · simp [h]
    · simp [Nat.not_lt.mpr h]
  · exact congrArg Host.Outcome.next (if_neg (by simp [hphase]))
  · exact congrArg Host.Outcome.next (if_pos (by simp [hphase]))

end Sys2Proof.Machine
end

section
/-! Epochs, checkpoints, Replay and Global Persistent Flush (O43), and register accesses (O45). -/

set_option Elab.async false

namespace Sys2Proof.Machine

/-! ### Epochs -/

/-- The next segment of a sweep that has begun. -/
theorem execCheckpointSegmentWrite_of_begun {s : State} (hsegment : s.ck.segment < 3609)
    (hphase : s.pw.phase = .service) (hbegun : s.ck.segment ≠ 0) : execCheckpointSegmentWrite s = .next (
      let n := s.ck.segment
      let u := metaPages (n % 8) 1024 s
      logOnly u.per.openEpoch (.segment n) { u with ck := { u.ck with
        segment := n + 1, sweeps := if n + 1 = 3609 then u.ck.sweeps + 1 else u.ck.sweeps } }) := by
  have hgo : ¬((decide (segments ≤ s.ck.segment) || (s.pw.phase != .service)) = true) := by
    have hfew : ¬segments ≤ s.ck.segment := Nat.not_le.mpr hsegment
    simp [hfew, hphase]
  rw [execCheckpointSegmentWrite, if_neg hgo]
  dsimp only
  rw [if_neg hbegun]
  rfl

/-- A time that is old enough is not recent. -/
theorem any_recent_eq_false {o : Option Nat} {n now : Nat} (h : o.all (fun t => decide (t + n ≤ now)) = true) :
    o.any (fun t => decide (now < t + n)) = false := by
  cases o with
  | none => rfl
  | some t => simpa using h

/-- Settles O43: each command's guard holds or fails by the row's hypotheses. -/
theorem epochRows : Obligations.EpochRows := by
  unfold Obligations.EpochRows
  refine ⟨fun s hholds hphase => ?_, fun s hholds => ?_, fun snd s => rfl, fun s => rfl, fun d rest s hd hready => ?_,
    fun d rest s hd hready => ?_, fun s hsegment hphase hbegun => execCheckpointSegmentWrite_of_begun hsegment hphase hbegun,
    fun s hsegment hroot hphase => ?_, fun inp s hphase hreplaying hrec => ?_, fun inp s hphase hreplaying hrec => ?_,
    fun inp s hphase hreplaying hfailed => ?_, fun inp s hfailed => ?_, fun p tag s => rfl, fun p tag s => rfl,
    fun src txid port s => rfl, fun src txid e g s ha hb => ?_, fun src txid e s ha hb => ?_⟩
  · exact congrArg Host.Outcome.next (if_pos (by simp [hholds, hphase]))
  · exact congrArg Host.Outcome.next (if_neg (by simp [hholds]))
  · change execEpochCommit s = _
    simp only [execEpochCommit, hd, hready, if_true]
  · change execEpochCommit s = _
    simp only [execEpochCommit, hd, hready, Bool.false_eq_true, if_false]
  · change execCheckpointRootWrite s = _
    have hfull : ¬s.ck.segment < segments := Nat.not_lt.mpr hsegment
    rw [execCheckpointRootWrite, any_recent_eq_false hroot, if_neg (by simp [hfull, hphase])]
  · change execReplayStart inp s = _
    rw [execReplayStart, if_neg (by simp [hphase, hreplaying]), hrec]
    rfl
  · change execReplayStart inp s = _
    rw [execReplayStart, if_neg (by simp [hphase, hreplaying]), hrec]
    rfl
  · exact congrArg Host.Outcome.next (if_pos (by simp [hphase, hreplaying, hfailed]))
  · exact congrArg Host.Outcome.next (if_neg (by simp [hfailed]))
  · change execPflushReply src txid e s = _
    simp only [execPflushReply, State.port, ha, hb]
  · change execPflushReply src txid e s = _
    simp only [execPflushReply, State.port, ha, hb]

/-! ### Register accesses -/

theorem bitsOf_eq_extractLsb' (w : Word) (lo width : Nat) : bitsOf w lo width = (w.extractLsb' lo width).toNat := by
  rw [bitsOf, BitVec.extractLsb'_toNat, Nat.shiftRight_eq_div_pow]

/-- Bits above the alarm bits do not see the mask of the alarm bits. -/
theorem bitsOf_mask_alarm (v sets : Word) : bitsOf (v &&& ~~~(sets &&& 0xF)) 32 32 = bitsOf v 32 32 := by
  rw [bitsOf_eq_extractLsb', bitsOf_eq_extractLsb']
  congr 1
  ext i hi
  have hlow : (0xF#64).getLsbD (32 + i) = false :=
    BitVec.getLsbD_of_ge (0xF#4) _ (by omega)
  simp only [BitVec.getElem_extractLsb', BitVec.getLsbD_and, BitVec.getLsbD_not]
  cases h : v.getLsbD (32 + i)
  · rfl
  · simpa [hlow] using BitVec.lt_of_getLsbD h

theorem bitsOf_shiftLeft_high (v : Word) : bitsOf (v <<< 32) 32 32 = bitsOf v 0 32 := by
  have hv : v.toNat < 2 ^ 64 := v.isLt
  simp only [bitsOf, BitVec.toNat_shiftLeft, Nat.shiftLeft_eq]
  omega

theorem bitsOf_shiftLeft_low (v sets : Word) : bitsOf (v <<< 32 &&& ~~~(sets &&& 0xF)) 0 4 = 0 := by
  have hzero : (v <<< 32 &&& ~~~(sets &&& 0xF)).extractLsb' 0 4 = 0#4 := by
    ext i hi
    have hshift : i < 32 := by omega
    simp [hshift]
  rw [bitsOf_eq_extractLsb', hzero]
  rfl

/-- A write of all bits merges to what is written. -/
theorem merged_all (v old : Word) : merged 0xFFFFFFFFFFFFFFFF#64 v old = v := by
  simp [merged]

/-- A write of the upper half merges to what is written there. -/
theorem bitsOf_merged_high (v old : Word) : bitsOf (merged 0xFFFFFFFF00000000#64 v old) 32 32 = bitsOf v 32 32 := by
  rw [bitsOf_eq_extractLsb', bitsOf_eq_extractLsb']
  congr 1
  ext i hi
  have hmask : (0xFFFFFFFF00000000#64).getLsbD (32 + i) = true := by
    interval_cases i <;> rfl
  simp only [merged, BitVec.getElem_extractLsb', BitVec.getLsbD_or, BitVec.getLsbD_and, BitVec.getLsbD_not, hmask,
    Bool.not_true, Bool.and_false, Bool.false_or]

/-- The alarm bits fill the register's field. -/
theorem and_fifteen_of_lt {n : Nat} (h : n < 16) : n &&& 15 = n := by
  rw [Nat.and_two_pow_sub_one_eq_mod n 4, Nat.mod_eq_of_lt h]

/-- A read that reaches a register. -/
theorem exec_registerRead_of_answered {snd : Sender} {off w : Nat} {s : State} (hreach : senderReaches snd s = true)
    (hshape : badShape off w = false) (hblock : blockAnswers (off / 8 * 8) s = true) :
    exec (.registerWrite snd off w .read) s = .next (
      emit (.regData snd (shown off w (regRead snd (off / 8 * 8) (w == 32 && off % 8 == 4) s).1))
        (regRead snd (off / 8 * 8) (w == 32 && off % 8 == 4) s).2) := by
  change execRegisterWrite snd off w .read s = _
  simp only [execRegisterWrite, hreach, hshape, hblock, Bool.not_true, Bool.false_eq_true, if_false]

/-- A write that reaches a register. -/
theorem exec_registerWrite_of_answered {snd : Sender} {off w : Nat} {v sets : Word} {s : State}
    (hreach : senderReaches snd s = true) (hshape : badShape off w = false)
    (hblock : blockAnswers (off / 8 * 8) s = true) :
    exec (.registerWrite snd off w (.write v sets)) s = .next (
      sameCycle snd (off / 8 * 8) sets
        (regWrite snd (off / 8 * 8) (reach off w) (setWins (off / 8 * 8) sets (placed off w v)) s)) := by
  change execRegisterWrite snd off w (.write v sets) s = _
  simp only [execRegisterWrite, hreach, hshape, hblock, Bool.not_true, Bool.false_eq_true, if_false]

/-- The DEV block answers in every state that reaches it. -/
theorem blockAnswers_dev {off : Nat} (h : off < 0x1000) (s : State) : blockAnswers (off / 8 * 8) s = true := by
  have hblock : off / 8 * 8 / 0x1000 = 0 := by omega
  simp [blockAnswers, hblock]

theorem regRead_dev {off : Nat} (h : off < 0x1000) (snd : Sender) (upper : Bool) (s : State) :
    regRead snd off upper s = (devReg off s, s) := by
  have hblock : off / 0x1000 = 0 := by omega
  rw [regRead, hblock]
  rfl

theorem regWrite_dev {off : Nat} (h : off < 0x1000) (snd : Sender) (m v : Word) (s : State) :
    regWrite snd off m v s = s := by
  have hblock : off / 0x1000 = 0 := by omega
  rw [regWrite, hblock]
  rfl

theorem devReg_of_no_register {off : Nat} (h : 0x20 ≤ off) (s : State) : devReg off s = 0 := by
  unfold devReg
  split
  · omega
  · omega
  · omega
  · omega
  · rfl

theorem sameCycle_of_ne {base : Nat} (h : base ≠ 0x3008) (snd : Sender) (sets : Word) (s : State) :
    sameCycle snd base sets s = s := by
  simp [sameCycle, h]

/-- A write of SEC_ALARM clears alarm bits and sets COUNT (R466). -/
theorem regWrite_secAlarm (snd : Sender) (m v : Word) (s : State) : regWrite snd 0x6008 m v s =
    { s with sec := { s.sec with
      alarm := s.sec.alarm &&& (15 - bitsOf v 0 4), alarmCnt := bitsOf (merged m v (secReg 0x6008 s).1) 32 32 } } := rfl

/-- Settles O45. -/
theorem registerRows : Obligations.RegisterRows := by
  unfold Obligations.RegisterRows
  refine ⟨fun snd off w op s hreach => ?_, fun snd off w s hreach hshape => ?_, fun snd off w v sets s hreach hshape => ?_,
    fun snd off w s hreach hshape hblock => ?_, fun snd off w v sets s hreach hshape hblock => ?_,
    fun snd off w s hreach hshape hblock => exec_registerRead_of_answered hreach hshape hblock,
    fun snd off w v sets s hreach hshape hblock => exec_registerWrite_of_answered hreach hshape hblock,
    fun snd s hreach => ?_, fun snd s hreach => ?_, fun snd s hreach => ?_, fun snd off s hreach hlo hhi halign => ?_,
    fun snd off v sets s hreach hhi halign => ?_, fun snd v sets s hreach hblock => ?_,
    fun snd v sets s hreach hblock halarm => ?_, fun snd v sets s hreach hblock => ?_⟩
  · exact congrArg Host.Outcome.next (if_pos (by simp [hreach]))
  · change execRegisterWrite snd off w .read s = _
    simp only [execRegisterWrite, hreach, hshape, Bool.not_true, Bool.false_eq_true, if_false, if_true]
  · change execRegisterWrite snd off w (.write v sets) s = _
    simp only [execRegisterWrite, hreach, hshape, Bool.not_true, Bool.false_eq_true, if_false, if_true]
  · change execRegisterWrite snd off w .read s = _
    simp only [execRegisterWrite, hreach, hshape, hblock, Bool.not_true, Bool.not_false, Bool.false_eq_true, if_false,
      if_true]
  · change execRegisterWrite snd off w (.write v sets) s = _
    simp only [execRegisterWrite, hreach, hshape, hblock, Bool.not_true, Bool.not_false, Bool.false_eq_true, if_false,
      if_true]
  · exact exec_registerRead_of_answered hreach rfl (blockAnswers_dev (by decide) s)
  · exact exec_registerRead_of_answered hreach rfl (blockAnswers_dev (by decide) s)
  · exact exec_registerRead_of_answered hreach rfl (blockAnswers_dev (by decide) s)
  · have hbase : off / 8 * 8 = off := by omega
    rw [exec_registerRead_of_answered hreach (by simp [badShape, halign]) (blockAnswers_dev hhi s), hbase,
      regRead_dev hhi, devReg_of_no_register hlo]
    rfl
  · have hbase : off / 8 * 8 = off := by omega
    rw [exec_registerWrite_of_answered hreach (by simp [badShape, halign]) (blockAnswers_dev hhi s), hbase,
      regWrite_dev hhi, sameCycle_of_ne (by omega)]
  · refine (exec_registerWrite_of_answered (off := 0x6008) (w := 64) hreach rfl hblock).trans ?_
    change Host.Outcome.next (sameCycle snd 0x6008 sets
      (regWrite snd 0x6008 0xFFFFFFFFFFFFFFFF#64 (v &&& ~~~(sets &&& 0xF)) s)) = _
    rw [sameCycle_of_ne (by decide), regWrite_secAlarm, merged_all, bitsOf_mask_alarm]
  · refine (exec_registerWrite_of_answered (off := 0x600C) (w := 32) hreach rfl hblock).trans ?_
    change Host.Outcome.next (sameCycle snd 0x6008 sets
      (regWrite snd 0x6008 0xFFFFFFFF00000000#64 (v <<< 32 &&& ~~~(sets &&& 0xF)) s)) = _
    rw [sameCycle_of_ne (by decide), regWrite_secAlarm, bitsOf_shiftLeft_low, bitsOf_merged_high, bitsOf_mask_alarm,
      bitsOf_shiftLeft_high, Nat.sub_zero, and_fifteen_of_lt halarm]
  · refine (exec_registerWrite_of_answered (off := 0xA000) (w := 64) hreach rfl hblock).trans ?_
    change Host.Outcome.next (sameCycle snd 0xA000 sets { s with pmc := { s.pmc with
      sel := setNth s.pmc.sel snd.ix (bitsOf (merged 0xFFFFFFFFFFFFFFFF#64 (v &&& ~~~(sets &&& 0#64)) (pmcReg snd 0xA000 s).1) 0 5) } }) = _
    rw [sameCycle_of_ne (by decide), merged_all, BitVec.and_zero, BitVec.not_zero, BitVec.and_allOnes]

end Sys2Proof.Machine
end

section
/-! Host requests (O46), coherence at the home (O48, O49) and at the proxy (O50), and the slice cache's upkeep (O52). -/

set_option Elab.async false

namespace Sys2Proof.Machine

/-! ### Host requests -/

/-- The state in which an admitted request of a port is decoded. -/
def admitted (p : Port) (tag : Nat) (s : State) : State := traceSeen p tag (updateMode (wake s))

theorem admitted_sgl (p : Port) (tag : Nat) (s : State) : (admitted p tag s).sgl = s.sgl :=
  (traceSeen_frame .sgl (by decide)).trans ((updateMode_frame .sgl (by decide)).trans (wake_frame .sgl (by decide)))

theorem admitted_sec (p : Port) (tag : Nat) (s : State) : (admitted p tag s).sec = s.sec :=
  (traceSeen_frame .sec (by decide)).trans ((updateMode_frame .sec (by decide)).trans (wake_frame .sec (by decide)))

theorem port_admitted (p : Port) (tag : Nat) (s : State) (q : Port) : (admitted p tag s).port q = s.port q := by
  cases q
  · exact (traceSeen_frame .portA (by decide)).trans
      ((updateMode_frame .portA (by decide)).trans (wake_frame .portA (by decide)))
  · exact (traceSeen_frame .portB (by decide)).trans
      ((updateMode_frame .portB (by decide)).trans (wake_frame .portB (by decide)))

theorem checkAccess_admitted (p : Port) (tag : Nat) (s : State) (write : Bool) (hpa : Nat) :
    checkAccess (admitted p tag s) p write hpa = checkAccess s p write hpa := by
  have hkey : keyServes (admitted p tag s) = keyServes s := by
    funext kid
    rw [keyServes, keyOf, admitted_sec]
    rfl
  rw [checkAccess, port_admitted, hkey]
  rfl

theorem not_refused_of_credit {serves : Bool} {used limit : Nat} (hserves : serves = true) (hcredit : used < limit) :
    ¬((!serves || decide (limit ≤ used)) = true) := by
  simp [hserves, Nat.not_le.mpr hcredit]

theorem me_of_sgl {s t : State} (h : t.sgl = s.sgl) : me t = me s := by
  rw [me, me, h]

theorem me_meetEntry (met : SramMeet) (node dla : Nat) (s : State) : me (meetEntry met node dla s) = me s :=
  me_of_sgl (meetEntry_frame .sgl (by decide))

theorem me_trackRead (p : Port) (win hpa : Nat) (s : State) : me (trackRead p win hpa s) = me s :=
  me_of_sgl (trackRead_frame .sgl (by decide))

theorem me_admitted (p : Port) (tag : Nat) (s : State) : me (admitted p tag s) = me s :=
  me_of_sgl (admitted_sgl p tag s)

section
variable {s : State} {p : Port} {hpa : Nat} {d : Decoded} {write : Bool}

theorem checkAccess_of_no_window (h : decodeAccess (s.port p) write hpa = none) :
    checkAccess s p write hpa = .violation 1 := by
  rw [checkAccess, h]

theorem checkAccess_of_no_read (h : decodeAccess (s.port p) false hpa = some d) (hrd : d.rd = false) :
    checkAccess s p false hpa = .violation 2 := by
  simp only [checkAccess, h, hrd, Bool.false_and, Bool.not_false, Bool.and_self, Bool.false_eq_true, if_false, if_true]

theorem checkAccess_of_no_write (h : decodeAccess (s.port p) true hpa = some d) (hwr : d.wr = false) :
    checkAccess s p true hpa = .violation 3 := by
  simp only [checkAccess, h, hwr, Bool.not_false, Bool.and_self, if_true]

/-- A permitted access is judged by its key ID. -/
theorem checkAccess_of_permitted (h : decodeAccess (s.port p) write hpa = some d)
    (hperm : (if write then d.wr else d.rd) = true) :
    checkAccess s p write hpa = if !d.kvalid || !keyServes s d.kid then .violation 4 else .good d := by
  cases write <;> simp_all [checkAccess]

theorem checkAccess_of_bad_key (h : decodeAccess (s.port p) write hpa = some d)
    (hperm : (if write then d.wr else d.rd) = true) (hkey : d.kvalid = false ∨ keyServes s d.kid = false) :
    checkAccess s p write hpa = .violation 4 := by
  rw [checkAccess_of_permitted h hperm, if_pos (by rcases hkey with h | h <;> simp [h])]

theorem checkAccess_of_good (h : decodeAccess (s.port p) write hpa = some d)
    (hperm : (if write then d.wr else d.rd) = true) (hkvalid : d.kvalid = true) (hkid : keyServes s d.kid = true) :
    checkAccess s p write hpa = .good d := by
  rw [checkAccess_of_permitted h hperm, if_neg (by simp [hkvalid, hkid])]

end

section
variable {s : State} {p : Port} {hpa tag k : Nat} {mv : MetaValue} {met : SramMeet} {d : Decoded} {data : Line}
  {mask : BitVec 64} {poison : Bool}

/-- A read with a credit, as the check of its access has it. -/
theorem exec_hostMemRd_of_violation (hserves : portServes s p = true) (hcredit : (s.port p).reqUsed < 256)
    (haccess : checkAccess s p false hpa = .violation k) : exec (.hostMemRd p mv hpa ⟨tag, met⟩) s = .next (useReq p (
      traceDone p (tag % 65536) mv.traceKind 6 false false false hpa 0 0 0
        (violate p k false hpa (emit (.hostData p (tag % 65536) 0) (admitted p (tag % 65536) s))))) := by
  change execHostMemRd p mv hpa ⟨tag, met⟩ s = _
  have hgo : ¬((!portServes s p || decide (reqCredits ≤ (s.port p).reqUsed)) = true) := not_refused_of_credit hserves hcredit
  have hcheck := (checkAccess_admitted p (tag % 65536) s false hpa).trans haccess
  rw [admitted] at hcheck
  rw [execHostMemRd, if_neg hgo]
  dsimp only
  rw [hcheck]
  rfl

theorem exec_hostMemRd_of_good (hserves : portServes s p = true) (hcredit : (s.port p).reqUsed < 256)
    (haccess : checkAccess s p false hpa = .good d) : exec (.hostMemRd p mv hpa ⟨tag, met⟩) s = .next (useReq p (
      let w : Waiter := { kind := readKind mv d.wr, asker := .host p (tag % 65536) mv d.tenant hpa, kid := d.kid
                          cls := p.ix, sram := met }
      let v := meetEntry met (plaNode d.pla) (plaDla d.pla) (trackRead p d.win hpa (admitted p (tag % 65536) s))
      if plaNode d.pla = me s then
        streamRead p.ix d.kid (plaDla d.pla) (localRequest (plaDla d.pla) w (noteInput (plaDla d.pla) p.ix v))
      else remoteRequest (plaNode d.pla) (plaDla d.pla) w v)) := by
  change execHostMemRd p mv hpa ⟨tag, met⟩ s = _
  have hgo : ¬((!portServes s p || decide (reqCredits ≤ (s.port p).reqUsed)) = true) := not_refused_of_credit hserves hcredit
  have hcheck := (checkAccess_admitted p (tag % 65536) s false hpa).trans haccess
  rw [execHostMemRd, if_neg hgo]
  dsimp only
  rw [← admitted, hcheck]
  dsimp only
  rw [me_meetEntry, me_trackRead, me_admitted]

/-- A write with a credit, as the check of its access has it. -/
theorem exec_hostMemWr_of_violation (hserves : portServes s p = true) (hcredit : (s.port p).rwdUsed < 128)
    (haccess : checkAccess s p true hpa = .violation k) :
    exec (.hostMemWr p mv hpa data mask poison ⟨tag, met⟩) s = .next (useRwd p (
      traceDone p (tag % 65536) (if mask = fullMask then 3 else 4) 6 false false false hpa 0 0 0
        (violate p k true hpa (emit (.hostCmp p (tag % 65536)) (admitted p (tag % 65536) s))))) := by
  change execHostMemWr p mv hpa data mask poison ⟨tag, met⟩ s = _
  have hgo : ¬((!portServes s p || decide (rwdCredits ≤ (s.port p).rwdUsed)) = true) := not_refused_of_credit hserves hcredit
  have hcheck := (checkAccess_admitted p (tag % 65536) s true hpa).trans haccess
  rw [execHostMemWr, if_neg hgo]
  dsimp only
  rw [← admitted, hcheck]

theorem exec_hostMemWr_of_good (hserves : portServes s p = true) (hcredit : (s.port p).rwdUsed < 128)
    (haccess : checkAccess s p true hpa = .good d) :
    exec (.hostMemWr p mv hpa data mask poison ⟨tag, met⟩) s = .next (useRwd p (
      let w : Waiter := { kind := .write, asker := .host p (tag % 65536) mv d.tenant hpa, kid := d.kid, cls := p.ix
                          data := data, mask := mask, poison := poison }
      let home := plaNode d.pla
      let v := meetEntry met home (plaDla d.pla) (admitted p (tag % 65536) s)
      if home = me s then localRequest (plaDla d.pla) w (noteInput (plaDla d.pla) p.ix v)
      else remoteRequest home (plaDla d.pla) w (v.setPort p { v.port p with
        wrote := if (v.port p).wrote.contains home then (v.port p).wrote else (v.port p).wrote ++ [home] }))) := by
  change execHostMemWr p mv hpa data mask poison ⟨tag, met⟩ s = _
  have hgo : ¬((!portServes s p || decide (rwdCredits ≤ (s.port p).rwdUsed)) = true) := not_refused_of_credit hserves hcredit
  have hcheck := (checkAccess_admitted p (tag % 65536) s true hpa).trans haccess
  rw [execHostMemWr, if_neg hgo]
  dsimp only
  rw [← admitted, hcheck]
  dsimp only
  rw [me_meetEntry, me_admitted]

end

/-- Settles O46: the access is judged as in the state met, which the taking of the request leaves in what it decides. -/
theorem hostRequestRows : Obligations.HostRequestRows := by
  unfold Obligations.HostRequestRows
  refine ⟨fun p mv hpa tag met s hserves hcredit hd =>
      exec_hostMemRd_of_violation hserves hcredit (checkAccess_of_no_window hd),
    fun p mv hpa tag met d s hserves hcredit hd hrd =>
      exec_hostMemRd_of_violation hserves hcredit (checkAccess_of_no_read hd hrd),
    fun p mv hpa tag met d s hserves hcredit hd hrd hkey =>
      exec_hostMemRd_of_violation hserves hcredit (checkAccess_of_bad_key hd hrd hkey),
    fun p mv hpa tag met d s hserves hcredit hd hrd hkvalid hkid hhome => ?_,
    fun p mv hpa tag met d s hserves hcredit hd hrd hkvalid hkid hhome => ?_,
    fun p mv hpa tag met s hcredit => ?_,
    fun p mv hpa tag data mask poison met s hserves hcredit hd =>
      exec_hostMemWr_of_violation hserves hcredit (checkAccess_of_no_window hd),
    fun p mv hpa tag data mask poison met d s hserves hcredit hd hwr =>
      exec_hostMemWr_of_violation hserves hcredit (checkAccess_of_no_write hd hwr),
    fun p mv hpa tag data mask poison met d s hserves hcredit hd hwr hkey =>
      exec_hostMemWr_of_violation hserves hcredit (checkAccess_of_bad_key hd hwr hkey),
    fun p mv hpa tag data mask poison met d s hserves hcredit hd hwr hkvalid hkid hhome => ?_,
    fun p mv hpa tag data mask poison met d s hserves hcredit hd hwr hkvalid hkid hhome => ?_,
    fun p mv hpa tag data mask poison met s hcredit => ?_, fun lpn s hhint hlook hmay => ?_,
    fun lpn s hhint hlook => ?_, fun p n d tag s => rfl⟩
  · refine (exec_hostMemRd_of_good hserves hcredit (checkAccess_of_good hd hrd hkvalid hkid)).trans ?_
    exact congrArg (fun u => Host.Outcome.next (useReq p u)) (if_pos hhome)
  · refine (exec_hostMemRd_of_good hserves hcredit (checkAccess_of_good hd hrd hkvalid hkid)).trans ?_
    exact congrArg (fun u => Host.Outcome.next (useReq p u)) (if_neg hhome)
  · exact congrArg Host.Outcome.next (if_pos (by simp [reqCredits, hcredit]))
  · refine (exec_hostMemWr_of_good hserves hcredit (checkAccess_of_good hd hwr hkvalid hkid)).trans ?_
    exact congrArg (fun u => Host.Outcome.next (useRwd p u)) (if_pos hhome)
  · refine (exec_hostMemWr_of_good hserves hcredit (checkAccess_of_good hd hwr hkvalid hkid)).trans ?_
    exact congrArg (fun u => Host.Outcome.next (useRwd p u)) (if_neg hhome)
  · exact congrArg Host.Outcome.next (if_pos (by simp [rwdCredits, hcredit]))
  · change execRunAheadHint lpn s = _
    rw [execRunAheadHint, if_neg (by simpa using hhint)]
    dsimp only
    rw [if_neg (by simpa using hlook), if_neg (by simp [hmay])]
  · change execRunAheadHint lpn s = _
    rw [execRunAheadHint, if_neg (by simpa using hhint)]
    exact congrArg Host.Outcome.next (if_pos hlook)

/-! ### The home: requests -/

theorem recvReq_of_served {src : Nat} {s : State} (hdead : isDead s src = false) (hserves : homeServes s = true)
    (kind : ReqKind) (txid dla kid port input : Nat) : recvReq kind src txid dla kid port input s =
      streamRead (classOfPort port) kid dla (homeRequest dla
        { kind := kind, asker := .node src txid, kid := kid, cls := classOfPort port } (noteInput dla input s)) :=
  if_neg (by simp [hdead, hserves])

theorem recvEvc_of_entry {src dla : Nat} {e : DirEntry} {s : State} (he : dirAt s dla = some e) : recvEvc src dla s =
    if isDead s src then s
    else if e.st == .hs && !e.cv && e.ptrs.contains src then
      setDir dla (if (e.ptrs.erase src).isEmpty then none else some { e with ptrs := e.ptrs.erase src }) s
    else s := by
  rw [recvEvc, he]

/-- A write message that comes in turn and for the first time is kept and delivered as its turn comes. -/
theorem recvWrt_of_new {m : SglMsg} {s : State} (hdead : isDead s m.src = false)
    (hturn : (m.wseq + 256 - Table.getD s.fab.wseqRx m.src 0) % 256 ≤ 64)
    (hnew : s.fab.wrtHeld.any (fun x => x.src == m.src && x.wseq == m.wseq) = false) : recvWrt m s =
      drainWrt m.src 65 { s with fab := { s.fab with wrtHeld := s.fab.wrtHeld ++ [m] } } := by
  rw [recvWrt, if_neg (by simp [hdead])]
  dsimp only
  rw [if_neg (by omega), if_neg (by simp only [hnew]; decide)]

theorem recvWrt_of_old {m : SglMsg} {s : State} (hold : 64 < (m.wseq + 256 - Table.getD s.fab.wseqRx m.src 0) % 256) :
    recvWrt m s = s := by
  rw [recvWrt]
  split
  · rfl
  · exact if_pos hold

/-- Settles O48. -/
theorem homeRequestRows : Obligations.HomeRequestRows := by
  unfold Obligations.HomeRequestRows
  refine ⟨fun src txid dla kid port input s hdead hserves =>
      congrArg Host.Outcome.next (recvReq_of_served hdead hserves .rdS txid dla kid port input),
    fun src txid dla kid port input s hdead hserves =>
      congrArg Host.Outcome.next (recvReq_of_served hdead hserves .rdX txid dla kid port input),
    fun src txid dla kid port input s hdead hserves =>
      congrArg Host.Outcome.next (recvReq_of_served hdead hserves .rdC txid dla kid port input),
    fun src txid dla kid port input s hdead hserves =>
      congrArg Host.Outcome.next (recvReq_of_served hdead hserves .upg txid dla kid port input),
    fun src txid dla kid port input s hnot => ?_, fun src txid dla e s hdead he hst hcv hptr => ?_,
    fun src txid dla e s he hnot => ?_,
    fun src txid dla kid data mask poison wseq s hdead hturn hnew =>
      congrArg Host.Outcome.next (recvWrt_of_new hdead hturn hnew),
    fun src txid dla kid data mask poison wseq s hold => congrArg Host.Outcome.next (recvWrt_of_old hold),
    fun src txid dla wseq s hdead hturn hnew => congrArg Host.Outcome.next (recvWrt_of_new hdead hturn hnew),
    fun src txid dla wseq s hold => congrArg Host.Outcome.next (recvWrt_of_old hold)⟩
  · refine congrArg Host.Outcome.next (if_pos ?_)
    rcases hnot with h | h <;> simp [h]
  · refine congrArg Host.Outcome.next ((recvEvc_of_entry he).trans ?_)
    rw [if_neg (by simp [hdead]), if_pos (by simp only [hst, hcv, hptr]; decide)]
  · refine congrArg Host.Outcome.next ((recvEvc_of_entry he).trans ?_)
    split
    · rfl
    · refine if_neg ?_
      rcases hnot with h | h | h
      · simp [h]
      · simp [h]
      · rw [h, Bool.and_false]
        exact Bool.false_ne_true

/-! ### The home: answers -/

section
variable {src dla : Nat} {e : DirEntry} {t : HomeTrans} {s : State}

/-- A response of a live node without fence, at an entry with a transaction. -/
theorem recvRsp_of_trans (hdead : isDead s src = false) (hfence : fenced s src dla = false) (he : dirAt s dla = some e)
    (ht : transOf s dla = some t) (k : RspKind) : recvRsp k src dla s = match e.st with
      | .hsI => if k == .i && t.pend.contains src then pendLess src dla s else protocolError src dla k.num s
      | .hxF => if ownerOf e = src then ownerRsp k e t dla s else protocolError src dla k.num s
      | .hxI => if ownerOf e = src then ownerRsp k e t dla s else protocolError src dla k.num s
      | .hxW => protocolError src dla k.num s
      | .hs => s
      | .hx => s := by
  rw [recvRsp, if_neg (by simp [hdead, hfence]), he, ht] <;> rfl

/-- In HX_F and HX_I the owner's response goes to the snoop it answers. -/
theorem recvRsp_of_owner (hdead : isDead s src = false) (hfence : fenced s src dla = false) (he : dirAt s dla = some e)
    (ht : transOf s dla = some t) (hst : e.st = .hxF ∨ e.st = .hxI) (howner : ownerOf e = src) (k : RspKind) :
    recvRsp k src dla s = ownerRsp k e t dla s := by
  rw [recvRsp_of_trans hdead hfence he ht]
  rcases hst with h | h <;> rw [h] <;> exact if_pos howner

end

/-- Settles O49. -/
theorem homeAnswerRows : Obligations.HomeAnswerRows := by
  unfold Obligations.HomeAnswerRows
  refine ⟨fun src txid dla e t s hdead hfence he ht hst hpend => ?_,
    fun src txid dla tx k e t s hdead hfence he ht hst howner hsnp => ?_,
    fun src txid dla tx k e t s hdead hfence he ht hst howner hsnp => ?_,
    fun src txid dla e t s hdead hfence he ht hst => ?_,
    fun src txid dla tx k e t s hdead hfence he ht hst howner hsnp => ?_,
    fun src txid dla e t s hdead hfence he ht hst => ?_,
    fun src txid dla tx f k e t s hdead hfence he ht hst howner hsnp hann => ?_,
    fun src txid dla tx f k e t s hdead hfence he ht hst howner hsnp hann hevx => ?_,
    fun node dla s hwaits => congrArg Host.Outcome.next (if_pos hwaits),
    fun node dla s hwaits => congrArg Host.Outcome.next (if_neg (by simp [hwaits])), fun node dla s => rfl,
    fun node s => rfl, fun slice set s => rfl⟩
  · refine congrArg Host.Outcome.next ((recvRsp_of_trans hdead hfence he ht .i).trans ?_)
    rw [hst]
    exact if_pos (by simpa using hpend)
  · refine congrArg Host.Outcome.next ((recvRsp_of_owner hdead hfence he ht hst howner .i).trans ?_)
    rw [ownerRsp, hsnp]
  · refine congrArg Host.Outcome.next ((recvRsp_of_owner hdead hfence he ht (Or.inl hst) howner .s).trans ?_)
    rw [ownerRsp, hsnp, hst, howner]
    rfl
  · refine congrArg Host.Outcome.next ((recvRsp_of_trans hdead hfence he ht .s).trans ?_)
    rw [hst]
    rfl
  · refine congrArg Host.Outcome.next ((recvRsp_of_owner hdead hfence he ht (Or.inl hst) howner .fwd).trans ?_)
    rw [ownerRsp, hsnp, hst, howner]
    rfl
  · refine congrArg Host.Outcome.next ((recvRsp_of_trans hdead hfence he ht .fwd).trans ?_)
    rw [hst]
    rfl
  · refine congrArg Host.Outcome.next ((recvRsp_of_owner hdead hfence he ht hst howner (.wb f)).trans ?_)
    rw [ownerRsp, hsnp, howner]
    exact if_pos (by simpa using hann)
  · refine congrArg Host.Outcome.next ((recvRsp_of_owner hdead hfence he ht hst howner (.wb f)).trans ?_)
    rw [ownerRsp, hsnp]
    exact if_neg (by simp [hann, hevx])

/-! ### The proxy: snoops -/

section
variable {home dla : Nat} {s : State}

theorem recvSnp_of_invalid (hdead : isDead s home = false) (hst : (pxAt s home dla).st = none) (k : SnpKind)
    (txid reqn rqtx : Nat) : recvSnp k home txid dla true reqn rqtx s = sendRsp .rspI home txid dla false s := by
  rw [recvSnp]
  rw [if_neg (by simp [hdead]), if_pos rfl, hst]

theorem recvSnp_of_owned (hdead : isDead s home = false)
    (hst : (pxAt s home dla).st = some .pe ∨ (pxAt s home dla).st = some .pm ∨ (pxAt s home dla).st = some .pmW ∨
      (pxAt s home dla).st = some .peI ∨ (pxAt s home dla).st = some .pmI ∨ (pxAt s home dla).st = some .piX ∨
      (pxAt s home dla).st = some .psX) (k : SnpKind) (txid reqn rqtx : Nat) :
    recvSnp k home txid dla true reqn rqtx s =
      pxGo 40 home dla (modPx home dla (fun y => { y with snoop := some ⟨k, txid, reqn, rqtx⟩ }) s) := by
  rw [recvSnp]
  rw [if_neg (by simp [hdead]), if_pos rfl]
  rcases hst with h | h | h | h | h | h | h <;> rw [h]

theorem recvSnp_of_not_owned (hdead : isDead s home = false)
    (hst : (pxAt s home dla).st = some .ps ∨ (pxAt s home dla).st = some .piS ∨ (pxAt s home dla).st = some .pf)
    (k : SnpKind) (txid reqn rqtx : Nat) :
    recvSnp k home txid dla true reqn rqtx s = protocolError home dla 10 s := by
  rw [recvSnp]
  rw [if_neg (by simp [hdead]), if_pos rfl]
  rcases hst with h | h | h <;> rw [h]

end

/-- Settles O50: the four snoops with OWN share one case analysis over the line's state. -/
theorem proxySnoopRows : Obligations.ProxySnoopRows := by
  unfold Obligations.ProxySnoopRows
  refine ⟨fun home txid dla reqn rqtx s hdead hst =>
      congrArg Host.Outcome.next (recvSnp_of_invalid hdead hst .s txid reqn rqtx),
    fun home txid dla reqn rqtx s hdead hst =>
      congrArg Host.Outcome.next (recvSnp_of_owned hdead hst .s txid reqn rqtx),
    fun home txid dla reqn rqtx s hdead hst =>
      congrArg Host.Outcome.next (recvSnp_of_not_owned hdead hst .s txid reqn rqtx),
    fun home txid dla reqn rqtx s hdead hst =>
      congrArg Host.Outcome.next (recvSnp_of_invalid hdead hst .x txid reqn rqtx),
    fun home txid dla reqn rqtx s hdead hst =>
      congrArg Host.Outcome.next (recvSnp_of_owned hdead hst .x txid reqn rqtx),
    fun home txid dla reqn rqtx s hdead hst =>
      congrArg Host.Outcome.next (recvSnp_of_not_owned hdead hst .x txid reqn rqtx),
    fun home txid dla reqn rqtx s hdead hst =>
      congrArg Host.Outcome.next (recvSnp_of_invalid hdead hst .c txid reqn rqtx),
    fun home txid dla reqn rqtx s hdead hst =>
      congrArg Host.Outcome.next (recvSnp_of_owned hdead hst .c txid reqn rqtx),
    fun home txid dla reqn rqtx s hdead hst =>
      congrArg Host.Outcome.next (recvSnp_of_not_owned hdead hst .c txid reqn rqtx),
    fun home txid dla reqn rqtx s hdead hst =>
      congrArg Host.Outcome.next (recvSnp_of_invalid hdead hst .i txid reqn rqtx),
    fun home txid dla reqn rqtx s hdead hst =>
      congrArg Host.Outcome.next (recvSnp_of_owned hdead hst .i txid reqn rqtx),
    fun home txid dla reqn rqtx s hdead hst =>
      congrArg Host.Outcome.next (recvSnp_of_not_owned hdead hst .i txid reqn rqtx),
    fun home txid dla reqn rqtx s hdead hst => ?_, fun home dla s => rfl,
    fun home dla d s hbusy => congrArg Host.Outcome.next (if_neg (by simp [hbusy])),
    fun home dla s hbusy => congrArg Host.Outcome.next (if_neg (by simp [hbusy]))⟩
  change Host.Outcome.next (recvSnp .i home txid dla false reqn rqtx s) = _
  rw [recvSnp]
  rw [if_neg (by simp [hdead]), if_neg Bool.false_ne_true, if_pos (beq_self_eq_true SnpKind.i)]
  rcases hst with h | h <;> rw [h]

/-! ### The slice cache's upkeep -/

theorem maintStart_of_clear {snd : Sender} {s : State} (h : (maintOf s snd).busy = false) (op : MaintOp) (count : Nat) :
    maintStart snd op count s = maintLines snd op (maintOf s snd).addr (count % 2 ^ 20 + 1)
      (setMaint snd { maintOf s snd with busy := true, done := false, skipped := false, left := count % 2 ^ 20 + 1, op := some op } s) :=
  if_neg (by simp [h])

theorem maintStart_of_busy {snd : Sender} {s : State} (h : (maintOf s snd).busy = true) (op : MaintOp) (count : Nat) :
    maintStart snd op count s = s := if_pos h

/-- What a commit of the SCC group makes of STATE (R284, R285). -/
theorem exec_sccCommit_of_holds {snd : Sender} {s : State} (h : holds snd 1 s = true) {st : Nat} {re : Bool}
    (hst : (if !s.cache.staged.enable then (if s.cache.state = 1 then 2 else s.cache.state)
      else if s.cache.state = 0 then 1 else s.cache.state) = st)
    (hre : (s.cache.staged.enable && s.cache.state == 2) = re) : exec (.sccCommit snd) s =
      .next { s with cache := { s.cache with
        cfg := s.cache.staged, state := st, reOn := re, waysOn := s.cache.waysOn ||| notWays s.cache.staged.wayOff } } := by
  subst hst hre
  exact congrArg Host.Outcome.next (if_pos h)

/-- Settles O52. -/
theorem cacheUpkeepRows : Obligations.CacheUpkeepRows := by
  unfold Obligations.CacheUpkeepRows
  refine ⟨fun snd count s h => congrArg Host.Outcome.next (maintStart_of_clear h .clean count),
    fun snd count s h => congrArg Host.Outcome.next (maintStart_of_busy h .clean count),
    fun snd count s h => congrArg Host.Outcome.next (maintStart_of_clear h .inval count),
    fun snd count s h => congrArg Host.Outcome.next (maintStart_of_busy h .inval count),
    fun snd count s h => congrArg Host.Outcome.next (maintStart_of_clear h .flush count),
    fun snd count s h => congrArg Host.Outcome.next (maintStart_of_busy h .flush count),
    fun snd s hbusy hleft => congrArg Host.Outcome.next (if_pos (by simp [hbusy, hleft])),
    fun snd s hleft => congrArg Host.Outcome.next (if_neg (by simp [hleft])),
    fun snd s hclamp hoff hstate => exec_sccCommit_of_holds hclamp (by simp [hoff, hstate]) (by simp [hoff]),
    fun snd s hclamp hoff hstate => exec_sccCommit_of_holds hclamp (by simp [hoff, hstate]) (by simp [hoff]),
    fun snd s hclamp hon hstate => exec_sccCommit_of_holds hclamp (by simp [hon, hstate]) (by simp [hstate]),
    fun snd s hclamp hon hstate => exec_sccCommit_of_holds hclamp (by simp [hon, hstate]) (by simp [hon, hstate]),
    fun snd s hclamp hon hstate => exec_sccCommit_of_holds hclamp (by simp [hon, hstate]) (by simp [hstate]),
    fun snd s hclamp => congrArg Host.Outcome.next (if_neg (by simp [hclamp])), fun way s hoff hon hempty => ?_,
    fun way s hnot => congrArg Host.Outcome.next (if_pos (by simpa using hnot)), fun s hstate hempty => ?_,
    fun s hstate => congrArg Host.Outcome.next (if_pos hstate)⟩
  · change execWayPowerOffDone way s = _
    rw [execWayPowerOffDone, if_neg (by simp [hoff, hon])]
    exact congrArg Host.Outcome.next (if_pos hempty)
  · change execCacheOffDone s = _
    rw [execCacheOffDone, if_neg (by simp [hstate])]
    exact congrArg Host.Outcome.next (if_pos hempty)

end Sys2Proof.Machine
end

section
/-! Slomugon Link: reception (O53) and training, forwarding and salvage (O54); the memory pool (O55). -/

set_option Elab.async false

namespace Sys2Proof.Machine

/-! ### Reception -/

/-- A FEC block on a link that is UP. -/
theorem execFecBlockReceive_of_up {port : Nat} {s : State} (hup : (sglAt s port).st = .up) (blk : FecBlock) :
    execFecBlockReceive port blk s = .next (
      let u := modSgl port (fun x => { x with blocks := x.blocks + 1 }) s
      if !blk.decoded then badFlit port (modSgl port (fun x => { x with fecUe := satInc 8 x.fecUe }) u)
      else if blk.blk ≠ (sglAt s port).blocks % 4096 then linkDown port u
      else blk.flits.foldl (recvFlit port) u) :=
  congrArg Host.Outcome.next (if_neg (by simp [hup]))

/-- A control flit on a link that is UP, which it does not take down and asks no retraining of. -/
theorem recvControl_of_plain {port : Nat} {ctl : CtlPayload} {s : State} (hup : (sglAt s port).st = .up)
    (hdown : ctl.linkDown = false) (hretrain : ctl.retrainReq = false) : recvControl port ctl s = (
      let u := modSgl port (fun x => { x with freed := ctl.credits }) s
      let v := if ctl.keySwitch then
          if keyAtOk (sglAt u port) ctl.keyAt then modSgl port (fun x => { x with keyAt := some ctl.keyAt }) u
          else linkDown port (emit (.control port (controlOf (sglAt u port) false false true 0)) u)
        else u
      if ctl.nak then replayFrom port ctl.nakSeq v else v) := by
  rw [recvControl, if_neg (by simp [hup])]
  simp only [hdown, hretrain, Bool.false_eq_true, if_false]

/-- Settles O53. -/
theorem linkReceiveRows : Obligations.LinkReceiveRows := by
  unfold Obligations.LinkReceiveRows
  refine ⟨fun port blk s hup hdec hblk => ?_, fun port blk s hup hdec => ?_, fun port blk s hup hdec hblk => ?_,
    fun port ctl s hup hdown hkey hretrain hnak => ?_, fun port ctl s hup hdown => ?_,
    fun port ctl s hup hdown hkey hretrain hnak => ?_, fun port ctl s hup hdown hkey hretrain hnak hok => ?_,
    fun port s hwait hup => ?_, fun port s hwait => ?_, fun port f fs s hretry hup => ?_, fun port s hretry => ?_,
    fun port s hup => ?_, fun port s => rfl, fun port lane s hwidth => ?_, fun port lane s hwidth => ?_,
    fun port a b ls s => rfl, fun port s hup => ?_, fun port at_ s hkey => ?_, fun port s hkey => ?_⟩
  · refine (execFecBlockReceive_of_up hup blk).trans ?_
    exact congrArg Host.Outcome.next ((if_neg (by simp [hdec])).trans (if_neg (by simp [hblk])))
  · refine (execFecBlockReceive_of_up hup blk).trans ?_
    exact congrArg Host.Outcome.next (if_pos (by simp [hdec]))
  · refine (execFecBlockReceive_of_up hup blk).trans ?_
    exact congrArg Host.Outcome.next ((if_neg (by simp [hdec])).trans (if_pos hblk))
  · refine congrArg Host.Outcome.next ((recvControl_of_plain hup hdown hretrain).trans ?_)
    simp only [hkey, hnak, Bool.false_eq_true, if_false]
  · change Host.Outcome.next (recvControl port ctl s) = _
    rw [recvControl, if_neg (by simp [hup])]
    exact congrArg Host.Outcome.next (if_pos hdown)
  · refine congrArg Host.Outcome.next ((recvControl_of_plain hup hdown hretrain).trans ?_)
    simp only [hkey, hnak, Bool.false_eq_true, if_false, if_true]
  · refine congrArg Host.Outcome.next ((recvControl_of_plain hup hdown hretrain).trans ?_)
    simp only [hkey, hnak, hok, Bool.false_eq_true, if_false, if_true]
  · exact congrArg Host.Outcome.next (if_pos (by simp [hwait, hup]))
  · exact congrArg Host.Outcome.next (if_neg (by simp [hwait]))
  · change execAckTimeout port s = _
    rw [execAckTimeout, hretry]
    exact congrArg Host.Outcome.next (if_pos (by simp [hup]))
  · change execAckTimeout port s = _
    rw [execAckTimeout, hretry]
  · exact congrArg Host.Outcome.next (if_pos (by simp [hup]))
  · exact congrArg Host.Outcome.next (if_pos hwidth)
  · exact congrArg Host.Outcome.next (if_neg hwidth)
  · exact congrArg Host.Outcome.next (if_neg (by simp [hup]))
  · change execKeySwitchApply port s = _
    rw [execKeySwitchApply, hkey]
  · change execKeySwitchApply port s = _
    rw [execKeySwitchApply, hkey]

/-! ### Training, forwarding, salvage -/

/-- What a port's training does once the firmware runs and the supply is up. -/
theorem execLinkTrain_of_trainable {port : Nat} {inp : TrainInput} {s : State} (hup : (sglAt s port).st ≠ .up)
    (hrefused : (sglAt s port).st ≠ .refused) (hready : s.mb.mpReady = true)
    (hphase : s.pw.phase = .boot ∨ s.pw.phase = .replay ∨ s.pw.phase = .service ∨ s.pw.phase = .flush) :
    execLinkTrain port inp s = .next (
      if inp.width = 0 then modSgl port (fun x => { x with st := .detect, width := 0 }) s
      else if !inp.lockOk then modSgl port (fun x => { x with st := .eq, width := 0 }) s
      else
        let u := emit (.identity port (identity s port)) s
        if identCheck s inp = 0 then linkUp port inp (modSgl port (fun x => { x with refuse := 0 }) u)
        else
          let v := modSgl port (fun x => { x with
            st := .refused, refuse := identCheck s inp, width := 0, nbr := inp.nbrNode, nbrPort := inp.nbrPort }) u
          if identCheck s inp = 3 then duplicate (me s) inp.nbrSerial v else v) := by
  refine congrArg Host.Outcome.next (if_neg ?_)
  rcases hphase with h | h | h | h <;> simp [hup, hrefused, hready, h]

/-- The training of a link whose lock holds, with the IDENT check's result. -/
theorem execLinkTrain_of_lock {port : Nat} {inp : TrainInput} {s : State} (hup : (sglAt s port).st ≠ .up)
    (hrefused : (sglAt s port).st ≠ .refused) (hready : s.mb.mpReady = true)
    (hphase : s.pw.phase = .boot ∨ s.pw.phase = .replay ∨ s.pw.phase = .service ∨ s.pw.phase = .flush)
    (hwidth : inp.width ≠ 0) (hlock : inp.lockOk = true) : execLinkTrain port inp s = .next (
      let u := emit (.identity port (identity s port)) s
      if identCheck s inp = 0 then linkUp port inp (modSgl port (fun x => { x with refuse := 0 }) u)
      else
        let v := modSgl port (fun x => { x with
          st := .refused, refuse := identCheck s inp, width := 0, nbr := inp.nbrNode, nbrPort := inp.nbrPort }) u
        if identCheck s inp = 3 then duplicate (me s) inp.nbrSerial v else v) := by
  rw [execLinkTrain_of_trainable hup hrefused hready hphase, if_neg hwidth, if_neg (by simp [hlock])]

theorem forward_of_route {inPort sub : Nat} {msg : SglMsg} {e : RouteEntry} {s : State}
    (he : Table.get? s.sgl.routes msg.dst = some e) : (e.reach = false → forward inPort sub msg s = unreachable msg s) ∧
    (∀ p, e.reach = true → sub = 0 → isManagement msg = false → adaptivePort s e msg = some p →
      forward inPort sub msg s = transmit p 0 msg s) := by
  refine ⟨fun hreach => ?_, fun p hreach hsub hmsg hp => ?_⟩
  · simp only [forward, he, hreach, Bool.not_false, if_true]
  · simp only [forward, he, hreach, hsub, hmsg, hp, Bool.not_true, Bool.false_eq_true, if_false, decide_true, Bool.not_false,
      Bool.and_self, if_true]

/-- Settles O54. -/
theorem linkTrainRows : Obligations.LinkTrainRows := by
  unfold Obligations.LinkTrainRows
  refine ⟨fun port inp s hup hrefused hready hphase hwidth => ?_,
    fun port inp s hup hrefused hready hphase hwidth hlock => ?_,
    fun port inp s hup hrefused hready hphase hwidth hlock hident => ?_,
    fun port inp s hup hrefused hready hphase hwidth hlock hident hnode => ?_,
    fun port inp s hup hrefused hready hphase hwidth hlock hident => ?_, fun port inp s hnot => ?_,
    fun port s hrefused => congrArg Host.Outcome.next (if_pos (by simp [hrefused])),
    fun inPort sub msg s hdst => congrArg Host.Outcome.next (if_pos hdst),
    fun inPort sub msg s hdst => congrArg Host.Outcome.next (if_neg hdst),
    fun inPort sub msg e s hdst he hreach =>
      congrArg Host.Outcome.next ((if_neg hdst).trans ((forward_of_route he).1 hreach)),
    fun inPort msg e p s hdst he hreach hmsg hp =>
      congrArg Host.Outcome.next ((if_neg hdst).trans ((forward_of_route he).2 p hreach rfl hmsg hp)),
    fun src txid mcode s => rfl, fun port lastSeq s hup hany => ?_, fun port lastSeq s hup hany => ?_⟩
  · refine (execLinkTrain_of_trainable hup hrefused hready hphase).trans ?_
    exact congrArg Host.Outcome.next (if_pos hwidth)
  · refine (execLinkTrain_of_trainable hup hrefused hready hphase).trans ?_
    exact congrArg Host.Outcome.next ((if_neg hwidth).trans (if_pos (by simp [hlock])))
  · refine (execLinkTrain_of_lock hup hrefused hready hphase hwidth hlock).trans ?_
    exact congrArg Host.Outcome.next (if_pos hident)
  · refine (execLinkTrain_of_lock hup hrefused hready hphase hwidth hlock).trans ?_
    exact congrArg Host.Outcome.next ((if_neg hident).trans (if_neg hnode))
  · refine (execLinkTrain_of_lock hup hrefused hready hphase hwidth hlock).trans ?_
    rw [hident]
    rfl
  · refine congrArg Host.Outcome.next (if_pos ?_)
    rcases hnot with h | h | h | h | h | h <;> simp [h]
  · change execSalvage port lastSeq s = _
    rw [execSalvage, if_neg (by simpa using hup), hany]
    rfl
  · change execSalvage port lastSeq s = _
    rw [execSalvage, if_neg (by simpa using hup), hany]
    rfl

/-! ### The pool -/

/-- A new LSA that reveals no duplicate is judged and may call for READY. -/
theorem execLsa_of_no_clash {port : Nat} {body : Lsa} {s u : State}
    (hnew : s.sgl.lsdb.any (fun x =>
      x.1.origin == body.origin && x.1.serial == body.serial && decide (body.seq ≤ x.1.seq)) = false)
    (hu : floodTo 1 (lsaWords body) ((upPorts s).filter (· != port)) (storeLsa body s) = u)
    (hother : ((lsasOf u body.origin).find? (fun l => l.serial != body.serial)).isSome = false)
    (hmine : (body.origin == me u && u.sgl.cfg.nodeSet && body.serial != mySerial) = false) :
    execLsa port body s = .next (sendReady (meetPartition u)) := by
  rw [execLsa, hnew, hu]
  dsimp only
  simp only [hother, hmine, Bool.or_self, Bool.false_and, Bool.false_eq_true, if_false]

/-- Settles O55. -/
theorem poolRows : Obligations.PoolRows := by
  unfold Obligations.PoolRows
  refine ⟨fun port body s hseen => congrArg Host.Outcome.next (if_pos hseen),
    fun port body s hnew hother hmine => execLsa_of_no_clash hnew rfl hother hmine,
    fun s hstale => congrArg Host.Outcome.next (if_pos hstale),
    fun s hstale => congrArg Host.Outcome.next (if_neg (by simp [hstale])), fun child map s => rfl,
    fun s hgather hridge hdecl => ?_, fun s hnot => ?_, fun port gen ridge map s hpool hgen => ?_,
    fun port gen ridge map s hnot => ?_, fun s hstate => congrArg Host.Outcome.next (if_neg hstate),
    fun s hstate => congrArg Host.Outcome.next (if_pos hstate),
    fun node serial s hridge hdecl hnew hroster hdup hserial => ?_, fun node serial s hridge => ?_,
    fun node cause s hridge hdecl hpresent hme => ?_, fun node cause s hridge => ?_,
    fun node s hdecl hpresent hme hdist hother hridge => ?_, fun node s hdecl hpresent hme hdist hridge hsucc => ?_,
    fun node serial s hdup => congrArg Host.Outcome.next (if_pos (by simpa using hdup)),
    fun node serial s hdup hfew hme => ?_⟩
  · exact congrArg Host.Outcome.next (if_pos (by simp [hgather, hridge, hdecl]))
  · refine congrArg Host.Outcome.next (if_neg ?_)
    rcases hnot with h | h <;> simp [h]
  · exact congrArg Host.Outcome.next (if_neg (by simp [hpool, hgen]))
  · refine congrArg Host.Outcome.next (if_pos ?_)
    rcases hnot with h | h <;> simp [h]
  · refine congrArg Host.Outcome.next (if_pos ?_)
    simp only [hridge, hdecl, hnew, hroster, hdup, hserial, decide_true, Bool.not_false, Bool.and_self]
  · exact congrArg Host.Outcome.next (if_neg (by simp [hridge]))
  · exact congrArg Host.Outcome.next (if_pos (by simp [hridge, hdecl, hpresent, hme]))
  · exact congrArg Host.Outcome.next (if_neg (by simp [hridge]))
  · change execMemberUnreachable node s = _
    rw [execMemberUnreachable, if_neg (by simp only [hdecl, hpresent, hme, hdist]; decide), if_neg hother, if_pos hridge]
  · change execMemberUnreachable node s = _
    rw [execMemberUnreachable, if_neg (by simp only [hdecl, hpresent, hme, hdist]; decide), if_pos hridge, if_pos hsucc]
  · change execDuplicateExpire node serial s = _
    rw [execDuplicateExpire, if_neg (by simpa using hdup)]
    refine congrArg Host.Outcome.next ((if_pos hfew).trans (if_neg ?_))
    rw [Bool.and_eq_true]
    exact fun h => hme (of_decide_eq_true h.1)

end Sys2Proof.Machine
end

section
/-! The medium's reads (O56) and faults (O57), and placement (O58). -/

set_option Elab.async false

namespace Sys2Proof.Machine

/-! ### Reads -/

section
variable {rid : Nat} {rd : MedRead} {s : State}

/-- A waiting read that nothing keeps from starting. -/
theorem execMediumReadStart_of_free (hrd : Table.get? s.sched.reads rid = some rd) (hstarted : rd.started = false)
    (hheld : s.sched.held = false) (hmay : mayStart s rd = true) (hrank : outranked s rid rd = false)
    (hslots : slotsOpen s rd (readPlan s rd.loc).1 = true) : execMediumReadStart rid s = .next (startRead rid rd s) := by
  simp only [execMediumReadStart, hrd, hstarted, hheld, hmay, hrank, hslots, Bool.not_true, Bool.or_self,
    Bool.false_eq_true, if_false]

/-- What keeps a waiting read from starting. -/
theorem execMediumReadStart_of_kept (hrd : Table.get? s.sched.reads rid = some rd)
    (hkept : (rd.started || s.sched.held || !mayStart s rd || outranked s rid rd
      || !slotsOpen s rd (readPlan s rd.loc).1) = true) : execMediumReadStart rid s = .next s := by
  simp only [execMediumReadStart, hrd, hkept, if_true]

variable {x : Stripe}

theorem stripeOf_of_stripeAt (hx : stripeAt s rd.loc.stripe = some x) : stripeOf s rd.loc = x := by
  rw [stripeOf, hx]
  rfl

/-- In a stripe that lost no member, an unclaimed die is sensed itself, a claimed one through the others (R94). -/
theorem readPlan_of_whole (hx : stripeAt s rd.loc.stripe = some x) (hlost : x.lost = []) : readPlan s rd.loc =
    if claimedAt s rd.loc then (x.members.filter (fun t => t != rd.loc.stack), true) else ([rd.loc.stack], false) := by
  simp only [readPlan, stripeOf_of_stripeAt hx, hlost, List.contains_nil, List.isEmpty_nil, Bool.and_true,
    Bool.false_eq_true, if_false]

/-- In a stripe that lost a member, the lost die is read through the others, another die itself (R97). -/
theorem readPlan_of_lossy (hx : stripeAt s rd.loc.stripe = some x) (hlost : x.lost ≠ []) : readPlan s rd.loc =
    if x.lost.contains rd.loc.stack then (x.members.filter (fun t => t != rd.loc.stack), true)
    else ([rd.loc.stack], false) := by
  have hsome : x.lost.isEmpty = false := by simpa using hlost
  simp only [readPlan, stripeOf_of_stripeAt hx, hsome, Bool.and_false, Bool.false_eq_true, if_false]

theorem startRead_of_whole (hx : stripeAt s rd.loc.stripe = some x) (hlost : x.lost = []) {dies : List Nat}
    {flash : Bool} (hplan : readPlan s rd.loc = (dies, flash)) : startRead rid rd s =
      startSenses rd.loc dies (reserveSlots (rd.prio == 2) rd.loc.fast rd.loc.group dies (modRead rid (fun r => { r with
        started := true, flashing := flash, suspended := false, bucket := readByte s rd.loc.stack rd.loc.stripe })
        (countConfirmed rd.use flash s))) := by
  simp only [startRead, stripeOf_of_stripeAt hx, hlost, hplan, List.isEmpty_nil, Bool.not_true, Bool.false_eq_true, if_false]

/-- In a stripe that lost a member, an operation in the way is suspended first (R97, R219). -/
theorem startRead_of_lossy (hx : stripeAt s rd.loc.stripe = some x) (hlost : x.lost ≠ []) {dies : List Nat}
    {flash : Bool} (hplan : readPlan s rd.loc = (dies, flash)) : startRead rid rd s = (
      let u := suspendFor dies rd.loc.group rd.loc.part s
      startSenses rd.loc dies (reserveSlots (rd.prio == 2) rd.loc.fast rd.loc.group dies (modRead rid (fun r => { r with
        started := true, flashing := flash, suspended := true, bucket := readByte u rd.loc.stack rd.loc.stripe })
        (countConfirmed rd.use flash u)))) := by
  have hsome : x.lost.isEmpty = false := by simpa using hlost
  simp only [startRead, stripeOf_of_stripeAt hx, hsome, hplan, Bool.not_false, if_true]

theorem mayStart_of_own_die {dies : List Nat} (hplan : readPlan s rd.loc = (dies, false)) : mayStart s rd = true := by
  simp [mayStart, hplan]

theorem mayStart_of_confirmed (hspec : rd.use.isSpec = false) : mayStart s rd = true := by
  simp [mayStart, hspec]

end

/-- Settles O56: the plan of a read is read off its stripe's losses and the claim. -/
theorem mediumReadRows : Obligations.MediumReadRows := by
  unfold Obligations.MediumReadRows
  refine ⟨fun rid rd x s hrd hstarted hheld hrank hslots hx hlost hclaim => ?_,
    fun rid rd x s hrd hstarted hheld hrank hslots hx hlost hclaim hspec => ?_,
    fun rid rd x s hrd hstarted hheld hrank hslots hx hlost hspec => ?_,
    fun rid rd x s hrd hstarted hheld hrank hslots hx hother hlost => ?_, fun rid rd s hrd hspec hflash => ?_,
    fun rid rd s hrd hnot => ?_, fun rid rd s hrd hnot => ?_, fun group part stack s hreads hown => ?_,
    fun group part stack s hreads hother => ?_, fun group part stack s hreads => congrArg Host.Outcome.next (if_pos hreads),
    fun cls cr j s hprog hfew hclass hwork => ?_, fun s hnot => ?_, fun group part s hstate => ?_,
    fun group part s hstate => ?_, fun group part pass s hstate => congrArg Host.Outcome.next (if_pos hstate),
    fun group part pass s hstate => congrArg Host.Outcome.next (if_neg (by simp [hstate])),
    fun group part pass s hstate => congrArg Host.Outcome.next (if_pos hstate)⟩
  · have hplan : readPlan s rd.loc = ([rd.loc.stack], false) := by rw [readPlan_of_whole hx hlost, hclaim]; rfl
    refine (execMediumReadStart_of_free hrd hstarted hheld (mayStart_of_own_die hplan) hrank hslots).trans ?_
    rw [startRead_of_whole hx hlost hplan]
  · have hplan : readPlan s rd.loc = (x.members.filter (fun t => t != rd.loc.stack), true) := by
      rw [readPlan_of_whole hx hlost, if_pos hclaim]
    refine (execMediumReadStart_of_free hrd hstarted hheld (mayStart_of_confirmed hspec) hrank hslots).trans ?_
    rw [startRead_of_whole hx hlost hplan]
  · have hsome : x.lost ≠ [] := List.ne_nil_of_mem (List.contains_iff_mem.mp hlost)
    have hplan : readPlan s rd.loc = (x.members.filter (fun t => t != rd.loc.stack), true) := by
      rw [readPlan_of_lossy hx hsome, if_pos hlost]
    refine (execMediumReadStart_of_free hrd hstarted hheld (mayStart_of_confirmed hspec) hrank hslots).trans ?_
    rw [startRead_of_lossy hx hsome hplan]
  · have hplan : readPlan s rd.loc = ([rd.loc.stack], false) := by
      rw [readPlan_of_lossy hx hlost, hother]
      rfl
    refine (execMediumReadStart_of_free hrd hstarted hheld (mayStart_of_own_die hplan) hrank hslots).trans ?_
    rw [startRead_of_lossy hx hlost hplan]
  · exact execMediumReadStart_of_kept hrd (by simp [mayStart, hspec, hflash])
  · exact execMediumReadStart_of_kept hrd (by rcases hnot with h | h <;> simp [h])
  · exact execMediumReadStart_of_kept hrd (by rcases hnot with h | h <;> simp [h])
  · exact congrArg Host.Outcome.next ((if_neg hreads).trans (if_pos hown))
  · exact congrArg Host.Outcome.next ((if_neg hreads).trans (if_neg hother))
  · change execSlotGrant s = _
    rw [execSlotGrant, if_neg (by simp [hprog, hfew]), hclass]
    dsimp only
    rw [hwork]
  · refine congrArg Host.Outcome.next (if_pos ?_)
    rcases hnot with h | h <;> simp [h]
  · exact congrArg Host.Outcome.next ((if_neg (by simp [hstate])).trans (if_pos rfl))
  · exact congrArg Host.Outcome.next ((if_neg (by simp [hstate])).trans (if_neg Bool.false_ne_true))

/-! ### Faults -/

theorem declareFailed_of_die_standing {t g : Nat} {s : State} (h : dieLost s t g = false) :
    declareFailed (.die t g) s = (
      let u := holdMedium (event .dieFailed 7 [t, g] (loseDie t g { s with prot := { s.prot with
        declared := (.die t g, s.now) :: s.prot.declared } }))
      if declaredLately s (otherDie t g) then failStack t u else u) := if_neg (by simp [h])

theorem execFaultRelease_of_held {f : HeldFault} {s : State} (h : s.prot.faults.contains f = true) :
    ¬((!s.prot.faults.contains f) = true) := by
  simp only [h]
  decide

/-- Settles O57. -/
theorem mediumFaultRows : Obligations.MediumFaultRows := by
  unfold Obligations.MediumFaultRows
  refine ⟨fun t g s hfew => ?_, fun n s hfew => ?_, fun t g s hthird => ?_, fun t g s hlost hother => ?_,
    fun t g s hlost hother => ?_, fun t g s hlost => congrArg Host.Outcome.next (if_pos hlost), fun s hheld => ?_,
    fun d s hheld => ?_, fun f s hheld => ?_⟩
  · exact congrArg Host.Outcome.next (if_neg (Nat.not_le.mpr hfew))
  · exact congrArg Host.Outcome.next (if_neg (Nat.not_le.mpr hfew))
  · exact congrArg Host.Outcome.next (if_pos hthird)
  · refine congrArg Host.Outcome.next ((declareFailed_of_die_standing hlost).trans ?_)
    rw [hother]
    rfl
  · refine congrArg Host.Outcome.next ((declareFailed_of_die_standing hlost).trans ?_)
    rw [hother]
    rfl
  · exact congrArg Host.Outcome.next (if_neg (execFaultRelease_of_held hheld))
  · exact congrArg Host.Outcome.next (if_neg (execFaultRelease_of_held hheld))
  · exact congrArg Host.Outcome.next (if_pos (by simp only [hheld]; decide))

/-! ### Placement -/

section
variable {stripe stack row : Nat} {x : Stripe} {s : State}

/-- The read-back of a passed DRAIN row of a member. -/
theorem execDrainRowReadback_of_passed (hx : stripeAt s stripe = some x) (hstream : x.stream = 0) (hrow : row < x.passed)
    (hmember : x.members.contains stack = true) (worst : Option Nat) : execDrainRowReadback stripe stack row worst s =
      .next (
        if worst.any (· ≤ 2) then
          let u := checkRow stripe stack row s
          ((rowTouch true row).filter (fun n => match stripeAt u stripe with
            | some y => rowsChecked y stack n
            | none => false)).foldl (fun s n => releaseStaged (locOf stripe stack true n) s) u
        else courseFail stripe stack s) := by
  have hgo : ¬(x.stream ≠ 0 ∨ x.passed ≤ row ∨ (!x.members.contains stack) = true) := by
    simp only [hstream, hmember, Nat.not_le.mpr hrow]
    decide
  rw [execDrainRowReadback, hx]
  exact congrArg Host.Outcome.next (if_neg hgo)

/-- The verify read of a passed dense row of a member. -/
theorem execVerifyReadDue_of_passed (hx : stripeAt s stripe = some x) (hreclaim : x.reclaim = false) (hrow : row < x.passed)
    (hmember : x.members.contains stack = true) (hfast : x.fast = false) (worst : Option Nat) :
    execVerifyReadDue stripe stack row worst s = .next (
      if worst.any (· ≤ 2) then checkRow stripe stack row s else courseFail stripe stack s) := by
  have hgo : ¬(x.reclaim = true ∨ x.passed ≤ row ∨ (!x.members.contains stack) = true ∨ x.fast = true) := by
    simp only [hreclaim, hfast, hmember, Nat.not_le.mpr hrow]
    decide
  rw [execVerifyReadDue, hx]
  exact congrArg Host.Outcome.next (if_neg hgo)

theorem execReclaimGrant_of_stripe (hx : stripeAt s stripe = some x) : execReclaimGrant stripe s = .next (
    if x.reclaim && x.resets.isEmpty && heirsVerified s x && decide (x.emptyEp ≤ s.per.committed)
        && decide (x.emptyGen + 2 ≤ s.sched.rgen) then
      modStripe stripe (fun y => { y with resets := y.members, resetAt := s.now }) s
    else s) := by
  rw [execReclaimGrant, hx]

end

theorem execRoundDeadline_of_find {group stream : Nat} {s : State} {o : Option (Nat × Stripe)} :
    s.tr.stripes.find? (fun x => stripeGroup x.1 == group && x.2.stream == stream && !x.2.failed && !x.2.reclaim
      && (match topRow x.2 with | some r => decide (x.2.begun ≤ r) | none => false)) = o →
    execRoundDeadline group stream s = .next (match o with
      | some (k, x) => startRound k (padTo k x.begun s)
      | none => s) := by
  rintro rfl
  rfl

/-- Settles O58. -/
theorem placementRows : Obligations.PlacementRows := by
  unfold Obligations.PlacementRows
  refine ⟨fun group stream k x s hfind => ?_, fun group stream s hfind => ?_,
    fun group stream k x s hfind => execRoundDeadline_of_find hfind,
    fun group stream s hfind => execRoundDeadline_of_find hfind,
    fun stripe stack row b x s hx hstream hrow hmember hfew => ?_,
    fun stripe stack row b x s hx hstream hrow hmember hmany => ?_,
    fun stripe stack row x s hx hstream hrow hmember => ?_,
    fun stripe stack row b x s hx hreclaim hrow hmember hfast hfew => ?_,
    fun stripe stack row b x s hx hreclaim hrow hmember hfast hmany => ?_,
    fun s hzero => congrArg Host.Outcome.next (if_pos hzero),
    fun s hzero => congrArg Host.Outcome.next (if_neg (by simp only [hzero]; decide)),
    fun stripe x s hx hreclaim hresets hheirs hep hgen => ?_, fun stripe x s hx hnot => ?_⟩
  · change execRoundStart group stream s = _
    rw [execRoundStart, hfind]
  · change execRoundStart group stream s = _
    rw [execRoundStart, hfind]
  · refine (execDrainRowReadback_of_passed hx hstream hrow hmember (some b)).trans ?_
    exact congrArg Host.Outcome.next (if_pos (by simpa using hfew))
  · refine (execDrainRowReadback_of_passed hx hstream hrow hmember (some b)).trans ?_
    exact congrArg Host.Outcome.next (if_neg (by simpa using hmany))
  · exact execDrainRowReadback_of_passed hx hstream hrow hmember none
  · refine (execVerifyReadDue_of_passed hx hreclaim hrow hmember hfast (some b)).trans ?_
    exact congrArg Host.Outcome.next (if_pos (by simpa using hfew))
  · refine (execVerifyReadDue_of_passed hx hreclaim hrow hmember hfast (some b)).trans ?_
    exact congrArg Host.Outcome.next (if_neg (by simpa using hmany))
  · refine (execReclaimGrant_of_stripe hx).trans ?_
    exact congrArg Host.Outcome.next (if_pos (by simp [hreclaim, hresets, hheirs, hep, hgen]))
  · refine (execReclaimGrant_of_stripe hx).trans (congrArg Host.Outcome.next (if_neg ?_))
    rcases hnot with h | h | h
    · simp [Nat.not_le.mpr h]
    · simp [Nat.not_le.mpr h]
    · simp [h]

end Sys2Proof.Machine
end

section
/-! Relocation (O59) and the patrols (O60). -/

set_option Elab.async false

namespace Sys2Proof.Machine

/-! ### Relocation -/

/-- The relocations that a halted channel left with failed sectors (R197). -/
def haltedOf (s : State) (chan : Nat) : List (Nat × Reloc) :=
  s.tr.relocs.filter (fun r => !r.2.halted.isEmpty && chanBit (quadOfLpn r.1) r.2.kind.chan == chan)

theorem execDmaResume_of_halted {chan : Nat} {s : State} (hhalted : chanHalted s chan = true)
    (hready : s.mb.mpReady = true) : execDmaResume chan s = .next (
      stagePages (placeBacks ((haltedOf s chan).foldl (fun s x =>
        { s with tr := { s.tr with relocs := Table.put s.tr.relocs x.1 { x.2 with
          halted := [], got := x.2.halted.foldl (fun g line => Table.put g line (poisonSector false x.2.epoch)) x.2.got } } })
        { s with prot := { s.prot with
          halted := s.prot.halted - 2 ^ chan, haltPage := Table.del s.prot.haltPage chan } }))) :=
  congrArg Host.Outcome.next (if_neg (by simp [hhalted, hready]))

theorem execRelocationSwitch_of_target {lpn : Nat} {r : Reloc} {l : Loc} {s : State}
    (hr : Table.get? s.tr.relocs lpn = some r) (hl : r.target = some l) :
    execRelocationSwitch lpn s = .next (if pageVerified s l then switchPage lpn r l s else s) := by
  rw [execRelocationSwitch, hr]
  dsimp only
  rw [hl]

/-- Garbage collection once the metadata of a failed META stripe is rewritten. -/
theorem execGcStep_of_prepared {group : Nat} {s u : State} :
    (match failedMeta (stagePages (reclaimEmptied 2 (reclaimEmptied 1 s))) group with
      | some m => rewriteMeta m (stagePages (reclaimEmptied 2 (reclaimEmptied 1 s)))
      | none => stagePages (reclaimEmptied 2 (reclaimEmptied 1 s))) = u →
    execGcStep group s = .next (
      if u.tr.readOnly || (decide (1024 ≤ freeCount u group) && !queuedVictim u group) then u
      else match victimOf u group with
        | some k => emptyStripe .gc k u
        | none => if freeCount u group ≤ 512 then enterReadOnly u else u) := by
  rintro rfl
  rfl

/-- What makes garbage collection look for a victim. -/
theorem gc_wanted {group : Nat} {u : State} (hwrite : u.tr.readOnly = false)
    (hlow : freeCount u group < 1024 ∨ queuedVictim u group = true) :
    ¬((u.tr.readOnly || (decide (1024 ≤ freeCount u group) && !queuedVictim u group)) = true) := by
  rcases hlow with h | h
  · simp [hwrite, Nat.not_le.mpr h]
  · simp [hwrite, h]

theorem execLevelCheck_eq (s : State) : execLevelCheck s = .next (
    let u := { s with tr := { s.tr with spread := s.tr.spreadNx } }
    if s.tr.readOnly || decide (wearSpread s ≤ s.tr.spreadNx) then u
    else match levelSource u with
      | some k => emptyStripe .level k u
      | none => u) := rfl

theorem execRefreshStep_of_next {k : Nat} {x : Stripe} {s : State} (hprog : progAllowed (stagePages s) = true)
    (hnext : refreshNext (stagePages s) = some (k, x)) : execRefreshStep s = .next (
      if x.stream = 3 then rewriteMeta k (stagePages s) else emptyStripe .refresh k (stagePages s)) := by
  rw [execRefreshStep]
  refine congrArg Host.Outcome.next ((if_neg (by simp [hprog])).trans ?_)
  rw [hnext]

theorem execRemirrorStep_of_working {n ptr : Nat} {s : State} (hptr : s.dram.remir = some (n, ptr))
    (hsound : s.prot.faults.any (fun f => f == .lpddr n) = false) : execRemirrorStep s = .next (
      let u := clearRow (4 * remirDevice n (ptr % 2 == 1) + ptr / 2 % 4) (0x9D00 + ptr / 2 / 4) s
      if ptr + 1 < remirRows then { u with dram := { u.dram with remir := some (n, ptr + 1) } } else remirrorDone u) := by
  rw [execRemirrorStep, hptr]
  dsimp only
  rw [hsound]
  rfl

/-- Settles O59. -/
theorem relocationRows : Obligations.RelocationRows := by
  unfold Obligations.RelocationRows
  refine ⟨fun chan s hnot => ?_, fun chan s hhalted hready hmine => ?_, fun chan lpn r s hhalted hready hmine => ?_,
    fun lpn r l s hr hl hver => ?_, fun lpn r l s hr hl hver => ?_, fun lpn s hr => ?_, fun q s hoff => ?_,
    fun q k s hoff hk => ?_, fun group s u hu hidle => ?_, fun group k s u hu hwrite hlow hk => ?_,
    fun group s u hu hwrite hlow hnone hfew => ?_, fun s hidle => ?_, fun k s hwrite hspread hk => ?_,
    fun s hidle => ?_, fun k x s hprog hnext hstream => ?_, fun k x s hprog hnext hstream => ?_, fun s hnext => ?_,
    fun k x s hnext hstream => ?_, fun k x s hnext hstream => ?_, fun n ptr s hptr hsound hmore => ?_,
    fun n ptr s hptr hsound hlast => ?_, fun s hptr => ?_⟩
  · refine congrArg Host.Outcome.next (if_pos ?_)
    rcases hnot with h | h <;> simp [h]
  · refine (execDmaResume_of_halted hhalted hready).trans ?_
    rw [haltedOf, hmine]
    rfl
  · refine (execDmaResume_of_halted hhalted hready).trans ?_
    rw [haltedOf, hmine]
    rfl
  · exact (execRelocationSwitch_of_target hr hl).trans (congrArg Host.Outcome.next (if_pos hver))
  · exact (execRelocationSwitch_of_target hr hl).trans (congrArg Host.Outcome.next (if_neg (by simp [hver])))
  · change execRelocationSwitch lpn s = _
    rw [execRelocationSwitch, hr]
  · exact congrArg Host.Outcome.next (if_pos (by simp [hoff]))
  · change execFoldStep q s = _
    rw [execFoldStep]
    refine congrArg Host.Outcome.next ((if_neg (by simp [hoff])).trans ?_)
    rw [hk]
  · refine (execGcStep_of_prepared hu).trans (congrArg Host.Outcome.next (if_pos ?_))
    rcases hidle with h | ⟨hfree, hqueued⟩
    · simp [h]
    · simp [hfree, hqueued]
  · refine (execGcStep_of_prepared hu).trans (congrArg Host.Outcome.next ((if_neg (gc_wanted hwrite hlow)).trans ?_))
    rw [hk]
  · refine (execGcStep_of_prepared hu).trans (congrArg Host.Outcome.next ((if_neg (gc_wanted hwrite hlow)).trans ?_))
    rw [hnone]
    exact if_pos hfew
  · refine (execLevelCheck_eq s).trans (congrArg Host.Outcome.next (if_pos ?_))
    rcases hidle with h | h <;> simp [h]
  · refine (execLevelCheck_eq s).trans ?_
    refine congrArg Host.Outcome.next ((if_neg (by simp [hwrite, hspread])).trans ?_)
    rw [hk]
  · change execRefreshStep s = _
    rw [execRefreshStep]
    rcases hidle with h | h
    · exact congrArg Host.Outcome.next (if_pos (by simp [h]))
    · dsimp only
      rw [h]
      exact congrArg Host.Outcome.next (ite_self _)
  · exact (execRefreshStep_of_next hprog hnext).trans (congrArg Host.Outcome.next (if_neg hstream))
  · exact (execRefreshStep_of_next hprog hnext).trans (congrArg Host.Outcome.next (if_pos hstream))
  · change execRebuildStep s = _
    simp only [execRebuildStep, hnext]
  · change execRebuildStep s = _
    simp only [execRebuildStep, hnext, hstream, if_true]
  · change execRebuildStep s = _
    simp only [execRebuildStep, hnext, hstream, if_false]
  · exact (execRemirrorStep_of_working hptr hsound).trans (congrArg Host.Outcome.next (if_pos hmore))
  · exact (execRemirrorStep_of_working hptr hsound).trans (congrArg Host.Outcome.next (if_neg hlast))
  · change execRemirrorStep s = _
    rw [execRemirrorStep, hptr]

/-! ### Patrols -/

/-- A scrub step ends its pass or moves its progress (R210). -/
def scrubStepEnd (course sector : Nat) (u : State) : State :=
  if passEnds u course sector then endPass u else { u with prot := { u.prot with progress := course / 128 % 65536 } }

/-- A scrub step in service on a channel that is not halted: what it reads, then the pass. -/
theorem execPatrolScrub_of_running {course sector : Nat} {res : SenseResult} {s : State} (hphase : s.pw.phase = .service)
    (hchan : chanHalted s (chanBit (courseStack course / 2) 3) = false) : execPatrolScrub course sector res s = .next (
      let l := locOf (courseStripe course) (courseStack course) (courseOf s course).fast sector
      scrubStepEnd course sector (
        if !scrubbed s course || decide (scrubLast (courseOf s course).fast < sector) then s
        else match lineAtLoc s l with
          | some dla => scrubLine course dla { scrubRead s l with use := .redrain dla } res s
          | none => if holdsLine s l then scrubPast (scrubRead s l) res s else scrubOther (scrubRead s l) res s)) :=
  congrArg Host.Outcome.next (if_neg (by simp [hphase, hchan]))

/-- A sector that scrub covers. -/
theorem execPatrolScrub_of_covered {course sector : Nat} {res : SenseResult} {s : State} (hphase : s.pw.phase = .service)
    (hchan : chanHalted s (chanBit (courseStack course / 2) 3) = false) (hcourse : scrubbed s course = true)
    (hsector : sector ≤ scrubLast (courseOf s course).fast) : execPatrolScrub course sector res s = .next (
      let l := locOf (courseStripe course) (courseStack course) (courseOf s course).fast sector
      scrubStepEnd course sector (match lineAtLoc s l with
          | some dla => scrubLine course dla { scrubRead s l with use := .redrain dla } res s
          | none => if holdsLine s l then scrubPast (scrubRead s l) res s else scrubOther (scrubRead s l) res s)) := by
  refine (execPatrolScrub_of_running hphase hchan).trans ?_
  exact congrArg (fun u => Host.Outcome.next (scrubStepEnd course sector u))
    (if_neg (by simp [hcourse, Nat.not_lt.mpr hsector]))

section
variable {line : Nat} {res other : DramSense} {s : State}

/-- DRAM patrol once its channel may serve it, of a mirrored line. -/
theorem execDramPatrol_of_mirrored (hmay : mayServe s 3 line = true) (hmirror : mirrored line = true) :
    execDramPatrol line ⟨res, other⟩ s = .next (
      let r := readMirror (copyZero line) line res other (wakeRank line s)
      if r.1 == .lost then bothLost line r.2 else r.2) := by
  rw [execDramPatrol, if_neg (by simp [hmay])]
  exact congrArg Host.Outcome.next (if_pos hmirror)

/-- DRAM patrol once its channel may serve it, of a line with one copy. -/
theorem execDramPatrol_of_unmirrored (hmay : mayServe s 3 line = true) (hmirror : mirrored line = false) :
    execDramPatrol line ⟨res, other⟩ s = .next (match decodeAt (wakeRank line s) line 0 { err := res.err } with
      | .clean => wakeRank line s
      | .corrected dqs => dramCorrected line dqs (wakeRank line s)
      | .wrong _ _ => wakeRank line s
      | .uncorrectable => dropAt line (dramUncorrectable (wakeRank line s))) := by
  rw [execDramPatrol, if_neg (by simp [hmay])]
  exact congrArg Host.Outcome.next (if_neg (by simp [hmirror]))

end

/-- Settles O60. -/
theorem patrolRows : Obligations.PatrolRows := by
  unfold Obligations.PatrolRows
  refine ⟨fun course sector res s hnot => ?_, fun course sector res s hphase hchan hnot => ?_,
    fun course sector res s hphase hchan hcourse hsector hline hholds => ?_,
    fun course sector res s hphase hchan hcourse hsector hline hholds => ?_,
    fun course sector dla res s hphase hchan hcourse hsector hline => ?_, fun line res other s hmay => ?_,
    fun line res other s hmay hmirror hlost => ?_, fun line res other s hmay hmirror hlost => ?_,
    fun line res other s hmay hmirror hdec => ?_, fun line res other dqs s hmay hmirror hdec => ?_,
    fun line res other s hmay hmirror hdec => ?_, fun slice s => rfl, fun slice s => rfl, fun slice lpn s => rfl,
    fun slice sl i s => rfl, fun slice node dla s hnode htrans => ?_, fun slice node dla s hnode htrans => ?_,
    fun slice dla s => rfl, fun slice node dla s => rfl, fun slice sl s hsl => ?_⟩
  · refine congrArg Host.Outcome.next (if_pos ?_)
    rcases hnot with h | h <;> simp [h]
  · refine (execPatrolScrub_of_running hphase hchan).trans ?_
    exact congrArg (fun u => Host.Outcome.next (scrubStepEnd course sector u))
      (if_pos (by rcases hnot with h | h <;> simp [h]))
  · refine (execPatrolScrub_of_covered hphase hchan hcourse hsector).trans ?_
    dsimp only
    rw [hline, hholds]
    rfl
  · refine (execPatrolScrub_of_covered hphase hchan hcourse hsector).trans ?_
    dsimp only
    rw [hline, hholds]
    rfl
  · refine (execPatrolScrub_of_covered hphase hchan hcourse hsector).trans ?_
    dsimp only
    rw [hline]
    rfl
  · exact congrArg Host.Outcome.next (if_pos (by simp [hmay]))
  · exact (execDramPatrol_of_mirrored hmay hmirror).trans (congrArg Host.Outcome.next (if_neg (by simp only [hlost]; decide)))
  · exact (execDramPatrol_of_mirrored hmay hmirror).trans (congrArg Host.Outcome.next (if_pos hlost))
  · refine (execDramPatrol_of_unmirrored hmay hmirror).trans ?_
    rw [hdec]
  · refine (execDramPatrol_of_unmirrored hmay hmirror).trans ?_
    rw [hdec]
  · refine (execDramPatrol_of_unmirrored hmay hmirror).trans ?_
    rw [hdec]
  · exact congrArg Host.Outcome.next ((if_pos hnode).trans (if_neg (by simp only [htrans]; decide)))
  · exact congrArg Host.Outcome.next ((if_pos hnode).trans (if_pos htrans))
  · exact congrArg (fun n => Host.Outcome.next (beginFault (.sram n) s)) (if_pos hsl)

end Sys2Proof.Machine
end
